-- ==== Sys2Proof/Syntax.lean ====
section
/-! DEFINITION. The commands of the block: one constructor per row of spec/opcode_table.json. A Berza
command carries its frame's header and the arguments of its chapter in the order the chapter lists them; an
event carries the unit it happens in and what the outside supplies. -/

namespace Sys2Proof

/-- What the first frame of a Berza command says beside its arguments (R330): the mailbox it is posted in,
SEQ, CHK, EPOCH and EFF_TICK; `stale` is what the keeper finds meanwhile: its shadow of the unit that the command reads disagrees
with hardware (R344). -/
structure Hdr where
  ctx : Nat
  mb : Nat
  seq : Nat
  chk : Bool := false
  epoch : Word := 0
  eff : Nat := 0
  stale : Bool := false
  deriving DecidableEq, Repr

/-- An argument that names one of several kinds, such as CELL or GROUP (R331): kind in the order the chapter
lists the kinds, and number. A link slot's number is 256 times the link plus the slot (R364). -/
structure Sel where
  kind : Nat
  num : Nat
  deriving DecidableEq, Repr

/-- A colony-link frame as received: byte 1 (TYPE and SUB), the 16 payload bytes, the CRC-16 (R241). -/
structure ColFrame where
  hdr : Byte
  payload : BitVec 128
  crc : BitVec 16
  deriving DecidableEq, Repr

/-- What hardware measures of one hive over a pace window (R49). -/
structure HiveMeas where
  hive : Nat
  busy : Nat
  idle : Nat
  fillMin : Nat
  late : Bool
  deriving DecidableEq, Repr

/-- The per-channel settings of `DMC_CONFIG` (R312). -/
structure DmcChan where
  speed : Nat
  ranks : Nat
  density : Nat
  map : Nat
  ref2x : Nat
  pageIdle : Nat
  pdIdle : Nat
  deriving DecidableEq, Repr

/-- The arguments of `LINK_SET` (R281). -/
structure LinkArgs where
  domain : Nat
  firstLane : Nat
  l : Nat
  m : Nat
  s : Nat
  e : Nat
  laneMap : List Nat
  presets : Nat
  statusPin : Nat
  cap24 : Nat
  rxLat : Nat
  crcLimit : Nat
  eyeWMin : Nat
  eyeHMin : Nat
  retryS : Nat
  safeLink : Nat
  deriving DecidableEq, Repr

/-- The arguments of `CAP_ARM` (R199); `count` stands for COUNT or SHOTS. -/
structure CapArmArgs where
  ringBase : Nat
  ringLen : Nat
  rearm : Nat
  count : Nat
  preLen : Nat
  postLen : Nat
  accBase : Nat
  l : Nat
  delay : Nat
  clear : Nat
  dump : Nat
  deriving DecidableEq, Repr

/-- What an eye measurement of one RX lane gives (R275, R280). -/
structure EyeMeas where
  lane : Nat
  w : Nat
  h : Nat
  ctle : Nat
  deriving DecidableEq, Repr

/-- What a finished calibration run measured (R371): one status per item (0 pass, 1 fail) and what the items
report: the pace figures, the eyes of the lanes, the residuals. `synFails` lists the cells whose
SYN residual missed its threshold, `synPass` those that passed, `auxFails` the auxiliary channels above 4 LSB. -/
structure CalResult where
  status : List Nat
  paceMargin : Nat
  paceWorst : Nat
  paceVcore : Nat
  eyes : List EyeMeas
  auxResid : Nat
  auxWorst : Nat
  auxFails : List Nat
  synResid : Nat
  synWorst : Nat
  synFails : List Nat
  synPass : List Nat
  deriving DecidableEq, Repr

/-- What the boot ROM's check of an image area finds in a valid image (R346). -/
structure ImgInfo where
  version : Nat
  svn : Nat
  loadKiB : Nat
  deriving DecidableEq, Repr

/-- The JTAG instructions of R401. -/
inductive JtagInstr where
  | bypass
  | idcode
  | sample
  | extest
  | extestPulse
  | extestTrain
  deriving DecidableEq, Repr

/-- The 264 commands. -/
inductive Instr where
  -- reset and bring-up
  | powerOn
  | powerOff
  | resetNAssert
  | resetNRelease (refclkSel colRole1 colRole0 : Bool)
  | timePllLock
  | timeUnlock
  | combBankCleared (hive : Nat) (catchBank : Bool)
  | flashReady
  | keeperStart
  | calLoadDone
  | pciePerst
  | pcieDown
  -- host interface
  | post (ctx mb : Nat)
  | ack (ctx mb : Nat)
  | mbReset (ctx mb : Nat)
  | frameTimeout (ctx mb : Nat)
  | ctxIrqStatusRead (ctx : Nat)
  | devtimeLatchRead
  | windowWrite (offset : Nat) (data : List Byte)
  | bulkApertureWrite (offset : Nat) (data : List Byte)
  | bulkApertureRead (offset len : Nat)
  | pcieAtomicOp (offset : Nat)
  | doorbellWrite (ctx offset width : Nat) (value : DWord)
  | doorbellApply
  | spiWrite (instr addr : Nat) (data : List Byte)
  | spiRead (addr len : Nat)
  | spiIrqRead
  | spiId
  | registerWrite (offset : Nat) (data : List Byte)
  | commandDecision
  -- keeper, mode, firmware
  | nop (h : Hdr) (args : List Byte)
  | deviceInfo (h : Hdr)
  | readyRead (h : Hdr)
  | windowRead (h : Hdr) (offset count : Nat)
  | modeSet (h : Hdr) (mode power stopOnMismatch k e : Nat) (txMask : DWord)
  | warmReset (h : Hdr)
  | keeperRestart (h : Hdr) (image : Nat)
  | hostSet (h : Hdr) (spiMask noticeCh restartCh : Nat)
  | bulkWindowSet (h : Hdr) (base : Nat)
  | fwInfo (h : Hdr)
  | fwStage (h : Hdr) (image size : Nat)
  | flashEraseDone (ok : Bool)
  | fwData (h : Hdr) (image offset count : Nat) (data : List Byte)
  | fwVerify (h : Hdr) (image : Nat)
  | fwSelect (h : Hdr) (image : Nat)
  | fwCommit (h : Hdr)
  -- comb and tables
  | segLoad (h : Hdr) (ca count : Nat) (data : List Byte)
  | combRead (h : Hdr) (ca count : Nat)
  | combFill (h : Hdr) (ca length : Nat) (pattern : DWord)
  | combAtomic (h : Hdr) (ca op : Nat) (operand : DWord)
  | combRegionSet (h : Hdr) (hive bank region owner secure : Nat)
  | combActiveRead (h : Hdr) (hive bank first count : Nat)
  | srcTableSet (h : Hdr) (hive srcCount : Nat)
  | srcDescSet (h : Hdr) (hive index : Nat) (desc : BitVec 256)
  | curveAreaSet (h : Hdr) (hive base envCount : Nat)
  -- clocks
  | domainSet (h : Hdr) (domain num den div ldiv lockN guard : Nat)
  | domainOff (h : Hdr) (domain : Nat)
  | syncConfig (h : Hdr) (syncLog2 syncLat drive check : Nat)
  | sysrefSet (h : Hdr) (domain mode period count width delay : Nat)
  | timeHorizonSet (h : Hdr) (hor : Nat)
  | timePpsSet (h : Hdr) (sec : Nat)
  | paceConfig (h : Hdr) (window margin fillGuard fillAlarm floor ceiling stepUp stepDown : Nat)
  -- cells
  | cellBind (h : Hdr) (cell domain ratio : Nat) (target : Sel) (bridge : Nat) (park : Int) (slip : Nat)
  | cellArm (h : Hdr) (cell stepBase stepCount jmapBase jmapCount firstStep : Nat)
  | cellStart (h : Hdr) (unit : Sel)
  | cellStop (h : Hdr) (unit : Sel)
  | cellPause (h : Hdr) (unit : Sel)
  | cellResume (h : Hdr) (unit : Sel)
  | cellRateSet (h : Hdr) (cell ratio : Nat)
  | cellUnbind (h : Hdr) (cell : Nat)
  | groupSet (h : Hdr) (group : Nat) (cells : List Nat)
  | cellClear (h : Hdr) (cell : Nat) (mask : DWord)
  | cellReset (h : Hdr) (cell : Nat)
  -- synthesis
  | synConfig (h : Hdr) (cell format pdEn pdAddr : Nat) (gU oU : Int)
  | synGainSet (h : Hdr) (unit : Sel) (gU oU : Int)
  | formatSet (h : Hdr) (link entry : Nat) (word : Word)
  | synClear (h : Hdr) (cell : Nat) (mask : DWord)
  | synCoefRead (h : Hdr) (phase : Nat)
  | synCalApply (h : Hdr) (cell : Nat) (gC oC : Int)
  -- play queues
  | queueOpen (h : Hdr) (cell q ringBase sizeLog2 mode tail bufBase bufCount : Nat)
  | queueClose (h : Hdr) (cell q : Nat)
  | queueStatus (h : Hdr) (cell q : Nat)
  | queueFlush (h : Hdr) (cell q : Nat)
  -- capture
  | capBind (h : Hdr) (channel domain k slot recBase recLog2 mode : Nat)
  | capArm (h : Hdr) (channel : Nat) (a : CapArmArgs)
  | capArmFillDone (channel : Nat)
  | capDisarm (h : Hdr) (unit : Sel)
  | capTrigger (h : Hdr) (channel : Nat)
  | capRelease (h : Hdr) (channel rd : Nat)
  | capTrigSet (h : Hdr) (channel enable : Nat) (thr : Int) (hyst edge : Nat)
  | capUnbind (h : Hdr) (channel : Nat)
  | capClear (h : Hdr) (channel : Nat) (mask : DWord)
  -- waggle
  | wagChanSet (h : Hdr) (channel : Nat) (entry : DWord)
  | wagTaskSet (h : Hdr) (task : Nat) (slots : List Word) (scope : Nat)
  | wagRaise (h : Hdr) (channel level : Nat)
  | wagTimerSet (h : Hdr) (timer first period count delay : Nat)
  | wagCounterSet (h : Hdr) (counter value terminal reload : Nat)
  | wagPinSet (h : Hdr) (pin dir idle action width : Nat)
  | wagWatchRead (h : Hdr)
  | wagClear (h : Hdr) (unit : Sel) (mask : DWord) (level : Nat)
  | wagOwnerSet (h : Hdr) (kind index owner secure : Nat)
  -- links
  | linkSet (h : Hdr) (link : Nat) (a : LinkArgs)
  | linkEnable (h : Hdr) (link : Nat)
  | linkDisable (h : Hdr) (link : Nat)
  | linkRetrain (h : Hdr) (link : Nat)
  | linkSlotSet (h : Hdr) (link slot format : Nat)
  | linkEyeRead (h : Hdr) (lane : Nat)
  | linkClear (h : Hdr) (link : Nat) (mask : DWord)
  -- DRAM
  | dmcConfig (h : Hdr) (chans : List DmcChan) (interleave ctxBase ageLimit minMargin trackH ceLimit : Nat)
  | dramRegionSet (h : Hdr) (first count owner secure : Nat)
  | dramRegionRead (h : Hdr) (first count : Nat)
  | dmcRetrain (h : Hdr) (channel kind : Nat)
  | dmcScrubSet (h : Hdr) (enable periodH : Nat)
  | dramWrite (h : Hdr) (addr count : Nat) (data : List Byte)
  | dramRead (h : Hdr) (addr count : Nat)
  | dmcClear (h : Hdr) (channel : Nat) (mask : DWord) (unfreeze : Nat)
  -- auxiliary outputs
  | auxConfig (h : Hdr) (channel shape stepSize rate clearCode : Nat)
  | auxWrite (h : Hdr) (channel code raw : Nat)
  | auxReadback (h : Hdr) (channel : Nat)
  | auxReadbackDone (channel : Nat) (meas : Nat)
  | auxClear (h : Hdr) (channel : Nat) (mask : DWord)
  -- colony
  | colConfig (h : Hdr) (starMask : DWord) (swlLead : Nat)
  | colSkewCal (h : Hdr) (exchanges swlMask : Nat)
  | colTunnel (h : Hdr) (device path : Nat) (frame : List Byte)
  | colClear (h : Hdr) (mask : DWord)
  | colWake (h : Hdr) (workerMask : DWord) (wakeTick : Nat)
  -- security, power, debug
  | ctxSet (h : Hdr) (context enable secure : Nat)
  | ownSet (h : Hdr) (kind first count owner secure : Nat)
  | ownRead (h : Hdr) (kind first count : Nat)
  | wakeSet (h : Hdr) (evpMask : Word) (swlMask : BitVec 16) (colony wakeTick : Nat)
  | lcAdvance (h : Hdr) (target confirm : Nat)
  | dbgOpen (h : Hdr) (level : Nat)
  | dbgResponse (h : Hdr) (resp : BitVec 256) (sessionMin : Nat)
  | dbgClose (h : Hdr)
  | dbgTraceRead (h : Hdr) (offset count : Nat)
  -- calibration and services
  | calRead (h : Hdr) (kind index source : Nat)
  | calWrite (h : Hdr) (kind index apply : Nat) (payload : List Byte)
  | calRecordProgrammed (ok : Bool)
  | calErase (h : Hdr) (kind index apply : Nat)
  | bgsSet (h : Hdr) (groomRate eyePeriod skewPeriod endurance : Nat)
  | telemRead (h : Hdr) (first count : Nat)
  | calStart (h : Hdr) (items : Nat) (cells : List Nat) (laneMask : Word) (auxMask : DWord)
  | calRunComplete (r : CalResult)
  -- faults and resets
  | faultClear (h : Hdr) (block : Nat) (mask : Word) (rearm : Nat)
  | faultMaskSet (h : Hdr) (block : Nat) (mask : Word)
  | faultEscSet (h : Hdr) (block window reaction : Nat)
  | faultInject (h : Hdr) (kind block bit cls object count : Nat)
  | restoreClear (h : Hdr) (mask : Word)
  -- journal
  | jnlConfig (h : Hdr) (base size mode ckptPeriod : Nat) (rxMask : Word) (sigEn : Nat)
  | jnlStop (h : Hdr)
  | jnlCkpt (h : Hdr)
  | jnlExport (h : Hdr) (first last : Nat) (dest : Sel)
  | jnlImport (h : Hdr) (source : Sel)
  -- events of the keeper and the services
  | keeperRestartDone
  | wdog
  | firmwareErrorRestart
  | shadowAudit (diverged : List Sel)
  | paceWindowClose (readVout : Nat) (statusFault : Bool) (hives : List HiveMeas)
  | fillAlarm (hive : Nat)
  | telemetrySample (chan : Nat) (value : BitVec 16)
  | groomGranule (hive bank granule : Nat) (fails restorable : Bool)
  | eyeCheck (m : EyeMeas)
  | skewCheck (exchanges : Nat)
  | flashCompaction (store : Nat) (fits : Bool) (maxErase : Nat)
  | regParityCheck (block : Nat)
  | escalationDeadline (block : Nat)
  -- events of pins and time
  | evpEdge (pin : Nat) (level : Bool)
  | swlEdge (line : Nat) (level : Bool) (sub : Nat)
  | swarmReportTimeout (line : Nat)
  | ppsEdge (sub : Nat)
  | ppsMissing
  | syncOutPulse
  | syncInEdge
  | syncMiss
  -- colony links
  | frameSlot (port : Nat)
  | idleFrame (port : Nat) (f : ColFrame)
  | timeFrame (port : Nat) (f : ColFrame)
  | eventFrame (port : Nat) (f : ColFrame)
  | swarmFrame (port : Nat) (f : ColFrame)
  | delayRequest (port : Nat) (f : ColFrame) (t2 : Nat)
  | delayResponse (port : Nat) (f : ColFrame) (t4 : Nat)
  | statusFrame (port : Nat) (f : ColFrame)
  | join (port : Nat) (f : ColFrame)
  | horizonFrame (port : Nat) (f : ColFrame)
  | correct (port : Nat) (f : ColFrame)
  | swarmCal (port : Nat) (f : ColFrame) (told : Bool)
  | wakeFrame (port : Nat) (f : ColFrame)
  | tunnelFrame (port : Nat) (f : ColFrame)
  | chainFrame (port : Nat) (f : ColFrame)
  | portUp (port : Nat)
  | portDown (port : Nat)
  | correctionSlewStep
  | tunnelTimeout
  -- domains and links
  | domainLock (domain : Nat)
  | domUnlock (domain : Nat)
  | guardTrip (domain : Nat)
  | sysrefPulse (domain : Nat)
  | trainingComplete (link : Nat) (eyes : List EyeMeas)
  | presetDwellEnd (link preset : Nat)
  | noSysref (link : Nat)
  | retryTimer (link : Nat)
  | laneLock (lane : Nat)
  | crcLimit (lane errors : Nat)
  | rxLate (link : Nat)
  | statusPin (link : Nat)
  -- samples, refill, capture
  | sampleEmission (cell : Nat) (late : Bool)
  | refillIssue (hive : Nat)
  | blockResident (cell q blk : Nat)
  | captureSample (channel : Nat) (word : Word)
  | rearmTick (channel : Nat)
  | streamChunk (hive samples : Nat)
  | recordCommit (channel : Nat)
  -- waggle events
  | eventHop
  | taskDecision (task : Nat)
  | tickTimerExpiry (timer : Nat)
  | pinPulseEnd (pin : Nat)
  | swarmDriveLaunch (line : Nat)
  | swarmDriveRelease (line : Nat)
  -- DRAM events
  | dramCommandSlot (channel : Nat)
  | dramEntryDone (channel entry : Nat)
  | refreshDue (channel rank : Nat)
  | pageIdleClose (channel rank bank : Nat)
  | powerDownEntry (channel rank : Nat)
  | dramTrainingDone (channel : Nat) (pass : Bool) (margin : Nat)
  | dramClearDone (channel : Nat)
  | trackDone (channel : Nat) (pass : Bool) (margin : Nat)
  | tjMoveTrigger (channel : Nat)
  | trackTimer (channel : Nat)
  | ceLimit (channel : Nat)
  | caParity (channel : Nat)
  | patrolScrubBurst (channel : Nat)
  -- power
  | retainLoss
  | standbyEntryDone
  | pwrEntry
  | wakeTick
  | wakeComplete
  -- auxiliary outputs
  | auxClrAssert
  | auxClrRelease
  | auxSlewStep (channel : Nat)
  | deglitchHoldEnd (channel : Nat)
  | auxShort (channel : Nat) (active : Bool)
  -- debug
  | debugHalt
  | debugResume
  | dbgWrite (space addr : Nat) (data : List Byte)
  | jtagInstructionLoad (i : JtagInstr)
  | tapReset
  | sessionExpiry
  | nonceExpiry
  | authLockExpiry
  -- journal and replay
  | checkpoint
  | replayStart
  | replayEntry
  | replayEnd
  -- completions
  | multiblockLockAcquired (link : Nat) (arrivals : List Nat)
  | pcieLinkUp
  | regulatorConfirm (readVout : Nat)
  | combWriteDone
  | fwProgramDone (ok : Bool)
  | fwVerifyDone (verdict : Option ImgInfo)
  | fwCommitDone (ok : Bool)
  | lcAdvanceDone
  | jnlExportDone (ok : Bool)
  | jnlImportDone (ok : Bool)
  | colSkewCalDone (silent : Bool)
  deriving DecidableEq, Repr

end Sys2Proof
end

