-- ==== Sys2Proof/Decode.lean ====
section
/-! DEFINITION. The command a word spells by the table's bits. spec/opcode_table.json gives no row any bits
(its rows are steps of the device, not words), so no word spells a command here. Berza frames are parsed
where a mailbox takes them, by the layouts of R331 (Machine/Operands.lean). -/

namespace Sys2Proof

/-- The command spelled by the `nbits` bits of `w`: none, since no row of the table has bits. -/
def decodeTableWord (_nbits _w : Nat) : Option Instr := none

end Sys2Proof
end

