-- ==== Sys2Proof/Config.lean ====
section
/-! DEFINITION. What one implementation fixes and the spec does not give: uninterpreted constants, one for
each open value. No proof can see a value of any of them. -/

namespace Sys2Proof.Config

/-- Entries of the resampler's table that R102 leaves open (phase, tap); the table built from them keeps what
R102 states of it. Log 10. -/
opaque resamplerRaw : Nat → Nat → Int

/-- HMAC-SHA-256 under the device key over nonce, serial number and session minutes (R397). Log 11. -/
opaque hmac : BitVec 128 → Nat → Nat → BitVec 256

/-- The next nonce of the random source (R397). Log 11. -/
opaque nonce : Nat → BitVec 128

/-- A byte of a capture record whose sample was lost or hit an uncorrectable error (R192, R193), and any other
byte the spec leaves unspecified. Log 12. -/
opaque freeByte : Nat → Byte

/-- The length in 16-byte units of a journal entry whose payload layout R433 does not give. Log 13. -/
opaque jnlLen : Nat → Nat

/-- The bytes of the header of a journal copy (R438), by the tick of its first checkpoint. Log 13. -/
opaque exportByte : Nat → Nat → Byte

/-- The bytes of a journal entry's payload for which R433 and R434 give no layout: tick, SEQ, byte. Log 13. -/
opaque entryByte : Nat → Nat → Nat → Byte

/-- TX_LAT of a link configuration (link, domain, first lane, lanes, converters, E): fixed by the
implementation, at most 480 time units (R272). Log 14. -/
opaque txLat : Nat → Nat → Nat → Nat → Nat → Nat → Nat

/-- The taps of a lane's decision-feedback equaliser as it has adapted by a tick (R275, R280): lane, tap, tick. Log 15. -/
opaque dfeTap : Nat → Nat → Nat → Byte

/-- The pre-cursor, main and post-cursor setting of a preset of the transmit FFE (R276), by link and preset: `LINK_SET` gives it, and
no rule says where. Log 58. -/
opaque ffePreset : Nat → Nat → Nat × Nat × Nat

/-- A delay register that a DRAM training writes (channel, register, training): a measurement (R304, R314).
Log 22. -/
opaque dmcDelay : Nat → Nat → Nat → BitVec 64

/-- The SRC_ID that the event of a `CAP_TRIGGER` command carries (R179, R190). Log 23. -/
opaque capTriggerSrc : BitVec 16

/-- SEQ in the header of a record in force, which joins two stores (R365, R379): kind, index. Log 25. -/
opaque inForceSeq : Nat → Nat → Nat

/-- The design latency of the boot ROM for a colony port (transmit, receive) or a swarm line, in 1/64 time unit
(R365): kind, index, which. Log 25. -/
opaque nominalLat : Nat → Nat → Nat → Nat

/-- `PPS_INTERVAL` on an edge that is accepted unconditionally at a device time and lies no number of seconds after another
(R35). Log 75. -/
opaque openInterval : Nat → BitVec 32

/-- SLACK of a hive with a running channel whose pipeline was neither busy nor idle in a window (R49), by hive and window
number. Log 75. -/
opaque openSlack : Nat → Nat → Nat

/-- BANK_BUSY indications of one read of a catch bank, of which neither the rounds nor the owner's accesses in them are known
(R124, R125). Log 70. -/
opaque bankBusy : Nat → Nat

/-- Which unlocked line of a full queue-context cache a fill replaces (R151). Log 76. -/
opaque cacheVictim : Nat → Nat

/-- The flight delay, in 1/64 time unit, with which a worker estimates the manager's tick (R244), by local count: no frame tells
it. Log 24. -/
opaque linkDelay : Nat → Nat

/-- Whether the CORRECT frame of a tick is part of a `COL_SKEW_CAL` that succeeds (R259): no frame tells a worker. Log 24. -/
opaque calibrationTold : Nat → Bool

/-- Whether the keeper's shadow of the unit that a posted command reads disagrees with hardware (R344): nothing that the state holds
makes it do so. Log 32. -/
opaque shadowStale : Nat → Bool

/-- How far ahead of a tick the manager sets the launch tick of a calibration pulse on a line (R248). Log 24. -/
opaque calLead : Nat → Nat → Nat

/-- A word of the keeper trace (R396), whose events the spec does not give. Log 16. -/
opaque traceWord : Nat → Word

end Sys2Proof.Config
end

