-- ==== Sys2Proof/Machine/State.lean ====
section
/-! DEFINITION. The state of the block: every register, memory, queue, counter, mode and pin the spec gives
the ZW1024, as plain data, and the queue of waiting commands. Unit tables (`Tab`) list only the units that
differ from their power-on record, in rising order of their number; register widths stand in INVENTORY.md. -/

namespace Sys2Proof.Machine

/-- A table of units by number, holding no entry equal to the unit's power-on record, numbers rising. -/
abbrev Tab (α : Type) := List (Nat × α)

/-- The two variants (R1, R2). -/
inductive Variant where
  | zw1024
  | zw0256
  deriving DecidableEq, Repr

/-- The eight modes (R18), in the order of their codes 0 to 7. -/
inductive Mode where
  | bringUp
  | idle
  | run
  | replay
  | calibrate
  | standby
  | safe
  | factory
  deriving DecidableEq, Repr

/-- The error codes of a reply (R337), in the order of their values 0x0000 to 0x0016. -/
inductive Err where
  | ok
  | badOpcode
  | badArg
  | notReady
  | staleEpoch
  | denied
  | badMode
  | modePending
  | tickPast
  | badState
  | pendingFull
  | segActive
  | memError
  | memOffline
  | colLink
  | colTimeout
  | badCrc
  | badFrame
  | duplicate
  | badSeq
  | restarted
  | fwAuth
  | auth
  deriving DecidableEq, Repr

/-- The thirteen fault blocks (R410), in the order of their numbers. -/
inductive Block where
  | cel
  | cmb
  | pqm
  | dmc
  | cap
  | wag
  | lnk
  | tim
  | col
  | kpr
  | aux
  | bgs
  | spd
  deriving DecidableEq, Repr

/-- An owner context and secure attribute (R386); the power-on record is context 0, secure. -/
structure Own where
  owner : Nat := 0
  secure : Bool := true
  deriving DecidableEq, Repr

/-- One waggle event (R202); `taint` marks, in replay, one that descends from a TAINT entry (R441). -/
structure Event where
  origin : Nat
  channel : Nat
  level : Bool
  gen : Nat
  srcId : Nat
  taint : Bool := false
  deriving DecidableEq, Repr

/-! ### Cells and synthesis (03, 04) -/

/-- The states of a cell (R59). -/
inductive CellSt where
  | off
  | bound
  | armed
  | running
  | paused
  | reflock
  deriving DecidableEq, Repr

/-- One loop level of a cell (R75). -/
structure LoopLvl where
  active : Bool := false
  openStep : Nat := 0
  done : Nat := 0
  deriving DecidableEq, Repr

/-- Where the sample just emitted leaves a cell when the instant of the next one comes (R69, R77): its position, and why
it stops there, 1 END, 2 LOOP_UNMATCHED, else 0. -/
structure NextPos where
  step : Nat := 0
  pos : Nat := 0
  passes : Nat := 0
  dead : Nat := 0
  loops : Tab LoopLvl := []
  stop : Nat := 0
  deriving DecidableEq, Repr

/-- The tables a `CELL_ARM` named and made active (R65, R131): granule ranges as (first granule, count). -/
structure ArmInfo where
  stepBase : Nat
  stepCount : Nat
  jmapBase : Nat
  jmapCount : Nat
  firstStep : Nat
  areas : List (Nat × Nat)
  queues : List Nat
  deriving DecidableEq, Repr

/-- The signature block a cell is forming (R436): block, samples, CRC register, check of the piece begun,
checks of the whole pieces, tick of each piece's first sample and of the last sample; in replay, that a sample
was missing or LATE that the journal played (R442). -/
structure SigAcc where
  blk : Nat := 0
  count : Nat := 0
  crc : Nat := 0xFFFFFFFF
  piece : Nat := 0
  pieces : List Nat := []
  ticks : List Nat := []
  last : Nat := 0
  starved : Bool := false
  lateLocal : Bool := false
  deriving DecidableEq, Repr

/-- One cell with its synthesis path (R55-R89, R109-R118, R169, R436). `n` is the index of the next sample
of its grid, `pos`, `step`, `passes` and `loops` the walk, `hist` the s1 values of the run so far (newest
first); `arms` holds what accepted arms made active, by the serial of the command, until they are decided; `entering` says that
a jump's target is entered at the end of its dead time (R80), `haltAt` is the sample at which the last stop or pause took effect,
`acted` one more than the tick of the last decision on the cell (R62). -/
structure Cell where
  st : CellSt := .off
  domain : Nat := 0
  ratio : Nat := 0
  target : Sel := ⟨2, 0⟩
  bridge : Nat := 0
  park : Int := 0
  slip : Bool := false
  group : Nat := 63
  epoch : Word := 0
  flags : Word := 0
  lateCount : Nat := 0
  underrunCount : Nat := 0
  emitCount : Word := 0
  step : Nat := 0
  pos : Nat := 0
  passes : Nat := 0
  dead : Nat := 0
  next : Option NextPos := none
  loops : Tab LoopLvl := []
  mRef : Nat := 0
  nRef : Nat := 0
  n : Nat := 0
  hold : Int := 0
  arm : Option ArmInfo := none
  arms : List (Nat × ArmInfo) := []
  gen : Nat := 0
  tainted : Bool := false
  markers : Nat := 0
  out : Word := 0
  outValid : Bool := false
  shift : Nat := 0
  format : Nat := 0
  pdEn : Bool := false
  pdAddr : Nat := 0
  gU : Int := 0x10000000
  oU : Int := 0
  gC : Int := 0x10000000
  oC : Int := 0
  ddsA : Nat := 0
  ddsHi : Word := 0
  hist : List Int := []
  clipPre : Bool := false
  clipOut : Bool := false
  clipPreCount : Nat := 0
  clipOutCount : Nat := 0
  inGap : Bool := false
  gapRun : Nat := 0
  gapFirst : Nat := 0
  gapQ : Nat := 0
  gapEmpty : Bool := false
  gapCount : Nat := 0
  slipTotal : Nat := 0
  lastGap : Nat := 0
  lateRun : Nat := 0
  lateFirst : Nat := 0
  sig : SigAcc := {}
  lateInject : Nat := 0
  entering : Bool := false
  haltAt : Option Nat := none
  acted : Nat := 0
  deriving DecidableEq, Repr

/-! ### Comb (05) -/

/-- A memory of the comb that no host addresses, the keeper scratchpad or the queue-context cache (R119, R141): its words with an
uncorrectable and with a single-bit error, its granules remapped to spares, and those marked bad (R142). -/
structure InnerMem where
  ue : List Nat := []
  ce : List Nat := []
  spares : List Nat := []
  bad : List Nat := []
  deriving DecidableEq, Repr

/-- A line of the queue-context cache (R151): the queue whose context it holds, and whether it is newer than the copy in DRAM
(R138). -/
structure CtxLine where
  queue : Option Nat := none
  dirty : Bool := false
  deriving DecidableEq, Repr

/-- The queue-context cache, 131,072 lines of 32 bytes by their place, and the error marks of cache and scratchpad. -/
structure Inner where
  lines : Tab CtxLine := []
  cache : InnerMem := {}
  scratch : InnerMem := {}
  deriving DecidableEq, Repr

/-- The comb of one hive: readiness, power and the counters of R143, the source table and curve area sizes
(R63, R106), spares (R142). Bank 0 is the play bank, 1 the catch bank. -/
structure Hive where
  playReady : Bool := false
  catchReady : Bool := false
  power : Nat := 2
  epoch : Word := 0
  cePlay : Nat := 0
  ceCatch : Nat := 0
  busy : Nat := 0
  groomGranule : Nat := 0
  groomBank : Nat := 0
  groomPasses : Nat := 0
  sparesPlay : List Nat := []
  sparesCatch : List Nat := []
  bad : List (Nat × Nat) := []
  ueCount : Nat := 0
  srcCount : Nat := 0
  srcUsers : Bool := false
  curveBase : Nat := 0
  envCount : Nat := 0
  -- pace measures (R49)
  slack : Nat := 0x400
  fillMin : Nat := 0x40
  lateWin : Bool := false
  late : Bool := false
  window : Nat := 0
  -- PQM of the hive (R170); `rr` is the round-robin position of R157
  credits : Nat := 64
  pqmEpoch : Word := 0
  refillCount : Word := 0
  latMax : Nat := 0
  latOver : Nat := 0
  skipCount : Nat := 0
  rr : Nat := 0
  deriving DecidableEq, Repr

/-! ### Play queues (06) -/

/-- The states of a queue (R150). -/
inductive QSt where
  | closed
  | opened
  | streaming
  | failed
  deriving DecidableEq, Repr

/-- A block requested or resident (R156): stream byte of its first byte, length, DRAM address, buffer, tick
of its credit, tick at which it became resident, whether the position passed it in flight (R164), whether its
reads hold DRAM slots, whether they have completed, whether a flush or close has discarded it (R155), and the bytes read so
far. -/
structure Blk where
  off : Nat
  len : Nat
  addr : Nat
  buf : Nat
  taken : Nat
  resident : Option Nat := none
  discard : Bool := false
  queued : Bool := false
  read : Bool := false
  flushed : Bool := false
  img : List Host.Cell := []
  deriving DecidableEq, Repr

/-- One play queue: the fields of its context (R150) and its blocks. `next` is the stream byte that follows
the last block requested; `pos` the stream position in samples; `holes` the stream byte ranges that were
never made resident (R166). -/
structure Queue where
  ringBase : Nat := 0
  sizeLog2 : Nat := 0
  mode : Nat := 0
  st : QSt := .closed
  head : Nat := 0
  tail : Nat := 0
  descOff : Nat := 0
  bufBase : Nat := 0
  bufCount : Nat := 0
  err : Nat := 0
  fmt : Nat := 0
  epoch : Word := 0
  pos : Nat := 0
  next : Nat := 0
  blocks : List Blk := []
  live : Nat := 0
  deriving DecidableEq, Repr

/-- A doorbell waiting in the FIFO (R152), with the numbers of the aperture writes that reached the device before it and have not
completed (R153). -/
structure Doorbell where
  ctx : Nat
  width : Nat
  value : DWord
  after : List Nat
  deriving DecidableEq, Repr

/-! ### Capture (07) -/

/-- The states of a capture channel (R175). -/
inductive CapSt where
  | off
  | bound
  | armed
  | window
  | rearm
  | draining
  deriving DecidableEq, Repr

/-- An entry reserved in a record ring (R187-R190): `off` is the byte count RSV at its start, `bytes` the
ring bytes it takes with its header, `streamed` the data samples already written or lost, `lostFirst` and
`lostRun` the run of lost samples in progress. -/
structure CapRec where
  kind : Nat
  off : Nat
  bytes : Nat
  seq : Nat
  trigTick : Nat := 0
  trigCh : Nat := 0
  gen : Nat := 0
  srcId : Nat := 0
  firstN : Nat := 0
  preValid : Nat := 0
  count : Nat := 0
  flags : Nat := 0
  cause : Nat := 0
  gapCount : Nat := 0
  shots : Nat := 0
  streamed : Nat := 0
  lostFirst : Nat := 0
  lostRun : Nat := 0
  committed : Bool := false
  abandoned : Bool := false
  deriving DecidableEq, Repr

/-- What an accepted `CAP_ARM` made active until it is decided (R131, R196): the serial of the command, its areas as (first granule,
granules), whether the fill of its accumulators is still to do. -/
structure CapPend where
  serial : Nat
  areas : List (Nat × Nat)
  fill : Bool
  deriving DecidableEq, Repr

/-- One capture channel (R172-R200). `n` is the next sample index, `nA` the arm point, `nT` the reference
sample of the accepted trigger, `nLast` the last post-trigger or window sample; `rxBad` the runs of samples
stored with RX_BAD (first, last; newest first), `states` the states by first sample, newest first (R180). -/
structure Cap where
  st : CapSt := .off
  mode : Nat := 0
  epoch : Word := 0
  seq : Nat := 0
  wr : Nat := 0
  rsv : Nat := 0
  rd : Nat := 0
  missed : Nat := 0
  shots : Nat := 0
  flags : Word := 0
  gapSamples : Nat := 0
  domain : Nat := 0
  k : Nat := 0
  slot : Nat := 0
  recBase : Nat := 0
  recLog2 : Nat := 0
  ringBase : Nat := 0
  ringLen : Nat := 0
  rearm : Nat := 0
  count : Nat := 0
  preLen : Nat := 0
  postLen : Nat := 0
  accBase : Nat := 0
  l : Nat := 0
  delay : Nat := 0
  dump : Bool := false
  areas : List (Nat × Nat) := []
  arms : List CapPend := []
  mA : Nat := 0
  n : Nat := 0
  nA : Nat := 0
  nT : Nat := 0
  nLast : Nat := 0
  made : Nat := 0
  tC : Nat := 0
  tR : Option Nat := none
  trig : Option Event := none
  recs : List CapRec := []
  rxBad : List (Nat × Nat) := []
  stackInvalid : Bool := false
  stackRx : Bool := false
  trigEn : Bool := false
  thr : Int := 0
  hyst : Nat := 0
  edge : Nat := 1
  primedUp : Bool := false
  primedDown : Bool := false
  shift : Nat := 0
  states : List (Nat × CapSt) := []
  deriving DecidableEq, Repr

/-! ### Waggle (08) -/

/-- What an event did to a channel's level (R207). -/
inductive LvlOp where
  | set (b : Bool)
  | toggle
  deriving DecidableEq, Repr

/-- One waggle channel: its entry (R205), its level as the list of what changed it by origin tick (R207), and
the status of R222. -/
structure Chan where
  entry : DWord := 0
  ops : List (Nat × LvlOp) := []
  seen : Bool := false
  loopCut : Bool := false
  loopSrc : Nat := 0
  count : Word := 0
  lastRaise : Option Nat := none
  own : Own := {}
  deriving DecidableEq, Repr

/-- An event that a task input holds, with what it arrived under (R209, R220): the gates of its slots (GATE and GATE_SRC), one of which
must be true, and SCOPE. -/
structure TaskEv where
  ev : Event
  gates : List (Nat × Nat)
  scope : Nat
  deriving DecidableEq, Repr

/-- One task input: its four slots and SCOPE (R209), its record (R223) and the events it holds (R213). -/
structure Task where
  slots : List Word := []
  scope : Nat := 0x7F
  coincident : Bool := false
  coCount : Nat := 0
  coChannel : Nat := 0
  overrun : Bool := false
  gated : Bool := false
  late : Bool := false
  ovrCount : Nat := 0
  act : Word := 0
  held : List (Nat × TaskEv) := []
  deriving DecidableEq, Repr

/-- From where a hop starts (R206, R217, R253): a producer (to every channel it is the source of), a producer
that raises on one channel by name, or a channel (to its relays, its task inputs and the colony). -/
inductive HopAt where
  | producer
  | onto (w : Nat)
  | leave (w : Nat)
  deriving DecidableEq, Repr

/-- An event in a hop that completes at tick `due`; `injected` says that it came over a colony link. -/
structure Hop where
  due : Nat
  ev : Event
  src : HopAt
  injected : Bool := false
  deriving DecidableEq, Repr

/-- One event counter (R210, R224). -/
structure Counter where
  value : Nat := 0
  terminal : Nat := 0xFFFFFFFF
  reload : Bool := false
  held : Bool := false
  own : Own := {}
  deriving DecidableEq, Repr

/-- One tick timer (R210, R211, R224); `remaining` counts expiries still to come, none for endless; `raised` is the tick of its last
event (R204). -/
structure Timer where
  programmed : Bool := false
  running : Bool := false
  next : Nat := 0
  remaining : Option Nat := none
  period : Nat := 0
  count : Nat := 0
  delay : Nat := 0
  gen : Nat := 0
  taint : Bool := false
  raised : Option Nat := none
  own : Own := {}
  deriving DecidableEq, Repr

/-- One event pin or swarm line (R207, R210, R221): numbers 0 to 31 are EVPn, 32 to 47 SWLn. `hist` lists the
stamped levels, newest first; `drive` is the level an output drives. -/
structure Pin where
  output : Bool := false
  idle : Bool := false
  action : Nat := 3
  width : Nat := 1
  drive : Bool := false
  pulseEnd : Option Nat := none
  hist : List (Nat × Bool) := []
  own : Own := {}
  deriving DecidableEq, Repr

/-! ### Clocks and colony (09) -/

/-- One rate domain (R230-R236, R258) with its SYSREF settings and the tick of its next pulse. -/
structure Domain where
  on : Bool := false
  locked : Bool := false
  guardOpen : Bool := false
  trip : Bool := false
  guard : Nat := 0x433
  unlocks : Nat := 0
  epoch : Word := 0
  num : Nat := 0
  den : Nat := 0
  div : Nat := 0
  ldiv : Nat := 0
  lockN : Nat := 0x400
  srMode : Nat := 0
  srPeriod : Nat := 0
  srCount : Nat := 0
  srWidth : Nat := 0
  srDelay : Nat := 0
  srNext : Nat := 0
  srLeft : Nat := 0
  srRise : Option Nat := none
  deriving DecidableEq, Repr

/-- A frame due on a colony port from tick `since` on (R243): its rank in the port's order, its bytes 1 to 17, for a
forwarded event its decision tick and channel (R254), and the mailbox whose reply slot is free once it is sent (R456). -/
structure DueFrame where
  rank : Nat
  hdr : Byte
  payload : BitVec 128
  dec : Nat := 0
  channel : Nat := 0
  since : Nat := 0
  frees : Option Nat := none
  deriving DecidableEq, Repr

/-- One colony port: 0 is CL_MGR, 1 to 63 CL_Wk, 64 CL_UP, 65 CL_DN (R238, R240, R259). -/
structure Port where
  st : Nat := 0
  delay : Nat := 0
  frameErr : Nat := 0
  fwdDrop : Nat := 0
  due : List DueFrame := []
  sinceTime : Nat := 0
  sinceStatus : Nat := 0
  lastSent : Option ColFrame := none
  lastSlot : Nat := 0
  good : Nat := 0
  bad : Nat := 0
  exchanges : Nat := 0
  acquiring : Bool := false
  answers : Nat := 0
  sumDelay : Int := 0
  sumTheta : Int := 0
  mean : Nat := 0
  stMode : Nat := 0
  stPower : Nat := 0
  stBits : Nat := 0
  maxHops : Nat := 0
  fragBuf : List Byte := []
  deriving DecidableEq, Repr

/-- A swarm edge a worker holds until the manager reports it (R251). -/
structure HeldEdge where
  line : Nat
  level : Bool
  origin : Nat
  comp : Nat
  kept : Bool := false
  deriving DecidableEq, Repr

/-- A skew measurement of a manager (R248): phase 1 the first exchanges, 2 the further ones, 3 the swarm lines, 4 passed, 5 failed;
EXCHANGES, the ports that take part, the swarm lines named, the compensation of each line stamped so far; `service` tells a check
of the background services from `COL_SKEW_CAL`. -/
structure SkewRun where
  phase : Nat
  exch : Nat
  ports : List Nat
  lines : List Nat
  comps : List (Nat × Nat) := []
  service : Bool
  deriving DecidableEq, Repr

/-- SYNC, colony and swarm-line state (R227, R228, R237-R259). -/
structure Colony where
  role : Nat := 0
  devnum : Nat := 0
  joined : Bool := false
  timeOk : Bool := false
  calibrated : Bool := false
  chainOnly : Bool := false
  epoch : Word := 0
  hMin : Nat := 96
  dMax : Nat := 0
  hAccepted : Option Nat := none
  swlLead : Nat := 2
  residual : Nat := 0
  corr : Int := 0
  upState : Nat := 0
  dnState : Nat := 0
  chainPos : Nat := 0
  starMask : DWord := 0
  ports : Tab Port := []
  swlLevel : BitVec 16 := 0xFFFF
  swlAdjust : BitVec 16 := 0
  swlComp : Tab Nat := []
  run : Option SkewRun := none
  calLines : Tab Nat := []
  heldEdges : List HeldEdge := []
  windowEdges : List HeldEdge := []
  drives : Tab Nat := []
  asserted : Tab Nat := []
  lastTime : Option (Nat × Nat) := none
  gotJoin : Bool := false
  gotCorrect : Bool := false
  slew : Int := 0
  lastSlew : Nat := 0
  phase : Int := 0
  suspended : Bool := false
  syncOk : Bool := false
  syncOut : Option Nat := none
  drive : Bool := false
  check : Bool := false
  syncLog2 : Nat := 20
  syncLat : Nat := 2
  miss : Nat := 0
  shiftCount : Nat := 0
  lastSync : Nat := 0
  sysrefSkip : Nat := 0
  deriving DecidableEq, Repr

/-! ### Links (10) -/

/-- The states of a link (R274). -/
inductive LinkSt where
  | off
  | configured
  | training
  | aligning
  | data
  | clockWait
  | down
  deriving DecidableEq, Repr

/-- One link (R263-R282); its direction follows from its number. `dataSince` is the tick it entered DATA,
`retrain` that training restarts when the guard opens (R279), `aligned` that a SYSREF edge has come; `ffe` the pre-cursor, main and
post-cursor settings of the presets (R276), `crcRecent` the CRC-12 errors of the last second with their ticks (R277). -/
structure Link where
  st : LinkSt := .off
  domain : Nat := 0
  firstLane : Nat := 0
  l : Nat := 0
  m : Nat := 0
  s : Nat := 0
  e : Nat := 0
  f : Nat := 0
  j : Nat := 0
  cause : Nat := 0
  safeLink : Bool := false
  cap24 : Bool := false
  epoch : Word := 0
  rxLat : Nat := 0
  laneMap : List Nat := []
  presets : Nat := 0
  ffe : List (Nat × Nat × Nat) := []
  preset : Nat := 0
  statusPin : Nat := 0xFF
  crcLimit : Nat := 16
  eyeWMin : Nat := 77
  eyeHMin : Nat := 30
  retryS : Nat := 10
  crcErr : Nat := 0
  retrains : Nat := 0
  downs : Nat := 0
  arrivalMax : Nat := 0
  rxOvr : Nat := 0
  rxInvalid : Nat := 0
  since : Nat := 0
  dataSince : Nat := 0
  retrain : Bool := false
  aligned : Bool := false
  crcRecent : List (Nat × Nat) := []
  formats : Tab Word := []
  slotFormats : Tab Nat := []
  deriving DecidableEq, Repr

/-- One RX lane (R280, R282). -/
structure RxLane where
  w : Nat := 0
  h : Nat := 0
  ctle : Nat := 0
  hdrLock : Bool := false
  embLock : Bool := false
  crcErr : Nat := 0
  arrival : Nat := 0
  deriving DecidableEq, Repr

/-! ### DRAM (11) -/

/-- The states of a DRAM channel (R313). -/
inductive DmcSt where
  | unconfigured
  | training
  | clearing
  | inService
  | retraining
  | selfRefresh
  | offline
  deriving DecidableEq, Repr

/-- An entry of a channel's command queue (R293): what it serves (the serial of a host command; the number of an aperture access;
for a block read 2^48 times the queue plus the stream byte; for a record 1,024 times its byte count plus the channel), master
(R413), direction, device address of its first line, bytes of its lines, bursts served, tick it was queued, whether it holds a
reserved capture credit; of a write the address and the bytes; of a host access the bytes that its other entries have read,
and their first error; the ticks of it that fell in a block of the channel (R305). -/
structure DEntry where
  id : Nat
  master : Nat
  write : Bool
  addr : Nat
  len : Nat
  served : Nat := 0
  queued : Nat := 0
  capture : Bool := false
  pos : Nat := 0
  data : List Byte := []
  img : List Host.Cell := []
  err : Option Err := none
  blocked : Nat := 0
  deriving DecidableEq, Repr

/-- A bulk-aperture access to DRAM whose entries have not all completed (R292, R293, R323): its number, whether it is a read, its
master, address and length, and the bytes of a write. -/
structure BulkOp where
  id : Nat
  read : Bool
  master : Nat
  addr : Nat
  len : Nat
  data : List Byte := []
  deriving DecidableEq, Repr

/-- The bulk aperture's accesses to DRAM, in order of arrival. -/
structure BulkOps where
  next : Nat := 0
  ops : List BulkOp := []
  deriving DecidableEq, Repr

/-- One DRAM channel (R284-R315). `rows` holds the open row of a bank (key: 16 times the rank plus the bank)
with the tick of its last burst; `postponed` the refresh counts of the ranks; `recent` the bursts of the last
1 ms (tick, bytes, write); `fromFail` a FULL training of an OFFLINE channel in progress; `ceTicks` when errors were corrected in
the last 60 s; of each rank `refNext` when its next refresh falls due, `rfcEnd` the end of its refresh, `idleFrom` when its last
entry left; `scrubStart` when the scrub's pass began. -/
structure Dmc where
  st : DmcSt := .unconfigured
  tracking : Bool := false
  trackPending : Bool := false
  ueFrozen : Bool := false
  epoch : Word := 0
  speed : Nat := 6
  ranks : Nat := 0
  density : Nat := 0
  map : Nat := 0
  ref2x : Nat := 1
  pageIdle : Nat := 10
  pdIdle : Nat := 20
  capGib : Nat := 0
  queue : List DEntry := []
  rows : Tab (Nat × Nat) := []
  postponed : Tab Int := []
  recent : List (Nat × Nat × Bool) := []
  latMax : Nat := 0
  overs : Nat := 0
  ceCount : Nat := 0
  ueCount : Nat := 0
  logAddr : Nat := 0
  logType : Nat := 0
  logMaster : Nat := 0
  logTime : Nat := 0
  scrubPos : Nat := 0
  scrubPasses : Nat := 0
  retrains : Nat := 0
  fulls : Nat := 0
  margin : Nat := 0
  lastKind : Nat := 0
  pd : List Nat := []
  sr : Bool := false
  poisoned : List Nat := []
  delays : Tab DWord := []
  lastTrain : Nat := 0
  trainTj : Int := 0
  blockFrom : Nat := 0
  caTick : Option Nat := none
  fromFail : Bool := false
  ceTicks : List Nat := []
  refNext : Tab Nat := []
  rfcEnd : Tab Nat := []
  idleFrom : Tab Nat := []
  scrubStart : Nat := 0
  deriving DecidableEq, Repr

/-! ### Keeper and host interface (12) -/

/-- A reply held in a mailbox (R332); `raw` is the second frame of a `COL_TUNNEL` reply (R256). -/
structure Reply where
  opcode : Nat
  seq : Nat
  status : Err
  sampleTick : Nat
  epoch : Word := 0
  decTick : Nat := 0
  diverged : Bool := false
  result : List Byte := []
  raw : List Byte := []
  deriving DecidableEq, Repr

/-- A command being assembled from its frames (R327): its first frame, the data of the continuation frames
taken, how many were taken, the tick of the last. -/
structure Asm where
  first : List Byte
  data : List Byte
  got : Nat
  tick : Nat
  deriving DecidableEq, Repr

/-- An accepted command whose reply is still owed: opcode, SEQ, whether E_RESTARTED would say that it had been handed to
its unit (R317), DEC_TICK. -/
structure Owed where
  opcode : Nat
  seq : Nat
  handed : Bool
  dec : Nat
  deriving DecidableEq, Repr

/-- One mailbox (R321, R327); `found` says that the command in it found a unit whose shadow disagreed (R344), `tunnel` says over which path (0 star, 1 chain) the reply of the command in it returns
(R256). -/
structure Mailbox where
  cmd : List Byte := []
  busy : Bool := false
  pending : Bool := false
  replyValid : Bool := false
  refused : Bool := false
  diverged : Bool := false
  multi : Bool := false
  lastSeq : Nat := 0
  seqFree : Bool := true
  asm : Option Asm := none
  reply : Option Reply := none
  shown : Nat := 0
  lastStatus : Err := .ok
  owed : Option Owed := none
  tunnel : Option Nat := none
  found : Bool := false
  deriving DecidableEq, Repr

/-- One host context (R321, R323, R385). -/
structure Context where
  enabled : Bool := true
  irqStatus : Word := 0
  irqMask : Word := 0xFF
  window : Option Nat := none
  deriving DecidableEq, Repr

/-- An accepted command that its unit holds until its decision tick, or that the keeper works on until its
completion row (R316, R333). `reply` says that the mailbox's reply slot is still reserved for it; `serial`
orders commands by acceptance. Mailbox number 4, which no mailbox has, marks a command that replay applies. -/
structure Held where
  dec : Nat
  ta : Nat
  ctx : Nat
  mb : Nat
  seq : Nat
  serial : Nat
  reply : Bool
  cmd : Instr
  deriving DecidableEq, Repr

/-- A firmware image area (R336, R346): what the check of its contents finds, the SIZE staged, the bytes programmed, the
offset that follows the last data taken, whether the area is erased. -/
structure Image where
  info : Option ImgInfo := none
  staged : Nat := 0
  written : Nat := 0
  upto : Nat := 0
  erased : Bool := false
  deriving DecidableEq, Repr

/-! ### Auxiliary outputs, calibration, faults (13, 14, 16) -/

/-- One auxiliary channel (R348-R361). `clear` says that the channel stays at its clear code until its next
write or sample; `slewNext` and `holdEnd` carry a slew or deglitch in progress; `reads` holds the measurements in progress: the
command's serial, its sampling instant, and the code then in force. -/
structure Aux where
  code : Nat := 0
  bound : Option Nat := none
  cleared : Bool := true
  short : Bool := false
  shape : Nat := 0
  stepSize : Nat := 1
  rate : Nat := 1
  target : Nat := 0
  clearCode : Nat := 0
  epoch : Word := 0
  meas : Nat := 0
  slewNext : Option Nat := none
  holdEnd : Option Nat := none
  gA : Int := 0x10000000
  oA : Int := 0
  reads : List (Nat × Nat × Nat) := []
  own : Own := {}
  deriving DecidableEq, Repr

/-- A calibration record (R363, R364); a bad one has a wrong CRC or an invalid value. -/
structure CalRec where
  kind : Nat
  index : Nat
  seq : Nat
  payload : List Byte
  bad : Bool := false
  deriving DecidableEq, Repr

/-- An occurrence as a block recorded it (R412). -/
structure Recorded where
  bit : Nat
  cls : Nat
  obj : Nat
  master : Nat
  acc : Nat
  scope : List Nat
  deriving DecidableEq, Repr

/-- The fault registers of one block (R411). `reaction` holds a REACTION other than the block's default, `recent` the occurrences of
the tick `recentAt` (R428). -/
structure FaultBlk where
  status : Word := 0
  mask : Word := 0
  classes : Tab Nat := []
  object : Nat := 0
  master : Nat := 0
  acc : Nat := 0
  valid : Bool := false
  bit : Nat := 0
  cls : Nat := 0
  time : Nat := 0
  window : Nat := 100000
  reaction : Option Bool := none
  running : Bool := false
  reacted : Bool := false
  deadline : Nat := 0
  scope : List Nat := []
  count : Nat := 0
  recent : List Recorded := []
  recentAt : Nat := 0
  deriving DecidableEq, Repr

/-! ### Journal and replay (17) -/

/-- The payload of a journal entry (R433). -/
inductive JPay where
  | cmd (dec ctx mb : Nat) (i : Instr)
  | doorbell (ctx queue tail : Nat) (payloads : List (Nat × Nat × Option Nat))
  | dbgWrite (space addr : Nat) (data : List Byte)
  | event (ev : Event) (colony : Bool)
  | swarm (ev : Event) (comp : Nat) (mgr : Bool)
  | tcorr (c : Int)
  | gap (capture : Bool) (unit queue first count cause : Nat)
  | late (cell first count : Nat)
  | state (kind index new cause : Nat)
  | rxdata (link slot edge : Nat) (samples : List Int)
  | taint (ev : Event)
  | ckpt (number : Nat)
  | digest (area hive offset len crc act : Nat)
  | sig (cell blk tick count crc : Nat) (pieces : List Nat)
  | jgap (first last lost mask : Nat)
  | pad
  | rpl (start : Bool) (k e result : Nat)
  deriving DecidableEq, Repr

/-- One journal entry with its stamp and its count (R432); `off` is the byte count at which it starts. -/
structure JEntry where
  tick : Nat
  seq : Nat
  off : Nat
  bytes : Nat
  pay : JPay
  deriving DecidableEq, Repr

/-- What a checkpoint holds (R434); of a calibration run its origin mode and its cells. -/
structure Snap where
  tick : Nat
  mode : Mode
  origin : Mode
  calCells : List Nat
  horizon : Nat
  cells : Tab Cell
  caps : Tab Cap
  queues : Tab Queue
  chans : Tab Chan
  tasks : Tab Task
  counters : Tab Counter
  timers : Tab Timer
  pins : Tab Pin
  domains : Tab Domain
  held : List Held
  hops : List Hop
  deriving DecidableEq, Repr

/-- The journal (R430-R437, R445): `staged` bytes of its newest entries wait in the staging buffer, `dropping` is a run of entries lost:
its first and last tick, their number and their kinds. State codes: 0 OFF, 1 RECORDING, 2 SUSPENDED, 3 STOPPED. -/
structure Journal where
  st : Nat := 0
  stop : Bool := false
  base : Nat := 0
  size : Nat := 0
  period : Nat := 0
  rxMask : Word := 0
  sigEn : Bool := false
  written : Nat := 0
  count : Nat := 0
  gaps : Nat := 0
  lost : Nat := 0
  staged : Nat := 0
  dropping : Option (Nat × Nat × Nat × Nat) := none
  ckptNo : Nat := 0
  entries : List JEntry := []
  ckpts : List (Nat × Nat × Snap) := []
  deriving DecidableEq, Repr

/-- Replay (R439-R445); `todo` holds the entries still to apply, `sigs` the SIG and RXDATA entries looked up; `simMode`, `simOrigin`
and `simCal` are the replayed mode with the origin and the cells of a calibration run; `stopAt` is the tick of the mismatch that
ends REPLAY. State codes: 0 none, 1 LOADING, 2 RUNNING, 3 DONE, 4 STOPPED_MISMATCH, 5 ABORTED. -/
structure Replay where
  st : Nat := 0
  gapEnd : Bool := false
  delta : Nat := 0
  k : Nat := 0
  e : Nat := 0
  startAt : Nat := 0
  txMask : DWord := 0
  stopOn : Bool := false
  simMode : Mode := .idle
  simOrigin : Mode := .idle
  simCal : List Nat := []
  todo : List JEntry := []
  sigs : List JEntry := []
  notRepro : List Nat := []
  misCell : Nat := 0
  misValid : Bool := false
  misCause : Nat := 0
  coarse : Bool := false
  misN : Nat := 0
  misTick : Nat := 0
  mismatches : Nat := 0
  imposed : List (Nat × Nat × Nat × Nat) := []
  stopAt : Option Nat := none
  deriving DecidableEq, Repr

/-- A copy that `JNL_EXPORT` wrote (R438): whether in the flash export area, its offset or address, what its header says
(device serial, variant, firmware version, first checkpoint, END, bytes) and what it holds. -/
structure Export where
  flash : Bool
  addr : Nat
  serial : Nat
  variant : Variant
  version : Nat
  first : Nat
  last : Nat
  bytes : Nat
  entries : List JEntry
  ckpts : List (Nat × Nat × Snap)
  deriving DecidableEq, Repr

/-! ### The whole state -/

/-- Device identity, supplies, resets, straps, OTP and flash contents (00, 12, 14, 15, 18). `fresh` says that no release
of RESET_N has followed the power-on yet, `remapsDue` that the keeper has yet to apply the field remaps (R137). -/
structure Device where
  powered : Bool := true
  resetN : Bool := true
  fresh : Bool := false
  remapsDue : Bool := true
  variant : Variant := .zw1024
  serial : Nat := 0
  lifecycle : Nat := 2
  fusesOk : Bool := true
  keyLocked : Bool := false
  svnMin : Nat := 0
  otp : List CalRec := []
  refclkSel : Bool := false
  colRole : Nat := 0
  store : List CalRec := []
  storeUsed : Nat := 0
  config : Tab Nat := []
  imgA : Image := { info := some ⟨0x0100, 0, 1536⟩ }
  imgB : Image := {}
  prefImg : Nat := 0
  exports : List Export := []
  deriving DecidableEq, Repr

/-- The mode unit (R18-R28); `calCells`, `calLanes`, `calAux` and `origin` are those of a calibration run, `calPace` counts the pace
windows that its PACE item has still to measure (R51, R371); `leave` is the tick at which CALIBRATE or REPLAY, its run over, ends (R20). -/
structure ModeUnit where
  mode : Mode := .bringUp
  prev : Mode := .bringUp
  power : Nat := 0
  resetOnly : Bool := false
  safeHeld : Bool := false
  epoch : Word := 0
  since : Nat := 0
  origin : Mode := .idle
  calCells : List Nat := []
  calLanes : Word := 0
  calAux : DWord := 0
  calItems : Nat := 0
  calPace : Nat := 0
  leave : Option Nat := none
  deriving DecidableEq, Repr

/-- Time, horizon and PPS (R29-R38). `horizons` lists earlier horizons with the tick they ended. -/
structure TimeUnit where
  tick : Nat := 0
  pllLock : Bool := false
  ready : Bool := false
  latch : Option Word := none
  horizon : Nat := 48
  horizons : List (Nat × Nat) := []
  ppsTime : Nat := 0
  ppsSec : Nat := 0
  ppsSeq : Nat := 0
  ppsRejected : Nat := 0
  ppsValid : Bool := false
  ppsMissing : Bool := false
  ppsInterval : Nat := 0x5F5E1000
  ppsArmed : Option Nat := none
  ppsLast : Option Nat := none
  deriving DecidableEq, Repr

/-- The pace loop (R51-R53); voltages in mV, margins in percent. -/
structure Pace where
  window : Nat := 10000
  marginGuard : Nat := 12
  fillGuard : Nat := 16
  fillAlarm : Nat := 8
  floor : Nat := 650
  ceiling : Nat := 850
  stepUp : Nat := 10
  stepDown : Nat := 5
  vset : Nat := 850
  vread : Nat := 0
  stepPending : Bool := false
  stepTick : Nat := 0
  fault : Bool := false
  worst : Nat := 0
  good : Nat := 0
  deriving DecidableEq, Repr

/-- The keeper (R316, R336, R340, R341, R345), and the PCIe subsystem IDs that the endpoint shows (R319, R451). -/
structure Keeper where
  ready : Bool := false
  flash : Bool := false
  subsystem : Nat := 0
  cal : Bool := false
  aux : Bool := false
  pmbus : Bool := false
  readyEpoch : Word := 0
  st : Nat := 0
  activeImg : Nat := 0
  fallback : Bool := false
  pcieUp : Bool := false
  spiSeen : Bool := false
  restarts : Nat := 0
  heartbeat : Nat := 0
  epoch : Word := 0
  version : Nat := 0
  svn : Nat := 0
  divergedCount : Nat := 0
  lastDiverged : Word := 0
  noticeCh : Nat := 0xFFFF
  restartCh : Nat := 0xFFFF
  spiMask : BitVec 16 := 1
  restartImg : Nat := 0
  restartAt : Option Nat := none
  resetAt : Option Nat := none
  nextSerial : Nat := 0
  deriving DecidableEq, Repr

/-- Calibration state, services and telemetry (R371-R380). -/
structure Service where
  otpOk : Bool := false
  storeOk : Bool := false
  running : Bool := false
  lastFail : Bool := false
  otpBad : Nat := 0
  calSeq : Nat := 0
  paceMargin : Nat := 0
  paceWorst : Nat := 0
  paceVcore : Nat := 0
  synResid : Nat := 0
  synWorst : Nat := 0
  synFail : List Nat := []
  groomRate : Nat := 1000
  eyePeriod : Nat := 60
  skewPeriod : Nat := 600
  endurance : Nat := 100000
  maxErase : Nat := 0
  flashMode : Nat := 0
  wearWarn : Bool := false
  storeFull : Bool := false
  selfResid : Nat := 0
  selfWorst : Nat := 0
  selfRuns : Nat := 0
  telem : Tab (BitVec 16) := []
  telemTick : Tab Nat := []
  outOfRange : Tab Nat := []
  slotCal : Tab (Int × Int) := []
  deriving DecidableEq, Repr

/-- Security, debug and power (R382-R408). `wakeAt` lists the wakes that wait to begin, each with its tick, cause and index,
`readyBefore` is the readiness a wake must bring back, `entryTarget` the state a standby entry leads to, `frozen` the words of the
direct status window as they stood at the last entry to Retain (R403). -/
structure Security where
  dbg : Nat := 0
  nonce : Option (BitVec 128 × Nat) := none
  authLock : Option Nat := none
  authFails : Nat := 0
  halted : Bool := false
  sessionEnd : Option Nat := none
  sessions : Nat := 0
  epoch : Word := 0
  entering : Bool := false
  waking : Bool := false
  wakeCause : Nat := 0
  wakeIndex : Nat := 0
  pwrEpoch : Word := 0
  wakeEvp : Word := 0
  wakeSwl : BitVec 16 := 0
  wakeColony : Bool := false
  wakeTick : Nat := 0
  pwrLast : Nat := 0
  wakeStart : Nat := 0
  wakeAt : List (Nat × Nat × Nat) := []
  frozen : List Nat := []
  entryTarget : Nat := 0
  entryTick : Nat := 0
  readyBefore : List Nat := []
  safeAfterWake : Option Nat := none
  sramRet : Bool := false
  sramLost : Bool := false
  jtag : JtagInstr := .idcode
  deriving DecidableEq, Repr

/-- Grave faults, restore registers, injections (R417-R427). `due` lists the entries to SAFE that wait for their tick, each
with its tick, whether RESET_ONLY follows, and its cause. -/
structure Grave where
  held : Bool := false
  block : Nat := 0
  regParity : Bool := false
  time : Nat := 0
  parityBad : List Nat := []
  restore : Word := 0x7FFFFFF
  restoreCause : Nat := 1
  restoreTick : Nat := 0
  injComb : Tab Nat := []
  injDram : Tab Nat := []
  due : List (Nat × Bool × Nat) := []
  deriving DecidableEq, Repr

/-- The state of the whole block. -/
structure State where
  dev : Device := {}
  md : ModeUnit := {}
  time : TimeUnit := {}
  pace : Pace := {}
  kpr : Keeper := {}
  svc : Service := {}
  sec : Security := {}
  grave : Grave := {}
  faults : Tab FaultBlk := []
  mailboxes : Tab Mailbox := []
  contexts : Tab Context := []
  msix : List Nat := []
  msixOpen : List Nat := []
  msixPba : List Nat := []
  msixTable : List Host.Cell := []
  held : List Held := []
  works : List Held := []
  cells : Tab Cell := []
  cellOwn : Tab Own := []
  hives : Tab Hive := []
  comb : List Host.Cell := []
  scratch : List Host.Cell := []
  inner : Inner := {}
  combUe : List Nat := []
  combCe : List Nat := []
  active : Tab Nat := []
  combOwn : Tab Own := []
  queues : Tab Queue := []
  doorbells : List Doorbell := []
  caps : Tab Cap := []
  chans : Tab Chan := []
  tasks : Tab Task := []
  counters : Tab Counter := []
  timers : Tab Timer := []
  pins : Tab Pin := []
  hops : List Hop := []
  wagEpoch : Word := 0
  domains : Tab Domain := []
  col : Colony := {}
  links : Tab Link := []
  rxLanes : Tab RxLane := []
  dmcs : Tab Dmc := []
  dram : List Host.Cell := []
  dramUe : List Nat := []
  dramCe : List Nat := []
  dramOwn : Tab Own := []
  dramSystem : List Nat := []
  interleave : Nat := 0
  ctxBase : Nat := 0
  ageLimit : Nat := 4
  minMargin : Nat := 6
  trackH : Nat := 24
  ceLimit : Nat := 64
  scrubOn : Bool := true
  scrubPeriod : Nat := 24
  auxs : Tab Aux := []
  auxClrN : Bool := true
  jnl : Journal := {}
  rpl : Replay := {}
  bus : List Byte := []
  bulk : BulkOps := {}
  free : Nat := 0
  pending : List Instr := []
  deriving DecidableEq, Repr

/-- Why the machine stops with a fault. -/
inductive Fault where
  /-- Raised by an event whose operand names a unit that this device does not have (a cell, lane, port or
  channel beyond its last): no such event can happen to it. Safe. -/
  | absentUnit
  deriving DecidableEq, Repr

/-- Why a command has no meaning. -/
inductive Refusal where
  /-- Raised by an arm of `exec` whose command is not modelled yet. Safe. -/
  | notModelled (mnemonic : String)
  deriving DecidableEq, Repr

/-- The machine after power-on with RESET_N just released (R10, R426, R448): every field at its power-on
value, nothing ready yet. -/
def State.reset : State := {}

end Sys2Proof.Machine
end

