-- ==== Sys2Proof/Machine/Ops.lean ====
section
/-! DEFINITION. The named operations over the state: unit tables and memories, bit fields and byte order,
checksums, time and sample grids, fault recording, interrupts, the journal. -/

namespace Sys2Proof.Machine

/-! ### Unit tables and memories -/

/-- The entry of a table, or the power-on record `d` where the table lists none. -/
def tget {α : Type} (d : α) : Tab α → Nat → α
  | [], _ => d
  | (k, v) :: t, i => if k = i then v else tget d t i

/-- Set an entry and keep the canonical form: keys rising, no entry equal to `d`. -/
def tset {α : Type} [DecidableEq α] (d : α) : Tab α → Nat → α → Tab α
  | [], i, x => if x = d then [] else [(i, x)]
  | (k, v) :: t, i, x =>
    if i < k then (if x = d then (k, v) :: t else (i, x) :: (k, v) :: t)
    else if i = k then (if x = d then t else (i, x) :: t)
    else (k, v) :: tset d t i x

/-- Change an entry. -/
def tmod {α : Type} [DecidableEq α] (d : α) (t : Tab α) (i : Nat) (f : α → α) : Tab α :=
  tset d t i (f (tget d t i))

/-- Change every entry by its key. -/
def tmap {α : Type} [DecidableEq α] (d : α) (f : Nat → α → α) (t : Tab α) : Tab α := t.foldl (fun u p => tset d u p.1 (f p.1 p.2)) []

/-- The canonical form: keys above `lo` and rising, no entry equal to the power-on record. -/
def twfFrom {α : Type} [DecidableEq α] (d : α) : Nat → Tab α → Bool
  | _, [] => true
  | lo, (k, v) :: t => decide (lo ≤ k) && decide (v ≠ d) && twfFrom d (k + 1) t

/-- The canonical form of a table. -/
def twf {α : Type} [DecidableEq α] (d : α) (t : Tab α) : Bool := twfFrom d 0 t

/-- The canonical form of a byte memory whose unlisted bytes read 0 (R137, R285). -/
def Memory.wf (m : List Host.Cell) : Bool := twf (0 : Byte) m

/-- One byte of memory. -/
def memByte (m : List Host.Cell) (a : Nat) : Byte := tget (0 : Byte) m a

/-- Write one byte. -/
def memPut (m : List Host.Cell) (a : Nat) (b : Byte) : List Host.Cell := tset (0 : Byte) m a b

/-- Read `n` bytes from address `a`. -/
def memRead (m : List Host.Cell) (a : Nat) : Nat → List Byte
  | 0 => []
  | n + 1 => memByte m a :: memRead m (a + 1) n

/-- Write bytes from address `a`. -/
def memWrite (m : List Host.Cell) (a : Nat) : List Byte → List Host.Cell
  | [] => m
  | b :: bs => memWrite (memPut m a b) (a + 1) bs

/-- Repeat `f` for `i`, `i + 1`, … `n` times. -/
def forUp {σ : Type} (f : Nat → σ → σ) : Nat → Nat → σ → σ
  | 0, _, s => s
  | n + 1, i, s => forUp f n (i + 1) (f i s)

/-- `[i, i + 1, …]`, `n` numbers. -/
def upFrom : Nat → Nat → List Nat
  | 0, _ => []
  | n + 1, i => i :: upFrom n (i + 1)

/-- Put a number into a rising list. -/
def insertNat (x : Nat) : List Nat → List Nat
  | [] => [x]
  | y :: t => if x ≤ y then x :: y :: t else y :: insertNat x t

/-- A list of numbers, rising. -/
def sortNat (l : List Nat) : List Nat := l.foldr insertNat []

/-! ### Numbers, bit fields, byte order (R8, R91) -/

/-- Bits `lo` to `lo + w - 1` of a number. -/
def bits (v lo w : Nat) : Nat := v / 2 ^ lo % 2 ^ w

/-- Bit `i` of a number. -/
def bitOf (v i : Nat) : Bool := v / 2 ^ i % 2 = 1

/-- 1 for true. -/
def b2n (b : Bool) : Nat := if b then 1 else 0

/-- Concatenate fields given as (width, value), the first at bit 0; a value keeps only its field's bits. -/
def pack : List (Nat × Nat) → Nat
  | [] => 0
  | (w, v) :: t => v % 2 ^ w + 2 ^ w * pack t

/-- The two's complement value of a `w`-bit field. -/
def sext (w v : Nat) : Int := if v % 2 ^ w < 2 ^ (w - 1) then (v % 2 ^ w : Nat) else (v % 2 ^ w : Nat) - (2 ^ w : Nat)

/-- The `w`-bit field that holds an integer in two's complement. -/
def toField (w : Nat) (i : Int) : Nat := (i % (2 ^ w : Nat)).toNat

/-- `num / den` rounded to nearest, ties toward positive infinity (R91). -/
def rnd (num : Int) (den : Nat) : Int := (2 * num + den) / (2 * den)

/-- Division rounded up. -/
def ceilDiv (a b : Nat) : Nat := (a + b - 1) / b

/-- Increment that stops at `max`. -/
def sat (max n : Nat) (by_ : Nat := 1) : Nat := min max (n + by_)

/-- Clamp to a range. -/
def clamp (lo hi x : Int) : Int := if x < lo then lo else if hi < x then hi else x

/-- Little-endian bytes of a number. -/
def le : Nat → Nat → List Byte
  | 0, _ => []
  | n + 1, v => BitVec.ofNat 8 v :: le n (v / 256)

/-- The number little-endian bytes spell. -/
def ofLe : List Byte → Nat
  | [] => 0
  | b :: bs => b.toNat + 256 * ofLe bs

/-- Pad with zero bytes, or cut, to `n` bytes. -/
def fit (n : Nat) (l : List Byte) : List Byte := (l ++ List.replicate (n - l.length) 0).take n

/-! ### Checksums (R329, R436) -/

/-- Shift one bit through a non-reflected CRC register of width `w`. -/
def crcBit (w poly : Nat) (c : Nat) : Nat :=
  if bitOf c (w - 1) then Nat.xor (c * 2 % 2 ^ w) poly else c * 2 % 2 ^ w

/-- Shift one byte through a non-reflected CRC register. -/
def crcByte (w poly : Nat) (c : Nat) (b : Byte) : Nat :=
  forUp (fun _ x => crcBit w poly x) 8 0 (Nat.xor c (b.toNat * 2 ^ (w - 8)))

/-- CRC-16 of Berza frames, colony frames and capture headers. -/
def crc16 (l : List Byte) : Nat := l.foldl (crcByte 16 0x1021) 0xFFFF

/-- CRC-8 of a signature's pieces. -/
def crc8 (c : Nat) (l : List Byte) : Nat := l.foldl (crcByte 8 0x07) c

/-- Shift one bit through the reflected CRC-32 register. -/
def crc32Bit (c : Nat) : Nat := if c % 2 = 1 then Nat.xor (c / 2) 0xEDB88320 else c / 2

/-- Bytes through the CRC-32 register, before its final inversion. -/
def crc32Raw (c : Nat) (l : List Byte) : Nat :=
  l.foldl (fun x b => forUp (fun _ y => crc32Bit y) 8 0 (Nat.xor x b.toNat)) c

/-- CRC-32 of records, journals and calibration. -/
def crc32 (l : List Byte) : Nat := Nat.xor (crc32Raw 0xFFFFFFFF l) 0xFFFFFFFF

/-! ### Codes -/

/-- The code of a mode (R18). -/
def modeCode : Mode → Nat
  | .bringUp => 0
  | .idle => 1
  | .run => 2
  | .replay => 3
  | .calibrate => 4
  | .standby => 5
  | .safe => 6
  | .factory => 7

/-- The mode of a code; codes above 7 are not issued. -/
def modeOf : Nat → Option Mode
  | 0 => some .bringUp
  | 1 => some .idle
  | 2 => some .run
  | 3 => some .replay
  | 4 => some .calibrate
  | 5 => some .standby
  | 6 => some .safe
  | 7 => some .factory
  | _ => none

/-- The value of an error code (R337). -/
def errCode : Err → Nat
  | .ok => 0
  | .badOpcode => 1
  | .badArg => 2
  | .notReady => 3
  | .staleEpoch => 4
  | .denied => 5
  | .badMode => 6
  | .modePending => 7
  | .tickPast => 8
  | .badState => 9
  | .pendingFull => 0xA
  | .segActive => 0xB
  | .memError => 0xC
  | .memOffline => 0xD
  | .colLink => 0xE
  | .colTimeout => 0xF
  | .badCrc => 0x10
  | .badFrame => 0x11
  | .duplicate => 0x12
  | .badSeq => 0x13
  | .restarted => 0x14
  | .fwAuth => 0x15
  | .auth => 0x16

/-- The number of a fault block (R410). -/
def blockNum : Block → Nat
  | .cel => 0
  | .cmb => 1
  | .pqm => 2
  | .dmc => 3
  | .cap => 4
  | .wag => 5
  | .lnk => 6
  | .tim => 7
  | .col => 8
  | .kpr => 9
  | .aux => 10
  | .bgs => 11
  | .spd => 12

/-- The block of a number. -/
def blockOf : Nat → Option Block
  | 0 => some .cel
  | 1 => some .cmb
  | 2 => some .pqm
  | 3 => some .dmc
  | 4 => some .cap
  | 5 => some .wag
  | 6 => some .lnk
  | 7 => some .tim
  | 8 => some .col
  | 9 => some .kpr
  | 10 => some .aux
  | 11 => some .bgs
  | 12 => some .spd
  | _ => none

/-- Every block. -/
def blocks : List Block :=
  [.cel, .cmb, .pqm, .dmc, .cap, .wag, .lnk, .tim, .col, .kpr, .aux, .bgs, .spd]

/-- The code of a cell state (R59). -/
def cellCode : CellSt → Nat
  | .off => 0
  | .bound => 1
  | .armed => 2
  | .running => 3
  | .paused => 4
  | .reflock => 5

/-- The code of a capture state (R175). -/
def capCode : CapSt → Nat
  | .off => 0
  | .bound => 1
  | .armed => 2
  | .window => 3
  | .rearm => 4
  | .draining => 5

/-- The code of a link state (R274). -/
def linkCode : LinkSt → Nat
  | .off => 0
  | .configured => 1
  | .training => 2
  | .aligning => 3
  | .data => 4
  | .clockWait => 5
  | .down => 6

/-- The code of a queue state (R150). -/
def qCode : QSt → Nat
  | .closed => 0
  | .opened => 1
  | .streaming => 2
  | .failed => 3

/-- The code of a DRAM channel state (R313); an absent channel reads 0. -/
def dmcCode : DmcSt → Nat
  | .unconfigured => 1
  | .training => 2
  | .clearing => 3
  | .inService => 4
  | .retraining => 5
  | .selfRefresh => 6
  | .offline => 7

/-! ### What the variant has (R2) -/

/-- Hives present. -/
def nHives (s : State) : Nat := if s.dev.variant = .zw1024 then 64 else 16

/-- Cells and capture channels present. -/
def nCells (s : State) : Nat := 16 * nHives s

/-- DRAM channels present. -/
def nDmc (s : State) : Nat := if s.dev.variant = .zw1024 then 4 else 2

/-- Lanes present in each direction. -/
def nLanes (s : State) : Nat := if s.dev.variant = .zw1024 then 32 else 8

/-- DRAM regions. -/
def nDramRegions (s : State) : Nat := if s.dev.variant = .zw1024 then 8192 else 4096

/-! ### Units -/

/-- A cell. -/
def cellAt (s : State) (c : Nat) : Cell := tget {} s.cells c

/-- The fields whose change counts in `CELL_EPOCH` (R89); an arm is the entry to ARMED. -/
def cellKey (c : Cell) : Nat × Nat × Nat × Bool × Nat := (cellCode c.st, c.domain, c.bridge, c.slip, c.group)

/-- Write a cell; its epoch counts a change of state, domain, bridge, slip mode or group. -/
def putCell (s : State) (i : Nat) (x : Cell) : State :=
  let x := if cellKey x = cellKey (cellAt s i) then x else { x with epoch := (cellAt s i).epoch + 1 }
  { s with cells := tset {} s.cells i x }

/-- Change a cell. -/
def modCell (s : State) (i : Nat) (f : Cell → Cell) : State := putCell s i (f (cellAt s i))

/-- A capture channel. -/
def capAt (s : State) (c : Nat) : Cap := tget {} s.caps c

/-- Write a capture channel; its epoch counts a change of STATE, MODE or REARM (R200). -/
def putCap (s : State) (i : Nat) (x : Cap) : State :=
  let o := capAt s i
  let x := if capCode x.st = capCode o.st ∧ x.mode = o.mode ∧ x.rearm = o.rearm then x
    else { x with epoch := o.epoch + 1 }
  { s with caps := tset {} s.caps i x }

/-- Change a capture channel. -/
def modCap (s : State) (i : Nat) (f : Cap → Cap) : State := putCap s i (f (capAt s i))

/-- A play queue, numbered 1,024 times the cell plus q. -/
def queueAt (s : State) (i : Nat) : Queue := tget {} s.queues i

/-- The hive of a cell or channel. -/
def hiveOf (c : Nat) : Nat := c / 16

/-- A hive. -/
def hiveAt (s : State) (h : Nat) : Hive := tget {} s.hives h

/-- Write a hive; `COMB_EPOCH` counts a change of readiness or power (R143). -/
def putHive (s : State) (i : Nat) (x : Hive) : State :=
  let o := hiveAt s i
  let x := if x.playReady = o.playReady ∧ x.catchReady = o.catchReady ∧ x.power = o.power then x
    else { x with epoch := x.epoch + 1 }
  { s with hives := tset {} s.hives i x }

/-- Change a hive. -/
def modHive (s : State) (i : Nat) (f : Hive → Hive) : State := putHive s i (f (hiveAt s i))

/-- Write a queue; its epoch counts a change of STATE, MODE, HEAD, TAIL or ERR (R150), the hive's
`PQM_EPOCH` a change of STATE (R170). -/
def putQueue (s : State) (i : Nat) (x : Queue) : State :=
  let o := queueAt s i
  let x := if x.st = o.st ∧ x.mode = o.mode ∧ x.head = o.head ∧ x.tail = o.tail ∧ x.err = o.err then x
    else { x with epoch := o.epoch + 1 }
  let s1 := { s with queues := tset {} s.queues i x }
  if x.st = o.st then s1
  else { s1 with hives := tmod {} s1.hives (hiveOf (i / 1024)) fun h => { h with pqmEpoch := h.pqmEpoch + 1 } }

/-- Change a queue. -/
def modQueue (s : State) (i : Nat) (f : Queue → Queue) : State := putQueue s i (f (queueAt s i))

/-- A rate domain. -/
def domAt (s : State) (d : Nat) : Domain := tget {} s.domains d

/-- Write a domain; its epoch counts a change of ON, LOCKED, GUARD_OPEN or the settings (R258). -/
def putDom (s : State) (i : Nat) (x : Domain) : State :=
  let o := domAt s i
  let x := if x.on = o.on ∧ x.locked = o.locked ∧ x.guardOpen = o.guardOpen ∧
      (x.num, x.den, x.div, x.ldiv, x.lockN, x.guard) = (o.num, o.den, o.div, o.ldiv, o.lockN, o.guard) then x
    else { x with epoch := o.epoch + 1 }
  { s with domains := tset {} s.domains i x }

/-- Change a domain. -/
def modDom (s : State) (i : Nat) (f : Domain → Domain) : State := putDom s i (f (domAt s i))

/-- A link. -/
def linkAt (s : State) (l : Nat) : Link := tget {} s.links l

/-- A DRAM channel. -/
def dmcAt (s : State) (c : Nat) : Dmc := tget {} s.dmcs c

/-- The readiness of a DRAM channel (R286, R313). -/
def dmcReady (d : Dmc) : Bool := d.st = .inService

/-- An auxiliary channel. -/
def auxAt (s : State) (a : Nat) : Aux := tget {} s.auxs a

/-- Change an auxiliary channel; its epoch counts changes of BOUND, SHAPE, CLEAR_CODE and owner (R361). -/
def modAux (s : State) (i : Nat) (f : Aux → Aux) : State :=
  let o := auxAt s i
  let x := f o
  let x := if x.bound = o.bound ∧ x.shape = o.shape ∧ x.clearCode = o.clearCode ∧ x.own = o.own then x
    else { x with epoch := o.epoch + 1 }
  { s with auxs := tset {} s.auxs i x }

/-- A mailbox. -/
def mbAt (s : State) (ctx mb : Nat) : Mailbox := tget {} s.mailboxes (4 * ctx + mb)

/-- Change a mailbox. -/
def modMb (s : State) (ctx mb : Nat) (f : Mailbox → Mailbox) : State :=
  { s with mailboxes := tmod {} s.mailboxes (4 * ctx + mb) f }

/-- A host context. -/
def ctxAt (s : State) (k : Nat) : Context := tget {} s.contexts k

/-- A waggle channel. -/
def chanAt (s : State) (w : Nat) : Chan := tget {} s.chans w

/-- Change a waggle channel. -/
def modChan (s : State) (w : Nat) (f : Chan → Chan) : State := { s with chans := tmod {} s.chans w f }

/-- A task input. -/
def taskAt (s : State) (t : Nat) : Task := tget {} s.tasks t

/-- Change a task input. -/
def modTask (s : State) (t : Nat) (f : Task → Task) : State := { s with tasks := tmod {} s.tasks t f }

/-- A pin; swarm lines rest released, that is high (R449). -/
def pinAt (s : State) (p : Nat) : Pin := tget {} s.pins p

/-- Change a pin. -/
def modPin (s : State) (p : Nat) (f : Pin → Pin) : State := { s with pins := tmod {} s.pins p f }

/-- An event counter. -/
def ctrAt (s : State) (i : Nat) : Counter := tget {} s.counters i

/-- A tick timer. -/
def tmrAt (s : State) (i : Nat) : Timer := tget {} s.timers i

/-- A fault block's registers. -/
def fltAt (s : State) (b : Block) : FaultBlk := tget {} s.faults (blockNum b)

/-- Change a fault block's registers. -/
def modFlt (s : State) (b : Block) (f : FaultBlk → FaultBlk) : State :=
  { s with faults := tmod {} s.faults (blockNum b) f }

/-- A colony port. -/
def portAt (s : State) (k : Nat) : Port := tget {} s.col.ports k

/-- Change a colony port. -/
def modPort (s : State) (k : Nat) (f : Port → Port) : State :=
  { s with col := { s.col with ports := tmod {} s.col.ports k f } }

/-- The owner of a cell, its capture channel and its queues (R386). -/
def cellOwner (s : State) (c : Nat) : Own := tget {} s.cellOwn c

/-- The owner of a comb region: bank 0 play, 1 catch; key 32 times the hive plus 24 for the catch bank. -/
def combRegion (s : State) (ca : Nat) : Own := tget {} s.combOwn (ca / 0x10000)

/-- The owner of a DRAM region (R290). -/
def dramRegion (s : State) (a : Nat) : Own := tget {} s.dramOwn (a / 0x1000000)

/-- `SEC_EPOCH` counts a change of an owner, an attribute or a context (R387). -/
def bumpSec (s : State) : State := { s with sec := { s.sec with epoch := s.sec.epoch + 1 } }

/-! ### Contexts -/

/-- Only context 0 is secure at power-on; SECURE of the others is held in `contexts` by the key 16 + k. -/
def ctxSecure (s : State) (k : Nat) : Bool := k = 0 || (tget ({} : Context) s.contexts (16 + k)).enabled = false

/-- Whether a context is enabled (R385). -/
def ctxEnabled (s : State) (k : Nat) : Bool := k = 0 || (ctxAt s k).enabled

/-- Whether a context may act on an object (R387). -/
def owns (s : State) (k : Nat) (o : Own) : Bool := o.owner = k && (ctxSecure s k || !o.secure)

/-! ### Time (R29-R45) -/

/-- Device time in time units. -/
def devtime (s : State) : Nat := 16 * s.time.tick

/-- H in force at an origin tick (R37). -/
def horizonAt (s : State) (origin : Nat) : Nat :=
  s.time.horizons.foldl (fun h p => if origin < p.2 then p.1 else h) s.time.horizon

/-- The first base edge of a domain at or after a tick: ceil(16 D / T_b) with T_b = 16 DEN DIV / NUM. -/
def edgeAt (d : Domain) (t : Nat) : Nat := ceilDiv (t * d.num) (d.den * d.div)

/-- The tick ceil(e / 16) of a base edge (R45). -/
def edgeTick (d : Domain) (m : Nat) : Nat := ceilDiv (m * d.den * d.div) d.num

/-- The instant of a base edge in whole time units, rounded down (R45). -/
def edgeTime (d : Domain) (m : Nat) : Nat := 16 * m * d.den * d.div / d.num

/-- The base edge of the j-th sample after a reference edge at ratio word R (R43, R82). -/
def sampleEdge (mRef j ratio : Nat) : Nat := mRef + ceilDiv (j * 2 ^ 40) ratio

/-- The alignment period P_A in ticks (R231). -/
def alignPeriod (d : Domain) : Nat := d.den * d.div / Nat.gcd d.num (d.den * d.div)

/-! ### Interrupts (R321, R322) -/

/-- Set a cause bit; a bit that goes from 0 to 1 while enabled signals its MSI-X vector, or sets the vector's
pending bit where the vector is masked. -/
def irq (s : State) (k bit : Nat) : State :=
  let c := ctxAt s k
  if c.irqStatus.getLsbD bit then s
  else
    let s1 := { s with contexts := tset {} s.contexts k { c with irqStatus := c.irqStatus ||| BitVec.ofNat 32 (2 ^ bit) } }
    if c.irqMask.getLsbD bit then
      let v := 4 * k + (if bit < 4 then 0 else if bit = 4 then 1 else if bit = 6 then 3 else 2)
      if s.msixOpen.contains v then { s1 with msix := s1.msix ++ [v] }
      else { s1 with msixPba := if s1.msixPba.contains v then s1.msixPba else v :: s1.msixPba }
    else s1

/-- Raise the STATE cause in every context. -/
def irqState (s : State) : State := forUp (fun k x => irq x k 6) 16 0 s

/-! ### Journal (R430-R437) -/

/-- Kind number of an entry (R433). -/
def jKind : JPay → Nat
  | .cmd .. => 0x01
  | .doorbell .. => 0x01
  | .dbgWrite .. => 0x01
  | .event .. => 0x02
  | .swarm .. => 0x03
  | .tcorr _ => 0x04
  | .gap .. => 0x05
  | .late .. => 0x06
  | .state .. => 0x07
  | .rxdata .. => 0x08
  | .taint _ => 0x09
  | .ckpt _ => 0x10
  | .digest .. => 0x11
  | .sig .. => 0x12
  | .jgap .. => 0x1E
  | .pad => 0x1F
  | .rpl .. => 0x20

/-- Frames of a command (R330, R331): one, and the continuation frames that its data or the arguments beyond ARGS fill. -/
def cmdFrames : Instr → Nat
  | .segLoad _ _ _ d => 1 + ceilDiv d.length 56
  | .dramWrite _ _ _ d => 1 + ceilDiv d.length 56
  | .fwData _ _ _ _ d => 1 + ceilDiv d.length 56
  | .colTunnel .. => 2
  | .groupSet .. => 3
  | .calStart .. => 3
  | .dmcConfig .. => 2
  | _ => 1

/-- Payload length in 16-byte units: given by R433 and R436 for a command, an event, a swarm edge and a signature, open
for the rest (log 13). -/
def jLen (p : JPay) : Nat :=
  match p with
  | .cmd _ _ _ i => 1 + 4 * cmdFrames i
  | .event .. => 1
  | .taint _ => 1
  | .swarm .. => 2
  | .sig .. => 18
  | _ => 1 + Config.jnlLen (jKind p) % 256

/-- An entry appended to the ring, after a PAD entry where it would wrap; in WRAP mode the oldest go (R430,
R432). -/
def jAppend (j : Journal) (tick n : Nat) (p : JPay) : Journal :=
  let room := j.size - j.written % j.size
  let j := if room < n then
      let pad : JEntry := ⟨tick, j.count % 65536, j.written, room, .pad⟩
      { j with entries := j.entries ++ [pad], written := j.written + room, count := j.count + 1 }
    else j
  let w := j.written + n
  let e : JEntry := ⟨tick, j.count % 65536, j.written, n, p⟩
  { j with written := w, count := j.count + 1,
           entries := (j.entries ++ [e]).filter fun e => decide (w ≤ e.off + j.size),
           ckpts := j.ckpts.filter fun c => decide (w ≤ c.1 + j.size) }

/-! ### Addresses -/

/-- The channels that hold a span of DRAM addresses (R287). -/
def dramChannel (s : State) (a : Nat) : Nat :=
  if s.interleave = 1 then 2 * bits a 36 1 + bits a 12 1
  else if s.interleave = 2 then bits a 12 2 else bits a 35 2

/-- CA of a location (R120): bank 0 play, 1 catch. -/
def combAddr (hive bank off : Nat) : Nat := hive * 0x200000 + (if bank = 1 then 0x180000 else 0) + off

/-- The granules of a span, as first and count. -/
def granules (ca len : Nat) : Nat × Nat :=
  (ca / 256, if len = 0 then 0 else (ca + len - 1) / 256 - ca / 256 + 1)

/-! ### Checkpoints (R434, R435) -/

/-- What a checkpoint holds of the state at its tick. -/
def snapOf (s : State) (tick : Nat) : Snap :=
  { tick := tick, mode := s.md.mode, origin := s.md.origin, calCells := s.md.calCells, horizon := s.time.horizon, cells := s.cells, caps := s.caps, queues := s.queues,
    chans := s.chans, tasks := s.tasks, counters := s.counters, timers := s.timers, pins := s.pins, domains := s.domains,
    held := s.held, hops := s.hops }

/-- The active areas (R131) as (first granule, granules): those of arms, of capture channels, of open queues, and the
source tables in use. -/
def activeAreas (s : State) : List (Nat × Nat) :=
  (s.cells.flatMap fun c => ((match c.2.arm with
      | some a => a.areas
      | none => []) ++ c.2.arms.flatMap fun a => a.2.areas)) ++
    (s.caps.flatMap fun c => c.2.areas ++ c.2.arms.flatMap (·.areas)) ++
    ((s.queues.filter fun q => q.2.st ≠ .closed).map fun q =>
      granules (combAddr (q.1 / 16384) 0 (q.2.bufBase * 4096)) (q.2.bufCount * 4096)) ++
    ((s.hives.filter fun h => h.2.srcUsers).map fun h =>
      granules (combAddr h.1 0 (0x180000 - 32 * h.2.srcCount)) (32 * h.2.srcCount))

/-- The DIGEST of one active area: the bank (0 play, 1 catch) as the area's kind, its hive, its offset there, length and
CRC-32, and the tick. -/
def digestOf (s : State) (tick : Nat) (a : Nat × Nat) : JPay :=
  let ca := 256 * a.1
  let bank := if 0x180000 ≤ ca % 0x200000 then 1 else 0
  .digest bank (ca / 0x200000) (ca % 0x200000 - 0x180000 * bank) (256 * a.2) (crc32 (memRead s.comb ca (256 * a.2))) tick

/-- The bytes an entry takes in the ring. -/
def jBytes (p : JPay) : Nat := 16 + 16 * jLen p

/-- A checkpoint and its digests appended at a tick. -/
def ckptInto (s : State) (tick : Nat) : Journal :=
  let j := s.jnl
  let j1 := jAppend j tick (jBytes (.ckpt j.ckptNo)) (.ckpt j.ckptNo)
  let off := match j1.entries.getLast? with
    | some e => e.off
    | none => 0
  let j2 := { j1 with ckptNo := j.ckptNo + 1, ckpts := j1.ckpts ++ [(off, j.ckptNo, snapOf s tick)] }
  (activeAreas s).foldl (fun j a => jAppend j tick (jBytes (digestOf s tick a)) (digestOf s tick a)) j2

/-- Bytes of the journal writer's staging buffer (R431). -/
def stagingBytes : Nat := 0x40000

/-- An entry that enters the staging buffer on its way to the ring. -/
def jStage (j : Journal) (tick n : Nat) (p : JPay) : Journal :=
  { jAppend j tick n p with staged := j.staged + n }

/-- The kinds lost in a run of drops: bit k of the mask is kind k (DESIGN CHOICE, log 13). -/
def kindBit (p : JPay) : Nat := 2 ^ jKind p

/-- An entry of kind mask `m` is dropped at a tick: the run of drops goes on, or begins (R437). -/
def jDrop (j : Journal) (tick m : Nat) : Journal :=
  { j with lost := sat 0xFFFFFFFF j.lost, dropping := some (match j.dropping with
    | some (a, _, n, k) => (a, tick, n + 1, Nat.lor k m)
    | none => (tick, tick, 1, m)) }

/-- The JGAP that closes a run of drops (R437). -/
def jGapOf (g : Nat × Nat × Nat × Nat) : JPay := .jgap g.1 g.2.1 g.2.2.1 g.2.2.2

/-- Append an entry while RECORDING. While the staging buffer is full or the ring's channel is OFFLINE entries are dropped and
counted; one JGAP then closes the run of drops, and a checkpoint follows it. In STOP mode an entry that does not fit is
dropped, the JGAP is written and the journal is STOPPED (R308, R431, R434, R437). -/
def jput (s : State) (tick : Nat) (p : JPay) : State :=
  let j := s.jnl
  if j.st ≠ 1 then s
  else if (tget {} s.dmcs (dramChannel s (j.base + j.written % j.size))).st = .offline ∨
      stagingBytes < j.staged + jBytes p + (match j.dropping with
        | none => 0
        | some g => jBytes (jGapOf g)) then
    { s with jnl := jDrop j tick (kindBit p) }
  else
    let j1 := match j.dropping with
      | none => j
      | some g =>
        ckptInto { s with jnl := { jStage j tick (jBytes (jGapOf g)) (jGapOf g) with gaps := sat 0xFFFFFFFF j.gaps, dropping := none } } tick
    let n := jBytes p
    let g : JPay := .jgap tick tick 1 (kindBit p)
    if j.stop && decide (j.size < j1.written + n + jBytes g) then
      { s with jnl := { jStage j1 tick (jBytes g) g with lost := sat 0xFFFFFFFF j1.lost, st := 3, gaps := sat 0xFFFFFFFF j1.gaps } }
    else { s with jnl := jStage j1 tick n p }

/-- Journal a hardware-caused change of state (R47). -/
def jstate (s : State) (kind index new cause : Nat) : State := jput s s.time.tick (.state kind index new cause)

/-- Write a link; its epoch counts a change of STATE, CAUSE or the link's settings, and a change of
state is journaled (R274, R282). -/
def putLink (s : State) (i : Nat) (x : Link) : State :=
  let o := linkAt s i
  let x := if linkCode x.st = linkCode o.st ∧ x.cause = o.cause ∧
      (x.domain, x.firstLane, x.l, x.m) = (o.domain, o.firstLane, o.l, o.m) ∧
      (x.s, x.e, x.safeLink, x.cap24) = (o.s, o.e, o.safeLink, o.cap24) ∧
      (x.laneMap, x.presets, x.ffe, x.statusPin) = (o.laneMap, o.presets, o.ffe, o.statusPin) ∧
      (x.rxLat, x.crcLimit, x.eyeWMin, x.eyeHMin, x.retryS) = (o.rxLat, o.crcLimit, o.eyeWMin, o.eyeHMin, o.retryS) ∧
      x.formats = o.formats ∧ x.slotFormats = o.slotFormats then x
    else { x with epoch := o.epoch + 1 }
  let s1 := { s with links := tset {} s.links i x }
  if x.st = o.st then s1 else jstate s1 7 i (linkCode x.st) x.cause

/-- OBJECT of a fault of a link and one of its lanes (R283): the link in bits [7:0], the lane in [15:8] (DESIGN CHOICE, log 58). -/
def lnkObj (i lane : Nat) : Nat := i % 256 + 256 * lane

/-- Change a link. -/
def modLink (s : State) (i : Nat) (f : Link → Link) : State := putLink s i (f (linkAt s i))

/-- Write a DRAM channel; its epoch counts a change of STATE or configuration, and a change of state is
journaled (R307, R313). -/
def putDmc (s : State) (i : Nat) (x : Dmc) : State :=
  let o := dmcAt s i
  let x := if x.st = o.st ∧ (x.speed, x.ranks, x.density, x.map) = (o.speed, o.ranks, o.density, o.map) ∧
      (x.ref2x, x.pageIdle, x.pdIdle, x.capGib) = (o.ref2x, o.pageIdle, o.pdIdle, o.capGib) then x
    else { x with epoch := o.epoch + 1 }
  let s1 := { s with dmcs := tset {} s.dmcs i x }
  if x.st = o.st then s1 else jstate s1 8 i (dmcCode x.st) 0

/-- Change a DRAM channel. -/
def modDmc (s : State) (i : Nat) (f : Dmc → Dmc) : State := putDmc s i (f (dmcAt s i))

/-! ### Faults (R411, R412, R415) -/

/-- The class at which a status bit is held. -/
def fltClass (f : FaultBlk) (bit : Nat) : Nat := if f.status.getLsbD bit then tget 0 f.classes bit else 0

/-- Whether a block holds a bit at class `c` or higher. -/
def holdsClass (f : FaultBlk) (c : Nat) : Bool := (upFrom 32 0).any fun i => f.status.getLsbD i && decide (c ≤ fltClass f i)

/-- An occurrence of a fault: what it names, who accessed, and the owner context of the object. -/
structure Occ where
  block : Block
  bit : Nat
  cls : Nat
  obj : Nat := 0
  master : Nat := 0xD
  acc : Nat := 6
  owner : Option Nat := none
  scope : List Nat := []

/-- An occurrence of tick `tick` stands in its block's registers (R412), and the escalation timer of a class 2 one runs (R415). -/
def standIn (tick : Nat) (f : FaultBlk) (o : Recorded) : FaultBlk :=
  let old := fltClass f o.bit
  let f := { f with status := f.status ||| BitVec.ofNat 32 (2 ^ o.bit), classes := tset 0 f.classes o.bit (max old o.cls) }
  let f := if !f.valid || (f.time = 16 * tick && (f.cls < o.cls || (f.cls = o.cls && o.bit < f.bit))) then
      { f with valid := true, object := o.obj % 2 ^ 48, master := o.master, acc := o.acc, bit := o.bit,
               cls := o.cls, time := 16 * tick }
    else f
  if o.cls = 2 then
    let f := if f.running then f else { f with running := true, deadline := tick + f.window, scope := [] }
    { f with scope := f.scope ++ o.scope.filter fun x => !f.scope.contains x }
  else f

/-- Record an occurrence in its block's registers, and count it (R412). -/
def recordIn (s : State) (o : Occ) : FaultBlk :=
  let t := s.time.tick
  let f := fltAt s o.block
  let r : Recorded := ⟨o.bit, o.cls, o.obj, o.master, o.acc, o.scope⟩
  { standIn t f r with count := sat 0xFFFFFFFF f.count, recentAt := t,
                       recent := (if f.recentAt = t then f.recent else []) ++ [r] }

/-- Detect a fault of class 0, 1 or 2 (R412): a masked occurrence at class 0 or 1 records nothing; a recorded
one raises NOTICE for context 0 and the owner of the object. -/
def raise (s : State) (o : Occ) : State :=
  if (fltAt s o.block).mask.getLsbD o.bit && decide (o.cls < 2) then s
  else
    let s1 := modFlt s o.block fun _ => recordIn s o
    let s2 := irq s1 0 5
    match o.owner with
    | some k => irq s2 k 5
    | none => s2

/-- Detect each of several faults. -/
def raiseAll (s : State) : List Occ → State
  | [] => s
  | o :: t => raiseAll (raise s o) t

/-! ### Classes of settings restored (R427) -/

/-- `RESTORE_STATUS` bits of the classes an event sets to C or F, and its cause (R427). -/
def restoreMark (event : Nat) (classes : List Nat) (s : State) : State :=
  { s with grave := { s.grave with restore := s.grave.restore ||| BitVec.ofNat 32 ((classes.map (2 ^ ·)).foldl (· + ·) 0),
                                   restoreCause := event, restoreTick := s.time.tick } }

/-! ### Readiness (R340) -/

/-- The link is in DATA. -/
def linkReady (s : State) (l : Nat) : Bool := (linkAt s l).st = .data

/-- Both comb banks of a hive are ready (R340). -/
def hiveReady (s : State) (h : Nat) : Bool := (hiveAt s h).playReady && (hiveAt s h).catchReady

/-- The channel address of a device address (R287). -/
def dramChanAddr (s : State) (a : Nat) : Nat :=
  if s.interleave = 1 then bits a 13 23 * 4096 + bits a 0 12
  else if s.interleave = 2 then bits a 14 23 * 4096 + bits a 0 12 else bits a 0 35

/-- Presence of a device address (R287). -/
def dramPresent (s : State) (a : Nat) : Bool :=
  bits a 37 3 = 0 && decide (a < 2 ^ 40) && decide (dramChannel s a < nDmc s) &&
    decide (dramChanAddr s a < (dmcAt s (dramChannel s a)).capGib * 2 ^ 30)

/-- The pieces of 4 KiB that a span of addresses touches: addresses of each, `n` at most. -/
def spanPages (a len : Nat) : List Nat :=
  if len = 0 then [] else (upFrom ((a + len - 1) / 4096 - a / 4096 + 1) (a / 4096)).map (· * 4096)

/-- The channels that hold a span; a long span meets every channel of its interleave. -/
def spanChannels (s : State) (a len : Nat) : List Nat :=
  let ps := if len ≤ 65536 then spanPages a len
    else spanPages a 65536 ++ spanPages (a + len - 65536) 65536 ++ [a / 2 ^ 35 * 2 ^ 35]
  (ps.map (dramChannel s)).eraseDups

/-- Every byte of a span is present: its two ends and, across channels of 32 GiB, the boundary. -/
def spanPresent (s : State) (a len : Nat) : Bool :=
  len = 0 || ((spanPages a (min len 65536) ++ [a + len - 1] ++ spanPages (a + len - min len 65536) (min len 65536)).all
    (dramPresent s))

/-- DRAM is ready (R286): every channel holding the queue-context area is IN_SERVICE. -/
def dramReady (s : State) : Bool :=
  let cs := spanChannels s s.ctxBase 0x10000
  !cs.isEmpty && cs.all fun c => decide (c < nDmc s) && dmcReady (dmcAt s c)

/-- COL_TIME: on a worker colony time acquired, elsewhere DEVTIME (R340). -/
def colTime (s : State) : Bool := s.time.ready

/-- READY0 (R340). -/
def ready0 (s : State) : Nat :=
  pack [(1, b2n s.kpr.ready), (1, b2n s.time.ready), (1, b2n (colTime s)), (1, b2n (dramReady s)),
    (1, b2n (dmcReady (dmcAt s 0))), (1, b2n (dmcReady (dmcAt s 1))), (1, b2n (dmcReady (dmcAt s 2))),
    (1, b2n (dmcReady (dmcAt s 3))), (1, b2n (domAt s 0).guardOpen), (1, b2n (domAt s 1).guardOpen),
    (1, b2n (domAt s 2).guardOpen), (1, b2n (domAt s 3).guardOpen), (1, b2n s.kpr.flash), (1, b2n s.kpr.cal),
    (1, b2n (s.jnl.st = 1)), (1, b2n s.kpr.aux), (1, b2n s.kpr.pmbus), (1, b2n s.col.calibrated)]

/-- READY1 to READY3 (R340): the flags of 32 units from `i` on. -/
def flags32 (f : Nat → Bool) (i : Nat) : Nat := pack ((upFrom 32 i).map fun k => (1, b2n (f k)))

/-- READY1. -/
def ready1 (s : State) : Nat := flags32 (linkReady s) 0

/-- READY2. -/
def ready2 (s : State) : Nat := flags32 (hiveReady s) 0

/-- READY3. -/
def ready3 (s : State) : Nat := flags32 (hiveReady s) 32

/-! ### Pins (R18, R420) -/

/-- TX links that LINK_ENABLE has taken out of CONFIGURED (R18). -/
def txEnabled (s : State) : List Link :=
  ((upFrom 16 0).map (linkAt s)).filter fun l => l.st ≠ .off && l.st ≠ .configured

/-- A fault at class 1 or higher is held, or a grave one. -/
def faultHeld (s : State) : Bool := s.grave.held || blocks.any fun b => holdsClass (fltAt s b) 1

/-- An EXTEST-class instruction holds the pins (R401). -/
def extestHolds (s : State) : Bool :=
  s.sec.jtag = .extest || s.sec.jtag = .extestPulse || s.sec.jtag = .extestTrain

/-- Level of `OK` (R18, R420). -/
def okPin (s : State) : Bool :=
  s.dev.powered && s.dev.resetN && (s.md.mode = .idle || s.md.mode = .run) && !faultHeld s && !extestHolds s

/-- Level of `SAFE_N` (R18). -/
def safePin (s : State) : Bool :=
  s.dev.powered && s.dev.resetN &&
    match s.md.mode with
    | .bringUp => !(txEnabled s).isEmpty && (txEnabled s).all fun l => l.st = .data
    | .idle => true
    | .run => true
    | .replay => true
    | .calibrate => true
    | .standby => false
    | .safe => false
    | .factory => false

/-- `FAULT_N` driven low (R420). -/
def faultLow (s : State) : Bool := s.dev.powered && s.dev.resetN && faultHeld s

/-! ### Mode unit (R28) -/

/-- The pending mode change of R22 and R28, if one is held: a `MODE_SET`, and not a `CAL_START` or `WARM_RESET` that waits for
its tick, which no rule calls a pending change (DESIGN CHOICE, log 73); a `MODE_SET`(SAFE) in SAFE changes nothing and is none (R20), and so
is a command that replay applies (mailbox number 4). -/
def modePending (s : State) : Option (Held × Nat) :=
  match s.held.filterMap fun x => match x.cmd with
      | .modeSet _ m _ _ _ _ _ => if x.mb = 4 ∨ (m = 6 ∧ s.md.mode = .safe) then none else some (x, m)
      | _ => none with
  | [] => none
  | x :: _ => some x

/-- `MODE_STATE` (R28). -/
def modeState (s : State) : Nat :=
  pack [(4, modeCode s.md.mode), (4, modeCode s.md.prev), (1, b2n (modePending s).isSome),
    (4, match modePending s with | some p => p.2 | none => 0), (2, s.md.power), (1, b2n s.md.resetOnly),
    (1, b2n s.md.safeHeld)]

/-- `MODE_EPOCH` counts a change of `MODE_STATE` against an earlier state that it has not counted yet. -/
def modeSettle (s0 s : State) : State :=
  if modeState s = modeState s0 ∨ s.md.epoch ≠ s0.md.epoch then s
  else { s with md := { s.md with epoch := s.md.epoch + 1 } }

/-! ### Colony registers whose changes are counted (R259) -/

/-- `COL_STATE`, `COL_TIMING` and the port states. -/
def colKey (s : State) : List Nat :=
  [s.col.role, s.col.devnum, b2n s.col.joined, b2n s.col.timeOk, b2n s.col.calibrated, b2n s.col.chainOnly,
    s.col.hMin, s.col.dMax, s.col.swlLead] ++ (s.col.ports.filter fun p => p.2.st ≠ 0).map fun p => 8 * p.1 + p.2.st

/-! ### One step of the block -/

/-- `READY_EPOCH` counts a change of READY0 to READY3 not counted yet (R340). -/
def readySettle (s0 s : State) : State :=
  if (ready0 s0, ready1 s0, ready2 s0, ready3 s0) = (ready0 s, ready1 s, ready2 s, ready3 s) ∨
      s.kpr.readyEpoch ≠ s0.kpr.readyEpoch then s
  else { s with kpr := { s.kpr with readyEpoch := s.kpr.readyEpoch + 1 } }

/-- `KEEPER_EPOCH` counts a change of STATE, ACTIVE_IMG or PREF_IMG not counted yet (R341). -/
def keeperSettle (s0 s : State) : State :=
  if (s0.kpr.st, s0.kpr.activeImg, s0.dev.prefImg) = (s.kpr.st, s.kpr.activeImg, s.dev.prefImg) ∨
      s.kpr.epoch ≠ s0.kpr.epoch then s
  else { s with kpr := { s.kpr with epoch := s.kpr.epoch + 1 } }

/-- `COL_EPOCH` counts a change of the registers of `colKey` not counted yet (R259). -/
def colSettle (s0 s : State) : State :=
  if colKey s0 = colKey s ∨ s.col.epoch ≠ s0.col.epoch then s
  else { s with col := { s.col with epoch := s.col.epoch + 1 } }

/-- Raise STATE in every context where `MODE_STATE`, READY0 to READY3 or `KEEPER_STATE`.STATE changed
(R321). -/
def stateCause (s0 s : State) : State :=
  if (modeState s0, ready0 s0, ready1 s0, ready2 s0, ready3 s0, s0.kpr.st) =
      (modeState s, ready0 s, ready1 s, ready2 s, ready3 s, s.kpr.st) then s
  else irqState s

/-- `PWR_STATE` and the wake settings (R406). -/
def pwrKey (s : State) : List Nat :=
  [s.md.power, b2n s.sec.entering, b2n s.sec.waking, s.sec.wakeCause, s.sec.wakeIndex, s.sec.wakeEvp.toNat,
    s.sec.wakeSwl.toNat, b2n s.sec.wakeColony, s.sec.wakeTick]

/-- `PWR_EPOCH` counts a change of the registers of `pwrKey`, `SEC_EPOCH` a change of the lifecycle or the debug level, where
it is not counted yet (R406). -/
def secSettle (s0 s : State) : State :=
  let s1 := if pwrKey s0 = pwrKey s ∨ s.sec.pwrEpoch ≠ s0.sec.pwrEpoch then s
    else { s with sec := { s.sec with pwrEpoch := s.sec.pwrEpoch + 1 } }
  if (s0.dev.lifecycle = s.dev.lifecycle ∧ s0.sec.dbg = s.sec.dbg) ∨ s.sec.epoch ≠ s0.sec.epoch then s1
  else { s1 with sec := { s1.sec with epoch := s1.sec.epoch + 1 } }

/-- After a step: the epochs of mode, readiness, keeper, colony, power and security have counted their changes, and the
STATE cause has been raised; the queue of waiting commands is as it was. -/
def settle (s0 s : State) : State :=
  { stateCause s0 (secSettle s0 (colSettle s0 (keeperSettle s0 (readySettle s0 (modeSettle s0 s))))) with
    pending := s0.pending }

/-- One launch tick passes while the block is powered, RESET_N is high (R30, R32);
nothing else happens. DESIGN CHOICE, log 1. -/
def tickOver (s : State) : State :=
  if s.dev.powered && s.dev.resetN then { s with time := { s.time with tick := s.time.tick + 1 } } else s

/-- The block acts only while it is powered and RESET_N is high (R19); otherwise nothing happens. -/
def alive (s : State) : Bool := s.dev.powered && s.dev.resetN

/-- What a step answers: the effect `f`, settled, while the block is alive. -/
def act (s : State) (f : State → State) : Host.Outcome State Fault Refusal :=
  if alive s then .next (settle s (f s)) else .next s

/-- As `act`, for an event of a unit: an event of a unit the device does not have is a fault of the model. -/
def actOn (present : Bool) (s : State) (f : State → State) : Host.Outcome State Fault Refusal :=
  if present then act s f else .fault .absentUnit

end Sys2Proof.Machine
end

