-- ==== Sys2Proof/Machine/Operands.lean ====
section
/-! DEFINITION. Operand forms: the packing of arguments and results (R331), the frame layouts (R330), and the
arguments that name one of several kinds. -/

namespace Sys2Proof.Machine

/-! ### Packing (R331) -/

/-- Bytes from an offset up to the next multiple of an argument's alignment: its size, or 8 for a block. -/
def alignPad (off size : Nat) : Nat :=
  let a := if size ≤ 8 then size else 8
  if a = 0 then 0 else (a - off % a) % a

/-- Pack values given as (size, value) from an offset on. -/
def packFrom (off : Nat) : List (Nat × Nat) → List Byte
  | [] => []
  | (n, v) :: t => List.replicate (alignPad off n) 0 ++ le n v ++ packFrom (off + alignPad off n + n) t

/-- A RESULT of the values given as (size, value). -/
def res (l : List (Nat × Nat)) : List Byte := packFrom 0 l

/-- Read arguments of the sizes given: their values, and the offset after the last. -/
def readArgs (off : Nat) (args : List Byte) : List Nat → List Nat × Nat
  | [] => ([], off)
  | n :: t =>
    let o := off + alignPad off n
    let r := readArgs (o + n) args t
    (ofLe ((args.drop o).take n) :: r.1, r.2)

/-- The bytes that padding leaves between the arguments, and all after the last, are 0. -/
def padZero (off : Nat) (args : List Byte) : List Nat → Bool
  | [] => (args.drop off).all (· = 0)
  | n :: t =>
    ((args.drop off).take (alignPad off n)).all (· = 0) && padZero (off + alignPad off n + n) args t

/-- A selector as its 4 bytes give it: kind in [31:28], number in [27:0]. -/
def selOf (v : Nat) : Sel := ⟨bits v 28 4, bits v 0 28⟩

/-- The 4 bytes of a selector. -/
def selNum (x : Sel) : Nat := pack [(28, x.num), (4, x.kind)]

/-! ### Frames (R329, R330, R332) -/

/-- The first frame of a command. -/
structure Frame where
  opcode : Nat
  ctx : Nat
  mb : Nat
  chk : Bool
  frames : Nat
  cont : Bool
  seq : Nat
  eff : Nat
  epoch : Nat
  args : List Byte
  data : List Byte
  reservedOk : Bool
  crcOk : Bool

/-- Take a 64-byte frame apart; the reserved bits of a first frame are byte 2 [7], byte 3 [6], bytes 6 and 7
and EFF_TICK [63:60], those of a continuation frame byte 2 [7] and byte 3 [6]. -/
def parseFrame (l : List Byte) : Frame :=
  let g (o n : Nat) : Nat := ofLe ((l.drop o).take n)
  let b2 := g 2 1
  let b3 := g 3 1
  let cont := bitOf b3 7
  { opcode := g 0 2, ctx := bits b2 0 4, mb := bits b2 4 2, chk := bitOf b2 6, frames := bits b3 0 6, cont := cont,
    seq := g 4 2, eff := bits (g 8 8) 0 60, epoch := g 16 4, args := (l.drop 20).take 42, data := (l.drop 6).take 56,
    reservedOk := !bitOf b2 7 && !bitOf b3 6 && (cont || (g 6 2 = 0 && bits (g 8 8) 60 4 = 0)),
    crcOk := g 62 2 = crc16 (l.take 62) }

/-- Append the CRC-16 to 62 bytes of a frame. -/
def sealFrame (l : List Byte) : List Byte := fit 62 l ++ le 2 (crc16 (fit 62 l))

/-- Reply frames in all: RESULT holds 34 bytes in the first and 56 in each further one; a tunnelled reply is one frame
more. -/
def replyFrames (r : Reply) : Nat := 1 + ceilDiv (r.result.length - 34) 56 + (if r.raw.isEmpty then 0 else 1)

/-- The bytes of reply frame `i` as a mailbox shows it (R332). -/
def replyFrame (r : Reply) (ctx mb i : Nat) : List Byte :=
  let head := le 2 r.opcode ++ [BitVec.ofNat 8 (pack [(4, ctx), (2, mb), (1, b2n r.diverged)])]
  if i = 0 then
    sealFrame (head ++ [BitVec.ofNat 8 (replyFrames r - 1)] ++ le 2 r.seq ++ le 2 (errCode r.status) ++
      le 8 r.sampleTick ++ le 4 r.epoch.toNat ++ le 8 r.decTick ++ fit 34 r.result)
  else if !r.raw.isEmpty && i + 1 = replyFrames r then r.raw
  else
    sealFrame (head ++ [BitVec.ofNat 8 (i + 128)] ++ le 2 r.seq ++ fit 56 (r.result.drop (34 + 56 * (i - 1))))

end Sys2Proof.Machine
end

