-- ==== Sys2Proof/Machine/Keeper.lean ====
section
/-! DEFINITION. The keeper's part in every command: the ordered decisions of a frame (R327), replies (R332,
R333), the mode classes (R26), and the store of accepted commands. -/

namespace Sys2Proof.Machine

/-! ### Unit epochs (R343) -/

/-- The epoch of a unit by its kind code; 0 where there is no such unit. -/
def unitEpoch (s : State) (kind i : Nat) : Word :=
  match kind with
  | 0x0 => s.md.epoch
  | 0x1 => (cellAt s i).epoch
  | 0x2 => (capAt s i).epoch
  | 0x3 => (queueAt s i).epoch
  | 0x4 => (hiveAt s i).epoch
  | 0x5 => (hiveAt s i).pqmEpoch
  | 0x6 => (domAt s i).epoch
  | 0x7 => (linkAt s i).epoch
  | 0x8 => (dmcAt s i).epoch
  | 0x9 => s.wagEpoch
  | 0xA => s.col.epoch
  | 0xB => s.kpr.readyEpoch
  | 0xC => s.kpr.epoch
  | 0xD => (auxAt s i).epoch
  | 0xE => s.sec.epoch
  | 0xF => s.sec.pwrEpoch
  | _ => 0

/-- The epoch a reply carries: 0 for a command without a unit (R332). -/
def epochOf (s : State) : Option (Nat × Nat) → Word
  | some (k, i) => unitEpoch s k i
  | none => 0

/-! ### Mode classes (R26, R440) -/

/-- The mode that governs the units: in REPLAY the replayed mode (R440). -/
def unitMode (s : State) : Mode := if s.md.mode = .replay then s.rpl.simMode else s.md.mode

/-- The origin mode and the cells of the calibration run that the units are in; in REPLAY those replayed. -/
def unitCal (s : State) : Mode × List Nat :=
  if s.md.mode = .replay then (s.rpl.simOrigin, s.rpl.simCal) else (s.md.origin, s.md.calCells)

/-- Load and bind commands. -/
def modeLoad (s : State) : Bool :=
  s.md.mode = .bringUp || s.md.mode = .idle || s.md.mode = .run || s.md.mode = .calibrate

/-- Whether cells, captures and inputs act as in RUN: in RUN, and in CALIBRATE entered from RUN (R18). -/
def runLike (s : State) : Bool := s.md.mode = .run || (s.md.mode = .calibrate && s.md.origin = .run)

/-- Start commands, for the cells (or channels) they act on. In CALIBRATE entered from IDLE, R18 permits what IDLE permits, and
R26 accepts a command only where R18 permits its effect (DEDUCED, log 73). -/
def modeStart (s : State) (cells : List Nat) : Bool :=
  runLike s && (s.md.mode = .run || cells.all fun c => !s.md.calCells.contains c)

/-- Rest commands: every mode except REPLAY. -/
def modeRest (s : State) : Bool := s.md.mode ≠ .replay

/-! ### Replies -/

/-- Bytes 16 i to 16 i + 15 of a frame, as a colony frame's payload carries them. -/
def fragment (size i : Nat) (frame : List Byte) : Nat := ofLe (fit size (frame.drop (size * i)))

/-- A frame of 64 bytes on a colony port: 4 TUNNEL frames on a star port, 6 CHAIN fragments on a chain port (R242, R256); the
last of them frees a reply slot where one is given. -/
def tunnelOut (port dir dest src rank : Nat) (frees : Option Nat) (frame : List Byte) (s : State) : State :=
  let star (i : Nat) : DueFrame :=
    { rank := rank, hdr := BitVec.ofNat 8 (7 + 16 * i + 64 * dir), payload := BitVec.ofNat 128 (fragment 16 i frame),
      frees := if i = 3 then frees else none }
  let chain (i : Nat) : DueFrame :=
    { rank := 1, hdr := BitVec.ofNat 8 (8 + 16 * i + 128 * dir),
      payload := BitVec.ofNat 128 (pack [(6, dest), (6, src), (20, 0), (96, fragment 12 i frame)]),
      frees := if i = 5 then frees else none }
  let fs := if 64 ≤ port then (upFrom 6 0).map chain else (upFrom 4 0).map star
  modPort s port fun p => { p with due := p.due ++ fs }

/-- The last frame of a tunnelled reply has gone: the slot is free (R456). -/
def tunnelSent (n : Option Nat) (s : State) : State :=
  match n with
  | some k => { s with mailboxes := tmod {} s.mailboxes k fun m => { m with pending := false, tunnel := none } }
  | none => s

/-- Write a reply in its mailbox: REPLY_VALID and the REPLY cause; PENDING stays while frames are still to
come (R321, R332); it carries DIVERGED where the command found such a unit (R344). The reply of a tunnelled command goes back to the manager (R256). -/
def writeReply (s : State) (ctx mb : Nat) (r0 : Reply) : State :=
  let r := { r0 with diverged := (mbAt s ctx mb).found }
  match (mbAt s ctx mb).tunnel with
  | some path =>
    let s1 := modMb s ctx mb fun m => { m with pending := true, multi := m.asm.isSome, owed := none, found := false }
    tunnelOut (if path = 0 then 0 else 64) 1 0 s.col.devnum 3 (some (4 * ctx + mb)) (replyFrame r ctx mb 0) s1
  | none =>
    irq (modMb s ctx mb fun m =>
      { m with reply := some r, shown := 0, replyValid := true, pending := decide (1 < replyFrames r),
               diverged := r.diverged, multi := m.asm.isSome, owed := none, found := false }) ctx mb

/-- The reply of a frame or command, with EPOCH and SAMPLE_TICK of now. -/
def answer (s : State) (ctx mb op seq : Nat) (st : Err) (unit : Option (Nat × Nat)) (dec : Nat)
    (res : List Byte) : State :=
  writeReply s ctx mb
    { opcode := op, seq := seq, status := st, sampleTick := s.time.tick, epoch := epochOf s unit,
      decTick := dec, result := res }

/-- A rejection: a reply at once, DEC_TICK 0; E_BAD_CRC and E_BAD_FRAME set FRAME_ERR (R333, R347). -/
def reject (s : State) (ctx mb op seq : Nat) (e : Err) (unit : Option (Nat × Nat) := none)
    (res : List Byte := []) : State :=
  let s1 := answer s ctx mb op seq e unit 0 res
  if e = .badCrc ∨ e = .badFrame then
    raise s1 { block := .kpr, bit := 4, cls := 0, obj := 4 * ctx + mb, master := 8, acc := 1 }
  else s1

/-- Retain: the keeper's clock stands still and only context 0 may post (R392). -/
def inRetain (s : State) : Bool := s.md.mode = .standby && s.md.power = 3

/-- Whether a frame is refused: BUSY or the reply slot reserved outside a multi-frame command (order 1),
keeper not up (order 2), or RECOVERY or Retain and not context 0 (R342, R392). -/
def refusesPost (s : State) (ctx mb : Nat) : Bool :=
  let m := mbAt s ctx mb
  m.busy || ((m.pending || m.replyValid) && m.asm.isNone) || !s.kpr.ready || ((s.kpr.st = 4 || inRetain s) && ctx ≠ 0)

/-- A refused post: REFUSED set, nothing else. -/
def refusePost (s : State) (ctx mb : Nat) : State := modMb s ctx mb fun m => { m with refused := true }

/-- Abandon the command being assembled. -/
def dropAsm (s : State) (ctx mb : Nat) : State := modMb s ctx mb fun m => { m with asm := none, multi := false }

/-! ### Acceptance -/

/-- Reply classes (R333). -/
inductive RClass where
  | a
  | d
  | c
  deriving DecidableEq, Repr

/-- What the keeper judges of one command against one state: opcode, epoch unit, reply class; whether the
context is permitted (order 9), its functions ready and no resource named beside the unit absent (10, beside device time),
the mode permits it (11), the
error of its own checks (14) with RESULT and what a rejection for it does beside the reply; the decision tick from the effective one; what acceptance does at
once; whether a unit holds it until its decision tick; and a class A RESULT. -/
structure CSpec where
  op : Nat
  unit : Option (Nat × Nat) := none
  cls : RClass := .a
  permitted : Bool := true
  ready : Bool := true
  absent : Bool := false
  noTime : Bool := false
  modeOk : Bool := true
  err : Option Err := none
  errData : List Byte := []
  onReject : State → State := id
  decOf : Nat → Nat := id
  onAccept : State → State := id
  hold : Bool := true
  result : List Byte := []

/-- Opcodes that RECOVERY accepts (R342). -/
def recoveryOp (op : Nat) : Bool := [0x0001, 0x0040, 0x0041, 0x0042, 0x0043, 0x0044, 0x0022].contains op

/-- Opcodes that REPLAY accepts beside `MODE_SET` to IDLE or SAFE: `WARM_RESET`, `FAULT_CLEAR` and the reading commands
(R440). -/
def replayOp (op : Nat) : Bool :=
  [0x0000, 0x0001, 0x0002, 0x0003, 0x0020, 0x0021, 0x0040, 0x0111, 0x0115, 0x0404, 0x0706, 0x0805, 0x0902, 0x0906, 0x0A02, 0x0C02,
    0x0C08, 0x0D00, 0x0D04, 0x0E00].contains op

/-- A number lies beyond what this variant has, but not beyond what the ZW1024-A has (R3). -/
def beyond (here full i : Nat) : Bool := decide (here ≤ i) && decide (i < full)

/-- The unit of a command is absent on this variant (R3). -/
def unitAbsent (s : State) : Option (Nat × Nat) → Bool
  | some (k, i) =>
    if k = 1 ∨ k = 2 then beyond (nCells s) 1024 i
    else if k = 3 then beyond (nCells s) 1024 (i / 1024)
    else if k = 4 ∨ k = 5 then beyond (nHives s) 64 i
    else k = 8 && beyond (nDmc s) 4 i
  | none => false

/-- Orders 9 to 14 of R327: the first that applies. -/
def judgeErr (s : State) (h : Hdr) (p : CSpec) : Option Err :=
  if !p.permitted || !ctxEnabled s h.ctx then some .denied
  else if !(p.noTime || s.time.ready) || !p.ready || p.absent || unitAbsent s p.unit || (s.kpr.st = 4 && !recoveryOp p.op) then some .notReady
  else if !p.modeOk || (s.md.mode = .replay && !replayOp p.op) then some .badMode
  else if h.eff ≠ 0 ∧ h.eff < s.time.tick + s.time.horizon then some .tickPast
  else if s.time.tick + 2 ^ 40 < h.eff then some .badArg
  else if h.chk && p.unit.isNone then some .badArg
  else if h.chk && h.epoch ≠ epochOf s p.unit then some .staleEpoch
  else p.err

/-- The tick at which an accepted command is decided (R38). -/
def decTick (s : State) (h : Hdr) (p : CSpec) : Nat :=
  p.decOf (if h.eff = 0 then s.time.tick + s.time.horizon else h.eff)

/-- Hand an accepted command to the unit that holds it. -/
def holdCmd (s : State) (x : Held) : State :=
  { s with held := s.held ++ [x], kpr := { s.kpr with nextSerial := s.kpr.nextSerial + 1 } }

/-! ### What firmware finds by itself (R217, R344, R345) -/

/-- RELAY of a channel. -/
def chanRelay (c : Chan) : Bool := bitOf c.entry.toNat 17

/-- SOURCE of a channel: a SRC_ID, or the source channel of a relay. -/
def chanSource (c : Chan) : Nat := bits c.entry.toNat 0 16

/-- A raise of a channel is decided at a tick, or already held for it. -/
def raiseTaken (s : State) (w dec : Nat) : Bool :=
  (chanAt s w).lastRaise = some dec || s.held.any fun x => x.dec = dec && match x.cmd with
    | .wagRaise _ v _ => v = w
    | _ => false

/-- The SOURCE of a channel is a keeper code. -/
def keeperChan (c : Chan) : Bool := !chanRelay c && chanSource c / 0x2000 = 5

/-- `WAG_RAISE` is accepted: in IDLE, RUN and CALIBRATE, device time ready (R221). -/
def raiseMode (s : State) : Bool := s.time.ready && (s.md.mode = .idle || s.md.mode = .run || s.md.mode = .calibrate)

/-- Firmware raises a notice on a channel by a `WAG_RAISE` of its own in context 0, journaled as accepted (R217); none on
a channel without a keeper SOURCE, not owned by context 0, or already raised for that tick, nor in a mode that takes no raise. -/
def firmwareRaise (w : Nat) (s : State) : State :=
  let dec := s.time.tick + s.time.horizon
  let h : Hdr := { ctx := 0, mb := 0, seq := 0 }
  if 512 ≤ w ∨ !keeperChan (chanAt s w) ∨ !owns s 0 (chanAt s w).own ∨ raiseTaken s w dec ∨ !raiseMode s then s
  else
    holdCmd (jput s s.time.tick (.cmd dec 0 0 (.wagRaise h w 1)))
      ⟨dec, s.time.tick, 0, 0, 0, s.kpr.nextSerial, false, .wagRaise h w 1⟩

/-- The owner of a unit by its epoch kind (R343); context 0 for what no context owns. -/
def unitOwner (s : State) (kind i : Nat) : Nat :=
  match kind with
  | 1 => (cellOwner s i).owner
  | 2 => (cellOwner s i).owner
  | 3 => (cellOwner s (i / 1024)).owner
  | 0xD => (auxAt s i).own.owner
  | _ => 0

/-- A unit whose shadow disagreed: counted, named, noticed, raised as the keeper event. -/
def diverge (u : Sel) (s : State) : State :=
  let k := { s.kpr with divergedCount := sat 0xFFFFFFFF s.kpr.divergedCount,
                        lastDiverged := BitVec.ofNat 32 (selNum u) }
  let s1 := raise { s with kpr := k } { block := .kpr, bit := 3, cls := 0, obj := selNum u, master := 7 }
  firmwareRaise s.kpr.noticeCh (irq (irq s1 0 7) (unitOwner s u.kind u.num) 7)

/-- A command that reads a unit whose shadow disagrees with hardware finds it: DIVERGED is raised, and its reply will say so; it
is judged, like every command, against hardware. -/
def findStale (h : Hdr) (p : CSpec) (s : State) : State :=
  match p.unit with
  | some (k, i) => if h.stale then modMb (diverge ⟨k, i⟩ s) h.ctx h.mb fun m => { m with found := true } else s
  | none => s

/-- Acceptance at T_a = now (order 15): journaled, LAST_SEQ and SEQ_FREE, the unit holds the command, and a
class A command is answered. -/
def accept (s : State) (h : Hdr) (cmd : Instr) (p : CSpec) : State :=
  let ta := s.time.tick
  let dec := decTick s h p
  let s1 := jput s ta (.cmd dec h.ctx h.mb cmd)
  let s2 := modMb s1 h.ctx h.mb fun m =>
    { m with lastSeq := h.seq, seqFree := false, pending := true, owed := some ⟨p.op, h.seq, false, dec⟩ }
  let s3 := if p.hold then holdCmd s2 ⟨dec, ta, h.ctx, h.mb, h.seq, s2.kpr.nextSerial, p.cls ≠ .a, cmd⟩ else s2
  let s4 := p.onAccept s3
  if p.cls = .a then
    answer (modMb s4 h.ctx h.mb fun m => { m with lastStatus := .ok }) h.ctx h.mb p.op h.seq .ok p.unit dec p.result
  else s4

/-- Orders 5 and 6 of R327 on SEQ: the error with its RESULT. -/
def seqErr (s : State) (ctx mb seq : Nat) : Option (Err × List Byte) :=
  let m := mbAt s ctx mb
  if m.seqFree then none
  else if seq = m.lastSeq then some (.duplicate, le 2 (errCode m.lastStatus))
  else if seq ≠ (m.lastSeq + 1) % 65536 then some (.badSeq, []) else none

/-- Orders 5 and 6 of R327, then 9 to 15. -/
def judge (s : State) (h : Hdr) (cmd : Instr) (p : CSpec) : State :=
  match seqErr s h.ctx h.mb h.seq with
  | some (e, r) => reject s h.ctx h.mb p.op h.seq e none r
  | none =>
    let s1 := findStale h p s
    match judgeErr s1 h p with
    | some e =>
      if p.err = some e then reject (p.onReject s1) h.ctx h.mb p.op h.seq e p.unit p.errData
      else reject s1 h.ctx h.mb p.op h.seq e p.unit
    | none => accept s1 h cmd p

/-- A whole well-formed frame of a command posted in mailbox (ctx, mb) (R327): a whole first frame while a
command is being assembled is out of order (order 4). -/
def submit (h : Hdr) (cmd : Instr) (p : CSpec) (s : State) : State :=
  if refusesPost s h.ctx h.mb then refusePost s h.ctx h.mb
  else
    let s1 := modMb s h.ctx h.mb fun m => { m with refused := false }
    if (mbAt s h.ctx h.mb).asm.isSome then reject (dropAsm s1 h.ctx h.mb) h.ctx h.mb p.op h.seq .badFrame
    else judge s1 h cmd p

/-- The meaning of a Berza command row: its frame posted now, in a mailbox the device has. -/
def berza (h : Hdr) (cmd : Instr) (p : CSpec) (s : State) : Host.Outcome State Fault Refusal :=
  actOn (decide (h.ctx < 16) && decide (h.mb < 4)) s (submit h cmd p)

/-! ### Decision and completion -/

/-- The reply of a command at its decision or completion, where its slot is still reserved (R333). -/
def finish (s : State) (x : Held) (op : Nat) (unit : Option (Nat × Nat)) (st : Err) (res : List Byte := []) : State :=
  if x.reply then
    answer (modMb s x.ctx x.mb fun m => { m with lastStatus := st }) x.ctx x.mb op x.seq st unit x.dec res
  else s

/-- The keeper works on a decided command until its completion row. -/
def beginWork (s : State) (x : Held) : State := { s with works := s.works ++ [x] }

/-- The first work that satisfies `p`. -/
def findWork (s : State) (p : Instr → Bool) : Option Held := s.works.find? fun x => p x.cmd

/-- Take a work off the list. -/
def endWork (s : State) (x : Held) : State := { s with works := s.works.erase x }

/-- Rank of a decision among those of one tick: an arm first, then loss of lock, stops (with mode changes),
pause, start and resume, rate change (R60, R62); triggers before disarms (R180), other commands between stops and
pauses and readings last.
DESIGN CHOICE for the ranks that R62 does not give, log 17. -/
def rank : Instr → Nat
  | .cellArm .. => 0
  | .cellStop .. => 2
  | .cellReset .. => 2
  | .modeSet .. => 2
  | .warmReset .. => 9
  | .cellPause .. => 4
  | .cellStart .. => 5
  | .cellResume .. => 5
  | .cellRateSet .. => 6
  | .capTrigger .. => 1
  | .domainSet .. => 1
  | .readyRead .. => 8
  | .windowRead .. => 8
  | .queueStatus .. => 8
  | .wagWatchRead .. => 8
  | .keeperRestart .. => 9
  | _ => 3

/-- Whether a held command is decided before another: decision tick, rank, order of acceptance. -/
def heldBefore (a b : Held) : Bool :=
  decide (a.dec < b.dec) ||
    (a.dec = b.dec && (decide (rank a.cmd < rank b.cmd) || (rank a.cmd = rank b.cmd && decide (a.serial < b.serial))))

/-- The held command decided first. -/
def firstHeld : List Held → Option Held
  | [] => none
  | x :: t =>
    match firstHeld t with
    | none => some x
    | some y => if heldBefore y x then some y else some x

/-- The commands that a kind of unit holds: those that satisfy `p`. -/
def heldCount (s : State) (p : Instr → Bool) : Nat := (s.held.filter fun x => p x.cmd).length

end Sys2Proof.Machine
end

