-- ==== Sys2Proof/Machine/AuxOut.lean ====
section
/-! DEFINITION. The auxiliary outputs (spec/13): codes, shaping, clears, commands and events. -/

namespace Sys2Proof.Machine

/-! ### Codes and shaping (R349 to R353) -/

/-- One slew step toward the target (R351). -/
def slewTo (code target step : Nat) : Nat :=
  if code ≤ target then min target (code + step) else max target (code - step)

/-- A slew step at a tick: the next one follows RATE ticks later until the target is reached. -/
def slewStep (t : Nat) (x : Aux) : Aux :=
  let c := slewTo x.code x.target x.stepSize
  { x with code := c, slewNext := if c = x.target then none else some (t + x.rate) }

/-- Ticks of the 1.2 us deglitch hold. -/
def deglitchTicks : Nat := 120

/-- A new code reaches the output stage at tick `t` with the shaping in force (R351); the channel leaves its
clear code (R353). -/
def auxApply (code t : Nat) (x : Aux) : Aux :=
  let x := { x with target := code, cleared := false }
  if x.shape = 2 then slewStep t { x with holdEnd := none }
  else if x.shape = 1 ∧ code / 4096 ≠ x.code / 4096 then { x with holdEnd := some (t + deglitchTicks), slewNext := none }
  else { x with code := code, holdEnd := none, slewNext := none }

/-- Outputs follow writes: IDLE, RUN, CALIBRATE, with `AUX_CLR_N` high (R353, R356). -/
def auxDrives (s : State) : Bool :=
  (s.md.mode = .idle || s.md.mode = .run || s.md.mode = .calibrate) && s.auxClrN

/-- A code for a channel at tick `t`: while the channel may not drive, only its target (R353, R356). -/
def auxSet (a code t : Nat) (s : State) : State :=
  if auxDrives s then modAux s a (auxApply code t) else modAux s a fun x => { x with target := code }

/-- A channel goes to its clear code at once, without shaping (R352). -/
def auxClear (x : Aux) : Aux := { x with code := x.clearCode, cleared := true, slewNext := none, holdEnd := none }

/-- Every channel goes to its clear code; each counts the clear in its epoch, also where it was cleared before (R361). -/
def auxClearAll (s : State) : State :=
  forUp (fun a s => { s with auxs := tmod {} s.auxs a fun x => { auxClear x with epoch := x.epoch + 1 } }) 64 0 s

/-- Calibration of a host code (R350). -/
def auxCal (x : Aux) (code : Nat) : Nat := (clamp 0 65535 (rnd (code * x.gA) (2 ^ 28) + x.oA)).toNat

/-! ### Commands (R360) -/

/-- The owner may act on the channel. -/
def auxPermitted (s : State) (h : Hdr) (a : Nat) : Bool := owns s h.ctx (auxAt s a).own

/-- `AUX_CONFIG`: CLEAR_CODE is for context 0 only; from another context it must be unchanged (R354). -/
def specAuxConfig (h : Hdr) (a shape step rate clr : Nat) (s : State) : CSpec :=
  let x := auxAt s a
  { op := 0x0A00, unit := some (0xD, a),
    permitted := auxPermitted s h a && (h.ctx = 0 || clr = x.clearCode),
    ready := s.kpr.aux, modeOk := modeLoad s,
    err := if 64 ≤ a ∨ 2 < shape ∨ step = 0 ∨ 65535 < step ∨ rate = 0 ∨ 65535 < rate ∨ 65535 < clr then some .badArg
      else if x.bound.isSome then some .badState else none }

/-- The decision of `AUX_CONFIG`; a channel at its clear code takes the new one at once. -/
def decAuxConfig (a shape step rate clr : Nat) (s : State) : State :=
  if (auxAt s a).bound.isSome then s
  else modAux s a fun x => { x with shape := shape, stepSize := step, rate := rate, clearCode := clr,
                                    code := if x.cleared then clr else x.code }

/-- `AUX_WRITE` (R349, R357). -/
def specAuxWrite (h : Hdr) (a code raw : Nat) (s : State) : CSpec :=
  { op := 0x0A01, unit := some (0xD, a), permitted := auxPermitted s h a, ready := s.kpr.aux,
    modeOk := s.md.mode = .idle || s.md.mode = .run || (s.md.mode = .calibrate && !s.md.calAux.getLsbD a),
    err := if 64 ≤ a ∨ 65535 < code ∨ 1 < raw then some .badArg
      else if (auxAt s a).bound.isSome then some .badState else none }

/-- The decision of `AUX_WRITE`. -/
def decAuxWrite (x : Held) (a code raw : Nat) (s : State) : State :=
  if (auxAt s a).bound.isSome then s
  else auxSet a (if raw = 1 then code else auxCal (auxAt s a) code) x.dec s

/-- `AUX_READBACK` (R358). -/
def specAuxReadback (h : Hdr) (a : Nat) (s : State) : CSpec :=
  { op := 0x0A02, unit := some (0xD, a), cls := .c, permitted := auxPermitted s h a, ready := s.kpr.aux,
    modeOk := s.md.mode ≠ .standby,
    err := if 64 ≤ a then some .badArg else none }

/-- The decision of `AUX_READBACK` samples the output; the measurement completes with AUX_READBACK_DONE. -/
def decAuxReadback (x : Held) (a : Nat) (s : State) : State :=
  beginWork (modAux s a fun y =>
    { y with reads := y.reads.filter (fun r => s.works.any (·.serial = r.1)) ++ [(x.serial, x.dec, y.code)] }) x

/-- What a channel's measurement in progress for a command sampled: the instant and the code in force. -/
def auxSampled (y : Aux) (serial : Nat) : Nat × Nat :=
  match y.reads.find? (·.1 = serial) with
  | some r => r.2
  | none => (0, 0)

/-- AUX_READBACK_DONE (R358): the measured value, with the code that was in force and the sampling instant. -/
def auxReadbackDone (a meas : Nat) (s : State) : State :=
  match findWork s fun i => match i with
      | .auxReadback _ b => b = a
      | _ => false with
  | none => s
  | some x =>
    let r := auxSampled (auxAt s a) x.serial
    let s1 := modAux (endWork s x) a fun y => { y with meas := meas % 65536, reads := y.reads.filter (·.1 ≠ x.serial) }
    finish s1 x 0x0A02 (some (0xD, a)) .ok (res [(2, meas % 65536), (2, r.2), (8, r.1)])

/-- `AUX_CLEAR` (R474): bit 32 `AUX_RB`.MEAS, bit 33 `AUX_SELF`. -/
def specAuxClear (h : Hdr) (a : Nat) (mask : DWord) (s : State) : CSpec :=
  { op := 0x0A03, unit := some (0xD, a), permitted := auxPermitted s h a, ready := s.kpr.aux, modeOk := modeRest s,
    err := if 64 ≤ a ∨ mask &&& ~~~(0x300000000 : DWord) ≠ 0 then some .badArg else none }

/-- The decision of `AUX_CLEAR`. -/
def decAuxClear (a : Nat) (mask : DWord) (s : State) : State :=
  let s1 := if mask.getLsbD 32 then modAux s a fun x => { x with meas := 0 } else s
  if mask.getLsbD 33 then { s1 with svc := { s1.svc with selfResid := 0, selfWorst := 0, selfRuns := 0 } } else s1

/-- AUX_CONFIG: R360. -/
def execAuxConfig (h : Hdr) (channel shape stepSize rate clearCode : Nat) (s : State) :
    Host.Outcome State Fault Refusal :=
  berza h (.auxConfig h channel shape stepSize rate clearCode) (specAuxConfig h channel shape stepSize rate clearCode s) s

/-- AUX_WRITE: R349. -/
def execAuxWrite (h : Hdr) (channel code raw : Nat) (s : State) : Host.Outcome State Fault Refusal :=
  berza h (.auxWrite h channel code raw) (specAuxWrite h channel code raw s) s

/-- AUX_READBACK: R358. -/
def execAuxReadback (h : Hdr) (channel : Nat) (s : State) : Host.Outcome State Fault Refusal :=
  berza h (.auxReadback h channel) (specAuxReadback h channel s) s

/-- AUX_READBACK_DONE: R358. -/
def execAuxReadbackDone (channel meas : Nat) (s : State) : Host.Outcome State Fault Refusal :=
  actOn (decide (channel < 64)) s (auxReadbackDone channel meas)

/-- AUX_CLEAR: R360, R474. -/
def execAuxClear (h : Hdr) (channel : Nat) (mask : DWord) (s : State) : Host.Outcome State Fault Refusal :=
  berza h (.auxClear h channel mask) (specAuxClear h channel mask s) s

/-! ### Events -/

/-- `AUX_CLR_N` is sampled low (R352, R362): journaled, every channel to its clear code, CLEAR noticed. -/
def auxClrAssert (s : State) : State :=
  if !s.auxClrN then s
  else
    let s1 := jstate { s with auxClrN := false } 0xD 0xFF 0 1
    raise (auxClearAll s1) { block := .aux, bit := 2, cls := 0, obj := 0 }

/-- AUX_CLR_ASSERT: R352. -/
def execAuxClrAssert (s : State) : Host.Outcome State Fault Refusal := act s auxClrAssert

/-- `AUX_CLR_N` is released (R352): journaled; each channel stays at its clear code, and its epoch counts the
release (R361). -/
def auxClrRelease (s : State) : State :=
  if s.auxClrN then s
  else
    let s1 := jstate { s with auxClrN := true } 0xD 0xFF 1 1
    forUp (fun a s => { s with auxs := tmod {} s.auxs a fun x => { x with epoch := x.epoch + 1 } }) 64 0 s1

/-- AUX_CLR_RELEASE: R352. -/
def execAuxClrRelease (s : State) : Host.Outcome State Fault Refusal := act s auxClrRelease

/-- AUX_SLEW_STEP (R351): the step whose tick has come. -/
def auxSlewStep (a : Nat) (s : State) : State :=
  match (auxAt s a).slewNext with
  | none => s
  | some t => if t ≤ s.time.tick then modAux s a (slewStep t) else s

/-- AUX_SLEW_STEP: R351. -/
def execAuxSlewStep (channel : Nat) (s : State) : Host.Outcome State Fault Refusal :=
  actOn (decide (channel < 64)) s (auxSlewStep channel)

/-- DEGLITCH_HOLD_END (R351): the output steps to its new code. -/
def deglitchHoldEnd (a : Nat) (s : State) : State :=
  match (auxAt s a).holdEnd with
  | none => s
  | some t => if t ≤ s.time.tick then modAux s a fun x => { x with code := x.target, holdEnd := none } else s

/-- DEGLITCH_HOLD_END: R351. -/
def execDeglitchHoldEnd (channel : Nat) (s : State) : Host.Outcome State Fault Refusal :=
  actOn (decide (channel < 64)) s (deglitchHoldEnd channel)

/-- AUX_SHORT (R357): the current limit is reached or left; reaching it raises AUX_SHORT. -/
def auxShort (a : Nat) (active : Bool) (s : State) : State :=
  let s1 := modAux s a fun x => { x with short := active }
  if active then raise s1 { block := .aux, bit := 0, cls := 1, obj := a, owner := some (auxAt s a).own.owner } else s1

/-- AUX_SHORT: R357. -/
def execAuxShort (channel : Nat) (active : Bool) (s : State) : Host.Outcome State Fault Refusal :=
  actOn (decide (channel < 64)) s (auxShort channel active)

end Sys2Proof.Machine
end

