-- ==== Sys2Proof/Machine/Comb.lean ====
section
/-! DEFINITION. The comb (spec/05): granules and regions, reads and writes with their errors, activation, the
comb commands and the source tables. -/

namespace Sys2Proof.Machine

/-! ### Addresses, regions, granules (R120, R129, R131) -/

/-- The comb's address space ends here (R120). -/
def combSize : Nat := 0x8000000

/-- Whether a CA lies in a catch bank. -/
def isCatch (ca : Nat) : Bool := decide (0x180000 ≤ ca % 0x200000)

/-- The context may act on every region of a span. -/
def combOwned (s : State) (k ca len : Nat) : Bool :=
  len = 0 || (upFrom ((ca + len - 1) / 0x10000 - ca / 0x10000 + 1) (ca / 0x10000)).all fun r => owns s k (tget {} s.combOwn r)

/-- A granule marked bad (R142). -/
def granuleBad (s : State) (g : Nat) : Bool :=
  (hiveAt s (g / 8192)).bad.contains (if g % 8192 < 6144 then (0, g % 8192) else (1, g % 8192 - 6144))

/-- A granule that no host write may touch: active (R132) or bad (R142). -/
def granuleHeld (s : State) (g : Nat) : Bool := decide (0 < tget 0 s.active g) || granuleBad s g

/-- The first granule of a span that no host write may touch. -/
def firstHeldGranule (s : State) (ca len : Nat) : Option Nat :=
  (upFrom (granules ca len).2 (granules ca len).1).find? (granuleHeld s)

/-- Some granule of a span is active. -/
def spanActive (s : State) (ca len : Nat) : Bool :=
  (upFrom (granules ca len).2 (granules ca len).1).any fun g => decide (0 < tget 0 s.active g)

/-- Every bank a span touches is ready (R134). -/
def combReadyAt (s : State) (ca len : Nat) : Bool :=
  (upFrom (if len = 0 then 1 else (ca + len - 1) / 0x80000 - ca / 0x80000 + 1) (ca / 0x80000)).all fun b =>
    let h := hiveAt s (b / 4)
    decide (b / 4 < nHives s) && (if b % 4 = 3 then h.catchReady else h.playReady)

/-! ### Errors (R138) -/

/-- A word with an uncorrectable error: its own, or that of a bad granule (R142). -/
def wordUe (s : State) (w : Nat) : Bool := s.combUe.contains w || granuleBad s (w / 32)

/-- The words of a span. -/
def wordsOf (ca len : Nat) : List Nat := if len = 0 then [] else upFrom ((ca + len - 1) / 8 - ca / 8 + 1) (ca / 8)

/-- Whether a span holds an uncorrectable word. -/
def spanUe (s : State) (ca len : Nat) : Bool := (wordsOf ca len).any (wordUe s)

/-- What the read of one word by a master does beside returning data: an uncorrectable error counts, a
single-bit error is corrected, counted and noticed (R138, R143). -/
def touchWord (master acc w : Nat) (s : State) : State :=
  let h := w / 0x40000
  if wordUe s w then modHive s h fun x => { x with ueCount := sat 0xFFFFFFFF x.ueCount }
  else if s.combCe.contains w then
    let s1 := modHive { s with combCe := s.combCe.erase w } h fun x =>
      if isCatch (8 * w) then { x with ceCatch := sat 0xFFFF x.ceCatch } else { x with cePlay := sat 0xFFFF x.cePlay }
    raise s1 { block := .cmb, bit := 0, cls := 0, obj := 8 * w, master := master, acc := acc,
               owner := some (combRegion s (8 * w)).owner }
  else s

/-- The read of a span by a master. -/
def touchSpan (master acc ca len : Nat) (s : State) : State := (wordsOf ca len).foldl (fun s w => touchWord master acc w s) s

/-- A fault of the comb block that names a comb address. -/
def combFault (s : State) (bit cls ca master acc : Nat) : State :=
  raise s { block := .cmb, bit := bit, cls := cls, obj := ca, master := master, acc := acc,
            owner := some (combRegion s ca).owner, scope := [ca / 0x200000] }

/-- UE_DATA of a span: the first bad word's address (R138). -/
def ueData (s : State) (ca len master acc : Nat) : State :=
  match (wordsOf ca len).find? (wordUe s) with
  | some w => combFault s 2 1 (8 * w) master acc
  | none => s

/-- Marks of one word after a write: the check bits are good again, unless an armed injection flips bits. -/
def markWord (w : Nat) (s : State) : State :=
  let s1 := { s with combUe := s.combUe.erase w, combCe := s.combCe.erase w }
  match tget 0 s.grave.injComb w with
  | 0 => s1
  | n =>
    let s2 := { s1 with grave := { s1.grave with injComb := tset 0 s1.grave.injComb w 0 } }
    if n = 1 then { s2 with combCe := w :: s2.combCe } else { s2 with combUe := w :: s2.combUe }

/-- The bytes of a write that fall into one word. -/
def wordPiece (ca w : Nat) (data : List Byte) : List Byte :=
  if ca ≤ 8 * w then (data.drop (8 * w - ca)).take 8 else data.take (8 * w + 8 - ca)

/-- Write bytes into the comb: whole words, or read-modify-writes of the words at the ends (R121); no word of a bad granule is
written (R142). -/
def combStore (s : State) (ca : Nat) (data : List Byte) : State :=
  let ws := wordsOf ca data.length
  if ws.any fun w => granuleBad s (w / 32) then
    ws.foldl (fun s w => if granuleBad s (w / 32) then s
      else markWord w { s with comb := memWrite s.comb (max ca (8 * w)) (wordPiece ca w data) }) s
  else ws.foldl (fun s w => markWord w s) { s with comb := memWrite s.comb ca data }

/-- The words at the ends of a span that are only partly written; such a write needs their old contents. -/
def partialWords (ca len : Nat) : List Nat :=
  (if ca % 8 ≠ 0 ∧ len ≠ 0 then [ca / 8] else []) ++
    (if (ca + len) % 8 ≠ 0 ∧ len ≠ 0 then [(ca + len - 1) / 8] else [])

/-- A sub-word write whose read finds an uncorrectable error writes nothing (R121). -/
def rmwUe (s : State) (ca len : Nat) : Option Nat := (partialWords ca len).find? (wordUe s)

/-- A sub-word write whose reads find no uncorrectable error: their single-bit errors are corrected and counted (R138). -/
def rmwStore (s : State) (ca : Nat) (data : List Byte) (master : Nat) : State :=
  combStore ((partialWords ca data.length).eraseDups.foldl (fun s w => touchWord master 0 w s) s) ca data

/-! ### Collisions (R124, R125)

Reads of a word that the owner port writes at the same time. Only a catch bank has them: an active granule of a play bank is
only read on its owner port, and no service write reaches it (R126). -/

/-- Add to `COMB_BUSY_COUNT` of a hive. -/
def addBusy (h n : Nat) (s : State) : State :=
  { s with free := s.free + 1, hives := tmod {} s.hives h fun x => { x with busy := min 0xFFFFFFFF (x.busy + n) } }

/-- The keeper reads a word: while a capture channel has its granule active, an open number of the rounds collide, at most the
first read and 16 re-reads; after that the keeper gives up (true). -/
def busyWord (w : Nat) (s : State) : State × Bool :=
  if isCatch (8 * w) && decide (0 < tget 0 s.active (w / 32)) then
    let n := Config.bankBusy s.free % 18
    (addBusy (w / 0x40000) n s, decide (n = 17))
  else (s, false)

/-- The keeper reads words in turn, up to one that it gives up: that word. -/
def busyWords : List Nat → State → State × Option Nat
  | [], s => (s, none)
  | w :: t, s =>
    let r := busyWord w s
    if r.2 then (r.1, some w) else busyWords t r.1

/-- The keeper's read of a span for a host: with BUSY_STARVED where it gives a word up (R125), UE_DATA where a word is
uncorrectable (R138), else the bytes. -/
def keeperRead (ca len master : Nat) (s : State) : State × Option (List Byte) :=
  match busyWords (wordsOf ca len) s with
  | (s0, some w) => (combFault s0 7 1 (8 * w) master 0, none)
  | (s0, none) =>
    let s1 := touchSpan master 0 ca len s0
    if spanUe s0 ca len then (ueData s1 ca len master 0, none) else (s1, some (memRead s.comb ca len))

/-! ### The memories without a host address (R119, R138, R141, R142, R144) -/

/-- The scratchpad or the context cache. -/
def innerMem (s : State) (scr : Bool) : InnerMem := if scr then s.inner.scratch else s.inner.cache

/-- Change its marks. -/
def modInner (scr : Bool) (f : InnerMem → InnerMem) (s : State) : State :=
  { s with inner := if scr then { s.inner with scratch := f s.inner.scratch } else { s.inner with cache := f s.inner.cache } }

/-- How FIRST_ERR names a byte of them: codes past the last comb address (R144; DESIGN CHOICE, log 76). -/
def innerCode (scr : Bool) (off : Nat) : Nat := (if scr then 0x8000000 else 0x8200000) + off

/-- A word with an uncorrectable error: its own, or that of a bad granule. -/
def innerUe (s : State) (scr : Bool) (w : Nat) : Bool := (innerMem s scr).ue.contains w || (innerMem s scr).bad.contains (w / 32)

/-- The read of one word: a single-bit error is corrected and noticed. -/
def touchInner (scr : Bool) (master w : Nat) (s : State) : State :=
  if (innerMem s scr).ce.contains w && !innerUe s scr w then
    raise (modInner scr (fun m => { m with ce := m.ce.erase w }) s)
      { block := .cmb, bit := 0, cls := 0, obj := innerCode scr (8 * w), master := master }
  else s

/-- Whole words are written: their check bits are good again. -/
def markInner (scr : Bool) (ws : List Nat) (s : State) : State :=
  modInner scr (fun m => { m with ue := m.ue.filter fun w => !ws.contains w, ce := m.ce.filter fun w => !ws.contains w }) s

/-! ### Activation (R131) -/

/-- Bump `COMB_EPOCH` of hives. -/
def bumpComb (s : State) (hs : List Nat) : State :=
  hs.foldl (fun s h => { s with hives := tmod {} s.hives h fun x => { x with epoch := x.epoch + 1 } }) s

/-- The hives of areas in which some granule satisfies `p`. -/
def hivesWhere (areas : List (Nat × Nat)) (p : Nat → Bool) : List Nat :=
  ((areas.filter fun a => (upFrom a.2 a.1).any p).map fun a => a.1 / 8192).eraseDups

/-- Add 1 to the count of every granule of the areas, each digested in the journal (R435); `COMB_EPOCH` counts a change
to active (R143). -/
def activate (s : State) (areas : List (Nat × Nat)) : State :=
  let hs := hivesWhere areas fun g => tget 0 s.active g = 0
  let a := areas.foldl (fun m a => forUp (fun g m => tmod 0 m g (· + 1)) a.2 a.1 m) s.active
  areas.foldl (fun s a => jput s s.time.tick (digestOf s s.time.tick a)) (bumpComb { s with active := a } hs)

/-- Whether an activation would take a count above 63 (R131). -/
def activateOver (s : State) (areas : List (Nat × Nat)) : Bool :=
  let m := areas.foldl (fun m a => forUp (fun g m => tmod 0 m g (· + 1)) a.2 a.1 m) s.active
  areas.any fun a => (upFrom a.2 a.1).any fun g => decide (63 < tget 0 m g)

/-- Take 1 from the count of every granule of the areas. -/
def deactivate (s : State) (areas : List (Nat × Nat)) : State :=
  let a := areas.foldl (fun m a => forUp (fun g m => tmod 0 m g (· - 1)) a.2 a.1 m) s.active
  bumpComb { s with active := a } (hivesWhere areas fun g => tget 0 a g = 0)

/-- Active granules of a bank of a hive (`COMB_STATE`). -/
def actCount (s : State) (hive bank : Nat) : Nat :=
  let lo := hive * 8192 + (if bank = 1 then 6144 else 0)
  (s.active.filter fun p => decide (lo ≤ p.1) && decide (p.1 < lo + (if bank = 1 then 2048 else 6144))).length

/-! ### Commands (R134) -/

/-- A span inside the comb. -/
def combRange (ca len : Nat) : Bool := decide (ca + len ≤ combSize) && decide (0 < len)

/-- RESULT that names the first granule in the way (R132), by its comb address (log 18). -/
def whereGranule (s : State) (ca len : Nat) : List Byte :=
  match firstHeldGranule s ca len with
  | some g => le 4 (256 * g)
  | none => []

/-- Frame of the host writes: owned regions, ready banks, range, no held granule. -/
def specWrite (h : Hdr) (op ca len : Nat) (ok : Bool) (s : State) : CSpec :=
  { op := op, unit := some (4, ca / 0x200000), cls := .c,
    permitted := combOwned s h.ctx ca len,
    ready := combReadyAt s ca len || !combRange ca len,
    modeOk := modeLoad s,
    err := if !ok || !combRange ca len then some .badArg
      else if (firstHeldGranule s ca len).isSome then some .segActive else none,
    errData := whereGranule s ca len }

/-- `SEG_LOAD` (R134). -/
def specSegLoad (h : Hdr) (ca count : Nat) (data : List Byte) (s : State) : CSpec :=
  specWrite h 0x0110 ca count (decide (count ≤ 3528) && decide (data.length = count)) s

/-- `COMB_FILL` (R134). -/
def specCombFill (h : Hdr) (ca len : Nat) (s : State) : CSpec :=
  specWrite h 0x0112 ca len (ca % 8 = 0 && len % 8 = 0) s

/-- The outcome of a host write at its decision: an error, or the write. -/
def hostWrite (s : State) (ctx ca : Nat) (data : List Byte) : State × Err × List Byte :=
  if !combReadyAt s ca data.length then (s, .notReady, [])
  else if !combOwned s ctx ca data.length then (s, .denied, [])
  else if (firstHeldGranule s ca data.length).isSome then (s, .segActive, whereGranule s ca data.length)
  else
    match rmwUe s ca data.length with
    | some w => (ueData (touchWord 8 0 w s) (8 * w) 8 8 0, .memError, [])
    | none => (rmwStore s ca data 8, .ok, [])

/-- The decision of a host write; a failing one replies at once, a performed one is replied to by
COMB_WRITE_DONE. -/
def decWrite (x : Held) (op ca : Nat) (data : List Byte) (s : State) : State :=
  let r := hostWrite s x.ctx ca data
  if r.2.1 = .ok then beginWork r.1 x
  else finish r.1 x op (some (4, ca / 0x200000)) r.2.1 r.2.2

/-- Repeat a 64-bit pattern over `n` words. -/
def fillBytes (p : DWord) : Nat → List Byte
  | 0 => []
  | n + 1 => le 8 p.toNat ++ fillBytes p n

/-- `COMB_READ` (R134). -/
def specCombRead (h : Hdr) (ca count : Nat) (s : State) : CSpec :=
  let ok := ca % 8 = 0 && decide (1 ≤ count) && decide (count ≤ 6) && combRange ca (8 * count)
  { op := 0x0111, unit := some (4, ca / 0x200000), cls := .d,
    permitted := combOwned s h.ctx ca (8 * count),
    ready := combReadyAt s ca (8 * count) || !ok,
    err := if ok then none else some .badArg }

/-- The decision of `COMB_READ`: the words, or E_MEM_ERROR (R125, R138). -/
def decCombRead (x : Held) (ca count : Nat) (s : State) : State :=
  let u := some (4, ca / 0x200000)
  if !combReadyAt s ca (8 * count) then finish s x 0x0111 u .notReady
  else if !combOwned s x.ctx ca (8 * count) then finish s x 0x0111 u .denied
  else
    match keeperRead ca (8 * count) 8 s with
    | (s1, none) => finish s1 x 0x0111 u .memError
    | (s1, some b) => finish s1 x 0x0111 u .ok b

/-- A capture channel has a granule of the word active, or it is bad. -/
def specCombAtomic (h : Hdr) (ca op : Nat) (s : State) : CSpec :=
  let ok := ca % 8 = 0 && decide (op ≤ 1) && combRange ca 8 && isCatch ca
  { op := 0x0113, unit := some (4, ca / 0x200000), cls := .d,
    permitted := combOwned s h.ctx ca 8,
    ready := combReadyAt s ca 8 || !combRange ca 8,
    modeOk := modeLoad s,
    err := if !ok then some .badArg else if (firstHeldGranule s ca 8).isSome then some .segActive else none,
    errData := whereGranule s ca 8 }

/-- ADD modulo 2^64 or SWAP (R127). -/
def atomicResult (op : Nat) (old operand : DWord) : DWord := if op = 0 then old + operand else operand

/-- The decision of `COMB_ATOMIC`: the old value (R127). -/
def decCombAtomic (x : Held) (ca op : Nat) (operand : DWord) (s : State) : State :=
  let u := some (4, ca / 0x200000)
  if !combReadyAt s ca 8 then finish s x 0x0113 u .notReady
  else if !combOwned s x.ctx ca 8 then finish s x 0x0113 u .denied
  else if (firstHeldGranule s ca 8).isSome then finish s x 0x0113 u .segActive (whereGranule s ca 8)
  else
    let s1 := touchSpan 8 2 ca 8 s
    if spanUe s ca 8 then finish (ueData s1 ca 8 8 2) x 0x0113 u .memError
    else
      let old := ofLe (memRead s.comb ca 8)
      let new := atomicResult op (BitVec.ofNat 64 old) operand
      finish (combStore s1 ca (le 8 new.toNat)) x 0x0113 u .ok (le 8 old)

/-- `COMB_REGION_SET` (R129, R134, R387): accepted in every mode except REPLAY. -/
def specCombRegionSet (h : Hdr) (hive bank region owner secure : Nat) (s : State) : CSpec :=
  let ca := combAddr hive bank (region * 0x10000)
  { op := 0x0114, unit := some (4, hive), permitted := h.ctx = 0,
    ready := combReadyAt s ca 1 || decide (64 ≤ hive),
    modeOk := modeRest s,
    err := if 64 ≤ hive ∨ 1 < bank ∨ (if bank = 1 then 8 else 24) ≤ region ∨ 16 ≤ owner ∨ 1 < secure then some .badArg
      else if secure = 1 ∧ !ctxSecure s owner then some .badArg
      else if spanActive s ca 0x10000 then some .badState else none }

/-- The decision of `COMB_REGION_SET`: nothing where a granule is active or the bank not ready by then; `COMB_EPOCH` counts a
change of owner (R143). -/
def decCombRegionSet (hive bank region owner secure : Nat) (s : State) : State :=
  let ca := combAddr hive bank (region * 0x10000)
  let o : Own := ⟨owner, secure = 1⟩
  if spanActive s ca 0x10000 ∨ !combReadyAt s ca 1 ∨ combRegion s ca = o then s
  else
    let s1 := { s with combOwn := tset {} s.combOwn (ca / 0x10000) o }
    bumpSec (if (combRegion s ca).owner = owner then s1 else bumpComb s1 [hive])

/-- `COMB_ACTIVE_READ` (R134). -/
def specCombActiveRead (hive bank first count : Nat) (s : State) : CSpec :=
  let ok := decide (hive < 64) && decide (bank ≤ 1) && decide (1 ≤ count) && decide (count ≤ 384) &&
    decide (first + count ≤ if bank = 1 then 2048 else 6144)
  { op := 0x0115, unit := some (4, hive), cls := .d,
    ready := combReadyAt s (combAddr hive bank 0) 1 || decide (64 ≤ hive),
    err := if ok then none else some .badArg }

/-- The activity bits of granules, one bit each, 8 to a byte. -/
def activeBits (s : State) (g count : Nat) : List Byte :=
  le ((count + 7) / 8) (pack ((upFrom count g).map fun i => (1, b2n (decide (0 < tget 0 s.active i)))))

/-- The decision of `COMB_ACTIVE_READ`. -/
def decCombActiveRead (x : Held) (hive bank first count : Nat) (s : State) : State :=
  let u := some (4, hive)
  if !combReadyAt s (combAddr hive bank 0) 1 then finish s x 0x0115 u .notReady
  else finish s x 0x0115 u .ok (activeBits s (combAddr hive bank 0 / 256 + first) count)

/-! ### Source tables (R63, R64, R473) -/

/-- CA at which a hive's source-descriptor table of `n` entries begins. -/
def tableAt (hive n : Nat) : Nat := combAddr hive 0 (0x180000 - 32 * n)

/-- A hive's table is active (R131, R473): some cell of it is ARMED, RUNNING or PAUSED, or an accepted arm waits, which has made
it active (R65). -/
def tableBusy (s : State) (hive : Nat) : Bool :=
  (upFrom 16 (16 * hive)).any fun c =>
    let x := cellAt s c
    x.st = .armed || x.st = .running || x.st = .paused || !x.arms.isEmpty

/-- The granules of a hive's source-descriptor table. -/
def tableArea (s : State) (hive : Nat) : Nat × Nat :=
  granules (tableAt hive (hiveAt s hive).srcCount) (32 * (hiveAt s hive).srcCount)

/-- `SRC_TABLE_SET` (R473). -/
def specSrcTableSet (h : Hdr) (hive n : Nat) (s : State) : CSpec :=
  { op := 0x0122, unit := some (4, hive),
    permitted := decide (4096 < n) || combOwned s h.ctx (tableAt hive n) (32 * n),
    ready := combReadyAt s (combAddr hive 0 0) 1 || decide (64 ≤ hive),
    modeOk := modeLoad s,
    err := if 64 ≤ hive ∨ 4096 < n then some .badArg
      else if tableBusy s hive then some .badState
      else if (firstHeldGranule s (tableAt hive n) (32 * n)).isSome then some .segActive else none,
    errData := if tableBusy s hive then [] else whereGranule s (tableAt hive n) (32 * n) }

/-- The decision of `SRC_TABLE_SET`: entries outside the old table are written with zeros; nothing where the table or a granule
of the area is active by then, or the area is no longer the caller's or ready (R130, R132). -/
def decSrcTableSet (x : Held) (hive n : Nat) (s : State) : State :=
  if tableBusy s hive ∨ (firstHeldGranule s (tableAt hive n) (32 * n)).isSome ∨ !combOwned s x.ctx (tableAt hive n) (32 * n) ∨
      !combReadyAt s (combAddr hive 0 0) 1 then s
  else
    let old := (hiveAt s hive).srcCount
    let s1 := if old < n then combStore s (tableAt hive n) (List.replicate (32 * (n - old)) 0) else s
    modHive s1 hive fun x => { x with srcCount := n }

/-- A source descriptor (R63). -/
structure SrcDesc where
  kind : Nat
  format : Nat
  envelope : Nat
  queue : Nat
  length : Nat
  addr : Nat
  reserved : Nat
  deriving DecidableEq, Repr

/-- Take a descriptor apart. -/
def srcDescOf (v : Nat) : SrcDesc :=
  ⟨bits v 0 4, bits v 4 4, bits v 8 8, bits v 16 10, bits v 32 32, bits v 64 32, bits v 26 6 + bits v 96 160⟩

/-- Bytes of a comb segment (R90): S16 two, S24P three a sample. -/
def segBytes (d : SrcDesc) : Nat := d.length * (if d.format = 1 then 3 else 2)

/-- What a descriptor alone decides, below a table that starts at play-bank offset `lim` (R63, R64, R473). -/
def srcDescOk (d : SrcDesc) (lim : Nat) : Bool :=
  d.reserved = 0 &&
  match d.kind with
  | 0 => decide (d.format ≤ 1) && d.queue = 0
  | 1 => decide (d.format ≤ 1) && d.queue = 0 && decide (16 ≤ d.length) &&
      d.length % (if d.format = 1 then 8 else 4) = 0 && d.addr % 8 = 0 && decide (d.addr + segBytes d ≤ lim)
  | 2 => decide (d.format ≤ 1) && d.addr = 0 && decide (16 ≤ d.length)
  | 3 => d.format = 0 && d.queue = 0 && decide (1 ≤ d.length) && d.addr % 32 = 0 && decide (d.addr + 32 * d.length ≤ lim)
  | _ => false

/-- Play-bank offset at which a hive's table starts. -/
def tableOff (s : State) (hive : Nat) : Nat := 0x180000 - 32 * (hiveAt s hive).srcCount

/-- Descriptor `i` of a hive. -/
def srcDesc (s : State) (hive i : Nat) : SrcDesc :=
  srcDescOf (ofLe (memRead s.comb (combAddr hive 0 (tableOff s hive + 32 * i)) 32))

/-- `SRC_DESC_SET` (R473). -/
def specSrcDescSet (h : Hdr) (hive index : Nat) (desc : BitVec 256) (s : State) : CSpec :=
  let ca := combAddr hive 0 (tableOff s hive + 32 * index)
  { op := 0x0123, unit := some (4, hive),
    permitted := decide ((hiveAt s hive).srcCount ≤ index) || combOwned s h.ctx ca 32,
    ready := combReadyAt s (combAddr hive 0 0) 1 || decide (64 ≤ hive),
    modeOk := modeLoad s,
    err := if 64 ≤ hive ∨ (hiveAt s hive).srcCount ≤ index ∨ !srcDescOk (srcDescOf desc.toNat) (tableOff s hive) then some .badArg
      else if tableBusy s hive ∨ (firstHeldGranule s ca 32).isSome then some .segActive else none,
    errData := whereGranule s ca 32 }

/-- The decision of `SRC_DESC_SET`. -/
def decSrcDescSet (x : Held) (hive index : Nat) (desc : BitVec 256) (s : State) : State :=
  if tableBusy s hive ∨ (hiveAt s hive).srcCount ≤ index then s
  else (hostWrite s x.ctx (combAddr hive 0 (tableOff s hive + 32 * index)) (le 32 desc.toNat)).1

/-! ### Meanings -/

/-- SEG_LOAD: R134. -/
def execSegLoad (h : Hdr) (ca count : Nat) (data : List Byte) (s : State) : Host.Outcome State Fault Refusal :=
  berza h (.segLoad h ca count data) (specSegLoad h ca count data s) s

/-- COMB_READ: R134. -/
def execCombRead (h : Hdr) (ca count : Nat) (s : State) : Host.Outcome State Fault Refusal :=
  berza h (.combRead h ca count) (specCombRead h ca count s) s

/-- COMB_FILL: R134. -/
def execCombFill (h : Hdr) (ca length : Nat) (pattern : DWord) (s : State) : Host.Outcome State Fault Refusal :=
  berza h (.combFill h ca length pattern) (specCombFill h ca length s) s

/-- COMB_ATOMIC: R127, R128. -/
def execCombAtomic (h : Hdr) (ca op : Nat) (operand : DWord) (s : State) : Host.Outcome State Fault Refusal :=
  berza h (.combAtomic h ca op operand) (specCombAtomic h ca op s) s

/-- COMB_REGION_SET: R129. -/
def execCombRegionSet (h : Hdr) (hive bank region owner secure : Nat) (s : State) : Host.Outcome State Fault Refusal :=
  berza h (.combRegionSet h hive bank region owner secure) (specCombRegionSet h hive bank region owner secure s) s

/-- COMB_ACTIVE_READ: R134. -/
def execCombActiveRead (h : Hdr) (hive bank first count : Nat) (s : State) : Host.Outcome State Fault Refusal :=
  berza h (.combActiveRead h hive bank first count) (specCombActiveRead hive bank first count s) s

/-- SRC_TABLE_SET: R473. -/
def execSrcTableSet (h : Hdr) (hive srcCount : Nat) (s : State) : Host.Outcome State Fault Refusal :=
  berza h (.srcTableSet h hive srcCount) (specSrcTableSet h hive srcCount s) s

/-- SRC_DESC_SET: R473. -/
def execSrcDescSet (h : Hdr) (hive index : Nat) (desc : BitVec 256) (s : State) : Host.Outcome State Fault Refusal :=
  berza h (.srcDescSet h hive index desc) (specSrcDescSet h hive index desc s) s

/-- COMB_WRITE_DONE (R335): the first write of SEG_LOAD or COMB_FILL that the keeper has performed is answered;
SEG_LOAD gives the bytes written. -/
def combWriteDone (s : State) : State :=
  match findWork s fun i => match i with
      | .segLoad .. => true
      | .combFill .. => true
      | _ => false with
  | none => s
  | some x =>
    let s1 := endWork s x
    match x.cmd with
    | .segLoad _ ca count _ => finish s1 x 0x0110 (some (4, ca / 0x200000)) .ok (le 4 count)
    | .combFill _ ca _ _ => finish s1 x 0x0112 (some (4, ca / 0x200000)) .ok
    | _ => s1

/-- COMB_WRITE_DONE: R335. -/
def execCombWriteDone (s : State) : Host.Outcome State Fault Refusal := act s combWriteDone

end Sys2Proof.Machine
end

