-- ==== Sys2Proof/Machine/Flags.lean ====
section
/-! DEFINITION. The masks of flags and counters that the clear commands carry (R474), and the fault bits of
each block. -/

namespace Sys2Proof.Machine

/-- A mask whose every bit is among the flag bits and the counter bits (32 upward) given. -/
def maskOk (mask : DWord) (flags counters : Nat) : Bool :=
  mask &&& BitVec.ofNat 64 (flags + counters * 2 ^ 32) = mask

/-- Bit `32 + i` of a mask: counter `i`. -/
def clears (mask : DWord) (i : Nat) : Bool := mask.getLsbD (32 + i)

/-- A counter after a clear. -/
def clearTo (mask : DWord) (i v : Nat) : Nat := if clears mask i then 0 else v

/-- A flag register after a clear of the flags named. -/
def clearFlags (mask : DWord) (w : Word) : Word := w &&& ~~~(mask.truncate 32)

/-- `CELL_CLEAR`: `CELL_FLAGS` 0 to 10 except REFLOCK; five counters. -/
def cellMaskOk (m : DWord) : Bool := maskOk m 0x6FF 0x1F

/-- `SYN_CLEAR`: CLIP_PRE, CLIP_OUT; two counters. -/
def synMaskOk (m : DWord) : Bool := maskOk m 3 3

/-- `CAP_CLEAR`: `CAP_FLAGS` 0 to 13; two counters. -/
def capMaskOk (m : DWord) : Bool := maskOk m 0x3FFF 3

/-- `WAG_CLEAR` of a channel: SEEN and LOOP_CUT; `WAG_CHAN_COUNT`. -/
def chanMaskOk (m : DWord) : Bool := maskOk m 0xC 1

/-- `WAG_CLEAR` of a task: COINCIDENT, OVERRUN, GATED, LATE; OVR_COUNT and `WAG_TASK_ACT`. -/
def taskMaskOk (m : DWord) : Bool := maskOk m 0xE001 3

/-- `LINK_CLEAR`: six counters. -/
def linkMaskOk (m : DWord) : Bool := maskOk m 0 0x3F

/-- `DMC_CLEAR`: five counters. -/
def dmcMaskOk (m : DWord) : Bool := maskOk m 0 0x1F

/-- `COL_CLEAR`: ADJUST of `SWL_STATE`; five counters. -/
def colMaskOk (m : DWord) : Bool := maskOk m 0xFFFF0000 0x1F

/-- `AUX_CLEAR`: two counters. -/
def auxMaskOk (m : DWord) : Bool := maskOk m 0 3

/-- The fault bits a block has, counted from bit 0 (the `FAULT_STATUS` tables of 03 to 16). -/
def faultBits : Block → Nat
  | .cel => 4
  | .cmb => 13
  | .pqm => 9
  | .dmc => 12
  | .cap => 7
  | .wag => 6
  | .lnk => 9
  | .tim => 11
  | .col => 11
  | .kpr => 10
  | .aux => 4
  | .bgs => 9
  | .spd => 7

end Sys2Proof.Machine
end

