-- ==== Sys2Proof/Machine/Dram.lean ====
section
/-! DEFINITION. The DRAM controller (spec/11): addresses and owners, errors and the freeze, the command queue of a
channel, training, states, commands and events. -/

namespace Sys2Proof.Machine

/-! ### Addresses, owners, readiness (R286 to R292) -/

/-- The device address of a channel address (R287). -/
def dramDevAddr (s : State) (c a : Nat) : Nat :=
  if s.interleave = 1 then c / 2 * 2 ^ 36 + a / 4096 * 8192 + c % 2 * 4096 + a % 4096
  else if s.interleave = 2 then a / 4096 * 16384 + c * 4096 + a % 4096
  else c * 2 ^ 35 + a

/-- The 16 MiB regions of a span. -/
def dramRegions (a len : Nat) : List Nat :=
  if len = 0 then [] else upFrom ((a + len - 1) / 0x1000000 - a / 0x1000000 + 1) (a / 0x1000000)

/-- A context may act on every region of a span, none of them SYSTEM (R291, R292). -/
def dramOwned (s : State) (k a len : Nat) : Bool :=
  (dramRegions a len).all fun r => owns s k (tget {} s.dramOwn r) && !s.dramSystem.contains r

/-- An address lies on a channel that the variant lacks (R3). -/
def dramAbsent (s : State) (a : Nat) : Bool := decide (a < 2 ^ 37) && beyond (nDmc s) 4 (dramChannel s a)

/-- Every channel of a span is IN_SERVICE. -/
def spanReady (s : State) (a len : Nat) : Bool := (spanChannels s a len).all fun c => dmcReady (dmcAt s c)

/-- Some channel of a span is OFFLINE. -/
def spanOffline (s : State) (a len : Nat) : Bool := (spanChannels s a len).any fun c => (dmcAt s c).st = .offline

/-- The place of a 64-byte line in a channel (R289): COL is the line within the rank's 8 KiB page. -/
structure DramLoc where
  rank : Nat
  bg : Nat
  ba : Nat
  row : Nat
  col : Nat
  deriving DecidableEq, Repr

/-- Where a channel address lies (R289). -/
def dramLoc (d : Dmc) (a : Nat) : DramLoc :=
  let row := if d.ranks = 1 then a / 2 ^ 18 else a / 2 ^ 17
  { rank := if d.ranks = 1 then bits a 17 1 else 0,
    bg := if d.map = 0 then bits a 13 2 else if d.map = 1 then bits a 8 2 else Nat.xor (bits a 8 2) (bits row 0 2),
    ba := if d.map = 2 then Nat.xor (bits a 15 2) (bits row 2 2) else bits a 15 2,
    row := row,
    col := if d.map = 0 then bits a 6 7 else bits a 6 2 + 4 * bits a 10 5 }

/-- The DDR4 column address of a line (R289). -/
def ddrColumn (l : DramLoc) : Nat := 8 * l.col

/-- Rank, bank (4 BA + BG) and row of a channel address (R289). -/
def dramRow (d : Dmc) (a : Nat) : Nat × Nat × Nat :=
  let l := dramLoc d a
  (l.rank, 4 * l.ba + l.bg, l.row)

/-! ### Errors (R300 to R302) -/

/-- A fault of the DRAM block at a device address. -/
def dmcFault (s : State) (bit cls a master acc : Nat) : State :=
  raise s { block := .dmc, bit := bit, cls := cls, obj := a, master := master, acc := acc,
            owner := some (dramRegion s a).owner, scope := [dramChannel s a] }

/-- A fault of the DRAM block that names a channel. -/
def dmcChanFault (s : State) (bit cls c : Nat) : State :=
  raise s { block := .dmc, bit := bit, cls := cls, obj := dramDevAddr s c 0, scope := [c] }

/-- The lines of 64 bytes of a span. -/
def linesOf (a len : Nat) : List Nat := if len = 0 then [] else upFrom ((a + len - 1) / 64 - a / 64 + 1) (a / 64)

/-- Freeze a line (R302): listed, or POISON_FULL; the first error is logged until unfrozen. -/
def freezeLine (master acc line : Nat) (s : State) : State :=
  let c := dramChannel s (64 * line)
  let d := dmcAt s c
  let s1 := if d.ueFrozen then s
    else modDmc s c fun x => { x with ueFrozen := true, logAddr := 64 * line, logType := acc, logMaster := master,
                                      logTime := devtime s }
  if d.poisoned.contains line then s1
  else if d.poisoned.length < 256 then modDmc s1 c fun x => { x with poisoned := x.poisoned ++ [line] }
  else dmcFault s1 2 1 (64 * line) master acc

/-- The ticks of 60 s. -/
def minuteTicks : Nat := 6000000000

/-- The read of one line by a master: a UE is counted, frozen and raised, a single-bit error corrected, counted and
noticed. -/
def touchLine (master acc line : Nat) (s : State) : State :=
  let c := dramChannel s (64 * line)
  if s.dramUe.contains line then
    let s1 := modDmc s c fun x => { x with ueCount := sat 0xFFFFFFFF x.ueCount }
    dmcFault (freezeLine master acc line s1) 1 1 (64 * line) master acc
  else if s.dramCe.contains line then
    let s1 := modDmc { s with dramCe := s.dramCe.erase line } c fun x =>
      { x with ceCount := sat 0xFFFFFFFF x.ceCount,
               ceTicks := s.time.tick :: x.ceTicks.filter fun t => decide (s.time.tick < t + minuteTicks) }
    dmcFault s1 0 0 (64 * line) master acc
  else s

/-- The read of a span by a master. -/
def touchLines (master acc a len : Nat) (s : State) : State := (linesOf a len).foldl (fun s l => touchLine master acc l s) s

/-- Whether a span holds an uncorrectable line. -/
def linesUe (s : State) (a len : Nat) : Bool := (linesOf a len).any fun l => s.dramUe.contains l

/-- The lines that a write covers only in part: their old contents are read (R300). -/
def partialLines (a len : Nat) : List Nat :=
  ((if a % 64 ≠ 0 ∧ len ≠ 0 then [a / 64] else []) ++
    (if (a + len) % 64 ≠ 0 ∧ len ≠ 0 then [(a + len - 1) / 64] else [])).eraseDups

/-- Marks of one line after a write: repaired (R302), unless an armed injection flips bits of it. -/
def markLine (line : Nat) (s : State) : State :=
  let s1 := { s with dramUe := s.dramUe.erase line, dramCe := s.dramCe.erase line }
  let c := dramChannel s (64 * line)
  let s2 := if (dmcAt s1 c).poisoned.contains line then modDmc s1 c fun x => { x with poisoned := x.poisoned.erase line } else s1
  match tget 0 s.grave.injDram line with
  | 0 => s2
  | n =>
    let s3 := { s2 with grave := { s2.grave with injDram := tset 0 s2.grave.injDram line 0 } }
    if n = 1 then { s3 with dramCe := line :: s3.dramCe } else { s3 with dramUe := line :: s3.dramUe }

/-- Write bytes of DRAM. -/
def dramStore (s : State) (a : Nat) (data : List Byte) : State :=
  (linesOf a data.length).foldl (fun s l => markLine l s) { s with dram := memWrite s.dram a data }

/-- A host's write: a partial line with an uncorrectable error is not written (R301). -/
def dramHostWrite (master a : Nat) (data : List Byte) (s : State) : State × Bool :=
  let ps := partialLines a data.length
  let s1 := ps.foldl (fun s l => touchLine master 0 l s) s
  if ps.any fun l => s.dramUe.contains l then (s1, false) else (dramStore s1 a data, true)

/-! ### The command queue (R293) -/

/-- Entries in use outside the reserved 24. -/
def unreservedUsed (d : Dmc) : Nat := (d.queue.filter fun e => !e.capture).length

/-- Reserved entries in use: write credits of capture. -/
def captureUsed (d : Dmc) : Nat := (d.queue.filter fun e => e.capture).length

/-- Room for an entry that is no capture write. -/
def slotFree (d : Dmc) : Bool := decide (unreservedUsed d < 72)

/-- Pieces of a span that lie within one channel and one 4 KiB span. -/
def entryPieces (a len : Nat) : List (Nat × Nat) :=
  (spanPages a len).map fun p => (max a p, min (a + len) (p + 4096) - max a p)

/-- The pieces of a span on a channel. -/
def piecesOn (s : State) (c : Nat) (ps : List (Nat × Nat)) : Nat := (ps.filter fun p => dramChannel s p.1 = c).length

/-- Every channel has the unreserved entries that the pieces take. -/
def roomFor (s : State) (ps : List (Nat × Nat)) : Bool :=
  (upFrom 4 0).all fun c => piecesOn s c ps = 0 || decide (unreservedUsed (dmcAt s c) + piecesOn s c ps ≤ 72)

/-- Every channel has the write credits that the pieces take. -/
def creditsFor (s : State) (ps : List (Nat × Nat)) : Bool :=
  (upFrom 4 0).all fun c => piecesOn s c ps = 0 || decide (captureUsed (dmcAt s c) + piecesOn s c ps ≤ 24)

/-- Queue an entry. -/
def queueEntry (c : Nat) (e : DEntry) (s : State) : State := modDmc s c fun d => { d with queue := d.queue ++ [e] }

/-- Queue the entries of an access, one a piece, each over the whole lines it touches; a write's bytes go with them. -/
def queuePieces (e : DEntry) (a : Nat) (data : List Byte) (ps : List (Nat × Nat)) (s : State) : State :=
  ps.foldl (fun s p => queueEntry (dramChannel s p.1)
    { e with addr := p.1 / 64 * 64, len := (p.1 + p.2 + 63) / 64 * 64 - p.1 / 64 * 64, queued := s.time.tick, pos := p.1,
             data := if e.write then (data.drop (p.1 - a)).take p.2 else [] } s) s

/-! ### The journal's writes (R431, R437) -/

/-- The DRAM address of the oldest byte that the staging buffer holds. -/
def stagedAt (s : State) : Nat := s.jnl.base + (s.jnl.written - s.jnl.staged) % s.jnl.size

/-- Bytes of the journal's next write: up to the end of its 4 KiB span and of the ring. -/
def stagedPiece (s : State) : Nat :=
  min s.jnl.staged (min (4096 - stagedAt s % 4096) (s.jnl.base + s.jnl.size - stagedAt s))

/-- The journal's next write takes an unreserved entry of a channel, one write at a time and none in STANDBY (R293, R431); a piece whose
channel is OFFLINE is discarded, its entries being lost already. Which bytes the ring holds is in the entries (log 13). -/
def journalWrite (c : Nat) (s : State) : State :=
  let a := stagedAt s
  let n := stagedPiece s
  if s.jnl.staged = 0 || s.md.mode = .standby || (upFrom 4 0).any fun k => (dmcAt s k).queue.any fun e => e.master = 6 then s
  else if (dmcAt s (dramChannel s a)).st = .offline then { s with jnl := { s.jnl with staged := s.jnl.staged - max n 1 } }
  else if dramChannel s a = c && slotFree (dmcAt s c) then
    queueEntry c { id := n, master := 6, write := true, addr := a / 64 * 64, len := (a + n + 63) / 64 * 64 - a / 64 * 64,
                   queued := s.time.tick, pos := a } s
  else s

/-- A journal write has reached the ring: its bytes leave the staging buffer. -/
def journalWritten (n : Nat) (s : State) : State := { s with jnl := { s.jnl with staged := s.jnl.staged - n } }

/-- An entry whose bytes have not all reached the ring, on a channel. -/
def stagedOn (s : State) (c : Nat) (e : JEntry) : Bool :=
  decide (s.jnl.written - s.jnl.staged < e.off + e.bytes) && (spanChannels s (s.jnl.base + e.off % s.jnl.size) e.bytes).contains c

/-- The journal writes on a channel that goes OFFLINE become gaps (R308): the entries not yet in the ring there are lost. -/
def journalLose (c : Nat) (s : State) : State :=
  if s.jnl.staged = 0 then s
  else
    let gone := s.jnl.entries.filter (stagedOn s c)
    let j := gone.foldl (fun j e => jDrop j e.tick (kindBit e.pay)) s.jnl
    { s with jnl := { j with entries := s.jnl.entries.filter fun e => !stagedOn s c e,
                             ckpts := s.jnl.ckpts.filter fun k => !gone.any fun e => e.off = k.1 } }

/-- Some entry of an access is queued. -/
def entryQueued (s : State) (master id : Nat) : Bool :=
  (upFrom 4 0).any fun c => (dmcAt s c).queue.any fun d => d.master = master && d.id = id

/-- An access by hardware that is queued and served within one row may be made now: no channel of the span tracks, an unreserved
entry is free on each, and no queued entry touches its lines (R293, R294, R305; DESIGN CHOICE, log 77). -/
def dramQuiet (s : State) (a len : Nat) : Bool :=
  roomFor s (entryPieces a len) && (spanChannels s a len).all fun c =>
    !(dmcAt s c).tracking && !((dmcAt s c).queue.any fun e => decide (e.addr < a + len) && decide (a < e.addr + e.len + 63))

/-! ### Flushes and closes of a queue (R155) -/

/-- Blocks resident and not yet passed. -/
def qFill (q : Queue) : Nat := (q.blocks.filter fun b => b.resident.isSome).length

/-- Blocks requested and not yet resident. -/
def qInflight (q : Queue) : Nat := (q.blocks.filter fun b => b.resident.isNone).length

/-- Number of a queue. -/
def queueNum (c q : Nat) : Nat := 1024 * c + q

/-- The granules of a queue's block buffers. -/
def bufArea (c bufBase bufCount : Nat) : Nat × Nat := granules (combAddr (hiveOf c) 0 (bufBase * 4096)) (bufCount * 4096)

/-- A flush has nothing left in flight: HEAD, position, ERR and FMT (R155). -/
def flushed (i : Nat) (s : State) : State :=
  modQueue s i fun q => { q with head := if q.mode = 0 then q.tail else 0, descOff := 0, pos := 0, next := 0, err := 0, fmt := 0,
                                 blocks := [], st := .opened }

/-- A close has nothing left in flight: as a flush, then CLOSED, its buffers inactive (R155). -/
def closed (i : Nat) (s : State) : State :=
  let q := queueAt s i
  let s1 := flushed i (deactivate s [bufArea (i / 1024) q.bufBase q.bufCount])
  modQueue s1 i fun q => { q with st := .closed }

/-- A flush or close that the queue works on completes once no block is in flight. -/
def queueWork (i : Nat) (s : State) : State :=
  if 0 < qInflight (queueAt s i) then s
  else
    match findWork s fun k => match k with
        | .queueClose _ c q => queueNum c q = i
        | .queueFlush _ c q => queueNum c q = i
        | _ => false with
    | none => s
    | some x =>
      match x.cmd with
      | .queueClose .. => finish (closed i (endWork s x)) x 0x0501 (some (3, i)) .ok
      | .queueFlush .. => finish (flushed i (endWork s x)) x 0x0503 (some (3, i)) .ok
      | _ => s

/-! ### Failed queues and channels (R166, R308) -/

/-- A queue goes FAILED: it requests nothing more; what it has requested still lands and plays (R166; DEDUCED, log 27). -/
def failQueue (i err : Nat) (s : State) : State := modQueue s i fun q => { q with st := .failed, err := err }

/-- The queue whose block read an entry is, and the block. -/
def blockOfEntry (s : State) (e : DEntry) : Option (Nat × Blk) :=
  if e.master ≠ 3 then none
  else ((queueAt s (e.id / 2 ^ 48)).blocks.find? fun b => b.off = e.id % 2 ^ 48 && b.resident.isNone).map fun b => (e.id / 2 ^ 48, b)

/-- A block leaves its queue without becoming resident: its buffer is free, its credit returns (R164, R166), and a flush or close
that waited for it goes on (R155). -/
def dropBlock (i : Nat) (b : Blk) (s : State) : State :=
  let s1 := { s with queues := tmod {} s.queues i fun q => { q with blocks := q.blocks.erase b } }
  queueWork i { s1 with hives := tmod {} s1.hives (hiveOf (i / 1024)) fun h => { h with credits := min 64 (h.credits + 1) } }

/-- DRAM accesses of a live queue touch a channel: its ring, its context or a payload block (R308). -/
def queueOn (s : State) (c : Nat) (i : Nat) (q : Queue) : Bool :=
  (spanChannels s q.ringBase (32 * 2 ^ q.sizeLog2)).contains c || dramChannel s (s.ctxBase + 32 * i) = c ||
    q.blocks.any fun b => (spanChannels s b.addr b.len).contains c

/-- A RUNNING member of a synchronised group has a live queue on the channel. -/
def groupOn (s : State) (c : Nat) : Bool :=
  s.queues.any fun p => decide (0 < p.2.live) && (cellAt s (p.1 / 1024)).st = .running && (cellAt s (p.1 / 1024)).group ≠ 63 &&
    queueOn s c p.1 p.2

/-- A queue fails with MEM_OFFLINE: Q_OFFLINE, class 2 where its cell is a RUNNING group member (R166). -/
def offlineQueue (i : Nat) (s : State) : State :=
  let x := cellAt s (i / 1024)
  let cls := if x.st = .running ∧ x.group ≠ 63 then 2 else 1
  raise (failQueue i 2 s) { block := .pqm, bit := 4, cls := cls, obj := i, master := 3, acc := 4, scope := [x.group],
                            owner := some (cellOwner s (i / 1024)).owner }

/-! ### Host accesses (R292, R293, R301) -/

/-- A mailbox access to DRAM: whether it is a read, its address and length, its opcode. -/
def dramCmd : Instr → Option (Bool × Nat × Nat × Nat × List Byte)
  | .dramWrite _ a _ data => some (false, a, data.length, 0x0905, data)
  | .dramRead _ a n => some (true, a, 8 * n, 0x0906, [])
  | _ => none

/-- A mailbox access ends with an error, or with the bytes read. -/
def endDramCmd (x : Held) (e : Err) (img : List Host.Cell) (s : State) : State :=
  match dramCmd x.cmd with
  | none => s
  | some (rd, a, n, op, _) =>
    finish (endWork s x) x op (some (8, dramChannel s a)) e (if rd && e = .ok then memRead img a n else [])

/-- An access of the aperture ends: a read answers its bytes, or zeros (R292, R301). -/
def endBulk (id : Nat) (e : Err) (img : List Host.Cell) (s : State) : State :=
  match s.bulk.ops.find? fun o => o.id = id with
  | none => s
  | some o =>
    let s1 := { s with bulk := { s.bulk with ops := s.bulk.ops.erase o } }
    if o.read then { s1 with bus := if e = .ok then memRead img o.addr o.len else List.replicate o.len 0 } else s1

/-- The access that an entry of a host belongs to ends. -/
def endHost (e : DEntry) (err : Err) (img : List Host.Cell) (s : State) : State :=
  if e.master = 8 then
    match s.works.find? fun x => x.serial = e.id && (dramCmd x.cmd).isSome with
    | some x => endDramCmd x err img s
    | none => s
  else endBulk e.id err img s

/-- One entry of a host access is over: its access ends with it, or its result waits for the access's other entries. -/
def hostPiece (e : DEntry) (err : Option Err) (img : List Host.Cell) (s : State) : State :=
  if entryQueued s e.master e.id then
    forUp (fun c s => modDmc s c fun d => { d with queue := d.queue.map fun y =>
      if y.master = e.master ∧ y.id = e.id then { y with err := y.err.or err, img := img } else y }) 4 0 s
  else endHost e (match err with
    | some x => x
    | none => .ok) img s

/-- An entry of a host is served: its read or write of memory (R300, R301). -/
def hostServed (e : DEntry) (s : State) : State :=
  if e.write then
    let r := dramHostWrite e.master e.pos e.data s
    hostPiece e (e.err.or (if r.2 then none else some .memError)) e.img r.1
  else
    let s1 := touchLines e.master 0 e.addr e.len s
    hostPiece e (e.err.or (if linesUe s e.addr e.len then some .memError else none))
      (memWrite e.img e.addr (memRead s.dram e.addr e.len)) s1

/-- Mailbox accesses that wait for entries. -/
def waitingCmds (s : State) : List Held := s.works.filter fun x => (dramCmd x.cmd).isSome && !entryQueued s 8 x.serial

/-- Aperture accesses that wait for entries. -/
def waitingBulk (s : State) : List BulkOp := s.bulk.ops.filter fun o => !entryQueued s o.master o.id

/-- The entries of a host access are queued, where every channel has room (R293); those of an OFFLINE channel fail (R308). -/
def placeHost (master id a len : Nat) (rd : Bool) (data : List Byte) (s : State) : State :=
  let e : DEntry := { id := id, master := master, write := !rd, addr := a, len := len }
  let ps := entryPieces a len
  if spanOffline s a len then endHost e .memOffline [] s
  else if roomFor s ps then queuePieces e a data ps s
  else s

/-- Host accesses take entries in order of decision or arrival. -/
def placeHosts (s : State) : State :=
  let s1 := (waitingCmds s).foldl (fun s x => match dramCmd x.cmd with
    | some (rd, a, n, _, data) => placeHost 8 x.serial a n rd data s
    | none => s) s
  (waitingBulk s1).foldl (fun s o => placeHost o.master o.id o.addr o.len o.read o.data s) s1

/-! ### Records on a channel that fails (R182, R193) -/

/-- A record that is open: data or stack, reserved, not committed and not abandoned (R182, R193). -/
def recOpen (r : CapRec) : Bool := (r.kind = 1 || r.kind = 4) && !r.committed && !r.abandoned

/-- A DRAINING channel whose records are all committed is BOUND, and its areas are inactive (R131, R176). -/
def capDrain (c : Nat) (s : State) : State :=
  let x := capAt s c
  if x.st = .draining && !(x.recs.any recOpen) then
    deactivate (putCap s c { x with st := .bound, areas := [], trig := none, tR := none }) x.areas
  else s

/-- A capture channel's record ring lies on an OFFLINE channel (R193). -/
def ringOffline (s : State) (x : Cap) : Bool := x.recLog2 ≠ 0 && spanOffline s x.recBase (2 ^ x.recLog2)

/-- The run of lost samples that an abandoned record had open is journaled (R192). -/
def journalRun (c : Nat) (r : CapRec) (s : State) : State :=
  if r.lostRun = 0 then s else jput s s.time.tick (.gap true c 0 r.lostFirst r.lostRun 4)

/-- The open records of a channel are abandoned (R193): a channel waiting to re-arm has its record slots free again (R182). -/
def abandon (c : Nat) (s : State) : State :=
  let x := capAt s c
  let open_ := x.recs.filter recOpen
  if open_.isEmpty then s
  else
    let rs := x.recs.map fun r => if recOpen r then { r with abandoned := true, lostRun := 0 } else r
    let tR := if x.st = .rearm ∧ x.tR = none then some (max x.tC s.time.tick + 8) else x.tR
    capDrain c (open_.foldl (fun s r => journalRun c r s) { s with caps := tset {} s.caps c { x with recs := rs, tR := tR } })

/-- How FIRST_ERR of the capture block names a channel and a catch-bank or DRAM address (R201): the channel in [9:0], the address in
[46:10] (DESIGN CHOICE, log 78). -/
def capObj (c a : Nat) : Nat := c + 1024 * a

/-- REC_OFFLINE of a channel whose record ring is on an OFFLINE channel (R193). -/
def recOffline (c a : Nat) (s : State) : State :=
  raise s { block := .cap, bit := 2, cls := 1, obj := capObj c a, master := 2, acc := 1, owner := some (cellOwner s c).owner }

/-- An entry of a channel that goes OFFLINE completes as failed (R308). -/
def failEntry (e : DEntry) (s : State) : State :=
  match blockOfEntry s e with
  | some (i, b) => offlineQueue i (dropBlock i b s)
  | none => if e.master = 2 ∨ e.master = 6 then s else hostPiece { e with err := some .memOffline } (some .memOffline) e.img s

/-- A block that waits for its DRAM slots on an OFFLINE channel fails its queue (R166). -/
def failWaiting (s : State) : State :=
  s.queues.foldl (fun s p => (p.2.blocks.filter fun b => !b.queued && b.resident.isNone && spanOffline s b.addr b.len).foldl
    (fun s b => offlineQueue p.1 (dropBlock p.1 b s)) s) s

/-- A channel goes OFFLINE (R308): its readiness drops, its entries and what waits for it fail, its ranks rest in self-refresh,
records open in rings on it are abandoned, with REC_OFFLINE for every ring of an armed channel on it. -/
def goOffline (c : Nat) (s : State) : State :=
  let es := (dmcAt s c).queue
  let cls := if groupOn s c then 2 else 1
  let s1 := modDmc s c fun x => { x with st := .offline, queue := [], rows := [], tracking := false, trackPending := false,
                                         fromFail := false, sr := true, pd := [] }
  let s2 := placeHosts (failWaiting (es.foldl (fun s e => failEntry e s) (journalLose c (dmcChanFault s1 5 cls c))))
  s2.caps.foldl (fun s p =>
    if ringOffline s p.2 && (spanChannels s p.2.recBase (2 ^ p.2.recLog2)).contains c then
      recOffline p.1 p.2.recBase (abandon p.1 s)
    else s) s2

/-! ### Training (R304 to R307) -/

/-- The die's junction temperature in 1/64 degree: telemetry channel 27, its hottest sensor (R306, R375; DEDUCED, log 54). -/
def dieTj (s : State) : Int := (tget (0 : BitVec 16) s.svc.telem 27).toInt

/-- A block of a channel ends: the entries queued have waited for it, which LAT_OVER does not count (R305). -/
def blockEnds (c : Nat) (s : State) : State :=
  modDmc s c fun x => { x with queue := x.queue.map fun e => { e with blocked := e.blocked + (s.time.tick - max e.queued x.blockFrom) } }

/-- The delay registers after a training (R304, R314): measured values, margins at least the least margin found. -/
def trained (c margin kind : Nat) (s : State) : State :=
  let d := dmcAt s c
  let reg (i : Nat) : DWord :=
    let v := (Config.dmcDelay c i s.free).toNat
    BitVec.ofNat 64 (pack [(45, v), (6, max margin (bits v 45 6)), (6, max margin (bits v 51 6))])
  let regs := forUp (fun i t => tset 0 t i (reg i)) (9 * (d.ranks + 1)) 0 []
  modDmc { s with free := s.free + 1 } c fun x =>
    { x with delays := regs, margin := margin, lastKind := kind, lastTrain := s.time.tick, trainTj := dieTj s }

/-- A retraining of a kind starts on a channel: TRACK beside its traffic, FULL with readiness withdrawn; an OFFLINE
channel stays OFFLINE until its training passes (R305, R307). -/
def startTraining (c kind : Nat) (s : State) : State :=
  let s1 := modDmc s c fun x =>
    { x with retrains := sat 0xFFFF x.retrains, fulls := if kind = 1 then sat 0xFF x.fulls else x.fulls,
             tracking := kind = 0, trackPending := false, blockFrom := s.time.tick, fromFail := kind = 1 && x.st = .offline,
             st := if kind = 1 ∧ x.st ≠ .offline then .retraining else x.st }
  dmcChanFault s1 3 0 c

/-- Ticks between refreshes of a rank (R296). -/
def tRefi (d : Dmc) : Nat := if d.ref2x = 1 then 390 else 780

/-- Ticks that a refresh blocks its rank (R296). -/
def tRfc (d : Dmc) : Nat := if d.density = 1 then 55 else 35

/-- A channel is IN_SERVICE from now on: the refreshes of its ranks fall due half an interval apart, and no rank has had an
entry. -/
def inService (c : Nat) (s : State) : State :=
  let now := s.time.tick
  modDmc s c fun x =>
    { x with st := .inService, sr := false, rfcEnd := [],
             refNext := forUp (fun r t => tset 0 t r (now + tRefi x + r * (tRefi x / 2))) (x.ranks + 1) 0 [],
             idleFrom := forUp (fun r t => tset 0 t r now) (x.ranks + 1) 0 [] }

/-- A hardware trigger of a TRACK: ignored while tracking, RETRAINING, SELF_REFRESH or OFFLINE (R306). -/
def trackTrigger (c : Nat) (s : State) : State :=
  let d := dmcAt s c
  if d.st = .inService && !d.tracking then startTraining c 0 s else s

/-- The accepted `DMC_RETRAIN` that a channel works on. -/
def retrainWork (s : State) (c : Nat) : Option Held :=
  findWork s fun i => match i with
    | .dmcRetrain _ ch _ => ch = c
    | _ => false

/-- The reply of `DMC_RETRAIN` when its retraining ends (R312). -/
def retrainReply (c : Nat) (e : Err) (s : State) : State :=
  match retrainWork s c with
  | some x => finish (endWork s x) x 0x0903 (some (8, c)) e
  | none => s

/-- The reply of `DMC_CONFIG` once every present channel is IN_SERVICE or OFFLINE (R285). -/
def configReply (s : State) : State :=
  match findWork s fun i => match i with
      | .dmcConfig .. => true
      | _ => false with
  | none => s
  | some x =>
    if (upFrom (nDmc s) 0).all fun c => (dmcAt s c).st = .inService || (dmcAt s c).st = .offline then
      finish (endWork s x) x 0x0900 none .ok
    else s

/-- A training ends: initial or FULL; a setting passes with the margins that `DMC_CONFIG` asks for (R304, R307, R309). -/
def trainingEnds (c : Nat) (found : Bool) (margin : Nat) (s : State) : State :=
  let d := dmcAt s c
  let pass := found && decide (s.minMargin ≤ margin)
  if d.st = .training then
    if pass then modDmc (trained c margin 1 s) c fun x => { x with st := .clearing } else goOffline c s
  else if d.st = .retraining then
    if pass then retrainReply c .ok (inService c (trained c margin 3 (blockEnds c s)))
    else retrainReply c .memOffline (goOffline c s)
  else if d.st = .offline ∧ d.fromFail then
    if pass then retrainReply c .ok (modDmc (trained c margin 3 s) c fun x => { x with st := .clearing, fromFail := false, sr := false })
    else retrainReply c .memOffline (modDmc s c fun x => { x with fromFail := false })
  else s

/-- DRAM_TRAINING_DONE: the training ends; the reply of `DMC_CONFIG` may have waited for it (R285). -/
def dramTrainingDone (c : Nat) (pass : Bool) (margin : Nat) (s : State) : State := configReply (trainingEnds c pass margin s)

/-- DRAM_CLEAR_DONE: every byte of the channel is zero with good check bits; IN_SERVICE (R285, R307). -/
def dramClearDone (c : Nat) (s : State) : State :=
  if (dmcAt s c).st = .clearing then
    let s1 := { s with dram := s.dram.filter fun p => dramChannel s p.1 ≠ c,
                       dramUe := s.dramUe.filter fun l => dramChannel s (64 * l) ≠ c,
                       dramCe := s.dramCe.filter fun l => dramChannel s (64 * l) ≠ c }
    configReply (modDmc (inService c s1) c fun x => { x with poisoned := [], scrubPos := 0, scrubStart := s.time.tick })
  else s

/-- TRACK_DONE: a TRACK ends, or finds no setting and a FULL follows (R305, R306); a requested retraining that
waited for it starts (R312). -/
def trackDone (c : Nat) (pass : Bool) (margin : Nat) (s : State) : State :=
  let d := dmcAt s c
  if !(d.tracking && d.st = .inService) then s
  else if !(pass && decide (s.minMargin ≤ margin)) then
    startTraining c 1 (dmcChanFault (modDmc (blockEnds c s) c fun x => { x with tracking := false }) 4 0 c)
  else
    let s1 := modDmc (trained c margin 2 (blockEnds c s)) c fun x => { x with tracking := false }
    if d.trackPending then
      match retrainWork s1 c with
      | some x =>
        match x.cmd with
        | .dmcRetrain _ _ kind => startTraining c kind s1
        | _ => s1
      | none => s1
    else retrainReply c .ok s1

/-- TJ_MOVE_TRIGGER: Tj has moved at least 15 degrees since the channel's last training (R306). -/
def tjMove (c : Nat) (s : State) : State :=
  if 15 * 64 ≤ (dieTj s - (dmcAt s c).trainTj).natAbs then trackTrigger c s else s

/-- CE_LIMIT: CE_LIMIT corrected errors on one lane within 60 s; the row names what the lanes' own counts have found, and the channel
has corrected at least that many (R306). -/
def ceLimitReached (c : Nat) (s : State) : State :=
  let n := ((dmcAt s c).ceTicks.filter fun t => decide (s.time.tick < t + minuteTicks)).length
  if s.ceLimit ≤ n then trackTrigger c (modDmc s c fun x => { x with ceTicks := [] }) else s

/-- TRACK_TIMER: TRACK_H hours since the last training (R306). -/
def trackTimer (c : Nat) (s : State) : State :=
  if (dmcAt s c).lastTrain + s.trackH * 360000000000 ≤ s.time.tick then trackTrigger c s else s

/-- CA_PARITY: retried and raised; the second within 1 ms asks for a FULL retraining (R306, R310). -/
def caParity (c : Nat) (s : State) : State :=
  let d := dmcAt s c
  let now := s.time.tick
  let again := match d.caTick with
    | some t => decide (now ≤ t + 100000)
    | none => false
  let s1 := dmcChanFault (modDmc s c fun x => { x with caTick := if again then none else some now }) 6 1 c
  if again && d.st = .inService && !d.tracking then startTraining c 1 s1 else s1

/-! ### Serving the queue (R293 to R298) -/

/-- Capacity of a channel in bytes. -/
def capBytes (d : Dmc) : Nat := d.capGib * 2 ^ 30

/-- The next burst of an entry: rank, bank and row. -/
def nextRow (s : State) (d : Dmc) (e : DEntry) : Nat × Nat × Nat := dramRow d (dramChanAddr s (e.addr + 64 * e.served))

/-- The rows that an entry names. -/
def entryRows (s : State) (d : Dmc) (e : DEntry) : List (Nat × Nat × Nat) :=
  (upFrom (ceilDiv e.len 64) 0).map fun i => dramRow d (dramChanAddr s (e.addr + 64 * i))

/-- Bursts of an entry are left. -/
def burstsLeft (e : DEntry) : Bool := decide (64 * e.served < e.len)

/-- A refresh blocks the rank (R296). -/
def rankBlocked (s : State) (d : Dmc) (r : Nat) : Bool := decide (s.time.tick < tget 0 d.rfcEnd r)

/-- The eligible entries, oldest first: bursts left, the rank not in refresh, and no older entry of the queue, complete or not,
names the same rank, bank and row. -/
def eligible (s : State) (d : Dmc) : List DEntry → List DEntry → List DEntry
  | _, [] => []
  | old, e :: t =>
    let free := !(old.any fun o => (entryRows s d o).contains (nextRow s d e)) && !rankBlocked s d (nextRow s d e).1
    if burstsLeft e && free then e :: eligible s d (old ++ [e]) t else eligible s d (old ++ [e]) t

/-- Key of a bank. -/
def bankKey (r : Nat × Nat × Nat) : Nat := 16 * r.1 + r.2.1

/-- The row of an entry's next burst is open. -/
def rowOpen (s : State) (d : Dmc) (e : DEntry) : Bool :=
  let r := nextRow s d e
  d.rows.any fun p => p.1 = bankKey r && p.2.1 = r.2.2

/-- Serve one burst of an entry: its row is open afterwards, or closed at once with PAGE_IDLE 0 (R295). -/
def serveBurst (s : State) (c : Nat) (e : DEntry) : State :=
  let d := dmcAt s c
  let r := nextRow s d e
  let now := s.time.tick
  modDmc s c fun x =>
    { x with queue := x.queue.map fun y => if y = e then { e with served := e.served + 1 } else y,
             rows := if x.pageIdle = 0 then x.rows.filter fun p => p.1 ≠ bankKey r
               else tset (0, 0) (x.rows.filter fun p => p.1 ≠ bankKey r) (bankKey r) (r.2.2, now),
             pd := x.pd.filter fun k => k ≠ r.1,
             recent := (now, 64, e.write) :: x.recent.filter fun p => decide (now < p.1 + 100000) }

/-- A refresh of a rank: every row of it closes, and the rank is blocked for tRFC (R295, R296). -/
def refreshRank (c rank : Nat) (forced : Bool) (s : State) : State :=
  let s1 := modDmc s c fun x =>
    { x with postponed := tmod 0 x.postponed rank (· - 1), rows := x.rows.filter fun p => p.1 / 16 ≠ rank,
             pd := x.pd.filter fun k => k ≠ rank, rfcEnd := tset 0 x.rfcEnd rank (s.time.tick + tRfc x) }
  if forced then dmcChanFault s1 7 0 c else s1

/-- The ranks of a channel. -/
def ranksOf (d : Dmc) : List Nat := upFrom (d.ranks + 1) 0

/-- The next line of the scrub is due: the lines of a pass spread evenly over PERIOD_H hours (R303). -/
def scrubDue (s : State) (d : Dmc) : Bool :=
  decide (d.scrubStart * capBytes d + d.scrubPos * (s.scrubPeriod * 360000000000) ≤ s.time.tick * capBytes d)

/-- One burst of the patrol scrub (R303): the line is read through an unreserved entry, a correctable error corrected, a bad line
frozen. -/
def scrubBurst (c : Nat) (s : State) : State :=
  let d := dmcAt s c
  let a := dramDevAddr s c d.scrubPos
  if s.scrubOn && d.st = .inService && d.capGib ≠ 0 && scrubDue s d && dramQuiet s a 64 then
    let s1 := touchLine 5 5 (a / 64) s
    modDmc s1 c fun x =>
      let p := x.scrubPos + 64
      if capBytes x ≤ p then
        { x with scrubPos := 0, scrubPasses := sat 0xFFFF x.scrubPasses, scrubStart := x.scrubStart + s.scrubPeriod * 360000000000 }
      else { x with scrubPos := p }
  else s

/-- The ordered decisions of R294 at one command slot of a channel in service. -/
def commandSlot (c : Nat) (s : State) : State :=
  let d := dmcAt s c
  let el := eligible s d [] d.queue
  let free := (ranksOf d).filter fun r => !rankBlocked s d r
  let idle := free.filter fun r => !(el.any fun e => (nextRow s d e).1 = r)
  match free.find? fun r => decide (8 ≤ tget 0 d.postponed r) with
  | some r => refreshRank c r true s
  | none =>
    match (d.queue.find? burstsLeft).filter fun e => decide (e.queued + 100 * s.ageLimit < s.time.tick) && el.contains e with
    | some e => serveBurst s c e
    | none =>
      match el.find? (rowOpen s d) with
      | some e => serveBurst s c e
      | none =>
        match el.head? with
        | some e => serveBurst s c e
        | none =>
          match (idle.find? fun r => decide (0 < tget 0 d.postponed r)).or
              (idle.find? fun r => decide (-8 < tget 0 d.postponed r)) with
          | some r => refreshRank c r false s
          | none => scrubBurst c s

/-- DRAM_COMMAND_SLOT: the journal's next write takes its entry, then R294 decides. -/
def dramCommandSlot (c : Nat) (s : State) : State :=
  if (dmcAt s c).st ≠ .inService || (dmcAt s c).tracking then s else commandSlot c (journalWrite c s)

/-- The data of a completed entry reach their reader or their place; a block with an uncorrectable line is not made resident
(R166, R301). -/
def entryData (e : DEntry) (s : State) : State :=
  match blockOfEntry s e with
  | some (i, b) =>
    let s1 := touchLines 3 4 e.addr e.len s
    if linesUe s e.addr e.len then
      dropBlock i b (raise s1 { block := .pqm, bit := 5, cls := 1, obj := e.addr, master := 3, acc := 4,
                                owner := some (cellOwner s (i / 1024)).owner })
    else
      let b1 := { b with read := !entryQueued s 3 e.id, img := memWrite b.img e.addr (memRead s.dram e.addr e.len) }
      { s1 with queues := tmod {} s1.queues i fun q => { q with blocks := q.blocks.map fun k => if k = b then b1 else k } }
  | none =>
    if e.master = 2 then dramStore s e.pos e.data
    else if e.master = 3 then s
    else if e.master = 6 then journalWritten e.id s
    else hostServed e s

/-- The reads of a block take their DRAM slots, where every channel it lies on has the entries free (R156). -/
def placeBlock (i : Nat) (b : Blk) (s : State) : State :=
  let ps := entryPieces b.addr b.len
  if roomFor s ps then
    let s1 := queuePieces { id := i * 2 ^ 48 + b.off, master := 3, write := false, addr := b.addr, len := b.len } b.addr [] ps s
    { s1 with queues := tmod {} s1.queues i fun q => { q with blocks := q.blocks.map fun k => if k = b then { b with queued := true } else k } }
  else s

/-- A block that waits for its slots: one that the position has passed, or a flush has discarded, is never fetched (R155, R164); one
on an OFFLINE channel fails its queue (R166); else it takes them where it can. -/
def placeOne (i : Nat) (b : Blk) (s : State) : State :=
  if b.discard then
    let s1 := dropBlock i b s
    if b.flushed then s1 else { s1 with hives := tmod {} s1.hives (hiveOf (i / 1024)) fun h => { h with skipCount := sat 0xFFFFFFFF h.skipCount } }
  else if spanOffline s b.addr b.len then offlineQueue i (dropBlock i b s)
  else placeBlock i b s

/-- Accesses that wait for DRAM slots take them: refills, which hold buffer and credit (R167, R168), then host accesses. -/
def placeWaiting (s : State) : State :=
  placeHosts (s.queues.foldl (fun s p => p.2.blocks.foldl (fun s b => if !b.queued && b.resident.isNone then placeOne p.1 b s else s) s) s)

/-- When the last entry of each of its ranks has left a channel's queue (R297). -/
def noteIdle (s : State) (e : DEntry) (d : Dmc) : Tab Nat :=
  ((entryRows s d e).map (·.1)).eraseDups.foldl (fun t r => tset 0 t r s.time.tick) d.idleFrom

/-- Entry `i` of a channel's queue, oldest first, completes (R298). -/
def entryComplete (c i : Nat) (s : State) : State :=
  match (dmcAt s c).queue[i]? with
  | none => s
  | some e =>
    let lat := s.time.tick - e.queued
    let isOver := decide (1600 < lat - e.blocked) && !(dmcAt s c).tracking
    let s1 := modDmc s c fun x =>
      { x with queue := x.queue.eraseIdx i, latMax := max x.latMax (min 0xFFFF lat),
               overs := if isOver then sat 0xFFFF x.overs else x.overs, idleFrom := noteIdle s e x }
    entryData e (if isOver then dmcFault s1 8 0 e.addr e.master (if e.write then 1 else 0) else s1)

/-- DRAM_ENTRY_DONE: an entry whose bursts are all served completes and frees its slot. -/
def dramEntryDone (c i : Nat) (s : State) : State :=
  match (dmcAt s c).queue[i]? with
  | none => s
  | some e => if burstsLeft e then s else placeWaiting (entryComplete c i s)

/-- REFRESH_DUE: a refresh of a rank falls due, one per tREFI (R296); the ninth postponed is forced. -/
def refreshDue (c rank : Nat) (s : State) : State :=
  let d := dmcAt s c
  if d.st = .inService && decide (rank ≤ d.ranks) && decide (tget 0 d.refNext rank ≤ s.time.tick) then
    let s1 := if 8 ≤ tget 0 d.postponed rank then refreshRank c rank true s else s
    modDmc s1 c fun x => { x with postponed := tmod 0 x.postponed rank (· + 1), refNext := tset 0 x.refNext rank (tget 0 d.refNext rank + tRefi d) }
  else s

/-- PAGE_IDLE_CLOSE: a bank's row closes after PAGE_IDLE ticks without a burst (R295). -/
def pageIdleClose (c rank bank : Nat) (s : State) : State :=
  modDmc s c fun d => { d with rows := d.rows.filter fun p => !(p.1 = 16 * rank + bank && decide (p.2.2 + d.pageIdle ≤ s.time.tick)) }

/-- POWER_DOWN_ENTRY: a rank that has had no entry for PD_IDLE ticks enters precharge power-down (R297). -/
def powerDownEntry (c rank : Nat) (s : State) : State :=
  let d := dmcAt s c
  if d.pdIdle ≠ 0 && d.st = .inService && decide (rank ≤ d.ranks) && !d.pd.contains rank && !rankBlocked s d rank &&
      decide (tget 0 d.idleFrom rank + d.pdIdle ≤ s.time.tick) && !(d.queue.any fun e => (entryRows s d e).any fun r => r.1 = rank) then
    modDmc s c fun x => { x with pd := x.pd ++ [rank], rows := x.rows.filter fun p => p.1 / 16 ≠ rank }
  else s

/-! ### Power (R311) -/

/-- The entries queued on a channel complete. -/
def drainQueue (c : Nat) (s : State) : State := forUp (fun _ s => entryComplete c 0 s) 96 0 s

/-- Entry to Doze or Retain: queued entries complete, rows close, training is abandoned, every rank self-refreshes. A FULL retraining
that a command asked for waits for the TRACK of the wake (R310, R312). -/
def dmcSleep (s : State) : State :=
  forUp (fun c s =>
    let d := dmcAt s c
    if d.st = .inService ∨ d.st = .retraining then
      let again := (retrainWork s c).any fun x => match x.cmd with
        | .dmcRetrain _ _ kind => kind = 1
        | _ => false
      modDmc (drainQueue c s) c fun x =>
        { x with st := .selfRefresh, rows := [], tracking := false, trackPending := again, pd := [], sr := true }
    else s) (nDmc s) 0 s

/-- Wake: each channel leaves self-refresh and runs TRACK (R306, R307, R311). -/
def dmcWake (s : State) : State :=
  placeWaiting <| forUp (fun c s =>
    let d := dmcAt s c
    if d.st = .selfRefresh then modDmc (startTraining c 0 (inService c s)) c fun x => { x with trackPending := d.trackPending } else s)
    (nDmc s) 0 s

/-! ### Commands (R312) -/

/-- The settings of a channel, as `DMC_CONFIG` gives them: RANKS 0 one, 1 two; DENSITY 0 8 Gb, 1 16 Gb. -/
def dmcChanOk (c : DmcChan) : Bool :=
  decide (c.speed ≤ 6) && decide (c.ranks ≤ 1) && decide (c.density ≤ 1) && decide (c.map ≤ 2) && decide (c.ref2x ≤ 1) &&
    decide (c.pageIdle ≤ 255) && decide (c.pdIdle ≤ 255)

/-- Capacity in GiB (R284). -/
def dmcCap (c : DmcChan) : Nat := 8 * 2 ^ (c.ranks + c.density)

/-- A default taken for 0 (R331). -/
def dflt (d v : Nat) : Nat := if v = 0 then d else v

/-- The device settings that `DMC_CONFIG` puts in force, before training. -/
def dmcApply (chans : List DmcChan) (interleave ctxBase age margin trackH ce : Nat) (s : State) : State :=
  let s1 := { s with interleave := interleave, ctxBase := ctxBase, ageLimit := dflt 4 age, minMargin := dflt 6 margin,
                     trackH := dflt 24 trackH, ceLimit := dflt 64 ce }
  ((chans.zip (upFrom (nDmc s) 0))).foldl (fun s p =>
    modDmc s p.2 fun x => { x with st := .training, speed := p.1.speed, ranks := p.1.ranks, density := p.1.density, map := p.1.map,
                                   ref2x := p.1.ref2x, pageIdle := p.1.pageIdle, pdIdle := p.1.pdIdle, capGib := dmcCap p.1 }) s1

/-- Bytes of the queue-context area (R150). -/
def ctxArea (s : State) : Nat := if s.dev.variant = .zw1024 then 0x2000000 else 0x800000

/-- Whether the arguments of `DMC_CONFIG` are in range (R284, R287): four channels, absent ones not named. -/
def dmcArgsOk (chans : List DmcChan) (interleave ctxBase age margin trackH ce : Nat) (s : State) : Bool :=
  let n := nDmc s
  let here := chans.take n
  let caps := here.map dmcCap
  chans.length = 4 && here.all dmcChanOk && (chans.drop n).all (· = ⟨0, 0, 0, 0, 0, 0, 0⟩) &&
    (here.map (·.speed)).eraseDups.length = 1 && decide (interleave ≤ 2) &&
    (interleave ≠ 1 || (caps.getD 0 0 = caps.getD 1 0 && caps.getD 2 0 = caps.getD 3 0)) &&
    (interleave ≠ 2 || (n = 4 && caps.eraseDups.length = 1)) &&
    ctxBase % 0x2000000 = 0 && spanPresent (dmcApply here interleave ctxBase age margin trackH ce s) ctxBase (ctxArea s) &&
    decide (dflt 4 age ≤ 8) && decide (4 ≤ dflt 6 margin) && decide (dflt 6 margin ≤ 16) && decide (dflt 24 trackH ≤ 168) &&
    decide (dflt 64 ce ≤ 1024)

/-- Every present channel is UNCONFIGURED. -/
def dmcUnconfigured (s : State) : Bool := (upFrom (nDmc s) 0).all fun c => (dmcAt s c).st = .unconfigured

/-- `DMC_CONFIG`. -/
def specDmcConfig (h : Hdr) (chans : List DmcChan) (interleave ctxBase age margin trackH ce : Nat) (s : State) : CSpec :=
  { op := 0x0900, cls := .c, permitted := h.ctx = 0, modeOk := s.md.mode = .bringUp,
    err := if !dmcArgsOk chans interleave ctxBase age margin trackH ce s then some .badArg
      else if !dmcUnconfigured s then some .badState else none }

/-- The decision of `DMC_CONFIG`: every present channel goes to TRAINING; the context area becomes SYSTEM (R291). -/
def decDmcConfig (x : Held) (chans : List DmcChan) (interleave ctxBase age margin trackH ce : Nat) (s : State) : State :=
  if unitMode s ≠ .bringUp then finish s x 0x0900 none .badMode
  else if !dmcUnconfigured s then finish s x 0x0900 none .badState
  else
    let s1 := dmcApply (chans.take (nDmc s)) interleave ctxBase age margin trackH ce s
    beginWork { s1 with dramSystem := (s1.dramSystem ++ dramRegions ctxBase (ctxArea s)).eraseDups } x

/-- An open queue ring or an armed record ring lies in a region (R312). -/
def regionUsed (s : State) (r : Nat) : Bool :=
  (s.queues.any fun p => p.2.st ≠ .closed && (dramRegions p.2.ringBase (32 * 2 ^ p.2.sizeLog2)).contains r) ||
    s.caps.any fun p => p.2.st ≠ .off && p.2.st ≠ .bound && (dramRegions p.2.recBase (2 ^ p.2.recLog2)).contains r

/-- Some region that `DRAM_REGION_SET` would change is in use. -/
def regionsUsed (s : State) (first count owner : Nat) : Bool :=
  (upFrom count first).any fun r => (tget ({} : Own) s.dramOwn r).owner ≠ owner && regionUsed s r

/-- `DRAM_REGION_SET`. -/
def specDramRegionSet (h : Hdr) (first count owner secure : Nat) (s : State) : CSpec :=
  let ok := decide (1 ≤ count) && decide (first + count ≤ nDramRegions s) && decide (owner < 16) && decide (secure ≤ 1)
  { op := 0x0901, permitted := h.ctx = 0 && !(ok && (upFrom count first).any s.dramSystem.contains), modeOk := modeLoad s,
    absent := beyond (nDramRegions s + 1) 8193 (first + count),
    err := if !ok ∨ (secure = 1 ∧ !ctxSecure s owner) then some .badArg
      else if regionsUsed s first count owner then some .badState else none }

/-- The decision of `DRAM_REGION_SET`; nothing where a region is in use by then. -/
def decDramRegionSet (first count owner secure : Nat) (s : State) : State :=
  let o : Own := ⟨owner, secure = 1⟩
  if regionsUsed s first count owner || (upFrom count first).any s.dramSystem.contains ||
      (upFrom count first).all fun r => tget {} s.dramOwn r = o then s
  else bumpSec { s with dramOwn := forUp (fun r t => tset {} t r o) count first s.dramOwn }

/-- `DRAM_REGION_READ`. -/
def specDramRegionRead (first count : Nat) (s : State) : CSpec :=
  { op := 0x0902, cls := .d, absent := beyond (nDramRegions s + 1) 8193 (first + count),
    err := if count = 0 ∨ 48 < count ∨ nDramRegions s < first + count then some .badArg else none }

/-- The decision of `DRAM_REGION_READ`: one byte a region. -/
def decDramRegionRead (x : Held) (first count : Nat) (s : State) : State :=
  finish s x 0x0902 none .ok ((upFrom count first).map fun r =>
    let o := tget ({} : Own) s.dramOwn r
    BitVec.ofNat 8 (pack [(4, o.owner), (1, b2n o.secure), (1, b2n (s.dramSystem.contains r))]))

/-- Whether a channel may be retrained with a kind (R312). -/
def mayRetrain (s : State) (c kind : Nat) : Bool :=
  let d := dmcAt s c
  (d.st = .inService && !d.tracking) || (d.st = .offline && kind = 1 && !d.fromFail)

/-- `DMC_RETRAIN`. -/
def specDmcRetrain (h : Hdr) (c kind : Nat) (s : State) : CSpec :=
  { op := 0x0903, unit := some (8, c), cls := .c, permitted := h.ctx = 0,
    err := if nDmc s ≤ c ∨ 1 < kind then some .badArg
      else if !mayRetrain s c kind ∨ (retrainWork s c).isSome then some .badState else none }

/-- The decision of `DMC_RETRAIN`: starts, waits for a TRACK that began meanwhile, or finds the state changed. -/
def decDmcRetrain (x : Held) (c kind : Nat) (s : State) : State :=
  let d := dmcAt s c
  if mayRetrain s c kind then startTraining c kind (beginWork s x)
  else if d.st = .inService && d.tracking then modDmc (beginWork s x) c fun y => { y with trackPending := true }
  else finish s x 0x0903 (some (8, c)) .badState

/-- `DMC_SCRUB_SET`. -/
def specDmcScrubSet (h : Hdr) (enable periodH : Nat) : CSpec :=
  { op := 0x0904, permitted := h.ctx = 0, err := if 1 < enable ∨ 168 < dflt 24 periodH then some .badArg else none }

/-- The decision of `DMC_SCRUB_SET`. -/
def decDmcScrubSet (enable periodH : Nat) (s : State) : State := { s with scrubOn := enable = 1, scrubPeriod := dflt 24 periodH }

/-- A host access to DRAM by a mailbox command (R286, R292, R342): which of orders 9, 10 and 14 stops it. An address on a channel
that the variant lacks is E_NOT_READY as R3 says, not E_BAD_ARG as R292 (DESIGN CHOICE, log 73). -/
def dramAccess (h : Hdr) (p : CSpec) (a len : Nat) (ok : Bool) (s : State) : CSpec :=
  let here := ok && spanPresent s a len
  { p with unit := some (8, dramChannel s a), permitted := !here || dramOwned s h.ctx a len,
           ready := (here && spanOffline s a len) || (dramReady s && (!here || spanReady s a len)),
           err := if !here then some .badArg else if spanOffline s a len then some .memOffline else none }

/-- `DRAM_WRITE`. -/
def specDramWrite (h : Hdr) (a count : Nat) (data : List Byte) (s : State) : CSpec :=
  dramAccess h { op := 0x0905, cls := .c, modeOk := modeLoad s } a count
    (decide (1 ≤ count) && decide (count ≤ 3528) && data.length = count) s

/-- The error that a DRAM access finds at its decision. -/
def dramDecErr (s : State) (k a len : Nat) : Option Err :=
  if !dramOwned s k a len then some .denied
  else if spanOffline s a len then some .memOffline
  else if !spanReady s a len then some .notReady
  else none

/-- The decision of `DRAM_WRITE`: its entries are queued, or wait for slots (R293); the reply follows when they have completed. -/
def decDramWrite (x : Held) (a : Nat) (data : List Byte) (s : State) : State :=
  match dramDecErr s x.ctx a data.length with
  | some e => finish s x 0x0905 (some (8, dramChannel s a)) e
  | none => placeHosts (beginWork s x)

/-- `DRAM_READ`. -/
def specDramRead (h : Hdr) (a count : Nat) (s : State) : CSpec :=
  dramAccess h { op := 0x0906, cls := .d } a (8 * count) (a % 8 = 0 && decide (1 ≤ count) && decide (count ≤ 6)) s

/-- The decision of `DRAM_READ`: its entries are queued, or wait for slots; the words are replied when they have completed. -/
def decDramRead (x : Held) (a count : Nat) (s : State) : State :=
  match dramDecErr s x.ctx a (8 * count) with
  | some e => finish s x 0x0906 (some (8, dramChannel s a)) e
  | none => placeHosts (beginWork s x)

/-- `DMC_CLEAR`. -/
def specDmcClear (c : Nat) (mask : DWord) (unfreeze : Nat) (s : State) : CSpec :=
  { op := 0x0907, unit := some (8, c),
    err := if nDmc s ≤ c ∨ !dmcMaskOk mask ∨ 1 < unfreeze then some .badArg else none }

/-- The decision of `DMC_CLEAR` (R302, R474). -/
def decDmcClear (c : Nat) (mask : DWord) (unfreeze : Nat) (s : State) : State :=
  modDmc s c fun x =>
    let y := { x with latMax := clearTo mask 0 x.latMax, overs := clearTo mask 0 x.overs, ceCount := clearTo mask 1 x.ceCount,
                      ueCount := clearTo mask 2 x.ueCount, scrubPasses := clearTo mask 3 x.scrubPasses,
                      retrains := clearTo mask 4 x.retrains, fulls := clearTo mask 4 x.fulls }
    if unfreeze = 1 then { y with ueFrozen := false, logAddr := 0, logType := 0, logMaster := 0, logTime := 0 } else y

/-! ### The commands and events -/

/-- DMC_CONFIG: R285, R312. -/
def execDmcConfig (h : Hdr) (chans : List DmcChan) (interleave ctxBase ageLimit minMargin trackH ceLimit : Nat) (s : State) :
    Host.Outcome State Fault Refusal :=
  berza h (.dmcConfig h chans interleave ctxBase ageLimit minMargin trackH ceLimit)
    (specDmcConfig h chans interleave ctxBase ageLimit minMargin trackH ceLimit s) s

/-- DRAM_REGION_SET: R290. -/
def execDramRegionSet (h : Hdr) (first count owner secure : Nat) (s : State) : Host.Outcome State Fault Refusal :=
  berza h (.dramRegionSet h first count owner secure) (specDramRegionSet h first count owner secure s) s

/-- DRAM_REGION_READ: R312. -/
def execDramRegionRead (h : Hdr) (first count : Nat) (s : State) : Host.Outcome State Fault Refusal :=
  berza h (.dramRegionRead h first count) (specDramRegionRead first count s) s

/-- DMC_RETRAIN: R306, R312. -/
def execDmcRetrain (h : Hdr) (channel kind : Nat) (s : State) : Host.Outcome State Fault Refusal :=
  berza h (.dmcRetrain h channel kind) (specDmcRetrain h channel kind s) s

/-- DMC_SCRUB_SET: R303, R312. -/
def execDmcScrubSet (h : Hdr) (enable periodH : Nat) (s : State) : Host.Outcome State Fault Refusal :=
  berza h (.dmcScrubSet h enable periodH) (specDmcScrubSet h enable periodH) s

/-- DRAM_WRITE: R292, R312. -/
def execDramWrite (h : Hdr) (addr count : Nat) (data : List Byte) (s : State) : Host.Outcome State Fault Refusal :=
  berza h (.dramWrite h addr count data) (specDramWrite h addr count data s) s

/-- DRAM_READ: R292, R312. -/
def execDramRead (h : Hdr) (addr count : Nat) (s : State) : Host.Outcome State Fault Refusal :=
  berza h (.dramRead h addr count) (specDramRead h addr count s) s

/-- DMC_CLEAR: R312, R474. -/
def execDmcClear (h : Hdr) (channel : Nat) (mask : DWord) (unfreeze : Nat) (s : State) : Host.Outcome State Fault Refusal :=
  berza h (.dmcClear h channel mask unfreeze) (specDmcClear channel mask unfreeze s) s

/-- A channel that the device has. -/
def dmcHere (s : State) (c : Nat) : Bool := decide (c < nDmc s)

/-- DRAM_COMMAND_SLOT: R294. -/
def execDramCommandSlot (channel : Nat) (s : State) : Host.Outcome State Fault Refusal :=
  actOn (dmcHere s channel) s (dramCommandSlot channel)

/-- DRAM_ENTRY_DONE: R298. -/
def execDramEntryDone (channel entry : Nat) (s : State) : Host.Outcome State Fault Refusal :=
  actOn (dmcHere s channel) s (dramEntryDone channel entry)

/-- REFRESH_DUE: R296. -/
def execRefreshDue (channel rank : Nat) (s : State) : Host.Outcome State Fault Refusal :=
  actOn (dmcHere s channel && decide (rank < 2)) s (refreshDue channel rank)

/-- PAGE_IDLE_CLOSE: R295. -/
def execPageIdleClose (channel rank bank : Nat) (s : State) : Host.Outcome State Fault Refusal :=
  actOn (dmcHere s channel && decide (rank < 2) && decide (bank < 16)) s (pageIdleClose channel rank bank)

/-- POWER_DOWN_ENTRY: R297. -/
def execPowerDownEntry (channel rank : Nat) (s : State) : Host.Outcome State Fault Refusal :=
  actOn (dmcHere s channel && decide (rank < 2)) s (powerDownEntry channel rank)

/-- DRAM_TRAINING_DONE: R307. -/
def execDramTrainingDone (channel : Nat) (pass : Bool) (margin : Nat) (s : State) : Host.Outcome State Fault Refusal :=
  actOn (dmcHere s channel) s (dramTrainingDone channel pass margin)

/-- DRAM_CLEAR_DONE: R285. -/
def execDramClearDone (channel : Nat) (s : State) : Host.Outcome State Fault Refusal :=
  actOn (dmcHere s channel) s (dramClearDone channel)

/-- TRACK_DONE: R305. -/
def execTrackDone (channel : Nat) (pass : Bool) (margin : Nat) (s : State) : Host.Outcome State Fault Refusal :=
  actOn (dmcHere s channel) s (trackDone channel pass margin)

/-- TJ_MOVE_TRIGGER: R306. -/
def execTjMoveTrigger (channel : Nat) (s : State) : Host.Outcome State Fault Refusal :=
  actOn (dmcHere s channel) s (tjMove channel)

/-- TRACK_TIMER: R306. -/
def execTrackTimer (channel : Nat) (s : State) : Host.Outcome State Fault Refusal :=
  actOn (dmcHere s channel) s (trackTimer channel)

/-- CE_LIMIT: R306. -/
def execCeLimit (channel : Nat) (s : State) : Host.Outcome State Fault Refusal :=
  actOn (dmcHere s channel) s (ceLimitReached channel)

/-- CA_PARITY: R306. -/
def execCaParity (channel : Nat) (s : State) : Host.Outcome State Fault Refusal :=
  actOn (dmcHere s channel) s (caParity channel)

/-- PATROL_SCRUB_BURST: R303. -/
def execPatrolScrubBurst (channel : Nat) (s : State) : Host.Outcome State Fault Refusal :=
  actOn (dmcHere s channel) s (scrubBurst channel)

end Sys2Proof.Machine
end

