-- ==== Sys2Proof/Machine/Access.lean ====
section
/-! DEFINITION. Accesses to the comb and DRAM that are made as a host context without a command: through the bulk aperture
and by the debug port (R132, R292, R323, R400). -/

namespace Sys2Proof.Machine

/-- Where in the aperture's spaces the comb begins (R323). -/
def combSpace : Nat := 2 ^ 40

/-- Every address of a span lies in the comb of a hive that is present. -/
def combPresent (s : State) (ca len : Nat) : Bool := decide (ca + len ≤ nHives s * 0x200000)

/-- A fault of the comb block at an address that may be absent. -/
def combHostFault (s : State) (bit ca master acc : Nat) : State :=
  raise s { block := .cmb, bit := bit, cls := 1, obj := ca, master := master, acc := acc,
            owner := some (combRegion s ca).owner, scope := [ca / 0x200000] }

/-- A fault of the DRAM block at an address that may be absent. -/
def dramHostFault (s : State) (bit a master acc : Nat) : State :=
  raise s { block := .dmc, bit := bit, cls := 1, obj := a, master := master, acc := acc,
            owner := some (dramRegion s a).owner, scope := [dramChannel s a] }

/-- A write of a context to the comb: performed whole, or discarded with its flag; a bank that is not ready discards it
silently (R132, R137, R323). -/
def ctxCombWrite (k master ca : Nat) (data : List Byte) (s : State) : State :=
  let n := data.length
  if !combPresent s ca n then combHostFault s 12 ca master 1
  else if !combOwned s k ca n then combHostFault s 6 ca master 1
  else if !combReadyAt s ca n then s
  else
    match firstHeldGranule s ca n with
    | some g => combHostFault s 5 (256 * g) master 1
    | none =>
      match rmwUe s ca n with
      | some w => ueData (touchWord master 0 w s) (8 * w) 8 master 0
      | none => rmwStore s ca data master

/-- The host's read is answered with bytes. -/
def busReply (bytes : List Byte) (s : State) : State := { s with bus := bytes }

/-- The host's read of `n` bytes is answered with zeros. -/
def busZero (n : Nat) (s : State) : State := busReply (List.replicate n 0) s

/-- A read of a context from the comb: the bytes, or zeros (R125, R132, R138, R323). -/
def ctxCombRead (k master ca n : Nat) (s : State) : State :=
  if !combPresent s ca n then busZero n (combHostFault s 12 ca master 0)
  else if !combOwned s k ca n then busZero n (combHostFault s 6 ca master 0)
  else if !combReadyAt s ca n then busZero n s
  else
    match keeperRead ca n master s with
    | (s1, none) => busZero n s1
    | (s1, some b) => busReply b s1

/-- An access through the aperture reaches the channels' command queues: it is queued, or waits for entries (R293). -/
def bulkOp (rd : Bool) (master a n : Nat) (data : List Byte) (s : State) : State :=
  placeHosts { s with bulk := { next := s.bulk.next + 1, ops := s.bulk.ops ++ [⟨s.bulk.next, rd, master, a, n, data⟩] } }

/-- A write of a context to DRAM (R292); while a channel is not ready it is discarded without a flag. The aperture's goes through the
command queues, the debug port's is made at once where they are quiet (log 77). -/
def ctxDramWrite (k master a : Nat) (data : List Byte) (s : State) : State :=
  let n := data.length
  if n = 0 ∨ s.md.mode = .standby then s
  else if !spanPresent s a n then dramHostFault s 10 a master 1
  else if !dramOwned s k a n then dramHostFault s 9 a master 1
  else if !spanReady s a n then s
  else if master = 9 then bulkOp false master a n data s
  else if dramQuiet s a n then (dramHostWrite master a data s).1
  else s

/-- A read of a context from DRAM through the aperture: the answer is zeros, or comes when its entries have completed. -/
def ctxDramRead (k master a n : Nat) (s : State) : State :=
  if n = 0 ∨ s.md.mode = .standby then busZero n s
  else if !spanPresent s a n then busZero n (dramHostFault s 10 a master 0)
  else if !dramOwned s k a n then busZero n (dramHostFault s 9 a master 0)
  else if !spanReady s a n then busZero n s
  else bulkOp true master a n [] (busReply [] s)

/-- A write of a context at an address of the aperture's spaces. -/
def ctxWrite (k master addr : Nat) (data : List Byte) (s : State) : State :=
  if addr < combSpace then ctxDramWrite k master addr data s else ctxCombWrite k master (addr - combSpace) data s

/-- A read of a context at an address of the aperture's spaces. -/
def ctxRead (k master addr n : Nat) (s : State) : State :=
  if addr < combSpace then ctxDramRead k master addr n s else ctxCombRead k master (addr - combSpace) n s

end Sys2Proof.Machine
end

