-- ==== Sys2Proof/Machine/CalStore.lean ====
section
/-! DEFINITION. Calibration records (R363 to R366): layout, validity, the records that stand, and the value in force for each
object. -/

namespace Sys2Proof.Machine

/-! ### Layout and validity (R363, R364) -/

/-- Payload bytes of a kind; 0 for a code that is no kind. -/
def calLen : Nat → Nat
  | 1 => 8
  | 2 => 8
  | 3 => 32
  | 4 => 8
  | 5 => 4
  | 6 => 8
  | _ => 0

/-- The objects of a kind. -/
def calIndexOk (kind index : Nat) : Bool :=
  match kind with
  | 1 => decide (index < 4096)
  | 2 => decide (index < 64)
  | 3 => decide (index < 128)
  | 4 => decide (index < 64)
  | 5 => decide (index < 16)
  | 6 => decide (index < 64)
  | _ => false

/-- G of a payload, Q4.28. -/
def calG (p : List Byte) : Int := sext 32 (ofLe (p.take 4))

/-- O of a payload. -/
def calO (p : List Byte) : Int := sext 32 (ofLe ((p.drop 4).take 4))

/-- The limit of O of a kind: offsets of a slot, codes of an auxiliary channel. -/
def calLim (kind : Nat) : Int := if kind = 1 then 2 ^ 20 else 4096

/-- The remapped granules of a spare map, 0xFFFF for an unused spare. -/
def spareList (p : List Byte) : List Nat := (upFrom 16 0).map fun i => ofLe ((p.drop (2 * i)).take 2)

/-- Granules of the bank a spare map is for. -/
def bankGranules (index : Nat) : Nat := if index % 2 = 0 then 6144 else 2048

/-- The values of a payload are in their ranges. -/
def calValuesOk (kind index : Nat) (p : List Byte) : Bool :=
  match kind with
  | 1 => decide (-calLim 1 ≤ calO p) && decide (calO p ≤ calLim 1)
  | 2 => decide (-calLim 2 ≤ calO p) && decide (calO p ≤ calLim 2)
  | 3 => (spareList p).all fun g => g = 0xFFFF || decide (g < bankGranules index)
  | _ => true

/-- A record with a good CRC and valid values; an empty payload is a tombstone, which only the user store has (R363). -/
def calValid (user : Bool) (r : CalRec) : Bool :=
  !r.bad && calIndexOk r.kind r.index &&
    ((user && r.payload.isEmpty) || (r.payload.length = calLen r.kind && calValuesOk r.kind r.index r.payload))

/-- The kinds that host software may write (R364). -/
def userKind (kind : Nat) : Bool := kind = 1 || kind = 2 || kind = 3

/-! ### The records that stand (R366) -/

/-- The key of a record as FIRST_ERR names it: INDEX in [15:0], KIND in [23:16]. -/
def calKey (kind index : Nat) : Nat := index + 65536 * kind

/-- The valid factory record of an object. -/
def factoryRec (s : State) (kind index : Nat) : Option CalRec :=
  s.dev.otp.find? fun r => r.kind = kind && r.index = index && calValid false r

/-- The valid user record of an object with the highest SEQ, a tombstone or not. -/
def userNewest (l : List CalRec) (kind index : Nat) : Option CalRec :=
  l.foldl (fun o r =>
    if r.kind = kind ∧ r.index = index ∧ calValid true r then
      match o with
      | none => some r
      | some q => if q.seq < r.seq then some r else some q
    else o) none

/-- The user record that stands; a tombstone hides every older one. -/
def userRec (s : State) (kind index : Nat) : Option CalRec :=
  match userNewest s.dev.store kind index with
  | some r => if r.payload.isEmpty then none else some r
  | none => none

/-! ### Values in force (R365) -/

/-- Identity of G and O. -/
def calIdentity : Int × Int := (0x10000000, 0)

/-- G and O of a slot or an auxiliary channel: the product and the saturated sum of the two stores' values. -/
def calGO (s : State) (kind index : Nat) : Int × Int :=
  let v (o : Option CalRec) : Int × Int := match o with
    | some r => (calG r.payload, calO r.payload)
    | none => calIdentity
  match factoryRec s kind index, userRec s kind index with
  | some f, some u =>
    (rnd (calG f.payload * calG u.payload) (2 ^ 28),
      clamp (-calLim kind) (calLim kind) (calO f.payload + calO u.payload))
  | some f, none => v (some f)
  | none, o => v o

/-- The granules that a record's spare map remaps. -/
def spareUsed (o : Option CalRec) : List Nat :=
  match o with
  | some r => (spareList r.payload).filter (· ≠ 0xFFFF)
  | none => []

/-- The spares of a bank that the factory remapped. -/
def factorySpares (s : State) (index : Nat) : List Nat := spareUsed (factoryRec s 3 index)

/-- The granules that a bank's user record remaps beyond the factory's. -/
def fieldSpares (s : State) (index : Nat) : List Nat :=
  (spareUsed (userRec s 3 index)).filter fun g => !(factorySpares s index).contains g

/-- The transmit and receive latency of a colony port (R247): the factory record's or nominal. Log 25. -/
def phyLat (s : State) (k : Nat) : Nat × Nat :=
  match factoryRec s 4 k with
  | some r => (ofLe (r.payload.take 4), ofLe (r.payload.drop 4))
  | none => (Config.nominalLat 4 k 0, Config.nominalLat 4 k 1)

/-- The ball-to-sampler delay of a swarm line (R248): the factory record's or nominal. Log 25. -/
def ballDelay (s : State) (l : Nat) : Nat :=
  match factoryRec s 5 l with
  | some r => ofLe r.payload
  | none => Config.nominalLat 5 l 0

/-! ### Spare maps (R137, R142) -/

/-- The spares of bank `index % 2` of hive `index / 2`. -/
def sparesOf (s : State) (index : Nat) : List Nat :=
  if index % 2 = 0 then (hiveAt s (index / 2)).sparesPlay else (hiveAt s (index / 2)).sparesCatch

/-- Set the spares of a bank. -/
def setSpares (index : Nat) (l : List Nat) (s : State) : State :=
  { s with hives := tmod {} s.hives (index / 2) fun h =>
      if index % 2 = 0 then { h with sparesPlay := l } else { h with sparesCatch := l } }

/-- A bank's supply has come: its map is the factory's (R137). -/
def factoryMap (index : Nat) (s : State) : State :=
  let s1 := setSpares index (factorySpares s index) s
  { s1 with hives := tmod {} s1.hives (index / 2) fun h => { h with bad := h.bad.filter fun b => b.1 ≠ index % 2 } }

/-- A granule of a bank is remapped to a spare, or marked bad where none is left (R142). -/
def groomFail (index granule : Nat) (s : State) : State :=
  let h := index / 2
  let g := h * 8192 + (if index % 2 = 0 then 0 else 6144) + granule
  let o : Occ := { block := .cmb, bit := 8, cls := 0, obj := 256 * g, master := 4, acc := 5, scope := [h],
                   owner := some (combRegion s (256 * g)).owner }
  if (sparesOf s index).length < 16 then raise (setSpares index (sparesOf s index ++ [granule]) s) o
  else
    let s1 := { s with hives := tmod {} s.hives h fun x => { x with bad := x.bad ++ [(index % 2, granule)] } }
    raise s1 { o with bit := 9, cls := if 0 < tget 0 s.active g then 2 else 1 }

/-- The keeper applies the remaps made in the field to a bank, where they are not in force yet (R137, R367). -/
def fieldMap (index : Nat) (s : State) : State :=
  ((fieldSpares s index).filter fun g => !(sparesOf s index).contains g).foldl (fun s g => groomFail index g s) s

end Sys2Proof.Machine
end

