-- ==== Sys2Proof/Machine/CtxCache.lean ====
section
/-! DEFINITION. The queue-context cache (R138, R151): fills, locked lines, errors. A queue's context is its record in State,
wherever its newest copy lies; the cache holds which contexts are in it, and whether the copy in DRAM is older. -/

namespace Sys2Proof.Machine

/-- Lines of the cache (R119, R150). -/
def cacheLines : Nat := 131072

/-- The line that holds a queue's context. -/
def lineOf (s : State) (i : Nat) : Option Nat := (s.inner.lines.find? fun p => p.2.queue = some i).map (·.1)

/-- The words of a line. -/
def lineWords (k : Nat) : List Nat := upFrom 4 (4 * k)

/-- Change a line. -/
def modLine (k : Nat) (f : CtxLine → CtxLine) (s : State) : State :=
  { s with inner := { s.inner with lines := tmod {} s.inner.lines k f } }

/-- A line that holds nothing and lies in no bad granule. -/
def lineFree (s : State) (k : Nat) : Bool :=
  (tget {} s.inner.lines k).queue.isNone && !(s.inner.cache.bad.contains (k / 8))

/-- The line that a fill takes: the lowest that is free, else one that is not locked. -/
def fillLine (s : State) : Option Nat :=
  match (upFrom (min cacheLines (s.inner.lines.length + 8 * s.inner.cache.bad.length + 1)) 0).find? (lineFree s) with
  | some k => some k
  | none =>
    let v := (s.inner.lines.filter fun p => !p.2.dirty).map (·.1)
    v[Config.cacheVictim s.free % v.length]?

/-- A context is fetched from DRAM into a line, which it writes whole; where the DRAM line is uncorrectable or its channel OFFLINE the
queue fails (R166, R301). -/
def ctxFill (i : Nat) (s : State) : State :=
  let a := s.ctxBase + 32 * i
  let s1 := touchLines 3 0 a 32 s
  if spanOffline s a 32 || linesUe s a 32 then offlineQueue i s1
  else
    match fillLine s1 with
    | some k => markInner false (lineWords k) (modLine k (fun _ => { queue := some i }) { s1 with free := s1.free + 1 })
    | none => s1

/-- The PQM reads a queue's context: an uncorrectable line that is clean is fetched again, one that is dirty is lost and its queue
fails (R138). -/
def ctxTouch (i : Nat) (s : State) : State :=
  match lineOf s i with
  | none => ctxFill i s
  | some k =>
    match (lineWords k).find? (innerUe s false) with
    | some w =>
      let dirty := (tget {} s.inner.lines k).dirty
      let s1 := raise (modLine k (fun _ => {}) s)
        { block := .cmb, bit := 3, cls := if dirty then 1 else 0, obj := innerCode false (8 * w), master := 3 }
      if dirty then offlineQueue i s1 else ctxFill i s1
    | none => (lineWords k).foldl (fun s w => touchInner false 3 w s) s

/-- A queue becomes live: its line is locked, and newer than DRAM from then on (DESIGN CHOICE, log 76). -/
def ctxLock (i : Nat) (s : State) : State :=
  let s1 := ctxTouch i s
  match lineOf s1 i with
  | some k => modLine k (fun l => { l with dirty := true }) s1
  | none => s1

/-- A queue is no longer live: its line is written back and may be replaced. -/
def ctxUnlock (i : Nat) (s : State) : State :=
  match lineOf s i with
  | some k => modLine k (fun l => { l with dirty := false }) s
  | none => s

end Sys2Proof.Machine
end

