-- ==== Sys2Proof/Machine/Syn.lean ====
section
/-! DEFINITION. The arithmetic of the synthesis path (spec/04): DDS, curves, resampler, gain, format. -/

namespace Sys2Proof.Machine

/-! ### DDS (R95 to R99) -/

/-- Lin(u) of R96 for u = i + f / 256. -/
def sineLin (i f : Nat) : Int :=
  if 1024 ≤ i then sineT 1024 else sineT i + rnd ((sineT (i + 1) - sineT i) * f) 256

/-- The signed quarter-wave value of a 32-bit phase (R96, steps 1 to 4). -/
def ddsSigma (theta : Nat) : Int :=
  let q := bits theta 30 2
  let p := bits theta 20 10 * 256 + bits theta 12 8
  let u := if q % 2 = 0 then p else 1024 * 256 - p
  let v := sineLin (u / 256) (u % 256)
  if q < 2 then v else -v

/-- The stage 1 value of a DDS sample (R96). -/
def ddsValue (a phase amp : Nat) : Int := rnd (amp * ddsSigma ((a / 65536 + phase) % 2 ^ 32)) (2 ^ 23)

/-- A DDS list entry (R95). -/
structure DdsEntry where
  dwell : Nat
  freq : Nat
  phase : Nat
  amp : Nat
  trans : Nat
  mark : Nat
  reserved : Nat
  deriving DecidableEq, Repr

/-- Take an entry apart. -/
def ddsEntryOf (v : Nat) : DdsEntry :=
  ⟨bits v 0 32, bits v 32 48, bits v 80 32, bits v 112 24, bits v 136 2, bits v 140 4, bits v 138 2 + bits v 144 112⟩

/-- Every field of an entry in range (R95). -/
def ddsEntryOk (e : DdsEntry) : Bool :=
  decide (1 ≤ e.dwell) && decide (e.amp ≤ 0x7FFFFF) && decide (e.trans < 3) && e.reserved = 0

/-- The ratio word with 0 standing for 2^40 (R55). -/
def ratioOf (r : Nat) : Nat := if r = 0 then 2 ^ 40 else r

/-- P_anchor of R99. -/
def ddsAnchor (freq ratio mRef n nRef : Nat) : Nat :=
  (freq * ratioOf ratio * mRef / 2 ^ 40 + freq * (n - nRef)) % 2 ^ 48

/-- A at the first sample of an entry (R98). -/
def ddsStart (e : DdsEntry) (a ratio mRef n nRef : Nat) : Nat :=
  match e.trans with
  | 0 => a
  | 1 => 0
  | _ => ddsAnchor e.freq ratio mRef n nRef

/-! ### Resampler (R101, R102) -/

/-- Whether a number is a power of two. -/
def isPow2 (n : Nat) : Bool := n ≠ 0 && 2 ^ Nat.log2 n = n

/-- The resampler is active: the ratio word is no power of two (R101). -/
def rsActive (ratio : Nat) : Bool := !isPow2 (ratioOf ratio)

/-- Raw table entry as a signed 24-bit number (log 10). -/
def rsRaw (p k : Nat) : Int := sext 24 (toField 24 (Config.resamplerRaw p k))

/-- Sum of raw entries of a phase from tap `k` on, the tap 11 left out. -/
def rsSum (p : Nat) : Nat → Nat → Int
  | 0, _ => 0
  | n + 1, k => (if k = 11 then 0 else rsRaw p k) + rsSum p n (k + 1)

/-- The coefficient of tap 11 that makes a phase sum to 2^22; phase 32 has tap 12 equal to it. -/
def rsMid (p : Nat) : Int := if p = 32 then 2 ^ 21 - rsSum 32 11 0 else 2 ^ 22 - rsSum p 24 0

/-- The open entries of a phase leave tap 11 a signed 24-bit number. -/
def rsFits (p : Nat) : Bool := decide (-(2 ^ 23) ≤ rsMid p) && decide (rsMid p < 2 ^ 23)

/-- h[p][k] for phases 0 to 31 and, by symmetry, 32: phase 0 the unit impulse at tap 11, every entry signed 24-bit and every
phase summing to 2^22 (R102); the other entries are open (log 10), and where they leave no such tap 11 the phase is an impulse. -/
def rsLow (p k : Nat) : Int :=
  if p = 0 then (if k = 11 then 2 ^ 22 else 0)
  else
    let j := if p = 32 ∧ 12 ≤ k then 23 - k else k
    if rsFits p then (if j = 11 then rsMid p else rsRaw p j)
    else if j = 11 then (if p = 32 then 2 ^ 21 else 2 ^ 22)
    else 0

/-- h[p][k] for phases 0 to 63, with h[p][k] = h[64 - p][23 - k] (R102). -/
def rsTable (p k : Nat) : Int := if p ≤ 32 then rsLow p k else rsLow (64 - p) (23 - k)

/-- h[p][k] for phases 0 to 64, h[64][k] = h[0][k - 1] (R102). -/
def rsPhase (p k : Nat) : Int := if p = 64 then (if k = 0 then 0 else rsTable 0 (k - 1)) else rsTable p k

/-- The remainder of R101 for the sample j after its reference. -/
def rsRem (j ratio : Nat) : Nat := (ratioOf ratio - j * 2 ^ 40 % ratioOf ratio) % ratioOf ratio

/-- The coefficient h_k for a remainder (R102). -/
def rsCoef (rem k : Nat) : Int :=
  let ph := rem / 2 ^ 34
  rsPhase ph k + rnd ((rsPhase (ph + 1) k - rsPhase ph k) * bits rem 18 16) (2 ^ 16)

/-- Sum of coefficient times sample over the taps given, oldest first. -/
def rsAcc (rem : Nat) : Nat → List Int → Int
  | _, [] => 0
  | k, v :: t => rsCoef rem k * v + rsAcc rem (k + 1) t

/-- The 24 tap values of a sample: 11 earlier (newest first in `hist`), the sample, 12 later; before the run's
first sample and after its last, that sample (R104). -/
def rsTaps (hist : List Int) (v : Int) (ahead : List Int) : List Int :=
  let h := hist.take 11
  let first := match h.getLast? with
    | some x => x
    | none => v
  let a := ahead.take 12
  let last := match a.getLast? with
    | some x => x
    | none => v
  List.replicate (11 - h.length) first ++ h.reverse ++ [v] ++ a ++ List.replicate (12 - a.length) last

/-- Stage 3. -/
def rsOut (j ratio : Nat) (hist : List Int) (v : Int) (ahead : List Int) : Int :=
  if rsActive ratio then rnd (rsAcc (rsRem j ratio) 0 (rsTaps hist v ahead)) (2 ^ 22) else v

/-! ### Curves (R106 to R108) -/

/-- Interpolation between two points at fraction f / 2^16. -/
def lerp (a b : Int) (f : Nat) : Int := a + rnd ((b - a) * f) (2 ^ 16)

/-- Unsigned envelope point `i` at a comb address. -/
def envPoint (s : State) (ca i : Nat) : Int := (bits (ofLe (memRead s.comb (ca + 4 * i) 4)) 0 24 : Nat)

/-- CA of envelope curve `k` of a hive. -/
def envAddr (s : State) (hive k : Nat) : Nat := combAddr hive 0 ((hiveAt s hive).curveBase + 4104 * k)

/-- The point index and fraction of a pass position (R107). -/
def envIndex (pos len : Nat) : Nat × Nat :=
  let w := pos * 2 ^ 26 / len
  (w / 65536, w % 65536)

/-- Stage 2. -/
def envOut (s : State) (ca pos len : Nat) (v : Int) : Int :=
  let i := envIndex pos len
  rnd (v * lerp (envPoint s ca i.1) (envPoint s ca (i.1 + 1)) i.2) (2 ^ 23)

/-- Signed predistortion point `i` at a comb address. -/
def pdPoint (s : State) (ca i : Nat) : Int := sext 32 (ofLe (memRead s.comb (ca + 4 * i) 4))

/-- Point index and fraction of a value (R108). -/
def pdIndex (v : Int) : Nat × Nat :=
  let x := (v + 2 ^ 23).toNat
  (x / 65536, x % 65536)

/-- Stage 6 through a curve. -/
def pdOut (s : State) (ca : Nat) (v : Int) : Int :=
  let i := pdIndex v
  lerp (pdPoint s ca i.1) (pdPoint s ca (i.1 + 1)) i.2

/-! ### Gain and format (R109, R112 to R115) -/

/-- Stages 4 and 7: gain in Q4.28 and offset. -/
def gainOut (g o v : Int) : Int := rnd (v * g) (2 ^ 28) + o

/-- C1: saturate to 24 bits. -/
def clip1 (v : Int) : Int := clamp (-(2 ^ 23)) (2 ^ 23 - 1) v

/-- WIDTH of a format word. -/
def fmtWidth (w : Nat) : Nat := bits w 4 5

/-- The reduced code of stage 8, before C2 (R113, step 1). -/
def fmtReduce (w : Nat) (b : Int) : Int :=
  let n := fmtWidth w
  if 24 ≤ n then b else (b + 2 ^ (23 - n)) / 2 ^ (24 - n)

/-- C2 (R113, step 2). -/
def fmtClip (w : Nat) (r : Int) : Int :=
  let n := fmtWidth w
  clamp (if bits w 0 2 = 2 then -(2 ^ (n - 1) - 1) else -(2 ^ (n - 1))) (2 ^ (n - 1) - 1) r

/-- Reverse the low `n` bits of a code word. -/
def bitRev (v : Nat) : Nat → Nat
  | 0 => 0
  | n + 1 => v % 2 * 2 ^ n + bitRev (v / 2) n

/-- The code word of a clipped value (R113, steps 3 and 4). -/
def fmtCode (w : Nat) (r : Int) : Nat :=
  let n := fmtWidth w
  let c := match bits w 0 2 with
    | 1 => (r + 2 ^ (n - 1)).toNat
    | 2 => (if r < 0 then 2 ^ (n - 1) else 0) + r.natAbs
    | _ => toField n r
  if bitOf w 3 then bitRev c n else c

/-- Container bits [31:8] of a value at stage 8 (R113, step 5). -/
def fmtPlace (w : Nat) (r : Int) : Nat :=
  let n := fmtWidth w
  let c := fmtCode w r
  if bitOf w 2 then
    (c + (if bits w 0 2 = 0 ∧ r < 0 then 2 ^ 24 - 2 ^ n else 0)) * 256
  else c * 2 ^ (32 - n)

/-- Stage 8: bits [31:8] of a container. -/
def fmtOut (w : Nat) (b : Int) : Nat := fmtPlace w (fmtClip w (fmtReduce w b))

/-- Whether C2 changes a value (R115). -/
def fmtClips (w : Nat) (b : Int) : Bool := fmtClip w (fmtReduce w b) ≠ fmtReduce w b

/-- The 16-bit code of an auxiliary output, before C2 (R114). -/
def auxRaw (b : Int) : Int := (b + 128) / 256 + 32768

/-- The code of an auxiliary output (R114). -/
def auxCode (b : Int) : Nat := (clamp 0 65535 (auxRaw b)).toNat

end Sys2Proof.Machine
end

