-- ==== Sys2Proof/Machine/Waggle.lean ====
section
/-! DEFINITION. The waggle event network (spec/08): raising events, hops, channels and their levels, task
inputs up to their decision, pins, routes. What a decided task does stands in Machine/Tasks.lean. -/

namespace Sys2Proof.Machine

/-! ### Channel entries and levels (R205, R207) -/

/-- ENABLE of a channel. -/
def chanEnabled (c : Chan) : Bool := bitOf c.entry.toNat 16

/-- EDGE of a channel. -/
def chanEdge (c : Chan) : Nat := bits c.entry.toNat 18 2

/-- LEVEL_MODE: TOGGLE. -/
def chanToggle (c : Chan) : Bool := bitOf c.entry.toNat 20

/-- FWD of a channel. -/
def chanFwd (c : Chan) : Bool := bitOf c.entry.toNat 21

/-- WATCH of a channel. -/
def chanWatch (c : Chan) : Bool := bitOf c.entry.toNat 22

/-- SHARE of a channel. -/
def chanShare (c : Chan) : Bool := bitOf c.entry.toNat 23

/-- EDGE passes an event of this level. -/
def edgePasses (edge : Nat) (level : Bool) : Bool := edge = 0 || (edge = 1 && level) || (edge = 2 && !level)

/-- Insert a change of level in order of origin tick, after those of the same tick. -/
def opInsert (t : Nat) (o : LvlOp) : List (Nat × LvlOp) → List (Nat × LvlOp)
  | [] => [(t, o)]
  | (k, p) :: r => if t < k then (t, o) :: (k, p) :: r else (k, p) :: opInsert t o r

/-- A level after one change. -/
def opApply (b : Bool) : LvlOp → Bool
  | .set v => v
  | .toggle => !b

/-- The level of a channel at a tick: every change with origin at or before it (R207). -/
def levelAt (ops : List (Nat × LvlOp)) (t : Nat) : Bool :=
  (ops.filter fun p => decide (p.1 ≤ t)).foldl (fun b p => opApply b p.2) false

/-- Fold the changes older than any gate can ask for into one. -/
def opPrune (ops : List (Nat × LvlOp)) (now : Nat) : List (Nat × LvlOp) :=
  let old := ops.filter fun p => decide (p.1 + 16384 ≤ now)
  let new := ops.filter fun p => decide (now < p.1 + 16384)
  match old.getLast? with
  | none => new
  | some p => (p.1, .set (levelAt old p.1)) :: new

/-- The level of a pin (EVP 0 to 31, SWL 32 to 47) as stamped for a tick. -/
def pinLevelAt (s : State) (p t : Nat) : Bool :=
  match (pinAt s p).hist.find? fun h => decide (h.1 ≤ t) with
  | some h => h.2
  | none => decide (32 ≤ p)

/-- The level of a gate source at a tick (R67, R68, R209). -/
def gateLevel (s : State) (src t : Nat) : Bool :=
  if src < 512 then levelAt (chanAt s src).ops t else pinLevelAt s (src - 512) t

/-- A gate at an event's origin tick: 0 always, 1 when high, 2 when low. -/
def gateTrue (s : State) (gate src t : Nat) : Bool :=
  gate = 0 || (gate = 1 && gateLevel s src t) || (gate = 2 && !gateLevel s src t)

/-- Codes of gate sources that exist. -/
def gateSrcOk (src : Nat) : Bool := decide (src < 560)

/-! ### Modes (R216) -/

/-- The network carries events; in STANDBY and SAFE it does not. FACTORY carries, as for its tests
(DESIGN CHOICE, log 19). -/
def wagCarries (s : State) : Bool := unitMode s ≠ .standby && unitMode s ≠ .safe

/-- Counters and timers run. -/
def wagCounts (s : State) : Bool :=
  let m := unitMode s
  m = .idle || m = .run || m = .calibrate || m = .factory

/-- Cell and capture inputs act, for a cell or channel: in RUN, and in CALIBRATE entered from RUN outside the calibration set
(R18, R216; DEDUCED, log 73). -/
def wagActs (s : State) (c : Nat) : Bool :=
  unitMode s = .run || (unitMode s = .calibrate && (unitCal s).1 = .run && !(unitCal s).2.contains c)

/-- Pin outputs act (R216); in REPLAY they are computed but not driven. -/
def wagPins (s : State) : Bool :=
  let m := unitMode s
  m = .idle || m = .run || m = .calibrate || m = .factory

/-- Swarm lines are driven. -/
def wagSwarm (s : State) : Bool :=
  let m := unitMode s
  m = .run || m = .calibrate || m = .factory

/-! ### Raising events (R202, R203, R206) -/

/-- SRC_ID of class, kind and index. -/
def srcIdOf (cls kind index : Nat) : Nat := pack [(10, index), (3, kind), (3, cls)]

/-- A producer raises an event: its first hop, to the channels it is the source of, takes 2 ticks. -/
def produce (s : State) (src origin : Nat) (level : Bool) (gen : Nat) (taint : Bool := false) : State :=
  { s with hops := s.hops ++ [⟨origin + 2, ⟨origin, 0, level, gen, src, taint⟩, .producer, false⟩] }

/-- A fault of the waggle block. -/
def wagFault (s : State) (bit cls obj : Nat) (owner : Option Nat) : State :=
  raise s { block := .wag, bit := bit, cls := cls, obj := obj, owner := owner }

/-! ### Task inputs (R208, R209, R213) -/

/-- What a task number names. -/
inductive TaskKind where
  | cell (c k : Nat)
  | cap (c k : Nat)
  | pin (p : Nat)
  | swarm (l : Nat)
  | counter (i k : Nat)
  | timer (i k : Nat)
  deriving DecidableEq, Repr

/-- The input of a task number, if there is one (R208). -/
def taskKind (t : Nat) : Option TaskKind :=
  if t < 0x2000 then (if t % 8 = 7 then none else some (.cell (t / 8) (t % 8)))
  else if t < 0x2800 then some (.cap ((t - 0x2000) / 2) (t % 2))
  else if t < 0x2820 then some (.pin (t - 0x2800))
  else if t < 0x2830 then some (.swarm (t - 0x2820))
  else if t < 0x2840 then none
  else if t < 0x28C0 then some (.counter ((t - 0x2840) / 2) (t % 2))
  else if t < 0x2900 then none
  else if t < 0x2980 then some (.timer ((t - 0x2900) / 2) (t % 2))
  else none

/-- The task number of a cell input. -/
def cellTask (c k : Nat) : Nat := 8 * c + k

/-- The owner of the object a task input belongs to (R219). -/
def taskOwner (s : State) (t : Nat) : Own :=
  match taskKind t with
  | some (.cell c _) => cellOwner s c
  | some (.cap c _) => cellOwner s c
  | some (.pin p) => (pinAt s p).own
  | some (.swarm l) => (pinAt s (32 + l)).own
  | some (.counter i _) => (ctrAt s i).own
  | some (.timer i _) => (tmrAt s i).own
  | none => {}

/-- Whether an input is a cell or capture input, which holds at most 8 decision ticks (R213). -/
def taskBounded (t : Nat) : Bool := decide (t < 0x2800)

/-- The channel, VALID, GATE and GATE_SRC of a subscription slot (R209). -/
def slotOf (w : Word) : Nat × Bool × Nat × Nat :=
  (bits w.toNat 0 9, bitOf w.toNat 9, bits w.toNat 10 2, bits w.toNat 12 10)

/-- The slots of a task that name a channel. -/
def slotsFor (t : Task) (w : Nat) : List (Nat × Bool × Nat × Nat) :=
  (t.slots.map slotOf).filter fun x => x.2.1 && x.1 = w

/-- Some gate of a held event is true at its origin tick, so far as the events that bear on it have come. -/
def heldGate (s : State) (e : TaskEv) : Bool := e.gates.any fun g => gateTrue s g.1 g.2 e.ev.origin

/-- The decision ticks that an input holds events for. -/
def heldTicks (s : State) (k : Task) : List Nat := ((k.held.filter fun x => heldGate s x.2).map (·.1)).eraseDups

/-- An event reaches a task input at tick `now`: late (R40), dropped at a full input, or held until its decision tick (R213). Its
gate is judged there, when every event with an origin at or before its own has come (R207, R209). -/
def taskReceive (now t : Nat) (ev : Event) (s : State) : State :=
  let k := taskAt s t
  let dec := ev.origin + horizonAt s ev.origin
  let own := some (taskOwner s t).owner
  let e : TaskEv := ⟨ev, (slotsFor k ev.channel).map fun x => (x.2.2.1, x.2.2.2), k.scope⟩
  if dec < now + 16 then
    if heldGate s e then wagFault (jstate (modTask s t fun k => { k with late := true }) 9 t 1 ev.srcId) 3 1 t own
    else modTask s t fun k => { k with gated := true }
  else if taskBounded t && heldGate s e && (heldTicks s k).length = 8 && !(heldTicks s k).contains dec then
    wagFault (modTask s t fun k => { k with overrun := true, ovrCount := sat 0xFFFF k.ovrCount }) 0 1 t own
  else modTask s t fun k => { k with held := k.held ++ [(dec, e)] }

/-- Tasks that subscribe to a channel. -/
def subscribers (s : State) (w : Nat) : List Nat :=
  (s.tasks.filter fun p => !(slotsFor p.2 w).isEmpty).map (·.1)

/-! ### Colony forwarding (R253) -/

/-- The payload of an EVENT frame: the event record with the source device number (R202, R242). -/
def eventPayload (ev : Event) (dev : Nat) : BitVec 128 :=
  BitVec.ofNat 128 (pack [(60, ev.origin), (4, 0), (9, ev.channel), (1, b2n ev.level), (3, ev.gen), (3, 0),
    (16, ev.srcId), (6, dev)])

/-- Queue a frame on a colony port. -/
def colDue (s : State) (port : Nat) (f : DueFrame) : State := modPort s port fun p => { p with due := p.due ++ [f] }

/-- The star ports of a manager that are UP or JOINED. -/
def starUp (s : State) : List Nat := (upFrom 63 1).filter fun k => decide (2 ≤ (portAt s k).st)

/-- Send an event to the colony: a worker on CL_MGR that is UP (R239), a manager on every CL_Wk that is UP; not while COL's
LOCAL reaction suspends forwarding (R416). -/
def colonySend (s : State) (ev : Event) (dev : Nat) : State :=
  if s.col.suspended then s
  else
    let f : DueFrame := { rank := if s.col.role = 1 then 2 else 1, hdr := 2, payload := eventPayload ev dev,
                          dec := ev.origin + horizonAt s ev.origin, channel := ev.channel }
    if s.col.role = 1 then (starUp s).foldl (fun s k => colDue s k f) s
    else if s.col.role = 2 ∧ 2 ≤ (portAt s 0).st then colDue s 0 f
    else s

/-! ### Hops (R206, R207, R214, R218) -/

/-- An event completes a hop onto a channel: its level, the generation cut, WATCH, and its next hop. -/
def chanReceive (now w : Nat) (ev0 : Event) (inj : Bool) (s : State) : State :=
  let c := chanAt s w
  let ev := { ev0 with channel := w }
  let edge := edgePasses (chanEdge c) ev.level
  if 8 ≤ ev.gen then
    if chanEnabled c && edge then
      wagFault (modChan s w fun c => { c with loopCut := true, loopSrc := ev.srcId }) 2 1 w (some c.own.owner)
    else s
  else
    let s1 :=
      if chanToggle c then
        if edge then modChan s w fun c => { c with ops := opPrune (opInsert ev.origin .toggle c.ops) now } else s
      else modChan s w fun c => { c with ops := opPrune (opInsert ev.origin (.set ev.level) c.ops) now }
    if chanEnabled c && edge then
      let s2 := modChan s1 w fun c => { c with count := c.count + 1, seen := c.seen || chanWatch c }
      let s3 := if chanWatch c then irq s2 c.own.owner 4 else s2
      { s3 with hops := s3.hops ++ [⟨now + 2, ev, .leave w, inj⟩] }
    else s1

/-- The channels an event from a producer reaches: those whose SOURCE it is, a disabled one with entry 0 among them (SOURCE 0x0000,
R207); a keeper SOURCE carries only events raised by name (R205, R217). -/
def sourceChannels (s : State) (src : Nat) : List Nat :=
  if src / 0x2000 = 5 then []
  else
    (if src = 0 then upFrom 512 0 else s.chans.map (·.1)).filter fun w => !chanRelay (chanAt s w) && chanSource (chanAt s w) = src

/-- The relays of a channel. -/
def relaysOf (s : State) (w : Nat) : List Nat :=
  (s.chans.filter fun p => chanRelay p.2 && p.2.entry.toNat % 512 = w).map (·.1)

/-- One hop completes (R206): onto the channels of a producer, onto one channel, or from a channel to its
relays, its task inputs and the colony transmitter. -/
def hopDone (s : State) (h : Hop) : State :=
  match h.src with
  | .producer => (sourceChannels s h.ev.srcId).foldl (fun s w => chanReceive h.due w h.ev h.injected s) s
  | .onto w => chanReceive h.due w h.ev h.injected s
  | .leave w =>
    let s1 := (relaysOf s w).foldl (fun s v => chanReceive h.due v h.ev h.injected s) s
    let s2 := (subscribers s w).foldl (fun s t => taskReceive h.due t h.ev s) s1
    if chanFwd (chanAt s w) && !h.injected then colonySend s2 h.ev s.col.devnum else s2

/-- The hop that completes first. -/
def firstHop : List Hop → Option Hop
  | [] => none
  | h :: t =>
    match firstHop t with
    | none => some h
    | some g => if g.due < h.due then some g else some h

/-- A command changes what hops go by: routes, subscriptions, levels (R220). -/
def routeCmd : Instr → Bool
  | .wagChanSet .. => true
  | .wagTaskSet .. => true
  | .wagClear .. => true
  | _ => false

/-- EVENT_HOP (R206): the first hop due by now completes, after every change of routes decided by then (R220); no event is carried in
STANDBY and SAFE (R216). -/
def eventHop (s : State) : State :=
  match firstHop s.hops with
  | none => s
  | some h =>
    if decide (s.time.tick < h.due) || s.held.any fun x => routeCmd x.cmd && decide (x.dec ≤ h.due) then s
    else
      let s1 := { s with hops := s.hops.erase h }
      if wagCarries s then hopDone s1 h else s1

/-- EVENT_HOP: R206. -/
def execEventHop (s : State) : Host.Outcome State Fault Refusal := act s eventHop

/-! ### Routes (R39, R206, R253) -/

/-- Hops from a producer to a channel within the device, along its relays; 0 past `fuel` relays. -/
def hopsTo (s : State) : Nat → Nat → Nat
  | 0, _ => 0
  | n + 1, w =>
    let c := chanAt s w
    if chanRelay c then 1 + hopsTo s n (chanSource c % 512) else 1

/-- Hops to a channel on the longest way, which crosses the colony at most once: a crossing counts as
25 + D_MAX hops. -/
def hopsFar (s : State) : Nat → Nat → Nat
  | 0, _ => 0
  | n + 1, w =>
    let c := chanAt s w
    let here := if chanFwd c then hopsTo s (n + 1) w + 25 + s.col.dMax else hopsTo s (n + 1) w
    if chanRelay c then max here (1 + hopsFar s n (chanSource c % 512)) else here

/-- Hops of the longest route to a task input through a channel. -/
def routeHops (s : State) (w : Nat) : Nat := hopsFar s 513 w + 1

/-- The relays from a channel come back to it. -/
def relayCycle (s : State) (w : Nat) : Nat → Nat → Bool
  | 0, _ => true
  | n + 1, v =>
    let c := chanAt s v
    chanRelay c && (chanSource c % 512 = w || relayCycle s w n (chanSource c % 512))

/-- The hop limit under H (R39). -/
def hopLimit (h : Nat) : Nat := (h - 16) / 2

/-- The channels that some task input subscribes to. -/
def subscribed (s : State) : List Nat :=
  (s.tasks.flatMap fun p => (p.2.slots.map slotOf).filterMap fun x => if x.2.1 then some x.1 else none).eraseDups

/-- The longest route on the device (MAX_HOPS of R242). -/
def maxHops (s : State) : Nat :=
  (subscribed s).foldl (fun m w => if chanEnabled (chanAt s w) then max m (routeHops s w) else m) 0

/-- The routes under a command that sets a channel or a task input. -/
def routeSet (i : Instr) (s : State) : State :=
  match i with
  | .wagChanSet _ w e => modChan s w fun c => { c with entry := e }
  | .wagTaskSet _ t slots scope => modTask s t fun k => { k with slots := slots, scope := scope }
  | _ => s

/-- A command closes a cycle of relays. -/
def closesCycle (s : State) : Instr → Bool
  | .wagChanSet _ w _ => chanRelay (chanAt s w) && relayCycle s w 513 w
  | _ => false

/-- Put a command behind those of its decision tick. -/
def insertDec (p : Nat × Instr) : List (Nat × Instr) → List (Nat × Instr)
  | [] => [p]
  | q :: t => if p.1 < q.1 then p :: q :: t else q :: insertDec p t

/-- The changes of routes that wait for their ticks, in order. -/
def routeCmds (s : State) : List (Nat × Instr) :=
  s.held.foldl (fun l x => if routeCmd x.cmd then insertDec (x.dec, x.cmd) l else l) []

/-- Some of the changes, made in turn, leaves a relay cycle or a route beyond the limit of a horizon (R39, R206). -/
def routesBad (h : Nat) : List (Nat × Instr) → State → Bool
  | [], _ => false
  | p :: t, s =>
    let s1 := routeSet p.2 s
    closesCycle s1 p.2 || decide (hopLimit h < maxHops s1) || routesBad h t s1

/-- A change of routes decided at `dec`, among those that wait, breaks R206. -/
def routeBreaks (s : State) (dec : Nat) (i : Instr) : Bool := routesBad s.time.horizon (insertDec (dec, i) (routeCmds s)) s

/-! ### Who may use what (R219) -/

/-- A channel that a context may take events from: its own, or non-secure with SHARE. -/
def chanShared (s : State) (k w : Nat) : Bool :=
  let c := chanAt s w
  owns s k c.own || (!c.own.secure && chanShare c)

/-- A gate source that a context may gate on. -/
def gateMay (s : State) (k src : Nat) : Bool :=
  if src < 512 then chanShared s k src else owns s k (pinAt s (src - 512)).own || !(pinAt s (src - 512)).own.secure

/-! ### Pins (R210, R216, R221) -/

/-- `WAG_EPOCH` counts (R224). -/
def bumpWag (s : State) : State := { s with wagEpoch := s.wagEpoch + 1 }

/-- Keep the newest stamped levels of a pin. -/
def histAdd (t : Nat) (b : Bool) (l : List (Nat × Bool)) : List (Nat × Bool) :=
  let keep := l.takeWhile fun p => decide (t < p.1 + 16384)
  (t, b) :: (keep ++ (l.drop keep.length).take 1)

/-- Change a pin; a new level of an output, driven at this tick, is the level sampled from the next one on (R36, R207). -/
def drivePin (p : Nat) (f : Pin → Pin) (s : State) : State :=
  modPin s p fun x =>
    let y := f x
    let t := s.time.tick + 1
    if y.output && pinLevelAt s p t ≠ y.drive then { y with hist := histAdd t y.drive y.hist } else y

/-- Drive an output pin to its idle level; a pulse in progress ends. -/
def pinIdle (p : Nat) (s : State) : State := drivePin p (fun x => { x with drive := x.idle, pulseEnd := none }) s

/-- Every output pin goes to its idle level and swarm drive is released (R216), counted in `WAG_EPOCH` where a
pin level changes. -/
def pinsToIdle (s : State) : State :=
  let ch := s.pins.any fun p => decide (p.1 < 32) && p.2.output && (p.2.drive ≠ p.2.idle || p.2.pulseEnd.isSome)
  let s1 := forUp (fun p s => if (pinAt s p).output then pinIdle p s else s) 32 0 s
  let s2 := { s1 with col := { s1.col with drives := [], asserted := [] } }
  if ch then bumpWag s2 else s2

/-- The level a device drives on an EVP output: the idle level where the mode does not let it act. -/
def pinDriven (s : State) (p : Nat) : Bool :=
  let x := pinAt s p
  if wagPins s && s.md.mode ≠ .replay then x.drive else x.idle

/-- An event-pin edge sampled at this tick (R36, R204): journaled and, on an input whose level changed, an
event with this tick as its origin; a level in STANDBY is stamped for gates only; an output has the level it drives; a tick has one sample (R204). In REPLAY
live pins are ignored (R440). -/
def evpEdge (pin : Nat) (level : Bool) (s : State) : State :=
  let t := s.time.tick
  let x := pinAt s pin
  if !s.time.ready || pinLevelAt s pin t = level || s.md.mode = .replay || x.output || x.hist.head?.any (fun p => decide (t ≤ p.1)) then s
  else if s.md.mode = .standby then modPin s pin fun x => { x with hist := histAdd t level x.hist }
  else
    let ev : Event := { origin := t, channel := 0, level := level, gen := 0, srcId := srcIdOf 2 0 pin }
    let s1 := jput (modPin s pin fun x => { x with hist := histAdd t level x.hist }) t (.event ev false)
    if wagCarries s then produce s1 (srcIdOf 2 0 pin) t level 0 else s1

/-- PIN_PULSE_END (R210): a PULSE whose WIDTH has passed goes back to the idle level. -/
def pinPulseEnd (p : Nat) (s : State) : State :=
  match (pinAt s p).pulseEnd with
  | none => s
  | some t => if t ≤ s.time.tick then pinIdle p s else s

/-- PIN_PULSE_END: R210. -/
def execPinPulseEnd (pin : Nat) (s : State) : Host.Outcome State Fault Refusal :=
  actOn (decide (pin < 32)) s (pinPulseEnd pin)

/-! ### Timers (R210, R211) -/

/-- Expiries still to come after one. -/
def expiryLeft (t : Timer) : Option Nat := t.remaining.map (· - 1)

/-- TICK_TIMER_EXPIRY (R211): at its expiry tick the timer raises an event where timers run, and the expiry
counts in every mode; a STOP or a `WAG_TIMER_SET` decided by then comes first (R210, R221), and one event a tick is raised at most
(R204). -/
def tickTimerExpiry (i : Nat) (s : State) : State :=
  let t := tmrAt s i
  let stops := (taskAt s (0x2901 + 2 * i)).held.any fun e => decide (e.1 ≤ t.next)
  if !t.running || decide (s.time.tick < t.next) || stops || s.held.any fun x => setsTimer x.cmd && decide (x.dec ≤ t.next) then s
  else
    let stop := expiryLeft t = some 0
    let raise := (wagCounts s || s.md.mode = .replay) && t.raised ≠ some t.next
    let t1 := { t with remaining := expiryLeft t, running := !stop, next := if stop then t.next else t.next + t.period,
                       raised := if raise then some t.next else t.raised }
    let s1 := { s with timers := tset {} s.timers i t1 }
    if raise then produce s1 (srcIdOf 3 0 i) t.next true t.gen t.taint else s1
where setsTimer : Instr → Bool
  | .wagTimerSet _ j .. => j = i
  | _ => false

/-- TICK_TIMER_EXPIRY: R211. -/
def execTickTimerExpiry (timer : Nat) (s : State) : Host.Outcome State Fault Refusal :=
  actOn (decide (timer < 64)) s (tickTimerExpiry timer)

end Sys2Proof.Machine
end

