-- ==== Sys2Proof/Machine/Walk.lean ====
section
/-! DEFINITION. The per-sample walk of a cell (spec/03): step tables, streams, passing on, loops, jumps' dead
time, underrun, LATE, markers, containers and signatures. -/

namespace Sys2Proof.Machine

/-! ### Steps (R66) -/

/-- One step of a step table. -/
structure StepRow where
  source : Nat
  rep : Nat
  loopCount : Nat
  next : Nat
  level : Nat
  loopOpen : Bool
  loopClose : Bool
  jmap : Nat
  gapped : Bool
  segTrig : Bool
  segBit : Bool
  fin : Bool
  marks : Nat
  width : Nat
  reserved : Nat
  deriving DecidableEq, Repr

/-- Take a step apart. -/
def stepOf (v : Nat) : StepRow :=
  { source := bits v 0 12, rep := bits v 16 32, loopCount := bits v 48 32, next := bits v 80 12, level := bits v 92 2,
    loopOpen := bitOf v 94, loopClose := bitOf v 95, jmap := bits v 96 8, gapped := bitOf v 104,
    segTrig := bitOf v 105, segBit := bitOf v 106, fin := bitOf v 107, marks := bits v 108 8, width := bits v 116 12,
    reserved := bits v 12 4 }

/-- CA of step `i` of a cell's table. -/
def stepAddr (c : Nat) (x : Cell) (i : Nat) : Nat :=
  combAddr (hiveOf c) 0 ((match x.arm with | some a => a.stepBase | none => 0) + 16 * i)

/-- Step `i` of a cell. -/
def stepAt (s : State) (c : Nat) (x : Cell) (i : Nat) : StepRow := stepOf (ofLe (memRead s.comb (stepAddr c x i) 16))

/-- Whether a marker uses mode 0b10. -/
def usesPulse (st : StepRow) : Bool := (upFrom 4 0).any fun i => bits st.marks (2 * i) 2 = 2

/-! ### DDS lists and streams (R64, R95, R147) -/

/-- The entry a pass position falls in, from entry `i` of `n` on: its index and the offset inside it. -/
def ddsFind (s : State) (ca : Nat) : Nat → Nat → Nat → Nat × Nat
  | 0, i, pos => (i, pos)
  | n + 1, i, pos =>
    let e := ddsEntryOf (ofLe (memRead s.comb (ca + 32 * i) 32))
    if pos < e.dwell then (i, pos) else ddsFind s ca n (i + 1) (pos - e.dwell)

/-- Sum of the dwells of a list. -/
def ddsLen (s : State) (ca : Nat) : Nat → Nat
  | 0 => 0
  | n + 1 => (ddsEntryOf (ofLe (memRead s.comb ca 32))).dwell + ddsLen s (ca + 32) n

/-- Samples of one pass of a source (R64). -/
def passLen (s : State) (hive : Nat) (d : SrcDesc) : Nat :=
  if d.kind = 3 then ddsLen s (combAddr hive 0 d.addr) d.length else d.length

/-- Bytes of a stored sample: FMT 2 is S24P (R147, R150). -/
def fmtBytes (fmt : Nat) : Nat := if fmt = 2 then 3 else 2

/-- The value of a stored sample (R93, R94). -/
def storedValue (fmt : Nat) (l : List Byte) : Int := if fmt = 2 then sext 24 (ofLe l) else sext 16 (ofLe l) * 256

/-- The block that holds a stream byte. -/
def blockAt (q : Queue) (byte : Nat) : Option Blk :=
  q.blocks.find? fun b => decide (b.off ≤ byte) && decide (byte < b.off + b.len) && !b.discard

/-- Comb address of a byte of a block. -/
def blockAddr (hive : Nat) (q : Queue) (b : Blk) (byte : Nat) : Nat :=
  combAddr hive 0 ((q.bufBase + b.buf) * 4096 + (byte - b.off))

/-- The stored bytes from a stream byte on, where every one is resident by tick `t` (R160, R161). -/
def streamBytes (s : State) (hive : Nat) (q : Queue) (t : Nat) : Nat → Nat → Option (List Byte)
  | 0, _ => some []
  | n + 1, byte =>
    match blockAt q byte with
    | none => none
    | some b =>
      match b.resident with
      | none => none
      | some r =>
        if t < r then none
        else (streamBytes s hive q t n (byte + 1)).map (memByte s.comb (blockAddr hive q b byte) :: ·)

/-- The position moves on by one sample: blocks it has passed free their buffers, those in flight are discarded
when they land (R156, R164). -/
def streamStep (q : Queue) : Queue :=
  let pos := q.pos + 1
  let b := fmtBytes q.fmt
  let q1 := q.blocks.map fun k => if k.off + k.len ≤ pos * b ∧ k.resident.isNone then { k with discard := true } else k
  { q with pos := pos, blocks := q1.filter fun k => !(decide (k.off + k.len ≤ pos * b) && k.resident.isSome) }

/-! ### What a sample plays (R90) -/

/-- Stages 1 and 2 of one sample: the s1 value, the comb spans read, whether it is missing (R161), its DDS
accumulator before and after, MARK of its entry, the pass length, its queue. -/
structure Play where
  v : Int
  spans : List (Nat × Nat)
  missing : Bool := false
  empty : Bool := false
  dds : Bool := false
  a : Nat := 0
  aNext : Nat
  mark : Nat := 0
  len : Nat
  queue : Option Nat := none

/-- The sample at the position of a walk; `adv` counts the samples that a look ahead has already taken from
each queue, and `t` is the deadline (R161). -/
def playAt (s : State) (c : Nat) (x : Cell) (adv : Tab Nat) (t : Nat) : Play :=
  let h := hiveOf c
  let st := stepAt s c x x.step
  let d := srcDesc s h st.source
  let base := [(stepAddr c x x.step, 16), (combAddr h 0 (tableOff s h + 32 * st.source), 32)]
  let len := passLen s h d
  let env := envAddr s h d.envelope
  let ei := envIndex x.pos len
  let shape (v : Int) : Int := if d.envelope = 0xFF then v else envOut s env x.pos len v
  let espans := if d.envelope = 0xFF then [] else [(env + 4 * ei.1, 8)]
  if d.kind = 1 then
    let n := if d.format = 1 then 3 else 2
    let ca := combAddr h 0 (d.addr + n * x.pos)
    { v := shape (storedValue (d.format + 1) (memRead s.comb ca n)), spans := base ++ [(ca, n)] ++ espans,
      aNext := x.ddsA, len := len }
  else if d.kind = 2 then
    let qi := 1024 * c + d.queue
    let q := queueAt s qi
    let n := fmtBytes (d.format + 1)
    match streamBytes s h q t n ((q.pos + tget 0 adv qi) * n) with
    | some l => { v := shape (storedValue (d.format + 1) l), spans := base ++ espans, aNext := x.ddsA, len := len, queue := some qi }
    | none => { v := 0, spans := base, missing := true, empty := q.mode = 0 && q.head = q.tail && q.descOff = 0,
                aNext := x.ddsA, len := len, queue := some qi }
  else
    let la := combAddr h 0 d.addr
    let f := ddsFind s la d.length 0 x.pos
    let e := ddsEntryOf (ofLe (memRead s.comb (la + 32 * f.1) 32))
    let a := if f.2 = 0 then ddsStart e x.ddsA x.ratio x.mRef x.n x.nRef else x.ddsA
    { v := shape (ddsValue a e.phase e.amp), spans := base ++ [(la + 32 * f.1, 32)] ++ espans, dds := true, a := a,
      aNext := (a + e.freq) % 2 ^ 48, mark := e.mark, len := len }

/-! ### Passing on (R69 to R76) -/

/-- Loop level `l` of a cell. -/
def loopAt (x : Cell) (l : Nat) : LoopLvl := tget {} x.loops l

/-- Deactivate levels `l` to 3. -/
def loopsOff (l : Nat) (t : Tab LoopLvl) : Tab LoopLvl := t.filter fun p => decide (p.1 < l)

/-- Enter a step (R75): LOOP_OPEN acts unless by its own loop's back-jump. -/
def enterStep (s : State) (c i : Nat) (back : Bool) (x : Cell) : Cell :=
  let st := stepAt s c x i
  let x := { x with step := i, pos := 0, passes := 0 }
  if st.loopOpen && !back then { x with loops := tset {} (loopsOff st.level x.loops) st.level ⟨true, i, 0⟩ } else x

/-- What advancing a walk did: the walk, why it stopped (1 END, 2 LOOP_UNMATCHED, else 0), a loop's end. -/
structure Adv where
  x : Cell
  stop : Nat := 0
  loopEnd : Bool := false

/-- Leave a step after its last pass (R69, R71, R76). -/
def passOn (s : State) (c : Nat) (x : Cell) : Adv :=
  let st := stepAt s c x x.step
  let l := loopAt x st.level
  let dead := if st.gapped then 8 else 0
  if st.loopClose then
    if !l.active then { x := x, stop := 2 }
    else if st.loopCount = 0 ∨ l.done + 1 < st.loopCount then
      let x1 := { x with loops := tset {} x.loops st.level { l with done := sat 0xFFFFFFFF l.done } }
      { x := enterStep s c l.openStep true { x1 with dead := dead } }
    else
      let x1 := { x with loops := loopsOff st.level x.loops }
      if st.fin then { x := x1, stop := 1, loopEnd := true }
      else { x := enterStep s c st.next false { x1 with dead := dead }, loopEnd := true }
  else if st.fin then { x := x, stop := 1 }
  else { x := enterStep s c st.next false { x with dead := dead } }

/-- One sample of the pass has been played, or counted as played (R78). -/
def advance (s : State) (c len : Nat) (x : Cell) : Adv :=
  let x := { x with pos := x.pos + 1 }
  if x.pos < len then { x := x }
  else
    let x := { x with pos := 0, passes := x.passes + 1 }
    let st := stepAt s c x x.step
    if st.rep ≠ 0 ∧ x.passes = st.rep then passOn s c x else { x := x }

/-- What the resampler reads beyond a sample: values, whether one is missing, the spans read (R104, R105), and of the first
missing one the queue and whether its stream is dry. -/
structure Ahead where
  vals : List Int := []
  missing : Bool := false
  spans : List (Nat × Nat) := []
  queue : Option Nat := none
  empty : Bool := false

/-- Look up to `k` samples ahead of a walk that has been advanced: the run ends at a stop or dead time. -/
def lookAhead (s : State) (c t : Nat) : Nat → Adv → Tab Nat → Ahead
  | 0, _, _ => {}
  | k + 1, v, adv =>
    if v.stop ≠ 0 ∨ 0 < v.x.dead then {}
    else
      let x := { v.x with n := v.x.n + 1 }
      let p := playAt s c x adv t
      let adv1 := match p.queue with
        | some q => tmod 0 adv q (· + 1)
        | none => adv
      let r := lookAhead s c t k (advance s c p.len { x with ddsA := p.aNext }) adv1
      { vals := p.v :: r.vals, missing := p.missing || r.missing, spans := p.spans ++ r.spans,
        queue := if p.missing then p.queue else r.queue, empty := if p.missing then p.empty else r.empty }

/-! ### Signatures (R436, R442) -/

/-- First index at which two lists of piece checks differ. -/
def firstDiff : List Nat → List Nat → Nat → Option Nat
  | a :: s, b :: t, i => if a = b then firstDiff s t (i + 1) else some i
  | [], [], _ => none
  | _, _, i => some i

/-- A replayed block that differs from its SIG entry (R442): the first mismatch is kept, later ones counted. -/
def replayMismatch (c : Nat) (g : SigAcc) (pieces other : List Nat) (s : State) : State :=
  let r := s.rpl
  let d := firstDiff pieces other 0
  let i := match d with
    | some i => i
    | none => 0
  let cause := if g.starved then 2 else if g.lateLocal then 3 else 1
  let r1 := { r with mismatches := sat 0xFFFF r.mismatches,
                     stopAt := if r.stopAt.isNone && r.stopOn then some s.time.tick else r.stopAt }
  let r2 := if r.misValid then r1
    else { r1 with misValid := true, misCell := c, misCause := cause, coarse := d.isNone,
                   misN := 65536 * g.blk + 256 * i, misTick := (g.ticks.getD i g.last) - r.delta }
  { s with rpl := r2 }

/-- The SIG entry of a cell's block; blocks of later runs follow in order, each compared once. -/
def sigFor (c blk : Nat) (e : JEntry) : Bool :=
  match e.pay with
  | .sig cell k .. => cell = c && k = blk
  | _ => false

/-- The block a cell is forming closes: a SIG entry while recording, a comparison in replay (R436, R442). -/
def sigClose (c : Nat) (s : State) : State :=
  let x := cellAt s c
  let g := x.sig
  if g.count = 0 then s
  else
    let pieces := if g.count % 256 = 0 then g.pieces else g.pieces ++ [g.piece]
    let crc := Nat.xor g.crc 0xFFFFFFFF
    let s1 := { s with cells := tset {} s.cells c { x with sig := { blk := g.blk + 1 } } }
    if s.md.mode = .replay then
      match s.rpl.sigs.find? (sigFor c g.blk) with
      | none => s1
      | some e =>
        let s2 := { s1 with rpl := { s1.rpl with sigs := s1.rpl.sigs.erase e } }
        match e.pay with
        | .sig _ _ _ count k ps =>
          if s.rpl.notRepro.contains c || (count = g.count && k = crc && ps = pieces) then s2
          else replayMismatch c g pieces ps s2
        | _ => s2
    else jput s1 s.time.tick (.sig c g.blk g.last g.count crc pieces)

/-- Signatures are formed while recording with SIG_EN, and in replay. -/
def sigOn (s : State) : Bool := (s.jnl.st = 1 && s.jnl.sigEn) || s.md.mode = .replay

/-- A container enters the block of a RUNNING or PAUSED cell; the block closes at 65,536 samples. -/
def sigAdd (c tick : Nat) (word : Nat) (missing late : Bool) (s : State) : State :=
  let x := cellAt s c
  if !(sigOn s && (x.st = .running || x.st = .paused)) then s
  else
    let g := x.sig
    let b := le 4 word
    let start := g.count % 256 = 0
    let p := crc8 (if start then 0 else g.piece) b
    let n := g.count + 1
    let g1 := { g with count := n, crc := crc32Raw g.crc b, piece := p, last := tick,
                       pieces := if n % 256 = 0 then g.pieces ++ [p] else g.pieces,
                       ticks := if start then g.ticks ++ [tick] else g.ticks,
                       starved := g.starved || missing, lateLocal := g.lateLocal || late }
    let s1 := { s with cells := tset {} s.cells c { x with sig := g1 } }
    if n = 65536 then sigClose c s1 else s1

/-! ### Containers (R72, R73, R85, R86, R113, R114) -/

/-- The format word of a cell: its entry of its target link, or the word of TARGET none (R112). -/
def cellFormat (s : State) (x : Cell) : Nat :=
  if x.target.kind = 0 then (tget (0x180 : Word) (linkAt s (x.target.num / 256)).formats x.format).toNat else 0x180

/-- The bridge value of a cell (R72). -/
def bridgeValue (x : Cell) : Int :=
  match x.bridge with
  | 0 => x.hold
  | 1 => 0
  | _ => x.park

/-- Marker-edge events between two marker levels (R86). -/
def markerEdges (c origin old new : Nat) (s : State) : State :=
  forUp (fun i s =>
    if bitOf old i = bitOf new i then s
    else produce s (srcIdOf 0 (4 + i) c) origin (bitOf new i) (cellAt s c).gen (cellAt s c).tainted) 4 0 s

/-- Sample `n` leaves with value `b` at stage 8, marker levels and bits [3:0]: the container or auxiliary code,
clipping, marker edges, signature, and the next index of the grid. -/
def deliver (c tick : Nat) (b : Int) (marks low : Nat) (missing late : Bool) (s : State) : State :=
  let x := cellAt s c
  let isAux := x.target.kind = 1
  let w := cellFormat s x
  let clip := if isAux then auxCode b ≠ auxRaw b else fmtClips w b
  let word := if isAux then auxCode b else fmtOut w b + 16 * marks + low
  let x1 := { x with out := BitVec.ofNat 32 word, outValid := true, n := x.n + 1, markers := marks,
                     emitCount := BitVec.ofNat 32 x.n, clipOut := x.clipOut || clip,
                     clipOutCount := if clip then sat 0xFFFFFFFF x.clipOutCount else x.clipOutCount }
  let s1 := { s with cells := tset {} s.cells c x1 }
  let s2 := if isAux then
      (if wagActs s c && !(s.md.mode = .calibrate && s.md.calAux.getLsbD x.target.num) then
        auxSet x.target.num (auxCode b) tick s1 else s1)
    else s1
  sigAdd c tick word missing late (markerEdges c tick x.markers marks s2)

/-- A bridge sample (R73). -/
def bridgeSample (c tick : Nat) (late : Bool) (s : State) : State :=
  let x := cellAt s c
  deliver c tick (bridgeValue x) 0 (4 + x.bridge) false late s

/-- The marker levels of a step at a pass position (R85). -/
def markersAt (st : StepRow) (pos len mark : Nat) (dds : Bool) : Nat :=
  pack ((upFrom 4 0).map fun i =>
    (1, match bits st.marks (2 * i) 2 with
      | 0 => 0
      | 1 => 1
      | 2 => b2n (decide (pos < min st.width len))
      | _ => if dds then b2n (bitOf mark i) else 0))

/-! ### Stopping, and releasing what an arm activated -/

/-- An arm that made a queue live ends (R145, R151, R156). -/
def queueRelease (q : Nat) (s : State) : State :=
  let s1 := modQueue s q fun y => { y with live := y.live - 1, st := if y.live = 1 ∧ y.st = .streaming then .opened else y.st }
  if (queueAt s q).live = 1 then ctxUnlock q s1 else s1

/-- The activation an arm made ends (R65, R131), and its queues are no longer live. -/
def releaseAreas (a : ArmInfo) (s : State) : State := a.queues.foldl (fun s q => queueRelease q s) (deactivate s a.areas)

/-- The arm of a cell that leaves ARMED, RUNNING, PAUSED or REFLOCK is released. -/
def releaseArm (c : Nat) (s : State) : State :=
  let x := cellAt s c
  match x.arm with
  | none => s
  | some a => releaseAreas a { s with cells := tset {} s.cells c { x with arm := none } }

/-- The hive's source table stops being active when nothing keeps it so (R131). -/
def releaseTable (hive : Nat) (s : State) : State :=
  let h := hiveAt s hive
  if h.srcUsers && !tableBusy s hive then
    deactivate { s with hives := tset {} s.hives hive { h with srcUsers := false } } [tableArea s hive]
  else s

/-- A run of missing samples ends (R163, R165): journaled, and its length in LAST_GAP. -/
def endGap (c : Nat) (s : State) : State :=
  let x := cellAt s c
  if x.gapRun = 0 then s
  else
    let s1 := { s with cells := tset {} s.cells c { x with gapRun := 0, lastGap := min x.gapRun 0xFFFFFFFF } }
    jput s1 s.time.tick (.gap false c x.gapQ x.gapFirst x.gapRun (if x.slip then 3 else if x.gapEmpty then 2 else 1))

/-- A LATE run ends: journaled (R54). -/
def endLate (c : Nat) (s : State) : State :=
  let x := cellAt s c
  if x.lateRun = 0 then s
  else jput { s with cells := tset {} s.cells c { x with lateRun := 0 } } s.time.tick (.late c x.lateFirst x.lateRun)

/-- A cell leaves RUNNING, PAUSED or ARMED for BOUND: its runs and its signature block close, its tables are
released (R60, R65, R436). -/
def toBound (c : Nat) (st : CellSt) (s : State) : State :=
  let s1 := sigClose c (endLate c (endGap c s))
  let s2 := releaseArm c s1
  let s3 := modCell s2 c fun x =>
    { x with st := st, step := 0, pos := 0, passes := 0, dead := 0, next := none, loops := [], hist := [], entering := false }
  releaseTable (hiveOf c) s3

/-! ### One sample (R43, the per-sample walk) -/

/-- Base edge of the next sample of a cell's grid. -/
def nextEdge (x : Cell) : Nat := sampleEdge x.mRef (x.n - x.nRef) (ratioOf x.ratio)

/-- A run of missing samples begins or goes on (R163): flags, counts, one UNDERRUN event and notice a run. `q` is the queue whose
data is missing, `dry` says that its stream holds nothing more. -/
def countMissing (c tick q : Nat) (dry : Bool) (s : State) : State :=
  let x := cellAt s c
  let first := x.gapRun = 0
  let x1 := { x with gapRun := x.gapRun + 1, gapFirst := if first then x.n else x.gapFirst,
                     gapQ := if first then q % 1024 else x.gapQ, gapEmpty := if first then dry else x.gapEmpty,
                     gapCount := if first then sat 0xFFFFFFFF x.gapCount else x.gapCount,
                     flags := x.flags ||| 0x40 ||| (if x.slip then 0x200 else 0),
                     underrunCount := sat 0xFFFFFFFF x.underrunCount,
                     slipTotal := if x.slip then sat 0xFFFFFFFF x.slipTotal else x.slipTotal,
                     inGap := true, hist := [] }
  let s1 := { s with cells := tset {} s.cells c x1 }
  if first then
    raise (produce s1 (srcIdOf 0 2 c) tick true x.gen x.tainted)
      { block := .pqm, bit := 7, cls := 0, obj := q, owner := some (cellOwner s c).owner }
  else s1

/-- A LATE sample (R54): flags, count, class 2 fault, the hive's LATE. -/
def countLate (c : Nat) (s : State) : State :=
  let x := cellAt s c
  let x1 := { x with lateRun := x.lateRun + 1, lateFirst := if x.lateRun = 0 then x.n else x.lateFirst,
                     lateCount := sat 0xFFFFFFFF x.lateCount, flags := x.flags ||| 0x80, hist := [],
                     lateInject := x.lateInject - 1 }
  let s1 := { s with cells := tset {} s.cells c x1 }
  let s2 := { s1 with hives := tmod {} s1.hives (hiveOf c) fun h => { h with lateWin := true } }
  raise s2 { block := .cel, bit := 0, cls := 2, obj := c, owner := some (cellOwner s c).owner }

/-- A jump's target is entered where its dead time is over (R80). -/
def enterTarget (s : State) (c : Nat) (x : Cell) : Cell :=
  if x.entering ∧ x.dead = 0 then { enterStep s c x.step false x with entering := false } else x

/-- The instant of the next sample, or a decision before it, comes: the cell goes where the last sample left it; END and
LOOP_UNMATCHED take it to BOUND (R60, R69, R77). -/
def takeNext (c : Nat) (s : State) : State :=
  let x := cellAt s c
  match x.next with
  | none => s
  | some p =>
    let x1 := { x with step := p.step, pos := p.pos, passes := p.passes, loops := p.loops, dead := p.dead, next := none,
                       hist := if 0 < p.dead then [] else x.hist }
    let s1 := { s with cells := tset {} s.cells c (enterTarget s c x1) }
    if p.stop = 1 then toBound c .bound (modCell s1 c fun y => { y with flags := y.flags ||| 1 })
    else if p.stop = 2 then
      raise (toBound c .bound (modCell s1 c fun y => { y with flags := y.flags ||| 0x20 }))
        { block := .cel, bit := 1, cls := 1, obj := c, owner := some (cellOwner s c).owner }
    else s1

/-- The walk after a sample: LOOP_END has this sample as its origin; the cell moves on at the next one (R60, R77). -/
def applyAdv (c tick : Nat) (v : Adv) (s : State) : State :=
  let x := cellAt s c
  let y := v.x
  let p : NextPos := { step := y.step, pos := y.pos, passes := y.passes, dead := y.dead, loops := y.loops, stop := v.stop }
  let s1 := { s with cells := tset {} s.cells c { x with next := some p } }
  if v.loopEnd then produce s1 (srcIdOf 0 1 c) tick true x.gen x.tainted else s1

/-- The position of the queue a sample plays from moves on. -/
def stepQueue (q : Option Nat) (s : State) : State :=
  match q with
  | some i => modQueue s i streamStep
  | none => s

/-- The first sample of a pass of a SEG_TRIG step raises SEG_START (R86). -/
def segStart (c tick : Nat) (st : StepRow) (s : State) : State :=
  let x := cellAt s c
  if st.segTrig && x.pos = 0 then produce s (srcIdOf 0 0 c) tick true x.gen x.tainted else s

/-- An uncorrectable word on a cell fetch stops the cell at this sample (R138). -/
def ueStop (c tick ca : Nat) (s : State) : State :=
  let s1 := combFault (touchWord 0 3 (ca / 8) s) 1 2 (8 * (ca / 8)) 0 3
  let s2 := jstate (toBound c .bound s1) 1 c (cellCode .bound) 1
  bridgeSample c tick false (modCell s2 c fun x => { x with inGap := false })

/-- In replay, whether the journal imposes a gap (cause 1 to 3) or LATE (cause 0) on a sample (R440). -/
def imposedAt (s : State) (c n : Nat) (late : Bool) : Bool :=
  s.md.mode = .replay && s.rpl.imposed.any fun p =>
    p.1 = c && decide (p.2.1 ≤ n) && decide (n < p.2.1 + p.2.2.1) && (decide (p.2.2.2 = 0) == late)

/-- A sample of a RUNNING cell outside dead time. -/
def runSample (c tick : Nat) (late : Bool) (s : State) : State :=
  let x := cellAt s c
  let st := stepAt s c x x.step
  let p := playAt s c x [] (tick - 32)
  let v := advance s c p.len { x with ddsA := p.aNext }
  let ah : Ahead := if rsActive x.ratio then lookAhead s c (tick - 32) 12 v (match p.queue with | some q => [(q, 1)] | none => []) else {}
  let pdCa := combAddr (hiveOf c) 0 x.pdAddr
  let s2 := rsOut (x.n - x.nRef) x.ratio x.hist p.v ah.vals
  let a := gainOut x.gU x.oU s2
  let pdSpan := if x.pdEn then [(pdCa + 4 * (pdIndex (clip1 a)).1, 8)] else []
  let spans := p.spans ++ ah.spans ++ pdSpan
  match spans.find? fun r => spanUe s r.1 r.2 with
  | some r => ueStop c tick r.1 s
  | none =>
    let sT := spans.foldl (fun s r => touchSpan 0 3 r.1 r.2 s) s
    let imposed := imposedAt s c x.n false
    let missing := p.missing || ah.missing
    if missing || imposed then
      let q := match if p.missing then p.queue else ah.queue with
        | some q => q
        | none => 0
      let sM := countMissing c tick q (if p.missing then p.empty else ah.empty) (endLate c sT)
      let sS := if x.slip then sM else segStart c tick st sM
      let sD := deliver c tick (bridgeValue x) 0 7 (s.md.mode = .replay && !imposed) false sS
      if x.slip then sD
      else applyAdv c tick v (stepQueue p.queue (modCell sD c fun y => { y with ddsA := p.aNext }))
    else
      let sG := endGap c sT
      let sG := modCell sG c fun y => { y with inGap := false }
      if late || decide (0 < x.lateInject) || imposedAt s c x.n true then
        let sL := segStart c tick st (countLate c sG)
        let sL := modCell sL c fun y => { y with ddsA := p.aNext }
        let sD := bridgeSample c tick (s.md.mode = .replay && !imposedAt s c x.n true) sL
        applyAdv c tick v (stepQueue p.queue sD)
      else
        let a' := clip1 a
        let pd := if x.pdEn then pdOut s pdCa a' else a'
        let b := gainOut x.gC x.oC pd
        let sE := segStart c tick st (endLate c sG)
        let sP := modCell sE c fun y =>
          { y with ddsA := p.aNext, ddsHi := if p.dds then BitVec.ofNat 32 (p.a / 65536) else y.ddsHi,
                   hist := p.v :: y.hist.take 10, hold := b, clipPre := y.clipPre || decide (a' ≠ a),
                   clipPreCount := if a' ≠ a then sat 0xFFFFFFFF y.clipPreCount else y.clipPreCount }
        let m := markersAt st x.pos p.len p.mark p.dds
        let sD := deliver c tick b m (8 * b2n (st.segBit && x.pos = 0)) false false sP
        applyAdv c tick v (stepQueue p.queue sD)

/-- One sample of a cell (R59): bridge containers in BOUND, ARMED and PAUSED and in dead time, the sequence in
RUNNING. -/
def emitSample (c tick : Nat) (late : Bool) (s : State) : State :=
  let s := takeNext c s
  let x := cellAt s c
  match x.st with
  | .off => s
  | .reflock => s
  | .bound => bridgeSample c tick false (modCell s c fun y => { y with inGap := false })
  | .armed => bridgeSample c tick false (modCell s c fun y => { y with inGap := false })
  | .paused => bridgeSample c tick false (modCell s c fun y => { y with inGap := false })
  | .running =>
    if 0 < x.dead then
      let p : NextPos := { step := x.step, pos := x.pos, passes := x.passes, dead := x.dead - 1, loops := x.loops }
      bridgeSample c tick false (endLate c (endGap c (modCell s c fun y => { y with next := some p, inGap := false })))
    else runSample c tick late s

/-- Whether a held command decides something about a cell's samples: its own commands and those of its group, an update of its
domain (R235), and changes of the mode (R62). -/
def actsOnCell (s : State) (c : Nat) : Instr → Bool
  | .cellBind _ cell .. => cell = c
  | .cellArm _ cell .. => cell = c
  | .cellStart _ u => cellOf u
  | .cellStop _ u => cellOf u
  | .cellPause _ u => cellOf u
  | .cellResume _ u => cellOf u
  | .cellRateSet _ cell _ => cell = c
  | .cellUnbind _ cell => cell = c
  | .cellReset _ cell => cell = c
  | .groupSet _ _ cells => cells.contains c
  | .domainSet _ d .. => (cellAt s c).st ≠ .off && (cellAt s c).domain = d
  | .cellClear _ cell _ => cell = c
  | .synClear _ cell _ => cell = c
  | .synConfig _ cell .. => cell = c
  | .synGainSet _ u .. => cellOf u
  | .synCalApply _ cell .. => cell = c
  | .modeSet .. => true
  | .warmReset .. => true
  | .calStart .. => true
  | _ => false
where cellOf (u : Sel) : Bool := if u.kind = 0 then u.num = c else u.num = (cellAt s c).group

/-- An event held at a task input whose decision can act on a cell: at its own inputs, and at START, STOP and PAUSE inputs scoped to its
group. -/
def taskActsOn (s : State) (c t : Nat) (e : TaskEv) : Bool :=
  t / 8 = c || (decide (t < 0x2000) && decide (4 ≤ t % 8) && e.scope ≠ 0x7F && e.scope = (cellAt s c).group)

/-- Some event held for a cell has a decision tick that satisfies `p` of its task number and that tick. -/
def cellEvent (s : State) (c : Nat) (p : Nat → Nat → Bool) : Bool :=
  s.tasks.any fun k => k.2.held.any fun e => taskActsOn s c k.1 e.2 && p k.1 e.1

/-- A decision that the sample at base edge `m` of a cell must wait for (R41, R62). -/
def decisionBefore (s : State) (c m : Nat) : Bool :=
  let d := domAt s (cellAt s c).domain
  (s.held.any fun x => actsOnCell s c x.cmd && decide (edgeAt d x.dec ≤ m)) ||
    cellEvent s c fun _ dec => decide (edgeAt d dec ≤ m)

/-- A cell's next sample of its grid is at or after a decision (R41); a cell that is not playing skips to it. -/
def caughtUp (s : State) (c dec : Nat) : Bool :=
  let x := cellAt s c
  let d := domAt s x.domain
  (x.st ≠ .running && x.st ≠ .paused) || !d.guardOpen || decide (edgeAt d dec ≤ nextEdge x)

/-- A decision of tick `dec` has acted on a cell (R62). -/
def noteActed (c dec : Nat) (s : State) : State :=
  if (cellAt s c).st = .off then s else { s with cells := tmod {} s.cells c fun x => { x with acted := dec + 1 } }

/-- SAMPLE_EMISSION (R43): the next sample of a cell's grid, once its instant has come, while the domain's
guard is open, and after every decision that affects it. -/
def sampleEmission (c : Nat) (late : Bool) (s : State) : State :=
  let x := cellAt s c
  let d := domAt s x.domain
  let m := nextEdge x
  if !d.guardOpen || x.st = .off || x.st = .reflock || decide (s.time.tick * d.num < m * d.den * d.div) ||
      decisionBefore s c m then s
  else emitSample c (edgeTick d m) late s

/-- SAMPLE_EMISSION: R43. -/
def execSampleEmission (cell : Nat) (late : Bool) (s : State) : Host.Outcome State Fault Refusal :=
  actOn (decide (cell < nCells s)) s (sampleEmission cell late)

end Sys2Proof.Machine
end

