-- ==== Sys2Proof/Machine/Cells.lean ====
section
/-! DEFINITION. The cell commands (spec/03): binding, arming, start, stop, pause, resume, rate, groups, clears and
resets, as accepted and as decided. -/

namespace Sys2Proof.Machine

/-! ### Rates (R17, R43, R56, R101) -/

/-- An output rate as a fraction of 100 MS/s: numerator and denominator. -/
def rateOf (s : State) (dom ratio : Nat) : Nat × Nat :=
  let d := domAt s dom
  (d.num * ratioOf ratio, d.den * d.div * 2 ^ 40)

/-- Whether one rate is at most another. -/
def rateLe (a b : Nat × Nat) : Bool := decide (a.1 * b.2 ≤ b.1 * a.2)

/-- Sum of two rates. -/
def rateAdd (a b : Nat × Nat) : Nat × Nat := (a.1 * b.2 + b.1 * a.2, a.2 * b.2)

/-- The greatest of some rates, 0 of none. -/
def rateMax (l : List (Nat × Nat)) : Nat × Nat := l.foldl (fun a b => if rateLe a b then b else a) (0, 1)

/-- The domain and target that a cell has at a tick: those of an accepted `CELL_BIND` decided by then, else those in force. -/
def bindAt (s : State) (c dec : Nat) : Option (Nat × Sel) :=
  let x := cellAt s c
  match s.held.findSome? fun h => match h.cmd with
      | .cellBind _ cell dom _ target .. => if cell = c ∧ h.dec ≤ dec then some (dom, target) else none
      | _ => none with
  | some b => some b
  | none => if x.st = .off then none else some (x.domain, x.target)

/-- The rates of a cell in force and pending (R56). -/
def cellRates (s : State) (c : Nat) : List (Nat × Nat) :=
  let x := cellAt s c
  (if x.st = .off then [] else [rateOf s x.domain x.ratio]) ++
    s.held.filterMap fun h =>
      match h.cmd with
      | .cellBind _ cell dom ratio .. => if cell = c then some (rateOf s dom ratio) else none
      | .cellRateSet _ cell ratio => if cell = c then (bindAt s c h.dec).map fun b => rateOf s b.1 ratio else none
      | _ => none

/-- The hive's rates with a new rate of cell `c` counted in. -/
def hiveRate (s : State) (c : Nat) (r : Nat × Nat) : Nat × Nat :=
  (upFrom 16 (16 * hiveOf c)).foldl
    (fun a i => rateAdd a (rateMax (cellRates s i ++ if i = c then [r] else []))) (0, 1)

/-- A rate outside 1 S/s to 100 MS/s, or a hive above 200 MS/s (R17, R56, R101). -/
def rateBad (s : State) (c dom ratio : Nat) : Bool :=
  let r := rateOf s dom ratio
  !rateLe r (1, 1) || !rateLe (1, 100000000) r || !rateLe (hiveRate s c r) (2, 1)

/-! ### Targets (R262, R266, R355) -/

/-- The cells bound to a target, in force or by an accepted command, other than `c` (R279). -/
def targetTaken (s : State) (c : Nat) (t : Sel) : Bool :=
  (s.cells.any fun p => p.1 ≠ c && p.2.st ≠ .off && p.2.target = t) ||
    s.held.any fun h =>
      match h.cmd with
      | .cellBind _ cell _ _ target .. => cell ≠ c && target = t
      | _ => false

/-- The hive reaches the lanes of a link (R262). -/
def reaches (hive : Nat) (l : Link) : Bool :=
  decide (l.firstLane / 4 ≤ hive / 8) && decide (hive / 8 ≤ (l.firstLane + l.l - 1) / 4)

/-- The ratio suits the slot rate of a link (R266). -/
def slotRateOk (l : Link) (ratio : Nat) : Bool :=
  decide (ratioOf ratio * 2 ^ l.j ≤ 2 ^ 40) && (l.j = 0 || isPow2 (ratioOf ratio))

/-- A target that `CELL_BIND` and `CELL_RATE_SET` reject (R266, R355). -/
def targetBad (s : State) (c dom ratio : Nat) (t : Sel) : Bool :=
  match t.kind with
  | 0 =>
    let l := linkAt s (t.num / 256)
    decide (4096 ≤ t.num) || l.st = .off || decide (l.m ≤ t.num % 256) || targetTaken s c t || l.domain ≠ dom ||
      !reaches (hiveOf c) l || !slotRateOk l ratio
  | 1 =>
    let r := rateOf s dom ratio
    decide (64 ≤ t.num) || !rateLe r (1, 1000) || targetTaken s c t ||
      (auxAt s t.num).own.owner ≠ (cellOwner s c).owner
  | 2 => t.num ≠ 0
  | _ => true

/-- The slot shift (R267): (φ − e) mod 2^J, φ the SYSREF delay. -/
def slotShift (s : State) (t : Sel) (dom e : Nat) : Nat :=
  if t.kind = 0 then
    let j := 2 ^ (linkAt s (t.num / 256)).j
    ((domAt s dom).srDelay + (j - e % j)) % j
  else 0

/-! ### Waiting commands (R57) -/

/-- The cells of a selector: one cell, or the members of a group. -/
def selCells (s : State) (u : Sel) : List Nat :=
  if u.kind = 0 then [u.num] else (s.cells.filter fun p => p.2.group = u.num).map (·.1)

/-- An accepted command that waits in a cell: a cell command, one of its group, or a gain change, which counts toward R57
(R117); of the other synthesis commands no rule says so (DEDUCED, log 20). -/
def cellWaits (s : State) (c : Nat) : Instr → Bool
  | .cellBind _ cell .. => cell = c
  | .cellArm _ cell .. => cell = c
  | .cellStart _ u => (selCells s u).contains c
  | .cellStop _ u => (selCells s u).contains c
  | .cellPause _ u => (selCells s u).contains c
  | .cellResume _ u => (selCells s u).contains c
  | .cellRateSet _ cell _ => cell = c
  | .cellUnbind _ cell => cell = c
  | .groupSet _ _ cells => cells.contains c
  | .cellClear _ cell _ => cell = c
  | .cellReset _ cell => cell = c
  | .synGainSet _ u .. => (selCells s u).contains c
  | _ => false

/-- Commands that wait in a cell. -/
def cellPending (s : State) (c : Nat) : Nat := heldCount s (cellWaits s c)

/-- Eight commands already wait in one of the cells. -/
def cellsFull (s : State) (l : List Nat) : Bool := l.any fun c => decide (8 ≤ cellPending s c)

/-- The context owns a cell; a cell the device has not is left to the argument check. -/
def ownsCell (s : State) (k c : Nat) : Bool := decide (nCells s ≤ c) || owns s k (cellOwner s c)

/-- The epoch unit of a selector: the cell; none of a group (R335). -/
def selUnit (u : Sel) : Option (Nat × Nat) := if u.kind = 0 then some (1, u.num) else none

/-- A selector that names no cell and no group. -/
def selBad (s : State) (u : Sel) : Bool :=
  if u.kind = 0 then decide (nCells s ≤ u.num) else decide (1 < u.kind) || decide (62 < u.num)

/-- A cell is OFF or BOUND. -/
def atRest (s : State) (c : Nat) : Bool := (cellAt s c).st = .off || (cellAt s c).st = .bound

/-- A cell command, as judged; `mode` and `checks` are the command's own. -/
def specCell (h : Hdr) (op c : Nat) (mode : Bool) (checks : Option Err) (s : State) : CSpec :=
  { op := op, unit := some (1, c), permitted := ownsCell s h.ctx c, modeOk := mode,
    err := if nCells s ≤ c then some .badArg else if cellsFull s [c] then some .pendingFull else checks }

/-- A cell command for a cell or a group. -/
def specSel (h : Hdr) (op : Nat) (u : Sel) (mode : Bool) (checks : Option Err) (s : State) : CSpec :=
  { op := op, unit := selUnit u, permitted := selBad s u || (selCells s u).all (ownsCell s h.ctx), modeOk := mode,
    err := if selBad s u then some .badArg else if cellsFull s (selCells s u) then some .pendingFull else checks }

/-- Set flags of a cell. -/
def setFlags (f : Word) (c : Nat) (s : State) : State := modCell s c fun x => { x with flags := x.flags ||| f }

/-- CMD_IGNORED (R58). -/
def ignored (c : Nat) (s : State) : State := setFlags 0x400 c s

/-! ### Binding (R55, R56) -/

/-- `CELL_BIND`: RESULT is `CELL_LINK`.SHIFT for the grid that the decision starts (R282). -/
def specCellBind (h : Hdr) (c dom ratio : Nat) (t : Sel) (bridge : Nat) (park : Int) (slip : Nat) (s : State) : CSpec :=
  let dec := if h.eff = 0 then s.time.tick + s.time.horizon else h.eff
  { specCell h 0x0300 c (modeLoad s)
      (if 3 < dom ∨ 2 ^ 40 ≤ ratio ∨ 2 < bridge ∨ park < -(2 ^ 23) ∨ 2 ^ 23 ≤ park ∨ 1 < slip then some .badArg
        else if !atRest s c ∨ cellPending s c ≠ 0 then some .badState
        else if rateBad s c dom ratio ∨ (slip = 1 ∧ (cellAt s c).group ≠ 63) ∨ targetBad s c dom ratio t then some .badArg
        else none) s with
    ready := decide (nCells s ≤ c) || decide (3 < dom) || (hiveReady s (hiveOf c) && (domAt s dom).guardOpen &&
      (decide (1 < t.kind) || s.kpr.cal) && (t.kind ≠ 1 || s.kpr.aux)),
    result := res [(4, slotShift s t dom (edgeAt (domAt s dom) dec))] }

/-- G_c and O_c of a target (R109, R111, R112, R350, R367): a TX slot's, or an auxiliary channel's G_a and O_a, the offset in
stage 7's units, 256 to a code (DEDUCED, log 50). -/
def targetCal (s : State) (t : Sel) : Int × Int :=
  if t.kind = 0 then tget (0x10000000, 0) s.svc.slotCal t.num
  else if t.kind = 1 then ((auxAt s t.num).gA, 256 * (auxAt s t.num).oA)
  else (0x10000000, 0)

/-- A bound cell's auxiliary channel is no longer bound to it. -/
def auxRelease (x : Cell) (s : State) : State :=
  if x.st ≠ .off ∧ x.target.kind = 1 then modAux s x.target.num fun a => { a with bound := none } else s

/-- The decision of `CELL_BIND` (R60, R72): the sample count of `EMIT_COUNT` starts again with the grid (DESIGN CHOICE, log 74). -/
def decCellBind (c dom ratio : Nat) (t : Sel) (bridge : Nat) (park : Int) (slip dec : Nat) (s : State) : State :=
  let x := cellAt s c
  if !atRest s c then ignored c s
  else
    let e := edgeAt (domAt s dom) dec
    let cal := targetCal s t
    let s1 := auxRelease x s
    let s2 := putCell s1 c
      { x with st := .bound, domain := dom, ratio := ratio, target := t, bridge := bridge, park := park, slip := slip = 1,
               hold := 0, mRef := e, nRef := 0, n := 0, ddsA := 0, gC := cal.1, oC := cal.2,
               shift := slotShift s t dom e, hist := [] }
    if t.kind = 1 then modAux s2 t.num fun a => { a with bound := some c } else s2

/-- What a cell loses with its binding. -/
def unbound (x : Cell) : Cell :=
  { x with st := .off, domain := 0, ratio := 0, target := ⟨2, 0⟩, bridge := 0, park := 0, slip := false, shift := 0, n := 0,
           nRef := 0, mRef := 0, gC := 0x10000000, oC := 0, outValid := false }

/-- `CELL_UNBIND`. -/
def specCellUnbind (h : Hdr) (c : Nat) (s : State) : CSpec := specCell h 0x0307 c (modeLoad s) none s

/-- The decision of `CELL_UNBIND` (R60). -/
def decCellUnbind (c : Nat) (s : State) : State :=
  let x := cellAt s c
  if x.st = .bound then putCell (auxRelease x s) c (unbound x) else ignored c s

/-! ### Arming (R65, R106, R133) -/

/-- WHERE (R65). -/
def whereWord (kind n : Nat) : List Byte := le 4 (pack [(28, n), (4, kind)])

/-- The arguments of `CELL_ARM`. -/
structure ArmArgs where
  stepBase : Nat
  stepCount : Nat
  jmapBase : Nat
  jmapCount : Nat
  firstStep : Nat

/-- The first number of a list that fails a check. -/
def firstBad (p : Nat → Bool) (l : List Nat) : Option Nat := l.find? fun i => !p i

/-- Whether step `v` of the table is in range (R66). -/
def stepOk (s : State) (hive : Nat) (a : ArmArgs) (st : StepRow) : Bool :=
  st.reserved = 0 && decide (st.source < (hiveAt s hive).srcCount) && (st.loopClose || st.loopCount = 0) &&
    decide (st.next < a.stepCount) && (decide (st.jmap < a.jmapCount) || st.jmap = 0xFF) &&
    (st.width ≠ 0 || !usesPulse st)

/-- One entry of a jump map (R67). -/
structure JumpRow where
  valid : Bool
  input : Nat
  gate : Nat
  target : Nat
  keep : Nat
  gateSrc : Nat
  reserved : Nat
  deriving DecidableEq, Repr

/-- Take a jump-map entry apart. -/
def jumpOf (v : Nat) : JumpRow :=
  ⟨bitOf v 0, bits v 1 2, bits v 3 2, bits v 8 12, bits v 20 4, bits v 24 10, bits v 5 3 + bits v 34 30⟩

/-- Whether a jump-map entry is in range. -/
def jumpOk (a : ArmArgs) (j : JumpRow) : Bool :=
  decide (j.gate < 3) && decide (j.target < a.stepCount) && gateSrcOk j.gateSrc && j.reserved = 0

/-- Step `i` of the tables of `CELL_ARM`. -/
def armStep (s : State) (hive : Nat) (a : ArmArgs) (i : Nat) : StepRow :=
  stepOf (ofLe (memRead s.comb (combAddr hive 0 (a.stepBase + 16 * i)) 16))

/-- The sources that the steps name, rising. -/
def armSources (s : State) (hive : Nat) (a : ArmArgs) : List Nat :=
  sortNat ((upFrom a.stepCount 0).map fun i => (armStep s hive a i).source).eraseDups

/-- Bytes of the play bank that a source takes, as offset and length. -/
def srcArea (d : SrcDesc) : Nat × Nat :=
  if d.kind = 1 then (d.addr, segBytes d) else if d.kind = 3 then (d.addr, 32 * d.length) else (0, 0)

/-- Whether a source may be armed (R64, R65, R106, R147): its descriptor, its list, its curve's number, its queue
open and of its FORMAT. -/
def srcArmOk (s : State) (c : Nat) (d : SrcDesc) : Bool :=
  let h := hiveOf c
  let q := queueAt s (1024 * c + d.queue)
  d.kind ≠ 0 && srcDescOk d (tableOff s h) && (d.envelope = 0xFF || decide (d.envelope < (hiveAt s h).envCount)) &&
    (d.kind ≠ 3 ||
      ((upFrom d.length 0).all (fun i => ddsEntryOk (ddsEntryOf (ofLe (memRead s.comb (combAddr h 0 (d.addr + 32 * i)) 32)))) &&
        decide (16 ≤ ddsLen s (combAddr h 0 d.addr) d.length))) &&
    (d.kind ≠ 2 || ((q.st = .opened || q.st = .streaming) && (q.fmt = 0 || q.fmt = d.format + 1)))

/-- An envelope curve lies below the table and every point is in range. -/
def envOk (s : State) (h k : Nat) : Bool :=
  let base := (hiveAt s h).curveBase + 4104 * k
  decide (base + 4104 ≤ tableOff s h) &&
    (upFrom 1025 0).all fun i => decide (ofLe (memRead s.comb (combAddr h 0 (base + 4 * i)) 4) ≤ 0x800000)

/-- A predistortion curve lies below the table and every point is in range. -/
def pdOk (s : State) (h ca : Nat) : Bool :=
  decide (ca + 1032 ≤ tableOff s h) &&
    (upFrom 257 0).all fun i =>
      let v := sext 32 (ofLe (memRead s.comb (combAddr h 0 (ca + 4 * i)) 4))
      decide (-(2 ^ 23) ≤ v) && decide (v ≤ 2 ^ 23)

/-- What an arm names, in the order of the checks: kind and number of WHERE, offset, length. -/
def armAreas (s : State) (c : Nat) (a : ArmArgs) : List (Nat × Nat × Nat × Nat) :=
  let h := hiveOf c
  let x := cellAt s c
  let ss := (armSources s h a).filter fun i => decide (i < (hiveAt s h).srcCount)
  let envs := sortNat ((ss.map fun i => (srcDesc s h i).envelope).filter fun k => decide (k < (hiveAt s h).envCount)).eraseDups
  [(0, 0, a.stepBase, 16 * a.stepCount), (0, 2, a.jmapBase, 64 * a.jmapCount)] ++
    (ss.map fun i => (3, i, srcArea (srcDesc s h i))) ++
    (envs.map fun k => (4, k, (hiveAt s h).curveBase + 4104 * k, 4104)) ++
    (if x.pdEn then [(5, 0, x.pdAddr, 1032)] else [])

/-- The tables of an arm lie in the play bank below the source-descriptor table, aligned (R65); the argument at
fault otherwise. -/
def armArgs (s : State) (hive : Nat) (a : ArmArgs) : Option Nat :=
  let lim := tableOff s hive
  if a.stepBase % 16 ≠ 0 ∨ lim < a.stepBase + 16 * a.stepCount then some 0
  else if a.stepCount = 0 ∨ 4096 < a.stepCount then some 1
  else if a.jmapBase % 64 ≠ 0 ∨ lim < a.jmapBase + 64 * a.jmapCount then some 2
  else if 255 < a.jmapCount then some 3
  else if a.stepCount ≤ a.firstStep then some 4
  else none

/-- The content checks of `CELL_ARM`: WHERE of the first failure. -/
def armWhere (s : State) (c : Nat) (a : ArmArgs) : Option (Nat × Nat) :=
  let h := hiveOf c
  let x := cellAt s c
  match firstBad (fun i => stepOk s h a (armStep s h a i)) (upFrom a.stepCount 0) with
  | some i => some (1, i)
  | none =>
    match firstBad (fun i => jumpOk a (jumpOf (ofLe (memRead s.comb (combAddr h 0 (a.jmapBase + 8 * i)) 8))))
        (upFrom (8 * a.jmapCount) 0) with
    | some i => some (2, i)
    | none =>
      let ss := armSources s h a
      let streams := (ss.map (srcDesc s h)).filter fun d => d.kind = 2
      match firstBad (fun i =>
          let d := srcDesc s h i
          srcArmOk s c d && (d.kind ≠ 2 || (streams.find? fun e => e.queue = d.queue).all fun e => e.format = d.format)) ss with
      | some i => some (3, i)
      | none =>
        let envs := sortNat ((ss.map fun i => (srcDesc s h i).envelope).filter fun k => k ≠ 0xFF).eraseDups
        match firstBad (envOk s h) envs with
        | some k => some (4, k)
        | none => if x.pdEn && !pdOk s h x.pdAddr then some (5, 0) else none

/-- The queues that an arm names, with their FMT. -/
def armQueues (s : State) (c : Nat) (a : ArmArgs) : List (Nat × Nat) :=
  (((armSources s (hiveOf c) a).map (srcDesc s (hiveOf c))).filter fun d => d.kind = 2).map
    (fun d => (1024 * c + d.queue, d.format + 1)) |>.eraseDups

/-- What an arm makes active (R131). -/
def armInfo (s : State) (c : Nat) (a : ArmArgs) : ArmInfo :=
  { stepBase := a.stepBase, stepCount := a.stepCount, jmapBase := a.jmapBase, jmapCount := a.jmapCount,
    firstStep := a.firstStep,
    areas := ((armAreas s c a).filter fun p => p.2.2.2 ≠ 0).map fun p => granules (combAddr (hiveOf c) 0 p.2.2.1) p.2.2.2,
    queues := (armQueues s c a).map (·.1) }

/-- Queues that are live (R145). -/
def liveQueues (s : State) : Nat := (s.queues.filter fun p => decide (0 < p.2.live)).length

/-- The step table and the jump maps of an arm, as far as they lie in the play bank. -/
def armTables (a : ArmArgs) : List (Nat × Nat × Nat × Nat) :=
  [(0, 0, a.stepBase, min (16 * a.stepCount) (0x180000 - a.stepBase)), (0, 2, a.jmapBase, min (64 * a.jmapCount) (0x180000 - a.jmapBase))]

/-- The first of some areas that is not the context's (R130). -/
def notOwned (s : State) (k c : Nat) (l : List (Nat × Nat × Nat × Nat)) : Option (Nat × Nat × Nat × Nat) :=
  l.find? fun p => p.2.2.2 ≠ 0 && !combOwned s k (combAddr (hiveOf c) 0 p.2.2.1) p.2.2.2

/-- The first jump-map entry whose gate the context may not use (R219). -/
def gateDenied (s : State) (k c : Nat) (a : ArmArgs) : Option Nat :=
  firstBad (fun i =>
    let j := jumpOf (ofLe (memRead s.comb (combAddr (hiveOf c) 0 (a.jmapBase + 8 * i)) 8))
    !j.valid || j.gate = 0 || !gateSrcOk j.gateSrc || gateMay s k j.gateSrc) (upFrom (8 * a.jmapCount) 0)

/-- The areas that an arm activates: its own, and the hive's source table where no arm has made it active yet (R131). -/
def armActive (s : State) (c : Nat) (a : ArmArgs) : List (Nat × Nat) :=
  (armInfo s c a).areas ++ if (hiveAt s (hiveOf c)).srcUsers then [] else [tableArea s (hiveOf c)]

/-- The result of the checks of `CELL_ARM`: error and RESULT. Ownership comes before content (R65), a word with an
uncorrectable error is a failed read (R138), then the limits of R131 and R151. -/
def armCheck (s : State) (k c : Nat) (a : ArmArgs) : Option (Err × List Byte) :=
  match notOwned s k c (armTables a) with
  | some p => some (.denied, whereWord p.1 p.2.1)
  | none =>
    match armArgs s (hiveOf c) a with
    | some i => some (.badArg, whereWord 0 i)
    | none =>
      let as := armAreas s c a
      match notOwned s k c as with
      | some p => some (.denied, whereWord p.1 p.2.1)
      | none =>
        if as.any fun p => spanUe s (combAddr (hiveOf c) 0 p.2.2.1) p.2.2.2 then some (.memError, [])
        else
          match gateDenied s k c a with
          | some i => some (.denied, whereWord 2 i)
          | none =>
            match armWhere s c a with
            | some w => some (.badArg, whereWord w.1 w.2)
            | none =>
              let new := (armQueues s c a).filter fun q => (queueAt s q.1).live = 0
              if activateOver s (armActive s c a) ∨ 65536 < liveQueues s + new.length then some (.badState, [])
              else none

/-- `CELL_ARM`'s read of a bad word is reported as UE_DATA (R138). -/
def armUe (c : Nat) (a : ArmArgs) (s : State) : State :=
  match (armAreas s c a).find? fun p => spanUe s (combAddr (hiveOf c) 0 p.2.2.1) p.2.2.2 with
  | some p => ueData s (combAddr (hiveOf c) 0 p.2.2.1) p.2.2.2 8 0
  | none => s

/-- An arm makes a queue live (R145, R147, R151, R156): its context is locked in the cache first. -/
def queueLive (q fmt : Nat) (s : State) : State :=
  modQueue (if (queueAt s q).live = 0 then ctxLock q s else s) q fun y =>
    { y with live := y.live + 1, fmt := if y.fmt = 0 then fmt else y.fmt, st := if y.st = .opened then .streaming else y.st }

/-- The activation an arm makes at acceptance (R65, R131, R147, R150), under the serial of its command. -/
def armAccept (c : Nat) (a : ArmArgs) (s : State) : State :=
  let h := hiveOf c
  let i := armInfo s c a
  let qs := armQueues s c a
  let s1 := activate s (armActive s c a)
  let s2 := if (hiveAt s1 h).srcUsers then s1 else modHive s1 h fun x => { x with srcUsers := true }
  let s3 := qs.foldl (fun s q => queueLive q.1 q.2 s) s2
  modCell s3 c fun x => { x with arms := x.arms ++ [(s3.kpr.nextSerial - 1, i)] }

/-- `CELL_ARM` (R65). -/
def specCellArm (h : Hdr) (c : Nat) (a : ArmArgs) (s : State) : CSpec :=
  let r := if nCells s ≤ c then none else armCheck s h.ctx c a
  { specCell h 0x0301 c (modeStart s [c]) (r.map (·.1)) s with
    ready := decide (nCells s ≤ c) || hiveReady s (hiveOf c),
    errData := match r with
      | some p => p.2
      | none => [],
    onReject := if r.map (·.1) = some .memError then armUe c a else id,
    onAccept := armAccept c a }

/-- The decision of `CELL_ARM`: ARMED, or its activation is released (R65). -/
def decCellArm (c serial : Nat) (s : State) : State :=
  let x := cellAt s c
  match x.arms.find? fun p => p.1 = serial with
  | none => s
  | some (_, i) =>
    let x1 := { x with arms := x.arms.filter fun p => p.1 ≠ serial }
    if x.st = .bound then putCell s c { x1 with st := .armed, arm := some i }
    else releaseTable (hiveOf c) (releaseAreas i (ignored c { s with cells := tset {} s.cells c x1 }))

/-! ### Start, stop, pause, resume, rate (R60, R82 to R84) -/

/-- n_D of R44, for a cell that only emits bridge samples. -/
def skipTo (s : State) (dec : Nat) (x : Cell) : Cell :=
  if x.st = .bound ∨ x.st = .armed then
    let k := edgeAt (domAt s x.domain) dec - x.mRef
    { x with n := max x.n (x.nRef + if k = 0 then 0 else (k - 1) * ratioOf x.ratio / 2 ^ 40 + 1) }
  else x

/-- In replay, an event that is decided on a TAINT makes the cell it reaches NOT_REPRO (R441). -/
def noteTaint (c : Nat) (taint : Bool) (s : State) : State :=
  if taint && s.md.mode = .replay && !s.rpl.notRepro.contains c then
    { s with rpl := { s.rpl with notRepro := s.rpl.notRepro ++ [c] } }
  else s

/-- A start reaches a cell at tick `dec`, by a command or by an event of generation `gen` (R60, R84, R235). -/
def startCell (c dec gen : Nat) (taint : Bool) (s : State) : State :=
  let s := takeNext c s
  let x := cellAt s c
  let d := domAt s x.domain
  let s := noteTaint c taint s
  match x.arm with
  | some a =>
    if x.st = .armed ∧ d.guardOpen ∧ wagActs s c then
      let e := edgeAt d dec
      let x1 := { x with st := .running, mRef := e, nRef := 0, n := 0, ddsA := 0, loops := [], hist := [], dead := 0,
                         gen := gen, tainted := taint, sig := {}, shift := slotShift s x.target x.domain e, entering := false,
                         haltAt := if x.haltAt = some (skipTo s dec x).n then some 0 else none }
      putCell s c (enterStep s c a.firstStep false x1)
    else setFlags 0x10 c s
  | none => setFlags 0x10 c s

/-- A stop reaches a cell; its later events carry generation `gen` (R60, R83, R214). -/
def stopCell (c gen : Nat) (taint : Bool) (s : State) : State :=
  let s := takeNext c s
  let st := (cellAt s c).st
  let s := noteTaint c taint s
  if st = .armed ∨ st = .running ∨ st = .paused then
    toBound c .bound (modCell s c fun x => { x with gen := gen, tainted := taint, haltAt := some x.n })
  else ignored c s

/-- A pause reaches a cell (R60, R83). -/
def pauseCell (c gen : Nat) (taint : Bool) (s : State) : State :=
  let s := takeNext c s
  let s := noteTaint c taint s
  if (cellAt s c).st = .running then
    modCell (endLate c (endGap c s)) c fun x =>
      { enterTarget s c { x with dead := 0 } with st := .paused, hist := [], gen := gen, tainted := taint, haltAt := some x.n }
  else ignored c s

/-- A resume reaches a cell (R60, R83); only a command resumes. -/
def resumeCell (c : Nat) (s : State) : State :=
  if (cellAt s c).st = .paused then
    modCell s c fun x => { x with st := .running, hist := [], gen := 0, tainted := false }
  else ignored c s

/-- A rate change reaches a cell (R82). -/
def rateCell (c ratio dec : Nat) (s : State) : State :=
  let x := cellAt s c
  if x.st = .running then
    let e := edgeAt (domAt s x.domain) dec
    putCell s c { x with mRef := e, nRef := x.n, ratio := ratio, shift := slotShift s x.target x.domain e }
  else ignored c s

/-- A group member rejects a start, pause or resume addressed to it alone (R88). -/
def memberAlone (s : State) (u : Sel) : Option Err :=
  if u.kind = 0 ∧ (cellAt s u.num).group ≠ 63 then some .badArg else none

/-- `CELL_START`. -/
def specCellStart (h : Hdr) (u : Sel) (s : State) : CSpec :=
  specSel h 0x0302 u (modeStart s (selCells s u)) (memberAlone s u) s

/-- `CELL_STOP`. -/
def specCellStop (h : Hdr) (u : Sel) (s : State) : CSpec := specSel h 0x0303 u (modeRest s) none s

/-- `CELL_PAUSE`. -/
def specCellPause (h : Hdr) (u : Sel) (s : State) : CSpec :=
  specSel h 0x0304 u (modeStart s (selCells s u)) (memberAlone s u) s

/-- `CELL_RESUME`. -/
def specCellResume (h : Hdr) (u : Sel) (s : State) : CSpec :=
  specSel h 0x0305 u (modeStart s (selCells s u)) (memberAlone s u) s

/-- `CELL_RATE_SET`, checked against the binding that the cell has at the decision tick; RESULT is the slot shift of the new
reference (R282). -/
def specCellRateSet (h : Hdr) (c ratio : Nat) (s : State) : CSpec :=
  let dec := if h.eff = 0 then s.time.tick + s.time.horizon else h.eff
  { specCell h 0x0306 c (modeStart s [c])
      (if 2 ^ 40 ≤ ratio then some .badArg
        else match bindAt s c dec with
          | none => none
          | some (dom, t) => if rateBad s c dom ratio ∨ targetBad s c dom ratio t then some .badArg else none) s with
    ready := decide (nCells s ≤ c) || match bindAt s c dec with
      | none => true
      | some (dom, _) => hiveReady s (hiveOf c) && (domAt s dom).guardOpen,
    result := res [(4, match bindAt s c dec with
      | none => 0
      | some (dom, t) => slotShift s t dom (edgeAt (domAt s dom) dec))] }

/-- Decide something for every cell of a selector. -/
def forSel (u : Sel) (f : Nat → State → State) (s : State) : State := (selCells s u).foldl (fun s c => f c s) s

/-! ### Groups, clears, resets (R60, R87, R89) -/

/-- `GROUP_SET` (R87). -/
def specGroupSet (h : Hdr) (g : Nat) (cells : List Nat) (s : State) : CSpec :=
  let members := if g = 63 then [] else selCells s ⟨1, g⟩
  { op := 0x0308, permitted := cells.all (ownsCell s h.ctx), modeOk := modeLoad s, absent := cells.any (beyond (nCells s) 1024),
    err := if 63 < g ∨ cells.any fun c => decide (nCells s ≤ c) then some .badArg
      else if cellsFull s cells then some .pendingFull
      else if !((cells ++ members).all (atRest s)) then some .badState
      else if cells.any fun c => (cellAt s c).slip then some .badArg
      else none }

/-- The decision of `GROUP_SET`; where a cell is no longer at rest or bound with SLIP it has no effect, and the cells named show
it (R58). -/
def decGroupSet (g : Nat) (cells : List Nat) (s : State) : State :=
  let members := if g = 63 then [] else selCells s ⟨1, g⟩
  if !((cells ++ members).all (atRest s)) || (cells.any fun c => (cellAt s c).slip) then
    cells.foldl (fun s c => ignored c s) s
  else cells.foldl (fun s c => modCell s c fun x => { x with group := g }) s

/-- `CELL_CLEAR`. -/
def specCellClear (h : Hdr) (c : Nat) (mask : DWord) (s : State) : CSpec :=
  specCell h 0x0309 c (modeRest s) (if cellMaskOk mask then none else some .badArg) s

/-- The decision of `CELL_CLEAR` (R474). -/
def decCellClear (c : Nat) (mask : DWord) (s : State) : State :=
  modCell s c fun x =>
    { x with flags := clearFlags mask x.flags, lateCount := clearTo mask 0 x.lateCount,
             underrunCount := clearTo mask 1 x.underrunCount, gapCount := clearTo mask 2 x.gapCount,
             slipTotal := clearTo mask 3 x.slipTotal, lastGap := clearTo mask 4 x.lastGap }

/-- `CELL_RESET`. -/
def specCellReset (h : Hdr) (c : Nat) (s : State) : CSpec := specCell h 0x030A c (modeRest s) none s

/-- An accepted command that waits in the store of cell `c` itself. -/
def waitsAt (c : Nat) (x : Held) : Bool :=
  match x.cmd with
  | .cellBind _ k .. => k = c
  | .cellArm _ k .. => k = c
  | .cellStart _ u => own u
  | .cellStop _ u => own u
  | .cellPause _ u => own u
  | .cellResume _ u => own u
  | .cellRateSet _ k _ => k = c
  | .cellUnbind _ k => k = c
  | .cellReset _ k => k = c
  | .cellClear _ k _ => k = c
  | .synClear _ k _ => k = c
  | .synConfig _ k .. => k = c
  | .synGainSet _ u .. => own u
  | .synCalApply _ k .. => k = c
  | _ => false
where own (u : Sel) : Bool := u.kind = 0 && u.num = c

/-- The decision of `CELL_RESET`: OFF, with binding, group membership, flags, counts and synthesis settings cleared and the
commands that wait at the cell discarded, the activations of its arms released (R60, R65, R117, R426); an armed injection stays. -/
def decCellReset (c : Nat) (s : State) : State :=
  let s0 := releaseArm c (sigClose c (endLate c (endGap c s)))
  let s1 := (cellAt s0 c).arms.foldl (fun s a => releaseAreas a.2 s) s0
  let x := cellAt s1 c
  let s2 := { s1 with held := s1.held.filter fun y => !waitsAt c y }
  restoreMark 5 [12, 13] (releaseTable (hiveOf c) (putCell (auxRelease x s2) c { epoch := x.epoch, lateInject := x.lateInject }))

/-! ### The commands -/

/-- CELL_BIND: R55. -/
def execCellBind (h : Hdr) (cell domain ratio : Nat) (target : Sel) (bridge : Nat) (park : Int) (slip : Nat) (s : State) :
    Host.Outcome State Fault Refusal :=
  berza h (.cellBind h cell domain ratio target bridge park slip) (specCellBind h cell domain ratio target bridge park slip s) s

/-- CELL_ARM: R65. -/
def execCellArm (h : Hdr) (cell stepBase stepCount jmapBase jmapCount firstStep : Nat) (s : State) :
    Host.Outcome State Fault Refusal :=
  berza h (.cellArm h cell stepBase stepCount jmapBase jmapCount firstStep)
    (specCellArm h cell ⟨stepBase, stepCount, jmapBase, jmapCount, firstStep⟩ s) s

/-- CELL_START: R60, R84. -/
def execCellStart (h : Hdr) (unit : Sel) (s : State) : Host.Outcome State Fault Refusal :=
  berza h (.cellStart h unit) (specCellStart h unit s) s

/-- CELL_STOP: R60, R83. -/
def execCellStop (h : Hdr) (unit : Sel) (s : State) : Host.Outcome State Fault Refusal :=
  berza h (.cellStop h unit) (specCellStop h unit s) s

/-- CELL_PAUSE: R60, R83. -/
def execCellPause (h : Hdr) (unit : Sel) (s : State) : Host.Outcome State Fault Refusal :=
  berza h (.cellPause h unit) (specCellPause h unit s) s

/-- CELL_RESUME: R60, R83. -/
def execCellResume (h : Hdr) (unit : Sel) (s : State) : Host.Outcome State Fault Refusal :=
  berza h (.cellResume h unit) (specCellResume h unit s) s

/-- CELL_RATE_SET: R82. -/
def execCellRateSet (h : Hdr) (cell ratio : Nat) (s : State) : Host.Outcome State Fault Refusal :=
  berza h (.cellRateSet h cell ratio) (specCellRateSet h cell ratio s) s

/-- CELL_UNBIND: R60. -/
def execCellUnbind (h : Hdr) (cell : Nat) (s : State) : Host.Outcome State Fault Refusal :=
  berza h (.cellUnbind h cell) (specCellUnbind h cell s) s

/-- GROUP_SET: R87. -/
def execGroupSet (h : Hdr) (group : Nat) (cells : List Nat) (s : State) : Host.Outcome State Fault Refusal :=
  berza h (.groupSet h group cells) (specGroupSet h group cells s) s

/-- CELL_CLEAR: R89, R474. -/
def execCellClear (h : Hdr) (cell : Nat) (mask : DWord) (s : State) : Host.Outcome State Fault Refusal :=
  berza h (.cellClear h cell mask) (specCellClear h cell mask s) s

/-- CELL_RESET: R60. -/
def execCellReset (h : Hdr) (cell : Nat) (s : State) : Host.Outcome State Fault Refusal :=
  berza h (.cellReset h cell) (specCellReset h cell s) s

end Sys2Proof.Machine
end

