-- ==== Sys2Proof/Machine/SynCmds.lean ====
section
/-! DEFINITION. The synthesis commands (spec/04, R117). -/

namespace Sys2Proof.Machine

/-- A gain and an offset in range (R91, R109). -/
def gainOk (g o : Int) (lim : Int) : Bool :=
  decide (-(2 ^ 31) ≤ g) && decide (g < 2 ^ 31) && decide (-lim ≤ o) && decide (o ≤ lim)

/-- `SYN_CONFIG`. -/
def specSynConfig (h : Hdr) (c format pdEn pdAddr : Nat) (gU oU : Int) (s : State) : CSpec :=
  { op := 0x0400, unit := some (1, c), permitted := ownsCell s h.ctx c, modeOk := modeLoad s,
    err := if nCells s ≤ c ∨ 15 < format ∨ 1 < pdEn ∨ !gainOk gU oU (2 ^ 24) ∨ pdAddr % 8 ≠ 0 ∨
        (pdEn = 1 ∧ tableOff s (hiveOf c) < pdAddr + 1032) then some .badArg
      else if !atRest s c then some .badState else none }

/-- The decision of `SYN_CONFIG`; without effect on a cell that is no longer OFF or BOUND. -/
def decSynConfig (c format pdEn pdAddr : Nat) (gU oU : Int) (s : State) : State :=
  if !atRest s c then ignored c s
  else modCell s c fun x => { x with format := format, pdEn := pdEn = 1, pdAddr := pdAddr, gU := gU, oU := oU }

/-- `SYN_GAIN_SET`. -/
def specSynGainSet (h : Hdr) (u : Sel) (gU oU : Int) (s : State) : CSpec :=
  { op := 0x0401, unit := selUnit u, permitted := selBad s u || (selCells s u).all (ownsCell s h.ctx), modeOk := modeLoad s,
    err := if selBad s u ∨ !gainOk gU oU (2 ^ 24) then some .badArg
      else if (selCells s u).any fun c => (cellAt s c).st = .off then some .badState
      else if cellsFull s (selCells s u) then some .pendingFull else none }

/-- The decision of `SYN_GAIN_SET` for one cell (R110); an OFF cell ignores it. -/
def decSynGainSet (c : Nat) (gU oU : Int) (s : State) : State :=
  if (cellAt s c).st = .off then ignored c s else modCell s c fun x => { x with gU := gU, oU := oU }

/-- A format word without reserved values (R112, R270). -/
def fmtWordOk (rx : Bool) (w : Word) : Bool :=
  let v := w.toNat
  bits v 0 2 ≠ 3 && decide (8 ≤ fmtWidth v) && decide (fmtWidth v ≤ 24) && bits v 16 16 = 0 &&
    (!rx || (bits v 9 2 ≠ 3 && bits v 15 1 = 0))

/-- A capture channel counts as armed from the acceptance of its `CAP_ARM` until it leaves DRAINING (R279). -/
def capArmed (s : State) (c : Nat) : Bool :=
  ((capAt s c).st ≠ .off && (capAt s c).st ≠ .bound) ||
    s.held.any (fun h => match h.cmd with
      | .capArm _ channel _ => channel = c
      | _ => false) ||
    s.works.any fun h => match h.cmd with
      | .capArm _ channel _ => channel = c
      | _ => false

/-- The format entry is in use (R116). -/
def formatUsed (s : State) (link entry : Nat) : Bool :=
  if link < 16 then
    s.cells.any fun p => p.2.target.kind = 0 && p.2.target.num / 256 = link && p.2.format = entry &&
      (p.2.st = .armed || p.2.st = .running || p.2.st = .paused)
  else
    s.caps.any fun p => p.2.slot / 256 = link && tget 0 (linkAt s link).slotFormats (p.2.slot % 256) = entry && capArmed s p.1

/-- `FORMAT_SET`. -/
def specFormatSet (link entry : Nat) (word : Word) (s : State) : CSpec :=
  { op := 0x0402, unit := some (7, link), modeOk := modeLoad s,
    err := if 31 < link ∨ 15 < entry ∨ !fmtWordOk (decide (16 ≤ link)) word then some .badArg
      else if formatUsed s link entry then some .badState else none }

/-- The decision of `FORMAT_SET`; nothing where the entry is in use by then. -/
def decFormatSet (link entry : Nat) (word : Word) (s : State) : State :=
  if formatUsed s link entry then s
  else modLink s link fun x => { x with formats := tset 0x180 x.formats entry word }

/-- `SYN_CLEAR`. -/
def specSynClear (h : Hdr) (c : Nat) (mask : DWord) (s : State) : CSpec :=
  { op := 0x0403, unit := some (1, c), permitted := ownsCell s h.ctx c, modeOk := modeRest s,
    err := if nCells s ≤ c ∨ !synMaskOk mask then some .badArg else none }

/-- The decision of `SYN_CLEAR` (R474). -/
def decSynClear (c : Nat) (mask : DWord) (s : State) : State :=
  modCell s c fun x =>
    { x with clipPre := x.clipPre && !mask.getLsbD 0, clipOut := x.clipOut && !mask.getLsbD 1,
             clipPreCount := clearTo mask 0 x.clipPreCount, clipOutCount := clearTo mask 1 x.clipOutCount }

/-- The 24 coefficients of a phase in 72 bytes (R117). -/
def coefBytes (p : Nat) : List Byte := (upFrom 24 0).flatMap fun k => le 3 (toField 24 (rsPhase p k))

/-- `SYN_COEF_READ`. -/
def specSynCoefRead (phase : Nat) : CSpec :=
  { op := 0x0404, err := if 63 < phase then some .badArg else none, result := coefBytes phase }

/-- `SYN_CAL_APPLY`: context 0, whoever owns the cell (R57, R111). -/
def specSynCalApply (h : Hdr) (c : Nat) (gC oC : Int) (s : State) : CSpec :=
  { op := 0x0405, unit := some (1, c), permitted := h.ctx = 0, modeOk := modeLoad s,
    err := if nCells s ≤ c ∨ !gainOk gC oC (2 ^ 20) then some .badArg
      else if (cellAt s c).st = .off then some .badState else none }

/-- The decision of `SYN_CAL_APPLY` (R110, R111). -/
def decSynCalApply (c : Nat) (gC oC : Int) (s : State) : State :=
  if (cellAt s c).st = .off then ignored c s else modCell s c fun x => { x with gC := gC, oC := oC }

/-- Envelope curves of a hive that active sources name (R106). -/
def curvesBusy (s : State) (hive : Nat) : Bool :=
  let x := hiveAt s hive
  x.envCount ≠ 0 && (upFrom 16 (16 * hive)).any fun c =>
    let y := cellAt s c
    let as := (match y.arm with | some a => [a] | none => []) ++ y.arms.map (·.2)
    as.any fun a => a.areas.any fun g =>
      (upFrom x.envCount 0).any fun k => g = granules (combAddr hive 0 (x.curveBase + 4104 * k)) 4104

/-- `CURVE_AREA_SET` (R106). -/
def specCurveAreaSet (h : Hdr) (hive base envCount : Nat) (s : State) : CSpec :=
  { op := 0x0124, unit := some (4, hive),
    permitted := decide (64 ≤ hive) || combOwned s h.ctx (combAddr hive 0 base) (4104 * envCount),
    ready := combReadyAt s (combAddr hive 0 0) 1 || decide (64 ≤ hive), modeOk := modeLoad s,
    err := if 64 ≤ hive ∨ base % 8 ≠ 0 ∨ 255 < envCount ∨ tableOff s hive < base + 4104 * envCount then some .badArg
      else if curvesBusy s hive then some .badState else none }

/-- The decision of `CURVE_AREA_SET`; nothing while a curve of the old area is active. -/
def decCurveAreaSet (hive base envCount : Nat) (s : State) : State :=
  if curvesBusy s hive then s else modHive s hive fun x => { x with curveBase := base, envCount := envCount }

/-- SYN_CONFIG: R117. -/
def execSynConfig (h : Hdr) (cell format pdEn pdAddr : Nat) (gU oU : Int) (s : State) : Host.Outcome State Fault Refusal :=
  berza h (.synConfig h cell format pdEn pdAddr gU oU) (specSynConfig h cell format pdEn pdAddr gU oU s) s

/-- SYN_GAIN_SET: R110. -/
def execSynGainSet (h : Hdr) (unit : Sel) (gU oU : Int) (s : State) : Host.Outcome State Fault Refusal :=
  berza h (.synGainSet h unit gU oU) (specSynGainSet h unit gU oU s) s

/-- FORMAT_SET: R112, R116. -/
def execFormatSet (h : Hdr) (link entry : Nat) (word : Word) (s : State) : Host.Outcome State Fault Refusal :=
  berza h (.formatSet h link entry word) (specFormatSet link entry word s) s

/-- SYN_CLEAR: R117, R474. -/
def execSynClear (h : Hdr) (cell : Nat) (mask : DWord) (s : State) : Host.Outcome State Fault Refusal :=
  berza h (.synClear h cell mask) (specSynClear h cell mask s) s

/-- SYN_COEF_READ: R117. -/
def execSynCoefRead (h : Hdr) (phase : Nat) (s : State) : Host.Outcome State Fault Refusal :=
  berza h (.synCoefRead h phase) (specSynCoefRead phase) s

/-- SYN_CAL_APPLY: R111. -/
def execSynCalApply (h : Hdr) (cell : Nat) (gC oC : Int) (s : State) : Host.Outcome State Fault Refusal :=
  berza h (.synCalApply h cell gC oC) (specSynCalApply h cell gC oC s) s

/-- CURVE_AREA_SET: R106. -/
def execCurveAreaSet (h : Hdr) (hive base envCount : Nat) (s : State) : Host.Outcome State Fault Refusal :=
  berza h (.curveAreaSet h hive base envCount) (specCurveAreaSet h hive base envCount s) s

end Sys2Proof.Machine
end

