-- ==== Sys2Proof/Machine/Capture.lean ====
section
/-! DEFINITION. Capture channels (spec/07): binding, the sampling grid, the ring, triggers, records, stacks. -/

namespace Sys2Proof.Machine

/-! ### The grid and the stored sample (R173, R174, R269 to R271) -/

/-- Bytes of a stored sample: 24-bit capture takes three. -/
def capBps (s : State) (x : Cap) : Nat := if (linkAt s (x.slot / 256)).cap24 then 3 else 2

/-- The base edge of sample `n`. -/
def capEdge (x : Cap) (n : Nat) : Nat := x.mA + n * 2 ^ x.k

/-- The tick ceil(s(n) / 16). -/
def capTick (d : Domain) (x : Cap) (n : Nat) : Nat := edgeTick d (capEdge x n)

/-- The first sample at or after a tick; none before sample 0 by a whole period. -/
def capSampleAt (d : Domain) (x : Cap) (t : Nat) : Option Nat :=
  let e := edgeAt d t
  if e + 2 ^ x.k ≤ x.mA then none else some (ceilDiv (e - x.mA) (2 ^ x.k))

/-- The code word of a received container (R271, steps 1 to 3): its signed value. -/
def rxDecode (f w : Nat) : Int :=
  let n := fmtWidth f
  let c := if bitOf f 2 then bits w 8 n else bits w (32 - n) n
  let c := if bitOf f 3 then bitRev c n else c
  match bits f 0 2 with
  | 0 => sext n c
  | 1 => (c : Int) - (2 ^ (n - 1) : Nat)
  | _ => if bitOf c (n - 1) then -(c % 2 ^ (n - 1) : Nat) else (c % 2 ^ (n - 1) : Nat)

/-- The flag bit that LOW_MODE reads is set. -/
def rxFlag (f w : Nat) : Bool := bitOf w (bits f 11 3)

/-- The 24-bit value of a container, whether it counts in `RX_OVR`, whether in `RX_INVALID` (R271). -/
def rxValue (f w : Nat) : Int × Bool × Bool :=
  let r := rxDecode f w
  let v := r * (2 ^ (24 - fmtWidth f) : Nat)
  match bits f 9 2 with
  | 1 => if rxFlag f w then ((if bitOf f 14 then (if 0 ≤ r then 2 ^ 23 - 1 else -(2 ^ 23)) else v), true, false) else (v, false, false)
  | 2 => if rxFlag f w then (v, false, false) else (0, false, true)
  | _ => (v, false, false)

/-- The container of a sample at base edge `e` was received while the link was in DATA, with the domain's guard open
(R174, R234, R269). -/
def rxGood (s : State) (x : Cap) (e : Nat) : Bool :=
  let l := linkAt s (x.slot / 256)
  let d := domAt s x.domain
  let j := 2 ^ l.j
  let phi := d.srDelay % j
  let q := e - (e + j - phi) % j
  l.st = .data && d.guardOpen && decide (l.rxLat * j ≤ q) &&
    decide (l.dataSince * d.num ≤ (q - l.rxLat * j) * d.den * d.div)

/-- `CAP_LINK`.SHIFT of an arm (R269). -/
def capShift (s : State) (x : Cap) (mA : Nat) : Nat :=
  let j := 2 ^ (linkAt s (x.slot / 256)).j
  (mA + j - (domAt s x.domain).srDelay % j) % j

/-- Comb address of ring position of sample `n` (R177). -/
def ringAddr (s : State) (c : Nat) (x : Cap) (n : Nat) : Nat :=
  combAddr (hiveOf c) 1 (x.ringBase + capBps s x * (n % x.ringLen))

/-! ### Flags and faults -/

/-- Set capture flags. -/
def capFlag (f : Word) (c : Nat) (s : State) : State := modCap s c fun x => { x with flags := x.flags ||| f }

/-- CMD_IGNORED of a capture channel. -/
def capIgnored (c : Nat) (s : State) : State := capFlag 0x1000 c s

/-- A fault of the capture block: its channel and the address it met. -/
def capFault (s : State) (bit cls c addr : Nat) (master : Nat := 0xD) (acc : Nat := 6) : State :=
  raise s { block := .cap, bit := bit, cls := cls, obj := capObj c addr, master := master, acc := acc,
            owner := some (cellOwner s c).owner }

/-! ### The record ring (R187 to R190) -/

/-- Free bytes of a record ring. -/
def ringFree (x : Cap) : Nat := 2 ^ x.recLog2 - (x.rsv - x.rd)

/-- The 64 bytes of an entry's header (R190). -/
def recHeader (s : State) (c : Nat) (r : CapRec) (crc : Nat) : List Byte :=
  let x := capAt s c
  let d := domAt s x.domain
  let fmt := if r.kind = 4 then 2 else if capBps s x = 3 then 1 else 0
  let timed := r.kind = 1 || r.kind = 3 || r.kind = 4
  let h := fit 62 (le 62 (pack [(8, r.kind), (2, fmt), (6, 0), (10, c), (6, 0), (32, r.seq), (60, r.trigTick), (4, 0), (10, r.trigCh),
    (3, r.gen), (3, 0), (16, r.srcId), (64, r.firstN), (64, if timed then edgeTime d (capEdge x r.firstN) else 0), (32, r.preValid),
    (32, r.count), (32, r.bytes - 64), (16, r.flags), (8, r.cause), (16, r.gapCount), (32, r.shots), (32, crc), (8, 0)]))
  h ++ le 2 (crc16 h)

/-- DRAM address of a byte count of a record ring. -/
def recAddr (x : Cap) (off : Nat) : Nat := x.recBase + off % 2 ^ x.recLog2

/-- Write the header of an entry. -/
def writeHeader (c : Nat) (r : CapRec) (crc : Nat) (s : State) : State :=
  dramStore s (recAddr (capAt s c) r.off) (recHeader s c r crc)

/-- Replace the entry of a channel that starts at a byte count. -/
def putRec (c : Nat) (r : CapRec) (s : State) : State :=
  let x := capAt s c
  { s with caps := tset {} s.caps c { x with recs := x.recs.map fun k => if k.off = r.off then r else k } }

/-- WR advances over the longest committed run. -/
def advanceWr (c : Nat) (s : State) : State :=
  let x := capAt s c
  let done := x.recs.takeWhile fun r => r.committed
  let wr := match done.getLast? with
    | some r => r.off + r.bytes
    | none => x.wr
  { s with caps := tset {} s.caps c { x with recs := x.recs.drop done.length, wr := wr } }

/-- Reserve an entry of `bytes` ring bytes, behind a PAD entry where it would wrap; none where there is no room
(R188, R189). -/
def reserve (c bytes : Nat) (r : CapRec) (s : State) : Option State :=
  let x := capAt s c
  let size := 2 ^ x.recLog2
  let room := size - x.rsv % size
  let pad := if room < bytes then room else 0
  if ringFree x < bytes + pad then none
  else
    let p : CapRec := { kind := 5, off := x.rsv, bytes := pad, seq := 0, committed := true }
    let e : CapRec := { r with off := x.rsv + pad, bytes := bytes }
    let s1 := { s with caps := tset {} s.caps c { x with recs := x.recs ++ (if pad = 0 then [] else [p]) ++ [e],
                                                         rsv := x.rsv + pad + bytes } }
    let s2 := if pad = 0 then s1 else writeHeader c p 0 s1
    some (advanceWr c (if e.committed then writeHeader c e 0 s2 else s2))

/-- A marker or gap entry: written at once, or NOTE_DROP; none on an OFFLINE ring or without a ring (R189, R193). -/
def noteEntry (c : Nat) (r : CapRec) (s : State) : State :=
  let x := capAt s c
  if x.recLog2 = 0 ∨ ringOffline s x then s
  else
    match reserve c 64 { r with committed := true } s with
    | some s1 => s1
    | none => capFault (capFlag 0x20 c s) 4 0 c (recAddr x x.rsv) 2 1

/-- A missed trigger (R180): count, flag, notice and a marker with its cause. -/
def missTrigger (c : Nat) (ev : Event) (cause : Nat) (s : State) : State :=
  let s1 := capFault (modCap s c fun x => { x with missed := sat 0xFFFFFFFF x.missed, flags := x.flags ||| 0x100 }) 5 0 c 0
  noteEntry c { kind := 2, off := 0, bytes := 64, seq := (capAt s c).seq, trigTick := ev.origin, trigCh := ev.channel, gen := ev.gen,
                srcId := ev.srcId, cause := cause } s1

/-- Some sample of a range was stored with RX_BAD. -/
def rxBadIn (x : Cap) (lo hi : Nat) : Bool := x.rxBad.any fun r => decide (r.1 < hi) && decide (lo ≤ r.2)

/-- Bytes of `n` bytes of data, padded to 64. -/
def pad64 (n : Nat) : Nat := 64 * ceilDiv n 64

/-! ### Windows and re-arm (R176, R181 to R183, R196, R197) -/

/-- A channel's state changes from sample `n` on. -/
def capEnter (c : Nat) (st : CapSt) (n : Nat) (s : State) : State :=
  modCap s c fun x => { x with st := st, states := (n, st) :: x.states.take 64 }

/-- A record is not made for lack of room (R189). -/
def ringFull (c : Nat) (s : State) : State := capFault (capFlag 0x10 c s) 1 1 c (recAddr (capAt s c) (capAt s c).rsv) 2 1

/-- The stack record is reserved (R189, R197); not on an OFFLINE ring, not without room. -/
def stackRecord (c : Nat) (part : Bool) (s : State) : State :=
  let x := capAt s c
  if !x.dump ∨ x.mode ≠ 1 then s
  else if ringOffline s x then recOffline c x.recBase s
  else
    let ev : Event := match x.trig with
      | some e => e
      | none => ⟨0, 0, false, 0, 0, false⟩
    let r : CapRec := { kind := 4, off := 0, bytes := 0, seq := x.seq, trigTick := ev.origin, trigCh := ev.channel, gen := ev.gen,
                        srcId := ev.srcId, firstN := x.nT + x.delay, count := x.l, shots := x.shots,
                        flags := pack [(3, 0), (1, b2n x.stackInvalid), (1, b2n x.stackRx), (1, 0), (1, b2n part)] }
    match reserve c (64 + pad64 (8 * x.l)) r s with
    | some s1 => modCap s1 c fun y => { y with seq := (y.seq + 1) % 2 ^ 32 }
    | none => missTrigger c ev 3 (ringFull c s)

/-- Records that are open (at most two). -/
def openRecs (x : Cap) : Nat := (x.recs.filter recOpen).length

/-- The last post-trigger or window sample has been taken (R176, R182, R186). -/
def windowEnd (c : Nat) (s : State) : State :=
  let x := capAt s c
  let tC := capTick (domAt s x.domain) x x.nLast
  let g := match x.trig with
    | some e => (e.gen + 1, e.taint)
    | none => (0, false)
  let s1 := produce s (srcIdOf 1 1 c) tC true g.1 g.2
  let shots := if x.mode = 1 then x.shots + 1 else x.shots
  let full := if x.mode = 1 then decide (x.count ≤ shots) else x.count ≠ 0 && decide (x.count ≤ x.made)
  let s2 := modCap s1 c fun y =>
    { y with shots := shots, tC := tC, flags := if x.mode = 1 && full then y.flags ||| 0x400 else y.flags,
             tR := if x.mode = 1 || decide (openRecs x ≤ 1) then some (tC + 8) else none }
  if full ∨ x.rearm = 0 then capDrain c (stackRecord c false (capEnter c .draining (x.nLast + 1) s2))
  else capEnter c .rearm (x.nLast + 1) s2

/-- The data record of a trigger accepted at sample `nT` (R181, R189, R190): of its samples those before `stop`, where a disarm has cut
it (R176). -/
def dataRecord (x : Cap) (ev : Event) (nT : Nat) (stop : Option Nat) : CapRec :=
  let pre := min x.preLen (nT - x.nA)
  let all := pre + x.postLen
  let cnt := match stop with
    | some n => min all (n - (nT - pre))
    | none => all
  { kind := 1, off := 0, bytes := 0, seq := x.seq, trigTick := ev.origin, trigCh := ev.channel, gen := ev.gen, srcId := ev.srcId,
    firstN := nT - pre, preValid := pre, count := cnt,
    flags := b2n (decide (pre < x.preLen)) + 16 * b2n (rxBadIn x (nT - pre) (nT - pre + cnt)) + 32 * b2n (decide (cnt < all)) }

/-- The record of an accepted trigger is reserved, or the trigger counts as missed (R189, R193). -/
def reserveData (c : Nat) (ev : Event) (nT : Nat) (stop : Option Nat) (s : State) : State :=
  let x := capAt s c
  let r := dataRecord x ev nT stop
  if ringOffline s x then
    recOffline c x.recBase (modCap s c fun y => { y with missed := sat 0xFFFFFFFF y.missed, flags := y.flags ||| 0x2000 })
  else
    match reserve c (64 + pad64 (capBps s x * r.count)) r s with
    | some s1 => modCap s1 c fun y =>
        { y with seq := (y.seq + 1) % 2 ^ 32, made := y.made + 1,
                 flags := y.flags ||| (if bitOf r.flags 0 then 1 else 0) ||| (if bitOf r.flags 5 then 0x200 else 0) }
    | none => missTrigger c ev 3 (ringFull c s)

/-- A trigger is accepted at its reference sample `nT` (R181, R189, R193, R194). -/
def acceptTrigger (c : Nat) (ev : Event) (nT : Nat) (s : State) : State :=
  let x := capAt s c
  let nLast := if x.mode = 1 then nT + x.delay + x.l - 1 else nT + x.postLen - 1
  let s1 := capEnter c .window nT (modCap s c fun y => { y with nT := nT, nLast := nLast, trig := some ev, tR := none })
  let s2 := if x.mode = 1 then s1 else reserveData c ev nT none s1
  if nLast < (capAt s2 c).n then windowEnd c s2 else s2

/-- The areas of an arm: ring and accumulators (R131, R196). -/
def capArmAreas (s : State) (c ringBase ringLen accBase l : Nat) : List (Nat × Nat) :=
  let x := capAt s c
  let h := hiveOf c
  granules (combAddr h 1 ringBase) (capBps s x * ringLen) :: (if x.mode = 1 then [granules (combAddr h 1 accBase) (8 * l)] else [])

/-- A trigger whose reference sample a disarm of sample `nD` has left in ARMED (R176, R180): its record ends before `nD`, and the
channel drains it; a stack has no sample before `nD` to add. -/
def acceptCut (c : Nat) (ev : Event) (nT nD : Nat) (s : State) : State :=
  let x := capAt s c
  if x.mode = 1 then s
  else
    let as := capArmAreas s c x.ringBase x.ringLen x.accBase x.l
    let s1 := if x.st = .bound then
        putCap (activate s as) c { x with st := .draining, areas := as }
      else s
    capDrain c (reserveData c ev nT (some nD) s1)

/-- The state a channel had at a sample (R180). -/
def stateAt (x : Cap) (n : Nat) : CapSt :=
  match x.states.find? fun p => decide (p.1 ≤ n) with
  | some p => p.2
  | none => .bound

/-- The sample at which a disarm took a channel out of ARMED, where that was the last change of its state but for coming to rest. -/
def armedUntil (x : Cap) : Option Nat :=
  match x.states with
  | (n, .draining) :: (_, .armed) :: _ => some n
  | _ => none

/-- A trigger is decided by the state at its reference sample (R179, R180). -/
def decideTrigger (c : Nat) (ev : Event) (s : State) : State :=
  let x := capAt s c
  match if x.st = .off then none else capSampleAt (domAt s x.domain) x ev.origin with
  | none => capFlag 0x40 c s
  | some n =>
    match stateAt x n with
    | .armed =>
      if x.st = .armed then acceptTrigger c ev n s
      else match armedUntil x with
        | some nD => acceptCut c ev n nD s
        | none => capFlag 0x40 c s
    | .window => missTrigger c ev 1 s
    | .rearm => missTrigger c ev 2 s
    | .off => capFlag 0x40 c s
    | .bound => capFlag 0x40 c s
    | .draining => capFlag 0x40 c s

/-- A channel is armed again at tick `t` (R182, R183); later than T_c + 8 it is LATE_REARM. -/
def rearmAt (c t : Nat) (s : State) : State :=
  let x := capAt s c
  let late := decide (x.tC + 8 < t)
  match capSampleAt (domAt s x.domain) x t with
  | none => s
  | some n =>
    let s1 := capEnter c .armed n (modCap s c fun y => { y with nA := n, tR := none, flags := if late then y.flags ||| 0x800 else y.flags })
    if late then jstate s1 2 c (capCode .armed) 1 else s1

/-- REARM_TICK: AUTO re-arm at T_r. -/
def rearmTick (c : Nat) (s : State) : State :=
  let x := capAt s c
  match x.tR with
  | some t => if x.st = .rearm ∧ x.rearm = 1 ∧ t ≤ s.time.tick then rearmAt c t s else s
  | none => s

/-- An ARM task-input event decided at `dec` (R183, R210). -/
def armInput (c dec : Nat) (s : State) : State :=
  let x := capAt s c
  if x.rearm ≠ 2 then capIgnored c s
  else if x.st = .rearm then
    match x.tR with
    | some t => if t ≤ dec then rearmAt c dec s else capFlag 0x80 c s
    | none => capFlag 0x80 c s
  else if x.st = .window then capFlag 0x80 c s
  else capIgnored c s

/-- A run of lost samples of a record ends: gap entry, counts, journal (R192). -/
def closeRun (c : Nat) (r : CapRec) (s : State) : State :=
  if r.lostRun = 0 then s
  else
    let s1 := putRec c { r with lostRun := 0, gapCount := sat 0xFFFF r.gapCount } s
    let s2 := noteEntry c { kind := 3, off := 0, bytes := 64, seq := r.seq, firstN := r.lostFirst, count := r.lostRun, cause := 1 } s1
    jput s2 s.time.tick (.gap true c 0 r.lostFirst r.lostRun 4)

/-- A disarm acts at its first affected sample (R176): a record in its window is truncated, a stack is PARTIAL. -/
def disarm (c dec : Nat) (s : State) : State :=
  let x := capAt s c
  if x.st = .armed ∨ x.st = .window ∨ x.st = .rearm then
    let nD := match capSampleAt (domAt s x.domain) x dec with
      | some n => n
      | none => 0
    let cut (r : CapRec) : Bool := recOpen r && r.kind = 1 && x.st = .window && decide (nD < r.firstN + r.count) && r.firstN + r.count = x.nLast + 1
    let tr := x.recs.any cut
    let rs := x.recs.map fun r => if cut r then { r with count := nD - r.firstN, streamed := min r.streamed (nD - r.firstN), flags := r.flags + 32 } else r
    let s1 := modCap s c fun y => { y with recs := rs, flags := if tr then y.flags ||| 0x200 else y.flags }
    capDrain c (stackRecord c true (capEnter c .draining nD s1))
  else capIgnored c s

/-! ### One sample (R174, R177, R185, R192, R194) -/

/-- The level trigger on a stored value: what is primed then, and whether it fires (R185). -/
def levelTrig (x : Cap) (v : Int) : Bool × Bool × Bool :=
  let up := bitOf x.edge 0
  let dn := bitOf x.edge 1
  let fireUp := up && x.primedUp && decide (x.thr ≤ v)
  let fireDn := dn && x.primedDown && decide (v ≤ x.thr)
  ((if fireUp then false else x.primedUp || decide (v < x.thr - x.hyst)),
   (if fireDn then false else x.primedDown || decide (x.thr + x.hyst < v)), fireUp || fireDn)

/-- RX data of a link is journaled: bit `l` of RX_MASK for link `l`. -/
def rxJournaled (s : State) (l : Nat) : Bool := s.jnl.rxMask.getLsbD l

/-- The level trigger runs on a stored value; an event that descends from RX data not journaled is noted as TAINT
(R185, R433). -/
def runLevel (c tick : Nat) (v : Int) (s : State) : State :=
  let x := capAt s c
  if !x.trigEn then s
  else
    let r := levelTrig x v
    let s1 := modCap s c fun y => { y with primedUp := r.1, primedDown := r.2.1 }
    if r.2.2 then
      let ev : Event := { origin := tick, channel := 0, level := true, gen := 0, srcId := srcIdOf 1 0 c }
      produce (if rxJournaled s (x.slot / 256) then s1 else jput s1 tick (.taint ev)) (srcIdOf 1 0 c) tick true 0
    else s1

/-- One record sample overwritten before it was read is lost (R192). -/
def loseSample (c n tick : Nat) (r : CapRec) (s : State) : State :=
  let x := capAt s c
  let bps := capBps s x
  let first := r.lostRun = 0
  let a := recAddr x (r.off + 64 + bps * r.streamed)
  let s1 := dramStore { s with free := s.free + 1 } a ((upFrom bps 0).map fun i => Config.freeByte (4 * s.free + i))
  let s2 := putRec c { r with streamed := r.streamed + 1, lostRun := r.lostRun + 1, lostFirst := if first then n else r.lostFirst,
                              flags := if bitOf r.flags 1 then r.flags else r.flags + 2 } s1
  let s3 := modCap s2 c fun y => { y with gapSamples := sat 0xFFFFFFFF y.gapSamples, flags := y.flags ||| 2 }
  if first then
    let g := match x.trig with
      | some e => (e.gen + 1, e.taint)
      | none => (0, false)
    capFault (produce s3 (srcIdOf 1 2 c) tick true g.1 g.2) 0 1 c (ringAddr s c x n) 1 1
  else s3

/-- The write of sample `n` overwrites sample `n - RING_LEN`: a record that still needs it loses it. -/
def overwrite (c n tick : Nat) (s : State) : State :=
  let x := capAt s c
  if n < x.ringLen then s
  else
    let m := n - x.ringLen
    x.recs.foldl (fun s r =>
      if recOpen r && r.kind = 1 && decide (r.firstN ≤ m) && m - r.firstN = r.streamed && decide (r.streamed < r.count) then
        loseSample c m tick r s
      else s) s

/-- The atomic add of a window sample (R194, R138, R197). -/
def stackAdd (c i : Nat) (v : Int) (s : State) : State :=
  let x := capAt s c
  let ca := combAddr (hiveOf c) 1 (x.accBase + 8 * i)
  let s1 := touchWord 1 2 (ca / 8) s
  if wordUe s (ca / 8) then
    capFault (modCap (combFault s1 2 1 ca 1 2) c fun y => { y with stackInvalid := true, flags := y.flags ||| 8 }) 3 1 c ca 1 2
  else combStore s1 ca (le 8 (toField 64 ((ofLe (memRead s.comb ca 8) : Nat) + v)))

/-- The ring of a channel is written (R175): in DRAINING until the last record has read its samples. -/
def ringWritten (s : State) (c : Nat) : Bool :=
  let x := capAt s c
  wagActs s c && (x.st = .armed || x.st = .window || x.st = .rearm || (x.st = .draining && x.recs.any fun r => recOpen r && r.kind = 1 && decide (r.streamed < r.count)))

/-- Note that sample `n` was stored with RX_BAD. -/
def noteRxBad (n : Nat) (x : Cap) : Cap :=
  let runs := match x.rxBad with
    | (a, b) :: t => if b + 1 = n then (a, n) :: t else (n, n) :: (a, b) :: t
    | [] => [(n, n)]
  { x with rxBad := runs.filter fun r => decide (n < r.2 + x.ringLen),
           recs := x.recs.map fun r => if recOpen r && r.kind = 1 && decide (r.firstN ≤ n) && decide (n < r.firstN + r.count) && !bitOf r.flags 4
             then { r with flags := r.flags + 16 } else r }

/-- Counts of an RX link for one container (R271). -/
def rxCount (l : Nat) (ovr inv : Bool) (s : State) : State :=
  if !ovr && !inv then s
  else
    let s1 := { s with links := tmod {} s.links l fun x =>
      { x with rxOvr := if ovr then sat 0xFFFFFFFF x.rxOvr else x.rxOvr, rxInvalid := if inv then sat 0xFFFFFFFF x.rxInvalid else x.rxInvalid } }
    if ovr then raise s1 { block := .lnk, bit := 7, cls := 0, obj := lnkObj l (linkAt s l).firstLane, master := 1, acc := 0, scope := [l] }
    else s1

/-- In replay, the journaled value of the sample at base edge `e` (R440). -/
def replayRx (s : State) (x : Cap) (e : Nat) : Option Int :=
  let d := domAt s x.domain
  let k := if d.den * d.div = 0 then 0 else s.rpl.delta * d.num / (d.den * d.div)
  s.rpl.sigs.findSome? fun y => match y.pay with
    | .rxdata l slot edge [v] => if 256 * l + slot = x.slot ∧ edge + k = e then some v else none
    | _ => none

/-- A sample is a received value: its container came in DATA, or in replay it was journaled. -/
def rxHere (s : State) (x : Cap) (e : Nat) : Bool := if s.md.mode = .replay then (replayRx s x e).isSome else rxGood s x e

/-- The value stored for a container and whether it is RX_BAD; in replay the journaled value, or 0 with RX_BAD. -/
def storedSample (s : State) (x : Cap) (e : Nat) (word : Word) : Int × Bool × Bool × Bool :=
  if s.md.mode = .replay then
    match replayRx s x e with
    | some v => (v, false, false, false)
    | none => (0, true, false, false)
  else if !rxGood s x e then (0, true, false, false)
  else
    let l := linkAt s (x.slot / 256)
    let f := (tget (0x180 : Word) l.formats (tget 0 l.slotFormats (x.slot % 256))).toNat
    let r := rxValue f word.toNat
    (if l.cap24 then r.1 else r.1 / 256, r.2.2, r.2.1, r.2.2)

/-- A decision that the sample at base edge `m` must wait for (R41). -/
def capDecisionBefore (s : State) (c m : Nat) : Bool :=
  let d := domAt s (capAt s c).domain
  (s.held.any fun x => decide (edgeAt d x.dec ≤ m) && match x.cmd with
    | .capArm _ ch _ => ch = c
    | .capDisarm _ u => if u.kind = 0 then u.num = c else u.num = (cellAt s c).group
    | .capTrigger _ ch => ch = c
    | .capTrigSet _ ch .. => ch = c
    | .modeSet .. => true
    | .warmReset .. => true
    | .calStart .. => true
    | _ => false) ||
    s.tasks.any fun p => (p.1 = 0x2000 + 2 * c || p.1 = 0x2001 + 2 * c) && p.2.held.any fun e => decide (edgeAt d e.1 ≤ m)

/-- The sample is taken: decoded, journaled where RX_MASK says so, written into the ring, seen by the level trigger and
added in a stack window; the last sample of a window ends it. -/
def takeSample (c e tick : Nat) (word : Word) (s : State) : State :=
  let x := capAt s c
  let n := x.n
  let r := storedSample s x e word
  let bad := r.2.1
  let link := x.slot / 256
  let s0 := rxCount link r.2.2.1 r.2.2.2 s
  let s1 := if rxJournaled s link then jput s0 tick (.rxdata link (x.slot % 256) e [r.1]) else s0
  let s2 := overwrite c n tick s1
  let s3 := combStore s2 (ringAddr s c x n) (le (capBps s x) (toField (8 * capBps s x) r.1))
  let s4 := modCap s3 c fun y => let z := if bad then noteRxBad n y else y; { z with n := n + 1 }
  let s5 := if rxHere s x e then runLevel c tick r.1 s4 else s4
  let win := x.st = .window && x.mode = 1 && decide (x.nT + x.delay ≤ n) && decide (n ≤ x.nLast)
  let s6 := if win then stackAdd c (n - (x.nT + x.delay)) r.1 (if bad then modCap s5 c fun y => { y with stackRx := true } else s5) else s5
  if x.st = .window ∧ n = x.nLast then windowEnd c s6 else s6

/-- CAPTURE_SAMPLE (R173, R177): the next sample of the grid, once its edge has come and every decision before it has
been made; where the ring is not written, only the index goes on. -/
def captureSample (c : Nat) (word : Word) (s : State) : State :=
  let x := capAt s c
  let d := domAt s x.domain
  let e := capEdge x x.n
  if x.st = .off ∨ x.st = .bound ∨ s.time.tick * d.num < e * d.den * d.div ∨ capDecisionBefore s c e then s
  else if ringWritten s c then takeSample c e (edgeTick d e) word s
  else modCap s c fun y => { y with n := y.n + 1 }

/-! ### Streaming and commit (R191 to R193) -/

/-- An open record of a channel of which samples wait to be read out. -/
def streamable (x : Cap) (r : CapRec) : Bool :=
  recOpen r && decide (r.streamed < r.count) && (r.kind = 4 || decide (r.firstN + r.streamed < x.n))

/-- When the next sample of a data record will be overwritten, in ticks as numerator and denominator. -/
def overwriteAt (s : State) (c : Nat) (r : CapRec) : Nat × Nat :=
  let x := capAt s c
  let d := domAt s x.domain
  (capEdge x (r.firstN + r.streamed + x.ringLen) * d.den * d.div, d.num)

/-- Whether one waiting record is served before another: data before stack, then the earlier overwrite (R191). -/
def servedBefore (s : State) (a b : Nat × CapRec) : Bool :=
  if a.2.kind ≠ b.2.kind then a.2.kind = 1
  else if a.2.kind = 4 then false
  else
    let x := overwriteAt s a.1 a.2
    let y := overwriteAt s b.1 b.2
    decide (x.1 * y.2 < y.1 * x.2)

/-- The waiting record that a hive's streamer serves next; ties go to the lower channel. -/
def nextStream (s : State) (hive : Nat) : Option (Nat × CapRec) :=
  ((upFrom 16 (16 * hive)).flatMap fun c => ((capAt s c).recs.filter (streamable (capAt s c))).map fun r => (c, r)).foldl
    (fun o p => match o with
      | none => some p
      | some q => if servedBefore s p q then some p else some q) none

/-- The bytes of a chunk read from the catch bank, and its spans. -/
def chunkRead (s : State) (c : Nat) (x : Cap) (r : CapRec) (k : Nat) : List Byte × List (Nat × Nat) :=
  if r.kind = 4 then
    let ca := combAddr (hiveOf c) 1 (x.accBase + 8 * r.streamed)
    (memRead s.comb ca (8 * k), [(ca, 8 * k)])
  else
    let b := capBps s x
    let spans := (upFrom k (r.firstN + r.streamed)).map fun n => (ringAddr s c x n, b)
    (spans.flatMap fun p => memRead s.comb p.1 p.2, spans)

/-- How the entries of a record's chunks are numbered. -/
def recId (c : Nat) (r : CapRec) : Nat := c + 1024 * r.off

/-- The streamer's reads collide with the sampler's writes of the ring an open number of times, and are read again (R124, R125). -/
def streamBusy (c : Nat) (s : State) : State := if ringWritten s c then addBusy (hiveOf c) (Config.bankBusy s.free) s else s

/-- A chunk of at most `samples` samples leaves the catch bank for DRAM: its write credits first, then the read
(R191). -/
def streamRecord (c : Nat) (r0 : CapRec) (samples : Nat) (s : State) : State :=
  let s0 := streamBusy c (closeRun c r0 s)
  match (capAt s0 c).recs.find? fun k => k.off = r0.off with
  | none => s0
  | some r =>
    let x := capAt s0 c
    let b := if r.kind = 4 then 8 else capBps s0 x
    let avail := if r.kind = 4 then r.count else min r.count (x.n - r.firstN)
    let k := min samples (avail - r.streamed)
    let a := recAddr x (r.off + 64 + b * r.streamed)
    let ps := entryPieces a (b * k)
    if k = 0 ∨ !creditsFor s0 ps then s
    else
      let d := chunkRead s0 c x r k
      let ue := d.2.any fun p => spanUe s0 p.1 p.2
      let s1 := d.2.foldl (fun s p => touchSpan 2 0 p.1 p.2 s) s0
      let s2 := match d.2.find? fun p => spanUe s0 p.1 p.2 with
        | some p => ueData (modCap { s1 with free := s1.free + 1 } c fun y => { y with flags := y.flags ||| 4 }) p.1 p.2 2 0
        | none => s1
      let data := if ue then (upFrom (b * k) 0).map fun i => Config.freeByte (4 * s0.free + i) else d.1
      let s3 := queuePieces { id := recId c r, master := 2, write := true, addr := a, len := b * k, capture := true } a data ps s2
      putRec c { r with streamed := r.streamed + k, flags := if ue && !bitOf r.flags 2 then r.flags + 4 else r.flags } s3

/-- STREAM_CHUNK: the streamer of a hive reads one chunk (R191). -/
def streamChunk (hive samples : Nat) (s : State) : State :=
  match nextStream s hive with
  | some (c, r) => if ringOffline s (capAt s c) then abandon c s else streamRecord c r samples s
  | none => s

/-- The header of a record can be written: none of its data is still on the way, and DRAM takes a write (log 77). -/
def commitReady (s : State) (c : Nat) (x : Cap) (r : CapRec) : Bool :=
  recOpen r && r.streamed = r.count && !entryQueued s 2 (recId c r) && dramQuiet s (recAddr x r.off) 64

/-- RECORD_COMMIT: the last data byte and then the header of a complete record are written; WR advances, a channel that
waited re-arms 8 ticks later, a DRAINING one may rest (R182, R188). -/
def recordCommit (c : Nat) (s : State) : State :=
  let x := capAt s c
  match x.recs.find? (commitReady s c x) with
  | none => s
  | some r0 =>
    let s0 := closeRun c r0 s
    let r := match (capAt s0 c).recs.find? fun k => k.off = r0.off with
      | some k => k
      | none => r0
    let used := (if r.kind = 4 then 8 else capBps s0 x) * r.count
    let a := recAddr x (r.off + 64)
    let s1 := dramStore s0 (a + used) (List.replicate (r.bytes - 64 - used) 0)
    let crc := if bitOf r.flags 1 || bitOf r.flags 2 || r.count = 0 then 0 else crc32 (memRead s1.dram a (r.bytes - 64))
    let s2 := advanceWr c (putRec c { r with committed := true } (writeHeader c r crc s1))
    let y := capAt s2 c
    let s3 := if y.st = .rearm ∧ y.tR = none ∧ openRecs y ≤ 1 then modCap s2 c fun z => { z with tR := some (max z.tC s.time.tick + 8) } else s2
    capDrain c s3

/-! ### Commands (R172, R199) -/

/-- The capture channels of a selector. -/
def capsOf (s : State) (u : Sel) : List Nat := selCells s u

/-- An accepted command that waits in a capture channel. -/
def capWaits (s : State) (c : Nat) : Instr → Bool
  | .capBind _ ch .. => ch = c
  | .capArm _ ch _ => ch = c
  | .capDisarm _ u => (capsOf s u).contains c
  | .capTrigger _ ch => ch = c
  | .capRelease _ ch _ => ch = c
  | .capTrigSet _ ch .. => ch = c
  | .capUnbind _ ch => ch = c
  | .capClear _ ch _ => ch = c
  | _ => false

/-- Eight commands already wait in the channel. -/
def capFull (s : State) (c : Nat) : Bool := decide (8 ≤ heldCount s (capWaits s c))

/-- A capture command, as judged. -/
def specCap (h : Hdr) (op c : Nat) (mode : Bool) (checks : Option Err) (s : State) : CSpec :=
  { op := op, unit := some (2, c), permitted := ownsCell s h.ctx c, modeOk := mode,
    err := if nCells s ≤ c then some .badArg else if capFull s c then some .pendingFull else checks }

/-- The capture rates of a channel in force and pending (R172). -/
def capRates (s : State) (c : Nat) : List (Nat × Nat) :=
  let x := capAt s c
  (if x.st = .off then [] else [rateOf s x.domain (2 ^ (40 - x.k))]) ++
    s.held.filterMap fun h =>
      match h.cmd with
      | .capBind _ ch dom k .. => if ch = c then some (rateOf s dom (2 ^ (40 - k))) else none
      | _ => none

/-- A capture rate above 100 MS/s, or a hive above 200 MS/s (R17, R172). -/
def capRateBad (s : State) (c dom k : Nat) : Bool :=
  let r := rateOf s dom (2 ^ (40 - k))
  !rateLe r (1, 1) || !rateLe ((upFrom 16 (16 * hiveOf c)).foldl
    (fun a i => rateAdd a (rateMax (capRates s i ++ if i = c then [r] else []))) (0, 1)) (2, 1)

/-- `CAP_BIND`. -/
def specCapBind (h : Hdr) (c dom k slot recBase recLog2 mode : Nat) (s : State) : CSpec :=
  let l := linkAt s (slot / 256)
  let len := 2 ^ recLog2
  let ring := recLog2 ≠ 0
  let ok := decide (dom ≤ 3) && decide (1 ≤ k) && decide (k ≤ 28) && decide (16 ≤ slot / 256) && decide (slot / 256 < 32) &&
    (!ring || (decide (16 ≤ recLog2) && decide (recLog2 ≤ 31) && recBase % len = 0 && spanPresent s recBase len)) && decide (mode ≤ 1) &&
    decide (c < nCells s)
  { specCap h 0x0600 c (modeLoad s)
      (if !ok then some .badArg
        else if (capAt s c).st ≠ .off ∧ (capAt s c).st ≠ .bound then some .badState
        else if capRateBad s c dom k ∨ (mode = 0 ∧ !ring) ∨ l.st = .off ∨ l.m ≤ slot % 256 ∨ l.domain ≠ dom ∨ !reaches (hiveOf c) l ∨ k < l.j
          then some .badArg
        else none) s with
    absent := ring && (dramAbsent s recBase || dramAbsent s (recBase + len - 1)),
    permitted := ownsCell s h.ctx c && (!ok || !ring || dramOwned s (cellOwner s c).owner recBase len),
    ready := !ok || ((hiveAt s (hiveOf c)).catchReady && (domAt s dom).guardOpen && (!ring || (dramReady s && spanReady s recBase len))) }

/-- The decision of `CAP_BIND`; every bind counts in `CAP_EPOCH`. -/
def decCapBind (c dom k slot recBase recLog2 mode : Nat) (s : State) : State :=
  let x := capAt s c
  if x.st ≠ .off ∧ x.st ≠ .bound then capIgnored c s
  else
    let y := { x with st := .bound, domain := dom, k := k, slot := slot, recBase := if recLog2 = 0 then 0 else recBase,
                      recLog2 := recLog2, mode := mode, epoch := x.epoch + 1, states := [] }
    { s with caps := tset {} s.caps c y }

/-- The areas that a `CAP_ARM` activates: ring and accumulators (R131, R196). -/
def capAreas (s : State) (c : Nat) (a : CapArmArgs) : List (Nat × Nat) := capArmAreas s c a.ringBase a.ringLen a.accBase a.l

/-- What an accepted `CAP_ARM` makes active at once, under the serial of its command. -/
def capAccept (c : Nat) (a : CapArmArgs) (s : State) : State :=
  let x := capAt s c
  let p : CapPend := ⟨s.kpr.nextSerial - 1, capAreas s c a, a.clear = 1 ∧ x.mode = 1⟩
  let s1 := activate s p.areas
  { s1 with caps := tset {} s1.caps c { x with arms := x.arms ++ [p] } }

/-- The spans of a `CAP_ARM` in the catch bank. -/
def capSpans (s : State) (c : Nat) (a : CapArmArgs) : List (Nat × Nat) :=
  let x := capAt s c
  (a.ringBase, capBps s x * a.ringLen) :: (if x.mode = 1 then [(a.accBase, 8 * a.l)] else [])

/-- Whether the arguments of `CAP_ARM` are in range (R178, R189, R194, R199). -/
def capArmOk (s : State) (c : Nat) (a : CapArmArgs) : Bool :=
  let x := capAt s c
  let d := domAt s x.domain
  let period := 2 ^ x.k * d.den * d.div
  let half := 2 ^ x.recLog2 / 2
  a.ringBase % 256 = 0 && a.ringLen % 256 = 0 && decide (256 ≤ a.ringLen) && decide (a.ringLen ≤ 131072) && decide (a.rearm ≤ 2) &&
    decide (a.clear ≤ 1) && decide (a.dump ≤ 1) && ((capSpans s c a).all fun p => decide (p.1 + p.2 ≤ 0x80000)) &&
    (if x.mode = 1 then
      a.accBase % 256 = 0 && decide (1 ≤ a.l) && decide (a.l ≤ 65536) && decide (1 ≤ a.count) && decide (a.count ≤ 65536) &&
        decide (a.delay < 2 ^ 24) && decide (ceilDiv (s.time.horizon * d.num) period ≤ a.delay) && (a.dump = 0 || x.recLog2 ≠ 0) &&
        (a.dump = 0 || decide (64 + 8 * a.l ≤ half))
    else
      decide (a.preLen ≤ a.ringLen) && decide (1 ≤ a.postLen) && decide (a.postLen < 2 ^ 32) && decide (a.count < 2 ^ 32) &&
        decide (a.preLen + ceilDiv ((s.time.horizon + 1616) * d.num) period + 256 ≤ a.ringLen) &&
        decide (64 + pad64 (capBps s x * (a.preLen + a.postLen)) ≤ half))

/-- The first active granule in the way of a `CAP_ARM`. -/
def capHeld (s : State) (c : Nat) (a : CapArmArgs) : Option (Nat × Nat) :=
  ((capSpans s c a).map fun p => (combAddr (hiveOf c) 1 p.1, p.2)).find? fun p => (firstHeldGranule s p.1 p.2).isSome

/-- `CAP_ARM` (R196, R199): class C with CLEAR = 1, else answered at acceptance; RESULT is `CAP_LINK`.SHIFT (R282). -/
def specCapArm (h : Hdr) (c : Nat) (a : CapArmArgs) (s : State) : CSpec :=
  let x := capAt s c
  let late := if a.clear = 1 ∧ x.mode = 1 then 10 * a.l else 0
  let ta := s.time.tick
  let dec := if h.eff = 0 then ta + s.time.horizon + late else h.eff
  let ok := capArmOk s c a
  { specCap h 0x0601 c (modeStart s [c])
      (if x.st ≠ .bound then some .badState
        else if !ok then some .badArg
        else if h.eff ≠ 0 ∧ h.eff < ta + s.time.horizon + late then some .tickPast
        else if (capHeld s c a).isSome then some .segActive
        else if activateOver s (capAreas s c a) then some .badState else none) s with
    cls := if a.clear = 1 ∧ x.mode = 1 then .c else .a,
    permitted := ownsCell s h.ctx c && (!ok || (capSpans s c a).all fun p => combOwned s (cellOwner s c).owner (combAddr (hiveOf c) 1 p.1) p.2),
    ready := decide (nCells s ≤ c) || x.st = .off || ((hiveAt s (hiveOf c)).catchReady && (domAt s x.domain).guardOpen &&
      (x.recLog2 = 0 || (dramReady s && spanReady s x.recBase (2 ^ x.recLog2)))),
    decOf := fun t => if h.eff = 0 then t + late else t,
    errData := match capHeld s c a with
      | some p => if x.st = .bound ∧ ok then whereGranule s p.1 p.2 else []
      | none => [],
    onAccept := capAccept c a,
    result := res [(4, capShift s x (edgeAt (domAt s x.domain) dec))] }

/-- The pending arm of a command. -/
def pendOf (x : Cap) (serial : Nat) : Option CapPend := x.arms.find? fun p => p.serial = serial

/-- The keeper's fill of the accumulators, where it is still to do, and the class C reply (R196). -/
def fillDone (x : Held) (c : Nat) (a : CapArmArgs) (s : State) : State :=
  let y := capAt s c
  if (pendOf y x.serial).any (·.fill) then
    let ca := combAddr (hiveOf c) 1 a.accBase
    let y1 := { y with arms := y.arms.map fun p => if p.serial = x.serial then { p with fill := false } else p }
    let s1 := combStore { s with caps := tset {} s.caps c y1 } ca (List.replicate (8 * a.l) 0)
    finish s1 x 0x0601 (some (2, c)) .ok (res [(4, capShift s y (edgeAt (domAt s y.domain) x.dec))])
  else s

/-- CAP_ARM_FILL_DONE: the fill of an accepted arm is complete. -/
def capArmFillDone (c : Nat) (s : State) : State :=
  match s.held.find? fun x => (pendOf (capAt s c) x.serial).any (·.fill) && match x.cmd with
      | .capArm _ ch _ => ch = c
      | _ => false with
  | none => s
  | some x =>
    match x.cmd with
    | .capArm _ _ a =>
      let hs := s.held.map fun y => if y = x then { x with reply := false } else y
      fillDone x c a { s with held := hs }
    | _ => s

/-- The decision of `CAP_ARM` (R176, R196): ARMED with arm point sample 0; a fill not yet reported is complete by
now. A channel that is not BOUND ignores it and the areas are released. -/
def decCapArm (h : Held) (c : Nat) (a : CapArmArgs) (s0 : State) : State :=
  let s1 := fillDone h c a s0
  let y := capAt s1 c
  let areas := match pendOf y h.serial with
    | some p => p.areas
    | none => []
  let s := { s1 with caps := tset {} s1.caps c { y with arms := y.arms.filter fun p => p.serial ≠ h.serial } }
  let x := capAt s c
  if x.st ≠ .bound then deactivate (capIgnored c s) areas
  else
    putCap s c { x with st := .armed, ringBase := a.ringBase, ringLen := a.ringLen, rearm := a.rearm, count := a.count, preLen := a.preLen,
                        postLen := a.postLen, accBase := a.accBase, l := a.l, delay := a.delay, dump := a.dump = 1, areas := areas,
                        mA := edgeAt (domAt s x.domain) h.dec, n := 0, nA := 0, made := 0, shots := 0, wr := 0, rsv := 0, rd := 0,
                        recs := [], rxBad := [], stackInvalid := false, stackRx := false, primedUp := false, primedDown := false,
                        trig := none, tR := none, states := [(0, .armed)], shift := capShift s x (edgeAt (domAt s x.domain) h.dec) }

/-- `CAP_DISARM`. -/
def specCapDisarm (h : Hdr) (u : Sel) (s : State) : CSpec :=
  { op := 0x0602, unit := if u.kind = 0 then some (2, u.num) else none,
    permitted := selBad s u || (capsOf s u).all (ownsCell s h.ctx), modeOk := modeRest s,
    err := if selBad s u then some .badArg else if (capsOf s u).any (capFull s) then some .pendingFull else none }

/-- `CAP_TRIGGER`. -/
def specCapTrigger (h : Hdr) (c : Nat) (s : State) : CSpec := specCap h 0x0603 c (modeStart s [c]) none s

/-- A released count, taken modulo 2^32 (R187). -/
def newRd (x : Cap) (rd : Nat) : Nat := x.rd + (rd + 2 ^ 32 - x.rd % 2 ^ 32) % 2 ^ 32

/-- `CAP_RELEASE`. -/
def specCapRelease (h : Hdr) (c rd : Nat) (s : State) : CSpec :=
  let x := capAt s c
  specCap h 0x0604 c (modeRest s) (if x.recLog2 = 0 ∨ 2 ^ 32 ≤ rd ∨ x.wr < newRd x rd then some .badArg else none) s

/-- The decision of `CAP_RELEASE`; a count no longer in the committed range is ignored. -/
def decCapRelease (c rd : Nat) (s : State) : State :=
  let x := capAt s c
  if x.wr < newRd x rd then capIgnored c s else { s with caps := tset {} s.caps c { x with rd := newRd x rd } }

/-- `CAP_TRIG_SET`. -/
def specCapTrigSet (h : Hdr) (c enable : Nat) (thr : Int) (hyst edge : Nat) (s : State) : CSpec :=
  specCap h 0x0605 c (modeLoad s)
    (if 1 < enable ∨ thr < -(2 ^ 23) ∨ 2 ^ 23 ≤ thr ∨ 2 ^ 23 ≤ hyst ∨ edge = 0 ∨ 3 < edge ∨ (capAt s c).st = .off then some .badArg
      else none) s

/-- The decision of `CAP_TRIG_SET`: the trigger starts unprimed. -/
def decCapTrigSet (c enable : Nat) (thr : Int) (hyst edge : Nat) (s : State) : State :=
  if (capAt s c).st = .off then capIgnored c s
  else modCap s c fun x => { x with trigEn := enable = 1, thr := thr, hyst := hyst, edge := edge, primedUp := false, primedDown := false }

/-- `CAP_UNBIND`. -/
def specCapUnbind (h : Hdr) (c : Nat) (s : State) : CSpec :=
  specCap h 0x0606 c (modeLoad s) (if (capAt s c).st = .bound then none else some .badState) s

/-- The decision of `CAP_UNBIND`. -/
def decCapUnbind (c : Nat) (s : State) : State :=
  if (capAt s c).st = .bound then
    modCap s c fun x => { x with st := .off, domain := 0, k := 0, slot := 0, recBase := 0, recLog2 := 0, mode := 0, trigEn := false }
  else capIgnored c s

/-- `CAP_CLEAR`. -/
def specCapClear (h : Hdr) (c : Nat) (mask : DWord) (s : State) : CSpec :=
  specCap h 0x0607 c (modeRest s) (if capMaskOk mask then none else some .badArg) s

/-- The decision of `CAP_CLEAR` (R474). -/
def decCapClear (c : Nat) (mask : DWord) (s : State) : State :=
  modCap s c fun x => { x with flags := clearFlags mask x.flags, missed := clearTo mask 0 x.missed, gapSamples := clearTo mask 1 x.gapSamples }

/-! ### The commands and events -/

/-- CAP_BIND: R172. -/
def execCapBind (h : Hdr) (channel domain k slot recBase recLog2 mode : Nat) (s : State) : Host.Outcome State Fault Refusal :=
  berza h (.capBind h channel domain k slot recBase recLog2 mode) (specCapBind h channel domain k slot recBase recLog2 mode s) s

/-- CAP_ARM: R196, R199. -/
def execCapArm (h : Hdr) (channel : Nat) (a : CapArmArgs) (s : State) : Host.Outcome State Fault Refusal :=
  berza h (.capArm h channel a) (specCapArm h channel a s) s

/-- CAP_ARM_FILL_DONE: R196. -/
def execCapArmFillDone (channel : Nat) (s : State) : Host.Outcome State Fault Refusal :=
  actOn (decide (channel < nCells s)) s (capArmFillDone channel)

/-- CAP_DISARM: R176. -/
def execCapDisarm (h : Hdr) (unit : Sel) (s : State) : Host.Outcome State Fault Refusal :=
  berza h (.capDisarm h unit) (specCapDisarm h unit s) s

/-- CAP_TRIGGER: R179. -/
def execCapTrigger (h : Hdr) (channel : Nat) (s : State) : Host.Outcome State Fault Refusal :=
  berza h (.capTrigger h channel) (specCapTrigger h channel s) s

/-- CAP_RELEASE: R187. -/
def execCapRelease (h : Hdr) (channel rd : Nat) (s : State) : Host.Outcome State Fault Refusal :=
  berza h (.capRelease h channel rd) (specCapRelease h channel rd s) s

/-- CAP_TRIG_SET: R185. -/
def execCapTrigSet (h : Hdr) (channel enable : Nat) (thr : Int) (hyst edge : Nat) (s : State) : Host.Outcome State Fault Refusal :=
  berza h (.capTrigSet h channel enable thr hyst edge) (specCapTrigSet h channel enable thr hyst edge s) s

/-- CAP_UNBIND: R176. -/
def execCapUnbind (h : Hdr) (channel : Nat) (s : State) : Host.Outcome State Fault Refusal :=
  berza h (.capUnbind h channel) (specCapUnbind h channel s) s

/-- CAP_CLEAR: R199, R474. -/
def execCapClear (h : Hdr) (channel : Nat) (mask : DWord) (s : State) : Host.Outcome State Fault Refusal :=
  berza h (.capClear h channel mask) (specCapClear h channel mask s) s

/-- CAPTURE_SAMPLE: R173, R177. -/
def execCaptureSample (channel : Nat) (word : Word) (s : State) : Host.Outcome State Fault Refusal :=
  actOn (decide (channel < nCells s)) s (captureSample channel word)

/-- REARM_TICK: R182, R183. -/
def execRearmTick (channel : Nat) (s : State) : Host.Outcome State Fault Refusal :=
  actOn (decide (channel < nCells s)) s (rearmTick channel)

/-- STREAM_CHUNK: R191. -/
def execStreamChunk (hive samples : Nat) (s : State) : Host.Outcome State Fault Refusal :=
  actOn (decide (hive < nHives s)) s (streamChunk hive samples)

/-- RECORD_COMMIT: R188. -/
def execRecordCommit (channel : Nat) (s : State) : Host.Outcome State Fault Refusal :=
  actOn (decide (channel < nCells s)) s (recordCommit channel)

end Sys2Proof.Machine
end

