-- ==== Sys2Proof/Machine/Tasks.lean ====
section
/-! DEFINITION. Task decisions (spec/08, R79 to R81, R179, R210 to R214) and the waggle commands (R217 to R221). -/

namespace Sys2Proof.Machine

/-! ### Events decided at a task input (R212) -/

/-- Put an event into a list ordered by channel. -/
def insertEvent (e : Event) : List Event → List Event
  | [] => [e]
  | f :: t => if e.channel < f.channel then e :: f :: t else f :: insertEvent e t

/-- The events that a task holds for a decision tick and whose gates are true, lowest channel first (R209, R212). -/
def eventsAt (s : State) (t dec : Nat) : List Event :=
  ((taskAt s t).held.filterMap fun p => if p.1 = dec && heldGate s p.2 then some p.2.ev else none).foldl (fun l e => insertEvent e l) []

/-- The SCOPE that the event a task runs for arrived under. -/
def scopeAt (s : State) (t dec : Nat) : Nat :=
  match (eventsAt s t dec).head? with
  | none => (taskAt s t).scope
  | some e =>
    match (taskAt s t).held.find? fun p => p.1 = dec && p.2.ev = e with
    | some p => p.2.scope
    | none => (taskAt s t).scope

/-- The earliest decision tick that a task holds. -/
def nextDecision (s : State) (t : Nat) : Option Nat :=
  (taskAt s t).held.foldl (fun o p => match o with
    | none => some p.1
    | some d => some (min d p.1)) none

/-- Take the events of a decision tick off a task; GATED where the gate of one was false. -/
def dropEvents (t dec : Nat) (s : State) : State :=
  let cut := (taskAt s t).held.any fun p => p.1 = dec && !heldGate s p.2
  modTask s t fun k => { k with held := k.held.filter fun p => p.1 ≠ dec, gated := k.gated || cut }

/-- The task runs once for coincident events: its own is the first; the record (R212, R223). -/
def noteRun (t : Nat) (es : List Event) (s : State) : State :=
  match es with
  | [] => s
  | e :: rest =>
    modTask s t fun k =>
      let k1 := { k with act := k.act + 1 }
      if rest.isEmpty then k1 else { k1 with coincident := true, coCount := min 3 rest.length, coChannel := e.channel }

/-- The highest generation of some events (R212, R214). -/
def maxGen (es : List Event) : Nat := es.foldl (fun g e => max g e.gen) 0

/-- Some of the events descends from a TAINT entry. -/
def anyTaint (es : List Event) : Bool := es.any (·.taint)

/-! ### Order of decisions (R62) -/

/-- Rank of a task decision, on the scale of `rank`. -/
def taskRank (t : Nat) : Nat :=
  match taskKind t with
  | some (.cell _ 4) => 5
  | some (.cell _ 5) => 2
  | some (.cell _ 6) => 4
  | some (.cell ..) => 7
  | some (.cap _ 0) => 1
  | _ => 3

/-- Whether (tick, rank) comes before (tick, rank). -/
def comesFirst (d r e q : Nat) : Bool := decide (d < e) || (d = e && decide (r < q))

/-- A decision on a cell that comes before rank `r` of tick `d` and has not been made. -/
def cellEarlier (s : State) (c d r : Nat) : Bool :=
  (s.held.any fun x => actsOnCell s c x.cmd && comesFirst x.dec (rank x.cmd) d r) ||
    cellEvent s c fun t dec => comesFirst dec (taskRank t) d r

/-- A held command that acts on a capture channel. -/
def actsOnCap (s : State) (c : Nat) (i : Instr) : Bool :=
  capWaits s c i || match i with
    | .modeSet .. => true
    | .warmReset .. => true
    | .calStart .. => true
    | _ => false

/-- A decision on a capture channel that comes before rank `r` of tick `d` and has not been made. -/
def capEarlier (s : State) (c d r : Nat) : Bool :=
  (s.held.any fun x => actsOnCap s c x.cmd && comesFirst x.dec (rank x.cmd) d r) ||
    s.tasks.any fun p => (p.1 = 0x2000 + 2 * c || p.1 = 0x2001 + 2 * c) && p.2.held.any fun e => comesFirst e.1 (taskRank p.1) d r

/-- The grid of a capture channel has come to a decision: every earlier sample has been taken (R41). -/
def capCaughtUp (s : State) (c dec : Nat) : Bool :=
  let x := capAt s c
  let d := domAt s x.domain
  x.st = .off || x.st = .bound || !d.guardOpen || decide (edgeAt d dec ≤ capEdge x x.n)

/-! ### Jumps (R79 to R81) -/

/-- The lowest entry of the current step's map that takes an event at jump input `k` (R80). -/
def jumpEntry (s : State) (c k origin : Nat) : Option JumpRow :=
  let x := cellAt s c
  let st := stepAt s c x x.step
  match x.arm with
  | none => none
  | some a =>
    if st.jmap = 0xFF then none
    else
      ((upFrom 8 0).map fun i => jumpOf (ofLe (memRead s.comb (combAddr (hiveOf c) 0 (a.jmapBase + 64 * st.jmap + 8 * i)) 8))).find? fun j =>
        j.valid && j.input = k && gateTrue s j.gate j.gateSrc origin

/-- An accepted jump at n_D: levels not kept are deactivated, n_D to n_D + 7 are dead time, and the target is entered at n_D + 8
(R71, R75, R80), whatever part of a gapped dead time has passed (DEDUCED, log 74: R79 says there that the total remains 8). -/
def takeJump (c : Nat) (j : JumpRow) (gen : Nat) (taint : Bool) (s : State) : State :=
  let s1 := endLate c (endGap c (noteTaint c taint s))
  let x := cellAt s1 c
  let y := { x with loops := x.loops.filter fun p => bitOf j.keep p.1, dead := 8, hist := [], gen := gen, tainted := taint,
                         step := j.target, pos := 0, passes := 0, entering := true }
  putCell s1 c y

/-- The jump events of a cell at one decision tick, one for each input: input, own event, highest generation, taint. -/
def jumpEvents (s : State) (c dec : Nat) : List (Nat × Event × Nat × Bool) :=
  (upFrom 4 0).filterMap fun k =>
    match eventsAt s (cellTask c k) dec with
    | [] => none
    | e :: t => some (k, e, maxGen (e :: t) + 1, anyTaint (e :: t))

/-- Of two accepted jumps, the one on the lower channel. -/
def lowerJump (a b : JumpRow × Event × Nat × Bool) : JumpRow × Event × Nat × Bool :=
  if b.2.1.channel < a.2.1.channel then b else a

/-- The jumps of a cell decided at tick `dec`: each judged under R80, with a notice for each that finds no entry; the lowest
channel of those accepted wins (R81). A stop or pause that took effect at the same sample drops them. -/
def decideJumps (c dec : Nat) (s : State) : State :=
  let s := takeNext c (noteActed c dec s)
  let es := jumpEvents s c dec
  let s1 := (upFrom 4 0).foldl (fun s k => dropEvents (cellTask c k) dec (noteRun (cellTask c k) (eventsAt s (cellTask c k) dec) s)) s
  let x := cellAt s1 c
  if es.isEmpty then s1
  else if x.st ≠ .running ∨ x.haltAt = some x.n then setFlags 4 c s1
  else
    let ok := es.filterMap fun p => (jumpEntry s1 c p.1 p.2.1.origin).map fun j => (j, p.2)
    let unbound := es.length - ok.length
    let s2 := if unbound = 0 then s1
      else
        forUp (fun _ s => raise s { block := .cel, bit := 2, cls := 0, obj := c, owner := some (cellOwner s c).owner }) unbound 0
          (setFlags 2 c s1)
    match ok with
    | [] => s2
    | a :: t =>
      let w := t.foldl lowerJump a
      let s3 := if t.isEmpty then s2 else setFlags 8 c s2
      takeJump c w.1 w.2.2.1 w.2.2.2 s3

/-! ### Triggers (R179, R212) -/

/-- The held `CAP_TRIGGER` commands of a channel for a decision tick. -/
def heldTriggers (s : State) (c dec : Nat) : List Held :=
  s.held.filter fun x => x.dec = dec && match x.cmd with
    | .capTrigger _ ch => ch = c
    | _ => false

/-- The event that a `CAP_TRIGGER` counts as: channel 512, origin T_eff - H (R179). -/
def commandTrigger (s : State) (dec : Nat) : Event :=
  ⟨dec - s.time.horizon, 512, true, 0, Config.capTriggerSrc.toNat, false⟩

/-- The TRIG input of a channel runs once for the events and commands of tick `dec`; where the channel does not act, all
are discarded (R212, R216). -/
def trigDecide (c dec : Nat) (s : State) : State :=
  let t := 0x2000 + 2 * c
  let hs := heldTriggers s c dec
  let es := eventsAt s t dec ++ hs.map fun _ => commandTrigger s dec
  let s1 := { dropEvents t dec s with held := s.held.filter fun x => !hs.contains x }
  match es with
  | [] => s1
  | e :: rest =>
    if !wagActs s c then s1
    else decideTrigger c { e with gen := maxGen (e :: rest), taint := anyTaint (e :: rest) } (noteRun t es s1)

/-! ### Pins and swarm drives (R210, R213, R252) -/

/-- The task record and the notice of a busy consumer. -/
def retrigger (t : Nat) (s : State) : State :=
  wagFault (modTask s t fun k => { k with overrun := true }) 1 0 t (some (taskOwner s t).owner)

/-- A pin task acts on an output. -/
def pinTask (p t dec : Nat) (s : State) : State :=
  let x := pinAt s p
  match x.action with
  | 0 => drivePin p (fun y => { y with drive := !y.idle }) s
  | 1 => drivePin p (fun y => { y with drive := y.idle }) s
  | 2 => drivePin p (fun y => { y with drive := !y.drive }) s
  | _ =>
    if x.pulseEnd.any fun e => decide (dec < e) then retrigger t s
    else drivePin p (fun y => { y with drive := !y.idle, pulseEnd := some (dec + y.width) }) s

/-- Launch instant of a swarm drive decided at a tick, in 1/64 time unit: 16 (D + SWL_LEAD) + 8 - COMP (R252). -/
def swlLaunch (s : State) (l dec : Nat) : Nat := 64 * (16 * (dec + s.col.swlLead) + 8) - tget 0 s.col.swlComp l

/-- A swarm task asserts its line unless an assertion is in progress. -/
def swarmTask (l t dec : Nat) (s : State) : State :=
  if tget 0 s.col.drives l ≠ 0 ∨ 1024 * dec < tget 0 s.col.asserted l then retrigger t s
  else { s with col := { s.col with drives := tset 0 s.col.drives l (swlLaunch s l dec) } }

/-- SWARM_DRIVE_LAUNCH: the falling edge is launched at its instant; the release follows WIDTH ticks later. -/
def swarmDriveLaunch (l : Nat) (s : State) : State :=
  let t := tget 0 s.col.drives l
  if t = 0 ∨ 1024 * (s.time.tick + 1) ≤ t then s
  else
    { s with col := { s.col with drives := tset 0 s.col.drives l 0,
                                 asserted := tset 0 s.col.asserted l (t + 1024 * (pinAt s (32 + l)).width) } }

/-- SWARM_DRIVE_RELEASE: the line is released at its instant. -/
def swarmDriveRelease (l : Nat) (s : State) : State :=
  let t := tget 0 s.col.asserted l
  if t = 0 ∨ 1024 * (s.time.tick + 1) ≤ t then s
  else { s with col := { s.col with asserted := tset 0 s.col.asserted l 0 } }

/-- The manager pulls a line low for its calibration pulse: 16 ticks from the launch tick (R248). -/
def calPulse (s : State) (l : Nat) : Bool :=
  let t := tget 0 s.col.calLines l
  s.col.role = 1 && t ≠ 0 && decide (t ≤ s.time.tick) && decide (s.time.tick < t + 16)

/-- Whether the device drives a swarm line low (R216, R248). -/
def swlDriven (s : State) (l : Nat) : Bool :=
  (wagSwarm s && s.md.mode ≠ .replay && tget 0 s.col.asserted l ≠ 0) || calPulse s l

/-! ### Counters and timers (R210) -/

/-- A count: at TERMINAL an event with origin `dec`, then 0 or held. -/
def countTask (i dec gen : Nat) (taint : Bool) (s : State) : State :=
  let x := ctrAt s i
  if x.held then s
  else
    let v := (x.value + 1) % 2 ^ 32
    if v = x.terminal then
      produce { s with counters := tset {} s.counters i { x with value := if x.reload then 0 else v, held := !x.reload } }
        (srcIdOf 4 0 i) dec true gen taint
    else { s with counters := tset {} s.counters i { x with value := v } }

/-- The counts and resets of one counter at a tick: a reset beside a count leaves 0 and no event. -/
def counterTasks (i dec : Nat) (s : State) : State :=
  let tc := 0x2840 + 2 * i
  let cs := eventsAt s tc dec
  let rs := eventsAt s (tc + 1) dec
  let s1 := dropEvents (tc + 1) dec (dropEvents tc dec s)
  if !wagCounts s && s.md.mode ≠ .replay then s1
  else
    let s2 := noteRun (tc + 1) rs (noteRun tc cs s1)
    if !rs.isEmpty then { s2 with counters := tmod {} s2.counters i fun x => { x with value := 0, held := false } }
    else if cs.isEmpty then s2
    else countTask i dec (maxGen cs + 1) (anyTaint cs) s2

/-- A timer starts: first expiry DELAY ticks on, COUNT expiries. -/
def timerStart (t : Timer) (dec gen : Nat) (taint : Bool) : Timer :=
  { t with running := true, next := dec + t.delay, remaining := if t.count = 0 then none else some t.count, gen := gen, taint := taint }

/-- The starts and stops of one timer at a tick: both together leave it stopped. -/
def timerTasks (i dec : Nat) (s : State) : State :=
  let ts := 0x2900 + 2 * i
  let ss := eventsAt s ts dec
  let es := eventsAt s (ts + 1) dec
  let s1 := dropEvents (ts + 1) dec (dropEvents ts dec s)
  let x := tmrAt s i
  if (!wagCounts s && s.md.mode ≠ .replay) || !x.programmed then s1
  else
    let s2 := noteRun (ts + 1) es (noteRun ts ss s1)
    if !es.isEmpty then { s2 with timers := tset {} s2.timers i { x with running := false } }
    else if ss.isEmpty then s2
    else if x.running then retrigger ts s2
    else { s2 with timers := tset {} s2.timers i (timerStart x dec (maxGen ss + 1) (anyTaint ss)) }

/-! ### TASK_DECISION -/

/-- The cells that a START, STOP or PAUSE input acts on at a decision: its own, or the group of SCOPE (R209, R220). -/
def taskCells (s : State) (t dec c : Nat) : List Nat :=
  let sc := scopeAt s t dec
  if sc = 0x7F then [c] else selCells s ⟨1, sc⟩

/-- START, STOP and PAUSE decided (R210): as the commands. Cells that may not act discard the input (R216); a start of a group
still shows START_IGNORED on them where other members act (R88). -/
def cellTaskRun (t c k dec : Nat) (s : State) : State :=
  let es := eventsAt s t dec
  let all := taskCells s t dec c
  let acting := all.filter (wagActs s)
  let cells := if k = 4 ∧ !acting.isEmpty then all else acting
  let g := maxGen es + 1
  let y := anyTaint es
  let s1 := dropEvents t dec s
  if cells.isEmpty || es.isEmpty then s1
  else
    cells.foldl (fun s c =>
        let s := noteActed c dec s
        if k = 4 then startCell c dec g y s else if k = 5 then stopCell c g y s else pauseCell c g y s)
      (noteRun t es s1)

/-- A cell whose samples before tick `dec` have all been emitted, and no decision comes first. -/
def cellReadyFor (s : State) (dec r c : Nat) : Bool := caughtUp s c dec && !cellEarlier s c dec r

/-- The first decision tick of a task comes: the task acts, once every decision and every sample that comes before it
has been made (R41, R62). -/
def taskRun (t dec : Nat) (s : State) : State :=
  let r := taskRank t
  match taskKind t with
  | none => s
  | some (.cell c k) =>
    if k < 4 then
      if !cellReadyFor s dec r c then s
      else if wagActs s c then decideJumps c dec s
      else (upFrom 4 0).foldl (fun s k => dropEvents (cellTask c k) dec s) s
    else if (taskCells s t dec c).all (cellReadyFor s dec r) then cellTaskRun t c k dec s
    else s
  | some (.cap c k) =>
    if !capCaughtUp s c dec || capEarlier s c dec r then s
    else if k = 0 then trigDecide c dec s
    else if wagActs s c && !(eventsAt s t dec).isEmpty then armInput c dec (dropEvents t dec (noteRun t (eventsAt s t dec) s))
    else dropEvents t dec s
  | some (.pin p) =>
    let s1 := dropEvents t dec s
    if !(pinAt s p).output || !(wagPins s || s.md.mode = .replay) || (eventsAt s t dec).isEmpty then s1
    else pinTask p t dec (noteRun t (eventsAt s t dec) s1)
  | some (.swarm l) =>
    let s1 := dropEvents t dec s
    if !(wagSwarm s || s.md.mode = .replay) || (eventsAt s t dec).isEmpty then s1 else swarmTask l t dec (noteRun t (eventsAt s t dec) s1)
  | some (.counter i _) => counterTasks i dec s
  | some (.timer i _) => if (tmrAt s i).running && decide ((tmrAt s i).next < dec) then s else timerTasks i dec s

/-- TASK_DECISION (R210): the events whose decision tick has come. -/
def taskDecision (t : Nat) (s : State) : State :=
  match nextDecision s t with
  | none => s
  | some dec => if s.time.tick < dec then s else taskRun t dec s

/-- TASK_DECISION: R210. -/
def execTaskDecision (task : Nat) (s : State) : Host.Outcome State Fault Refusal :=
  actOn (taskKind task).isSome s (taskDecision task)

/-- SWARM_DRIVE_LAUNCH: R252. -/
def execSwarmDriveLaunch (line : Nat) (s : State) : Host.Outcome State Fault Refusal :=
  actOn (decide (line < 16)) s (swarmDriveLaunch line)

/-- SWARM_DRIVE_RELEASE: R252. -/
def execSwarmDriveRelease (line : Nat) (s : State) : Host.Outcome State Fault Refusal :=
  actOn (decide (line < 16)) s (swarmDriveRelease line)

/-! ### The waggle commands (R221) -/

/-- The owner of a producer by its SRC_ID; none for a keeper code; an absent producer is not present (R203, R219). -/
def producerOwner (s : State) (src : Nat) : Option Own :=
  match bits src 13 3 with
  | 0 => some (cellOwner s (bits src 0 10))
  | 1 => some (cellOwner s (bits src 0 10))
  | 2 => some (pinAt s (32 * bits src 10 3 + bits src 0 10)).own
  | 3 => some (tmrAt s (bits src 0 10)).own
  | 4 => some (ctrAt s (bits src 0 10)).own
  | _ => none

/-- A SRC_ID of a producer that the device has (R203). -/
def producerHere (s : State) (src : Nat) : Bool :=
  let k := bits src 10 3
  let i := bits src 0 10
  match bits src 13 3 with
  | 0 => k ≠ 3 && decide (i < nCells s)
  | 1 => decide (k ≤ 2) && decide (i < nCells s)
  | 2 => (k = 0 && decide (i < 32)) || (k = 1 && decide (i < 16))
  | 3 => k = 0 && decide (i < 64)
  | 4 => k = 0 && decide (i < 64)
  | 5 => k = 0
  | _ => false

/-- A producer that only the larger variant has (R3). -/
def producerAbsent (s : State) (src : Nat) : Bool := (bits src 13 3 = 0 || bits src 13 3 = 1) && beyond (nCells s) 1024 (bits src 0 10)

/-- The channel a command names is that context's. -/
def ownsChan (s : State) (k w : Nat) : Bool := decide (512 ≤ w) || owns s k (chanAt s w).own

/-- A waggle command of the load class. -/
def specWag (op : Nat) (permitted : Bool) (err : Option Err) (s : State) : CSpec :=
  { op := op, unit := some (9, 0), permitted := permitted, modeOk := modeLoad s, err := err }

/-- `WAG_CHAN_SET` (R205, R206, R219, R253). -/
def specWagChanSet (h : Hdr) (w : Nat) (e : DWord) (s : State) : CSpec :=
  let c : Chan := { chanAt s w with entry := e }
  let src := chanSource c
  let dec := if h.eff = 0 then s.time.tick + s.time.horizon else h.eff
  let ok := decide (w < 512) && bits e.toNat 24 40 = 0 && chanEdge c ≠ 3 && (if chanRelay c then src / 512 = 0 else e = 0 || producerHere s src)
  { specWag 0x0700
      (ownsChan s h.ctx w && (e = 0 || decide (512 ≤ w) ||
        (if chanRelay c then decide (512 ≤ src) || chanShared s h.ctx src
         else !producerHere s src || match producerOwner s src with
          | some o => o.owner = (chanAt s w).own.owner && (ctxSecure s h.ctx || !o.secure)
          | none => true)))
      (if !ok || routeBreaks s dec (.wagChanSet h w e) then some .badArg else none) s with
    ready := !chanFwd c || s.col.calibrated, absent := !chanRelay c && producerAbsent s src }

/-- The decision of `WAG_CHAN_SET`. -/
def decWagChanSet (w : Nat) (e : DWord) (s : State) : State := bumpWag (modChan s w fun c => { c with entry := e })

/-- A slot with a reserved value (R209). -/
def slotBad (w : Word) : Bool :=
  let x := slotOf w
  x.2.2.1 = 3 || !gateSrcOk x.2.2.2 || bits w.toNat 22 10 ≠ 0

/-- A context may use a slot's channel and gate (R219). -/
def slotMay (s : State) (k : Nat) (w : Word) : Bool :=
  let x := slotOf w
  !x.2.1 || (chanShared s k x.1 && (x.2.2.1 = 0 || !gateSrcOk x.2.2.2 || gateMay s k x.2.2.2))

/-- A task input that the device has (R3, R208). -/
def taskHere (s : State) (t : Nat) : Bool :=
  match taskKind t with
  | some (.cell c _) => decide (c < nCells s)
  | some (.cap c _) => decide (c < nCells s)
  | some _ => true
  | none => false

/-- A task input that only the larger variant has (R3). -/
def taskAbsent (s : State) (t : Nat) : Bool := (taskKind t).isSome && !taskHere s t

/-- SCOPE as R209 allows it. -/
def scopeOk (t scope : Nat) : Bool := scope = 0x7F || (decide (t < 0x2000) && decide (4 ≤ t % 8) && decide (scope ≤ 62))

/-- `WAG_TASK_SET`. -/
def specWagTaskSet (h : Hdr) (t : Nat) (slots : List Word) (scope : Nat) (s : State) : CSpec :=
  let dec := if h.eff = 0 then s.time.tick + s.time.horizon else h.eff
  let ok := taskHere s t && decide (slots.length = 4) && !(slots.any slotBad) && scopeOk t scope
  { specWag 0x0701 (!taskHere s t || (owns s h.ctx (taskOwner s t) && slots.all (slotMay s h.ctx)))
      (if !ok || routeBreaks s dec (.wagTaskSet h t slots scope) then some .badArg else none) s with absent := taskAbsent s t }

/-- The decision of `WAG_TASK_SET`; no slot in use is the power-on record. -/
def decWagTaskSet (t : Nat) (slots : List Word) (scope : Nat) (s : State) : State :=
  bumpWag (modTask s t fun k => { k with slots := if slots.all (· = 0) then [] else slots, scope := scope })

/-- `WAG_RAISE` (R217). -/
def specWagRaise (h : Hdr) (w level : Nat) (s : State) : CSpec :=
  let dec := if h.eff = 0 then s.time.tick + s.time.horizon else h.eff
  { op := 0x0702, unit := some (9, 0), permitted := ownsChan s h.ctx w,
    modeOk := s.md.mode = .idle || s.md.mode = .run || s.md.mode = .calibrate,
    err := if 512 ≤ w ∨ 1 < level then some .badArg
      else if !keeperChan (chanAt s w) ∨ raiseTaken s w dec then some .badState else none }

/-- The decision of `WAG_RAISE`: the event is on its channel two ticks on; nothing where the SOURCE is no keeper code by
then. -/
def decWagRaise (w level dec : Nat) (s : State) : State :=
  let c := chanAt s w
  if !keeperChan c then s
  else
    let s1 := modChan s w fun c => { c with lastRaise := some dec }
    bumpWag { s1 with hops := s1.hops ++ [⟨dec + 2, ⟨dec, w, level = 1, 0, chanSource c, false⟩, .onto w, false⟩] }

/-- `WAG_TIMER_SET`. -/
def specWagTimerSet (h : Hdr) (i first period count delay : Nat) (s : State) : CSpec :=
  let dec := if h.eff = 0 then s.time.tick + s.time.horizon else h.eff
  specWag 0x0703 (decide (64 ≤ i) || owns s h.ctx (tmrAt s i).own)
    (if 64 ≤ i ∨ (first ≠ 0 ∧ (first < dec ∨ 2 ^ 60 ≤ first)) ∨ period = 0 ∨ 2 ^ 32 ≤ period ∨ 2 ^ 32 ≤ count ∨ 2 ^ 32 ≤ delay then some .badArg
      else none) s

/-- The decision of `WAG_TIMER_SET`: the timer stops and is reprogrammed. -/
def decWagTimerSet (i first period count delay : Nat) (s : State) : State :=
  let x : Timer :=
    { programmed := true, running := first ≠ 0, next := first, remaining := if first = 0 ∨ count = 0 then none else some count,
      period := period, count := count, delay := delay, own := (tmrAt s i).own }
  bumpWag { s with timers := tset {} s.timers i x }

/-- `WAG_COUNTER_SET`. -/
def specWagCounterSet (h : Hdr) (i value terminal reload : Nat) (s : State) : CSpec :=
  specWag 0x0704 (decide (64 ≤ i) || owns s h.ctx (ctrAt s i).own)
    (if 64 ≤ i ∨ terminal = 0 ∨ 2 ^ 32 ≤ terminal ∨ terminal < value ∨ 1 < reload ∨ (value = terminal ∧ reload = 1) then some .badArg
      else none) s

/-- The decision of `WAG_COUNTER_SET`: VALUE = TERMINAL leaves the counter HELD. -/
def decWagCounterSet (i value terminal reload : Nat) (s : State) : State :=
  let x : Counter := { value := value, terminal := terminal, reload := reload = 1, held := value = terminal, own := (ctrAt s i).own }
  bumpWag { s with counters := tset {} s.counters i x }

/-- A pulse or a swarm assertion of a pin is in progress. -/
def pinBusy (s : State) (p : Nat) : Bool :=
  if p < 32 then (pinAt s p).pulseEnd.isSome else tget 0 s.col.drives (p - 32) ≠ 0 || tget 0 s.col.asserted (p - 32) ≠ 0

/-- `WAG_PIN_SET`. -/
def specWagPinSet (h : Hdr) (p dir idle action width : Nat) (s : State) : CSpec :=
  specWag 0x0705 (decide (48 ≤ p) || owns s h.ctx (pinAt s p).own)
    (if 48 ≤ p ∨ 1 < dir ∨ 1 < idle ∨ 3 < action ∨ width = 0 ∨ 65535 < width ∨ (32 ≤ p ∧ (dir ≠ 0 ∨ idle ≠ 1 ∨ action ≠ 3)) then some .badArg
      else if pinBusy s p then some .badState else none) s

/-- A pin under new settings: a pulse ends and the pin idles; a level driven otherwise stays active or idle. -/
def pinSet (x : Pin) (dir idle action width : Nat) : Pin :=
  let active := x.output && x.pulseEnd.isNone && x.drive ≠ x.idle && dir = 1
  { x with output := dir = 1, idle := idle = 1, action := action, width := width, pulseEnd := none,
           drive := if active then idle ≠ 1 else idle = 1 }

/-- The decision of `WAG_PIN_SET`. -/
def decWagPinSet (p dir idle action width : Nat) (s : State) : State :=
  if p < 32 then bumpWag (drivePin p (fun x => pinSet x dir idle action width) s)
  else
    let s1 := modPin s p fun x => { x with idle := true, width := width }
    bumpWag { s1 with col := { s1.col with drives := tset 0 s1.col.drives (p - 32) 0, asserted := tset 0 s1.col.asserted (p - 32) 0 } }

/-- `WAG_WATCH_READ`: any mode, any context (R218). -/
def specWagWatchRead : CSpec := { op := 0x0706, unit := some (9, 0), cls := .d }

/-- The SEEN bits of the channels that a context owns, 64 bytes. -/
def seenBits (s : State) (k : Nat) : List Byte :=
  le 64 (pack ((upFrom 512 0).map fun w => (1, b2n ((chanAt s w).seen && owns s k (chanAt s w).own))))

/-- The decision of `WAG_WATCH_READ`: returned and cleared. -/
def decWagWatchRead (x : Held) (s : State) : State :=
  let r := seenBits s x.ctx
  let ws := (s.chans.filter fun p => p.2.seen && owns s x.ctx p.2.own).map (·.1)
  let s1 := ws.foldl (fun s w => modChan s w fun c => { c with seen := false }) s
  finish (bumpWag s1) x 0x0706 (some (9, 0)) .ok r

/-- `WAG_CLEAR`: a channel (kind 0) or a task (kind 1). -/
def specWagClear (h : Hdr) (u : Sel) (mask : DWord) (level : Nat) (s : State) : CSpec :=
  if u.kind = 0 then
    specWag 0x0707 (ownsChan s h.ctx u.num)
      (if 512 ≤ u.num ∨ !chanMaskOk mask ∨ (1 < level ∧ level ≠ 0xFF) then some .badArg else none) s
  else
    { specWag 0x0707 (!taskHere s u.num || owns s h.ctx (taskOwner s u.num))
        (if u.kind ≠ 1 ∨ !taskHere s u.num ∨ !taskMaskOk mask ∨ level ≠ 0xFF then some .badArg else none) s with
      absent := u.kind = 1 && taskAbsent s u.num }

/-- The decision of `WAG_CLEAR` (R474). -/
def decWagClear (u : Sel) (mask : DWord) (level dec : Nat) (s : State) : State :=
  if u.kind = 0 then
    bumpWag (modChan s u.num fun c =>
      { c with seen := c.seen && !mask.getLsbD 2, loopCut := c.loopCut && !mask.getLsbD 3,
               loopSrc := if mask.getLsbD 3 then 0 else c.loopSrc, count := if clears mask 0 then 0 else c.count,
               ops := if level = 0xFF then c.ops else opPrune (opInsert dec (.set (level = 1)) c.ops) s.time.tick })
  else
    bumpWag (modTask s u.num fun k =>
      { k with coincident := k.coincident && !mask.getLsbD 0, coCount := if mask.getLsbD 0 then 0 else k.coCount,
               coChannel := if mask.getLsbD 0 then 0 else k.coChannel, overrun := k.overrun && !mask.getLsbD 13,
               gated := k.gated && !mask.getLsbD 14, late := k.late && !mask.getLsbD 15,
               ovrCount := clearTo mask 0 k.ovrCount, act := if clears mask 1 then 0 else k.act })

/-- The objects of a KIND of `WAG_OWNER_SET`. -/
def ownKinds (kind : Nat) : Nat :=
  match kind with
  | 0 => 512
  | 1 => 64
  | 2 => 64
  | 3 => 32
  | 4 => 16
  | _ => 0

/-- Some slot in use satisfies `p`. -/
def anySlot (s : State) (p : Nat × Bool × Nat × Nat → Bool) : Bool :=
  s.tasks.any fun t => (t.2.slots.map slotOf).any fun x => x.2.1 && p x

/-- A task input has a slot in use. -/
def taskActive (s : State) (t : Nat) : Bool := ((taskAt s t).slots.map slotOf).any fun x => x.2.1

/-- An enabled channel has this producer as its source. -/
def sourceUsed (s : State) (src : Nat) : Bool := s.chans.any fun p => chanEnabled p.2 && !chanRelay p.2 && chanSource p.2 = src

/-- An object that may not change owner (R221). -/
def wagUsed (s : State) (kind i : Nat) : Bool :=
  match kind with
  | 0 => chanEnabled (chanAt s i) || anySlot s fun x => x.1 = i || (x.2.2.1 ≠ 0 && x.2.2.2 = i)
  | 1 => sourceUsed s (srcIdOf 3 0 i) || taskActive s (0x2900 + 2 * i) || taskActive s (0x2901 + 2 * i)
  | 2 => sourceUsed s (srcIdOf 4 0 i) || taskActive s (0x2840 + 2 * i) || taskActive s (0x2841 + 2 * i)
  | 3 => sourceUsed s (srcIdOf 2 0 i) || taskActive s (0x2800 + i) || anySlot s fun x => x.2.2.1 ≠ 0 && x.2.2.2 = 512 + i
  | _ => sourceUsed s (srcIdOf 2 1 i) || taskActive s (0x2820 + i) || anySlot s fun x => x.2.2.1 ≠ 0 && x.2.2.2 = 544 + i

/-- `WAG_OWNER_SET`. -/
def specWagOwnerSet (h : Hdr) (kind i owner secure : Nat) (s : State) : CSpec :=
  specWag 0x0708 (h.ctx = 0)
    (if ownKinds kind ≤ i ∨ 16 ≤ owner ∨ 1 < secure ∨ (secure = 1 ∧ !ctxSecure s owner) then some .badArg
      else if wagUsed s kind i then some .badState else none) s

/-- Give an object of a KIND an owner. -/
def wagOwn (kind i : Nat) (o : Own) (s : State) : State :=
  match kind with
  | 0 => modChan s i fun x => { x with own := o }
  | 1 => { s with timers := tmod {} s.timers i fun x => { x with own := o } }
  | 2 => { s with counters := tmod {} s.counters i fun x => { x with own := o } }
  | 3 => modPin s i fun x => { x with own := o }
  | _ => modPin s (32 + i) fun x => { x with own := o }

/-- The decision of `WAG_OWNER_SET`; nothing where the object is in use by then. -/
def decWagOwnerSet (kind i owner secure : Nat) (s : State) : State :=
  if wagUsed s kind i then s else bumpSec (bumpWag (wagOwn kind i ⟨owner, secure = 1⟩ s))

/-- WAG_CHAN_SET: R205. -/
def execWagChanSet (h : Hdr) (channel : Nat) (entry : DWord) (s : State) : Host.Outcome State Fault Refusal :=
  berza h (.wagChanSet h channel entry) (specWagChanSet h channel entry s) s

/-- WAG_TASK_SET: R209. -/
def execWagTaskSet (h : Hdr) (task : Nat) (slots : List Word) (scope : Nat) (s : State) : Host.Outcome State Fault Refusal :=
  berza h (.wagTaskSet h task slots scope) (specWagTaskSet h task slots scope s) s

/-- WAG_RAISE: R217. -/
def execWagRaise (h : Hdr) (channel level : Nat) (s : State) : Host.Outcome State Fault Refusal :=
  berza h (.wagRaise h channel level) (specWagRaise h channel level s) s

/-- WAG_TIMER_SET: R211. -/
def execWagTimerSet (h : Hdr) (timer first period count delay : Nat) (s : State) : Host.Outcome State Fault Refusal :=
  berza h (.wagTimerSet h timer first period count delay) (specWagTimerSet h timer first period count delay s) s

/-- WAG_COUNTER_SET: R221. -/
def execWagCounterSet (h : Hdr) (counter value terminal reload : Nat) (s : State) : Host.Outcome State Fault Refusal :=
  berza h (.wagCounterSet h counter value terminal reload) (specWagCounterSet h counter value terminal reload s) s

/-- WAG_PIN_SET: R221. -/
def execWagPinSet (h : Hdr) (pin dir idle action width : Nat) (s : State) : Host.Outcome State Fault Refusal :=
  berza h (.wagPinSet h pin dir idle action width) (specWagPinSet h pin dir idle action width s) s

/-- WAG_WATCH_READ: R218. -/
def execWagWatchRead (h : Hdr) (s : State) : Host.Outcome State Fault Refusal :=
  berza h (.wagWatchRead h) specWagWatchRead s

/-- WAG_CLEAR: R207, R474. -/
def execWagClear (h : Hdr) (unit : Sel) (mask : DWord) (level : Nat) (s : State) : Host.Outcome State Fault Refusal :=
  berza h (.wagClear h unit mask level) (specWagClear h unit mask level s) s

/-- WAG_OWNER_SET: R219. -/
def execWagOwnerSet (h : Hdr) (kind index owner secure : Nat) (s : State) : Host.Outcome State Fault Refusal :=
  berza h (.wagOwnerSet h kind index owner secure) (specWagOwnerSet h kind index owner secure s) s

end Sys2Proof.Machine
end

