-- ==== Sys2Proof/Machine/Links.lean ====
section
/-! DEFINITION. Converter links (spec/10): configuration, states, training, commands and events. -/

namespace Sys2Proof.Machine

/-! ### Lanes and settings (R261 to R264) -/

/-- TX links are numbered 0 to 15, RX links 16 to 31. -/
def isRx (l : Nat) : Bool := decide (16 ≤ l)

/-- The lanes of a link, in its direction. -/
def linkLanes (l : Link) : List Nat := if l.st = .off then [] else upFrom l.l l.firstLane

/-- The links of one direction. -/
def linksOf (rx : Bool) : List Nat := upFrom 16 (if rx then 16 else 0)

/-- The link that uses a lane of a direction. -/
def laneLink (s : State) (rx : Bool) (lane : Nat) : Option Nat :=
  (linksOf rx).find? fun l => (linkLanes (linkAt s l)).contains lane

/-- The exponent of a power of two up to 2^28. -/
def log2of (n : Nat) : Option Nat := (upFrom 29 0).find? fun j => n = 2 ^ j

/-- Octets per frame per lane, where whole. -/
def frameOctets (a : LinkArgs) : Option Nat :=
  if a.l ≠ 0 ∧ 4 * a.m * a.s % a.l = 0 then some (4 * a.m * a.s / a.l) else none

/-- The slot level J of a link of `l` lanes and `m` converters in a domain (R263). -/
def slotLevel (d : Domain) (l m : Nat) : Option Nat :=
  if l = 0 ∨ d.div = 0 ∨ 16 * d.ldiv * m % (l * d.div) ≠ 0 then none else log2of (16 * d.ldiv * m / (l * d.div))

/-- LANE_MAP: each logical lane names one physical lane of the link, reserved bits 0 (R281). -/
def laneMapOk (l : Nat) (m : List Nat) : Bool :=
  m.length = 8 && (m.take l).all (fun b => decide (b < 256) && bits b 3 4 = 0 && decide (b % 8 < l)) &&
    ((m.take l).map (· % 8)).eraseDups.length = l && (m.drop l).all (· = 0)

/-- Whether the arguments of `LINK_SET` are in range (R261 to R263, R272, R278, R280, R281). -/
def linkArgsOk (s : State) (i : Nat) (a : LinkArgs) : Bool :=
  let d := domAt s a.domain
  let rx := isRx i
  let lanes := upFrom a.l a.firstLane
  decide (i < 32) && decide (a.domain ≤ 3) && [1, 2, 4, 8].contains a.l && a.firstLane % a.l = 0 &&
    decide (a.firstLane + a.l ≤ nLanes s) && decide (1 ≤ a.m) && decide (a.m ≤ 256) && [1, 2, 4].contains a.s &&
    decide (1 ≤ a.e) && decide (a.e ≤ 32) && d.ldiv ≠ 0 && laneMapOk a.l a.laneMap &&
    (match frameOctets a with
      | some f => decide (1 ≤ f) && decide (f ≤ 256) && 256 * a.e % f = 0
      | none => false) &&
    (slotLevel d a.l a.m).isSome && decide (a.retryS ≤ 3600) && decide (a.safeLink ≤ 1) && decide (a.cap24 ≤ 1) &&
    ((linksOf rx).all fun k => k = i || !((linkLanes (linkAt s k)).any fun x => lanes.contains x)) &&
    (if rx then
      decide (1 ≤ a.rxLat) && decide (a.rxLat ≤ 1023) && decide (a.crcLimit ≤ 65535) &&
        (a.eyeWMin = 0 || (decide (26 ≤ a.eyeWMin) && decide (a.eyeWMin ≤ 154))) &&
        (a.eyeHMin = 0 || (decide (10 ≤ a.eyeHMin) && decide (a.eyeHMin ≤ 100)))
    else
      decide (1 ≤ a.presets) && decide (a.presets ≤ 8) && (a.statusPin = 0xFF || (decide (a.statusPin < 32) && !(pinAt s a.statusPin).output)))

/-- A cell or a capture channel counts as bound to a link, by its state or by an accepted bind (R279). -/
def linkBound (s : State) (i : Nat) : Bool :=
  (s.cells.any fun p => p.2.st ≠ .off && p.2.target.kind = 0 && p.2.target.num / 256 = i) ||
    (s.caps.any fun p => p.2.st ≠ .off && p.2.slot / 256 = i) ||
    s.held.any fun h => match h.cmd with
      | .cellBind _ _ _ _ t .. => t.kind = 0 && t.num / 256 = i
      | .capBind _ _ _ _ slot .. => slot / 256 = i
      | _ => false

/-! ### State changes (R274 to R278) -/

/-- A fault of the link block, which names a link and a lane. -/
def laneFault (s : State) (bit cls i lane : Nat) : State :=
  raise s { block := .lnk, bit := bit, cls := cls, obj := lnkObj i lane, scope := [i] }

/-- A fault of a whole link, which names its first lane. -/
def lnkFault (s : State) (bit cls i : Nat) : State := laneFault s bit cls i (linkAt s i).firstLane

/-- The mode lets a link leave CLOCK_WAIT: TX lanes are idle in STANDBY and SAFE, RX lanes in STANDBY (R18, R274). -/
def linkModeOk (s : State) (i : Nat) : Bool := s.md.mode ≠ .standby && (isRx i || s.md.mode ≠ .safe)

/-- A link may train or carry data: its domain's guard is open and the mode allows it. -/
def linkRuns (s : State) (i : Nat) : Bool := (domAt s (linkAt s i).domain).guardOpen && linkModeOk s i

/-- Enter ALIGNING. -/
def linkAlign (i : Nat) (s : State) : State :=
  modLink s i fun x => { x with st := .aligning, since := s.time.tick, aligned := false, retrain := false }

/-- Enter DATA. -/
def linkData (i : Nat) (s : State) : State :=
  modLink s i fun x => { x with st := .data, cause := 0, since := s.time.tick, dataSince := s.time.tick }

/-- Training starts from the first setting; a TX link without a status pin passes at once (R276); where the guard is
closed or the mode idles the lanes, the link waits. -/
def linkTrain (i : Nat) (s : State) : State :=
  let s1 := modLink s i fun x =>
    { x with st := .training, preset := 0, since := s.time.tick, retrain := false, arrivalMax := 0, crcRecent := [] }
  if !linkRuns s1 i then modLink s1 i fun x => { x with st := .clockWait, retrain := true }
  else if !isRx i && (linkAt s1 i).statusPin = 0xFF then linkAlign i s1
  else s1

/-- A link goes DOWN with a cause (R278). -/
def linkDown (i cause : Nat) (s : State) : State :=
  let s1 := modLink s i fun x => { x with st := .down, cause := cause, downs := sat 0xFF x.downs, since := s.time.tick }
  lnkFault s1 0 (if (linkAt s1 i).safeLink then 2 else 1) i

/-- A retrain trigger: acts on a link in DATA only (R277). -/
def linkRetrigger (i : Nat) (s : State) : State :=
  if (linkAt s i).st = .data then
    linkTrain i (lnkFault (modLink s i fun x => { x with retrains := sat 0xFF x.retrains }) 1 0 i)
  else s

/-- In STANDBY the RX lanes are powered down and have no lock (R274). -/
def lanesSleep (s : State) : State :=
  if s.md.mode = .standby then
    { s with rxLanes := s.rxLanes.foldl (fun t p => tset {} t p.1 { p.2 with hdrLock := false, embLock := false }) s.rxLanes }
  else s

/-- Follow the guards and the mode: into CLOCK_WAIT, and out of it (R274, R279). -/
def linksFollow (s : State) : State :=
  lanesSleep <| forUp (fun i s =>
    let x := linkAt s i
    if linkRuns s i then
      if x.st = .clockWait then (if x.retrain then linkTrain i s else linkAlign i s) else s
    else if x.st = .training ∨ x.st = .aligning ∨ x.st = .data then
      modLink s i fun x => { x with st := .clockWait, retrain := x.st = .training, since := s.time.tick }
    else s) 32 0 s

/-! ### What a slot carries (R268) -/

/-- The cell bound to a TX slot; while a calibration run lasts, a cell of its set counts as none (R371). -/
def boundCell (s : State) (i slot : Nat) : Option Cell :=
  (s.cells.find? fun p => p.2.st ≠ .off && p.2.target = ⟨0, 256 * i + slot⟩ && !s.md.calCells.contains p.1).map (·.2)

/-- The lanes of a TX link carry its containers: in DATA, and in REPLAY where the mask enables it (R268, R440). -/
def txEmits (s : State) (i : Nat) : Bool :=
  (linkAt s i).st = .data && linkModeOk s i && (s.md.mode ≠ .replay || s.rpl.txMask.getLsbD i)

/-- The container at a slot position of a TX link; `entering` says that one of the bound cell enters there. -/
def slotWord (s : State) (i slot : Nat) (entering : Bool) : Option Word :=
  if !txEmits s i then none
  else
    match (boundCell s i slot).filter (·.outValid) with
    | some x => some (if entering then x.out else x.out &&& ~~~(8 : Word))
    | none => some (BitVec.ofNat 32 (fmtOut (tget (0x180 : Word) (linkAt s i).formats 0).toNat 0 + 5))

/-! ### Commands (R281) -/

/-- A link command, from context 0 only. -/
def specLink (h : Hdr) (op i : Nat) (mode : Bool) (err : Option Err) : CSpec :=
  { op := op, unit := some (7, i), permitted := h.ctx = 0, modeOk := mode, err := if 32 ≤ i then some .badArg else err }

/-- `LINK_SET`. A lane that the device lacks is an absent resource: E_NOT_READY by R3, where R281 lists E_BAD_ARG (DESIGN CHOICE, log
73). -/
def specLinkSet (h : Hdr) (i : Nat) (a : LinkArgs) (s : State) : CSpec :=
  let st := (linkAt s i).st
  { specLink h 0x0800 i (s.md.mode = .bringUp || s.md.mode = .idle)
      (if !linkArgsOk s i a then some .badArg
        else if (st ≠ .off ∧ st ≠ .configured) ∨ linkBound s i then some .badState else none) with
    absent := beyond (nLanes s + 1) 33 (a.firstLane + a.l) }

/-- The decision of `LINK_SET`; nothing where the link, its lanes or the domain have changed so that it could not be
accepted now. -/
def decLinkSet (i : Nat) (a : LinkArgs) (s : State) : State :=
  let x := linkAt s i
  if (x.st ≠ .off ∧ x.st ≠ .configured) ∨ linkBound s i ∨ !linkArgsOk s i a then s
  else
    modLink s i fun x =>
      { x with st := .configured, domain := a.domain, firstLane := a.firstLane, l := a.l, m := a.m, s := a.s, e := a.e,
               f := match frameOctets a with
                 | some f => f
                 | none => 0,
               j := match slotLevel (domAt s a.domain) a.l a.m with
                 | some j => j
                 | none => 0,
               cause := 0, safeLink := a.safeLink = 1, cap24 := isRx i && a.cap24 = 1, rxLat := if isRx i then a.rxLat else 0,
               laneMap := a.laneMap, presets := a.presets, preset := 0, arrivalMax := 0,
               ffe := if isRx i then [] else (upFrom a.presets 0).map fun k => Config.ffePreset i k, statusPin := if isRx i then 0xFF else a.statusPin,
               crcLimit := dflt 16 a.crcLimit, eyeWMin := dflt 77 a.eyeWMin, eyeHMin := dflt 30 a.eyeHMin, retryS := a.retryS }

/-- A domain's SYSREF serves a link (R265): on, its period a whole number of extended multiblocks. -/
def sysrefServes (d : Domain) (x : Link) : Bool :=
  d.srMode ≠ 0 && decide (0 < d.srPeriod) && d.srPeriod * d.num % (1024 * x.e * d.ldiv * d.den) = 0

/-- `LINK_ENABLE`. -/
def specLinkEnable (h : Hdr) (i : Nat) (s : State) : CSpec :=
  let x := linkAt s i
  { specLink h 0x0801 i (modeLoad s)
      (if x.st ≠ .configured ∨ !sysrefServes (domAt s x.domain) x then some .badState else none) with
    ready := decide (32 ≤ i) || x.st = .off || (domAt s x.domain).guardOpen }

/-- The decision of `LINK_ENABLE`. -/
def decLinkEnable (i : Nat) (s : State) : State := if (linkAt s i).st = .configured then linkTrain i s else s

/-- `LINK_DISABLE`. -/
def specLinkDisable (h : Hdr) (i : Nat) (s : State) : CSpec :=
  specLink h 0x0802 i (modeRest s) (if (linkAt s i).st = .off then some .badState else none)

/-- The decision of `LINK_DISABLE`. -/
def decLinkDisable (i : Nat) (s : State) : State :=
  let x := linkAt s i
  if x.st = .off then s
  else
    let lanes := if isRx i then (linkLanes x).foldl (fun t k => tmod {} t k fun y => { y with ctle := 0 }) s.rxLanes else s.rxLanes
    restoreMark 6 [21] (modLink { s with rxLanes := lanes } i fun x =>
      { x with st := .configured, cause := 0, preset := 0, retrain := false, since := s.time.tick })

/-- `LINK_RETRAIN`. -/
def specLinkRetrain (h : Hdr) (i : Nat) (s : State) : CSpec :=
  let st := (linkAt s i).st
  specLink h 0x0803 i (modeLoad s) (if st ≠ .data ∧ st ≠ .down then some .badState else none)

/-- The decision of `LINK_RETRAIN`: a retraining from DATA, a retry from DOWN (R277). -/
def decLinkRetrain (i : Nat) (s : State) : State := if (linkAt s i).st = .down then linkTrain i s else linkRetrigger i s

/-- A capture channel that reads an RX slot is armed (R279). -/
def slotArmed (s : State) (i slot : Nat) : Bool := s.caps.any fun p => p.2.slot = 256 * i + slot && capArmed s p.1

/-- `LINK_SLOT_SET`: the slot is one of the link's M, so an unconfigured link has none (R260, R281; DEDUCED, log 27). -/
def specLinkSlotSet (h : Hdr) (i slot format : Nat) (s : State) : CSpec :=
  specLink h 0x0804 i (modeLoad s)
    (if !isRx i ∨ (linkAt s i).st = .off ∨ (linkAt s i).m ≤ slot ∨ 16 ≤ format then some .badArg else if slotArmed s i slot then some .badState else none)

/-- The decision of `LINK_SLOT_SET`; nothing while a channel on the slot is armed. -/
def decLinkSlotSet (i slot format : Nat) (s : State) : State :=
  if slotArmed s i slot then s
  else
    modLink s i fun x => { x with slotFormats := tset 0 x.slotFormats slot format }

/-- `LINK_EYE_READ`: the unit is the lane's link. -/
def specLinkEyeRead (h : Hdr) (lane : Nat) (s : State) : CSpec :=
  { op := 0x0805, unit := (laneLink s true lane).map fun l => (7, l), cls := .d, permitted := h.ctx = 0, absent := beyond (nLanes s) 32 lane,
    err := if nLanes s ≤ lane then some .badArg
      else match laneLink s true lane with
        | some l => if (linkAt s l).st = .data then none else some .badState
        | none => some .badState }

/-- `CAP_LINK`.SHIFT of the first capture channel that reads a link, 0 where none does (R282 has the reply give it and does not say of
which channel: DESIGN CHOICE, log 58). -/
def linkShift (s : State) (l : Nat) : Nat :=
  match s.caps.find? fun p => p.2.st ≠ .off && p.2.slot / 256 = l with
  | some p => p.2.shift
  | none => 0

/-- The decision of `LINK_EYE_READ`: width, height, CTLE setting, the five DFE taps (R280), and SHIFT (R282). -/
def decLinkEyeRead (x : Held) (lane : Nat) (s : State) : State :=
  let u := (laneLink s true lane).map fun l => (7, l)
  match laneLink s true lane with
  | none => finish s x 0x0805 u .badState
  | some l =>
    if (linkAt s l).st ≠ .data then finish s x 0x0805 u .badState
    else
      let y := tget ({} : RxLane) s.rxLanes lane
      finish s x 0x0805 u .ok
        (res [(1, y.w), (2, y.h), (1, y.ctle)] ++ ((upFrom 5 0).map fun t => Config.dfeTap lane t s.time.tick) ++ res [(4, linkShift s l)])

/-- `LINK_CLEAR`. -/
def specLinkClear (h : Hdr) (i : Nat) (mask : DWord) : CSpec :=
  specLink h 0x0806 i true (if linkMaskOk mask then none else some .badArg)

/-- The decision of `LINK_CLEAR` (R474). -/
def decLinkClear (i : Nat) (mask : DWord) (s : State) : State :=
  let x := linkAt s i
  let y := { x with crcErr := clearTo mask 0 x.crcErr, retrains := clearTo mask 1 x.retrains, downs := clearTo mask 2 x.downs,
                    rxOvr := clearTo mask 3 x.rxOvr, rxInvalid := clearTo mask 4 x.rxInvalid }
  let s1 := { s with links := tset {} s.links i y }
  if clears mask 5 && isRx i then
    { s1 with rxLanes := (linkLanes x).foldl (fun t k => tmod {} t k fun (r : RxLane) => { r with crcErr := 0 }) s1.rxLanes }
  else s1

/-! ### Events (R275 to R278) -/

/-- The eye of a lane meets a link's thresholds. -/
def eyeOk (x : Link) (m : EyeMeas) : Bool := decide (x.eyeWMin ≤ m.w) && decide (x.eyeHMin ≤ m.h)

/-- Note eye measurements. -/
def noteEyes (ms : List EyeMeas) (s : State) : State :=
  { s with rxLanes := ms.foldl (fun t m => tmod {} t m.lane fun (r : RxLane) =>
      { r with w := min 255 m.w, h := min 1023 m.h, ctle := m.ctle % 16 }) s.rxLanes }

/-- The measurements of a CTLE setting on the lanes of a link, where every lane has one that meets the thresholds. -/
def settingEyes (x : Link) (ms : List EyeMeas) (ctle : Nat) : Option (List EyeMeas) :=
  let of := ms.filter fun m => m.ctle = ctle && eyeOk x m
  let l := (linkLanes x).filterMap fun k => of.find? fun m => m.lane = k
  if l.length = (linkLanes x).length then some l else none

/-- The eye width of a setting: that of its narrowest lane (DEDUCED, log 58). -/
def settingWidth (l : List EyeMeas) : Nat := l.foldl (fun m e => min m e.w) 256

/-- The setting with the widest eye among those that pass on every lane, the first in ascending order of those as wide (R275). -/
def bestSetting (x : Link) (ms : List EyeMeas) : Option (List EyeMeas) :=
  ((upFrom 16 0).filterMap (settingEyes x ms)).foldl (fun o l => match o with
    | none => some l
    | some b => if settingWidth b < settingWidth l then some l else some b) none

/-- TRAINING_COMPLETE: `eyes` is what the eye monitor measured of each lane at each CTLE setting. An RX link keeps the best setting
that passes, or goes DOWN; a TX link without a status pin passes (R275, R276). -/
def trainingComplete (i : Nat) (eyes : List EyeMeas) (s : State) : State :=
  let x := linkAt s i
  if x.st ≠ .training then s
  else if isRx i then
    match bestSetting x eyes with
    | some ms => linkAlign i (noteEyes ms s)
    | none => linkDown i 1 s
  else if x.statusPin = 0xFF then linkAlign i s
  else s

/-- An input pin has been high from tick `t0` to now. -/
def pinHighSince (s : State) (p t0 : Nat) : Bool :=
  pinLevelAt s p t0 && !(pinAt s p).hist.any fun h => decide (t0 < h.1) && decide (h.1 ≤ s.time.tick)

/-- PRESET_DWELL_END: after 1 ms of the preset now sent, the first during whose dwell the status pin stayed high passes (R276). -/
def presetDwellEnd (i preset : Nat) (s : State) : State :=
  let x := linkAt s i
  if x.st ≠ .training ∨ isRx i ∨ x.statusPin = 0xFF ∨ x.preset ≠ preset ∨ s.time.tick < x.since + 100000 then s
  else if pinHighSince s x.statusPin x.since then linkAlign i s
  else if x.preset + 1 < x.presets then modLink s i fun x => { x with preset := x.preset + 1, since := s.time.tick }
  else linkDown i 3 s

/-- NO_SYSREF: no SYSREF edge within 100 ms of entering ALIGNING (R274). -/
def noSysref (i : Nat) (s : State) : State :=
  let x := linkAt s i
  if x.st = .aligning && !x.aligned && decide (x.since + 10000000 ≤ s.time.tick) then linkDown i 2 s else s

/-- RETRY_TIMER: a DOWN link trains again after RETRY_S seconds; 0 is never (R278). -/
def retryTimer (i : Nat) (s : State) : State :=
  let x := linkAt s i
  if x.st = .down && x.retryS ≠ 0 && decide (x.since + 100000000 * x.retryS ≤ s.time.tick) then linkTrain i s else s

/-- RX_LAT covers the latest lane (R272). -/
def rxLatHolds (x : Link) : Bool := decide (x.arrivalMax + 2 ^ x.j ≤ x.rxLat * 2 ^ x.j)

/-- The largest of some arrivals. -/
def largest (l : List Nat) : Nat := l.foldl max 0

/-- MULTIBLOCK_LOCK_ACQUIRED: every lane of an RX link has both locks, `arrivals` being the base periods after the LEMC edge at which
each lane's multiblock boundary came, in the order of the lanes; ARRIVAL_MAX keeps the largest since training began (log 58). With
R272 the link enters DATA. -/
def multiblockLock (i : Nat) (arrivals : List Nat) (s : State) : State :=
  let x := linkAt s i
  if !isRx i || linkLanes x = [] || arrivals.length ≠ (linkLanes x).length || s.md.mode = .standby then s
  else
    let s1 := { s with rxLanes := ((linkLanes x).zip arrivals).foldl (fun t (k : Nat × Nat) => tmod {} t k.1 fun (r : RxLane) =>
      { r with hdrLock := true, embLock := true, arrival := min 4095 k.2 }) s.rxLanes }
    let s2 := { s1 with links := tset {} s1.links i { x with arrivalMax := max x.arrivalMax (min 65535 (largest arrivals)) } }
    if x.st = .aligning && rxLatHolds (linkAt s2 i) then linkData i s2 else s2

/-- LANE_LOCK: an RX lane loses lock; in DATA the link retrains (R277, R283). -/
def laneLock (lane : Nat) (s : State) : State :=
  let s1 := { s with rxLanes := tmod {} s.rxLanes lane fun (r : RxLane) => { r with hdrLock := false, embLock := false } }
  match laneLink s true lane with
  | some i => if (linkAt s i).st = .data then linkRetrigger i (laneFault s1 5 1 i lane) else s1
  | none => s1

/-- The CRC-12 errors of the second that ends at a tick. -/
def crcSum (l : List (Nat × Nat)) : Nat := l.foldl (fun n p => n + p.2) 0

/-- CRC_LIMIT: CRC-12 errors met on a lane of an RX link in DATA; where those of the last second reach the limit, it retrains
(R277). -/
def crcLimit (lane errors : Nat) (s : State) : State :=
  match laneLink s true lane with
  | none => s
  | some i =>
    let x := linkAt s i
    if x.st ≠ .data || errors = 0 then s
    else
      let recent := (s.time.tick, errors) :: x.crcRecent.filter fun p => decide (s.time.tick < p.1 + 100000000)
      let s1 := { s with links := tset {} s.links i { x with crcErr := sat 0xFFFF x.crcErr errors, crcRecent := recent },
                         rxLanes := tmod {} s.rxLanes lane fun (r : RxLane) => { r with crcErr := sat 0xFFFF r.crcErr errors } }
      let s2 := laneFault s1 2 0 i lane
      if x.crcLimit ≤ crcSum recent then linkRetrigger i s2 else s2

/-- RX_LATE: data too late for its release (R273). -/
def rxLate (i : Nat) (s : State) : State :=
  if isRx i && (linkAt s i).st = .data then linkRetrigger i (lnkFault s 4 1 i) else s

/-- A pin has been low for at least `n` ticks as stamped. -/
def pinLowFor (s : State) (p n : Nat) : Bool :=
  !pinLevelAt s p s.time.tick && !((pinAt s p).hist.any fun h => h.2 && decide (s.time.tick < h.1 + n)) &&
    !pinLevelAt s p (s.time.tick - n)

/-- STATUS_PIN: the converter's lock output has been low for 100 ticks in DATA (R277). -/
def statusPin (i : Nat) (s : State) : State :=
  let x := linkAt s i
  if !isRx i && x.statusPin ≠ 0xFF && x.st = .data && pinLowFor s x.statusPin 100 then linkRetrigger i s else s

/-- The status pin of a link in DATA fell: STATUS_PIN (R283). -/
def statusPinFell (pin : Nat) (s : State) : State :=
  forUp (fun i s =>
    let x := linkAt s i
    if x.statusPin = pin && x.st = .data then lnkFault s 6 1 i else s) 16 0 s

/-! ### The commands and events -/

/-- LINK_SET: R281. -/
def execLinkSet (h : Hdr) (link : Nat) (a : LinkArgs) (s : State) : Host.Outcome State Fault Refusal :=
  berza h (.linkSet h link a) (specLinkSet h link a s) s

/-- LINK_ENABLE: R265, R281. -/
def execLinkEnable (h : Hdr) (link : Nat) (s : State) : Host.Outcome State Fault Refusal :=
  berza h (.linkEnable h link) (specLinkEnable h link s) s

/-- LINK_DISABLE: R281. -/
def execLinkDisable (h : Hdr) (link : Nat) (s : State) : Host.Outcome State Fault Refusal :=
  berza h (.linkDisable h link) (specLinkDisable h link s) s

/-- LINK_RETRAIN: R277. -/
def execLinkRetrain (h : Hdr) (link : Nat) (s : State) : Host.Outcome State Fault Refusal :=
  berza h (.linkRetrain h link) (specLinkRetrain h link s) s

/-- LINK_SLOT_SET: R270. -/
def execLinkSlotSet (h : Hdr) (link slot format : Nat) (s : State) : Host.Outcome State Fault Refusal :=
  berza h (.linkSlotSet h link slot format) (specLinkSlotSet h link slot format s) s

/-- LINK_EYE_READ: R280. -/
def execLinkEyeRead (h : Hdr) (lane : Nat) (s : State) : Host.Outcome State Fault Refusal :=
  berza h (.linkEyeRead h lane) (specLinkEyeRead h lane s) s

/-- LINK_CLEAR: R281, R474. -/
def execLinkClear (h : Hdr) (link : Nat) (mask : DWord) (s : State) : Host.Outcome State Fault Refusal :=
  berza h (.linkClear h link mask) (specLinkClear h link mask) s

/-- TRAINING_COMPLETE: R275. -/
def execTrainingComplete (link : Nat) (eyes : List EyeMeas) (s : State) : Host.Outcome State Fault Refusal :=
  actOn (decide (link < 32)) s (trainingComplete link eyes)

/-- PRESET_DWELL_END: R276. -/
def execPresetDwellEnd (link preset : Nat) (s : State) : Host.Outcome State Fault Refusal :=
  actOn (decide (link < 16)) s (presetDwellEnd link preset)

/-- NO_SYSREF: R274. -/
def execNoSysref (link : Nat) (s : State) : Host.Outcome State Fault Refusal := actOn (decide (link < 32)) s (noSysref link)

/-- RETRY_TIMER: R278. -/
def execRetryTimer (link : Nat) (s : State) : Host.Outcome State Fault Refusal := actOn (decide (link < 32)) s (retryTimer link)

/-- LANE_LOCK: R277. -/
def execLaneLock (lane : Nat) (s : State) : Host.Outcome State Fault Refusal := actOn (decide (lane < nLanes s)) s (laneLock lane)

/-- CRC_LIMIT: R277. -/
def execCrcLimit (lane errors : Nat) (s : State) : Host.Outcome State Fault Refusal :=
  actOn (decide (lane < nLanes s)) s (crcLimit lane errors)

/-- RX_LATE: R273. -/
def execRxLate (link : Nat) (s : State) : Host.Outcome State Fault Refusal :=
  actOn (isRx link && decide (link < 32)) s (rxLate link)

/-- STATUS_PIN: R277. -/
def execStatusPin (link : Nat) (s : State) : Host.Outcome State Fault Refusal := actOn (decide (link < 16)) s (statusPin link)

/-- MULTIBLOCK_LOCK_ACQUIRED: R272, R274. -/
def execMultiblockLockAcquired (link : Nat) (arrivals : List Nat) (s : State) : Host.Outcome State Fault Refusal :=
  actOn (isRx link && decide (link < 32)) s (multiblockLock link arrivals)

end Sys2Proof.Machine
end

