-- ==== Sys2Proof/Machine/Clocks.lean ====
section
/-! DEFINITION. Device time, PPS, the pace loop (spec/02), rate domains, SYNC and SYSREF (spec/09). -/

namespace Sys2Proof.Machine

/-- A fault of the TIM block; SYNC_SHIFT, PACE_LIMIT and PACE_LINK name all four domains (R416). -/
def timFault (s : State) (bit cls obj : Nat) (scope : List Nat := []) : State :=
  raise s { block := .tim, bit := bit, cls := cls, obj := obj, scope := if 7 ≤ bit then [0, 1, 2, 3] else scope }

/-! ### Device time and SYNC (R226 to R228) -/

/-- P_SYNC. -/
def syncPeriod (s : State) : Nat := 2 ^ s.col.syncLog2

/-- The first tick at or after `t` at which a SYNC edge is expected (R227). -/
def nextSync (period lat t : Nat) : Nat := t + (lat + period - t % period) % period

/-- TIME_PLL_LOCK: on a manager or standalone device, device time is ready (R30, R226). -/
def timePllLock (s : State) : State :=
  let s1 := { s with time := { s.time with pllLock := true } }
  if s.col.role = 2 then s1
  else
    { s1 with time := { s1.time with ready := true },
              col := { s1.col with timeOk := true, lastSync := nextSync (syncPeriod s) s.col.syncLat s.time.tick } }

/-- `SYNC_OUT` is driven: by a manager, or standalone with DRIVE (R227). -/
def syncDriving (s : State) : Bool := s.col.role = 1 || (s.col.role = 0 && s.col.drive)

/-- SYNC_OUT_PULSE: at a multiple of P_SYNC the pin rises for 4 ticks. -/
def syncOutPulse (s : State) : State :=
  if syncDriving s && s.time.ready && s.time.tick % syncPeriod s = 0 then
    { s with col := { s.col with syncOut := some s.time.tick } }
  else s

/-- Level of `SYNC_OUT`. -/
def syncOutLevel (s : State) : Bool :=
  s.col.syncOut.any fun t => syncDriving s && decide (t ≤ s.time.tick) && decide (s.time.tick < t + 4)

/-- A standalone device with CHECK = 0 ignores `SYNC_IN`. -/
def syncIgnored (s : State) : Bool := s.col.role = 0 && !s.col.check

/-- The multiple of P_SYNC, plus SYNC_LAT, nearest to an estimate (R244). -/
def nearestSync (s : State) (est : Nat) : Nat :=
  let p := syncPeriod s
  (est + p / 2 - s.col.syncLat) / p * p + s.col.syncLat

/-- A worker may acquire colony time at the next SYNC edge (R244). -/
def mayAcquire (s : State) : Bool :=
  s.col.role = 2 && s.time.pllLock && s.col.gotJoin && s.col.gotCorrect && decide (2 ≤ (portAt s 0).st) && s.col.lastTime.isSome

/-- The worker's estimate of the manager's tick, from the last TIME frame, its arrival and the link's flight delay. -/
def managerTick (s : State) : Nat :=
  match s.col.lastTime with
  | some (slot, arrival) => slot + 10 + ceilDiv (portAt s 0).delay 1024 + (s.time.tick - arrival)
  | none => s.time.tick

/-- SYNC_IN_EDGE: a rising edge first sampled at this tick acquires colony time on a worker, or is checked (R228, R244). -/
def syncInEdge (s : State) : State :=
  if syncIgnored s then s
  else if s.time.ready then
    if s.time.tick % syncPeriod s = s.col.syncLat then
      { s with col := { s.col with syncOk := true, lastSync := s.time.tick } }
    else
      timFault { s with col := { s.col with syncOk := false, shiftCount := sat 0xFF s.col.shiftCount,
                                            lastSync := nextSync (syncPeriod s) s.col.syncLat s.time.tick } } 7 2 0
  else if mayAcquire s then
    let t := nearestSync s (managerTick s)
    let seen := s.col.lastTime.map fun x => (x.1, x.2 + t - s.time.tick)
    { s with time := { s.time with tick := t, ready := true },
             col := { s.col with timeOk := true, syncOk := true, lastSync := t, lastTime := seen } }
  else s

/-- SYNC_MISS: no edge within P_SYNC + 4 ticks of the last expected one that an edge has not followed yet (R228). -/
def syncMiss (s : State) : State :=
  if syncIgnored s || !s.time.ready || decide (s.time.tick < s.col.lastSync + syncPeriod s + 4) then s
  else
    timFault { s with col := { s.col with syncOk := false, miss := sat 0xFF s.col.miss, lastSync := s.col.lastSync + syncPeriod s } } 6 1 0

/-- `SYNC_CONFIG`. -/
def specSyncConfig (h : Hdr) (log2 lat drive check : Nat) (s : State) : CSpec :=
  { op := 0x0202, permitted := h.ctx = 0 && s.col.role ≠ 2, modeOk := s.md.mode = .bringUp || s.md.mode = .idle,
    err := if dflt 20 log2 < 10 ∨ 24 < dflt 20 log2 ∨ 15 < dflt 2 lat ∨ 1 < drive ∨ 1 < check then some .badArg else none }

/-- The decision of `SYNC_CONFIG`. -/
def decSyncConfig (log2 lat drive check : Nat) (s : State) : State :=
  { s with col := { s.col with syncLog2 := dflt 20 log2, syncLat := dflt 2 lat, drive := drive = 1, check := check = 1,
                               lastSync := nextSync (2 ^ dflt 20 log2) (dflt 2 lat) s.time.tick } }

/-! ### PPS (R34, R35) -/

/-- The number of seconds from an accepted edge to another, within the tolerance. -/
def ppsCount (last t : Nat) : Option Nat :=
  (upFrom 4 1).find? fun n => decide (last + n * 1599840000 ≤ t) && decide (t ≤ last + n * 1600160000)

/-- An accepted edge at device time `t` with its seconds value. -/
def ppsAccept (t sec interval : Nat) (s : State) : State :=
  { s with time := { s.time with ppsTime := t, ppsSec := sec % 2 ^ 64, ppsSeq := (s.time.ppsSeq + 1) % 65536, ppsValid := true,
                                 ppsMissing := false, ppsInterval := interval, ppsArmed := none, ppsLast := some t } }

/-- The interval of the edge that is accepted unconditionally (R35): where it lies a number of seconds after the last one, as
for any edge, and else no value is stated (a free value, log 75). -/
def ppsFirst (t : Nat) (s : State) : Nat :=
  match s.time.ppsLast.bind fun l => (ppsCount l t).map fun n => (t - l) / n with
  | some i => i
  | none => (Config.openInterval t).toNat

/-- PPS_EDGE: a rising edge `sub` time units after the launch tick. -/
def ppsEdge (sub : Nat) (s : State) : State :=
  if !s.time.ready then s
  else
    let t := devtime s + sub % 16
    match s.time.ppsArmed with
    | some sec => ppsAccept t sec (ppsFirst t s) s
    | none =>
      match s.time.ppsLast.bind fun l => (ppsCount l t).map fun n => (l, n) with
      | some (l, n) => ppsAccept t (s.time.ppsSec + n) ((t - l) / n) s
      | none => { s with time := { s.time with ppsRejected := sat 0xFF s.time.ppsRejected } }

/-- PPS_MISSING: too long since the last accepted edge: MISSING, then VALID clears until the next `TIME_PPS_SET`. -/
def ppsMissing (s : State) : State :=
  match s.time.ppsLast with
  | none => s
  | some l =>
    let t := devtime s
    { s with time := { s.time with ppsMissing := s.time.ppsMissing || decide (l + 1600160000 < t),
                                   ppsValid := s.time.ppsValid && !decide (l + 4 * 1600160000 < t),
                                   ppsLast := if l + 4 * 1600160000 < t then none else some l } }

/-- `TIME_PPS_SET`. -/
def specTimePpsSet : CSpec := { op := 0x0211 }

/-- The decision of `TIME_PPS_SET`. -/
def decTimePpsSet (sec : Nat) (s : State) : State :=
  { s with time := { s.time with ppsArmed := some (sec % 2 ^ 64), ppsSeq := (s.time.ppsSeq + 1) % 65536, ppsRejected := 0 } }

/-! ### The horizon (R37, R39, R255) -/

/-- Every joined worker of a manager is in BRING-UP or IDLE. -/
def workersQuiet (s : State) : Bool := (starUp s).all fun k => decide ((portAt s k).stMode ≤ 1)

/-- `TIME_HORIZON_SET`; a HORIZON frame carries it to every worker. -/
def specTimeHorizonSet (h : Hdr) (hor : Nat) (s : State) : CSpec :=
  let dec := if h.eff = 0 then s.time.tick + s.time.horizon else h.eff
  let f : DueFrame := { rank := 3, hdr := 0x16, payload := BitVec.ofNat 128 (pack [(12, hor), (4, 0), (60, dec)]) }
  { op := 0x0210, permitted := h.ctx = 0 && s.col.role ≠ 2,
    modeOk := (s.md.mode = .bringUp || s.md.mode = .idle) && (s.col.role ≠ 1 || workersQuiet s),
    err := if hor < 40 ∨ 4095 < hor ∨ hopLimit hor < maxHops s ∨ routesBad hor (routeCmds s) s then some .badArg
      else if s.col.role = 1 ∧ (hor < s.col.hMin ∨ (starUp s).any fun k => decide (hopLimit hor < (portAt s k).maxHops)) then some .badArg
      else none,
    onAccept := fun s => if s.col.role = 1 then (starUp s).foldl (fun s k => colDue s k f) s else s }

/-- A new H from tick `dec` (R37); an earlier H is kept until every input of its time is late, which is so 4,095 ticks on (R40). -/
def setHorizon (hor dec : Nat) (s : State) : State :=
  { s with time := { s.time with horizon := hor, horizons := (s.time.horizon, dec) :: s.time.horizons.filter fun p => decide (dec < p.2 + 8192) },
           col := { s.col with hAccepted := some s.col.dMax } }

/-- The decision of `TIME_HORIZON_SET`; nothing outside BRING-UP and IDLE. -/
def decTimeHorizonSet (hor dec : Nat) (s : State) : State :=
  if unitMode s = .bringUp ∨ unitMode s = .idle then setHorizon hor dec s else s

/-! ### The pace loop (R49 to R53) -/

/-- Pace calibration is under way (R51, R371). -/
def pacing (s : State) : Bool := s.md.mode = .calibrate && decide (0 < s.md.calPace)

/-- The loop runs in IDLE, RUN and CALIBRATE, except during pace calibration. -/
def paceOn (s : State) : Bool :=
  s.kpr.ready && s.kpr.pmbus && (s.md.mode = .idle || s.md.mode = .run || s.md.mode = .calibrate) && !pacing s

/-- A hive has a running channel (R49): a cell that is RUNNING, or the built-in load of pace calibration. -/
def hiveRuns (s : State) (h : Nat) : Bool :=
  ((upFrom 16 (16 * h)).any fun c => (cellAt s c).st = .running) || (pacing s && s.md.calCells.contains (16 * h))

/-- The keeper writes VOUT_COMMAND. -/
def paceWrite (mv : Nat) (s : State) : State :=
  { s with pace := { s.pace with vset := mv, stepPending := true, stepTick := s.time.tick } }

/-- What a window close stores of a hive (R49), `run` telling whether it has a running channel. Where such a hive was neither busy
nor idle the rule gives no SLACK (a free value, log 75). -/
def hiveWindow (ms : List HiveMeas) (run : Bool) (h : Nat) (x : Hive) : Hive :=
  let y := { x with window := (x.window + 1) % 256, late := x.lateWin, lateWin := false, slack := 0x400, fillMin := 0x40 }
  match ms.find? fun m => m.hive = h with
  | some m =>
    if !run then { y with late := x.lateWin || m.late }
    else
      { y with slack := if m.busy + m.idle = 0 then Config.openSlack h x.window % 1025 else 1024 * m.idle / (m.idle + m.busy),
               fillMin := min 64 m.fillMin, late := x.lateWin || m.late }
  | none => if run then { y with slack := Config.openSlack h x.window % 1025 } else y

/-- The hives with a running channel, as (SLACK, hive). -/
def runningHives (s : State) : List (Nat × Nat) :=
  ((upFrom (nHives s) 0).map fun h => ((hiveAt s h).slack, h)).filter fun p => decide (p.1 < 1024)

/-- The worst hive: the lowest pace margin, which is the lowest SLACK; the first on a tie. -/
def worstHive (l : List (Nat × Nat)) : Option (Nat × Nat) :=
  l.foldl (fun o p => match o with
    | none => some p
    | some q => if p.1 < q.1 then some p else some q) none

/-- A pace margin of a SLACK is below a percentage. -/
def marginBelow (slack pct : Nat) : Bool := decide (100 * slack < pct * (1024 - slack))

/-- PACE_LINK (R52). -/
def paceLink (s : State) : State := timFault { s with pace := { s.pace with fault := true } } 9 2 0

/-- WORST_HIVE of a window close (R53); without a running hive it stays (DESIGN CHOICE, log 48). -/
def noteWorst (s : State) : State :=
  match worstHive (runningHives s) with
  | some (_, w) => { s with pace := { s.pace with worst := w } }
  | none => s

/-- The decision of the loop at a window close, with no step pending (R52); without a running hive no margin is below the guard
and the run of good windows starts again (DESIGN CHOICE, log 48). -/
def paceDecide (s : State) : State :=
  let p := s.pace
  let w := worstHive (runningHives s)
  let fill (n : Nat) : Bool := (upFrom (nHives s) 0).any fun h => decide ((hiveAt s h).fillMin < n)
  if (w.any fun x => marginBelow x.1 p.marginGuard) || fill p.fillGuard then
    let s1 := { s with pace := { p with good := 0 } }
    if p.vset < p.ceiling then paceWrite (min (p.vset + p.stepUp) p.ceiling) s1 else timFault s1 8 2 p.worst
  else if (w.any fun x => !marginBelow x.1 (p.marginGuard + 8)) && !fill 48 then
    let g := p.good + 1
    if g = 16 ∧ p.floor < p.vset then paceWrite (max (p.vset - p.stepDown) p.floor) { s with pace := { p with good := 0 } }
    else { s with pace := { p with good := g } }
  else { s with pace := { p with good := 0 } }

/-- Two voltages lie within 5 mV. -/
def within5 (a b : Nat) : Bool := decide (a ≤ b + 5) && decide (b ≤ a + 5)

/-- What a window close stores of every hive (R49); one of the windows of pace calibration has passed (R371). -/
def windowMeasures (hs : List HiveMeas) (s : State) : State :=
  let s1 := forUp (fun h t => { t with hives := tmod {} t.hives h (hiveWindow hs (hiveRuns s h) h) }) (nHives s) 0 s
  noteWorst { s1 with md := { s1.md with calPace := s1.md.calPace - 1 } }

/-- PACE_WINDOW_CLOSE (R49, R52). -/
def paceWindowClose (vout : Nat) (statusFault : Bool) (hs : List HiveMeas) (s : State) : State :=
  let s1 := windowMeasures hs s
  if !paceOn s then s1
  else
    let s0 := { s1 with pace := { s1.pace with vread := vout % 1024 } }
    let s2 := if statusFault then paceLink s0 else s0
    if s2.pace.stepPending then
      if within5 vout s2.pace.vset then paceDecide { s2 with pace := { s2.pace with stepPending := false } }
      else if s2.pace.stepTick + 100000 ≤ s2.time.tick then paceLink s2
      else s2
    else paceDecide s2

/-- FILL_ALARM: a buffer of a hive below the fill alarm: the ceiling at once; with the ceiling in force already,
PACE_LIMIT (R52). -/
def fillAlarm (hive : Nat) (s : State) : State :=
  if paceOn s then paceWrite s.pace.ceiling (if s.pace.vset = s.pace.ceiling then timFault s 8 2 hive else s) else s

/-- REGULATOR_CONFIRM: the ceiling written at keeper start is confirmed by READ_VOUT, or PACE_LINK (R450). -/
def regulatorConfirm (vout : Nat) (s : State) : State :=
  let s1 := { s with pace := { s.pace with vread := vout % 1024 } }
  if !s.kpr.ready then s
  else if within5 vout s.pace.vset then { s1 with kpr := { s1.kpr with pmbus := true }, pace := { s1.pace with stepPending := false } }
  else paceLink s1

/-- Outside the loop the keeper holds VDD_CORE at the ceiling in BRING-UP, REPLAY and FACTORY and during pace
calibration (R51). -/
def paceHold (s : State) : State :=
  let m := s.md.mode
  if s.kpr.ready && (m = .bringUp || m = .replay || m = .factory || pacing s) &&
      s.pace.vset ≠ s.pace.ceiling then paceWrite s.pace.ceiling s
  else s

/-- `PACE_CONFIG`: window in ticks, percentages, samples, mV. -/
def specPaceConfig (h : Hdr) (window margin fillG fillA floor ceiling up down : Nat) : CSpec :=
  let w := dflt 10000 window
  let g := dflt 16 fillG
  let c := dflt 850 ceiling
  let f := dflt 650 floor
  { op := 0x0212, permitted := h.ctx = 0,
    err := if w < 1000 ∨ 1000000 < w ∨ dflt 12 margin < 5 ∨ 50 < dflt 12 margin ∨ g < 8 ∨ 56 < g ∨ g < dflt 8 fillA ∨ f < 650 ∨ c < f ∨
        850 < c ∨ dflt 10 up < 5 ∨ 50 < dflt 10 up ∨ 10 < dflt 5 down then some .badArg else none }

/-- The decision of `PACE_CONFIG`; a voltage outside the new range goes to its nearest bound. -/
def decPaceConfig (window margin fillG fillA floor ceiling up down : Nat) (s : State) : State :=
  let c := dflt 850 ceiling
  let f := dflt 650 floor
  let s1 := { s with pace := { s.pace with window := dflt 10000 window, marginGuard := dflt 12 margin, fillGuard := dflt 16 fillG,
                                           fillAlarm := dflt 8 fillA, floor := f, ceiling := c, stepUp := dflt 10 up,
                                           stepDown := dflt 5 down } }
  paceHold (if c < s.pace.vset then paceWrite c s1 else if s.pace.vset < f then paceWrite f s1 else s1)

/-! ### Rate domains (R230 to R235) -/

/-- Some cell bound to a domain satisfies `p`. -/
def domCell (s : State) (d : Nat) (p : CellSt → Bool) : Bool := s.cells.any fun c => c.2.st ≠ .off && c.2.domain = d && p c.2.st

/-- A cell is RUNNING or PAUSED. -/
def playing (x : CellSt) : Bool := x = .running || x = .paused

/-- A cell whose domain loses its clock abandons its sequence (R60). -/
def reflock (c : Nat) (s : State) : State :=
  let s1 := modCell (sigClose c (endLate c (endGap c s))) c fun x =>
    { x with st := .reflock, step := 0, pos := 0, passes := 0, dead := 0, next := none, loops := [], hist := [], entering := false }
  releaseTable (hiveOf c) s1

/-- The guard of a domain closes: playing cells go to REFLOCK, links wait (R60, R234, R274). -/
def guardClose (d : Nat) (s : State) : State :=
  let s1 := modDom s d fun x => { x with guardOpen := false, srRise := none }
  linksFollow (s1.cells.foldl (fun s c => if c.2.domain = d && playing c.2.st then reflock c.1 s else s) s1)

/-- The loss of a domain's clock at this tick comes after the decisions and samples of earlier ticks, and before the other
decisions of its own (R62): until those are made, and where one of this tick has been made on a cell of the domain, it has not
come yet. -/
def lossWaits (s : State) (d : Nat) : Bool :=
  s.cells.any fun p => p.2.st ≠ .off && p.2.domain = d &&
    (p.2.acted = s.time.tick + 1 || cellEarlier s p.1 s.time.tick 1 || !caughtUp s p.1 s.time.tick)

/-- The guard opens at a tick: REFLOCK ends (at the restart of the grid, and not where lock is declared before it: DEDUCED, log
49), cells at rest go on from the next sample of their grid, links resume. -/
def guardOpenAt (d t : Nat) (s : State) : State :=
  let s1 := modDom s d fun x => { x with guardOpen := true, trip := false }
  let s2 := s1.cells.foldl (fun s c =>
    if c.2.domain = d && c.2.st ≠ .off then
      let s3 := if c.2.st = .reflock then modCell (releaseArm c.1 s) c.1 fun x => { x with st := .bound } else s
      modCell s3 c.1 (skipTo s3 t)
    else s) s1
  linksFollow s2

/-- DOMAIN_LOCK: lock is declared; at the first lock event on a tick that is a multiple of P_A the base divider restarts
and the guard opens (R232). -/
def domainLock (d : Nat) (s : State) : State :=
  let x := domAt s d
  if !x.on || x.guardOpen then s
  else
    let s1 := if x.locked then s else jstate (modDom s d fun x => { x with locked := true }) 6 d 1 0
    if s.time.ready && alignPeriod x ≠ 0 && s.time.tick % alignPeriod x = 0 then guardOpenAt d s.time.tick s1 else s1

/-- DOM_UNLOCK: lock is lost; the guard closes at once (R233, R235). -/
def domUnlock (d : Nat) (s : State) : State :=
  let x := domAt s d
  if !x.locked || lossWaits s d then s
  else
    let cls := if domCell s d (· = .running) then 2 else 1
    let s1 := jstate (modDom s d fun x => { x with locked := false, unlocks := sat 0xFFFF x.unlocks }) 6 d 0 1
    guardClose d (timFault s1 (1 + d) cls d [d])

/-- GUARD_TRIP: a short period is suppressed and the guard closes (R234). -/
def guardTrip (d : Nat) (s : State) : State :=
  if !(domAt s d).guardOpen || lossWaits s d then s
  else
    let s1 := jstate (modDom s d fun x => { x with trip := true }) 6 d 2 1
    guardClose d (timFault s1 5 1 d [d])

/-- Whether the fields of `DOMAIN_SET` are within R230. -/
def domainArgsOk (d num den div ldiv lockN guard : Nat) : Bool :=
  let ln := dflt 1024 lockN
  let g := dflt 1075 guard
  decide (d ≤ 3) && decide (1 ≤ num) && decide (num ≤ 262143) && decide (1 ≤ den) && decide (den ≤ 4095) && decide (40 * den ≤ num) &&
    decide (num ≤ 80 * den) && decide (10 ≤ div) && decide (div ≤ 4095) && decide (num ≤ 4 * den * div) && decide (ldiv ≤ 2) &&
    (ldiv = 0 || (decide (96000 * den * ldiv ≤ 3300 * num) && decide (3300 * num ≤ 264000 * den * ldiv))) &&
    decide (64 ≤ ln) && decide (ln ≤ 65535) && decide (1024 ≤ g) && decide (g ≤ 1075) &&
    decide (den * div / Nat.gcd num (den * div) ≤ 2 ^ 20)

/-- A link of a domain is neither OFF nor CONFIGURED. -/
def domLinkUp (s : State) (d : Nat) : Bool := s.links.any fun p => p.2.st ≠ .off && p.2.st ≠ .configured && p.2.domain = d

/-- A `DOMAIN_SET` of the domain waits for its tick. -/
def domPending (s : State) (d : Nat) : Bool :=
  s.held.any fun h => match h.cmd with
    | .domainSet _ k .. => k = d
    | _ => false

/-- A domain may be retuned (R61, R279). -/
def domFree (s : State) (d : Nat) : Bool := !domCell s d playing && !domLinkUp s d

/-- `DOMAIN_SET`. -/
def specDomainSet (h : Hdr) (d num den div ldiv lockN guard : Nat) (s : State) : CSpec :=
  { op := 0x0200, unit := some (6, d), cls := .d, permitted := h.ctx = 0, modeOk := modeLoad s,
    err := if !domainArgsOk d num den div ldiv lockN guard then some .badArg
      else if !domFree s d ∨ domPending s d then some .badState else none }

/-- Cells and armed capture channels of a retuned domain continue from the edge count of the new base rate at tick `t`. -/
def domRebase (d t : Nat) (s : State) : State :=
  let x := domAt s d
  let s1 := s.cells.foldl (fun s c =>
    if c.2.domain = d && c.2.st ≠ .off then modCell s c.1 fun y => { y with mRef := edgeAt x t, nRef := y.n } else s) s
  s1.caps.foldl (fun s c =>
    if c.2.domain = d && c.2.st ≠ .off && c.2.st ≠ .bound then modCap s c.1 fun y => { y with mA := edgeAt x t - y.n * 2 ^ y.k } else s) s1

/-- The slot level J of the links of a retuned domain, which are CONFIGURED, is derived again; where no whole J gives the slot rate,
of which the rule says nothing but that `LINK_SET` would fail, it stays (DESIGN CHOICE, log 58) (R263). -/
def linkLevels (d : Nat) (s : State) : State :=
  forUp (fun i s =>
    let x := linkAt s i
    if x.st ≠ .off && x.domain = d then modLink s i fun x => { x with j := (slotLevel (domAt s d) x.l x.m).getD x.j } else s) 32 0 s

/-- The decision of `DOMAIN_SET` at tick U: not applied while a cell plays (R235). -/
def decDomainSet (x : Held) (d num den div ldiv lockN guard : Nat) (s : State) : State :=
  if !domFree s d then finish s x 0x0200 (some (6, d)) .badState
  else
    let s1 := modDom (guardClose d s) d fun y =>
      { y with on := true, locked := false, trip := false, num := num, den := den, div := div, ldiv := ldiv, lockN := dflt 1024 lockN,
               guard := dflt 1075 guard }
    finish (jstate (linkLevels d (domRebase d x.dec s1)) 6 d 0 0) x 0x0200 (some (6, d)) .ok

/-- A cell bound or a lane mapped to a domain (R235). -/
def domUsed (s : State) (d : Nat) : Bool :=
  domCell s d (fun _ => true) || s.links.any fun p => p.2.st ≠ .off && p.2.domain = d

/-- `DOMAIN_OFF`. -/
def specDomainOff (h : Hdr) (d : Nat) (s : State) : CSpec :=
  { op := 0x0201, unit := some (6, d), permitted := h.ctx = 0, modeOk := modeLoad s,
    err := if 4 ≤ d then some .badArg else if domUsed s d then some .badState else none }

/-- The decision of `DOMAIN_OFF`; nothing while a cell or lane uses the domain. -/
def decDomainOff (d : Nat) (s : State) : State :=
  if domUsed s d then s else guardClose d (modDom s d fun x => { x with on := false, locked := false })

/-! ### SYSREF (R236) -/

/-- A link of a domain is in its data phase. -/
def domLinkData (s : State) (d : Nat) : Bool := s.links.any fun p => p.2.st = .data && p.2.domain = d

/-- `SYSREF_SET`. -/
def specSysrefSet (d mode period count width delay : Nat) (s : State) : CSpec :=
  { op := 0x0203, unit := some (6, d), modeOk := modeLoad s, ready := decide (4 ≤ d) || (domAt s d).guardOpen,
    err := if 4 ≤ d ∨ 2 < mode ∨ period = 0 ∨ 2 ^ 24 < period ∨ period % alignPeriod (domAt s d) ≠ 0 ∨ count = 0 ∨ 255 < count ∨ width = 0 ∨
        255 < width ∨ 255 < delay then some .badArg
      else if domLinkData s d then some .badState else none }

/-- The first k whose pulse a setting in force from tick `dec` gives: of a burst the first with 16 k P_SR at or after that tick, in
continuous mode, which holds for every k, the first whose rising edge is (R236). -/
def sysrefFirst (x : Domain) (mode period delay dec : Nat) : Nat :=
  if mode = 2 then ceilDiv dec period else ceilDiv (dec * x.num - delay * x.den * x.div) (period * x.num)

/-- The decision of `SYSREF_SET`: a burst holds for COUNT values of k. -/
def decSysrefSet (d mode period count width delay dec : Nat) (s : State) : State :=
  if domLinkData s d then s
  else
    { s with domains := tmod {} s.domains d fun x =>
      { x with srMode := mode, srPeriod := period, srCount := count, srWidth := width, srDelay := delay,
               srNext := sysrefFirst x mode period delay dec, srLeft := if mode = 2 then count else 0, srRise := none } }

/-- The tick at which pulse k of a domain has risen: ceil(k P_SR + DELAY T_b / 16). -/
def sysrefTick (x : Domain) (k : Nat) : Nat := k * x.srPeriod + ceilDiv (x.srDelay * x.den * x.div) x.num

/-- The level of a domain's SYSREF output at this tick: high for WIDTH base periods from the last rising edge, which lies at k P_SR
+ DELAY T_b (R236). -/
def sysrefLevel (s : State) (d : Nat) : Bool :=
  let x := domAt s d
  x.srRise.any fun k => decide (sysrefTick x k ≤ s.time.tick) &&
    decide ((s.time.tick - k * x.srPeriod) * x.num < (x.srDelay + x.srWidth) * x.den * x.div)

/-- SYSREF_PULSE: the next pulse whose edge has come; with the guard closed it is skipped and counted, else TX links of
the domain in ALIGNING enter DATA at this extended multiblock boundary (R236, R274). -/
def sysrefPulse (d : Nat) (s : State) : State :=
  let x := domAt s d
  if x.srMode = 0 || (x.srMode = 2 && x.srLeft = 0) || !s.time.ready || decide (s.time.tick < sysrefTick x x.srNext) then s
  else
    let s1 := { s with domains := tset {} s.domains d { x with srNext := x.srNext + 1, srLeft := x.srLeft - 1,
                                                               srRise := if x.guardOpen then some x.srNext else none } }
    if !x.guardOpen then { s1 with col := { s1.col with sysrefSkip := sat 0xFF s1.col.sysrefSkip } }
    else
      forUp (fun i s =>
        let l := linkAt s i
        if l.st = .aligning ∧ l.domain = d then
          if isRx i then { s with links := tset {} s.links i { l with aligned := true } } else linkData i s
        else s) 32 0 s1

/-! ### The commands and events -/

/-- TIME_PLL_LOCK: R226. -/
def execTimePllLock (s : State) : Host.Outcome State Fault Refusal := act s timePllLock

/-- SYNC_OUT_PULSE: R227. -/
def execSyncOutPulse (s : State) : Host.Outcome State Fault Refusal := act s syncOutPulse

/-- SYNC_IN_EDGE: R228, R244. -/
def execSyncInEdge (s : State) : Host.Outcome State Fault Refusal := act s syncInEdge

/-- SYNC_MISS: R228. -/
def execSyncMiss (s : State) : Host.Outcome State Fault Refusal := act s syncMiss

/-- SYNC_CONFIG: R257. -/
def execSyncConfig (h : Hdr) (syncLog2 syncLat drive check : Nat) (s : State) : Host.Outcome State Fault Refusal :=
  berza h (.syncConfig h syncLog2 syncLat drive check) (specSyncConfig h syncLog2 syncLat drive check s) s

/-- PPS_EDGE: R34. -/
def execPpsEdge (sub : Nat) (s : State) : Host.Outcome State Fault Refusal := act s (ppsEdge sub)

/-- PPS_MISSING: R34. -/
def execPpsMissing (s : State) : Host.Outcome State Fault Refusal := act s ppsMissing

/-- TIME_PPS_SET: R34. -/
def execTimePpsSet (h : Hdr) (sec : Nat) (s : State) : Host.Outcome State Fault Refusal :=
  berza h (.timePpsSet h sec) specTimePpsSet s

/-- TIME_HORIZON_SET: R37. -/
def execTimeHorizonSet (h : Hdr) (hor : Nat) (s : State) : Host.Outcome State Fault Refusal :=
  berza h (.timeHorizonSet h hor) (specTimeHorizonSet h hor s) s

/-- PACE_CONFIG: R51. -/
def execPaceConfig (h : Hdr) (window margin fillGuard fillAlarm floor ceiling stepUp stepDown : Nat) (s : State) :
    Host.Outcome State Fault Refusal :=
  berza h (.paceConfig h window margin fillGuard fillAlarm floor ceiling stepUp stepDown)
    (specPaceConfig h window margin fillGuard fillAlarm floor ceiling stepUp stepDown) s

/-- PACE_WINDOW_CLOSE: R52. -/
def execPaceWindowClose (readVout : Nat) (statusFault : Bool) (hives : List HiveMeas) (s : State) :
    Host.Outcome State Fault Refusal :=
  act s (paceWindowClose readVout statusFault hives)

/-- FILL_ALARM: R52. -/
def execFillAlarm (hive : Nat) (s : State) : Host.Outcome State Fault Refusal := actOn (decide (hive < nHives s)) s (fillAlarm hive)

/-- REGULATOR_CONFIRM: R450. -/
def execRegulatorConfirm (readVout : Nat) (s : State) : Host.Outcome State Fault Refusal := act s (regulatorConfirm readVout)

/-- DOMAIN_SET: R232. -/
def execDomainSet (h : Hdr) (domain num den div ldiv lockN guard : Nat) (s : State) : Host.Outcome State Fault Refusal :=
  berza h (.domainSet h domain num den div ldiv lockN guard) (specDomainSet h domain num den div ldiv lockN guard s) s

/-- DOMAIN_OFF: R235. -/
def execDomainOff (h : Hdr) (domain : Nat) (s : State) : Host.Outcome State Fault Refusal :=
  berza h (.domainOff h domain) (specDomainOff h domain s) s

/-- DOMAIN_LOCK: R232. -/
def execDomainLock (domain : Nat) (s : State) : Host.Outcome State Fault Refusal := actOn (decide (domain < 4)) s (domainLock domain)

/-- DOM_UNLOCK: R233. -/
def execDomUnlock (domain : Nat) (s : State) : Host.Outcome State Fault Refusal := actOn (decide (domain < 4)) s (domUnlock domain)

/-- GUARD_TRIP: R234. -/
def execGuardTrip (domain : Nat) (s : State) : Host.Outcome State Fault Refusal := actOn (decide (domain < 4)) s (guardTrip domain)

/-- SYSREF_SET: R236. -/
def execSysrefSet (h : Hdr) (domain mode period count width delay : Nat) (s : State) : Host.Outcome State Fault Refusal :=
  berza h (.sysrefSet h domain mode period count width delay) (specSysrefSet domain mode period count width delay s) s

/-- SYSREF_PULSE: R236. -/
def execSysrefPulse (domain : Nat) (s : State) : Host.Outcome State Fault Refusal := actOn (decide (domain < 4)) s (sysrefPulse domain)

end Sys2Proof.Machine
end

