-- ==== Sys2Proof/Machine/Journal.lean ====
section
/-! DEFINITION. The input journal (spec/17): its ring, checkpoints, and the commands that configure, stop, checkpoint,
export and import it. Entries are appended by `jput` (Machine/Ops.lean). -/

namespace Sys2Proof.Machine

/-! ### Recording and the modes (R431, R434) -/

/-- A checkpoint is taken now. -/
def takeCkpt (s : State) : State := if s.jnl.st = 1 then { s with jnl := ckptInto s s.time.tick } else s

/-- Recording is SUSPENDED in REPLAY and FACTORY, and on resuming takes a checkpoint at once. -/
def journalFollow (s : State) : State :=
  let off := s.md.mode = .replay ∨ s.md.mode = .factory
  if s.jnl.st = 1 ∧ off then { s with jnl := { s.jnl with st := 2 } }
  else if s.jnl.st = 2 ∧ ¬ off then takeCkpt { s with jnl := { s.jnl with st := 1 } }
  else s

/-- Tick of the newest checkpoint. -/
def newestCkpt (j : Journal) : Option Nat := j.ckpts.getLast?.map fun c => c.2.2.tick

/-- CHECKPOINT (R434): CKPT_PERIOD has elapsed since the newest checkpoint. -/
def checkpoint (s : State) : State :=
  let due := match newestCkpt s.jnl with
    | some t => decide (t + s.jnl.period ≤ s.time.tick)
    | none => true
  if s.jnl.period ≠ 0 && due then takeCkpt s else s

/-- CHECKPOINT: R434. -/
def execCheckpoint (s : State) : Host.Outcome State Fault Refusal := act s checkpoint

/-! ### Commands (R430, R438, R444) -/

/-- Common to the journal commands: context 0, no epoch unit. -/
def specJnl (h : Hdr) (op : Nat) (cls : RClass) (err : Option Err) : CSpec :=
  { op := op, cls := cls, permitted := h.ctx = 0, err := err }

/-- Bytes per second that the channels bound to the RX links of a mask deliver, times 2^20 (R431). -/
def rxRate (s : State) (mask : Word) : Nat :=
  s.caps.foldl (fun n p =>
    let x := p.2
    let l := x.slot / 256
    let d := domAt s x.domain
    if x.st ≠ .off && decide (16 ≤ l) && mask.getLsbD l && d.den * d.div ≠ 0 then
      n + 100000000 * d.num * capBps s x * 2 ^ 20 / (d.den * d.div * 2 ^ x.k)
    else n) 0

/-- Whether the arguments of `JNL_CONFIG` are in range (R430, R431). -/
def jnlArgsOk (s : State) (base size mode period : Nat) (rxMask : Word) (sigEn : Nat) : Bool :=
  base % 0x1000000 = 0 && size % 0x1000000 = 0 && decide (0x4000000 ≤ size) && decide (size ≤ 0x100000000) &&
    spanPresent s base size && decide (mode ≤ 1) && decide (sigEn ≤ 1) &&
    (period = 0 || (decide (1000000 ≤ period) && decide (period < 2 ^ 32))) && rxMask.toNat % 65536 = 0 &&
    decide (rxRate s rxMask ≤ 1200000000 * 2 ^ 20)

/-- `JNL_CONFIG`. -/
def specJnlConfig (h : Hdr) (base size mode period : Nat) (rxMask : Word) (sigEn : Nat) (s : State) : CSpec :=
  let ok := jnlArgsOk s base size mode period rxMask sigEn
  { specJnl h 0x0F00 .a (if !ok then some .badArg else if s.jnl.st ≠ 0 then some .badState else none) with
    absent := dramAbsent s base || dramAbsent s (base + size - 1),
    ready := dramReady s && (!ok || spanReady s base size), modeOk := s.md.mode = .bringUp || s.md.mode = .idle }

/-- The decision of `JNL_CONFIG`: the ring is placed, its regions become SYSTEM (R291), recording starts with a
checkpoint. -/
def decJnlConfig (base size mode period : Nat) (rxMask : Word) (sigEn : Nat) (s : State) : State :=
  if s.jnl.st ≠ 0 || !spanReady s base size || (s.md.mode ≠ .bringUp && s.md.mode ≠ .idle) then s
  else
    takeCkpt { s with jnl := { st := 1, stop := mode = 1, base := base, size := size, period := period, rxMask := rxMask,
                               sigEn := sigEn = 1 },
                      dramSystem := (s.dramSystem ++ dramRegions base size).eraseDups }

/-- `JNL_STOP`. -/
def specJnlStop (h : Hdr) : CSpec := specJnl h 0x0F01 .a none

/-- The decision of `JNL_STOP`: recording ends, STATE is OFF, the ring keeps its entries. -/
def decJnlStop (s : State) : State := { s with jnl := { s.jnl with st := 0 } }

/-- `JNL_CKPT`. -/
def specJnlCkpt (h : Hdr) (s : State) : CSpec := specJnl h 0x0F02 .c (if s.jnl.st ≠ 1 then some .badState else none)

/-- The decision of `JNL_CKPT`. -/
def decJnlCkpt (x : Held) (s : State) : State :=
  if s.jnl.st ≠ 1 then finish s x 0x0F02 none .badState else finish (takeCkpt s) x 0x0F02 none .ok

/-- The checkpoint at or before a tick: its offset and tick. -/
def ckptBefore (j : Journal) (t : Nat) : Option (Nat × Nat) :=
  (j.ckpts.filter fun c => decide (c.2.2.tick ≤ t)).getLast?.map fun c => (c.1, c.2.2.tick)

/-- The entries of a stretch: from the offset of a checkpoint up to tick `last`. -/
def stretch (j : Journal) (off last : Nat) : List JEntry :=
  j.entries.filter fun e => decide (off ≤ e.off) && decide (e.tick ≤ last) && e.pay ≠ .pad

/-- Bytes of a copy: its 64-byte header and its entries (R438). -/
def copyBytes (es : List JEntry) : Nat := es.foldl (fun n e => n + e.bytes) 64

/-- Bytes of the flash export area of the smallest part, and those that copies use (R377). -/
def exportRoom (s : State) : Nat :=
  0x4000000 - 0x2420000 - (s.dev.exports.filter (·.flash)).foldl (fun n e => n + e.bytes) 0

/-- The bytes of a payload that R433 and R436 lay out, from its first on: of a command those before its frames. -/
def payloadHead : JPay → List Byte
  | .cmd dec ctx mb _ => res [(8, dec), (8, pack [(4, ctx), (2, mb)])]
  | .doorbell .. => []
  | .dbgWrite .. => []
  | .event ev _ => le 16 (eventPayload ev 0).toNat
  | .swarm ev comp mgr => le 16 (eventPayload ev 0).toNat ++ le 16 (pack [(64, comp), (1, b2n mgr)])
  | .tcorr c => le 4 (BitVec.ofInt 32 c).toNat
  | .gap .. => []
  | .late .. => []
  | .state .. => []
  | .rxdata .. => []
  | .taint ev => le 16 (eventPayload ev 0).toNat
  | .ckpt _ => []
  | .digest .. => []
  | .sig cell blk tick count crc pieces =>
    le 2 cell ++ le 8 blk ++ le 8 tick ++ le 4 count ++ le 4 crc ++ le 6 0 ++ fit 256 (pieces.map (BitVec.ofNat 8))
  | .jgap .. => []
  | .pad => []
  | .rpl .. => []

/-- An entry's payload: the bytes laid out, zeros in a PAD, and free bytes where no layout is given (log 13). -/
def payloadBytes (e : JEntry) : List Byte :=
  let n := e.bytes - 16
  if e.pay = .pad then List.replicate n 0
  else
    let h := (payloadHead e.pay).take n
    h ++ (upFrom (n - h.length) h.length).map (Config.entryByte e.tick e.seq)

/-- The bytes of an entry: its header and its payload (R432). -/
def entryBytes (e : JEntry) : List Byte :=
  let p := payloadBytes e
  let h := le 14 (pack [(8, jKind e.pay), (12, (e.bytes - 16) / 16), (60, e.tick), (16, e.seq)])
  h ++ le 2 (crc16 (h ++ p)) ++ p

/-- The bytes of a copy (R438): a header whose layout is not given, and the entries. -/
def copyImage (tick : Nat) (es : List JEntry) : List Byte :=
  (upFrom 64 0).map (Config.exportByte tick) ++ es.flatMap entryBytes

/-- The end of a copy is ready to take or give it: flash, or the DRAM channels of its span (R286, R377). -/
def copyReady (s : State) (x : Sel) (n : Nat) : Bool :=
  if x.kind = 0 then s.kpr.flash else x.kind ≠ 1 || spanReady s x.num n

/-- The length of the copy that an export writes. -/
def exportLen (s : State) (first last : Nat) : Nat :=
  match ckptBefore s.jnl first with
  | none => 64
  | some (off, _) => copyBytes (stretch s.jnl off last)

/-- The error of `JNL_EXPORT` against a state: no checkpoint, a DRAM region that is not the caller's, no room (R438). -/
def exportErr (s : State) (k first last : Nat) (dest : Sel) : Option Err :=
  match ckptBefore s.jnl first with
  | none => some .badArg
  | some (off, _) =>
    let n := copyBytes (stretch s.jnl off last)
    if last < first ∨ 1 < dest.kind then some .badArg
    else if dest.kind = 0 then (if exportRoom s < n then some .badState else none)
    else if !spanPresent s dest.num n then some .badState
    else if !dramOwned s k dest.num n then some .badArg
    else none

/-- `JNL_EXPORT`. -/
def specJnlExport (h : Hdr) (first last : Nat) (dest : Sel) (s : State) : CSpec :=
  { specJnl h 0x0F03 .c (exportErr s h.ctx first last dest) with
    modeOk := s.md.mode ≠ .replay, absent := dest.kind = 1 && dramAbsent s dest.num,
    ready := copyReady s dest (exportLen s first last) }

/-- The decision of `JNL_EXPORT`: the copy is under way. -/
def decJnlExport (x : Held) (first last : Nat) (dest : Sel) (s : State) : State :=
  match exportErr s x.ctx first last dest with
  | some e => finish s x 0x0F03 none e
  | none => beginWork s x

/-- JNL_EXPORT_DONE (R438): the copy is complete, or the flash or DRAM failed. -/
def jnlExportDone (ok : Bool) (s : State) : State :=
  match findWork s fun i => match i with
      | .jnlExport .. => true
      | _ => false with
  | none => s
  | some x =>
    let s1 := endWork s x
    match x.cmd with
    | .jnlExport _ first last dest =>
      match ckptBefore s.jnl first with
      | none => finish s1 x 0x0F03 none .badArg
      | some (off, tick) =>
        if !ok || (dest.kind = 1 && !spanReady s dest.num (copyBytes (stretch s.jnl off last))) then finish s1 x 0x0F03 none .memError
        else
          let es := stretch s.jnl off last
          let n := copyBytes es
          let flash := dest.kind = 0
          let addr := if flash then 0x4000000 - exportRoom s else dest.num
          let c : Export := { flash := flash, addr := addr, serial := s.dev.serial, variant := s.dev.variant,
                              version := s.kpr.version, first := tick, last := last, bytes := n, entries := es,
                              ckpts := s.jnl.ckpts.filter fun c => decide (off ≤ c.1) && decide (c.2.2.tick ≤ last) }
          let s2 := { s1 with dev := { s1.dev with exports := s1.dev.exports ++ [c] } }
          let s3 := if flash then s2 else dramStore s2 addr (copyImage tick es)
          finish s3 x 0x0F03 none .ok
    | _ => s1

/-- JNL_EXPORT_DONE: R438. -/
def execJnlExportDone (ok : Bool) (s : State) : Host.Outcome State Fault Refusal := act s (jnlExportDone ok)

/-- The copy that stands at a source. -/
def copyAt (s : State) (src : Sel) : Option Export :=
  (s.dev.exports.filter fun e => e.flash = (src.kind = 0) && e.addr = src.num).getLast?

/-- `JNL_IMPORT`: STATE OFF, a ring placed by an earlier `JNL_CONFIG`. -/
def specJnlImport (h : Hdr) (src : Sel) (s : State) : CSpec :=
  { specJnl h 0x0F04 .c (if 1 < src.kind then some .badArg else if s.jnl.st ≠ 0 ∨ s.jnl.size = 0 then some .badState else none) with
    modeOk := s.md.mode = .idle, absent := src.kind = 1 && dramAbsent s src.num, ready := copyReady s src 64 }

/-- The decision of `JNL_IMPORT`. -/
def decJnlImport (x : Held) (s : State) : State :=
  if s.jnl.st ≠ 0 ∨ s.jnl.size = 0 then finish s x 0x0F04 none .badState
  else if s.md.mode ≠ .idle then finish s x 0x0F04 none .badMode
  else beginWork s x

/-- A copy written into the ring: its entries from the ring's start on. -/
def importInto (j : Journal) (c : Export) : Journal :=
  let lo := match c.entries with
    | [] => 0
    | e :: _ => e.off
  { j with entries := c.entries.map fun e => { e with off := e.off - lo }, ckpts := c.ckpts.map fun k => (k.1 - lo, k.2),
           written := c.bytes - 64, count := c.entries.length, ckptNo := c.ckpts.length }

/-- JNL_IMPORT_DONE (R438): the copy stands in the ring, or its header failed. A copy from another device reaches the
ring with contents the model does not know. -/
def jnlImportDone (ok : Bool) (s : State) : State :=
  match findWork s fun i => match i with
      | .jnlImport .. => true
      | _ => false with
  | none => s
  | some x =>
    let s1 := endWork s x
    match x.cmd with
    | .jnlImport _ src =>
      if !ok then finish s1 x 0x0F04 none .badArg
      else
        let j := match copyAt s src with
          | some c => importInto s.jnl c
          | none => { s.jnl with entries := [], ckpts := [], written := 0, count := 0 }
        finish { s1 with jnl := j } x 0x0F04 none .ok
    | _ => s1

/-- JNL_IMPORT_DONE: R438. -/
def execJnlImportDone (ok : Bool) (s : State) : Host.Outcome State Fault Refusal := act s (jnlImportDone ok)

/-- JNL_CONFIG: R430, R431, R444. -/
def execJnlConfig (h : Hdr) (base size mode ckptPeriod : Nat) (rxMask : Word) (sigEn : Nat) (s : State) :
    Host.Outcome State Fault Refusal :=
  berza h (.jnlConfig h base size mode ckptPeriod rxMask sigEn) (specJnlConfig h base size mode ckptPeriod rxMask sigEn s) s

/-- JNL_STOP: R444. -/
def execJnlStop (h : Hdr) (s : State) : Host.Outcome State Fault Refusal := berza h (.jnlStop h) (specJnlStop h) s

/-- JNL_CKPT: R434, R444. -/
def execJnlCkpt (h : Hdr) (s : State) : Host.Outcome State Fault Refusal := berza h (.jnlCkpt h) (specJnlCkpt h s) s

/-- JNL_EXPORT: R438, R444. -/
def execJnlExport (h : Hdr) (first last : Nat) (dest : Sel) (s : State) : Host.Outcome State Fault Refusal :=
  berza h (.jnlExport h first last dest) (specJnlExport h first last dest s) s

/-- JNL_IMPORT: R438, R444. -/
def execJnlImport (h : Hdr) (source : Sel) (s : State) : Host.Outcome State Fault Refusal :=
  berza h (.jnlImport h source) (specJnlImport h source s) s

end Sys2Proof.Machine
end

