-- ==== Sys2Proof/Machine/Replay.lean ====
section
/-! DEFINITION. Replay (R439 to R443): what `MODE_SET`(REPLAY) needs, loading a checkpoint with every tick moved by
Delta, and what leaving REPLAY returns to power-on values; with it, the resets of setting classes (R426) that replay and
warm reset share. -/

namespace Sys2Proof.Machine

/-! ### Setting classes returned to power-on values (R426) -/

/-- Classes 12, 13, 17 and 18: cells, queues and capture channels at rest with nothing set, nothing active in the comb;
epochs count on. -/
def resetUnits (s : State) : State :=
  let hs := ((s.active.map fun p => p.1 / 8192).eraseDups)
  let s1 := s.cells.foldl (fun s p => putCell s p.1 { epoch := (cellAt s p.1).epoch }) s
  let s2 := s1.queues.foldl (fun s p => putQueue s p.1 { epoch := p.2.epoch }) s1
  let s3 := s2.caps.foldl (fun s p => putCap s p.1 { epoch := p.2.epoch }) s2
  let s4 := forUp (fun c s => modDmc s c fun d => { d with queue := d.queue.filter fun e => e.master ≠ 2 && e.master ≠ 3 }) 4 0 s3
  let hv := s4.hives.foldl (fun t p => tset {} t p.1 { p.2 with srcUsers := false, credits := 64, rr := 0 }) s4.hives
  bumpComb { s4 with active := [], doorbells := [], hives := hv, inner := { s4.inner with lines := [] } } hs

/-- Class 19: routes, subscriptions, counters, timers and pin settings; owners stay (class 5). -/
def resetWaggle (s : State) : State :=
  bumpWag { s with
    chans := s.chans.foldl (fun t p => tset {} t p.1 { own := p.2.own }) s.chans, tasks := [],
    counters := s.counters.foldl (fun t p => tset {} t p.1 { own := p.2.own }) s.counters,
    timers := s.timers.foldl (fun t p => tset {} t p.1 { own := p.2.own }) s.timers,
    pins := s.pins.foldl (fun t p => tset {} t p.1 { own := p.2.own, hist := p.2.hist }) s.pins,
    hops := [], col := { s.col with drives := [], asserted := [] } }

/-- Class 26: every auxiliary channel at its clear code, bound to no cell. -/
def resetAux (s : State) : State :=
  forUp (fun a s => modAux s a fun x => { auxClear x with bound := none, target := 0 }) 64 0 s

/-- A command that replay applies from the journal is held with mailbox number 4, which no mailbox has. -/
def replayed (x : Held) : Bool := x.mb = 4

/-- Commands that stay held when REPLAY ends or begins: those that REPLAY itself accepts. -/
def staysHeld (x : Held) : Bool :=
  !replayed x && match x.cmd with
    | .modeSet .. => true
    | .warmReset .. => true
    | .faultClear .. => true
    | .readyRead .. => true
    | .windowRead .. => true
    | .combRead .. => true
    | .combActiveRead .. => true
    | .wagWatchRead .. => true
    | .linkEyeRead .. => true
    | .dramRead .. => true
    | .dramRegionRead .. => true
    | .queueStatus .. => true
    | .ownRead .. => true
    | .dbgTraceRead .. => true
    | .telemRead .. => true
    | .auxReadback .. => true
    | _ => false

/-! ### The region (R439) -/

/-- The checkpoint at tick K in the ring. -/
def ckptAt (j : Journal) (k : Nat) : Option (Nat × Snap) :=
  (j.ckpts.find? fun c => c.2.2.tick = k).map fun c => (c.1, c.2.2)

/-- A domain's settings agree with the checkpoint's. -/
def sameDomain (a b : Domain) : Bool :=
  a.on == b.on && (!a.on || (a.num, a.den, a.div, a.ldiv, a.lockN, a.guard) = (b.num, b.den, b.div, b.ldiv, b.lockN, b.guard))

/-- Whether `MODE_SET`(REPLAY) finds its region: a whole checkpoint K, an end after it, every cell of it on this variant,
the same H and domain settings. -/
def regionOk (s : State) (k e : Nat) : Bool :=
  match ckptAt s.jnl k with
  | none => false
  | some (_, p) =>
    decide (k ≤ e) && p.cells.all (fun c => decide (c.1 < nCells s)) && p.horizon = s.time.horizon &&
      (upFrom 4 0).all fun d => sameDomain (tget {} p.domains d) (domAt s d)

/-- P_LCM: alignment periods of the domains on at K, and the device's SYSREF periods in force. -/
def lcmPeriod (s : State) (p : Snap) : Nat :=
  let n := p.domains.foldl (fun n d => if d.2.on && alignPeriod d.2 ≠ 0 then Nat.lcm n (alignPeriod d.2) else n) 1
  s.domains.foldl (fun n d => if d.2.srMode ≠ 0 ∧ d.2.srPeriod ≠ 0 then Nat.lcm n d.2.srPeriod else n) n

/-- S_r: the first tick at least 32,768 ticks after `t` whose distance from K is a multiple of P_LCM. -/
def replayTick (t k l : Nat) : Nat := k + ceilDiv (t + 32768 - k) l * l

/-! ### Loading the checkpoint, moved by Delta ticks -/

/-- Base edges of a domain in `n` ticks. -/
def edgesIn (d : Domain) (n : Nat) : Nat := if d.den * d.div = 0 then 0 else n * d.num / (d.den * d.div)

/-- An event, moved. -/
def moveEvent (n : Nat) (e : Event) : Event := { e with origin := e.origin + n }

/-- A cell, moved. -/
def moveCell (n : Nat) (d : Domain) (x : Cell) : Cell :=
  { x with mRef := x.mRef + edgesIn d n, sig := { x.sig with ticks := x.sig.ticks.map (· + n), last := x.sig.last + n } }

/-- A capture channel, moved. -/
def moveCap (n : Nat) (d : Domain) (x : Cap) : Cap :=
  { x with mA := x.mA + edgesIn d n, tC := x.tC + n, tR := x.tR.map (· + n), trig := x.trig.map (moveEvent n),
           recs := x.recs.map fun r => { r with trigTick := r.trigTick + n } }

/-- A queue, moved; its blocks in flight wait for DRAM slots again. -/
def moveQueue (n : Nat) (x : Queue) : Queue :=
  { x with blocks := x.blocks.map fun b =>
      { b with taken := b.taken + n, resident := b.resident.map (· + n), queued := false, read := false } }

/-- The units as the checkpoint holds them, their ticks moved; commands it holds become replayed ones. -/
def loadSnap (p : Snap) (n : Nat) (s : State) : State :=
  let dom (i : Nat) : Domain := tget {} p.domains i
  let s1 := resetWaggle (resetUnits s)
  let top := p.held.foldl (fun m x => max m (x.serial + 1)) s.kpr.nextSerial
  let s2 := { s1 with
    cells := tmap {} (fun _ x => moveCell n (dom x.domain) x) p.cells,
    caps := tmap {} (fun _ x => moveCap n (dom x.domain) x) p.caps,
    queues := tmap {} (fun _ x => moveQueue n x) p.queues,
    chans := tmap {} (fun _ x => { x with ops := x.ops.map (fun o => (o.1 + n, o.2)), lastRaise := x.lastRaise.map (· + n) }) p.chans,
    tasks := tmap {} (fun _ x => { x with held := x.held.map fun e => (e.1 + n, { e.2 with ev := moveEvent n e.2.ev }) }) p.tasks,
    counters := tmap {} (fun _ x => x) p.counters,
    timers := tmap {} (fun _ x => { x with next := x.next + n, raised := x.raised.map (· + n) }) p.timers,
    pins := tmap {} (fun _ x => { x with hist := x.hist.map (fun h => (h.1 + n, h.2)), pulseEnd := x.pulseEnd.map (· + n) }) p.pins,
    hops := p.hops.map fun h => { h with due := h.due + n, ev := moveEvent n h.ev },
    held := s1.held.filter staysHeld ++ p.held.map fun x => { x with dec := x.dec + n, ta := x.ta + n, mb := 4, reply := false },
    kpr := { s1.kpr with nextSerial := top } }
  let s3 := forUp (fun h s => if tableBusy s h then modHive s h fun x => { x with srcUsers := true } else s) 64 0 s2
  { s3 with active := (activeAreas s3).foldl (fun m a => forUp (fun g m => tmod 0 m g (· + 1)) a.2 a.1 m) [] }

/-! ### What the region holds -/

/-- SEQ of a memory command that a restart can abandon (R317). -/
def memSeq : Instr → Option Nat
  | .segLoad h .. => some h.seq
  | .combRead h .. => some h.seq
  | .combFill h .. => some h.seq
  | .combAtomic h .. => some h.seq
  | .combActiveRead h .. => some h.seq
  | .dramWrite h .. => some h.seq
  | .dramRead h .. => some h.seq
  | _ => none

/-- Cause code of a STATE entry that marks a command abandoned by a keeper restart (R317). -/
def abandonedCause : Nat := 1

/-- A CMD entry that a STATE entry marks as abandoned. -/
def isAbandoned (es : List JEntry) (e : JEntry) : Bool :=
  match e.pay with
  | .cmd _ ctx mb i => es.any fun a => match a.pay with
      | .state 0xC index new cause => cause = abandonedCause && index = 4 * ctx + mb && memSeq i = some new
      | _ => false
  | _ => false

/-- An entry that ends the region: a JGAP, or the CMD of a `WARM_RESET` (R440, R443). -/
def endsRegion (e : JEntry) : Bool :=
  match e.pay with
  | .jgap .. => true
  | .cmd _ _ _ (.warmReset _) => true
  | _ => false

/-- GAP and LATE entries as (cell, first sample, count, cause); LATE has cause 0. -/
def imposedOf (e : JEntry) : Option (Nat × Nat × Nat × Nat) :=
  match e.pay with
  | .gap false unit _ first count cause => some (unit, first, count, cause)
  | .late cell first count => some (cell, first, count, 0)
  | _ => none

/-- An entry that replay looks up: SIG and RXDATA. -/
def lookedUp (e : JEntry) : Bool :=
  match e.pay with
  | .sig .. => true
  | .rxdata .. => true
  | _ => false

/-- Cells that name a granule area in their arms. -/
def cellsNaming (s : State) (lo hi : Nat) : List Nat :=
  (s.cells.filter fun c => ((match c.2.arm with
      | some a => a.areas
      | none => []) ++ c.2.arms.flatMap fun a => a.2.areas).any fun a => decide (a.1 * 256 < hi) && decide (lo < (a.1 + a.2) * 256)).map (·.1)

/-- A DIGEST checked against the comb: the cells that name its material are NOT_REPRO where it fails (R439, R441). -/
def checkDigest (s : State) (p : JPay) : State :=
  match p with
  | .digest bank hive off len crc _ =>
    let ca := combAddr hive bank off
    if crc32 (memRead s.comb ca len) = crc then s
    else { s with rpl := { s.rpl with notRepro := (s.rpl.notRepro ++ cellsNaming s ca (ca + len)).eraseDups } }
  | _ => s

/-- REPLAY takes effect at tick `t`: the checkpoint of the journal `j` is loaded and its digests are checked; the region's entries wait for
their ticks. -/
def loadReplay (j : Journal) (k e : Nat) (txMask : DWord) (stopOn : Bool) (t : Nat) (s : State) : State :=
  match ckptAt j k with
  | none => s
  | some (off, p) =>
    let es := (j.entries.filter fun x => decide (off < x.off) && decide (x.tick ≤ e)).takeWhile fun x => !endsRegion x
    let cut := (j.entries.filter fun x => decide (off < x.off) && decide (x.tick ≤ e)).find? endsRegion
    let start := replayTick t k (lcmPeriod s p)
    let n := start - k
    let last := match cut with
      | some x => match x.pay with
        | .jgap first .. => min e first
        | _ => min e x.tick
      | none => e
    let gap := match cut with
      | some x => match x.pay with
        | .jgap .. => true
        | _ => false
      | none => false
    let here := es.takeWhile fun x => match x.pay with
      | .digest .. => true
      | _ => false
    let s1 := loadSnap p n { s with rpl := {} }
    let s2 := { s1 with rpl := { st := 1, delta := n, k := k, e := last, startAt := start, txMask := txMask, stopOn := stopOn,
                                 simMode := p.mode, simOrigin := p.origin, simCal := p.calCells, gapEnd := gap,
                                 todo := (es.drop here.length).filter fun x => !lookedUp x && !isAbandoned j.entries x,
                                 sigs := es.filter lookedUp, imposed := es.filterMap imposedOf } }
    here.foldl (fun s x => checkDigest s x.pay) s2

/-- Leaving REPLAY with a final STATE: classes 12, 13, 17, 18, 19 and 26 return to their power-on values (R443). -/
def leaveReplay (st : Nat) (s : State) : State :=
  let s1 := resetAux (resetWaggle (resetUnits { s with held := s.held.filter staysHeld }))
  let g := s.rpl.gapEnd && st = 3
  restoreMark 8 [12, 13, 17, 18, 19, 26]
    { s1 with rpl := { s1.rpl with st := st, gapEnd := g, todo := [], sigs := [], imposed := [], stopAt := none } }

/-- The number of cells that are NOT_REPRO (`RPL_COUNTS`). -/
def notReproCount (s : State) : Nat := s.rpl.notRepro.length

end Sys2Proof.Machine
end

