-- ==== Sys2Proof/Machine/Modes.lean ====
section
/-! DEFINITION. The mode unit (R18 to R28): permitted transitions and their conditions, what entering and leaving a mode
does, the safe state (R421, R422), standby entry and the beginning of a wake (R390 to R394), keeper restarts (R317) and
resets (R425, R426). -/

namespace Sys2Proof.Machine

/-! ### Debug sessions (R382, R399) -/

/-- The lifecycle state in force: inconsistent fuses act as DEPLOYED (R382). -/
def lcOf (s : State) : Nat := if s.dev.fusesOk then s.dev.lifecycle else 2

/-- BLANK or RETURNED. -/
def lcOpen (s : State) : Bool := lcOf s = 0 || lcOf s = 3

/-- Debug level outside a session: FULL in BLANK and RETURNED, CLOSED otherwise (R382). -/
def dbgDefault (s : State) : Nat := if lcOpen s then 2 else 0

/-- The keeper resumes from a halt by the debug port, journaled (R400). -/
def resumeKeeper (s : State) : State :=
  if !s.sec.halted then s
  else
    let s1 := jstate s 0xC 0 0 0
    { s1 with kpr := { s1.kpr with ready := true }, sec := { s1.sec with halted := false } }

/-- A session ends: level and nonce (R399), and with it a halt, which only a FULL session has (DEDUCED, log 63). -/
def endSession (s : State) : State :=
  let s1 := resumeKeeper s
  { s1 with sec := { s1.sec with dbg := dbgDefault s, nonce := none, sessionEnd := none } }

/-! ### Entering a mode -/

/-- `MODE_STATE`.POWER of a mode (R388); STANDBY shows Idle until its entry is complete (R390). -/
def powerOf : Mode → Nat
  | .bringUp => 0
  | .idle => 1
  | .run => 0
  | .replay => 0
  | .calibrate => 0
  | .standby => 1
  | .safe => 1
  | .factory => 0

/-- Modes in which cells may hold running state (R60). -/
def playsIn (m : Mode) : Bool := m = .run || m = .calibrate

/-- Every playing or armed cell is stopped and every armed channel disarmed, as commands decided at tick `t` would do
(R20, R60, R176). -/
def stopUnits (t : Nat) (s : State) : State :=
  let s1 := s.cells.foldl (fun s c =>
    if c.2.st = .armed ∨ c.2.st = .running ∨ c.2.st = .paused then toBound c.1 .bound s else s) s
  s1.caps.foldl (fun s c => if c.2.st = .armed ∨ c.2.st = .window ∨ c.2.st = .rearm then disarm c.1 t s else s) s1

/-- A mode takes effect at tick `t`, with what R18, R216, R274, R356, R431 and R51 tie to the mode. -/
def enterMode (m : Mode) (t : Nat) (s : State) : State :=
  let old := s.md.mode
  let s1 := { s with md := { s.md with mode := m, prev := old, power := powerOf m, since := 16 * t, leave := none } }
  let s2 := if playsIn old && !playsIn m then stopUnits t s1 else s1
  let s3 := if m = .bringUp ∨ m = .standby ∨ m = .safe then pinsToIdle s2
    else if m = .idle then { s2 with col := { s2.col with drives := [], asserted := [] } } else s2
  let s4 := if m = .standby ∨ m = .safe ∨ m = .factory then auxClearAll s3 else s3
  journalFollow (paceHold (linksFollow s4))

/-- Armed error injections that a reset or power event discards (R423). -/
def dropInjections (s : State) : State := { s with grave := { s.grave with injComb := [], injDram := [] } }

/-- `MODE_EPOCH` counts what a decision changed before its reply samples it. -/
def modeSeen (x : Held) (s0 s : State) : State := modeSettle { s0 with held := x :: s0.held } s

/-! ### SAFE (R20 to R23, R421) -/

/-- The pending mode change is cancelled, `s0` being the state before what cancels it: its reply carries E_BAD_MODE with the
mode as it is now in its state fields (R22, R23, R332). -/
def cancelPending (s0 s : State) : State :=
  match modePending s with
  | none => s
  | some (x, _) => finish (modeSettle s0 { s with held := s.held.erase x }) x 0x0020 (some (0, 0)) .badMode

/-- The calibration set is empty again. -/
def noCalSet (s : State) : State :=
  { s with md := { s.md with calCells := [], calLanes := 0, calAux := 0, calItems := 0, calPace := 0 } }

/-- A calibration run ended by SAFE or a reset: nothing more is measured (R372); one that has completed keeps its outcome. -/
def endCalRun (s : State) : State :=
  match findWork s fun i => match i with
      | .calStart .. => true
      | _ => false with
  | some x =>
    let s1 := noCalSet { s with svc := { s.svc with running := false, lastFail := true } }
    finish (endWork s1 x) x 0x0D10 none .badMode (List.replicate 5 2)
  | none => noCalSet s

/-- SAFE takes effect at tick `t` from a mode other than STANDBY (R421), for a cause: 0 command, 1 class 3 fault, 2 + b
the reaction of block b. -/
def enterSafe (resetOnly : Bool) (cause t : Nat) (s : State) : State :=
  let ro := resetOnly || s.md.mode = .factory
  let s1 := if s.md.mode = .replay then leaveReplay 5 s else if s.md.mode = .calibrate then endCalRun s else s
  let s2 := enterMode .safe t s1
  let s3 := { s2 with md := { s2.md with resetOnly := ro, safeHeld := false } }
  let s4 := if s3.kpr.ready then paceWrite s3.pace.ceiling s3 else s3
  jput (dropInjections s4) t (.state 0 0 6 cause)

/-! ### Waking (R392 to R394) -/

/-- A wake begins: `SRAM_RET` low, `VDD_CORE` at the ceiling, DRAM out of self-refresh; domains that are on relock. -/
def wakeBegin (t cause index : Nat) (s : State) : State :=
  let s1 := { s with sec := { s.sec with waking := true, wakeCause := cause, wakeIndex := index, wakeStart := t, wakeAt := [],
                                         sramRet := false } }
  let s2 := s1.hives.foldl (fun s p => if p.2.power = 1 then modHive s p.1 fun x => { x with power := if s.sec.sramLost then 2 else 3 } else s) s1
  let s3 := dmcWake (paceWrite s2.pace.ceiling s2)
  if cause = 1 then s3 else jput s3 t (.state 0 index 5 cause)

/-- A wake waits for its tick. -/
def wakeWait (t cause index : Nat) (s : State) : State :=
  if s.sec.wakeAt.contains (t, cause, index) then s else { s with sec := { s.sec with wakeAt := s.sec.wakeAt ++ [(t, cause, index)] } }

/-- Of several wakes the earliest, at one tick the one of the lowest cause (R394). -/
def firstWake : List (Nat × Nat × Nat) → Option (Nat × Nat × Nat)
  | [] => none
  | w :: l =>
    match firstWake l with
    | none => some w
    | some v => if v.1 < w.1 ∨ (v.1 = w.1 ∧ v.2.1 < w.2.1) then some v else some w

/-- A wake source of tick `t` comes while a wake is under way: the earlier began it, at one tick the lower cause names it. -/
def wakeRename (t cause index : Nat) (s : State) : State :=
  if t < s.sec.wakeStart ∨ (t = s.sec.wakeStart ∧ cause < s.sec.wakeCause) then
    { s with sec := { s.sec with wakeCause := cause, wakeIndex := index, wakeStart := t } }
  else s

/-- A wake source asks for a wake at tick `t`, which has come: during entry it waits. -/
def wakeRequest (t cause index : Nat) (s : State) : State :=
  if s.md.mode ≠ .standby then s
  else if s.sec.entering then wakeWait t cause index s
  else if s.sec.waking then wakeRename t cause index s
  else wakeBegin t cause index s

/-- A wake source asks for a wake at a later tick `t` (R392). -/
def wakeLater (t cause index : Nat) (s : State) : State :=
  if s.md.mode ≠ .standby then s else if s.sec.waking then wakeRename t cause index s else wakeWait t cause index s

/-- SAFE asked for in STANDBY: a wake begins at once, SAFE follows at its end (R394). -/
def safeInStandby (resetOnly : Bool) (t cause : Nat) (s : State) : State :=
  let n := max (b2n resetOnly) (match s.sec.safeAfterWake with
    | some n => n
    | none => 0)
  wakeRequest t cause 0 { s with sec := { s.sec with safeAfterWake := some n } }

/-- A SAFE reaction, or a class 3 fault, acts at tick `t`, which has come (R20, R22, R23, R394, R416). -/
def safeNow (grave : Bool) (cause t : Nat) (s : State) : State :=
  match s.md.mode with
  | .safe => if grave then { s with md := { s.md with resetOnly := true } } else s
  | .standby => safeInStandby grave t 0 s
  | .bringUp => if grave then cancelPending s (enterSafe true cause t s)
    else { s with md := { s.md with safeHeld := true } }
  | _ => cancelPending s (enterSafe grave cause t s)

/-- An entry to SAFE of tick `t` can act: its tick has come, and no mode change of an earlier tick is still to be made (R23). -/
def safeDue (t : Nat) (s : State) : Bool :=
  decide (t ≤ s.time.tick) && match modePending s with
    | some (x, _) => decide (t ≤ x.dec)
    | none => true

/-- A SAFE reaction, or a class 3 fault, acts at tick `t`: one that lies ahead, or that follows a mode change still to be made,
waits. -/
def safeEntry (grave : Bool) (cause t : Nat) (s : State) : State :=
  if safeDue t s then safeNow grave cause t s else { s with grave := { s.grave with due := s.grave.due ++ [(t, grave, cause)] } }

/-- The entries to SAFE that can act now. -/
def safeComes (s : State) : State :=
  let now := s.grave.due.filter fun d => safeDue d.1 s
  let s1 := { s with grave := { s.grave with due := s.grave.due.filter fun d => !safeDue d.1 s } }
  now.foldl (fun s d => safeNow d.2.1 d.2.2 d.1 s) s1

/-- The end of CALIBRATE or REPLAY whose tick has come: the origin mode, or IDLE, takes effect at it (R20). -/
def modeReturns (s : State) : State :=
  match s.md.leave with
  | none => s
  | some t =>
    if s.time.tick < t then s
    else if s.md.mode = .calibrate then enterMode s.md.origin t (noCalSet s)
    else if s.md.mode = .replay then enterMode .idle t s
    else { s with md := { s.md with leave := none } }

/-! ### STANDBY (R390) -/

/-- The functions that are ready: domain d as d, DRAM channel c as 4 + c, the comb of hive h as 8 + h (R393). -/
def readyFunctions (s : State) : List Nat :=
  ((upFrom 4 0).filter fun d => (domAt s d).guardOpen) ++ ((upFrom 4 0).filter fun c => dmcReady (dmcAt s c)).map (· + 4) ++
    ((upFrom 64 0).filter (hiveReady s)).map (· + 8)

/-- The queued entries of every channel complete (R311). -/
def dramDrain (s : State) : State :=
  forUp (fun c s => forUp (fun _ s => entryComplete c 0 s) (dmcAt s c).queue.length 0 s) 4 0 s

/-- STANDBY takes effect and its entry proceeds to `target`, 2 Doze or 3 Retain; entry to Retain ends a session (R399). -/
def enterStandby (target t : Nat) (s : State) : State :=
  let rf := readyFunctions s
  let s1 := enterMode .standby t (dropInjections s)
  let s2 := forUp (fun d s =>
    if (domAt s d).on then modDom s d fun x => { x with locked := false, guardOpen := false } else s) 4 0 s1
  let s3 := dmcSleep (dramDrain (linksFollow s2))
  let s4 := if s3.kpr.ready then paceWrite s3.pace.floor s3 else s3
  let s5 := { s4 with sec := { s4.sec with entering := true, entryTarget := target, entryTick := t, readyBefore := rf } }
  if target = 3 then restoreMark 7 [4] (endSession s5) else s5

/-! ### MODE_SET (R20 to R24, R470, R471) -/

/-- The arguments of `MODE_SET` are in their ranges, and those the target does not use are 0 (R471). -/
def modeArgsOk (target power stop k e : Nat) (tx : DWord) : Bool :=
  decide (target ≤ 7) && (if target = 5 then power = 2 || power = 3 else power = 0) &&
    (if target = 3 then decide (stop ≤ 1) && decide (k < 2 ^ 60) && decide (e < 2 ^ 60) && decide (tx.toNat < 65536)
      else stop = 0 && k = 0 && e = 0 && tx = 0)

/-- The transitions that `MODE_SET` can ask for (R20). -/
def transition (m : Mode) (target : Nat) : Bool :=
  target = 6 || match m with
    | .bringUp => target = 1 || target = 7
    | .idle => target = 2 || target = 3 || target = 5
    | .run => target = 1
    | .replay => target = 1
    | .calibrate => false
    | .standby => target = 1
    | .safe => target = 1
    | .factory => false

/-- Some bit of some block is held at class 2 or 3. -/
def class2Held (s : State) : Bool := blocks.any fun b => holdsClass (fltAt s b) 2

/-- A wake source is configured (R394). -/
def wakeSource (s : State) : Bool := s.sec.wakeEvp ≠ 0 || s.sec.wakeSwl ≠ 0 || s.sec.wakeColony || s.sec.wakeTick ≠ 0

/-- A capture record is pending, or an open play queue is being refilled (R20). -/
def standbyBusy (s : State) : Bool :=
  (s.caps.any fun c => c.2.recs.any recOpen) ||
    s.queues.any fun q => q.2.st = .streaming || q.2.blocks.any fun b => b.resident.isNone

/-- The condition of a permitted transition that does not hold (R20, R394, R439). -/
def modeCondition (s : State) (target k e : Nat) : Option Err :=
  if target = 6 then none
  else match s.md.mode with
    | .bringUp =>
      if target = 1 then (if !s.kpr.ready || !s.time.ready || !colTime s then some .notReady else none)
      else if lcOpen s then none else some .denied
    | .idle =>
      if target = 3 then (if !dramReady s then some .notReady else if !regionOk s k e then some .badArg else none)
      else if target = 5 then (if standbyBusy s then some .badMode else if !wakeSource s then some .badArg else none)
      else none
    | .safe => if class2Held s || s.md.resetOnly then some .badMode else none
    | .run => none
    | .replay => none
    | .calibrate => none
    | .standby => none
    | .factory => none

/-- `MODE_SET`: in REPLAY only to IDLE or SAFE, which its transitions already say. -/
def specModeSet (h : Hdr) (target power stop k e : Nat) (tx : DWord) (s : State) : CSpec :=
  let args := modeArgsOk target power stop k e tx
  let busy := (modePending s).isSome && target ≠ 6
  { op := 0x0020, unit := some (0, 0), cls := .c, permitted := h.ctx = 0,
    modeOk := !args || busy || transition s.md.mode target,
    err := if !args then some .badArg else if busy then some .modePending else modeCondition s target k e,
    onAccept := fun s => if target = 6 then
      match s.held.getLast? with
      | some x =>
        let s1 := { s with held := s.held.dropLast }
        let s2 := cancelPending s1 s1
        { s2 with held := s2.held ++ [x] }
      | none => s
      else s }

/-- The mode that a `MODE_SET` asks for takes effect. -/
def changeMode (x : Held) (target power stop k e : Nat) (tx : DWord) (s : State) : State :=
  let t := x.dec
  let done (s1 : State) (er : Err) : State := finish (modeSeen x s s1) x 0x0020 (some (0, 0)) er
  match s.md.mode, modeOf target with
  | .safe, some .safe => done s .ok
  | .bringUp, some .safe => done { s with md := { s.md with safeHeld := true } } .ok
  | .standby, some .safe => safeInStandby false t 1 (beginWork s x)
  | .standby, some _ => wakeRequest t 1 0 (beginWork s x)
  | _, some .safe => done (enterSafe false 0 t s) .ok
  | .replay, some m =>
    let s1 := enterMode m t (leaveReplay 5 s)
    done (jput s1 t (.rpl false s1.rpl.k s1.rpl.e 5)) .ok
  | .idle, some .standby => done (enterStandby power t s) .ok
  | .idle, some .replay =>
    let s1 := jput s t (.rpl true k e 1)
    done (loadReplay s.jnl k e tx (stop = 1) t (enterMode .replay t s1)) .ok
  | .bringUp, some m =>
    if s.md.safeHeld then done (enterSafe false 0 t s) .badMode else done (enterMode m t s) .ok
  | _, some m => done (enterMode m t s) .ok
  | _, none => s

/-- In replay, the mode that a replayed `MODE_SET` gives the units (R440). -/
def simModeSet (target t : Nat) (s : State) : State :=
  match modeOf target with
  | some m =>
    let s1 := { s with rpl := { s.rpl with simMode := m } }
    if playsIn s.rpl.simMode && !playsIn m then stopUnits t s1 else s1
  | none => s

/-- The decision of `MODE_SET`: the conditions are checked again (R470). -/
def decModeSet (x : Held) (target power stop k e : Nat) (tx : DWord) (s : State) : State :=
  if replayed x then simModeSet target x.dec s
  else if !transition s.md.mode target then finish (modeSeen x s s) x 0x0020 (some (0, 0)) .badMode
  else
    match modeCondition s target k e with
    | some er => finish (modeSeen x s s) x 0x0020 (some (0, 0)) er
    | none => changeMode x target power stop k e tx s

/-- MODE_SET: R20 to R24, R470, R471. -/
def execModeSet (h : Hdr) (mode power stopOnMismatch k e : Nat) (txMask : DWord) (s : State) : Host.Outcome State Fault Refusal :=
  berza h (.modeSet h mode power stopOnMismatch k e txMask) (specModeSet h mode power stopOnMismatch k e txMask s) s

/-! ### Keeper restarts (R317) and warm reset (R425, R426) -/

/-- The memory commands that the keeper carries out itself (R317). -/
def keeperMem (i : Instr) : Bool := (memSeq i).isSome

/-- At a restart every mailbox is free again (class 11): a reply already written stays, the reply still owed will be
E_RESTARTED, saying whether the command had been handed to its unit or performed in part. -/
def mailboxesDown (warm : Bool) (s : State) : State :=
  s.mailboxes.foldl (fun s p =>
    let waiting := s.held.any fun x => keeperMem x.cmd && 4 * x.ctx + x.mb = p.1 && !replayed x
    { s with mailboxes := tmod {} s.mailboxes p.1 fun m =>
        { m with lastSeq := 0, seqFree := true, asm := none, multi := false, busy := false,
                 owed := match m.owed with
                   | some o => some { o with handed := !warm && !waiting }
                   | none => if m.pending then m.reply.map fun r => ⟨r.opcode, r.seq, true, r.decTick⟩ else none } }) s

/-- A restart abandons the keeper's memory commands, each journaled, and no reply follows for what the units hold. -/
def abandonMem (s : State) : State :=
  let gone := (s.held ++ s.works).filter fun x => keeperMem x.cmd && !replayed x
  let s1 := gone.foldl (fun s x => jstate s 0xC (4 * x.ctx + x.mb) x.seq abandonedCause) s
  let quiet (l : List Held) : List Held := (l.filter fun x => !(keeperMem x.cmd && !replayed x)).map fun x => { x with reply := false }
  let s2 := forUp (fun c s => modDmc s c fun d => { d with queue := d.queue.filter fun e => e.master ≠ 8 }) 4 0 s1
  { s2 with held := quiet s2.held, works := quiet s2.works }

/-- The keeper goes down; `img` 0 leaves the choice to the boot ROM (R346). READY0.PMBUS falls with it, since the pace
loop cannot run until firmware has written the ceiling again (R317, R340; log 27). -/
def keeperDown (img : Nat) (s : State) : State :=
  { s with kpr := { s.kpr with ready := false, pmbus := false, st := 3, restarts := sat 0xFF s.kpr.restarts, restartAt := none, restartImg := img } }

/-- A keeper restart begins (R317, R426): classes 4 and 11 return to their power-on values. -/
def keeperRestart (img : Nat) (s : State) : State :=
  restoreMark 4 [4, 11] (keeperDown img (endSession (abandonMem (mailboxesDown false (dropInjections s)))))

/-- What a standby interrupted by a reset had stopped starts again. -/
def standbyEnd (s : State) : State :=
  let s1 := if s.md.mode = .standby && !s.sec.waking then wakeBegin s.time.tick 0 0 s else s
  let s2 := s1.hives.foldl (fun s p =>
    if p.2.power = 3 && !s.sec.sramLost then modHive s p.1 fun x => { x with power := 0, playReady := true, catchReady := true }
    else s) s1
  { s2 with sec := { s2.sec with entering := false, waking := false, wakeAt := [], safeAfterWake := none, readyBefore := [] } }

/-- Warm reset at its effective tick (R425, R426): every unit returns to BRING-UP, accepted commands are discarded, the
keeper restarts; SAFE_HELD is kept (R22). -/
def warmReset (t : Nat) (s : State) : State :=
  let s1 := if s.md.mode = .replay then leaveReplay 5 s else if s.md.mode = .calibrate then endCalRun s else s
  let s1 := if playsIn s1.md.mode then stopUnits t s1 else s1
  let s2 := standbyEnd (mailboxesDown true (dropInjections s1))
  let s3 := resetAux (resetWaggle (resetUnits { s2 with
    held := [], works := [], col := { s2.col with run := none, calLines := [] } }))
  let s4 := enterMode .bringUp t (endSession s3)
  let s5 := keeperDown 0 { s4 with md := { s4.md with resetOnly := false } }
  restoreMark 3 [4, 11, 12, 13, 17, 18, 19, 26] s5

/-- A class 3 fault is held that forbids `WARM_RESET`: not where RESET_ONLY was set by a SAFE entry from FACTORY (R20, R425). -/
def warmBlocked (s : State) : Bool :=
  s.grave.held && !(s.md.mode = .safe && s.md.resetOnly && s.md.prev = .factory)

/-- `WARM_RESET`: refused while a class 3 fault is held (R425). -/
def specWarmReset (h : Hdr) (s : State) : CSpec :=
  { op := 0x0021, unit := some (0, 0), permitted := h.ctx = 0, err := if warmBlocked s then some .badState else none }

/-- The decision of `WARM_RESET`: discarded and journaled if a class 3 fault is held then (R470). -/
def decWarmReset (x : Held) (s : State) : State :=
  if replayed x then s
  else if warmBlocked s then jput s x.dec (.state 0 0 (modeCode s.md.mode) 3)
  else warmReset x.dec s

/-- WARM_RESET: R20, R425, R470. -/
def execWarmReset (h : Hdr) (s : State) : Host.Outcome State Fault Refusal := berza h (.warmReset h) (specWarmReset h s) s

end Sys2Proof.Machine
end

