-- ==== Sys2Proof/Machine/Faults.lean ====
section
/-! DEFINITION. Faults (spec/16): grave faults, clearing, masks, escalation and its reactions, injection, and the commands
of R429. Recording an occurrence is `raise` (Machine/Ops.lean). -/

namespace Sys2Proof.Machine

/-! ### Grave faults (R417, R418) -/

/-- A class 3 fault: recorded in its block, in `FAULT_GRAVE` where it is the first; SAFE takes effect at the next tick with
RESET_ONLY set. -/
def graveFault (o : Occ) (parity : Bool) (s : State) : State :=
  let s1 := raise s { o with cls := 3 }
  let g := s1.grave
  let g1 := if g.held then { g with regParity := g.regParity || parity }
    else { g with held := true, block := blockNum o.block, regParity := parity, time := devtime s }
  safeEntry true 1 (s.time.tick + 1) { s1 with grave := g1 }

/-- An occurrence at the class it calls for (R409). -/
def detect (o : Occ) (s : State) : State := if o.cls = 3 then graveFault o false s else raise s o

/-- TIME_UNLOCK: the time PLL loses lock; once device time is ready this is a class 3 fault (R226). -/
def timeUnlock (s : State) : State :=
  let s1 := { s with time := { s.time with pllLock := false } }
  if s.time.ready then graveFault { block := .tim, bit := 0, cls := 3 } false s1 else s1

/-- TIME_UNLOCK: R226, R417. -/
def execTimeUnlock (s : State) : Host.Outcome State Fault Refusal := act s timeUnlock

/-- REG_PARITY_CHECK: the check of a block's words finds an error that was injected; the number 16 plus a block is a word
of that block that the outside has corrupted (R418). The faulty word stays. -/
def regParityCheck (b : Nat) (s : State) : State :=
  match blockOf (b % 16) with
  | none => s
  | some k =>
    if decide (16 ≤ b) || s.grave.parityBad.contains b then
      let g := { s.grave with parityBad := s.grave.parityBad.erase (b % 16) }
      let s1 := { s with grave := if g.held then { g with regParity := true }
        else { g with held := true, block := blockNum k, regParity := true, time := devtime s } }
      safeEntry true 1 (s.time.tick + 1) (irq s1 0 5)
    else s

/-- REG_PARITY_CHECK: R418. -/
def execRegParityCheck (block : Nat) (s : State) : Host.Outcome State Fault Refusal :=
  actOn (decide (block % 16 < 13) && decide (block < 32)) s (regParityCheck block)

/-! ### Clearing (R414, R415) -/

/-- `ESC_CFG`.REACTION: set, or the block's default (R416). -/
def reactionSafe (b : Block) (f : FaultBlk) : Bool :=
  match f.reaction with
  | some r => r
  | none => b = .lnk || b = .tim || b = .col

/-- `ESC_CFG` of a block. -/
def escCfg (b : Block) (f : FaultBlk) : Nat :=
  pack [(27, f.window), (1, b2n (reactionSafe b f)), (1, b2n f.running), (1, b2n f.reacted)]

/-- The fault bits a block has, as a mask. -/
def faultMaskOf (b : Block) : Word := BitVec.ofNat 32 (2 ^ faultBits b - 1)

/-- Bits of a mask whose condition still stands: TJ_HIGH and SUPPLY clear only once the value is back in range (R376), SUPPLY once
the last sample of every supply is (log 26). -/
def standing (s : State) (b : Block) : Word :=
  if b = .bgs then
    BitVec.ofNat 32 (16 * b2n (decide (110 * 64 < (tget (0 : BitVec 16) s.svc.telem 27).toInt)) +
      32 * b2n (!s.svc.outOfRange.isEmpty))
  else 0

/-- Whether a mask names a bit held at class 3. -/
def namesGrave (f : FaultBlk) (mask : Word) : Bool := (upFrom 32 0).any fun i => mask.getLsbD i && fltClass f i = 3

/-- `FAULT_CLEAR` on a block's registers: bits and classes; REARM frees FIRST_ERR; with no bit left at class 2 the timer
stops, the scope empties and REACTED clears. -/
def clearBlk (mask : Word) (rearm : Bool) (f : FaultBlk) : FaultBlk :=
  let f1 := { f with status := f.status &&& ~~~mask, valid := f.valid && !rearm,
                     classes := f.classes.filter fun p => !mask.getLsbD p.1 }
  if holdsClass f1 2 then f1 else { f1 with running := false, reacted := false, scope := [] }

/-- `FAULT_CLEAR` decided at tick `t`: what was recorded at that tick, or since, stands (R428). -/
def clearAt (t : Nat) (mask : Word) (rearm : Bool) (f : FaultBlk) : FaultBlk :=
  let g := clearBlk mask rearm f
  if t ≤ f.recentAt then f.recent.foldl (standIn f.recentAt) g else g

/-- `FAULT_CLEAR`. -/
def specFaultClear (h : Hdr) (block : Nat) (mask : Word) (rearm : Nat) (s : State) : CSpec :=
  { op := 0x0E00, cls := .d, permitted := h.ctx = 0,
    err := match blockOf block with
      | none => some .badArg
      | some b => if mask &&& ~~~faultMaskOf b ≠ 0 ∨ 1 < rearm then some .badArg
        else if namesGrave (fltAt s b) mask then some .badState else none }

/-- The decision of `FAULT_CLEAR`; forwarding that the COL reaction suspended goes on (R416). -/
def decFaultClear (x : Held) (block : Nat) (mask : Word) (rearm : Nat) (s : State) : State :=
  match blockOf block with
  | none => s
  | some b =>
    if namesGrave (fltAt s b) mask then finish s x 0x0E00 none .badState
    else
      let s1 := modFlt s b (clearAt x.dec (mask &&& ~~~standing s b) (rearm = 1))
      let f := fltAt s1 b
      let s2 := if b = .col && !holdsClass f 2 then { s1 with col := { s1.col with suspended := false } } else s1
      finish s2 x 0x0E00 none .ok (res [(4, f.status.toNat), (4, escCfg b f)])

/-- FAULT_CLEAR: R414, R415, R429. -/
def execFaultClear (h : Hdr) (block : Nat) (mask : Word) (rearm : Nat) (s : State) : Host.Outcome State Fault Refusal :=
  berza h (.faultClear h block mask rearm) (specFaultClear h block mask rearm s) s

/-! ### Masks, windows, restore bits (R412, R415, R427) -/

/-- `FAULT_MASK_SET`. -/
def specFaultMaskSet (h : Hdr) (block : Nat) (mask : Word) : CSpec :=
  { op := 0x0E01, permitted := h.ctx = 0,
    err := match blockOf block with
      | none => some .badArg
      | some b => if mask &&& ~~~faultMaskOf b ≠ 0 then some .badArg else none }

/-- The decision of `FAULT_MASK_SET`. -/
def decFaultMaskSet (block : Nat) (mask : Word) (s : State) : State :=
  match blockOf block with
  | none => s
  | some b => modFlt s b fun f => { f with mask := mask }

/-- FAULT_MASK_SET: R412, R429. -/
def execFaultMaskSet (h : Hdr) (block : Nat) (mask : Word) (s : State) : Host.Outcome State Fault Refusal :=
  berza h (.faultMaskSet h block mask) (specFaultMaskSet h block mask) s

/-- `FAULT_ESC_SET`: only while the block's timer is not running; WINDOW 0 takes its default (R331). -/
def specFaultEscSet (h : Hdr) (block window reaction : Nat) (s : State) : CSpec :=
  let w := dflt 100000 window
  { op := 0x0E02, permitted := h.ctx = 0,
    err := match blockOf block with
      | none => some .badArg
      | some b => if w < 1000 ∨ 100000000 < w ∨ 1 < reaction then some .badArg
        else if (fltAt s b).running then some .badState else none }

/-- The decision of `FAULT_ESC_SET`; where the timer has started meanwhile, nothing happens. -/
def decFaultEscSet (block window reaction : Nat) (s : State) : State :=
  match blockOf block with
  | none => s
  | some b =>
    if (fltAt s b).running then s
    else modFlt s b fun f => { f with window := dflt 100000 window, reaction := some (reaction = 1) }

/-- FAULT_ESC_SET: R415, R429. -/
def execFaultEscSet (h : Hdr) (block window reaction : Nat) (s : State) : Host.Outcome State Fault Refusal :=
  berza h (.faultEscSet h block window reaction) (specFaultEscSet h block window reaction s) s

/-- `RESTORE_CLEAR`. -/
def specRestoreClear (h : Hdr) (mask : Word) : CSpec :=
  { op := 0x0E04, permitted := h.ctx = 0, err := if 2 ^ 27 ≤ mask.toNat then some .badArg else none }

/-- The decision of `RESTORE_CLEAR`. -/
def decRestoreClear (mask : Word) (s : State) : State := { s with grave := { s.grave with restore := s.grave.restore &&& ~~~mask } }

/-- RESTORE_CLEAR: R427, R429. -/
def execRestoreClear (h : Hdr) (mask : Word) (s : State) : Host.Outcome State Fault Refusal :=
  berza h (.restoreClear h mask) (specRestoreClear h mask) s

/-! ### Escalation (R415, R416) -/

/-- A cell stopped by a reaction, as a stop decided at the deadline tick. -/
def reactionStop (c : Nat) (s : State) : State :=
  let st := (cellAt s c).st
  if st = .armed ∨ st = .running ∨ st = .paused then jstate (toBound c .bound s) 1 c (cellCode .bound) 1 else s

/-- The groups with a live queue on a DRAM channel (R416). -/
def liveGroups (s : State) (chans : List Nat) : List Nat :=
  ((s.queues.filter fun p => decide (0 < p.2.live) && chans.any fun c => queueOn s c p.1 p.2).map fun p =>
    (cellAt s (p.1 / 1024)).group).filter (· ≠ 63)

/-- The cells that a block's LOCAL reaction stops, of those named by its scope. -/
def reactionHits (s : State) (b : Block) (f : FaultBlk) (c : Nat) (x : Cell) : Bool :=
  match b with
  | .cel => x.flags.getLsbD 7
  | .cmb => f.scope.contains (hiveOf c)
  | .pqm => x.group ≠ 63 && f.scope.contains x.group
  | .dmc => x.group ≠ 63 && (liveGroups s f.scope).contains x.group
  | .lnk => x.target.kind = 0 && f.scope.contains (x.target.num / 256)
  | .tim => f.scope.contains x.domain
  | .bgs => f.scope.contains (hiveOf c) && s.svc.synFail.contains c
  | .cap => false
  | .wag => false
  | .col => false
  | .kpr => false
  | .aux => false
  | .spd => false

/-- The LOCAL reaction of a block. -/
def localReaction (b : Block) (f : FaultBlk) (s : State) : State :=
  let s1 := (s.cells.filter fun p => p.2.st ≠ .off && reactionHits s b f p.1 p.2).foldl (fun s p => reactionStop p.1 s) s
  if b = .col then { s1 with col := { s1.col with suspended := true } } else s1

/-- The stops of a LOCAL reaction come at the deadline tick: until the samples and decisions before it have come, it waits (R62,
R83). -/
def reactionWaits (s : State) (b : Block) (f : FaultBlk) : Bool :=
  s.cells.any fun p => p.2.st ≠ .off && reactionHits s b f p.1 p.2 &&
    (cellEarlier s p.1 f.deadline 2 || !caughtUp s p.1 f.deadline)

/-- A `FAULT_CLEAR` of the block that is decided at or before the deadline wins (R415). -/
def clearFirst (s : State) (b deadline : Nat) : Bool :=
  s.held.any fun x => decide (x.dec ≤ deadline) && match x.cmd with
    | .faultClear _ k _ _ => k = b
    | _ => false

/-- ESCALATION_DEADLINE: at the deadline, with a bit still held at class 2, the reaction is applied once; expiry and
reaction are journaled. SAFE follows at the next tick. -/
def escalationDeadline (b : Nat) (s : State) : State :=
  match blockOf b with
  | none => s
  | some k =>
    let f := fltAt s k
    if !f.running || decide (s.time.tick < f.deadline) || clearFirst s b f.deadline then s
    else
      let safe := reactionSafe k f
      if !safe && reactionWaits s k f then s
      else
      let s1 := jput (modFlt s k fun f => { f with running := false, reacted := true }) f.deadline (.state 0 b (8 + b2n safe) (2 + b))
      if safe then safeEntry false (2 + b) (f.deadline + 1) s1 else localReaction k f s1

/-- ESCALATION_DEADLINE: R415, R416. -/
def execEscalationDeadline (block : Nat) (s : State) : Host.Outcome State Fault Refusal :=
  actOn (decide (block < 13)) s (escalationDeadline block)

/-! ### Injection (R423) -/

/-- The owner of the object that an occurrence in a block names. -/
def objOwner (s : State) (b : Block) (obj : Nat) : Option Nat :=
  match b with
  | .cel => some (cellOwner s obj).owner
  | .cmb => some (combRegion s obj).owner
  | .pqm => some (cellOwner s (obj / 1024)).owner
  | .dmc => some (dramRegion s obj).owner
  | .cap => some (cellOwner s obj).owner
  | .wag => if obj < 512 then some (chanAt s obj).own.owner else none
  | .aux => some (auxAt s obj).own.owner
  | .bgs => none
  | .lnk => none
  | .tim => none
  | .col => none
  | .kpr => none
  | .spd => none

/-- What an occurrence in a block adds to its ESC_SCOPE (R416). -/
def objScope (s : State) (b : Block) (bit obj : Nat) : List Nat :=
  match b with
  | .cmb => [obj / 0x200000]
  | .pqm => [(cellAt s (obj / 1024)).group]
  | .dmc => [dramChannel s obj]
  | .tim => if 7 ≤ bit then [0, 1, 2, 3] else [obj]
  | .bgs => [hiveOf obj]
  | .lnk => [obj % 256]
  | .col => [obj]
  | .wag => [obj]
  | .cel => []
  | .cap => []
  | .kpr => []
  | .aux => []
  | .spd => []

/-- The arguments of `FAULT_INJECT` for its kind. -/
def injectOk (s : State) (kind block bit cls object count : Nat) : Bool :=
  match kind with
  | 0 => decide (cls ≤ 3) && match blockOf block with
    | some b => decide (bit < faultBits b)
    | none => false
  | 1 => decide (object < combSize) && decide (object / 0x200000 < nHives s) && object % 8 = 0 && (count = 1 || count = 2)
  | 2 => dramPresent s object && object % 64 = 0 && (count = 1 || count = 2)
  | 3 => decide (0x1400 ≤ object) && decide (object < 0x1740) && object % 4 = 0
  | 4 => decide (object < nCells s) && decide (0 < count)
  | _ => false

/-- `FAULT_INJECT`: FACTORY, context 0. -/
def specFaultInject (h : Hdr) (kind block bit cls object count : Nat) (s : State) : CSpec :=
  { op := 0x0E03, permitted := h.ctx = 0, modeOk := s.md.mode = .factory,
    absent := (kind = 1 && beyond (nHives s) 64 (object / 0x200000)) || (kind = 4 && beyond (nCells s) 1024 object) ||
      (kind = 2 && dramAbsent s object),
    err := if injectOk s kind block bit cls object count then none else some .badArg }

/-- ROUTE_PARITY disables the entry: of a channel below 512, else the subscriptions of a task input (R225; DESIGN CHOICE, log 79). -/
def routeParity (object : Nat) (s : State) : State :=
  if object < 512 then modChan s object fun c => { c with entry := c.entry &&& ~~~(0x10000 : DWord) }
  else modTask s object fun k => { k with slots := [] }

/-- The decision of `FAULT_INJECT`. -/
def decFaultInject (kind block bit cls object count : Nat) (s : State) : State :=
  if s.md.mode ≠ .factory then s
  else match kind with
    | 0 => match blockOf block with
      | some b => detect { block := b, bit := bit, cls := cls, obj := object, owner := objOwner s b object,
                           scope := objScope s b bit object } (if b = .wag ∧ bit = 4 then routeParity object s else s)
      | none => s
    | 1 => { s with grave := { s.grave with injComb := tset 0 s.grave.injComb (object / 8) count } }
    | 2 => { s with grave := { s.grave with injDram := tset 0 s.grave.injDram (object / 64) count } }
    | 3 => { s with grave := { s.grave with parityBad := (s.grave.parityBad ++ [(object - 0x1400) / 64]).eraseDups } }
    | _ => { s with cells := tmod {} s.cells object fun x => { x with lateInject := count } }

/-- FAULT_INJECT: R423, R429. -/
def execFaultInject (h : Hdr) (kind block bit cls object count : Nat) (s : State) : Host.Outcome State Fault Refusal :=
  berza h (.faultInject h kind block bit cls object count) (specFaultInject h kind block bit cls object count s) s

end Sys2Proof.Machine
end

