-- ==== Sys2Proof/Machine/Colony.lean ====
section
/-! DEFINITION. The colony (R237 to R260): ports, frames sent and received, colony time, forwarded events, swarm lines and
their reports, skew calibration, and the colony commands. Tunnelling stands in Machine/Tunnel.lean. -/

namespace Sys2Proof.Machine

/-! ### Ports (R238 to R240) -/

/-- A port's state: of a chain port, that of `COL_CHAIN`. -/
def portState (s : State) (k : Nat) : Nat :=
  if k = 64 then s.col.upState else if k = 65 then s.col.dnState else (portAt s k).st

/-- A star port that this device uses: `CL_MGR` of a worker, an enabled `CL_Wk` of a manager (R238, R257). -/
def starPort (s : State) (k : Nat) : Bool :=
  (s.col.role = 2 && k = 0) || (s.col.role = 1 && decide (1 ≤ k) && decide (k ≤ 63) && s.col.starMask.getLsbD (k - 1))

/-- A fault of the colony block, which names a port or a line. -/
def colFault (bit cls obj : Nat) (s : State) : State :=
  detect { block := .col, bit := bit, cls := cls, obj := obj, master := 0xB, scope := [obj] } s

/-- A frame lost or refused on a port: counted; class 1 where it was an EVENT or SWARM frame (R242, R260). -/
def frameErr (k : Nat) (event : Bool) (s : State) : State :=
  colFault 1 (b2n event) k (modPort s k fun p => { p with frameErr := sat 0xFFFF p.frameErr })

/-- A manager has joined a worker (`COL_STATE`.JOINED). -/
def joinedNow (s : State) : State :=
  if s.col.role = 1 then { s with col := { s.col with joined := (upFrom 63 1).any fun k => (portAt s k).st = 3 } } else s

/-- An ENUMERATE frame with its hop count (R242). -/
def enumFrame (hops : Nat) : DueFrame := { rank := 1, hdr := 0x68, payload := BitVec.ofNat 128 (hops % 64) }

/-- Set a port's state: of a chain port, that of `COL_CHAIN`. -/
def setPort (k st : Nat) (s : State) : State :=
  if k = 64 then { s with col := { s.col with upState := st } }
  else if k = 65 then { s with col := { s.col with dnState := st } }
  else modPort s k fun p => { p with st := st }

/-- A port's DELAY exchanges begin: `n` requests go out and as many answers are awaited. -/
def askDelay (n : Nat) (p : Port) : Port := { p with exchanges := n, answers := 0, sumDelay := 0, sumTheta := 0 }

/-- PORT_UP (R240): 64 frames in a row had a valid CRC. A manager joins the worker at once and begins the exchanges of its
acquisition (R244; at every join: DESIGN CHOICE, log 24); a device that is at its place in the chain numbers the next. -/
def portUp (k : Nat) (s : State) : State :=
  if decide (2 ≤ portState s k) || decide ((portAt s k).good < 64) then s
  else if k = 65 then
    let s1 := setPort k 2 s
    if s.col.role = 1 ∨ s.col.chainPos ≠ 0 then colDue s1 65 (enumFrame (s.col.chainPos + 1)) else s1
  else if s.col.role = 1 && starPort s k then
    let s1 := colDue (setPort k 3 s) k { rank := 3, hdr := 0x06, payload := BitVec.ofNat 128 k }
    joinedNow (modPort s1 k fun p => { askDelay 64 p with sinceTime := 1023, acquiring := true })
  else if decide (64 ≤ k) || starPort s k then setPort k 2 s
  else s

/-- PORT_UP: R240. -/
def execPortUp (port : Nat) (s : State) : Host.Outcome State Fault Refusal := actOn (decide (port < 66)) s (portUp port)

/-- A forwarded channel is enabled. -/
def fwdEnabled (s : State) : Bool := s.chans.any fun p => chanEnabled p.2 && chanFwd p.2

/-- A port goes DOWN (R240): what is due on it is lost. A star port's loss is a class 1 fault, class 2 in RUN with an enabled
forwarded channel. -/
def portDown (k : Nat) (s : State) : State :=
  let s0 := (portAt s k).due.foldl (fun s f => tunnelSent f.frees s) s
  let s1 := setPort k 0 (modPort s0 k fun p => { askDelay 0 p with due := [], fragBuf := [], good := 0, bad := 0, acquiring := false })
  if 64 ≤ k ∨ (portAt s k).st < 2 then s1
  else colFault 0 (if s.md.mode = .run && fwdEnabled s then 2 else 1) k (joinedNow s1)

/-- PORT_DOWN: R240; the row that comes with a loss of signal, of which no frame tells (the eighth invalid frame in a row is a row of
its own). -/
def execPortDown (port : Nat) (s : State) : Host.Outcome State Fault Refusal := actOn (decide (port < 66)) s (portDown port)

/-! ### Frames received (R241, R242) -/

/-- The payload's field of `w` bits at `lo`. -/
def pay (f : ColFrame) (lo w : Nat) : Nat := bits f.payload.toNat lo w

/-- The CRC over bytes 1 to 17 is right. -/
def frameCrcOk (f : ColFrame) : Bool := f.crc.toNat = crc16 (f.hdr :: le 16 f.payload.toNat)

/-- A frame has been received on a port: the runs of frames with a valid and an invalid CRC; the first valid one begins TRAINING, the
eighth invalid one in a row takes the port DOWN (R240). -/
def heardFrame (k : Nat) (crcOk : Bool) (s : State) : State :=
  let s1 := modPort s k fun p => if crcOk then { p with good := min 64 (p.good + 1), bad := 0 } else { p with good := 0, bad := p.bad + 1 }
  if crcOk && portState s k = 0 then setPort k 1 s1
  else if 8 ≤ (portAt s1 k).bad then portDown k s1
  else s1

/-- A frame received on a port that the device uses and that is powered (R390): discarded and counted where its CRC, its TYPE or a reserved bit is wrong; what
it carries counts on a port that is UP. -/
def recvFrame (k : Nat) (f : ColFrame) (ok event : Bool) (g : State → State) (s : State) : State :=
  if (decide (k < 64) && !starPort s k) || inRetain s then s
  else
    let s1 := heardFrame k (frameCrcOk f) s
    if frameCrcOk f && ok then (if portState s k < 2 then s1 else g s1) else frameErr k event s1

/-- A frame with exactly this byte 1 and these reserved payload bits (as ranges: first, width) 0. -/
def plain (f : ColFrame) (hdr : Byte) (reserved : List (Nat × Nat)) : Bool :=
  f.hdr = hdr && reserved.all fun r => pay f r.1 r.2 = 0

/-- IDLE_FRAME: R242. -/
def execIdleFrame (port : Nat) (f : ColFrame) (s : State) : Host.Outcome State Fault Refusal :=
  actOn (decide (port < 66)) s (recvFrame port f (plain f 0 [(0, 128)]) false id)

/-! ### Colony time (R244 to R246, R255) -/

/-- The SYNC, swarm and flight-delay settings that a TIME frame carries (R242, R257). -/
def timeSettings (f : ColFrame) (s : State) : State :=
  let d := pay f 85 11
  { s with col := { s.col with syncLat := pay f 60 4, syncLog2 := pay f 76 5, swlLead := pay f 81 4, dMax := d,
                               hMin := max 96 (70 + 2 * d) } }

/-- The slot tick, in this device's time, in which the manager sent a frame that arrives now: as far back as R253 has a frame take
over the link's delay, to the nearest slot (R246). DEDUCED, log 24. -/
def ownSlot (s : State) : Nat := (s.time.tick + 4 - 10 - ceilDiv (portAt s 0).delay 1024) / 8 * 8

/-- TIME_FRAME on a worker: before colony time is ready, what it will need; then, the check of SLOT_TICK. -/
def timeFrame (f : ColFrame) (s : State) : State :=
  if s.col.role ≠ 2 then s
  else
    let slot := pay f 0 60
    let s1 := timeSettings f s
    if !s.time.ready then
      setHorizon (pay f 64 12) s.time.tick { s1 with col := { s1.col with lastTime := some (slot, s.time.tick) } }
    else if ownSlot s = slot then s1
    else colFault 4 3 0 s1

/-- TIME_FRAME: R244, R246. -/
def execTimeFrame (port : Nat) (f : ColFrame) (s : State) : Host.Outcome State Fault Refusal :=
  actOn (decide (port < 64)) s (recvFrame port f (plain f 1 [(96, 32)]) false (timeFrame f))

/-- A CONTROL JOIN on a worker: its device number (R237, R244). -/
def joinFrame (f : ColFrame) (s : State) : State :=
  if s.col.role ≠ 2 then s
  else { modPort s 0 (fun p => { p with st := 3 }) with
    col := { (modPort s 0 fun p => { p with st := 3 }).col with devnum := pay f 0 6, joined := true, gotJoin := true, chainOnly := false } }

/-- JOIN: R244. -/
def execJoin (port : Nat) (f : ColFrame) (s : State) : Host.Outcome State Fault Refusal :=
  actOn (decide (port < 64)) s (recvFrame port f (plain f 0x06 [(6, 122)]) false (joinFrame f))

/-- A CONTROL HORIZON on a worker: H from the effective tick of the manager's command, held until then with mailbox number
5, which no mailbox has. -/
def horizonFrame (f : ColFrame) (s : State) : State :=
  if s.col.role ≠ 2 then s
  else holdCmd s ⟨pay f 16 60, s.time.tick, 0, 5, 0, s.kpr.nextSerial, false, .timeHorizonSet { ctx := 0, mb := 5, seq := 0 } (pay f 0 12)⟩

/-- HORIZON_FRAME: R255. -/
def execHorizonFrame (port : Nat) (f : ColFrame) (s : State) : Host.Outcome State Fault Refusal :=
  actOn (decide (port < 64)) s (recvFrame port f (plain f 0x16 [(12, 4), (76, 52)]) false (horizonFrame f))

/-- A CONTROL CORRECT on a worker: one setting of the phase before colony time is ready, with the link's delay, which no frame
tells (a free value of at most D_MAX); later a slew, as part of a skew calibration of whose end no frame tells (a free value).
Log 24. -/
def correctFrame (f : ColFrame) (s : State) : State :=
  if s.col.role ≠ 2 then s
  else
    let c := sext 32 (pay f 0 32)
    if s.time.ready then
      { s with col := { s.col with gotCorrect := true, slew := s.col.slew + c, calibrated := Config.calibrationTold s.time.tick } }
    else
      let s1 := modPort s 0 fun p => { p with delay := Config.linkDelay s.time.tick % (1024 * (s.col.dMax + 1) + 1) }
      { s1 with col := { s1.col with gotCorrect := true, phase := s1.col.phase + c } }

/-- CORRECT: R244, R245. -/
def execCorrect (port : Nat) (f : ColFrame) (s : State) : Host.Outcome State Fault Refusal :=
  actOn (decide (port < 64)) s (recvFrame port f (plain f 0x26 [(32, 96)]) false (correctFrame f))

/-- CORRECTION_SLEW_STEP (R245): one step of 1/64 time unit, at most one per 1,024 ticks, journaled; TIME_DRIFT beyond 2
time units in all. -/
def correctionSlewStep (s : State) : State :=
  let c := s.col
  if c.slew = 0 ∨ !s.time.ready ∨ s.time.tick < c.lastSlew + 1024 then s
  else
    let d : Int := if 0 < c.slew then 1 else -1
    let s1 := jput { s with col := { c with slew := c.slew - d, corr := c.corr + d, phase := c.phase + d, lastSlew := s.time.tick } }
      s.time.tick (.tcorr d)
    if 128 < (c.corr + d).natAbs then colFault 3 2 0 s1 else s1

/-- CORRECTION_SLEW_STEP: R245. -/
def execCorrectionSlewStep (s : State) : Host.Outcome State Fault Refusal := act s correctionSlewStep

/-! ### Skew measurement (R247, R248) -/

/-- DELAY_REQUEST on a worker: the arrival t2 in 1/64 time unit of its own time; the response is due in a later slot, which
supplies B. -/
def delayRequest (f : ColFrame) (t2 : Nat) (s : State) : State :=
  if s.col.role ≠ 2 then s
  else
    let t1 := pay f 0 60
    let a := toField 28 ((t2 : Int) - 1024 * (t1 : Int))
    colDue s 0 { rank := 4, hdr := 0x14, payload := BitVec.ofNat 128 (pack [(60, t1), (4, 0), (28, a)]) }

/-- DELAY_REQUEST: R247. -/
def execDelayRequest (port : Nat) (f : ColFrame) (t2 : Nat) (s : State) : Host.Outcome State Fault Refusal :=
  actOn (decide (port < 64)) s (recvFrame port f (plain f 0x04 [(60, 68)]) false (delayRequest f t2))

/-- Ports of a manager that have joined. -/
def joinedPorts (s : State) : List Nat := (upFrom 63 1).filter fun k => (portAt s k).st = 3

/-- Flight delay in ticks of a delay in 1/64 time unit: ceil(delay / 1,024) - 1 (R247). -/
def flightTicks (d : Nat) : Nat := ceilDiv d 1024 - 1

/-- D_MAX and H_MIN from the delays of the joined ports; COL_HORIZON where D_MAX exceeds the one that H was accepted under (R247,
R253, R255). -/
def delaysNow (s : State) : State :=
  let d := (joinedPorts s).foldl (fun m k => max m (flightTicks (portAt s k).delay)) 0
  let s1 := { s with col := { s.col with dMax := d, hMin := max 96 (70 + 2 * d) } }
  if s.col.hAccepted.any fun a => decide (a < d) then colFault 9 2 0 s1 else s1

/-- The one-way delay and the worker's offset of one exchange on port `k`, in 1/64 time unit (R247); of the worker's PHY latencies
the manager has its own `CL_MGR` record (PRESUMED, log 24). -/
def exchange (s : State) (k : Nat) (f : ColFrame) (t4 : Nat) : Int × Int :=
  let q := (t4 : Int) - 1024 * ((pay f 0 60 : Int) + (pay f 92 16 : Int))
  let m := phyLat s k
  let w := phyLat s 0
  let a1 := sext 28 (pay f 64 28) - m.1 - w.2
  let q1 := q - w.1 - m.2
  ((a1 + q1) / 2, (a1 - q1) / 2)

/-- The mean of `n` values, rounded toward minus infinity (DESIGN CHOICE, log 24). -/
def meanOf (sum : Int) (n : Nat) : Int := sum / (n : Int)

/-- A CONTROL CORRECT frame is due on a port, with minus an offset. -/
def sendCorrect (s : State) (k : Nat) (theta : Int) : State :=
  colDue s k { rank := 3, hdr := 0x26, payload := BitVec.ofNat 128 (toField 32 (-theta)) }

/-- A measurement fails: SKEW_FAIL now where the background services made it, else when `COL_SKEW_CAL` is answered. -/
def skewFails (r : SkewRun) (s : State) : State :=
  let s1 := { s with col := { s.col with run := some { r with phase := 5 } } }
  if r.service then colFault 8 1 0 s1 else s1

/-- Steps 1 and 2 of R248 end: mean delays and offsets; no offset over 8 time units, or the measurement fails; each worker is
corrected and the further exchanges begin. -/
def skewCorrect (r : SkewRun) (s : State) : State :=
  if r.ports.any fun k => decide (512 < (meanOf (portAt s k).sumTheta r.exch).natAbs) then skewFails r s
  else
    let s1 := r.ports.foldl (fun s k =>
      let s1 := sendCorrect s k (meanOf (portAt s k).sumTheta r.exch)
      modPort s1 k fun p => askDelay r.exch { p with mean := toField 22 (meanOf p.sumDelay r.exch) }) s
    { s1 with col := { s1.col with run := some { r with phase := 2 } } }

/-- A launch tick of a calibration pulse, of which the rule says nothing (a free value after now, log 24). -/
def calLaunch (s : State) (l : Nat) : Nat := s.time.tick + 1 + Config.calLead l s.time.tick

/-- Step 5 of R248 begins: for each line named a SWARM_CAL frame on every joined port, and the pulse. -/
def sendPulses (r : SkewRun) (s : State) : State :=
  r.lines.foldl (fun s l =>
    let f : DueFrame := { rank := 3, hdr := 0x36, payload := BitVec.ofNat 128 (pack [(4, l), (60, calLaunch s l)]) }
    let s1 := r.ports.foldl (fun s k => if (portAt s k).st = 3 then colDue s k f else s) s
    { s1 with col := { s1.col with calLines := tset 0 s1.col.calLines l (calLaunch s l) } }) s

/-- The sum of the squares of the workers' offsets. -/
def squares (l : List Int) : Nat := l.foldl (fun a x => a + x.natAbs * x.natAbs) 0

/-- The rms in ps of `n` offsets in 1/64 time unit, of which one is 625 / 64 ps, rounded down, up to 100 ps; 0 without a worker
(DESIGN CHOICE, log 24). -/
def rmsPs (sq n : Nat) : Nat := (upFrom 100 1).foldl (fun m r => if r * r * (n * 4096) ≤ sq * 390625 then r else m) 0

/-- Steps 3 and 4 of R248 end: the residual, within 100 ps, or the measurement fails; the delays measured, D_MAX and H_MIN come into
force. -/
def skewResidual (r : SkewRun) (s : State) : State :=
  let sq := squares (r.ports.map fun k => meanOf (portAt s k).sumTheta r.exch)
  let n := max 1 r.ports.length
  if 10000 * (n * 4096) < sq * 390625 then skewFails r s
  else
    let s1 := r.ports.foldl (fun s k => modPort s k fun p => { p with delay := p.mean }) s
    let s2 := delaysNow { s1 with col := { s1.col with residual := rmsPs sq n, run := some { r with phase := if r.service then 4 else 3 } } }
    if r.service then s2 else sendPulses r s2

/-- A measurement goes on once every port that takes part has answered all exchanges of its step. -/
def skewAdvance (s : State) : State :=
  match s.col.run with
  | none => s
  | some r =>
    if r.ports.any fun k => decide ((portAt s k).answers < r.exch) then s
    else if r.phase = 1 then skewCorrect r s
    else if r.phase = 2 then skewResidual r s
    else s

/-- A skew measurement begins on every joined port (R248); one without a port has nothing to wait for. -/
def skewBegin (exch : Nat) (lines : List Nat) (service : Bool) (s : State) : State :=
  let ps := joinedPorts s
  let s1 := ps.foldl (fun s k => modPort s k fun p => { askDelay exch p with acquiring := false }) s
  skewAdvance (skewAdvance { s1 with col := { s1.col with run := some ⟨1, exch, ps, lines, [], service⟩ } })

/-- A worker's acquisition has its 64 exchanges: the link's delay, and one CORRECT (R244). -/
def acquired (k : Nat) (s : State) : State :=
  let p := portAt s k
  let s1 := modPort (sendCorrect s k (meanOf p.sumTheta 64)) k fun p =>
    { askDelay 0 p with delay := toField 22 (meanOf p.sumDelay 64), acquiring := false }
  delaysNow s1

/-- DELAY_RESPONSE on the manager: the exchange counts in the measurement under way on its port. -/
def delayResponse (k : Nat) (f : ColFrame) (t4 : Nat) (s : State) : State :=
  if s.col.role ≠ 1 then s
  else
    let e := exchange s k f t4
    let s1 := modPort s k fun p =>
      { p with answers := p.answers + 1, sumDelay := p.sumDelay + e.1, sumTheta := p.sumTheta + e.2 }
    if !(portAt s k).acquiring then skewAdvance s1
    else if (portAt s1 k).answers < 64 then s1
    else acquired k s1

/-- DELAY_RESPONSE: R247. -/
def execDelayResponse (port : Nat) (f : ColFrame) (t4 : Nat) (s : State) : Host.Outcome State Fault Refusal :=
  actOn (decide (port < 64)) s (recvFrame port f (plain f 0x14 [(60, 4), (108, 20)]) false (delayResponse port f t4))

/-- STATUS_FRAME on the manager: the worker's mode, power, bits and longest route. -/
def statusFrame (k : Nat) (f : ColFrame) (s : State) : State :=
  if s.col.role ≠ 1 then s
  else modPort s k fun p => { p with stMode := pay f 0 4, stPower := pay f 4 2, stBits := pay f 6 3, maxHops := pay f 16 11 }

/-- STATUS_FRAME: R242. -/
def execStatusFrame (port : Nat) (f : ColFrame) (s : State) : Host.Outcome State Fault Refusal :=
  actOn (decide (port < 64)) s (recvFrame port f (plain f 5 [(9, 7), (27, 5), (92, 36)]) false (statusFrame port f))

/-- A CONTROL SWARM_CAL on a worker: it stamps the line's pulse from the launch tick on; `told` is whether the worker is calibrated
now, in a run whose end no frame tells (R259; log 24). -/
def swarmCal (f : ColFrame) (told : Bool) (s : State) : State :=
  if s.col.role ≠ 2 then s
  else { s with col := { s.col with calLines := tset 0 s.col.calLines (pay f 0 4) (pay f 4 60), calibrated := told } }

/-- SWARM_CAL: R248. -/
def execSwarmCal (port : Nat) (f : ColFrame) (told : Bool) (s : State) : Host.Outcome State Fault Refusal :=
  actOn (decide (port < 64)) s (recvFrame port f (plain f 0x36 [(64, 64)]) false (swarmCal f told))

/-- A falling edge whose raw arrival is `raw`, in 1/64 time unit, is the calibration pulse of its line: the compensation is what it
took from the launch tick, less the ball-to-sampler delay. A worker takes it at once, the manager when `COL_SKEW_CAL` succeeds. -/
def stampPulse (l raw : Nat) (s : State) : State :=
  let t := tget 0 s.col.calLines l
  if t = 0 ∨ raw < 1024 * t then s
  else
    let c := (raw - 1024 * t - ballDelay s l) % 65536
    let s1 := { s with col := { s.col with calLines := tset 0 s.col.calLines l (if s.col.role = 1 then t else 0) } }
    if s.col.role = 1 then
      { s1 with col := { s1.col with run := s.col.run.map fun r =>
        if (r.comps.any fun x => x.1 = l) then r else { r with comps := r.comps ++ [(l, c)] } } }
    else { s1 with col := { s1.col with swlComp := tset 0 s1.col.swlComp l c } }

/-- A compensation leaves no room for the lead (R252). -/
def compTooLong (s : State) (r : SkewRun) : Bool := r.comps.any fun c => decide (64 * (16 * s.col.swlLead + 8) < c.2)

/-- `COL_SKEW_CAL`: a manager, every joined device in BRING-UP or IDLE. -/
def specColSkewCal (h : Hdr) (exchanges swlMask : Nat) (s : State) : CSpec :=
  let e := dflt 256 exchanges
  { op := 0x0B01, unit := some (10, 0), cls := .c, permitted := h.ctx = 0 && s.col.role = 1,
    modeOk := (s.md.mode = .bringUp || s.md.mode = .idle) && workersQuiet s,
    err := if e < 64 ∨ 4096 < e ∨ 65536 ≤ swlMask then some .badArg else none }

/-- The lines that a mask names. -/
def maskLines (m : Nat) : List Nat := (upFrom 16 0).filter fun l => bitOf m l

/-- The decision of `COL_SKEW_CAL`: the DELAY exchanges begin on every joined port. -/
def decColSkewCal (x : Held) (exchanges swlMask : Nat) (s : State) : State :=
  if !((unitMode s = .bringUp || unitMode s = .idle) && workersQuiet s) then finish s x 0x0B01 (some (10, 0)) .badMode
  else beginWork (skewBegin (dflt 256 exchanges) (maskLines swlMask) false s) x

/-- COL_SKEW_CAL: R248. -/
def execColSkewCal (h : Hdr) (exchanges swlMask : Nat) (s : State) : Host.Outcome State Fault Refusal :=
  berza h (.colSkewCal h exchanges swlMask) (specColSkewCal h exchanges swlMask s) s

/-- A port does not answer: it is no longer joined, or the manager has waited in vain (R248 gives no time) for all its answers. -/
def skewStuck (s : State) (silent : Bool) (r : SkewRun) : Bool :=
  decide (r.phase ≤ 2) && r.ports.any fun k =>
    (portAt s k).st ≠ 3 || (silent && (portAt s k).exchanges = 0 && decide ((portAt s k).answers < r.exch))

/-- Every line named has been stamped. -/
def linesDone (r : SkewRun) : Bool := r.phase = 3 && r.lines.all fun l => r.comps.any fun c => c.1 = l

/-- The measurement is over. -/
def skewEnd (ok : Bool) (s : State) : State :=
  let s1 := (upFrom 63 1).foldl (fun s k => if (portAt s k).acquiring then s else modPort s k (askDelay 0)) s
  { s1 with col := { s1.col with run := none, calLines := [], calibrated := ok } }

/-- COL_SKEW_CAL_DONE (R248, R252): once every line is stamped the compensations come into force, unless one is too long; a
measurement that failed, or that a port does not answer, ends the command with the earlier values in force. -/
def colSkewCalDone (silent : Bool) (s : State) : State :=
  match findWork s (fun i => match i with
      | .colSkewCal .. => true
      | _ => false), s.col.run with
  | some x, some r =>
    let reply (e : Err) (t : State) : State := finish (colSettle s t) x 0x0B01 (some (10, 0)) e
    if r.service then s
    else if r.phase = 5 || skewStuck s silent r then reply .colLink (colFault 8 1 0 (skewEnd false (endWork s x)))
    else if !linesDone r then s
    else if compTooLong s r then reply .badArg (skewEnd false (endWork s x))
    else
      let s1 := skewEnd true (endWork s x)
      reply .ok { s1 with col := { s1.col with swlComp := r.comps.foldl (fun t c => tset 0 t c.1 c.2) s1.col.swlComp } }
  | _, _ => s

/-- COL_SKEW_CAL_DONE: R248. -/
def execColSkewCalDone (silent : Bool) (s : State) : Host.Outcome State Fault Refusal := act s (colSkewCalDone silent)

/-! ### Swarm lines (R250, R251) -/

/-- The level a line has by its last stamped edge, reported or not. -/
def swlLast (s : State) (l : Nat) : Bool :=
  match (s.col.heldEdges.filter fun e => e.line = l).getLast? with
  | some e => e.level
  | none => pinLevelAt s (32 + l) (2 ^ 60)

/-- An edge comes into use with its origin tick: level, journal, event (R47, R207, R216). -/
def swlUse (e : HeldEdge) (mgr : Bool) (s : State) : State :=
  let src := srcIdOf 2 1 e.line
  let ev : Event := { origin := e.origin, channel := 0, level := e.level, gen := 0, srcId := src }
  let lv := if e.level then s.col.swlLevel ||| BitVec.ofNat 16 (2 ^ e.line) else s.col.swlLevel &&& ~~~BitVec.ofNat 16 (2 ^ e.line)
  let s1 := modPin s (32 + e.line) fun x => { x with hist := histAdd e.origin e.level x.hist }
  let s2 := jput { s1 with col := { s1.col with swlLevel := lv } } e.origin (.swarm ev e.comp mgr)
  if wagCarries s then produce s2 src e.origin e.level 0 else s2

/-- The first tick of an edge's 8-tick window. -/
def edgeWindow (e : HeldEdge) : Nat := e.origin / 8 * 8

/-- Add an edge to those of its window: a second change in one window leaves their net change. -/
def addEdge (l : List HeldEdge) (e : HeldEdge) : List HeldEdge × Bool :=
  if l.any fun o => o.line = e.line && edgeWindow o = edgeWindow e then
    (l.filter fun o => !(o.line = e.line && edgeWindow o = edgeWindow e), true)
  else (l ++ [e], false)

/-- An edge is noted among those of its window; SWL_GLITCH where the line has changed in it before (R250). -/
def noteEdge (e : HeldEdge) (s : State) : State :=
  let same := s.col.windowEdges.filter fun o => s.col.role = 1 || edgeWindow o = edgeWindow e
  let r := addEdge same e
  let s1 := { s with col := { s.col with windowEdges := r.1 } }
  if r.2 then colFault 7 0 e.line s1 else s1

/-- SWL_EDGE: an edge that arrives `sub` 1/64 time units after the launch tick; compensated time in time units, origin
floor(t_comp / 16) + 1 (R36, R250). A worker holds it for the manager's report; the manager reports it; in STANDBY it may only wake
the device. -/
def swlEdge (l : Nat) (level : Bool) (sub : Nat) (s0 : State) : State :=
  if !s0.time.ready || swlLast s0 l = level || s0.md.mode = .replay then s0
  else
    let raw := 1024 * s0.time.tick + sub % 1024
    let comp := (raw - tget 0 s0.col.swlComp l) / 64
    let e : HeldEdge := { line := l, level := level, origin := comp / 16 + 1, comp := comp }
    let s := if level then s0 else stampPulse l raw s0
    if s.md.mode = .standby then
      let s1 := modPin s (32 + l) fun x => { x with hist := histAdd e.origin level x.hist }
      if !level && s.sec.wakeSwl.getLsbD l then wakeLater (e.origin + horizonAt s e.origin) 4 l s1 else s1
    else if s.col.role = 2 then
      let r := addEdge s.col.heldEdges e
      let s1 := { s with col := { s.col with heldEdges := r.1 } }
      if r.2 then colFault 7 0 l s1 else s1
    else noteEdge e (swlUse e true s)

/-- SWL_EDGE: R250, R251, R392. -/
def execSwlEdge (line : Nat) (level : Bool) (sub : Nat) (s : State) : Host.Outcome State Fault Refusal :=
  actOn (decide (line < 16)) s (swlEdge line level sub)

/-- The whole window number whose low 44 bits a SWARM frame gives: the last at or before now. -/
def fullWindow (now win : Nat) : Nat :=
  let w := now / 8
  let base := w / 2 ^ 44 * 2 ^ 44 + win
  if w < base then base - 2 ^ 44 else base

/-- ADJUST is set for a line, with a fault. -/
def swlAdjust (l bit cls : Nat) (s : State) : State :=
  colFault bit cls l { s with col := { s.col with swlAdjust := s.col.swlAdjust ||| BitVec.ofNat 16 (2 ^ l) } }

/-- A worker takes the manager's edge on a line in place of its own. -/
def swarmLine (l : Nat) (level : Bool) (origin : Nat) (s : State) : State :=
  match s.col.heldEdges.find? fun e => e.line = l && e.level = level with
  | some e =>
    let s1 := swlUse { e with origin := origin } true { s with col := { s.col with heldEdges := s.col.heldEdges.erase e } }
    if e.origin = origin then s1
    else if e.origin = origin + 1 ∨ origin = e.origin + 1 then swlAdjust l 5 0 s1
    else swlAdjust l 6 1 s1
  | none => swlAdjust l 6 1 (swlUse { line := l, level := level, origin := origin, comp := 0 } true s)

/-- Drop a held edge that the manager does not report (R251). -/
def dropEdge (s : State) (e : HeldEdge) : State :=
  swlAdjust e.line 6 1 { s with col := { s.col with heldEdges := s.col.heldEdges.erase e } }

/-- SWARM_FRAME on a worker: the reported lines; an edge of the window that the manager does not report is dropped, but for
one at its last tick, which is kept for the next window's report. -/
def swarmFrame (f : ColFrame) (s : State) : State :=
  if s.col.role ≠ 2 ∨ !s.time.ready ∨ s.md.mode = .replay ∨ s.md.mode = .standby then s
  else
    let w := 8 * fullWindow s.time.tick (pay f 0 44)
    let s1 := (upFrom 16 0).foldl (fun s l =>
      if pay f (44 + l) 1 = 1 then swarmLine l (pay f (60 + l) 1 = 1) (w + pay f (76 + 3 * l) 3) s else s) s
    let lost := s1.col.heldEdges.filter fun e => (edgeWindow e = w && e.origin ≠ w + 7) || (e.kept && decide (edgeWindow e < w))
    let s2 := lost.foldl dropEdge s1
    { s2 with col := { s2.col with heldEdges := s2.col.heldEdges.map fun e => { e with kept := e.kept || edgeWindow e = w } } }

/-- SWARM_FRAME: R251. -/
def execSwarmFrame (port : Nat) (f : ColFrame) (s : State) : Host.Outcome State Fault Refusal :=
  actOn (decide (port < 64)) s (recvFrame port f (plain f 3 [(124, 4)]) true (swarmFrame f))

/-- SWARM_REPORT_TIMEOUT: by window start + 19 + D_MAX no report has come; the worker's own stamp is used. An edge that the report
of its window left out, and that no report of the next window brought, is dropped. -/
def swarmReportTimeout (l : Nat) (s : State) : State :=
  match s.col.heldEdges.find? fun e => e.line = l with
  | none => s
  | some e =>
    if s.time.tick < edgeWindow e + (if e.kept then 8 else 0) + 19 + s.col.dMax then s
    else if e.kept then dropEdge s e
    else frameErr 0 true (swlUse e false { s with col := { s.col with heldEdges := s.col.heldEdges.erase e } })

/-- SWARM_REPORT_TIMEOUT: R251. -/
def execSwarmReportTimeout (line : Nat) (s : State) : Host.Outcome State Fault Refusal :=
  actOn (decide (line < 16)) s (swarmReportTimeout line)

/-- The SWARM frame of the edges of one window. -/
def swarmReport (w : Nat) (es : List HeldEdge) : DueFrame :=
  let line (l : Nat) : Option HeldEdge := es.find? fun e => e.line = l
  let changed := (upFrom 16 0).map fun l => (1, b2n (line l).isSome)
  let level := (upFrom 16 0).map fun l => (1, b2n ((line l).any (·.level)))
  let offset := (upFrom 16 0).map fun l => (3, match line l with
    | some e => e.origin - w
    | none => 0)
  { rank := 1, hdr := 3, payload := BitVec.ofNat 128 (pack ((44, w / 8) :: changed ++ level ++ offset)) }

/-- The manager's reports of windows that have ended are due on every port that is UP. -/
def swarmReports (s : State) : State :=
  let ended := s.col.windowEdges.filter fun e => decide (edgeWindow e + 8 ≤ s.time.tick)
  let s1 := { s with col := { s.col with windowEdges := s.col.windowEdges.filter fun e => !ended.contains e } }
  ((ended.map edgeWindow).eraseDups).foldl (fun s w =>
    let f := swarmReport w (ended.filter fun e => edgeWindow e = w)
    (starUp s).foldl (fun s k => colDue s k f) s) s1

/-! ### Forwarded events (R253, R254) -/

/-- EVENT_FRAME: an echo is discarded; else the event is injected onto its forwarded channel where that is enabled and the mode has
waggle carry events, and a manager, in every mode, sends it once on its downlinks, two ticks on. -/
def eventFrame (f : ColFrame) (s : State) : State :=
  if !s.time.ready || s.col.suspended || s.col.role = 0 then s
  else
    let dev := pay f 96 6
    if dev = s.col.devnum then s
    else
      let w := pay f 64 9
      let c := chanAt s w
      let ev : Event := { origin := pay f 0 60, channel := w, level := pay f 73 1 = 1, gen := pay f 74 3, srcId := pay f 80 16 }
      let s1 := if chanFwd c && chanEnabled c && wagCarries s && s.md.mode ≠ .replay then
          let s2 := jput s ev.origin (.event ev true)
          { s2 with hops := s2.hops ++ [⟨s.time.tick + 2, ev, .onto w, true⟩] }
        else s
      if s.col.role = 1 then
        let due : DueFrame := { rank := 2, hdr := 2, payload := f.payload, dec := ev.origin + horizonAt s ev.origin,
                                channel := w, since := s.time.tick + 2 }
        (starUp s1).foldl (fun s k => colDue s k due) s1
      else s1

/-- EVENT_FRAME: R253. -/
def execEventFrame (port : Nat) (f : ColFrame) (s : State) : Host.Outcome State Fault Refusal :=
  actOn (decide (port < 64)) s (recvFrame port f (plain f 2 [(60, 4), (77, 3), (102, 26)]) true (eventFrame f))

/-- An event sent in slot `t` still reaches every task input by D - 16 (R254). -/
def admits (s : State) (t dec : Nat) : Bool :=
  if s.col.role = 2 then decide (t + 43 + 2 * s.col.dMax + 16 ≤ dec) else decide (t + 15 + s.col.dMax + 16 ≤ dec)

/-- A forwarded event is dropped at a port, counted and journaled. -/
def fwdDrop (k : Nat) (f : DueFrame) (s : State) : State :=
  let s1 := modPort s k fun p => { p with fwdDrop := sat 0xFFFF p.fwdDrop }
  let s2 := jstate s1 0xA k f.channel 2
  raise s2 { block := .col, bit := 2, cls := 1, obj := k, master := 0xB, owner := some (chanAt s f.channel).own.owner, scope := [k] }

/-! ### FRAME_SLOT (R243) -/

/-- Whether a due frame goes before another: rank, then decision tick and channel. -/
def dueBefore (a b : DueFrame) : Bool :=
  decide (a.rank < b.rank) || (a.rank = b.rank && (decide (a.dec < b.dec) || (a.dec = b.dec && decide (a.channel < b.channel))))

/-- Insert behind those that go first or come equal. -/
def dueInsert (f : DueFrame) : List DueFrame → List DueFrame
  | [] => [f]
  | g :: t => if dueBefore f g then f :: g :: t else g :: dueInsert f t

/-- The frames due at a tick, in the order of the port. -/
def dueOrder (l : List DueFrame) (t : Nat) : List DueFrame :=
  (l.filter fun f => decide (f.since ≤ t)).foldl (fun r f => dueInsert f r) []

/-- The events that can no longer arrive, met before the frame that is sent, and that frame. -/
def pickFrame (ok : DueFrame → Bool) : List DueFrame → List DueFrame × Option DueFrame
  | [] => ([], none)
  | f :: t => if ok f then ([], some f) else ((f :: (pickFrame ok t).1), (pickFrame ok t).2)

/-- The TIME frame of a slot. -/
def timeOut (s : State) : DueFrame :=
  { rank := 7, hdr := 1,
    payload := BitVec.ofNat 128 (pack [(60, s.time.tick), (4, s.col.syncLat), (12, s.time.horizon), (5, s.col.syncLog2),
      (4, s.col.swlLead), (11, s.col.dMax)]) }

/-- The STATUS frame of a slot. -/
def statusOut (s : State) : DueFrame :=
  { rank := 5, hdr := 5,
    payload := BitVec.ofNat 128 (pack [(4, modeCode s.md.mode), (2, s.md.power), (1, b2n s.col.timeOk), (1, b2n (faultHeld s)),
      (1, b2n (okPin s)), (7, 0), (11, maxHops s), (5, 0), (60, s.time.tick)]) }

/-- What a port makes of its own in a slot: TIME and DELAY of a manager with device time, STATUS of a joined worker. -/
def ownFrames (s : State) (k : Nat) : List DueFrame :=
  let p := portAt s k
  if s.col.role = 1 && starPort s k && s.time.ready then
    (if 1023 ≤ p.sinceTime then [{ timeOut s with rank := 4 }] else [timeOut s]) ++
      (if p.exchanges = 0 then [] else [{ rank := 6, hdr := 4, payload := BitVec.ofNat 128 s.time.tick }])
  else if s.col.role = 2 && k = 0 && p.st = 3 then
    [if 1023 ≤ p.sinceStatus then { statusOut s with rank := 2 } else statusOut s]
  else []

/-- The bytes of a due frame as sent in slot `t`: B of a DELAY response is the slot less T1. -/
def sentFrame (f : DueFrame) (t : Nat) : ColFrame :=
  let p := if f.hdr = 0x14 then
      BitVec.ofNat 128 (bits f.payload.toNat 0 92 + toField 16 ((t : Int) - (bits f.payload.toNat 0 60 : Int)) * 2 ^ 92)
    else f.payload
  ⟨f.hdr, p, BitVec.ofNat 16 (crc16 (f.hdr :: le 16 p.toNat))⟩

/-- A port sends a frame in this slot, or an IDLE frame. -/
def sendFrame (k : Nat) (o : Option DueFrame) (s : State) : State :=
  let f := match o with
    | some f => f
    | none => { rank := 8, hdr := 0, payload := 0 }
  tunnelSent f.frees <| modPort s k fun p =>
    { p with due := p.due.erase f, lastSent := some (sentFrame f s.time.tick), lastSlot := s.time.tick,
             sinceTime := if f.hdr = 1 then 0 else p.sinceTime + 1, sinceStatus := if f.hdr = 5 then 0 else p.sinceStatus + 1,
             exchanges := if f.hdr = 4 then p.exchanges - 1 else p.exchanges }

/-- FRAME_SLOT: at a tick that is a multiple of 8, the first frame due leaves; a port that is not UP sends IDLE, one without power (R390) nothing. -/
def frameSlot (k : Nat) (s : State) : State :=
  if s.time.tick % 8 ≠ 0 ∨ inRetain s then s
  else if portState s k < 2 then sendFrame k none s
  else
    let s1 := if s.col.role = 1 && starPort s k then swarmReports s else s
    let order := dueOrder ((portAt s1 k).due ++ ownFrames s1 k) s.time.tick
    let r := pickFrame (fun f => f.hdr ≠ 2 || admits s s.time.tick f.dec) order
    let s2 := r.1.foldl (fun s f => fwdDrop k f (modPort s k fun p => { p with due := p.due.erase f })) s1
    sendFrame k r.2 s2

/-- FRAME_SLOT: R243, R254. -/
def execFrameSlot (port : Nat) (s : State) : Host.Outcome State Fault Refusal := actOn (decide (port < 66)) s (frameSlot port)

/-! ### Wake frames and the remaining commands (R257) -/

/-- A CONTROL WAKE on a worker in Doze with COLONY: a wake waits for its tick; elsewhere the frame is discarded. -/
def wakeFrame (f : ColFrame) (s : State) : State :=
  if s.col.role = 2 && s.md.mode = .standby && s.md.power = 2 && s.sec.wakeColony && !s.sec.waking then wakeLater (pay f 0 60) 5 0 s else s

/-- WAKE_FRAME: R257. -/
def execWakeFrame (port : Nat) (f : ColFrame) (s : State) : Host.Outcome State Fault Refusal :=
  actOn (decide (port < 64)) s (recvFrame port f (plain f 0x46 [(60, 68)]) false (wakeFrame f))

/-- `COL_CONFIG`. -/
def specColConfig (h : Hdr) (starMask : DWord) (swlLead : Nat) (s : State) : CSpec :=
  { op := 0x0B00, unit := some (10, 0), permitted := h.ctx = 0 && s.col.role = 1, modeOk := s.md.mode = .bringUp,
    err := if 2 ^ 63 ≤ starMask.toNat ∨ 15 < dflt 2 swlLead then some .badArg else none }

/-- The decision of `COL_CONFIG`: a port no longer enabled goes DOWN. -/
def decColConfig (starMask : DWord) (swlLead : Nat) (s : State) : State :=
  if unitMode s ≠ .bringUp then s
  else
    let s1 := { s with col := { s.col with starMask := starMask, swlLead := dflt 2 swlLead } }
    joinedNow ((upFrom 63 1).foldl (fun s k => if starPort s k then s else modPort s k fun p => { p with st := 0, due := [] }) s1)

/-- COL_CONFIG: R257. -/
def execColConfig (h : Hdr) (starMask : DWord) (swlLead : Nat) (s : State) : Host.Outcome State Fault Refusal :=
  berza h (.colConfig h starMask swlLead) (specColConfig h starMask swlLead s) s

/-- `COL_CLEAR`. -/
def specColClear (mask : DWord) : CSpec :=
  { op := 0x0B03, unit := some (10, 0), err := if colMaskOk mask then none else some .badArg }

/-- The decision of `COL_CLEAR` (R474). -/
def decColClear (mask : DWord) (s : State) : State :=
  let c := s.col
  let s1 := { s with col := { c with swlAdjust := c.swlAdjust &&& ~~~((mask >>> 16).truncate 16), miss := clearTo mask 0 c.miss,
                                     shiftCount := clearTo mask 1 c.shiftCount, sysrefSkip := clearTo mask 2 c.sysrefSkip } }
  forUp (fun k s => modPort s k fun p => { p with frameErr := clearTo mask 3 p.frameErr, fwdDrop := clearTo mask 4 p.fwdDrop }) 64 0 s1

/-- COL_CLEAR: R257, R474. -/
def execColClear (h : Hdr) (mask : DWord) (s : State) : Host.Outcome State Fault Refusal :=
  berza h (.colClear h mask) (specColClear mask) s

/-- The workers a mask names. -/
def maskWorkers (mask : DWord) : List Nat := (upFrom 63 1).filter fun k => mask.getLsbD (k - 1)

/-- `COL_WAKE`. -/
def specColWake (h : Hdr) (mask : DWord) (wakeTick : Nat) (s : State) : CSpec :=
  let dec := if h.eff = 0 then s.time.tick + s.time.horizon else h.eff
  { op := 0x0B04, unit := some (10, 0), permitted := h.ctx = 0 && s.col.role = 1, modeOk := s.md.mode = .idle || s.md.mode = .run,
    err := if 2 ^ 63 ≤ mask.toNat ∨ 2 ^ 60 ≤ wakeTick ∨ wakeTick < dec + 32 + s.col.dMax then some .badArg
      else if (maskWorkers mask).any fun k => decide ((portAt s k).st < 2) then some .colLink else none }

/-- The decision of `COL_WAKE`: a WAKE frame is due on each named port that is UP. -/
def decColWake (mask : DWord) (wakeTick : Nat) (s : State) : State :=
  ((maskWorkers mask).filter fun k => decide (2 ≤ (portAt s k).st)).foldl
    (fun s k => colDue s k { rank := 3, hdr := 0x46, payload := BitVec.ofNat 128 wakeTick }) s

/-- COL_WAKE: R257. -/
def execColWake (h : Hdr) (workerMask : DWord) (wakeTick : Nat) (s : State) : Host.Outcome State Fault Refusal :=
  berza h (.colWake h workerMask wakeTick) (specColWake h workerMask wakeTick s) s

end Sys2Proof.Machine
end

