-- ==== Sys2Proof/Machine/Power.lean ====
section
/-! DEFINITION. Power states, wakes, contexts, owners, lifecycle and debug (spec/15). The beginnings of standby and of a
wake stand in Machine/Modes.lean. -/

namespace Sys2Proof.Machine

/-- A fault of the SPD block. -/
def spdFault (bit cls obj : Nat) (s : State) : State := raise s { block := .spd, bit := bit, cls := cls, obj := obj }

/-! ### Standby entry and wakes (R390 to R394) -/

/-- PWR_ENTRY: entry overruns 1 ms for Doze, 3 ms for Retain. -/
def pwrEntry (s : State) : State :=
  let bound := if s.sec.entryTarget = 3 then 300000 else 100000
  if s.sec.entering && decide (s.sec.entryTick + bound < s.time.tick) then spdFault 3 1 0 s else s

/-- PWR_ENTRY: R390. -/
def execPwrEntry (s : State) : Host.Outcome State Fault Refusal := act s pwrEntry

/-- WAKE_TICK: the configured wake tick has been reached in STANDBY, or the tick of a wake that waits. -/
def wakeTickDue (s : State) : State :=
  let now := s.time.tick
  let s1 := match firstWake (s.sec.wakeAt.filter fun w => decide (w.1 ≤ now)) with
    | some (t, c, i) => if s.sec.entering then s else wakeRequest t c i s
    | none => s
  let w := s.sec.wakeTick
  if w ≠ 0 ∧ s.sec.entryTick ≤ w ∧ w ≤ now then wakeRequest w 2 0 s1 else s1

/-- WAKE_TICK: R392, R393. -/
def execWakeTick (s : State) : Host.Outcome State Fault Refusal := act s wakeTickDue

/-- The banks that were retained present their contents again. -/
def banksBack (s : State) : State :=
  s.hives.foldl (fun s p =>
    if p.2.power = 3 then modHive s p.1 fun x => { x with power := 0, playReady := true, catchReady := true } else s) s

/-- The first waiting `MODE_SET` of a wake. -/
def modeWorks (s : State) : List Held := s.works.filter fun x => match x.cmd with
  | .modeSet .. => true
  | _ => false

/-- The reply of a `MODE_SET` that a wake has carried out. -/
def wakeReply (safe : Bool) (x : Held) (s : State) : State :=
  let ok := match x.cmd with
    | .modeSet _ m _ _ _ _ _ => m = 6 || !safe
    | _ => true
  finish (endWork s x) x 0x0020 (some (0, 0)) (if ok then .ok else .badMode)

/-- WAKE_COMPLETE: once every function that was ready before entry is ready again, IDLE takes effect, or SAFE where it was
asked for. -/
def wakeComplete (s : State) : State :=
  if s.md.mode ≠ .standby ∨ !s.sec.waking then s
  else
    let s1 := banksBack s
    let back := (readyFunctions s1).filter fun f => !(decide (4 ≤ f) && decide (f < 8) && (dmcAt s1 (f - 4)).tracking)
    if !s.sec.readyBefore.all back.contains then s1
    else
      let t := s.time.tick
      let s2 := { s1 with sec := { s1.sec with waking := false, wakeAt := [], safeAfterWake := none, readyBefore := [],
                                               sramLost := false, pwrLast := min (2 ^ 32 - 1) (t - s.sec.wakeStart) } }
      let s3 := match s.sec.safeAfterWake with
        | some n =>
          let s3 := enterSafe (n = 1) n t s2
          if safeDue t s3 then cancelPending s s3 else s3
        | none => enterMode .idle t s2
      (modeWorks s3).foldl (fun u x => wakeReply s.sec.safeAfterWake.isSome x u) (modeSettle s s3)

/-- WAKE_COMPLETE: R393, R394. -/
def execWakeComplete (s : State) : Host.Outcome State Fault Refusal := act s wakeComplete

/-- A bank's contents, activation counts and region owners after a loss of its supply (R137). -/
def combLost (s : State) : State :=
  { s with comb := [], scratch := [], inner := {}, combUe := [], combCe := [], active := [], combOwn := [] }

/-- RETAIN_LOSS: `VDD_SRAM` has sagged in Retain; the banks wake as from Off (R136). -/
def retainLoss (s : State) : State :=
  let kept := s.hives.any fun p => p.2.power = 1 || p.2.power = 3
  if s.md.mode ≠ .standby ∨ !kept then s
  else
    let s1 := combLost { s with sec := { s.sec with sramLost := true }, dev := { s.dev with remapsDue := true } }
    let hs := s1.hives.foldl (fun t p => tset {} t p.1 { p.2 with sparesPlay := factorySpares s (2 * p.1),
                                                                   sparesCatch := factorySpares s (2 * p.1 + 1), bad := [] }) s1.hives
    let s2 := { s1 with hives := hs }
    let s3 := hs.foldl (fun s p => if p.2.power = 3 then modHive s p.1 fun x => { x with power := 2 } else s) s2
    restoreMark 7 [15] (raise s3 { block := .cmb, bit := 10, cls := 1 })

/-- RETAIN_LOSS: R136, R394. -/
def execRetainLoss (s : State) : Host.Outcome State Fault Refusal := act s retainLoss

/-- EVP_EDGE with the wakes of STANDBY: an edge on an input pin in EVP_MASK wakes at its decision tick (R392); a fall
of the status pin of a link in DATA is STATUS_PIN (R283). -/
def evpWake (pin : Nat) (level : Bool) (s : State) : State :=
  let t := s.time.tick
  let s1 := evpEdge pin level s
  let changed := s.time.ready && pinLevelAt s pin t ≠ level
  if s.md.mode = .standby && changed && s.sec.wakeEvp.getLsbD pin && !(pinAt s pin).output then
    wakeLater (t + horizonAt s t) 3 pin s1
  else if changed && !level && !(pinAt s pin).output && s.md.mode ≠ .replay then statusPinFell pin s1
  else s1

/-- EVP_EDGE: R36, R204, R392. -/
def execEvpEdge (pin : Nat) (level : Bool) (s : State) : Host.Outcome State Fault Refusal :=
  actOn (decide (pin < 32)) s (evpWake pin level)

/-- `WAKE_SET`. -/
def specWakeSet (h : Hdr) (evp : Word) (colony wakeTick : Nat) (s : State) : CSpec :=
  let outs := (upFrom 32 0).any fun p => evp.getLsbD p && (pinAt s p).output
  { op := 0x0C03, unit := some (15, 0), permitted := h.ctx = 0, modeOk := s.md.mode ≠ .standby,
    err := if outs ∨ 1 < colony ∨ 2 ^ 60 ≤ wakeTick then some .badArg else none }

/-- The decision of `WAKE_SET`; nothing once STANDBY has come. -/
def decWakeSet (evp : Word) (swl : BitVec 16) (colony wakeTick : Nat) (s : State) : State :=
  if s.md.mode = .standby then s
  else { s with sec := { s.sec with wakeEvp := evp, wakeSwl := swl, wakeColony := colony = 1, wakeTick := wakeTick } }

/-- WAKE_SET: R392, R405. -/
def execWakeSet (h : Hdr) (evpMask : Word) (swlMask : BitVec 16) (colony wakeTick : Nat) (s : State) :
    Host.Outcome State Fault Refusal :=
  berza h (.wakeSet h evpMask swlMask colony wakeTick) (specWakeSet h evpMask colony wakeTick s) s

/-! ### Contexts and owners (R385 to R387) -/

/-- Every owned object that is not at its power-on owner. -/
def allOwns (s : State) : List Own :=
  s.cellOwn.map (·.2) ++ s.auxs.map (·.2.own) ++ s.combOwn.map (·.2) ++ s.dramOwn.map (·.2) ++ s.chans.map (·.2.own) ++
    s.timers.map (·.2.own) ++ s.counters.map (·.2.own) ++ s.pins.map (·.2.own)

/-- A change of a context's attributes that its objects forbid (R385). -/
def ctxHolds (s : State) (k enable secure : Nat) : Bool :=
  (allOwns s).any fun o => o.owner = k && (enable = 0 || (secure = 0 && o.secure))

/-- `CTX_SET`. -/
def specCtxSet (h : Hdr) (k enable secure : Nat) (s : State) : CSpec :=
  { op := 0x0C00, unit := some (14, 0), permitted := h.ctx = 0,
    err := if k = 0 ∨ 16 ≤ k ∨ 1 < enable ∨ 1 < secure then some .badArg else if ctxHolds s k enable secure then some .badState else none }

/-- The decision of `CTX_SET`; nothing where an object forbids it by then. -/
def decCtxSet (k enable secure : Nat) (s : State) : State :=
  if ctxHolds s k enable secure then s
  else
    let c := tmod {} s.contexts k fun x => { x with enabled := enable = 1 }
    let c1 := tset {} c (16 + k) { ({} : Context) with enabled := secure = 0 }
    if c1 = s.contexts then s else bumpSec { s with contexts := c1 }

/-- CTX_SET: R385, R405. -/
def execCtxSet (h : Hdr) (context enable secure : Nat) (s : State) : Host.Outcome State Fault Refusal :=
  berza h (.ctxSet h context enable secure) (specCtxSet h context enable secure s) s

/-- An object that may not change owner: a cell unless it, its capture channel and its queues are at rest and it is in no
group, an auxiliary channel bound to a cell (R387). -/
def ownUsed (s : State) (kind i : Nat) : Bool :=
  if kind = 0 then
    (cellAt s i).st ≠ .off || (cellAt s i).group ≠ 63 || (capAt s i).st ≠ .off ||
      s.queues.any fun q => q.1 / 1024 = i && q.2.st ≠ .closed
  else (auxAt s i).bound.isSome

/-- Objects of a KIND of `OWN_SET`. -/
def ownCount (s : State) (kind : Nat) : Nat := if kind = 0 then nCells s else if kind = 1 then 64 else 0

/-- `OWN_SET`. -/
def specOwnSet (h : Hdr) (kind first count owner secure : Nat) (s : State) : CSpec :=
  { op := 0x0C01, unit := some (14, 0), permitted := h.ctx = 0, modeOk := modeLoad s,
    absent := kind = 0 && beyond (nCells s + 1) 1025 (first + count),
    err := if count = 0 ∨ 1024 < count ∨ ownCount s kind < first + count ∨ 16 ≤ owner ∨ 1 < secure ∨ (secure = 1 ∧ !ctxSecure s owner) then
        some .badArg
      else if (upFrom count first).any (ownUsed s kind) then some .badState else none }

/-- One object gets an owner; a change counts in `SEC_EPOCH` and in the epoch of its unit. -/
def ownOne (kind : Nat) (o : Own) (i : Nat) (s : State) : State :=
  if kind = 0 then
    if cellOwner s i = o then s
    else bumpSec { s with cellOwn := tset {} s.cellOwn i o, cells := tmod {} s.cells i fun x => { x with epoch := x.epoch + 1 } }
  else if (auxAt s i).own = o then s
  else bumpSec (modAux s i fun x => { x with own := o })

/-- The decision of `OWN_SET`; nothing where an object is in use by then, or a secure one would go to a context that is not secure. -/
def decOwnSet (kind first count owner secure : Nat) (s : State) : State :=
  if (upFrom count first).any (ownUsed s kind) ∨ (secure = 1 ∧ !ctxSecure s owner) then s else forUp (ownOne kind ⟨owner, secure = 1⟩) count first s

/-- OWN_SET: R386, R387, R405. -/
def execOwnSet (h : Hdr) (kind first count owner secure : Nat) (s : State) : Host.Outcome State Fault Refusal :=
  berza h (.ownSet h kind first count owner secure) (specOwnSet h kind first count owner secure s) s

/-- An owner byte (R407). -/
def ownByte (o : Own) : Nat := pack [(4, o.owner), (1, b2n o.secure)]

/-- The owner of an object of a KIND. -/
def ownOf (s : State) (kind i : Nat) : Own := if kind = 0 then cellOwner s i else (auxAt s i).own

/-- `OWN_READ`. -/
def specOwnRead (kind first count : Nat) (s : State) : CSpec :=
  { op := 0x0C02, unit := some (14, 0), cls := .d, absent := kind = 0 && beyond (nCells s + 1) 1025 (first + count),
    err := if count = 0 ∨ 32 < count ∨ ownCount s kind < first + count then some .badArg else none }

/-- The decision of `OWN_READ`. -/
def decOwnRead (x : Held) (kind first count : Nat) (s : State) : State :=
  finish s x 0x0C02 (some (14, 0)) .ok ((upFrom count first).map fun i => BitVec.ofNat 8 (ownByte (ownOf s kind i)))

/-- OWN_READ: R405. -/
def execOwnRead (h : Hdr) (kind first count : Nat) (s : State) : Host.Outcome State Fault Refusal :=
  berza h (.ownRead h kind first count) (specOwnRead kind first count s) s

/-! ### Lifecycle (R382 to R384) -/

/-- The transitions that `LC_ADVANCE` makes (R383). -/
def lcStep (s : State) (target : Nat) : Bool :=
  (target = 2 && lcOf s = 1) || (target = 3 && (lcOf s = 1 || lcOf s = 2))

/-- The error of `LC_ADVANCE` against a state. -/
def lcErr (s : State) (target confirm : Nat) : Option Err :=
  if !lcStep s target ∨ confirm ≠ s.dev.serial % 2 ^ 32 then some .badArg
  else if target = 3 ∧ s.sec.dbg ≠ 2 then some .auth else none

/-- `LC_ADVANCE`. -/
def specLcAdvance (h : Hdr) (target confirm : Nat) (s : State) : CSpec :=
  { op := 0x0C04, unit := some (14, 0), cls := .c, permitted := h.ctx = 0, modeOk := s.md.mode = .bringUp || s.md.mode = .idle,
    err := lcErr s target confirm }

/-- Boundary scan is available (R382, R401, R403). -/
def bscanOk (s : State) : Bool := (lcOf s ≠ 2 || s.sec.dbg = 2) && !inRetain s

/-- The decision of `LC_ADVANCE`: the fuse is blown, any session ends and boundary scan goes with it. -/
def decLcAdvance (x : Held) (target confirm : Nat) (s : State) : State :=
  let u := some (14, 0)
  if s.md.mode ≠ .bringUp ∧ s.md.mode ≠ .idle then finish s x 0x0C04 u .badMode
  else
    match lcErr s target confirm with
    | some e => finish s x 0x0C04 u e
    | none =>
      let s1 := endSession { s with dev := { s.dev with lifecycle := target } }
      let s2 := if bscanOk s1 then s1 else { s1 with sec := { s1.sec with jtag := .bypass } }
      beginWork s2 x

/-- LC_ADVANCE: R383, R405. -/
def execLcAdvance (h : Hdr) (target confirm : Nat) (s : State) : Host.Outcome State Fault Refusal :=
  berza h (.lcAdvance h target confirm) (specLcAdvance h target confirm s) s

/-- Steps 2 and 3 of entry to RETURNED: the key slot is locked, the three stores of the flash are erased (R384). -/
def returnedErase (s : State) : State :=
  { s with dev := { s.dev with keyLocked := true, store := [], storeUsed := 0, config := [],
                               exports := s.dev.exports.filter fun e => !e.flash } }

/-- LC_ADVANCE_DONE: the reply; for RETURNED a warm reset follows 10 us on. -/
def lcAdvanceDone (s : State) : State :=
  match findWork s fun i => match i with
      | .lcAdvance .. => true
      | _ => false with
  | none => s
  | some x =>
    let s1 := endWork s x
    let s2 := if s.dev.lifecycle = 3 then
        let e := returnedErase s1
        { e with kpr := { e.kpr with resetAt := some (s.time.tick + 1000) } }
      else s1
    finish (secSettle s s2) x 0x0C04 (some (14, 0)) .ok

/-- LC_ADVANCE_DONE: R384. -/
def execLcAdvanceDone (s : State) : Host.Outcome State Fault Refusal := act s lcAdvanceDone

/-! ### Debug sessions (R396 to R399) -/

/-- Authentication is locked (R398). -/
def authLocked (s : State) : Bool := s.sec.authLock.isSome

/-- A command of the debug range, from context 0. -/
def specDbg (h : Hdr) (op : Nat) (cls : RClass) : CSpec :=
  { op := op, unit := some (14, 0), cls := cls, permitted := h.ctx = 0 }

/-- Whether `DBG_OPEN` of a level needs authentication. -/
def needsAuth (s : State) (level : Nat) : Bool := level = 2 && !lcOpen s

/-- `DBG_OPEN`: for FULL in PROVISIONED and DEPLOYED its reply carries a new nonce, valid for 60 s. -/
def specDbgOpen (h : Hdr) (level : Nat) (s : State) : CSpec :=
  let auth := needsAuth s level
  let n := Config.nonce s.free
  { specDbg h 0x0C05 .a with
    modeOk := !inRetain s,
    err := if level = 0 ∨ 2 < level then some .badArg else if auth && authLocked s then some .auth else none,
    onReject := fun s => if auth && authLocked s then spdFault 1 1 h.ctx s else s,
    onAccept := fun s =>
      { s with free := if auth then s.free + 1 else s.free,
               sec := { s.sec with nonce := if auth then some (n, s.time.tick + 6000000000) else none } },
    result := if auth then le 16 n.toNat else [] }

/-- A session opens at a level. -/
def openSession (level : Nat) (until_ : Option Nat) (s : State) : State :=
  { s with sec := { s.sec with dbg := level, sessionEnd := until_, sessions := sat 0xFFFF s.sec.sessions } }

/-- The decision of `DBG_OPEN`: a level that needs no authentication opens. -/
def decDbgOpen (level : Nat) (s : State) : State :=
  if needsAuth s level || inRetain s then s else openSession level none s

/-- DBG_OPEN: R397, R405. -/
def execDbgOpen (h : Hdr) (level : Nat) (s : State) : Host.Outcome State Fault Refusal :=
  berza h (.dbgOpen h level) (specDbgOpen h level s) s

/-- A failed authentication: counted, AUTH_FAIL; the third in a row locks for 600 s (R398). -/
def authFail (ctx : Nat) (s : State) : State :=
  let n := min 3 (s.sec.authFails + 1)
  let s1 := spdFault 0 1 ctx { s with sec := { s.sec with authFails := n, nonce := none } }
  if n = 3 then spdFault 1 1 ctx { s1 with sec := { s1.sec with authLock := some (s.time.tick + 60000000000) } } else s1

/-- `DBG_RESPONSE`: the nonce serves once. -/
def specDbgResponse (h : Hdr) (sessionMin : Nat) (s : State) : CSpec :=
  { specDbg h 0x0C06 .d with
    err := if sessionMin = 0 ∨ 1440 < sessionMin then some .badArg else if s.sec.nonce.isNone then some .auth else none,
    onReject := fun s => if s.sec.nonce.isNone then authFail h.ctx s else s }

/-- The decision of `DBG_RESPONSE`: FULL opens on a match; where entry to Retain has voided the nonce, E_AUTH without a
failure (R404). -/
def decDbgResponse (x : Held) (resp : BitVec 256) (sessionMin : Nat) (s : State) : State :=
  let u := some (14, 0)
  match s.sec.nonce with
  | none =>
    if s.md.mode = .standby && s.sec.entryTarget = 3 then finish s x 0x0C06 u .auth else finish (authFail x.ctx s) x 0x0C06 u .auth
  | some (n, _) =>
    if !s.dev.keyLocked && resp = Config.hmac n s.dev.serial sessionMin then
      let s1 := { s with sec := { s.sec with nonce := none, authFails := 0 } }
      finish (secSettle s (openSession 2 (some (s.time.tick + sessionMin * 6000000000)) s1)) x 0x0C06 u .ok
    else finish (authFail x.ctx s) x 0x0C06 u .auth

/-- DBG_RESPONSE: R397, R398, R405. -/
def execDbgResponse (h : Hdr) (resp : BitVec 256) (sessionMin : Nat) (s : State) : Host.Outcome State Fault Refusal :=
  berza h (.dbgResponse h resp sessionMin) (specDbgResponse h sessionMin s) s

/-- `DBG_CLOSE`. -/
def specDbgClose (h : Hdr) : CSpec := specDbg h 0x0C07 .a

/-- The decision of `DBG_CLOSE`: CLOSED, in BLANK and RETURNED too until the next event of R399. -/
def decDbgClose (s : State) : State :=
  let s1 := endSession s
  { s1 with sec := { s1.sec with dbg := 0 } }

/-- DBG_CLOSE: R399, R405. -/
def execDbgClose (h : Hdr) (s : State) : Host.Outcome State Fault Refusal := berza h (.dbgClose h) (specDbgClose h) s

/-- `DBG_TRACE_READ`: 64-bit words of the 64 KiB trace. -/
def specDbgTraceRead (offset count : Nat) (s : State) : CSpec :=
  { op := 0x0C08, cls := .d, permitted := s.sec.dbg ≠ 0,
    err := if count = 0 ∨ 6 < count ∨ offset % 8 ≠ 0 ∨ 65536 < offset + 8 * count then some .badArg else none }

/-- The decision of `DBG_TRACE_READ`: words whose events the spec does not give. -/
def decDbgTraceRead (x : Held) (count : Nat) (s : State) : State :=
  if s.sec.dbg = 0 then finish s x 0x0C08 none .denied
  else
    finish { s with free := s.free + 2 * count } x 0x0C08 none .ok
      ((upFrom (2 * count) 0).flatMap fun i => le 4 (Config.traceWord (s.free + i)).toNat)

/-- DBG_TRACE_READ: R396, R405. -/
def execDbgTraceRead (h : Hdr) (offset count : Nat) (s : State) : Host.Outcome State Fault Refusal :=
  berza h (.dbgTraceRead h offset count) (specDbgTraceRead offset count s) s

/-- SESSION_EXPIRY: SESSION_MIN has passed. -/
def sessionExpiry (s : State) : State :=
  match s.sec.sessionEnd with
  | some t => if t ≤ s.time.tick then endSession s else s
  | none => s

/-- SESSION_EXPIRY: R399. -/
def execSessionExpiry (s : State) : Host.Outcome State Fault Refusal := act s sessionExpiry

/-- NONCE_EXPIRY: 60 s have passed. -/
def nonceExpiry (s : State) : State :=
  match s.sec.nonce with
  | some (_, t) => if t ≤ s.time.tick then { s with sec := { s.sec with nonce := none } } else s
  | none => s

/-- NONCE_EXPIRY: R397. -/
def execNonceExpiry (s : State) : Host.Outcome State Fault Refusal := act s nonceExpiry

/-- AUTH_LOCK_EXPIRY: 600 s have passed. -/
def authLockExpiry (s : State) : State :=
  match s.sec.authLock with
  | some t => if t ≤ s.time.tick then { s with sec := { s.sec with authLock := none } } else s
  | none => s

/-- AUTH_LOCK_EXPIRY: R398. -/
def execAuthLockExpiry (s : State) : Host.Outcome State Fault Refusal := act s authLockExpiry

/-! ### The debug port (R400, R401, R403) -/

/-- Halt and memory access by the debug port: a FULL session, not in Retain. -/
def fullAccess (s : State) : Bool := s.sec.dbg = 2 && !inRetain s

/-- DEBUG_HALT: firmware writes the ceiling, then the keeper stands still. -/
def debugHalt (s : State) : State :=
  if !fullAccess s || !s.kpr.ready then s
  else
    let s1 := jstate (paceWrite s.pace.ceiling s) 0xC 0 1 0
    { s1 with kpr := { s1.kpr with ready := false }, sec := { s1.sec with halted := true } }

/-- DEBUG_HALT: R400. -/
def execDebugHalt (s : State) : Host.Outcome State Fault Refusal := act s debugHalt

/-- DEBUG_RESUME. -/
def debugResume (s : State) : State := resumeKeeper s

/-- DEBUG_RESUME: R400. -/
def execDebugResume (s : State) : Host.Outcome State Fault Refusal := act s debugResume

/-- The debug port writes the scratchpad: nothing where a word written in part is uncorrectable (R121, R138). -/
def scratchWrite (addr : Nat) (data : List Byte) (done : State → State) (s : State) : State :=
  if (partialWords addr data.length).any (innerUe s true) then s
  else
    let ws := (wordsOf addr data.length).filter fun w => !(s.inner.scratch.bad.contains (w / 32))
    done (markInner true ws { s with scratch := memWrite s.scratch addr data })

/-- DBG_WRITE: to the scratchpad (space 0), the comb (1) or DRAM (2), as context 0; a write that is performed is journaled
and noticed. -/
def dbgWrite (space addr : Nat) (data : List Byte) (s : State) : State :=
  if !fullAccess s || data.isEmpty then s
  else
    let done (s1 : State) : State := spdFault 4 0 0 (jput s1 s.time.tick (.dbgWrite space addr data))
    match space with
    | 0 => if 0x200000 < addr + data.length then s else scratchWrite addr data done s
    | 1 =>
      let n := data.length
      if combPresent s addr n && combOwned s 0 addr n && combReadyAt s addr n && (firstHeldGranule s addr n).isNone &&
          (rmwUe s addr n).isNone then done (ctxCombWrite 0 0xA addr data s)
      else ctxCombWrite 0 0xA addr data s
    | _ =>
      let n := data.length
      if s.md.mode ≠ .standby && spanPresent s addr n && dramOwned s 0 addr n && spanReady s addr n && dramQuiet s addr n &&
          (dramHostWrite 0xA addr data s).2 then
        done (ctxDramWrite 0 0xA addr data s)
      else ctxDramWrite 0 0xA addr data s

/-- DBG_WRITE: R400. -/
def execDbgWrite (space addr : Nat) (data : List Byte) (s : State) : Host.Outcome State Fault Refusal :=
  actOn (decide (space < 3)) s (dbgWrite space addr data)

/-- An EXTEST-class instruction. -/
def extestClass (i : JtagInstr) : Bool := i = .extest || i = .extestPulse || i = .extestTrain

/-- EXTEST-class instructions are accepted now (R401, R403). -/
def extestOk (s : State) : Bool :=
  let m := s.md.mode
  bscanOk s && (m = .bringUp || m = .idle || m = .safe || m = .standby || m = .factory)

/-- JTAG_INSTRUCTION_LOAD: what is not permitted is replaced by BYPASS. -/
def jtagLoad (i : JtagInstr) (s : State) : State :=
  let set (j : JtagInstr) (s : State) : State := { s with sec := { s.sec with jtag := j } }
  match i with
  | .bypass => set i s
  | .idcode => set i s
  | .sample => set (if bscanOk s then i else .bypass) s
  | _ => if extestOk s then set i s else spdFault 5 0 0 (set .bypass s)

/-- JTAG_INSTRUCTION_LOAD: R401. -/
def execJtagInstructionLoad (i : JtagInstr) (s : State) : Host.Outcome State Fault Refusal := act s (jtagLoad i)

/-- TAP_RESET: IDCODE is selected (IEEE 1149.1) and the pins are the device's again. -/
def tapReset (s : State) : State := { s with sec := { s.sec with jtag := .idcode } }

/-- TAP_RESET: R401. -/
def execTapReset (s : State) : Host.Outcome State Fault Refusal := act s tapReset

end Sys2Proof.Machine
end

