-- ==== Sys2Proof/Machine/Calibration.lean ====
section
/-! DEFINITION. Calibration commands and runs (spec/14, R363 to R372): the stores as the keeper loads them, user records,
and CALIBRATE. -/

namespace Sys2Proof.Machine

/-! ### The load at keeper start (R354, R365 to R367) -/

/-- A fault of the BGS block. -/
def bgsFault (bit cls obj : Nat) (s : State) : State :=
  raise s { block := .bgs, bit := bit, cls := cls, obj := obj, master := 7, scope := if bit = 3 then [hiveOf obj] else [] }

/-- The G and O of an auxiliary channel come into force. -/
def loadAux (a : Nat) (s : State) : State :=
  { s with auxs := tmod {} s.auxs a fun x => { x with gA := (calGO s 2 a).1, oA := (calGO s 2 a).2 } }

/-- The table of slot values (R111). -/
def slotTable (s : State) : Tab (Int × Int) :=
  s.dev.store.foldl (fun t r => if r.kind = 1 then tset calIdentity t r.index (calGO s 1 r.index) else t) []

/-- The stored clear codes come into force; a channel at its clear code takes the new one at once (R354). -/
def loadClearCodes (s : State) : State :=
  s.dev.config.foldl (fun s p => if p.1 < 64 then
    modAux s p.1 fun x => { x with clearCode := p.2 % 65536, code := if x.cleared then p.2 % 65536 else x.code } else s) s

/-- CAL_LOAD_DONE: every value is formed and loaded; without a usable flash the factory values alone, and no clear code is
known (log 25). -/
def calLoadDone (s : State) : State :=
  if !s.kpr.ready ∨ s.kpr.cal then s
  else
    let t := if s.kpr.flash then s else { s with dev := { s.dev with store := [] } }
    let badOtp := s.dev.otp.filter fun r => !calValid false r
    let badUser := t.dev.store.filter fun r => !calValid true r
    let svc := { s.svc with otpOk := badOtp.isEmpty, otpBad := min 0xFFFF badOtp.length, storeOk := s.kpr.flash,
                            slotCal := slotTable t,
                            calSeq := ((t.dev.store.filter (calValid true)).map (·.seq)).foldl max 0 }
    let s1 := forUp loadAux 64 0 { t with svc := svc }
    let s2 := { s1 with dev := s.dev, kpr := { s1.kpr with cal := true } }
    let s3 := if s.kpr.flash then loadClearCodes { s2 with kpr := { s2.kpr with aux := true } } else s2
    let s4 := badOtp.foldl (fun s r => bgsFault 0 1 (calKey r.kind r.index) s) s3
    badUser.foldl (fun s r => bgsFault 1 0 (calKey r.kind r.index) s) s4

/-- CAL_LOAD_DONE: R365 to R367. -/
def execCalLoadDone (s : State) : Host.Outcome State Fault Refusal := act s calLoadDone

/-! ### CAL_READ, CAL_WRITE, CAL_ERASE (R368, R369, R379) -/

/-- A record's bytes: header and payload (R363). -/
def recordBytes (kind index seq : Nat) (p : List Byte) : List Byte :=
  let h := le 1 kind ++ le 1 1 ++ le 2 index ++ le 2 p.length ++ le 2 0 ++ le 4 seq
  h ++ le 4 (crc32 (h ++ p)) ++ p

/-- The payload in force for an object, as it was loaded; a hive's rate has none without a factory record. -/
def inForce (s : State) (kind index : Nat) : Option (List Byte) :=
  match kind with
  | 1 =>
    let v := tget calIdentity s.svc.slotCal index
    some (le 4 (toField 32 v.1) ++ le 4 (toField 32 v.2))
  | 2 => some (le 4 (toField 32 (auxAt s index).gA) ++ le 4 (toField 32 (auxAt s index).oA))
  | 3 =>
    let l := sparesOf s index
    some ((l ++ List.replicate (16 - l.length) 0xFFFF).flatMap (le 2))
  | 4 => some (le 4 (phyLat s index).1 ++ le 4 (phyLat s index).2)
  | 5 => some (le 4 (ballDelay s index))
  | 6 => (factoryRec s 6 index).map (·.payload)
  | _ => none

/-- What `CAL_READ` returns of a source: 0 factory, 1 user, 2 in force; a store that cannot be read has no record. -/
def calReadBytes (s : State) (kind index source : Nat) : Option (List Byte) :=
  match source with
  | 0 => (factoryRec s kind index).map fun r => recordBytes kind index 0 r.payload
  | 1 => if s.svc.storeOk then (userRec s kind index).map fun r => recordBytes kind index r.seq r.payload else none
  | 2 => (inForce s kind index).map fun p => recordBytes kind index (Config.inForceSeq kind index) p
  | _ => none

/-- The object of a kind is a hive's, which this variant does not have (R3). -/
def calAbsent (s : State) (kind index : Nat) : Bool :=
  (kind = 3 && beyond (nHives s) 64 (index / 2)) || (kind = 6 && beyond (nHives s) 64 index)

/-- `CAL_READ`: an object without the record asked for is E_BAD_ARG (DEDUCED, log 25). -/
def specCalRead (kind index source : Nat) (s : State) : CSpec :=
  let d := calReadBytes s kind index source
  { op := 0x0D00, ready := s.kpr.cal, absent := calAbsent s kind index,
    err := if !calIndexOk kind index ∨ 2 < source ∨ d.isNone then some .badArg else none,
    result := match d with
      | some b => b
      | none => [] }

/-- CAL_READ: R379. -/
def execCalRead (h : Hdr) (kind index source : Nat) (s : State) : Host.Outcome State Fault Refusal :=
  berza h (.calRead h kind index source) (specCalRead kind index source s) s

/-- User records that wait to be programmed each take a SEQ. -/
def calQueued (s : State) : Nat :=
  ((s.held ++ s.works).filter fun x => match x.cmd with
    | .calWrite .. => true
    | .calErase .. => true
    | _ => false).length

/-- `CAL_WRITE` and `CAL_ERASE`: context 0, a store that can be written, and a SEQ left. -/
def specCalPut (h : Hdr) (op kind index apply : Nat) (valuesOk : Bool) (s : State) : CSpec :=
  { op := op, cls := .c, permitted := h.ctx = 0, absent := calAbsent s kind index,
    err := if !userKind kind ∨ !calIndexOk kind index ∨ 1 < apply ∨ !valuesOk then some .badArg
      else if !s.svc.storeOk ∨ s.svc.storeFull ∨ 0xFFFFFFFE ≤ s.svc.calSeq + calQueued s then some .badState else none }

/-- `CAL_WRITE`. -/
def specCalWrite (h : Hdr) (kind index apply : Nat) (payload : List Byte) (s : State) : CSpec :=
  specCalPut h 0x0D01 kind index apply (payload.length = calLen kind && calValuesOk kind index payload) s

/-- `CAL_ERASE`, which writes a tombstone. -/
def specCalErase (h : Hdr) (kind index apply : Nat) (s : State) : CSpec := specCalPut h 0x0D02 kind index apply true s

/-- A user record as the commands spell it: opcode, kind, index, APPLY, payload. -/
def calPut : Instr → Option (Nat × Nat × Nat × Nat × List Byte)
  | .calWrite _ kind index apply payload => some (0x0D01, kind, index, apply, payload)
  | .calErase _ kind index apply => some (0x0D02, kind, index, apply, [])
  | _ => none

/-- A record that was accepted after a command. -/
def laterPut (x y : Held) : Bool := (calPut y.cmd).isSome && decide (x.serial < y.serial)

/-- A record joins those that wait to be programmed, in the order of acceptance (R368). -/
def beginPut (s : State) (x : Held) : State :=
  { s with works := (s.works.filter fun y => !laterPut x y) ++ x :: s.works.filter (laterPut x) }

/-- The decision of `CAL_WRITE`: the record is queued for programming. -/
def decCalWrite (x : Held) (s : State) : State :=
  if s.svc.storeFull then finish s x 0x0D01 none .badState else beginPut s x

/-- The decision of `CAL_ERASE`. -/
def decCalErase (x : Held) (s : State) : State :=
  if s.svc.storeFull then finish s x 0x0D02 none .badState else beginPut s x

/-- CAL_WRITE: R368. -/
def execCalWrite (h : Hdr) (kind index apply : Nat) (payload : List Byte) (s : State) : Host.Outcome State Fault Refusal :=
  berza h (.calWrite h kind index apply payload) (specCalWrite h kind index apply payload s) s

/-- CAL_ERASE: R379. -/
def execCalErase (h : Hdr) (kind index apply : Nat) (s : State) : Host.Outcome State Fault Refusal :=
  berza h (.calErase h kind index apply) (specCalErase h kind index apply s) s

/-- A record joins the store with the next SEQ (R366). -/
def appendRecord (kind index : Nat) (payload : List Byte) (s : State) : State :=
  let n := s.svc.calSeq + 1
  { s with dev := { s.dev with store := s.dev.store ++ [⟨kind, index, n, payload, false⟩],
                               storeUsed := s.dev.storeUsed + 16 + payload.length },
           svc := { s.svc with calSeq := n } }

/-- The cell bound to a TX slot. -/
def slotCell (s : State) (num : Nat) : Option Nat :=
  (s.cells.find? fun p => p.2.st ≠ .off && p.2.target = ⟨0, num⟩).map (·.1)

/-- The keeper's own `SYN_CAL_APPLY` with effective tick E = T_p + 2H, accepted now and journaled; mailbox number 6, which no
mailbox has (R111, R369). -/
def applySlot (c num : Nat) (s : State) : State :=
  let v := tget calIdentity s.svc.slotCal num
  let e := s.time.tick + 2 * s.time.horizon
  let i : Instr := .synCalApply { ctx := 0, mb := 6, seq := 0, eff := e } c v.1 v.2
  holdCmd (jput s s.time.tick (.cmd e 0 6 i)) ⟨e, s.time.tick, 0, 6, 0, s.kpr.nextSerial, false, i⟩

/-- A programmed value takes effect (R369): whether E is returned, and the state. In a mode that does not permit
`SYN_CAL_APPLY` the value waits for the next bind (DEDUCED, log 25). -/
def calApply (kind index apply : Nat) (s : State) : State × List Byte :=
  match kind with
  | 1 =>
    let s1 := { s with svc := { s.svc with slotCal := tset calIdentity s.svc.slotCal index (calGO s 1 index) } }
    match slotCell s1 index with
    | some c => if apply = 1 && modeLoad s1 then (applySlot c index s1, le 8 (s.time.tick + 2 * s.time.horizon)) else (s1, [])
    | none => (s1, [])
  | 2 => (loadAux index s, [])
  | _ => (s, [])

/-- The calibration store has room for a record. -/
def storeRoom (s : State) (payload : List Byte) : Bool := decide (s.dev.storeUsed + 16 + payload.length ≤ 0x200000)

/-- A record accepted before `x` still waits for its decision: nothing of `x` is programmed yet (R368). -/
def putWaits (s : State) (x : Held) : Bool := s.held.any fun y => (calPut y.cmd).isSome && decide (y.serial < x.serial)

/-- The highest erase count has reached 80 % of ENDURANCE (R378). -/
def noteWear (s : State) : State :=
  if 4 * s.svc.endurance ≤ 5 * s.svc.maxErase ∧ !s.svc.wearWarn then
    raise { s with svc := { s.svc with wearWarn := true } } { block := .bgs, bit := 6, cls := 0, master := 7 }
  else s

/-- CAL_RECORD_PROGRAMMED: the record accepted first has been programmed and read back, or has failed, as it must where the store
has no room (R368). -/
def calRecordProgrammed (ok : Bool) (s : State) : State :=
  match findWork s fun i => (calPut i).isSome with
  | none => s
  | some x =>
    match calPut x.cmd with
    | none => s
    | some (op, kind, index, apply, payload) =>
      let s1 := endWork s x
      if putWaits s x then s
      else if !ok ∨ !storeRoom s payload then
        finish (raise s1 { block := .kpr, bit := 6, cls := 1, obj := calKey kind index, master := 7, acc := 1 }) x op none .memError
      else
        let r := calApply kind index apply (appendRecord kind index payload s1)
        finish r.1 x op none .ok r.2

/-- CAL_RECORD_PROGRAMMED: R368, R369. -/
def execCalRecordProgrammed (ok : Bool) (s : State) : Host.Outcome State Fault Refusal := act s (calRecordProgrammed ok)

/-! ### Calibration runs (R371, R372) -/

/-- A whole set of hives: every cell of each hive that has one. -/
def wholeHives (cells : List Nat) : Bool :=
  cells.all fun c => (upFrom 16 (c / 16 * 16)).all cells.contains

/-- The lanes of a mask. -/
def maskLanes (m : Word) : List Nat := (upFrom 32 0).filter fun i => m.getLsbD i

/-- The auxiliary channels of a mask. -/
def maskAux (m : DWord) : List Nat := (upFrom 64 0).filter fun i => m.getLsbD i

/-- A cell of the set is ARMED, RUNNING or PAUSED, or its capture channel is armed (R371). -/
def calBusy (s : State) (cells : List Nat) : Bool :=
  cells.any fun c => (cellAt s c).st = .armed || (cellAt s c).st = .running || (cellAt s c).st = .paused || capArmed s c

/-- A lane's link is in DATA. -/
def laneInData (s : State) (lane : Nat) : Bool :=
  match laneLink s true lane with
  | some l => linkReady s l
  | none => false

/-- `CAL_START`: the set belongs to the caller (R20); each item's needs are ready. -/
def specCalStart (h : Hdr) (items : Nat) (cells : List Nat) (lanes : Word) (auxs : DWord) (s : State) : CSpec :=
  let ls := maskLanes lanes
  { op := 0x0D10, cls := .c,
    permitted := (cells.all fun c => decide (nCells s ≤ c) || ownsCell s h.ctx c) &&
      (maskAux auxs).all fun a => owns s h.ctx (auxAt s a).own,
    ready := (cells.all fun c => decide (nCells s ≤ c) || hiveReady s (hiveOf c)) &&
      (!bitOf items 2 || ls.all fun l => decide (nLanes s ≤ l) || laneInData s l) && (!bitOf items 3 || s.kpr.aux) &&
      (!bitOf items 0 || s.kpr.pmbus),
    absent := cells.any (beyond (nCells s) 1024) || ls.any (beyond (nLanes s) 32),
    modeOk := s.md.mode = .idle || s.md.mode = .run,
    err := if 32 ≤ items ∨ items = 0 ∨ (cells.any fun c => decide (nCells s ≤ c)) ∨ (ls.any fun l => decide (nLanes s ≤ l)) ∨
        (bitOf items 0 ∧ !wholeHives cells) then some .badArg
      else if calBusy s cells then some .badState else none }

/-- A check by the background services that a port has not answered fails (R248, R372). -/
def skewUnanswered (s : State) : State :=
  match s.col.run with
  | some r => if r.service && decide (r.phase ≤ 2) then skewFails r s else s
  | none => s

/-- Steps 1 to 3 of R248 begin in service, after the end of the earlier check; not beside a `COL_SKEW_CAL`
(DESIGN CHOICE, log 24). -/
def skewService (exch : Nat) (s : State) : State :=
  if s.col.run.any fun r => !r.service then s else skewBegin exch [] true (skewUnanswered s)

/-- The decision of `CAL_START`: the device goes into CALIBRATE, unless the mode, the owners of the set or its units no longer
allow it (R20, R470). -/
def decCalStart (x : Held) (items : Nat) (cells : List Nat) (lanes : Word) (auxs : DWord) (s : State) : State :=
  if s.md.mode ≠ .idle ∧ s.md.mode ≠ .run then finish s x 0x0D10 none .badMode
  else if !(cells.all (ownsCell s x.ctx) && (maskAux auxs).all fun a => owns s x.ctx (auxAt s a).own) then
    finish s x 0x0D10 none .denied
  else if calBusy s cells then finish s x 0x0D10 none .badState
  else
    let s1 := { s with md := { s.md with origin := s.md.mode, calCells := cells, calLanes := lanes, calAux := auxs,
                                         calItems := items, calPace := if bitOf items 0 then 64 else 0 },
                       svc := { s.svc with running := true } }
    let s2 := if bitOf items 1 && s.col.role = 1 then skewService 256 s1 else s1
    beginWork (enterMode .calibrate x.dec s2) x

/-- CAL_START: R20, R371. -/
def execCalStart (h : Hdr) (items : Nat) (cells : List Nat) (laneMask : Word) (auxMask : DWord) (s : State) :
    Host.Outcome State Fault Refusal :=
  berza h (.calStart h items cells laneMask auxMask) (specCalStart h items cells laneMask auxMask s) s

/-- A lane's eye is measured in service; a lane below its link's threshold raises EYE_LOW and retrains the link (R277, R283). -/
def eyeService (m : EyeMeas) (s : State) : State :=
  let s1 := noteEyes [m] s
  match laneLink s true m.lane with
  | some l => if (linkAt s l).st = .data && !eyeOk (linkAt s l) m then linkRetrigger l (laneFault s1 3 0 l m.lane) else s1
  | none => s1

/-- The eye of a lane passed its link's thresholds, the link in DATA. -/
def lanePassed (s : State) (eyes : List EyeMeas) (lane : Nat) : Bool :=
  laneInData s lane && eyes.any fun m => m.lane = lane && match laneLink s true lane with
    | some l => eyeOk (linkAt s l) m
    | none => false

/-- An item missed the threshold of R370, by its figures: PACE below 27.5 % at 0.85 V or ended by the regulator, SKEW by R248, a lane's
eye, an auxiliary channel, a cell. -/
def itemFails (s : State) (r : CalResult) (i : Nat) : Bool :=
  match i with
  | 0 => s.pace.fault || (r.paceVcore = 850 && decide (r.paceMargin < 275))
  | 1 => !(s.col.role = 1 && s.col.run.any fun r => r.service && r.phase = 4)
  | 2 => (maskLanes s.md.calLanes).any fun l => !lanePassed s r.eyes l
  | 3 => decide (64 < r.auxResid) || r.auxFails.any s.md.calAux.getLsbD
  | _ => s.md.calCells.any fun c => r.synFails.contains c || !r.synPass.contains c

/-- An item of a run ends with status 0 pass, 1 fail or 2 not run. -/
def itemStatus (s : State) (r : CalResult) (i : Nat) : Nat :=
  if !bitOf s.md.calItems i then 2 else b2n ((r.status.drop i).head? ≠ some 0 || itemFails s r i)

/-- The figures of the items that passed, the faults of those that missed their thresholds, the SYN bits (R370, R371). -/
def calFigures (r : CalResult) (s : State) : State :=
  let st := itemStatus s r
  let items := s.md.calItems
  let s1 := if st 0 = 0 then
      { s with svc := { s.svc with paceMargin := r.paceMargin % 1024, paceWorst := r.paceWorst % 64, paceVcore := r.paceVcore % 1024 } }
    else if st 0 = 1 then bgsFault 2 1 r.paceWorst s else s
  let s2 := if bitOf items 1 then skewUnanswered s1 else s1
  let s3 := if bitOf items 2 then (r.eyes.filter fun m => s.md.calLanes.getLsbD m.lane).foldl (fun s m => eyeService m s) s2 else s2
  let s4 := if bitOf items 3 then
      let v := { s3.svc with selfRuns := sat 0x3FFF s3.svc.selfRuns }
      let v1 := if st 3 = 0 then { v with selfResid := r.auxResid % 4096, selfWorst := r.auxWorst % 64 } else v
      (r.auxFails.filter fun a => s.md.calAux.getLsbD a).foldl (fun s a =>
        raise s { block := .aux, bit := 1, cls := 1, obj := a, master := 7, owner := some (auxAt s a).own.owner }) { s3 with svc := v1 }
    else s3
  if bitOf items 4 then
    let fails := r.synFails.filter s.md.calCells.contains
    let keep := s4.svc.synFail.filter fun c => !fails.contains c && !(r.synPass.contains c && s.md.calCells.contains c)
    let v := { s4.svc with synFail := sortNat (keep ++ fails) }
    let v1 := if st 4 = 0 then { v with synResid := r.synResid % 512, synWorst := r.synWorst % 1024 } else v
    fails.foldl (fun s c => raise s { block := .bgs, bit := 3, cls := 2, obj := c, master := 7,
                                      owner := some (cellOwner s c).owner, scope := [hiveOf c] }) { s4 with svc := v1 }
  else s4

/-- CAL_RUN_COMPLETE: the figures and the reply with one status byte per item; the origin mode follows at the first tick after
(R20, `modeReturns`). -/
def calRunComplete (r : CalResult) (s : State) : State :=
  match findWork s fun i => match i with
      | .calStart .. => true
      | _ => false with
  | none => s
  | some x =>
    if s.md.mode ≠ .calibrate then s
    else
      let st := (upFrom 5 0).map (itemStatus s r)
      let s1 := calFigures r (endWork s x)
      let s2 := { s1 with svc := { s1.svc with running := false, lastFail := st.contains 1 },
                          md := { s1.md with calItems := 0, calPace := 0, leave := some (s.time.tick + 1) } }
      finish s2 x 0x0D10 none .ok (st.flatMap (le 1))

/-- CAL_RUN_COMPLETE: R371, R372. -/
def execCalRunComplete (r : CalResult) (s : State) : Host.Outcome State Fault Refusal := act s (calRunComplete r)

end Sys2Proof.Machine
end

