-- ==== Sys2Proof/Machine/Queues.lean ====
section
/-! DEFINITION. Play queues (spec/06): descriptors, commands, doorbells and refill. -/

namespace Sys2Proof.Machine

/-! ### Descriptors and contexts (R146, R150) -/

/-- Address, length and reserved bits of a play descriptor. -/
def playDesc (s : State) (a : Nat) : Nat × Nat × Nat :=
  let v := ofLe (memRead s.dram a 32)
  (bits v 0 40, bits v 64 32, bits v 40 24 + bits v 96 160)

/-- A descriptor within R146 whose payload is present. -/
def playDescOk (s : State) (d : Nat × Nat × Nat) : Bool :=
  d.2.2 = 0 && d.1 % 64 = 0 && d.2.1 % 64 = 0 && decide (64 ≤ d.2.1) && decide (d.2.1 ≤ 2 ^ 30) && spanPresent s d.1 d.2.1

/-- DRAM that a queue of an owner may read: regions of that owner, not SYSTEM, and none secure for a non-secure queue
(R155, R166). -/
def playOwned (s : State) (o : Own) (a len : Nat) : Bool :=
  (dramRegions a len).all fun r =>
    let x := tget ({} : Own) s.dramOwn r
    x.owner = o.owner && (o.secure || !x.secure) && !s.dramSystem.contains r

/-- EMPTY (STREAM). -/
def qEmpty (q : Queue) : Bool := q.mode = 0 && q.head = q.tail && q.descOff = 0

/-- Descriptors of a ring. -/
def ringSize (q : Queue) : Nat := 2 ^ q.sizeLog2

/-- The 32 bytes of a queue's context (R150); that of a queue not opened since its reset is zero but for EPOCH. -/
def queueContext (s : State) (i : Nat) : List Byte :=
  let q := queueAt s i
  let used := decide ({ q with epoch := 0 } ≠ ({} : Queue))
  let o := if used then cellOwner s (i / 1024) else ⟨0, false⟩
  let byte := q.pos * fmtBytes q.fmt
  let rd := match blockAt q byte with
    | some b => (b.buf, byte - b.off)
    | none => (0, 0)
  le 32 (pack [(40, q.ringBase), (4, q.sizeLog2), (1, q.mode), (3, qCode q.st), (16, q.head), (16, q.tail), (24, q.descOff),
    (9, q.bufBase), (7, q.bufCount), (7, qFill q), (7, qInflight q), (6, rd.1), (12, rd.2), (4, o.owner), (1, b2n o.secure),
    (1, b2n (used && qEmpty q)), (4, q.err), (2, q.fmt), (28, 0), (32, q.epoch.toNat), (32, q.pos)])

/-! ### Commands (R155) -/

/-- A queue command, as judged. -/
def specQueue (h : Hdr) (op c q : Nat) (cls : RClass) (mode : Bool) (checks : Option Err) (s : State) : CSpec :=
  { op := op, unit := some (3, queueNum c q), cls := cls, permitted := ownsCell s h.ctx c, ready := dramReady s, modeOk := mode,
    err := if nCells s ≤ c ∨ 1023 < q then some .badArg else checks }

/-- The arguments of `QUEUE_OPEN` in range. -/
def openArgs (s : State) (c ringBase sizeLog2 mode tail bufBase bufCount : Nat) : Bool :=
  decide (1 ≤ sizeLog2) && decide (sizeLog2 ≤ 16) && ringBase % (32 * 2 ^ sizeLog2) = 0 && decide (mode ≤ 1) &&
    (mode = 1 || decide (tail < 2 ^ sizeLog2)) && bufBase % 4096 = 0 && decide (bufBase ≤ 0x17F000) &&
    decide (4 ≤ bufCount) && decide (bufCount ≤ 64) && decide (bufBase + 4096 * bufCount ≤ tableOff s (hiveOf c)) &&
    spanPresent s ringBase (32 * 2 ^ sizeLog2)

/-- The first bad descriptor of a CYCLIC ring: not valid, or it or its payload not owned or secure (R155). -/
def ringBad (s : State) (o : Own) (ringBase sizeLog2 : Nat) : Option (Err × Nat) :=
  let n := 2 ^ sizeLog2
  match firstBad (fun i => playDescOk s (playDesc s (ringBase + 32 * i))) (upFrom n 0) with
  | some i => some (.badArg, i)
  | none =>
    let may (i : Nat) : Bool :=
      let d := playDesc s (ringBase + 32 * i)
      playOwned s o (ringBase + 32 * i) 32 && playOwned s o d.1 d.2.1
    match firstBad may (upFrom n 0) with
    | some i => some (.denied, i)
    | none => none

/-- `QUEUE_OPEN`. -/
def specQueueOpen (h : Hdr) (c q ringBase sizeLog2 mode tail bufBase bufCount : Nat) (s : State) : CSpec :=
  let len := 32 * 2 ^ sizeLog2
  let ca := combAddr (hiveOf c) 0 bufBase
  let ok := openArgs s c ringBase sizeLog2 mode tail bufBase bufCount && decide (c < nCells s)
  let cyc := if mode = 1 then ringBad s (cellOwner s c) ringBase sizeLog2 else none
  let e : Option (Err × List Byte) :=
    if !ok then some (.badArg, [])
    else if (queueAt s (queueNum c q)).st ≠ .closed then some (.badState, [])
    else if spanOffline s ringBase len then some (.memOffline, [])
    else if (firstHeldGranule s ca (4096 * bufCount)).isSome then some (.segActive, whereGranule s ca (4096 * bufCount))
    else if mode = 1 ∧ linesUe s ringBase len then some (.memError, [])
    else cyc.map fun p => (p.1, le 2 p.2)
  let p := specQueue h 0x0500 c q .a (modeLoad s) (e.map (·.1)) s
  { p with absent := dramAbsent s ringBase || dramAbsent s (ringBase + len - 1),
           permitted := p.permitted && (!ok || (dramOwned s h.ctx ringBase len && combOwned s h.ctx ca (4096 * bufCount))),
           ready := p.ready && (!ok || spanReady s ringBase len || spanOffline s ringBase len),
           errData := match e with
             | some x => x.2
             | none => [],
           onReject := if e.map (·.1) = some .memError then touchLines 8 3 ringBase len else id }

/-- The decision of `QUEUE_OPEN`; nothing where the queue or its buffers are in use by then. TAIL is ignored in CYCLIC (R149). -/
def decQueueOpen (c q ringBase sizeLog2 mode tail bufBase bufCount : Nat) (s : State) : State :=
  let i := queueNum c q
  let ca := combAddr (hiveOf c) 0 bufBase
  if (queueAt s i).st ≠ .closed ∨ (firstHeldGranule s ca (4096 * bufCount)).isSome then s
  else
    let s1 := activate (ctxTouch i s) [bufArea c (bufBase / 4096) bufCount]
    putQueue s1 i { epoch := (queueAt s1 i).epoch, ringBase := ringBase, sizeLog2 := sizeLog2, mode := mode, st := .opened,
                    tail := if mode = 0 then tail else 0, bufBase := bufBase / 4096, bufCount := bufCount }

/-- A queue is live (R145). -/
def qLive (q : Queue) : Bool := decide (0 < q.live)

/-- `QUEUE_CLOSE`. -/
def specQueueClose (h : Hdr) (c q : Nat) (s : State) : CSpec :=
  specQueue h 0x0501 c q .c (modeLoad s) (if qLive (queueAt s (queueNum c q)) then some .badState else none) s

/-- `QUEUE_STATUS`. -/
def specQueueStatus (h : Hdr) (c q : Nat) (s : State) : CSpec := specQueue h 0x0502 c q .d (modeLoad s) none s

/-- `QUEUE_FLUSH`. -/
def specQueueFlush (h : Hdr) (c q : Nat) (s : State) : CSpec :=
  let x := queueAt s (queueNum c q)
  specQueue h 0x0503 c q .c (modeLoad s)
    (if qLive x ∨ (x.st ≠ .opened ∧ x.st ≠ .failed) then some .badState else none) s

/-- The decision of `QUEUE_STATUS`: the context; its tick is the reply's SAMPLE_TICK. -/
def decQueueStatus (x : Held) (c q : Nat) (s : State) : State :=
  let s1 := ctxTouch (queueNum c q) s
  finish s1 x 0x0502 (some (3, queueNum c q)) .ok (queueContext s1 (queueNum c q))

/-- Every block of a queue is discarded; those in flight as they land. -/
def discardBlocks (i : Nat) (s : State) : State :=
  let bs := ((queueAt s i).blocks.filter fun b => b.resident.isNone).map fun b => { b with discard := true, flushed := true }
  { s with queues := tmod {} s.queues i fun q => { q with blocks := bs } }

/-- The decision of `QUEUE_CLOSE`. -/
def decQueueClose (x : Held) (c q : Nat) (s : State) : State :=
  let i := queueNum c q
  let s := ctxTouch i s
  if qLive (queueAt s i) then finish s x 0x0501 (some (3, i)) .badState
  else if (queueAt s i).st = .closed then finish s x 0x0501 (some (3, i)) .ok
  else queueWork i (discardBlocks i (beginWork s x))

/-- The decision of `QUEUE_FLUSH`. -/
def decQueueFlush (x : Held) (c q : Nat) (s : State) : State :=
  let i := queueNum c q
  let s := ctxTouch i s
  let y := queueAt s i
  if qLive y ∨ (y.st ≠ .opened ∧ y.st ≠ .failed) then finish s x 0x0503 (some (3, i)) .badState
  else queueWork i (discardBlocks i (beginWork s x))

/-! ### Doorbells (R152, R153, R475) -/

/-- A fault of the play-queue manager that names a queue. -/
def pqmFault (s : State) (bit cls i : Nat) (acc : Nat := 1) (master : Nat := 8) : State :=
  raise s { block := .pqm, bit := bit, cls := cls, obj := i, master := master, acc := acc,
            owner := some (cellOwner s (i / 1024)).owner }

/-- DOORBELL_WRITE: into the FIFO behind the aperture's writes that came before it, or DB_OVERRUN where it is full; a write that is
not 8-byte aligned counts as one that is not 64 bits wide. -/
def doorbellWrite (ctx offset width : Nat) (value : DWord) (s : State) : State :=
  if 512 ≤ s.doorbells.length then pqmFault s 1 1 (bits value.toNat 0 20)
  else { s with doorbells := s.doorbells ++ [⟨ctx, if offset % 8 = 0 then width else 0, value, (s.bulk.ops.filter fun o => !o.read).map (·.id)⟩] }

/-- A doorbell that R153 rejects. -/
def doorbellBad (s : State) (d : Doorbell) : Bool :=
  let v := d.value.toNat
  let i := bits v 0 20
  let tail := bits v 20 16
  let q := queueAt s i
  let n := ringSize q
  d.width ≠ 64 || bits v 36 28 ≠ 0 || !ctxEnabled s d.ctx || decide (nCells s ≤ i / 1024) || !owns s d.ctx (cellOwner s (i / 1024)) ||
    q.st = .closed || q.st = .failed || q.mode = 1 || decide (n ≤ tail) ||
    decide ((tail + n - q.head) % n < (q.tail + n - q.head) % n)

/-- Address and length of each payload that a new TAIL releases; its CRC-32 comes as the PQM fetches it (R154). -/
def released (s : State) (i tail : Nat) : List (Nat × Nat × Option Nat) :=
  let q := queueAt s i
  let n := ringSize q
  (upFrom ((tail + n - q.tail) % n) q.tail).map fun k =>
    let d := playDesc s (q.ringBase + 32 * (k % n))
    (d.1, d.2.1, none)

/-- DOORBELL_APPLY: the oldest doorbell sets TAIL and is journaled, or is rejected (R153, R154); it waits for the posted writes that
came before it. -/
def doorbellApply (s : State) : State :=
  match s.doorbells with
  | [] => s
  | d :: rest =>
    let i := bits d.value.toNat 0 20
    let tail := bits d.value.toNat 20 16
    let s0 := { s with doorbells := rest }
    let s1 := if i / 1024 < nCells s then ctxTouch i s0 else s0
    if s.bulk.ops.any fun o => d.after.contains o.id then s
    else if doorbellBad s1 d then pqmFault s1 0 1 i
    else jput (modQueue s1 i fun q => { q with tail := tail }) s.time.tick (.doorbell d.ctx i tail (released s1 i tail))

/-! ### Refill (R156, R157, R164, R166) -/

/-- A queue of which a block can be requested. -/
def refillable (q : Queue) : Bool := q.st = .streaming && decide (q.blocks.length < q.bufCount) && !qEmpty q

/-- The queue of the current source of a cell that is RUNNING or PAUSED (R169). -/
def currentQueue (s : State) (c : Nat) : Option Nat :=
  let x := cellAt s c
  let d := srcDesc s (hiveOf c) (stepAt s c x x.step).source
  if (x.st = .running ∨ x.st = .paused) ∧ d.kind = 2 then some (queueNum c d.queue) else none

/-- The stream byte that follows the blocks which lead on from a byte without a hole, resident or in flight; `n` bounds their number. -/
def coveredTo (q : Queue) : Nat → Nat → Nat
  | 0, byte => byte
  | n + 1, byte =>
    match blockAt q byte with
    | some b => coveredTo q n (b.off + b.len)
    | none => byte

/-- Samples of the stream from its position on that are resident or in flight without a hole. -/
def coveredSamples (q : Queue) : Nat := coveredTo q 64 (q.pos * fmtBytes q.fmt) / fmtBytes q.fmt - q.pos

/-- Grid samples that a walk emits before it plays sample `m` of a queue's stream, counted from the next of each; none where it ends,
or plays on elsewhere. `n` bounds the steps gone through (DESIGN CHOICE, log 27). -/
def samplesUntil (s : State) (c qi : Nat) : Nat → Adv → Nat → Nat → Option Nat
  | 0, _, _, _ => none
  | n + 1, v, m, g =>
    if v.stop ≠ 0 then none
    else
      let x := v.x
      let st := stepAt s c x x.step
      let d := srcDesc s (hiveOf c) st.source
      let here := d.kind = 2 && queueNum c d.queue = qi
      let left := (st.rep - x.passes) * passLen s (hiveOf c) d - x.pos
      let g1 := g + x.dead
      if here ∧ (st.rep = 0 ∨ m < left) then some (g1 + m)
      else if st.rep = 0 then none
      else samplesUntil s c qi n (passOn s c { x with dead := 0, pos := 0, passes := 0 }) (if here then m - left else m) (g1 + left)

/-- Where a cell's walk stands for its next sample (R77, R80). -/
def walkNext (s : State) (c : Nat) : Adv :=
  let x := cellAt s c
  let y := match x.next with
    | some p => { x with step := p.step, pos := p.pos, passes := p.passes, loops := p.loops, dead := p.dead }
    | none => x
  { x := if y.entering then { enterStep s c y.step false y with entering := false } else y,
    stop := match x.next with
      | some p => p.stop
      | none => 0 }

/-- The emission instant of the first stream sample that is neither resident nor in flight, as numerator and denominator in ticks;
none where the walk never plays it. -/
def exhaustion (s : State) (c : Nat) (i : Nat) : Option (Nat × Nat) :=
  let x := cellAt s c
  let d := domAt s x.domain
  (samplesUntil s c i 4096 (walkNext s c) (coveredSamples (queueAt s i)) 0).map fun g =>
    (sampleEdge x.mRef (x.n - x.nRef + g) (ratioOf x.ratio) * d.den * d.div, d.num)

/-- The earlier of two candidates of rank 1; the first given on a tie. -/
def earlier (s : State) (a b : Nat) : Nat :=
  match exhaustion s (a / 1024) a, exhaustion s (b / 1024) b with
  | some x, some y => if y.1 * x.2 < x.1 * y.2 then b else a
  | none, some _ => b
  | _, none => a

/-- The queue that the step after the current one plays from. -/
def successorQueue (s : State) (c : Nat) : Option Nat :=
  let x := cellAt s c
  if x.st ≠ .running then none
  else
    let v := passOn s c x
    let d := srcDesc s (hiveOf c) (stepAt s c v.x v.x.step).source
    if v.stop = 0 && d.kind = 2 then some (queueNum c d.queue) else none

/-- The next refill of a hive (R157). -/
def pickRefill (s : State) (hive : Nat) : Option Nat :=
  let cells := upFrom 16 (16 * hive)
  let ok (i : Nat) : Bool := refillable (queueAt s i)
  match ((cells.filter fun c => (cellAt s c).st = .running).filterMap (currentQueue s)).filter ok with
  | a :: t => some (t.foldl (earlier s) a)
  | [] =>
    match ((cells.filterMap (successorQueue s)).filter fun i => ok i && qFill (queueAt s i) = 0).head? with
    | some i => some i
    | none =>
      let all := ((s.queues.map (·.1)).filter fun i => hiveOf (i / 1024) = hive && ok i)
      match all.find? fun i => decide ((hiveAt s hive).rr ≤ i) with
      | some i => some i
      | none => all.head?

/-- The lowest block buffer that no block holds. -/
def freeBuf (q : Queue) : Nat :=
  match (upFrom q.bufCount 0).find? fun b => !(q.blocks.any fun k => k.buf = b) with
  | some b => b
  | none => 0

/-- Whether the next descriptor of a queue fails it: ERR, fault bit and class; a bad read of the ring counts as a lost
line (R166, R301). -/
def descFails (s : State) (i : Nat) : Option Nat :=
  let q := queueAt s i
  let ra := q.ringBase + 32 * q.head
  let d := playDesc s ra
  let o := cellOwner s (i / 1024)
  if spanOffline s ra 32 || spanOffline s (s.ctxBase + 32 * i) 32 || linesUe s ra 32 then some 2
  else if !playOwned s o ra 32 then some 3
  else if !playDescOk s d then some 1
  else if !playOwned s o d.1 d.2.1 then some 3
  else if spanOffline s d.1 d.2.1 then some 2
  else none

/-- A queue fails at fetch. -/
def refillFail (i err : Nat) (s : State) : State :=
  if err = 2 then offlineQueue i (touchLines 3 3 ((queueAt s i).ringBase + 32 * (queueAt s i).head) 32 s)
  else pqmFault (failQueue i err s) (if err = 1 then 2 else 3) 1 i 3 3

/-- The next block of a queue: stream byte, length, DRAM address; and the queue past it. -/
def nextBlock (s : State) (q : Queue) : Nat × Nat × Nat × Queue :=
  let d := playDesc s (q.ringBase + 32 * q.head)
  let len := min 4096 (d.2.1 - 64 * q.descOff)
  let off := q.descOff + len / 64
  let done := decide (d.2.1 ≤ 64 * off)
  (q.next, len, d.1 + 64 * q.descOff,
    { q with next := q.next + len, descOff := if done then 0 else off, head := if done then (q.head + 1) % ringSize q else q.head })

/-- The first payload of a doorbell's entry that waits for its CRC and is the given one. -/
def payloadIdx (a len : Nat) (ps : List (Nat × Nat × Option Nat)) : Option Nat := ps.findIdx? fun p => p = (a, len, none)

/-- The oldest journaled doorbell of a queue that released a payload and waits for its CRC-32 gets it (R154). -/
def crcInto (i a len crc : Nat) : List JEntry → List JEntry
  | [] => []
  | e :: t =>
    match e.pay with
    | .doorbell k q tail ps =>
      match if q = i then payloadIdx a len ps else none with
      | some j => { e with pay := .doorbell k q tail (ps.set j (a, len, some crc)) } :: t
      | none => e :: crcInto i a len crc t
    | _ => e :: crcInto i a len crc t

/-- The PQM begins to fetch the payload of descriptor HEAD: its CRC-32 goes to the journal. -/
def crcFetched (i : Nat) (s : State) : State :=
  let q := queueAt s i
  let d := playDesc s (q.ringBase + 32 * q.head)
  if q.mode = 0 ∧ q.descOff = 0 then
    { s with jnl := { s.jnl with entries := crcInto i d.1 d.2.1 (crc32 (memRead s.dram d.1 d.2.1)) s.jnl.entries } }
  else s

/-- Request the next block of a queue, past those that the position has left behind (R164); `n` blocks at most are
skipped in one issue. The descriptor is read from DRAM, which may have to wait (log 77). -/
def requestBlock (i : Nat) : Nat → State → State
  | 0, s => s
  | n + 1, s =>
    let q := queueAt s i
    let ra := q.ringBase + 32 * q.head
    if !refillable q || !(dramQuiet s ra 32 || spanOffline s ra 32) then s
    else
      match descFails s i with
      | some e => refillFail i e s
      | none =>
        let s := crcFetched i (touchLines 3 3 ra 32 s)
        let (off, len, addr, q1) := nextBlock s q
        if off + len ≤ q.pos * fmtBytes q.fmt then
          requestBlock i n (modHive (putQueue s i q1) (hiveOf (i / 1024)) fun h => { h with skipCount := sat 0xFFFFFFFF h.skipCount })
        else
          let b : Blk := { off := off, len := len, addr := addr, buf := freeBuf q, taken := s.time.tick }
          let s1 := putQueue s i { q1 with blocks := q1.blocks ++ [b] }
          placeBlock i b (modHive s1 (hiveOf (i / 1024)) fun h => { h with credits := h.credits - 1, rr := i + 1 })

/-- REFILL_ISSUE: with a credit free, the next refill of the hive takes buffer, credit and DRAM slot (R156, R157). -/
def refillIssue (hive : Nat) (s : State) : State :=
  let s1 := placeWaiting s
  if (hiveAt s1 hive).credits = 0 then s1
  else
    match pickRefill s1 hive with
    | some i => requestBlock i 4096 s1
    | none => s1

/-- A block completes `lat` ticks after it took its credit: LAT_MAX, and LAT_OVER beyond T_refill (R158, R170, R171). -/
def refillTook (i addr lat : Nat) (s : State) : State :=
  let s1 := modHive s (hiveOf (i / 1024)) fun h =>
    { h with latMax := max h.latMax (min 0xFFFF lat), latOver := if 1600 < lat then sat 0xFFFF h.latOver else h.latOver }
  if 1600 < lat then
    raise s1 { block := .pqm, bit := 6, cls := 0, obj := addr, master := 3, acc := 4, owner := some (cellOwner s (i / 1024)).owner }
  else s1

/-- BLOCK_RESIDENT: the last write of a block whose reads have completed; it becomes resident and its credit returns, or it
is discarded (R156, R158, R164); a flush's discards are not counted. `buf` names its buffer. -/
def blockResident (c q buf : Nat) (s : State) : State :=
  let i := queueNum c q
  match (queueAt s i).blocks.find? fun b => b.buf = buf && b.resident.isNone && b.read with
  | none => s
  | some b =>
    let now := s.time.tick
    let lat := now - b.taken
    if b.discard then
      let s1 := modHive (dropBlock i b s) (hiveOf c) fun h => { h with skipCount := if b.flushed then h.skipCount else sat 0xFFFFFFFF h.skipCount }
      refillTook i b.addr lat s1
    else
      let ca := combAddr (hiveOf c) 0 (((queueAt s i).bufBase + b.buf) * 4096)
      let s1 := combStore s ca (memRead b.img b.addr b.len)
      let bs := (queueAt s1 i).blocks.map fun k => if k = b then { b with resident := some now, img := [] } else k
      let s2 := { s1 with queues := tmod {} s1.queues i fun y => { y with blocks := bs } }
      refillTook i b.addr lat (modHive s2 (hiveOf c) fun h => { h with credits := min 64 (h.credits + 1), refillCount := h.refillCount + 1 })

/-! ### The commands and events -/

/-- QUEUE_OPEN: R155. -/
def execQueueOpen (h : Hdr) (cell q ringBase sizeLog2 mode tail bufBase bufCount : Nat) (s : State) :
    Host.Outcome State Fault Refusal :=
  berza h (.queueOpen h cell q ringBase sizeLog2 mode tail bufBase bufCount)
    (specQueueOpen h cell q ringBase sizeLog2 mode tail bufBase bufCount s) s

/-- QUEUE_CLOSE: R155. -/
def execQueueClose (h : Hdr) (cell q : Nat) (s : State) : Host.Outcome State Fault Refusal :=
  berza h (.queueClose h cell q) (specQueueClose h cell q s) s

/-- QUEUE_STATUS: R155. -/
def execQueueStatus (h : Hdr) (cell q : Nat) (s : State) : Host.Outcome State Fault Refusal :=
  berza h (.queueStatus h cell q) (specQueueStatus h cell q s) s

/-- QUEUE_FLUSH: R155. -/
def execQueueFlush (h : Hdr) (cell q : Nat) (s : State) : Host.Outcome State Fault Refusal :=
  berza h (.queueFlush h cell q) (specQueueFlush h cell q s) s

/-- DOORBELL_WRITE: R152. -/
def execDoorbellWrite (ctx offset width : Nat) (value : DWord) (s : State) : Host.Outcome State Fault Refusal :=
  actOn (decide (ctx < 16)) s (doorbellWrite ctx offset width value)

/-- DOORBELL_APPLY: R153. -/
def execDoorbellApply (s : State) : Host.Outcome State Fault Refusal := act s doorbellApply

/-- REFILL_ISSUE: R157. -/
def execRefillIssue (hive : Nat) (s : State) : Host.Outcome State Fault Refusal :=
  actOn (decide (hive < nHives s)) s (refillIssue hive)

/-- BLOCK_RESIDENT: R156. -/
def execBlockResident (cell q blk : Nat) (s : State) : Host.Outcome State Fault Refusal :=
  actOn (decide (cell < nCells s) && decide (q < 1024)) s (blockResident cell q blk)

end Sys2Proof.Machine
end

