-- ==== Sys2Proof/Machine/Services.lean ====
section
/-! DEFINITION. Background services and telemetry (spec/05 grooming, spec/12 shadow audit, spec/14 R373 to R378). -/

namespace Sys2Proof.Machine

/-- A service of the keeper runs: the keeper is up and its clock is not stopped (R373). -/
def serviceRuns (s : State) : Bool :=
  s.kpr.ready && !s.sec.halted && s.md.mode ≠ .factory && (s.md.mode ≠ .standby || (s.md.power = 2 && !s.sec.entering))

/-! ### BGS_SET and telemetry (R375, R376, R379) -/

/-- `BGS_SET`: 0 turns grooming, eye checks or skew checks off; ENDURANCE 0 takes its default. -/
def specBgsSet (h : Hdr) (groom eye skew endurance : Nat) : CSpec :=
  let e := dflt 100000 endurance
  { op := 0x0D03, permitted := h.ctx = 0,
    err := if 20000 < groom ∨ 3600 < eye ∨ (skew ≠ 0 ∧ skew < 10) ∨ 86400 < skew ∨ e < 10000 ∨ 1000000 < e then some .badArg
      else none }

/-- The decision of `BGS_SET`. -/
def decBgsSet (groom eye skew endurance : Nat) (s : State) : State :=
  noteWear { s with
    svc := { s.svc with groomRate := groom, eyePeriod := eye, skewPeriod := skew, endurance := dflt 100000 endurance } }

/-- BGS_SET: R373, R379. -/
def execBgsSet (h : Hdr) (groomRate eyePeriod skewPeriod endurance : Nat) (s : State) : Host.Outcome State Fault Refusal :=
  berza h (.bgsSet h groomRate eyePeriod skewPeriod endurance) (specBgsSet h groomRate eyePeriod skewPeriod endurance) s

/-- AGE of a telemetry channel, ms since it was sampled; in Retain as it stood at entry (R373, R375). -/
def telemAge (s : State) (i : Nat) : Nat :=
  let now := if inRetain s then s.sec.entryTick else s.time.tick
  match s.svc.telemTick.find? fun p => p.1 = i with
  | some p => min 0xFFFF ((now - p.2) / 100000)
  | none => 0

/-- `TELEM`[i]. -/
def telemWord (s : State) (i : Nat) : Nat :=
  pack [(16, (tget (0 : BitVec 16) s.svc.telem i).toNat), (16, telemAge s i)]

/-- `TELEM_READ`. -/
def specTelemRead (first count : Nat) : CSpec :=
  { op := 0x0D04, cls := .d, err := if 31 < first ∨ count = 0 ∨ 8 < count ∨ 32 < first + count then some .badArg else none }

/-- The decision of `TELEM_READ`: the words of the channels named. -/
def decTelemRead (x : Held) (first count : Nat) (s : State) : State :=
  finish s x 0x0D04 none .ok ((upFrom count first).flatMap fun i => le 4 (telemWord s i))

/-- TELEM_READ: R375, R379. -/
def execTelemRead (h : Hdr) (first count : Nat) (s : State) : Host.Outcome State Fault Refusal :=
  berza h (.telemRead h first count) (specTelemRead first count) s

/-- The range of a supply's channel in mV (R376, R462). -/
def supplyRange : Nat → Option (Nat × Nat)
  | 16 => some (650, 850)
  | 20 => some (776, 824)
  | 21 => some (873, 927)
  | 22 => some (1164, 1236)
  | 23 => some (1140, 1260)
  | 24 => some (2375, 2750)
  | 25 => some (1710, 1890)
  | 26 => some (3135, 3465)
  | _ => none

/-- A sample is stored with its time. -/
def noteTelem (i : Nat) (v : BitVec 16) (s : State) : State :=
  { s with svc := { s.svc with telem := tset 0 s.svc.telem i v, telemTick := tset 0 s.svc.telemTick i s.time.tick } }

/-- The hottest die sensor that has been sampled. -/
def hottest (s : State) : BitVec 16 :=
  match (s.svc.telemTick.filter fun p => decide (p.1 < 16)).map fun p => tget (0 : BitVec 16) s.svc.telem p.1 with
  | [] => 0
  | v :: t => t.foldl (fun m x => if m.toInt < x.toInt then x else m) v

/-- Channel 27 follows the sensors; above 110 degrees TJ_HIGH is raised. -/
def noteHottest (s : State) : State :=
  let s1 := noteTelem 27 (hottest s) s
  if 110 * 64 < (hottest s).toInt then raise s1 { block := .bgs, bit := 4, cls := 1, obj := 27, master := 7 } else s1

/-- A supply's sample: the run of samples out of range, and SUPPLY at the tenth. -/
def noteSupply (i v lo hi : Nat) (s : State) : State :=
  let n := if v < lo ∨ hi < v then sat 10 (tget 0 s.svc.outOfRange i) else 0
  let s1 := { s with svc := { s.svc with outOfRange := tset 0 s.svc.outOfRange i n } }
  if n = 10 then raise s1 { block := .bgs, bit := 5, cls := 1, obj := i, master := 7 } else s1

/-- TELEMETRY_SAMPLE: channel 27 is formed from channels 0 to 15; a regulator status with a fault bit is PACE_LINK; BUSY is
none (PRESUMED: bits as PMBus numbers them, log 26). -/
def telemetrySample (i : Nat) (v : BitVec 16) (s : State) : State :=
  if !serviceRuns s then s
  else if i < 16 ∨ i = 27 then noteHottest (if i = 27 then s else noteTelem i v s)
  else
    let s1 := noteTelem i v s
    let s2 := match supplyRange i with
      | some (lo, hi) => noteSupply i v.toNat lo hi s1
      | none => s1
    if i = 16 then { s2 with pace := { s2.pace with vread := v.toNat % 1024 } }
    else if i = 19 ∧ v &&& 0xFF7F ≠ 0 then paceLink s2
    else s2

/-- TELEMETRY_SAMPLE: R52, R375, R376. -/
def execTelemetrySample (chan : Nat) (value : BitVec 16) (s : State) : Host.Outcome State Fault Refusal :=
  actOn (decide (chan < 28)) s (telemetrySample chan value)

/-! ### Grooming (R139 to R142) -/

/-- Modes in which grooming runs (R373). -/
def groomRuns (s : State) : Bool :=
  s.kpr.ready && !s.sec.halted && s.svc.groomRate ≠ 0 &&
    (s.md.mode = .idle || s.md.mode = .run || s.md.mode = .calibrate || s.md.mode = .safe ||
      (s.md.mode = .standby && s.md.power = 2 && !s.sec.entering))

/-- The field remaps of a bank are kept in the calibration store (R142). -/
def keepRemaps (index : Nat) (s : State) : State :=
  if !s.svc.storeOk ∨ s.svc.storeFull ∨ 0xFFFFFFFE ≤ s.svc.calSeq then s
  else
    let l := (sparesOf s index).filter fun g => !(factorySpares s index).contains g
    appendRecord 3 index ((l ++ List.replicate (16 - l.length) 0xFFFF).flatMap (le 2)) s

/-- A granule whose contents could not be restored is uncorrectable until written. -/
def groomLost (g : Nat) (s : State) : State :=
  { s with combUe := ((upFrom 32 (32 * g)).filter fun w => !s.combUe.contains w) ++ s.combUe }

/-- A granule of the scratchpad or the context cache is tested through its one service port, like one of a bank (R141): a failing
one is remapped to one of 16 spares, or marked bad (DESIGN CHOICE, log 76). -/
def groomInner (scr : Bool) (granule : Nat) (fails restorable : Bool) (s : State) : State :=
  let s1 := (upFrom 32 (32 * granule)).foldl (fun s w => touchInner scr 4 w s) s
  let m := innerMem s1 scr
  let o : Occ := { block := .cmb, bit := 8, cls := 0, obj := innerCode scr (256 * granule), master := 4, acc := 5 }
  if !fails ∨ m.bad.contains granule then s1
  else if m.spares.length < 16 then raise (modInner scr (fun m => { m with spares := m.spares ++ [granule] }) s1) o
  else
    let lost := if restorable then [] else (upFrom 32 (32 * granule)).filter fun w => !m.ue.contains w
    raise (modInner scr (fun m => { m with bad := m.bad ++ [granule], ue := lost ++ m.ue }) s1) { o with bit := 9, cls := 1 }

/-- GROOM_GRANULE of a bank: one granule tested. The save and verify reads correct single-bit errors and count (R138); its contents
are as before, and a word that was uncorrectable stays so. An access while it is tested abandons the test, which then shows no
result (`fails` and `restorable` both false). The last granule of the catch bank ends a pass (DESIGN CHOICE, log 26). -/
def groomBank (hive bank granule : Nat) (fails restorable : Bool) (s0 : State) : State :=
  let x := hiveAt s0 hive
  if !(if bank = 0 then x.playReady else x.catchReady) then s0
  else
    let last : Bool := decide (bank = 1) && decide (granule = 2047) && (fails || restorable)
    let s := touchSpan 4 5 (combAddr hive bank (256 * granule)) 256 s0
    let s1 := { s with hives := tmod {} s.hives hive fun h =>
      { h with groomGranule := granule, groomBank := bank, groomPasses := if last then sat 0x3FFFF h.groomPasses else h.groomPasses } }
    let index := 2 * hive + bank
    if !fails ∨ x.bad.contains (bank, granule) then s1
    else
      let room := (sparesOf s1 index).length < 16
      let s2 := groomFail index granule s1
      if room then keepRemaps index s2
      else if restorable then s2 else groomLost (hive * 8192 + 6144 * bank + granule) s2

/-- The granules of a memory that grooming tests: 0 a hive's play bank, 1 its catch bank, 2 the scratchpad, 3 the context cache. -/
def groomSize (bank : Nat) : Nat := if bank = 2 then 8192 else if bank = 3 then 16384 else bankGranules bank

/-- GROOM_GRANULE: one granule of a bank, the scratchpad or the context cache. -/
def groomGranule (hive bank granule : Nat) (fails restorable : Bool) (s : State) : State :=
  if !groomRuns s then s
  else if bank < 2 then groomBank hive bank granule fails restorable s
  else groomInner (decide (bank = 2)) granule fails restorable s

/-- GROOM_GRANULE: R139, R141, R142. -/
def execGroomGranule (hive bank granule : Nat) (fails restorable : Bool) (s : State) : Host.Outcome State Fault Refusal :=
  actOn (decide (hive < if bank < 2 then nHives s else 1) && decide (bank < 4) && decide (granule < groomSize bank)) s
    (groomGranule hive bank granule fails restorable)

/-! ### Eye and skew checks, flash wear (R373, R378) -/

/-- EYE_CHECK: one lane of a link in DATA. -/
def eyeCheck (m : EyeMeas) (s : State) : State :=
  if serviceRuns s && s.svc.eyePeriod ≠ 0 && (s.md.mode = .idle || s.md.mode = .run || s.md.mode = .safe) && laneInData s m.lane then
    eyeService m s
  else s

/-- EYE_CHECK: R277, R373. -/
def execEyeCheck (m : EyeMeas) (s : State) : Host.Outcome State Fault Refusal :=
  actOn (decide (m.lane < nLanes s)) s (eyeCheck m)

/-- SKEW_CHECK on a manager: steps 1 to 3 of R248 begin, with as many exchanges as the service makes (R373 gives no number). -/
def skewCheck (exchanges : Nat) (s : State) : State :=
  if serviceRuns s && s.svc.skewPeriod ≠ 0 && s.col.role = 1 && (s.md.mode = .idle || s.md.mode = .run) then
    skewService exchanges s
  else s

/-- SKEW_CHECK: R248, R373. -/
def execSkewCheck (exchanges : Nat) (s : State) : Host.Outcome State Fault Refusal := act s (skewCheck exchanges)

/-- The newest valid record of every key, tombstones among them, in the order of the store. -/
def compacted (l : List CalRec) : List CalRec := l.filter fun r => userNewest l r.kind r.index = some r

/-- The bytes a list of records takes. -/
def storeBytes (l : List CalRec) : Nat := (l.map fun r => 16 + r.payload.length).foldl (· + ·) 0

/-- The calibration store is 75 % full. -/
def storeDue (s : State) : Bool := decide (3 * 0x200000 ≤ 4 * s.dev.storeUsed)

/-- FLASH_COMPACTION of the calibration store (0) or the configuration store (1), which the model keeps whole: `fits` says
whether free sectors hold it, `maxErase` the highest erase count of the wear table afterwards. -/
def flashCompaction (store : Nat) (fits : Bool) (maxErase : Nat) (s : State) : State :=
  if !serviceRuns s ∨ !s.kpr.flash ∨ (store = 0 ∧ !storeDue s) then s
  else
    let s1 := if fits then
        (if store = 0 then { s with dev := { s.dev with store := compacted s.dev.store, storeUsed := storeBytes (compacted s.dev.store) },
                                    svc := { s.svc with storeFull := false } } else s)
      else raise { s with svc := { s.svc with storeFull := s.svc.storeFull || store = 0 } }
        { block := .bgs, bit := 7, cls := 1, obj := store, master := 7 }
    noteWear { s1 with svc := { s1.svc with maxErase := max s.svc.maxErase (min 0xFFFFF maxErase) } }

/-- FLASH_COMPACTION: R378. -/
def execFlashCompaction (store : Nat) (fits : Bool) (maxErase : Nat) (s : State) : Host.Outcome State Fault Refusal :=
  actOn (decide (store < 2)) s (flashCompaction store fits maxErase)

/-! ### Shadow audit (R341, R344, R345) -/

/-- The scratchpad holds a word that the keeper cannot read. -/
def scratchBad (s : State) : Bool := !s.inner.scratch.ue.isEmpty || !s.inner.scratch.bad.isEmpty

/-- The keeper reads an uncorrectable word of its scratchpad: it halts, and UE_SCRATCH is a class 3 fault (R138, R417). -/
def scratchHalt (s : State) : State :=
  let w := match s.inner.scratch.ue.head? with
    | some w => w
    | none => 32 * s.inner.scratch.bad.headD 0
  graveFault { block := .cmb, bit := 4, cls := 3, obj := innerCode true (8 * w), master := 7 } false
    (jstate { s with kpr := { s.kpr with ready := false } } 0xC 0 1 0)

/-- SHADOW_AUDIT: the heartbeat, and each unit whose shadow disagreed with hardware. The shadow is in the scratchpad, of which the
audit reads every word (DESIGN CHOICE, log 76). -/
def shadowAudit (l : List Sel) (s : State) : State :=
  if !serviceRuns s then s
  else if scratchBad s then scratchHalt s
  else l.foldl (fun s u => diverge u s) { s with kpr := { s.kpr with heartbeat := (s.kpr.heartbeat + 1) % 65536 } }

/-- SHADOW_AUDIT: R344, R345. -/
def execShadowAudit (diverged : List Sel) (s : State) : Host.Outcome State Fault Refusal := act s (shadowAudit diverged)

end Sys2Proof.Machine
end

