-- ==== Sys2Proof/Machine/Start.lean ====
section
/-! DEFINITION. Start-up (spec/18): supplies and RESET_N, the banks, the boot ROM's choice of an image, keeper starts and
restarts (R317, R346), the PCIe link. -/

namespace Sys2Proof.Machine

/-! ### Supplies and RESET_N (R137, R395, R426, R448) -/

/-- Every field at its power-on value but what a power-on or RESET_N leaves alone: OTP, flash, the level of `AUX_CLR_N`, the queue
of waiting commands, the free values; RESET_N low. -/
def coldState (s : State) : State :=
  let s1 := { State.reset with
    dev := { s.dev with powered := true, resetN := false, fresh := true, remapsDue := true, refclkSel := false, colRole := 0 },
    auxClrN := s.auxClrN, free := s.free, pending := s.pending }
  { s1 with sec := { s1.sec with dbg := dbgDefault s1 } }

/-- POWER_ON: every class at its power-on value, the factory spare maps in force (R137), supplies up with RESET_N low. -/
def powerOn (s : State) : State :=
  if s.dev.powered then s
  else
    let s1 := coldState s
    s1.dev.otp.foldl (fun s r => if r.kind = 3 && calValid false r then factoryMap r.index s else s) s1

/-- POWER_ON: R137, R426. -/
def execPowerOn (s : State) : Host.Outcome State Fault Refusal := .next { powerOn s with pending := s.pending }

/-- POWER_OFF: nothing but OTP and flash outlasts it (R395, R447). -/
def powerOff (s : State) : State :=
  if s.dev.powered then { coldState s with dev := { (coldState s).dev with powered := false } } else s

/-- POWER_OFF: R395. -/
def execPowerOff (s : State) : Host.Outcome State Fault Refusal := .next { powerOff s with pending := s.pending }

/-- What RESET_N leaves of a hive: its banks' readiness, spares and bad granules; a retained bank presents its contents
again, one being cleared starts again. -/
def hiveThrough (lost : Bool) (h : Hive) : Hive :=
  let base : Hive := { power := h.power, playReady := h.playReady, catchReady := h.catchReady, sparesPlay := h.sparesPlay,
                       sparesCatch := h.sparesCatch, bad := h.bad, groomPasses := h.groomPasses }
  if h.power = 1 ∨ h.power = 3 then
    (if lost then { base with power := 2 } else { base with power := 0, playReady := true, catchReady := true })
  else base

/-- RESET_N_ASSERT: every step in progress is abandoned; the comb's contents and spare maps, the counts since power-on and the
authentication lock stay (R398, R426, R448). -/
def resetNAssert (s : State) : State :=
  if !s.dev.powered ∨ !s.dev.resetN then s
  else
    let s1 := coldState s
    { s1 with
      dev := { s1.dev with fresh := s.dev.fresh, remapsDue := s.dev.remapsDue },
      comb := s.comb, inner := { s.inner with lines := [], scratch := { s.inner.scratch with ue := [], ce := [] } }, combUe := s.combUe, combCe := s.combCe,
      hives := s.hives.foldl (fun t p => tset {} t p.1 (hiveThrough s.sec.sramLost p.2)) [],
      kpr := { s1.kpr with restarts := s.kpr.restarts, spiSeen := s.kpr.spiSeen },
      sec := { s1.sec with authFails := s.sec.authFails, sessions := s.sec.sessions,
                           authLock := s.sec.authLock.map fun t => t - s.time.tick },
      grave := { s1.grave with restore := s.grave.restore, restoreCause := s.grave.restoreCause, restoreTick := s.grave.restoreTick } }

/-- RESET_N_ASSERT: R448. -/
def execResetNAssert (s : State) : Host.Outcome State Fault Refusal := .next { resetNAssert s with pending := s.pending }

/-- The classes that RESET_N sets to C or F (R426). -/
def resetClasses : List Nat := (upFrom 27 0).filter fun c => c ≠ 15 && c ≠ 16

/-- RESET_N_RELEASE: the straps are sampled, device time restarts at 0, the device is in BRING-UP (R237, R448); lifecycle fuses that
are read inconsistent are noticed now, since no fault is recorded while RESET_N is low (R382, R428). -/
def resetNRelease (refclkSel r1 r0 : Bool) (s : State) : State :=
  if !s.dev.powered ∨ s.dev.resetN then s
  else
    let role := if r1 then (if r0 then 0 else 2) else if r0 then 1 else 0
    let s1 := { s with dev := { s.dev with resetN := true, fresh := false, refclkSel := refclkSel, colRole := b2n r0 + 2 * b2n r1 },
                       col := { s.col with role := role }, time := { s.time with tick := 0 } }
    let s2 := if s.dev.fresh then s1 else restoreMark 2 resetClasses s1
    let s3 := if r1 && r0 then colFault 10 1 0 s2 else s2
    if s.dev.fusesOk then s3 else spdFault 2 1 0 s3

/-- RESET_N_RELEASE: R237, R448. -/
def execResetNRelease (refclkSel colRole1 colRole0 : Bool) (s : State) : Host.Outcome State Fault Refusal :=
  .next { resetNRelease refclkSel colRole1 colRole0 s with pending := s.pending }

/-! ### Banks and flash (R137, R450) -/

/-- COMB_BANK_CLEARED: a bank that was being cleared is ready; where firmware has run since the last reset, it has applied the
field remaps first, and while it restarts the bank waits for it. -/
def combBankCleared (hive : Nat) (catchBank : Bool) (s : State) : State :=
  let h := hiveAt s hive
  if h.power ≠ 2 ∨ (if catchBank then h.catchReady else h.playReady) then s
  else
    if s.kpr.st = 3 then s
    else
    let s1 := if s.kpr.ready then fieldMap (2 * hive + b2n catchBank) s else s
    modHive s1 hive fun x =>
      let y := if catchBank then { x with catchReady := true } else { x with playReady := true }
      if y.playReady && y.catchReady then { y with power := 0 } else y

/-- COMB_BANK_CLEARED: R137. -/
def execCombBankCleared (hive : Nat) (catchBank : Bool) (s : State) : Host.Outcome State Fault Refusal :=
  actOn (decide (hive < nHives s)) s (combBankCleared hive catchBank)

/-- FLASH_READY: the flash is usable, in the mode that the flash parameter record gives, which stands beside the clear codes under
key 64 (R377, log 25); the PCIe subsystem IDs, under key 65, count where they are read by 20 ms after release (R451). -/
def flashReady (s : State) : State :=
  let m := tget 0 s.dev.config 64
  { s with kpr := { s.kpr with flash := true, subsystem := if s.time.tick ≤ 2000000 then tget 0 s.dev.config 65 else 0 }, svc := { s.svc with flashMode := if m ≤ 2 then m else 0 } }

/-- FLASH_READY: R377, R450. -/
def execFlashReady (s : State) : Host.Outcome State Fault Refusal := act s flashReady

/-! ### The keeper comes up (R317, R346) -/

/-- An image area: 0 is A, 1 is B. -/
def imgAt (s : State) (i : Nat) : Image := if i = 0 then s.dev.imgA else s.dev.imgB

/-- An image that verifies and whose SVN is not below the minimum; a load section over 1.75 MiB does not verify (R346). -/
def imgBoots (s : State) (i : Nat) : Option ImgInfo :=
  if s.kpr.flash then (imgAt s i).info.filter fun x => decide (x.loadKiB ≤ 1792) && decide (s.dev.svnMin ≤ x.svn) else none

/-- The image that runs: the one a `KEEPER_RESTART` named (1 A, 2 B), else the preferred one, else the other. -/
def bootImage (s : State) : Option (Nat × ImgInfo) :=
  let pick (i : Nat) : Option (Nat × ImgInfo) := (imgBoots s i).map fun x => (i, x)
  let rom := (pick s.dev.prefImg).orElse fun _ => pick (1 - s.dev.prefImg)
  if s.kpr.restartImg = 0 then rom else (pick (s.kpr.restartImg - 1)).orElse fun _ => rom

/-- A fault of the keeper block. -/
def kprFault (bit cls obj : Nat) (s : State) : State := raise s { block := .kpr, bit := bit, cls := cls, obj := obj, master := 7 }

/-- The field remaps of every bank that the store names. -/
def fieldMaps (s : State) : State :=
  if s.dev.remapsDue then
    let s1 := { s with dev := { s.dev with remapsDue := false } }
    if s.kpr.flash then
      (((s.dev.store.filter fun r => r.kind = 3).map (·.index)).eraseDups).foldl (fun s i => fieldMap i s) s1
    else s1
  else s

/-- The scratchpad is reloaded (R317): every word is written. -/
def scratchLoaded (s : State) : State := modInner true (fun m => { m with ue := [], ce := [] }) s

/-- Firmware runs: the image chosen, or RECOVERY; it writes the ceiling first (R51, R317, R346). -/
def keeperUp (s : State) : State :=
  let s0 := fieldMaps (scratchLoaded (if s.dev.lifecycle = 3 && !s.dev.keyLocked then returnedErase s else s))
  let s1 := match bootImage s0 with
    | some (i, x) =>
      let fb := i ≠ s0.dev.prefImg
      let s2 := { s0 with kpr := { s0.kpr with ready := true, st := 2, activeImg := i, fallback := fb, version := x.version, svn := x.svn } }
      if fb then kprFault 1 1 i s2 else s2
    | none => kprFault 2 1 0 { s0 with kpr := { s0.kpr with ready := true, st := 4, fallback := false, version := 0, svn := 0 } }
  paceWrite s1.pace.ceiling { s1 with kpr := { s1.kpr with restartImg := 0 } }

/-- KEEPER_START after power-on or release of RESET_N. -/
def keeperStart (s : State) : State := if s.kpr.ready ∨ 1 < s.kpr.st then s else keeperUp s

/-- KEEPER_START: R346. -/
def execKeeperStart (s : State) : Host.Outcome State Fault Refusal := act s keeperStart

/-- The replies that a restart still owed: E_RESTARTED (R317, R425). -/
def owedReplies (s : State) : State :=
  s.mailboxes.foldl (fun s p =>
    match p.2.owed with
    | some o => answer s (p.1 / 4) (p.1 % 4) o.opcode o.seq .restarted none o.dec [BitVec.ofNat 8 (b2n o.handed)]
    | none => s) s

/-- KEEPER_RESTART_DONE: firmware resumes, raises its event, and answers what was owed. -/
def keeperRestartDone (s : State) : State :=
  if s.kpr.st ≠ 3 then s
  else
    let s1 := keeperUp s
    owedReplies (if s1.kpr.st = 2 then firmwareRaise s1.kpr.restartCh s1 else s1)

/-- KEEPER_RESTART_DONE: R317, R345, R346. -/
def execKeeperRestartDone (s : State) : Host.Outcome State Fault Refusal := act s keeperRestartDone

/-- The watchdog counts: firmware runs, or stands still since its scratchpad failed (R138); the debug port's halt suspends it
(R400). -/
def watched (s : State) : Bool := (s.kpr.ready || s.kpr.st = 2 || s.kpr.st = 4) && !s.sec.halted && !inRetain s

/-- WDOG: the watchdog restarts a keeper that has not refreshed it for 100 ms. -/
def wdog (s : State) : State := if watched s then keeperRestart 0 (kprFault 0 1 0 s) else s

/-- WDOG: R317. -/
def execWdog (s : State) : Host.Outcome State Fault Refusal := act s wdog

/-- FIRMWARE_ERROR_RESTART: firmware has found an internal error. -/
def firmwareError (s : State) : State := if s.kpr.ready && !s.sec.halted && !inRetain s then keeperRestart 0 s else s

/-- FIRMWARE_ERROR_RESTART: R317. -/
def execFirmwareErrorRestart (s : State) : Host.Outcome State Fault Refusal := act s firmwareError

/-! ### The PCIe link (R319, R452) -/

/-- PCIE_LINK_UP: R452. -/
def execPcieLinkUp (s : State) : Host.Outcome State Fault Refusal := act s fun s => { s with kpr := { s.kpr with pcieUp := true } }

/-- PCIE_PERST: the endpoint alone is reset, with its vector masks and pending bits. -/
def pciePerst (s : State) : State := { s with kpr := { s.kpr with pcieUp := false }, msixOpen := [], msixPba := [], msixTable := [] }

/-- PCIE_PERST: R319. -/
def execPciePerst (s : State) : Host.Outcome State Fault Refusal := act s pciePerst

/-- PCIE_DOWN: the link is lost. -/
def pcieDown (s : State) : State :=
  if s.kpr.pcieUp then raise { s with kpr := { s.kpr with pcieUp := false } } { block := .kpr, bit := 5, cls := 0 } else s

/-- PCIE_DOWN: R319. -/
def execPcieDown (s : State) : Host.Outcome State Fault Refusal := act s pcieDown

/-! ### Time that passes (log 1) -/

/-- One launch tick passes; an entry to SAFE, a restart or a warm reset set for this tick begins. -/
def tick (s : State) : State :=
  let s0 := tickOver s
  if !alive s then s0
  else
    let s1 := safeComes s0
    let s2 := match s1.kpr.restartAt with
      | some t => if t ≤ s1.time.tick then keeperRestart s1.kpr.restartImg s1 else s1
      | none => s1
    let s2 := modeReturns s2
    let s3 := match s2.kpr.resetAt with
      | some t => if t ≤ s2.time.tick then warmReset s2.time.tick { s2 with kpr := { s2.kpr with resetAt := none } } else s2
      | none => s2
    settle s s3

end Sys2Proof.Machine
end

