-- ==== Sys2Proof/Machine/Window.lean ====
section
/-! DEFINITION. The direct status window (R338, R339): every register of it as a 32-bit word at its offset. A register of an
absent resource, and an offset that holds none, reads 0 (R3, R338). -/

namespace Sys2Proof.Machine

/-- The 32-bit word at offset `off` of a register of value `v` at `base`. -/
def wordAt (v base off : Nat) : Nat := bits v (8 * (off - base)) 32

/-- A list of flags as a mask of 32 or 64 bits. -/
def maskOf (l : List Nat) : Nat := (l.eraseDups.map (2 ^ ·)).foldl (· + ·) 0

/-- `DEVICE_CAPS` (R5). -/
def deviceCaps (s : State) : Nat :=
  pack [(8, nHives s), (4, nDmc s), (6, nLanes s), (6, nLanes s), (4, if s.dev.variant = .zw1024 then 0 else 1)]

/-- `KEEPER_STATE` (R341). -/
def keeperState (s : State) : Nat :=
  pack [(3, s.kpr.st), (1, s.kpr.activeImg), (1, s.dev.prefImg), (1, b2n s.kpr.fallback), (1, b2n s.kpr.pcieUp), (1, b2n s.kpr.spiSeen),
    (8, s.kpr.restarts), (16, s.kpr.heartbeat)]

/-- `FW_STATE` (R341). -/
def fwState (s : State) : Nat := pack [(16, s.kpr.version), (8, s.kpr.svn), (8, s.dev.svnMin)]

/-- `DEVTIME`: 0 until device time is ready (R33). -/
def devtimeReg (s : State) : Nat := if s.time.ready then devtime s else 0

/-- Registers of 0x0000 to 0x02FF (R5, R28, R33, R35, R49, R53, R340, R341). -/
def winHead (s : State) (o : Nat) : Nat :=
  let p := s.pace
  if o = 0x00 then deviceCaps s
  else if o = 0x04 then modeState s
  else if o = 0x08 then s.md.epoch.toNat
  else if o < 0x10 then 0
  else if o < 0x18 then wordAt s.md.since 0x10 o
  else if o < 0x20 then 0
  else if o = 0x20 then ready0 s
  else if o = 0x24 then ready1 s
  else if o = 0x28 then ready2 s
  else if o = 0x2C then ready3 s
  else if o = 0x30 then s.kpr.readyEpoch.toNat
  else if o = 0x38 then keeperState s
  else if o = 0x3C then s.kpr.epoch.toNat
  else if o = 0x40 then fwState s
  else if o = 0x44 then s.kpr.divergedCount
  else if o = 0x48 then s.kpr.lastDiverged.toNat
  else if o < 0x100 then 0
  else if o < 0x108 then wordAt (devtimeReg s) 0x100 o
  else if o < 0x110 then 0
  else if o < 0x118 then wordAt s.time.ppsTime 0x110 o
  else if o < 0x120 then wordAt s.time.ppsSec 0x118 o
  else if o = 0x120 then
    pack [(16, s.time.ppsSeq), (8, s.time.ppsRejected), (1, b2n s.time.ppsValid), (1, b2n s.time.ppsMissing)]
  else if o = 0x128 then s.time.ppsInterval
  else if o = 0x180 then
    pack [(10, p.vset), (10, p.vread), (1, b2n (paceOn s)), (1, b2n p.stepPending), (1, b2n (p.vset = p.ceiling)),
      (1, b2n (p.vset = p.floor)), (1, b2n p.fault), (6, p.worst)]
  else if 0x200 ≤ o ∧ (o - 0x200) / 4 < nHives s then
    let h := hiveAt s ((o - 0x200) / 4)
    pack [(11, h.slack), (7, h.fillMin), (1, b2n h.late), (5, 0), (8, h.window)]
  else 0

/-- Registers of 0x0300 to 0x07FF (R258, R259). -/
def winColony (s : State) (o : Nat) : Nat :=
  let c := s.col
  if o < 0x340 then
    let i := (o - 0x300) / 16
    let d := domAt s i
    let r := o % 16
    if r = 0 then
      pack [(1, b2n d.on), (1, b2n d.locked), (1, b2n d.guardOpen), (1, b2n (domPending s i)), (1, b2n d.trip), (11, d.guard), (16, d.unlocks)]
    else if r = 4 then d.epoch.toNat
    else wordAt (pack [(18, d.num), (12, d.den), (12, d.div), (2, d.ldiv), (16, d.lockN)]) 8 r
  else if o = 0x340 then
    pack [(1, b2n c.syncOk), (1, b2n (syncDriving s && s.time.ready)), (5, c.syncLog2), (4, c.syncLat), (1, b2n c.check), (8, c.miss),
      (8, c.shiftCount)]
  else if o = 0x344 then pack (((upFrom 4 0).map fun d => (2, (domAt s d).srMode)) ++ [(8, c.sysrefSkip)])
  else if o = 0x400 then
    pack [(2, c.role), (6, c.devnum), (1, b2n c.joined), (1, b2n (if c.role = 2 then c.timeOk else s.time.ready)), (1, b2n c.calibrated),
      (1, b2n c.chainOnly)]
  else if o = 0x404 then c.epoch.toNat
  else if o = 0x408 then pack [(12, c.hMin), (11, c.dMax), (4, c.swlLead)]
  else if o = 0x40C then pack [(16, c.residual), (16, toField 16 c.corr)]
  else if o = 0x410 then pack [(3, c.upState), (3, c.dnState), (6, c.chainPos)]
  else if o = 0x420 then pack [(16, c.swlLevel.toNat), (16, c.swlAdjust.toNat)]
  else if 0x440 ≤ o ∧ o < 0x480 then tget 0 c.swlComp ((o - 0x440) / 4) % 65536
  else if 0x600 ≤ o then
    let p := portAt s ((o - 0x600) / 8)
    if o % 8 = 0 then pack [(3, p.st), (22, p.delay)] else pack [(16, p.frameErr), (16, p.fwdDrop)]
  else 0

/-- TX_LAT of a TX link; 0 while it is OFF. -/
def linkTxLat (i : Nat) (x : Link) : Nat :=
  if isRx i ∨ x.st = .off then 0 else min 480 (Config.txLat i x.domain x.firstLane x.l x.m x.e)

/-- A TX lane is in electrical idle: its link sends nothing. -/
def laneIdle (s : State) (lane : Nat) : Bool :=
  match laneLink s false lane with
  | none => true
  | some i =>
    let st := (linkAt s i).st
    !((st = .training || st = .aligning || st = .data) && linkModeOk s i && (s.md.mode ≠ .replay || s.rpl.txMask.getLsbD i))

/-- Registers of 0x0800 to 0x0DFF (R282). -/
def winLinks (s : State) (o : Nat) : Nat :=
  if o < 0xC00 then
    let i := (o - 0x800) / 32
    let x := linkAt s i
    match o % 32 with
    | 0x00 =>
      pack [(3, linkCode x.st), (1, b2n (isRx i)), (2, x.domain), (5, x.firstLane), (4, if x.st = .off then 0 else x.l), (5, x.j), (2, x.cause),
        (1, b2n x.safeLink), (1, b2n x.cap24)]
    | 0x04 => x.epoch.toNat
    | 0x08 => pack [(9, x.m), (9, x.f), (6, x.e), (2, if x.s = 4 then 2 else if x.s = 2 then 1 else 0)]
    | 0x0C => pack [(16, linkTxLat i x), (10, if isRx i then x.rxLat else 0)]
    | 0x10 => pack [(16, x.crcErr), (8, x.retrains), (8, x.downs)]
    | 0x14 => pack [(16, x.arrivalMax)]
    | 0x18 => x.rxOvr
    | 0x1C => x.rxInvalid
    | _ => 0
  else if o < 0xD00 then
    let k := (o - 0xC00) / 8
    let r := tget ({} : RxLane) s.rxLanes k
    let l := laneLink s true k
    if nLanes s ≤ k then 0
    else if o % 8 = 0 then
      pack [(8, r.w), (10, r.h), (4, r.ctle), (1, b2n r.hdrLock), (1, b2n r.embLock), (5, l.getD 0), (1, b2n l.isSome)]
    else pack [(16, r.crcErr), (12, r.arrival)]
  else
    let k := (o - 0xD00) / 8
    if nLanes s ≤ k ∨ o % 8 ≠ 0 then 0
    else
      match laneLink s false k with
      | some i =>
        let x := linkAt s i
        pack [(3, x.preset), (1, b2n (laneIdle s k)), (1, b2n ((x.laneMap.take x.l).any fun b => b % 8 = k - x.firstLane && bitOf b 7)), (5, i), (1, 1)]
      | none => pack [(3, 0), (1, 1)]

/-- Megabytes per second over the last 1 ms of a channel's traffic in one direction. -/
def dmcTraffic (s : State) (d : Dmc) (write : Bool) : Nat :=
  ((d.recent.filter fun r => decide (s.time.tick < r.1 + 100000) && r.2.2 = write).map (·.2.1)).foldl (· + ·) 0 / 1000

/-- Registers of 0x0E00 to 0x12FF (R313, R314). -/
def winDmc (s : State) (o : Nat) : Nat :=
  if o < 0xF00 then
    let c := (o - 0xE00) / 64
    let d := dmcAt s c
    let r := o % 64
    if nDmc s ≤ c then 0
    else if r = 0x00 then pack [(3, dmcCode d.st), (1, b2n (dmcReady d)), (1, b2n d.tracking), (1, b2n d.ueFrozen)]
    else if r = 0x04 then d.epoch.toNat
    else if r = 0x08 then
      pack [(3, d.speed), (1, d.ranks), (1, d.density), (2, d.map), (2, s.interleave), (1, d.ref2x), (8, d.pageIdle), (8, d.pdIdle), (6, d.capGib)]
    else if r = 0x0C then
      pack [(7, d.queue.length), (5, captureUsed d), (4, (((upFrom 2 0).map fun k => (tget (0 : Int) d.postponed k).toNat)).foldl max 0)]
    else if r = 0x10 then pack [(16, min 0xFFFF (dmcTraffic s d false)), (16, min 0xFFFF (dmcTraffic s d true))]
    else if r = 0x14 then pack [(16, d.latMax), (16, d.overs)]
    else if r = 0x18 then d.ceCount
    else if r = 0x1C then d.ueCount
    else if r < 0x28 then
      if d.ueFrozen then wordAt (pack [(40, d.logAddr), (1, 1), (3, d.logType), (4, d.logMaster)]) 0x20 r else 0
    else if r < 0x30 then wordAt d.logTime 0x28 r
    else if r = 0x30 then pack [(16, d.scrubPos / 0x100000), (16, d.scrubPasses)]
    else if r = 0x34 then pack [(16, d.retrains), (8, d.fulls), (6, d.margin), (2, d.lastKind)]
    else if r = 0x38 then
      pack [(1, b2n (d.pd.contains 0)), (1, b2n (d.pd.contains 1)), (1, b2n d.sr), (1, b2n (d.sr && d.ranks = 1)), (9, d.poisoned.length)]
    else 0
  else
    let c := (o - 0xF00) / 256
    let r := (o - 0xF00) % 256
    if nDmc s ≤ c ∨ 144 ≤ r then 0 else wordAt (tget (0 : DWord) (dmcAt s c).delays (r / 8)).toNat (r / 8 * 8) r

/-- Registers of 0x1400 to 0x17FF (R411, R419, R427). -/
def winFaults (s : State) (o : Nat) : Nat :=
  let sum (p : FaultBlk → Bool) : Nat := maskOf ((blocks.filter fun b => p (fltAt s b)).map blockNum)
  if o < 0x1740 then
    match blockOf ((o - 0x1400) / 64) with
    | none => 0
    | some b =>
      let f := fltAt s b
      let r := o % 64
      if r = 0x00 then f.status.toNat
      else if r = 0x04 then f.mask.toNat
      else if r < 0x10 then wordAt (pack ((upFrom 32 0).map fun i => (2, fltClass f i))) 8 r
      else if r < 0x18 then
        wordAt (pack [(48, f.object), (4, f.master), (3, f.acc), (1, b2n f.valid), (5, f.bit)]) 0x10 r
      else if r < 0x20 then wordAt f.time 0x18 r
      else if r = 0x20 then escCfg b f
      else if r < 0x28 then 0
      else if r < 0x30 then wordAt f.deadline 0x28 r
      else if r < 0x38 then wordAt (maskOf (f.scope.filter fun x => decide (x < 64))) 0x30 r
      else if r = 0x38 then f.count
      else 0
  else if o = 0x1780 then sum (fun f => f.status ≠ 0) + 2 ^ 16 * sum fun f => holdsClass f 1
  else if o = 0x1784 then sum (·.running) + 2 ^ 16 * sum (·.reacted)
  else if o = 0x1788 then
    pack [(1, b2n s.grave.held), (4, s.grave.block), (1, b2n s.grave.regParity), (1, b2n (faultLow s)), (1, b2n (okPin s)), (1, b2n (safePin s))]
  else if o < 0x1790 then 0
  else if o < 0x1798 then wordAt s.grave.time 0x1790 o
  else if o = 0x17A0 then s.grave.restore.toNat
  else if o = 0x17A4 then s.grave.restoreCause
  else if 0x17A8 ≤ o ∧ o < 0x17B0 then wordAt s.grave.restoreTick 0x17A8 o
  else 0

/-- Registers of 0x1800 to 0x1FFF (R361). -/
def winAux (s : State) (o : Nat) : Nat :=
  if o < 0x1C00 then
    let x := auxAt s ((o - 0x1800) / 16)
    match o % 16 with
    | 0 =>
      pack [(16, x.code), (1, b2n x.bound.isSome), (1, b2n x.cleared), (1, b2n x.short), (1, b2n (x.slewNext.isSome || x.holdEnd.isSome)),
        (2, x.shape)]
    | 4 => pack [(16, x.target), (16, x.clearCode)]
    | 8 => x.epoch.toNat
    | 12 => pack [(16, x.meas)]
    | _ => 0
  else if o = 0x1C00 then pack [(12, s.svc.selfResid), (6, s.svc.selfWorst), (14, s.svc.selfRuns)]
  else 0

/-- Free MiB of the journal export area, of the smallest flash (R377, log 13). -/
def exportFree (s : State) : Nat :=
  (0x4000000 - 0x2420000 - ((s.dev.exports.filter (·.flash)).map (·.bytes)).foldl (· + ·) 0) / 0x100000

/-- Registers of 0x2000 to 0x2FFF (R375, R380). -/
def winService (s : State) (o : Nat) : Nat :=
  let v := s.svc
  if o = 0x2000 then
    pack [(1, b2n v.otpOk), (1, b2n v.storeOk), (1, b2n s.kpr.cal), (1, b2n v.running), (5, s.md.calItems), (1, b2n v.lastFail), (6, 0), (16, v.otpBad)]
  else if o = 0x2004 then v.calSeq
  else if o = 0x2008 then pack [(10, v.paceMargin), (6, v.paceWorst), (10, v.paceVcore)]
  else if o = 0x200C then pack [(9, v.synResid), (10, v.synWorst)]
  else if o = 0x2010 then pack [(16, v.groomRate), (12, v.eyePeriod)]
  else if o = 0x2014 then pack [(17, v.skewPeriod)]
  else if 0x2020 ≤ o ∧ o < 0x20A0 then
    let w := (o - 0x2020) / 4
    maskOf ((v.synFail.filter fun c => c / 32 = w).map (· % 32))
  else if 0x2100 ≤ o ∧ o < 0x2170 then telemWord s ((o - 0x2100) / 4)
  else if o = 0x2200 then pack [(20, v.maxErase), (2, v.flashMode), (1, b2n v.wearWarn)]
  else if o = 0x2204 then
    if s.kpr.flash then pack [(12, (0x200000 - s.dev.storeUsed) / 1024), (11, exportFree s)] else 0
  else 0

/-- Minutes left in a session opened by authentication. -/
def sessionLeft (s : State) : Nat :=
  match s.sec.sessionEnd with
  | some t => ceilDiv (t - s.time.tick) 6000000000
  | none => 0

/-- Registers of 0x3000 to 0x3FFF (R406, R407). -/
def winSecurity (s : State) (o : Nat) : Nat :=
  let x := s.sec
  if o = 0x3000 then
    pack [(2, s.dev.lifecycle), (2, x.dbg), (1, b2n x.nonce.isSome), (1, b2n (authLocked s)), (2, x.authFails), (1, b2n (bscanOk s)),
      (1, b2n x.halted), (1, b2n s.dev.keyLocked)]
  else if o = 0x3004 then x.epoch.toNat
  else if o = 0x3008 then pack [(16, sessionLeft s), (16, x.sessions)]
  else if o = 0x3010 then
    pack (((upFrom 16 0).map fun k => (1, b2n (ctxEnabled s k))) ++ (upFrom 16 0).map fun k => (1, b2n (ctxSecure s k)))
  else if o = 0x3020 then pack [(2, s.md.power), (1, b2n x.entering), (1, b2n x.waking), (3, x.wakeCause), (5, x.wakeIndex)]
  else if o = 0x3024 then x.pwrEpoch.toNat
  else if o = 0x3028 then x.wakeEvp.toNat
  else if o = 0x302C then pack [(16, x.wakeSwl.toNat), (1, b2n x.wakeColony)]
  else if 0x3030 ≤ o ∧ o < 0x3038 then wordAt x.wakeTick 0x3030 o
  else if o = 0x3038 then x.pwrLast
  else if 0x3400 ≤ o ∧ o < 0x3800 then
    pack ((upFrom 4 (o - 0x3400)).map fun c => (8, if c < nCells s then ownByte (cellOwner s c) else 0))
  else if 0x3800 ≤ o ∧ o < 0x3840 then pack ((upFrom 4 (o - 0x3800)).map fun a => (8, ownByte (auxAt s a).own))
  else 0

/-- Registers of 0x4000 to 0x4FFF (R445). -/
def winJournal (s : State) (o : Nat) : Nat :=
  let j := s.jnl
  let r := s.rpl
  let ck (c : Option (Nat × Nat × Snap)) : Nat := match c with
    | some (_, _, p) => p.tick
    | none => 0
  if o = 0x4000 then pack [(2, j.st), (1, b2n (j.st ≠ 0 && !j.stop))]
  else if o < 0x4008 then 0
  else if o < 0x4010 then wordAt (j.written - j.staged) 0x4008 o
  else if o < 0x4018 then wordAt (ck j.ckpts.head?) 0x4010 o
  else if o < 0x4020 then wordAt (ck j.ckpts.getLast?) 0x4018 o
  else if o = 0x4020 then j.gaps
  else if o = 0x4024 then j.lost
  else if o = 0x4100 then pack [(3, r.st), (1, b2n r.gapEnd)]
  else if 0x4108 ≤ o ∧ o < 0x4110 then wordAt r.delta 0x4108 o
  else if o = 0x4110 then
    if r.misValid then pack [(10, r.misCell), (1, 1), (2, r.misCause), (1, b2n r.coarse)] else 0
  else if 0x4118 ≤ o ∧ o < 0x4120 then wordAt r.misN 0x4118 o
  else if 0x4120 ≤ o ∧ o < 0x4128 then wordAt r.misTick 0x4120 o
  else if o = 0x4128 then pack [(16, min 0xFFFF r.mismatches), (16, notReproCount s)]
  else 0

/-- The REFLOCK flag: the domain of a bound cell carries no clock (live). -/
def reflockFlag (s : State) (x : Cell) : Bool := x.st ≠ .off && !((domAt s x.domain).locked && (domAt s x.domain).guardOpen)

/-- `CELL_FLAGS` with its live bit. -/
def cellFlags (s : State) (x : Cell) : Nat := (x.flags &&& ~~~(0x100 : Word)).toNat + 256 * b2n (reflockFlag s x)

/-- Registers of a cell (R89). -/
def winCell (s : State) (c r : Nat) : Nat :=
  let x := cellAt s c
  match r with
  | 0x00 =>
    pack [(4, cellCode x.st), (12, if playing x.st then x.step else 0), (1, b2n (decide (0 < x.dead))), (1, b2n (cellPending s c ≠ 0)), (2, x.domain),
      (2, x.bridge), (1, b2n x.slip), (6, x.group)]
  | 0x04 => x.epoch.toNat
  | 0x08 => x.passes % 2 ^ 32
  | 0x0C => cellFlags s x
  | 0x10 => x.lateCount
  | 0x14 => x.underrunCount
  | 0x18 => x.emitCount.toNat
  | 0x1C => pack ((upFrom 4 0).map fun l => (1, b2n (loopAt x l).active))
  | _ => 0

/-- Synthesis registers of a cell (R118). -/
def winSyn (s : State) (c r : Nat) : Nat :=
  let x := cellAt s c
  match r with
  | 0 =>
    pack [(1, b2n x.clipPre), (1, b2n x.clipOut), (1, b2n x.pdEn), (1, b2n (x.st ≠ .off && !isPow2 (ratioOf x.ratio))), (4, x.format)]
  | 4 => x.clipPreCount
  | 8 => x.clipOutCount
  | _ => x.ddsHi.toNat

/-- Comb and PQM registers of a hive (R143, R170). -/
def winHive (s : State) (h : Nat) (pqm : Bool) (r : Nat) : Nat :=
  let x := hiveAt s h
  if pqm then
    match r with
    | 0x00 =>
      pack [(7, x.credits), (15, (s.queues.filter fun q => decide (0 < q.2.live) && hiveOf (q.1 / 1024) = h).length)]
    | 0x04 => x.pqmEpoch.toNat
    | 0x08 => x.refillCount.toNat
    | 0x0C => pack [(16, x.latMax), (16, x.latOver)]
    | 0x10 => x.skipCount
    | _ => 0
  else
    match r with
    | 0x00 =>
      pack [(1, b2n x.playReady), (1, b2n x.catchReady), (2, x.power), (13, actCount s h 0), (12, actCount s h 1)]
    | 0x04 => x.epoch.toNat
    | 0x08 => pack [(16, x.cePlay), (16, x.ceCatch)]
    | 0x0C => x.busy
    | 0x10 => pack [(13, x.groomGranule), (1, x.groomBank), (18, x.groomPasses)]
    | 0x14 => pack [(5, x.sparesPlay.length), (5, x.sparesCatch.length), (12, x.bad.length)]
    | 0x18 => x.ueCount
    | _ => 0

/-- Stream registers of a cell (R169). -/
def winStream (s : State) (c r : Nat) : Nat :=
  let x := cellAt s c
  match r with
  | 0 =>
    match currentQueue s c with
    | some i =>
      pack [(10, i % 1024), (1, 1), (1, b2n x.inGap), (7, qFill (queueAt s i)), (7, qInflight (queueAt s i))]
    | none => pack [(11, 0), (1, b2n x.inGap)]
  | 4 => x.gapCount
  | 8 => x.slipTotal
  | _ => if 0 < x.gapRun then min x.gapRun 0xFFFFFFFF else x.lastGap

/-- Registers of a capture channel (R200). -/
def winCap (s : State) (c r : Nat) : Nat :=
  let x := capAt s c
  match r with
  | 0x00 =>
    pack [(4, capCode x.st), (1, x.mode), (2, x.rearm), (2, openRecs x), (1, b2n (x.st ≠ .off && ringOffline s x)),
      (1, b2n (x.st ≠ .off && (linkAt s (x.slot / 256)).st ≠ .data))]
  | 0x04 => x.epoch.toNat
  | 0x08 => x.seq % 2 ^ 32
  | 0x0C => x.wr % 2 ^ 32
  | 0x10 => x.missed
  | 0x14 => x.shots % 2 ^ 32
  | 0x18 => x.flags.toNat
  | 0x1C => x.gapSamples
  | _ => 0

/-- Registers of 0x2C000 to 0x2D403 (R222, R224). -/
def winWaggle (s : State) (o : Nat) : Nat :=
  if o < 0x2D000 then
    let x := chanAt s ((o - 0x2C000) / 8)
    if o % 8 = 0 then
      pack [(1, b2n (levelAt x.ops s.time.tick)), (1, b2n (chanEnabled x)), (1, b2n x.seen), (1, b2n x.loopCut), (12, 0), (16, x.loopSrc)]
    else x.count.toNat
  else if o < 0x2D200 then
    let x := ctrAt s ((o - 0x2D000) / 8)
    if o % 8 = 0 then x.value else b2n x.held
  else if o < 0x2D400 then
    let x := tmrAt s ((o - 0x2D200) / 8)
    if o % 8 = 0 then x.next % 2 ^ 32
    else pack [(1, b2n x.running), (31, min 0x7FFFFFFF (match x.remaining with
      | some n => n
      | none => if x.programmed then 0x7FFFFFFF else 0))]
  else if o = 0x2D400 then s.wagEpoch.toNat
  else 0

/-- Registers of a task input (R223). -/
def winTask (s : State) (t r : Nat) : Nat :=
  let x := taskAt s t
  if !taskHere s t then 0
  else if r = 0 then
    pack [(1, b2n x.coincident), (2, x.coCount), (10, x.coChannel), (1, b2n x.overrun), (1, b2n x.gated), (1, b2n x.late), (16, x.ovrCount)]
  else x.act.toNat

/-- The 32-bit word of the direct status window at an offset that is a multiple of 4. -/
def windowWord (s : State) (o : Nat) : Nat :=
  let cells := nCells s
  if o < 0x300 then winHead s o
  else if o < 0x800 then winColony s o
  else if o < 0xE00 then winLinks s o
  else if o < 0x1300 then winDmc s o
  else if o < 0x1400 then 0
  else if o < 0x1800 then winFaults s o
  else if o < 0x2000 then winAux s o
  else if o < 0x3000 then winService s o
  else if o < 0x4000 then winSecurity s o
  else if o < 0x5000 then winJournal s o
  else if o < 0x10000 then 0
  else if o < 0x18000 then (if (o - 0x10000) / 32 < cells then winCell s ((o - 0x10000) / 32) (o % 32) else 0)
  else if o < 0x1C000 then (if (o - 0x18000) / 16 < cells then winSyn s ((o - 0x18000) / 16) (o % 16) else 0)
  else if o < 0x1C800 then (if (o - 0x1C000) / 32 < nHives s then winHive s ((o - 0x1C000) / 32) false (o % 32) else 0)
  else if o < 0x1D000 then (if (o - 0x1C800) / 32 < nHives s then winHive s ((o - 0x1C800) / 32) true (o % 32) else 0)
  else if o < 0x20000 then 0
  else if o < 0x24000 then (if (o - 0x20000) / 16 < cells then winStream s ((o - 0x20000) / 16) (o % 16) else 0)
  else if o < 0x2C000 then (if (o - 0x24000) / 32 < cells then winCap s ((o - 0x24000) / 32) (o % 32) else 0)
  else if o < 0x2D404 then winWaggle s o
  else if o < 0x30000 then 0
  else if o < 0x44C00 then winTask s ((o - 0x30000) / 8) (o % 8)
  else 0

end Sys2Proof.Machine
end

