-- ==== Sys2Proof/Machine/KeeperCmds.lean ====
section
/-! DEFINITION. The keeper's own commands (R336): information, window reads, restarts, host settings and firmware images. -/

namespace Sys2Proof.Machine

/-! ### The end of entry to STANDBY (R390, R403) -/

/-- The dirty lines of the context cache are written back, the cache is invalidated, the banks enter retention and the colony
ports power down (R135, R390). -/
def retainBanks (s : State) : State :=
  let s1 := s.hives.foldl (fun s p =>
    if p.2.power = 0 then modHive s p.1 fun x => { x with power := 1, playReady := false, catchReady := false } else s) s
  { s1 with sec := { s1.sec with sramRet := true }, inner := { s1.inner with lines := [] },
            col := { s1.col with upState := 0, dnState := 0,
                                 ports := s1.col.ports.foldl (fun t p => tset {} t p.1 { p.2 with st := 0, due := [] }) s1.col.ports } }

/-- The words of the window stay as they stand now (R403). -/
def freezeWindow (s : State) : State :=
  { s with sec := { s.sec with frozen := (upFrom 70400 0).map fun i => windowWord s (4 * i) } }

/-- The registers that stay live in Retain: `DEVTIME`, `MODE_STATE`, `PWR_STATE` (R403). -/
def liveInRetain (o : Nat) : Bool := o = 0x04 || o = 0x100 || o = 0x104 || o = 0x3020

/-- The 32-bit word that a read of the window returns at an offset that is a multiple of 4: in Retain as it stood at entry. -/
def windowNow (s : State) (o : Nat) : Nat :=
  if inRetain s && !liveInRetain o then s.sec.frozen.getD (o / 4) 0 else windowWord s o

/-- STANDBY_ENTRY_DONE: the power state is reached; of the wakes that wait and are due the one of the lowest cause begins now
(R394). -/
def standbyEntryDone (s : State) : State :=
  if s.md.mode ≠ .standby ∨ !s.sec.entering then s
  else
    let now := s.time.tick
    let done (u : State) : State := { u with md := { u.md with power := s.sec.entryTarget }, sec := { u.sec with entering := false } }
    let s1 := if s.sec.entryTarget = 3 then freezeWindow (done (retainBanks s)) else done s
    match firstWake ((s.sec.wakeAt.filter fun w => decide (w.1 ≤ now)).map fun w => (now, w.2)) with
    | some (t, c, i) => wakeBegin t c i s1
    | none => s1

/-- STANDBY_ENTRY_DONE: R390, R394. -/
def execStandbyEntryDone (s : State) : Host.Outcome State Fault Refusal := act s standbyEntryDone

/-! ### Information -/

/-- `NOP`: RESULT repeats ARGS bytes 0 to 33. -/
def specNop (args : List Byte) : CSpec := { op := 0x0000, noTime := true, hold := false, result := fit 34 args }

/-- NOP: R336. -/
def execNop (h : Hdr) (args : List Byte) (s : State) : Host.Outcome State Fault Refusal := berza h (.nop h args) (specNop args) s

/-- RESULT of `DEVICE_INFO`. -/
def deviceInfoRes (s : State) : List Byte :=
  res [(4, deviceCaps s), (1, 0xB0), (8, s.dev.serial), (4, fwState s), (1, s.dev.lifecycle), (1, s.col.role), (1, s.col.devnum)]

/-- `DEVICE_INFO`. -/
def specDeviceInfo (s : State) : CSpec := { op := 0x0001, noTime := true, hold := false, result := deviceInfoRes s }

/-- DEVICE_INFO: R336. -/
def execDeviceInfo (h : Hdr) (s : State) : Host.Outcome State Fault Refusal := berza h (.deviceInfo h) (specDeviceInfo s) s

/-- `READY_READ`. -/
def specReadyRead : CSpec := { op := 0x0002, cls := .d }

/-- RESULT of `READY_READ`. -/
def readyRes (s : State) : List Byte :=
  res [(4, ready0 s), (4, ready1 s), (4, ready2 s), (4, ready3 s), (4, s.kpr.readyEpoch.toNat)]

/-- The decision of `READY_READ`. -/
def decReadyRead (x : Held) (s : State) : State := finish s x 0x0002 none .ok (readyRes s)

/-- READY_READ: R336. -/
def execReadyRead (h : Hdr) (s : State) : Host.Outcome State Fault Refusal := berza h (.readyRead h) specReadyRead s

/-- `WINDOW_READ`. -/
def specWindowRead (offset count : Nat) : CSpec :=
  { op := 0x0003, cls := .d,
    err := if offset % 4 ≠ 0 ∨ count = 0 ∨ 8 < count ∨ 0x80000 < offset + 4 * count then some .badArg else none }

/-- The decision of `WINDOW_READ`: COUNT words of the window in one pass. -/
def decWindowRead (x : Held) (offset count : Nat) (s : State) : State :=
  finish s x 0x0003 none .ok ((upFrom count 0).flatMap fun i => le 4 (windowNow s (offset + 4 * i)))

/-- WINDOW_READ: R336, R338. -/
def execWindowRead (h : Hdr) (offset count : Nat) (s : State) : Host.Outcome State Fault Refusal :=
  berza h (.windowRead h offset count) (specWindowRead offset count) s

/-! ### Restart, host settings, bulk window -/

/-- `KEEPER_RESTART`. -/
def specKeeperRestart (h : Hdr) (image : Nat) (s : State) : CSpec :=
  { op := 0x0022, cls := .d, permitted := h.ctx = 0,
    err := if 2 < image then some .badArg
      else if image ≠ 0 ∧ (imgBoots s (image - 1)).isNone then some .fwAuth else none }

/-- The decision of `KEEPER_RESTART`: the reply, and the restart 10 microseconds after it; IMAGE 0 is the running image, or in
RECOVERY the boot ROM's choice (R342). -/
def decKeeperRestart (x : Held) (image : Nat) (s : State) : State :=
  if image ≠ 0 ∧ (imgBoots s (image - 1)).isNone then finish s x 0x0022 none .fwAuth
  else
    let img := if image = 0 then (if s.kpr.st = 4 then 0 else s.kpr.activeImg + 1) else image
    finish { s with kpr := { s.kpr with restartImg := img, restartAt := some (s.kpr.restartAt.getD (s.time.tick + 1000)) } } x 0x0022 none .ok

/-- KEEPER_RESTART: R317, R336. -/
def execKeeperRestart (h : Hdr) (image : Nat) (s : State) : Host.Outcome State Fault Refusal :=
  berza h (.keeperRestart h image) (specKeeperRestart h image s) s

/-- A channel that `HOST_SET` may name: none, or one whose SOURCE is the keeper code given. -/
def noticeOk (s : State) (w code : Nat) : Bool :=
  w = 0xFFFF || (decide (w < 512) && !chanRelay (chanAt s w) && chanSource (chanAt s w) = code)

/-- A channel of another context than 0. -/
def notOurs (s : State) (w : Nat) : Bool := decide (w < 512) && (chanAt s w).own.owner ≠ 0

/-- `HOST_SET`. -/
def specHostSet (h : Hdr) (spiMask noticeCh restartCh : Nat) (s : State) : CSpec :=
  { op := 0x0030, permitted := h.ctx = 0 && !notOurs s noticeCh && !notOurs s restartCh,
    err := if spiMask < 0x10000 ∧ noticeOk s noticeCh 0xA3F0 ∧ noticeOk s restartCh 0xA3F1 then none else some .badArg }

/-- The decision of `HOST_SET`: bit 0 of the SPI mask is always set. -/
def decHostSet (spiMask noticeCh restartCh : Nat) (s : State) : State :=
  { s with kpr := { s.kpr with spiMask := BitVec.ofNat 16 spiMask ||| 1, noticeCh := noticeCh, restartCh := restartCh } }

/-- HOST_SET: R336. -/
def execHostSet (h : Hdr) (spiMask noticeCh restartCh : Nat) (s : State) : Host.Outcome State Fault Refusal :=
  berza h (.hostSet h spiMask noticeCh restartCh) (specHostSet h spiMask noticeCh restartCh s) s

/-- A base that a bulk window can have (R323). -/
def baseOk (b : Nat) : Bool := b = 2 ^ 40 || (b % 0x100000 = 0 && decide (b + 0x10000000 ≤ 2 ^ 40))

/-- `BULK_WINDOW_SET`. -/
def specBulkWindowSet (base : Nat) : CSpec := { op := 0x0031, cls := .d, err := if baseOk base then none else some .badArg }

/-- The decision of `BULK_WINDOW_SET` (R324). -/
def decBulkWindowSet (x : Held) (base : Nat) (s : State) : State :=
  finish { s with contexts := tmod {} s.contexts x.ctx fun c => { c with window := some base } } x 0x0031 none .ok

/-- BULK_WINDOW_SET: R323, R324, R336. -/
def execBulkWindowSet (h : Hdr) (base : Nat) (s : State) : Host.Outcome State Fault Refusal :=
  berza h (.bulkWindowSet h base) (specBulkWindowSet base) s

/-! ### Firmware images (R336, R346) -/

/-- Change an image area. -/
def modImg (s : State) (i : Nat) (f : Image → Image) : State :=
  if i = 0 then { s with dev := { s.dev with imgA := f s.dev.imgA } } else { s with dev := { s.dev with imgB := f s.dev.imgB } }

/-- The image runs. -/
def imgRuns (s : State) (i : Nat) : Bool := s.kpr.st = 2 && s.kpr.activeImg = i

/-- A command on firmware images: context 0 and a usable flash (R342). -/
def specFw (h : Hdr) (op : Nat) (cls : RClass) (err : Option Err) (s : State) : CSpec :=
  { op := op, cls := cls, permitted := h.ctx = 0, ready := s.kpr.flash, err := err }

/-- IMAGE is 1 or 2. -/
def imageOk (image : Nat) : Bool := image = 1 || image = 2

/-- `FW_INFO`: of each image valid, version, SVN; active and preferred image; minimum SVN. -/
def specFwInfo (s : State) : CSpec :=
  let one (i : Nat) : List (Nat × Nat) := match imgBoots s i with
    | some x => [(1, 1), (2, x.version), (1, x.svn)]
    | none => match (imgAt s i).info with
      | some x => [(1, 0), (2, x.version), (1, x.svn)]
      | none => [(1, 0), (2, 0), (1, 0)]
  { op := 0x0040, noTime := true, ready := s.kpr.flash, hold := false,
    result := res (one 0 ++ one 1 ++ [(1, s.kpr.activeImg), (1, s.dev.prefImg), (1, s.dev.svnMin)]) }

/-- FW_INFO: R336. -/
def execFwInfo (h : Hdr) (s : State) : Host.Outcome State Fault Refusal := berza h (.fwInfo h) (specFwInfo s) s

/-- `FW_STAGE`. -/
def specFwStage (h : Hdr) (image size : Nat) (s : State) : CSpec :=
  specFw h 0x0041 .c (if !imageOk image ∨ size = 0 ∨ 0x1000000 < size then some .badArg
    else if imgRuns s (image - 1) then some .badState else none) s

/-- The decision of `FW_STAGE`: the erase begins; the image is none from then on. -/
def decFwStage (x : Held) (image size : Nat) (s : State) : State :=
  if imgRuns s (image - 1) then finish s x 0x0041 none .badState
  else beginWork (modImg s (image - 1) fun _ => { staged := size }) x

/-- FW_STAGE: R336. -/
def execFwStage (h : Hdr) (image size : Nat) (s : State) : Host.Outcome State Fault Refusal :=
  berza h (.fwStage h image size) (specFwStage h image size s) s

/-- A flash operation failed: FLASH_ERR (R347) and the reply E_MEM_ERROR. -/
def flashFailed (x : Held) (op : Nat) (s : State) : State := finish (kprFault 6 1 0 s) x op none .memError

/-- FLASH_ERASE_DONE ends the oldest erase. -/
def flashEraseDone (ok : Bool) (s : State) : State :=
  match findWork s fun i => match i with | .fwStage .. => true | _ => false with
  | none => s
  | some x => match x.cmd with
    | .fwStage _ image _ =>
      let s1 := endWork s x
      if ok then finish (modImg s1 (image - 1) fun m => { m with erased := true }) x 0x0041 none .ok else flashFailed x 0x0041 s1
    | _ => s

/-- FLASH_ERASE_DONE: R336. -/
def execFlashEraseDone (ok : Bool) (s : State) : Host.Outcome State Fault Refusal := act s (flashEraseDone ok)

/-- What `FW_DATA` needs of its image: staged and erased; data within SIZE at a rising offset. -/
def fwDataErr (s : State) (image offset count : Nat) : Option Err :=
  if !imageOk image ∨ count = 0 then some .badArg
  else
    let m := imgAt s (image - 1)
    if !m.erased || imgRuns s (image - 1) then some .badState
    else if m.staged < offset + count ∨ offset < m.upto then some .badArg else none

/-- `FW_DATA`. -/
def specFwData (h : Hdr) (image offset count : Nat) (data : List Byte) (s : State) : CSpec :=
  specFw h 0x0042 .c (if 3528 < count ∨ data.length ≠ count then some .badArg else fwDataErr s image offset count) s

/-- The decision of `FW_DATA`: programming begins. -/
def decFwData (x : Held) (image offset count : Nat) (s : State) : State :=
  match fwDataErr s image offset count with
  | some e => finish s x 0x0042 none e
  | none => beginWork (modImg s (image - 1) fun m => { m with upto := offset + count, info := none }) x

/-- FW_DATA: R336. -/
def execFwData (h : Hdr) (image offset count : Nat) (data : List Byte) (s : State) : Host.Outcome State Fault Refusal :=
  berza h (.fwData h image offset count data) (specFwData h image offset count data s) s

/-- FW_PROGRAM_DONE ends the oldest programming. -/
def fwProgramDone (ok : Bool) (s : State) : State :=
  match findWork s fun i => match i with | .fwData .. => true | _ => false with
  | none => s
  | some x => match x.cmd with
    | .fwData _ image _ count _ =>
      let s1 := endWork s x
      if ok then finish (modImg s1 (image - 1) fun m => { m with written := m.written + count }) x 0x0042 none .ok
      else flashFailed x 0x0042 s1
    | _ => s

/-- FW_PROGRAM_DONE: R336. -/
def execFwProgramDone (ok : Bool) (s : State) : Host.Outcome State Fault Refusal := act s (fwProgramDone ok)

/-- SIZE bytes have been staged and written. -/
def fwWhole (s : State) (image : Nat) : Bool :=
  let m := imgAt s (image - 1)
  m.erased && m.staged ≠ 0 && m.written = m.staged

/-- `FW_VERIFY`. -/
def specFwVerify (h : Hdr) (image : Nat) (s : State) : CSpec :=
  specFw h 0x0043 .c (if !imageOk image then some .badArg else if !fwWhole s image then some .badState else none) s

/-- The decision of `FW_VERIFY`: the check begins. -/
def decFwVerify (x : Held) (image : Nat) (s : State) : State :=
  if fwWhole s image then beginWork s x else finish s x 0x0043 none .badState

/-- FW_VERIFY: R336, R346. -/
def execFwVerify (h : Hdr) (image : Nat) (s : State) : Host.Outcome State Fault Refusal :=
  berza h (.fwVerify h image) (specFwVerify h image s) s

/-- FW_VERIFY_DONE: what the check of signature, hash and header found; a load section over 1.75 MiB or an SVN below the minimum
fails too (R337, R346). -/
def fwVerifyDone (verdict : Option ImgInfo) (s : State) : State :=
  match findWork s fun i => match i with | .fwVerify .. => true | _ => false with
  | none => s
  | some x => match x.cmd with
    | .fwVerify _ image =>
      let s1 := modImg (endWork s x) (image - 1) fun m => { m with info := verdict }
      finish s1 x 0x0043 none (if (imgBoots s1 (image - 1)).isSome then .ok else .fwAuth)
    | _ => s

/-- FW_VERIFY_DONE: R336, R346. -/
def execFwVerifyDone (verdict : Option ImgInfo) (s : State) : Host.Outcome State Fault Refusal := act s (fwVerifyDone verdict)

/-- `FW_SELECT`. -/
def specFwSelect (h : Hdr) (image : Nat) (s : State) : CSpec :=
  specFw h 0x0044 .a (if !imageOk image then some .badArg
    else if (imgBoots s (image - 1)).isNone then some .fwAuth else none) s

/-- The decision of `FW_SELECT`: the preferred image for the next keeper start. -/
def decFwSelect (image : Nat) (s : State) : State :=
  if (imgBoots s (image - 1)).isSome then { s with dev := { s.dev with prefImg := image - 1 } } else s

/-- FW_SELECT: R336, R346. -/
def execFwSelect (h : Hdr) (image : Nat) (s : State) : Host.Outcome State Fault Refusal :=
  berza h (.fwSelect h image) (specFwSelect h image s) s

/-- `FW_COMMIT`. -/
def specFwCommit (h : Hdr) (s : State) : CSpec := specFw h 0x0045 .c none s

/-- The decision of `FW_COMMIT`: the fuses are being blown. -/
def decFwCommit (x : Held) (s : State) : State := beginWork s x

/-- FW_COMMIT: R336. -/
def execFwCommit (h : Hdr) (s : State) : Host.Outcome State Fault Refusal := berza h (.fwCommit h) (specFwCommit h s) s

/-- FW_COMMIT_DONE: the minimum SVN is raised to that of the running image. -/
def fwCommitDone (ok : Bool) (s : State) : State :=
  match findWork s fun i => match i with | .fwCommit _ => true | _ => false with
  | none => s
  | some x =>
    let s1 := endWork s x
    if ok then finish { s1 with dev := { s1.dev with svnMin := max s1.dev.svnMin s1.kpr.svn } } x 0x0045 none .ok
    else finish s1 x 0x0045 none .memError

/-- FW_COMMIT_DONE: R336. -/
def execFwCommitDone (ok : Bool) (s : State) : Host.Outcome State Fault Refusal := act s (fwCommitDone ok)

end Sys2Proof.Machine
end

