-- ==== Sys2Proof/Machine/Tunnel.lean ====
section
/-! DEFINITION. `COL_TUNNEL` on the manager (R256, R456), and fragments on their way (R242). -/

namespace Sys2Proof.Machine

/-- A worker's port is down: star port DEVICE, or `CL_DN` for the chain. -/
def pathDown (s : State) (device path : Nat) : Bool :=
  if path = 0 then !starPort s device || decide ((portAt s device).st < 2) else decide (s.col.dnState < 2)

/-- `COL_TUNNEL`: the caller is context 0 or the context that the embedded frame names. -/
def specColTunnel (h : Hdr) (device path : Nat) (frame : List Byte) (s : State) : CSpec :=
  { op := 0x0B02, unit := some (10, 0), cls := .c, modeOk := modeLoad s,
    permitted := s.col.role = 1 && (h.ctx = 0 || (parseFrame frame).ctx = h.ctx),
    err := if device = 0 ∨ 63 < device ∨ 1 < path ∨ frame.length ≠ 64 then some .badArg
      else if pathDown s device path then some .colLink else none }

/-- The decision of `COL_TUNNEL`: the frame is on its way, and its reply is awaited. -/
def decColTunnel (x : Held) (device path : Nat) (frame : List Byte) (s : State) : State :=
  if pathDown s device path then finish s x 0x0B02 (some (10, 0)) .colLink
  else beginWork (tunnelOut (if path = 0 then device else 65) 0 device s.col.devnum 5 none frame s) x

/-- COL_TUNNEL: R256. -/
def execColTunnel (h : Hdr) (device path : Nat) (frame : List Byte) (s : State) : Host.Outcome State Fault Refusal :=
  berza h (.colTunnel h device path frame) (specColTunnel h device path frame s) s

/-- The reply that answers a tunnelled frame: the same opcode, context, mailbox and SEQ. -/
def answers (frame reply : List Byte) : Bool :=
  let f := parseFrame frame
  let r := parseFrame reply
  f.opcode = r.opcode && f.ctx = r.ctx && f.mb = r.mb && f.seq = r.seq

/-- A worker's reply has come back: the `COL_TUNNEL` that waits for it is answered with a status frame and the reply; one that
comes too late is discarded (R456). -/
def tunnelReply (reply : List Byte) (s : State) : State :=
  match findWork s fun i => match i with
      | .colTunnel _ _ _ frame => answers frame reply
      | _ => false with
  | none => s
  | some x =>
    let s1 := endWork s x
    if x.reply then
      writeReply (modMb s1 x.ctx x.mb fun m => { m with lastStatus := .ok }) x.ctx x.mb
        { opcode := 0x0B02, seq := x.seq, status := .ok, sampleTick := s.time.tick, epoch := epochOf s1 (some (10, 0)),
          decTick := x.dec, raw := reply }
    else s1

/-- TUNNEL_TIMEOUT: 10 ms after its decision a `COL_TUNNEL` without a reply fails. -/
def tunnelTimeout (s : State) : State :=
  match findWork s fun i => match i with
      | .colTunnel .. => true
      | _ => false with
  | none => s
  | some x => if s.time.tick < x.dec + 1000000 then s else finish (endWork s x) x 0x0B02 (some (10, 0)) .colTimeout

/-- TUNNEL_TIMEOUT: R256, R456. -/
def execTunnelTimeout (s : State) : Host.Outcome State Fault Refusal := act s tunnelTimeout

/-- A fragment of `n` bytes taken in order: the fragments so far, or a whole frame of 64 bytes. -/
def takeFragment (buf : List Byte) (n i : Nat) (data : List Byte) : List Byte :=
  let b := if i = 0 then [] else buf
  if b.length = n * i then b ++ data else []

end Sys2Proof.Machine
end

