-- ==== Sys2Proof/Machine/Forms.lean ====
section
/-! DEFINITION. The operand form of every Berza command (R331): its opcode, the sizes of its arguments in ARGS, the argument
that counts its data bytes, and the command that argument values spell. Masks take 8 bytes; sizes follow the ranges that the
chapters give. -/

namespace Sys2Proof.Machine

/-- What the keeper judges of a command, where it is a Berza command. -/
def specOf (i : Instr) (s : State) : Option (Hdr × CSpec) :=
  match i with
  | .nop h args => some (h, (specNop args))
  | .deviceInfo h => some (h, (specDeviceInfo s))
  | .readyRead h => some (h, specReadyRead)
  | .windowRead h offset count => some (h, (specWindowRead offset count))
  | .modeSet h mode power stopOnMismatch k e txMask => some (h, (specModeSet h mode power stopOnMismatch k e txMask s))
  | .warmReset h => some (h, (specWarmReset h s))
  | .keeperRestart h image => some (h, (specKeeperRestart h image s))
  | .hostSet h spiMask noticeCh restartCh => some (h, (specHostSet h spiMask noticeCh restartCh s))
  | .bulkWindowSet h base => some (h, (specBulkWindowSet base))
  | .fwInfo h => some (h, (specFwInfo s))
  | .fwStage h image size => some (h, (specFwStage h image size s))
  | .fwData h image offset count data => some (h, (specFwData h image offset count data s))
  | .fwVerify h image => some (h, (specFwVerify h image s))
  | .fwSelect h image => some (h, (specFwSelect h image s))
  | .fwCommit h => some (h, (specFwCommit h s))
  | .segLoad h ca count data => some (h, (specSegLoad h ca count data s))
  | .combRead h ca count => some (h, (specCombRead h ca count s))
  | .combFill h ca length _ => some (h, (specCombFill h ca length s))
  | .combAtomic h ca op _ => some (h, (specCombAtomic h ca op s))
  | .combRegionSet h hive bank region owner secure => some (h, (specCombRegionSet h hive bank region owner secure s))
  | .combActiveRead h hive bank first count => some (h, (specCombActiveRead hive bank first count s))
  | .srcTableSet h hive srcCount => some (h, (specSrcTableSet h hive srcCount s))
  | .srcDescSet h hive index desc => some (h, (specSrcDescSet h hive index desc s))
  | .curveAreaSet h hive base envCount => some (h, (specCurveAreaSet h hive base envCount s))
  | .domainSet h domain num den div ldiv lockN guard => some (h, (specDomainSet h domain num den div ldiv lockN guard s))
  | .domainOff h domain => some (h, (specDomainOff h domain s))
  | .syncConfig h syncLog2 syncLat drive check => some (h, (specSyncConfig h syncLog2 syncLat drive check s))
  | .sysrefSet h domain mode period count width delay => some (h, (specSysrefSet domain mode period count width delay s))
  | .timeHorizonSet h hor => some (h, (specTimeHorizonSet h hor s))
  | .timePpsSet h _ => some (h, specTimePpsSet)
  | .paceConfig h window margin fillGuard fillAlarm floor ceiling stepUp stepDown => some (h, (specPaceConfig h window margin fillGuard fillAlarm floor ceiling stepUp stepDown))
  | .cellBind h cell domain ratio target bridge park slip => some (h, (specCellBind h cell domain ratio target bridge park slip s))
  | .cellArm h cell stepBase stepCount jmapBase jmapCount firstStep => some (h, (specCellArm h cell ⟨stepBase, stepCount, jmapBase, jmapCount, firstStep⟩ s))
  | .cellStart h unit => some (h, (specCellStart h unit s))
  | .cellStop h unit => some (h, (specCellStop h unit s))
  | .cellPause h unit => some (h, (specCellPause h unit s))
  | .cellResume h unit => some (h, (specCellResume h unit s))
  | .cellRateSet h cell ratio => some (h, (specCellRateSet h cell ratio s))
  | .cellUnbind h cell => some (h, (specCellUnbind h cell s))
  | .groupSet h group cells => some (h, (specGroupSet h group cells s))
  | .cellClear h cell mask => some (h, (specCellClear h cell mask s))
  | .cellReset h cell => some (h, (specCellReset h cell s))
  | .synConfig h cell format pdEn pdAddr gU oU => some (h, (specSynConfig h cell format pdEn pdAddr gU oU s))
  | .synGainSet h unit gU oU => some (h, (specSynGainSet h unit gU oU s))
  | .formatSet h link entry word => some (h, (specFormatSet link entry word s))
  | .synClear h cell mask => some (h, (specSynClear h cell mask s))
  | .synCoefRead h phase => some (h, (specSynCoefRead phase))
  | .synCalApply h cell gC oC => some (h, (specSynCalApply h cell gC oC s))
  | .queueOpen h cell q ringBase sizeLog2 mode tail bufBase bufCount => some (h, (specQueueOpen h cell q ringBase sizeLog2 mode tail bufBase bufCount s))
  | .queueClose h cell q => some (h, (specQueueClose h cell q s))
  | .queueStatus h cell q => some (h, (specQueueStatus h cell q s))
  | .queueFlush h cell q => some (h, (specQueueFlush h cell q s))
  | .capBind h channel domain k slot recBase recLog2 mode => some (h, (specCapBind h channel domain k slot recBase recLog2 mode s))
  | .capArm h channel a => some (h, (specCapArm h channel a s))
  | .capDisarm h unit => some (h, (specCapDisarm h unit s))
  | .capTrigger h channel => some (h, (specCapTrigger h channel s))
  | .capRelease h channel rd => some (h, (specCapRelease h channel rd s))
  | .capTrigSet h channel enable thr hyst edge => some (h, (specCapTrigSet h channel enable thr hyst edge s))
  | .capUnbind h channel => some (h, (specCapUnbind h channel s))
  | .capClear h channel mask => some (h, (specCapClear h channel mask s))
  | .wagChanSet h channel entry => some (h, (specWagChanSet h channel entry s))
  | .wagTaskSet h task slots scope => some (h, (specWagTaskSet h task slots scope s))
  | .wagRaise h channel level => some (h, (specWagRaise h channel level s))
  | .wagTimerSet h timer first period count delay => some (h, (specWagTimerSet h timer first period count delay s))
  | .wagCounterSet h counter value terminal reload => some (h, (specWagCounterSet h counter value terminal reload s))
  | .wagPinSet h pin dir idle action width => some (h, (specWagPinSet h pin dir idle action width s))
  | .wagWatchRead h => some (h, specWagWatchRead)
  | .wagClear h unit mask level => some (h, (specWagClear h unit mask level s))
  | .wagOwnerSet h kind index owner secure => some (h, (specWagOwnerSet h kind index owner secure s))
  | .linkSet h link a => some (h, (specLinkSet h link a s))
  | .linkEnable h link => some (h, (specLinkEnable h link s))
  | .linkDisable h link => some (h, (specLinkDisable h link s))
  | .linkRetrain h link => some (h, (specLinkRetrain h link s))
  | .linkSlotSet h link slot format => some (h, (specLinkSlotSet h link slot format s))
  | .linkEyeRead h lane => some (h, (specLinkEyeRead h lane s))
  | .linkClear h link mask => some (h, (specLinkClear h link mask))
  | .dmcConfig h chans interleave ctxBase ageLimit minMargin trackH ceLimit => some (h, (specDmcConfig h chans interleave ctxBase ageLimit minMargin trackH ceLimit s))
  | .dramRegionSet h first count owner secure => some (h, (specDramRegionSet h first count owner secure s))
  | .dramRegionRead h first count => some (h, (specDramRegionRead first count s))
  | .dmcRetrain h channel kind => some (h, (specDmcRetrain h channel kind s))
  | .dmcScrubSet h enable periodH => some (h, (specDmcScrubSet h enable periodH))
  | .dramWrite h addr count data => some (h, (specDramWrite h addr count data s))
  | .dramRead h addr count => some (h, (specDramRead h addr count s))
  | .dmcClear h channel mask unfreeze => some (h, (specDmcClear channel mask unfreeze s))
  | .auxConfig h channel shape stepSize rate clearCode => some (h, (specAuxConfig h channel shape stepSize rate clearCode s))
  | .auxWrite h channel code raw => some (h, (specAuxWrite h channel code raw s))
  | .auxReadback h channel => some (h, (specAuxReadback h channel s))
  | .auxClear h channel mask => some (h, (specAuxClear h channel mask s))
  | .colConfig h starMask swlLead => some (h, (specColConfig h starMask swlLead s))
  | .colSkewCal h exchanges swlMask => some (h, (specColSkewCal h exchanges swlMask s))
  | .colTunnel h device path frame => some (h, (specColTunnel h device path frame s))
  | .colClear h mask => some (h, (specColClear mask))
  | .colWake h workerMask wakeTick => some (h, (specColWake h workerMask wakeTick s))
  | .ctxSet h context enable secure => some (h, (specCtxSet h context enable secure s))
  | .ownSet h kind first count owner secure => some (h, (specOwnSet h kind first count owner secure s))
  | .ownRead h kind first count => some (h, (specOwnRead kind first count s))
  | .wakeSet h evpMask _ colony wakeTick => some (h, (specWakeSet h evpMask colony wakeTick s))
  | .lcAdvance h target confirm => some (h, (specLcAdvance h target confirm s))
  | .dbgOpen h level => some (h, (specDbgOpen h level s))
  | .dbgResponse h _ sessionMin => some (h, (specDbgResponse h sessionMin s))
  | .dbgClose h => some (h, (specDbgClose h))
  | .dbgTraceRead h offset count => some (h, (specDbgTraceRead offset count s))
  | .calRead h kind index source => some (h, (specCalRead kind index source s))
  | .calWrite h kind index apply payload => some (h, (specCalWrite h kind index apply payload s))
  | .calErase h kind index apply => some (h, (specCalErase h kind index apply s))
  | .bgsSet h groomRate eyePeriod skewPeriod endurance => some (h, (specBgsSet h groomRate eyePeriod skewPeriod endurance))
  | .telemRead h first count => some (h, (specTelemRead first count))
  | .calStart h items cells laneMask auxMask => some (h, (specCalStart h items cells laneMask auxMask s))
  | .faultClear h block mask rearm => some (h, (specFaultClear h block mask rearm s))
  | .faultMaskSet h block mask => some (h, (specFaultMaskSet h block mask))
  | .faultEscSet h block window reaction => some (h, (specFaultEscSet h block window reaction s))
  | .faultInject h kind block bit cls object count => some (h, (specFaultInject h kind block bit cls object count s))
  | .restoreClear h mask => some (h, (specRestoreClear h mask))
  | .jnlConfig h base size mode ckptPeriod rxMask sigEn => some (h, (specJnlConfig h base size mode ckptPeriod rxMask sigEn s))
  | .jnlStop h => some (h, (specJnlStop h))
  | .jnlCkpt h => some (h, (specJnlCkpt h s))
  | .jnlExport h first last dest => some (h, (specJnlExport h first last dest s))
  | .jnlImport h source => some (h, (specJnlImport h source s))
  | _ => none

/-- The payload bytes of a calibration record by kind (R364); 8 for a kind that has no user record. -/
def calPayload (kind : Nat) : Nat := if kind = 3 then 32 else 8

/-- The cells of a mask of 1,024 bits, whose words are the argument values from 1 on. -/
def maskCells (n : Nat → Nat) : List Nat := (upFrom 1024 0).filter fun c => bitOf (n (1 + c / 64)) (c % 64)

/-- The form of a command: sizes of its arguments, the argument that counts its data bytes, the command that argument values
and data spell, and whether a mask sets a bit beyond its width. -/
structure Form where
  sizes : List Nat
  data : Option Nat
  cmd : Hdr → (Nat → Nat) → List Byte → Instr
  bad : (Nat → Nat) → Bool

/-- A form without data. -/
def form (sizes : List Nat) (cmd : Hdr → (Nat → Nat) → Instr) : Option Form :=
  some { sizes := sizes, data := none, cmd := fun h n _ => cmd h n, bad := fun _ => false }

/-- A form with a mask of fewer than 64 bits. -/
def formMask (sizes : List Nat) (bad : (Nat → Nat) → Bool) (cmd : Hdr → (Nat → Nat) → Instr) : Option Form :=
  some { sizes := sizes, data := none, cmd := fun h n _ => cmd h n, bad := bad }

/-- A form whose data, counted by an argument, fills continuation frames. -/
def formData (sizes : List Nat) (count : Option Nat) (cmd : Hdr → (Nat → Nat) → List Byte → Instr) : Option Form :=
  some { sizes := sizes, data := count, cmd := cmd, bad := fun _ => false }

/-- The forms of opcodes 0x0000 to 0x00FF. -/
def forms0 (op : Nat) : Option Form :=
  match op % 256 with
  | 0x01 => form [] fun h _ => .deviceInfo h
  | 0x02 => form [] fun h _ => .readyRead h
  | 0x03 => form [4, 1] fun h n => .windowRead h (n 0) (n 1)
  | 0x20 => form [1, 1, 1, 8, 8, 8] fun h n => .modeSet h (n 0) (n 1) (n 2) (n 3) (n 4) (BitVec.ofNat 64 (n 5))
  | 0x21 => form [] fun h _ => .warmReset h
  | 0x22 => form [1] fun h n => .keeperRestart h (n 0)
  | 0x30 => form [8, 2, 2] fun h n => .hostSet h (n 0) (n 1) (n 2)
  | 0x31 => form [8] fun h n => .bulkWindowSet h (n 0)
  | 0x40 => form [] fun h _ => .fwInfo h
  | 0x41 => form [1, 4] fun h n => .fwStage h (n 0) (n 1)
  | 0x42 => formData [1, 4, 2] (some 2) fun h n data => .fwData h (n 0) (n 1) (n 2) data
  | 0x43 => form [1] fun h n => .fwVerify h (n 0)
  | 0x44 => form [1] fun h n => .fwSelect h (n 0)
  | 0x45 => form [] fun h _ => .fwCommit h
  | _ => none

/-- The forms of opcodes 0x0100 to 0x01FF. -/
def forms1 (op : Nat) : Option Form :=
  match op % 256 with
  | 0x10 => formData [4, 2] (some 1) fun h n data => .segLoad h (n 0) (n 1) data
  | 0x11 => form [4, 1] fun h n => .combRead h (n 0) (n 1)
  | 0x12 => form [4, 4, 8] fun h n => .combFill h (n 0) (n 1) (BitVec.ofNat 64 (n 2))
  | 0x13 => form [4, 1, 8] fun h n => .combAtomic h (n 0) (n 1) (BitVec.ofNat 64 (n 2))
  | 0x14 => form [1, 1, 1, 1, 1] fun h n => .combRegionSet h (n 0) (n 1) (n 2) (n 3) (n 4)
  | 0x15 => form [1, 1, 2, 2] fun h n => .combActiveRead h (n 0) (n 1) (n 2) (n 3)
  | 0x22 => form [1, 2] fun h n => .srcTableSet h (n 0) (n 1)
  | 0x23 => form [1, 2, 32] fun h n => .srcDescSet h (n 0) (n 1) (BitVec.ofNat 256 (n 2))
  | 0x24 => form [1, 4, 1] fun h n => .curveAreaSet h (n 0) (n 1) (n 2)
  | _ => none

/-- The forms of opcodes 0x0200 to 0x02FF. -/
def forms2 (op : Nat) : Option Form :=
  match op % 256 with
  | 0x00 => form [1, 4, 2, 2, 1, 2, 2] fun h n => .domainSet h (n 0) (n 1) (n 2) (n 3) (n 4) (n 5) (n 6)
  | 0x01 => form [1] fun h n => .domainOff h (n 0)
  | 0x02 => form [1, 1, 1, 1] fun h n => .syncConfig h (n 0) (n 1) (n 2) (n 3)
  | 0x03 => form [1, 1, 4, 1, 1, 1] fun h n => .sysrefSet h (n 0) (n 1) (n 2) (n 3) (n 4) (n 5)
  | 0x10 => form [2] fun h n => .timeHorizonSet h (n 0)
  | 0x11 => form [8] fun h n => .timePpsSet h (n 0)
  | 0x12 => form [4, 1, 1, 1, 2, 2, 1, 1] fun h n => .paceConfig h (n 0) (n 1) (n 2) (n 3) (n 4) (n 5) (n 6) (n 7)
  | _ => none

/-- The forms of opcodes 0x0300 to 0x03FF. -/
def forms3 (op : Nat) : Option Form :=
  match op % 256 with
  | 0x00 => form [2, 1, 8, 4, 1, 4, 1] fun h n => .cellBind h (n 0) (n 1) (n 2) (selOf (n 3)) (n 4) (sext 32 (n 5)) (n 6)
  | 0x01 => form [2, 4, 2, 4, 1, 2] fun h n => .cellArm h (n 0) (n 1) (n 2) (n 3) (n 4) (n 5)
  | 0x02 => form [4] fun h n => .cellStart h (selOf (n 0))
  | 0x03 => form [4] fun h n => .cellStop h (selOf (n 0))
  | 0x04 => form [4] fun h n => .cellPause h (selOf (n 0))
  | 0x05 => form [4] fun h n => .cellResume h (selOf (n 0))
  | 0x06 => form [2, 8] fun h n => .cellRateSet h (n 0) (n 1)
  | 0x07 => form [2] fun h n => .cellUnbind h (n 0)
  | 0x08 => form [1, 8, 8, 8, 8, 8, 8, 8, 8, 8, 8, 8, 8, 8, 8, 8, 8] fun h n => .groupSet h (n 0) (maskCells n)
  | 0x09 => form [2, 8] fun h n => .cellClear h (n 0) (BitVec.ofNat 64 (n 1))
  | 0x0A => form [2] fun h n => .cellReset h (n 0)
  | _ => none

/-- The forms of opcodes 0x0400 to 0x04FF. -/
def forms4 (op : Nat) : Option Form :=
  match op % 256 with
  | 0x00 => form [2, 1, 1, 4, 4, 4] fun h n => .synConfig h (n 0) (n 1) (n 2) (n 3) (sext 32 (n 4)) (sext 32 (n 5))
  | 0x01 => form [4, 4, 4] fun h n => .synGainSet h (selOf (n 0)) (sext 32 (n 1)) (sext 32 (n 2))
  | 0x02 => form [1, 1, 4] fun h n => .formatSet h (n 0) (n 1) (BitVec.ofNat 32 (n 2))
  | 0x03 => form [2, 8] fun h n => .synClear h (n 0) (BitVec.ofNat 64 (n 1))
  | 0x04 => form [1] fun h n => .synCoefRead h (n 0)
  | 0x05 => form [2, 4, 4] fun h n => .synCalApply h (n 0) (sext 32 (n 1)) (sext 32 (n 2))
  | _ => none

/-- The forms of opcodes 0x0500 to 0x05FF. -/
def forms5 (op : Nat) : Option Form :=
  match op % 256 with
  | 0x00 => form [2, 2, 8, 1, 1, 2, 4, 1] fun h n => .queueOpen h (n 0) (n 1) (n 2) (n 3) (n 4) (n 5) (n 6) (n 7)
  | 0x01 => form [2, 2] fun h n => .queueClose h (n 0) (n 1)
  | 0x02 => form [2, 2] fun h n => .queueStatus h (n 0) (n 1)
  | 0x03 => form [2, 2] fun h n => .queueFlush h (n 0) (n 1)
  | _ => none

/-- The forms of opcodes 0x0600 to 0x06FF. -/
def forms6 (op : Nat) : Option Form :=
  match op % 256 with
  | 0x00 => form [2, 1, 1, 2, 8, 1, 1] fun h n => .capBind h (n 0) (n 1) (n 2) (n 3) (n 4) (n 5) (n 6)
  | 0x01 => form [2, 4, 4, 1, 4, 4, 4, 4, 4, 4, 1, 1] fun h n => .capArm h (n 0) ⟨n 1, n 2, n 3, n 4, n 5, n 6, n 7, n 8, n
        9, n 10, n 11⟩
  | 0x02 => form [4] fun h n => .capDisarm h (selOf (n 0))
  | 0x03 => form [2] fun h n => .capTrigger h (n 0)
  | 0x04 => form [2, 4] fun h n => .capRelease h (n 0) (n 1)
  | 0x05 => form [2, 1, 4, 4, 1] fun h n => .capTrigSet h (n 0) (n 1) (sext 32 (n 2)) (n 3) (n 4)
  | 0x06 => form [2] fun h n => .capUnbind h (n 0)
  | 0x07 => form [2, 8] fun h n => .capClear h (n 0) (BitVec.ofNat 64 (n 1))
  | _ => none

/-- The forms of opcodes 0x0700 to 0x07FF. -/
def forms7 (op : Nat) : Option Form :=
  match op % 256 with
  | 0x00 => form [2, 8] fun h n => .wagChanSet h (n 0) (BitVec.ofNat 64 (n 1))
  | 0x01 => form [2, 4, 4, 4, 4, 1] fun h n => .wagTaskSet h (n 0) [BitVec.ofNat 32 (n 1), BitVec.ofNat 32 (n 2),
        BitVec.ofNat 32 (n 3), BitVec.ofNat 32 (n 4)] (n 5)
  | 0x02 => form [2, 1] fun h n => .wagRaise h (n 0) (n 1)
  | 0x03 => form [1, 8, 4, 4, 4] fun h n => .wagTimerSet h (n 0) (n 1) (n 2) (n 3) (n 4)
  | 0x04 => form [1, 4, 4, 1] fun h n => .wagCounterSet h (n 0) (n 1) (n 2) (n 3)
  | 0x05 => form [1, 1, 1, 1, 2] fun h n => .wagPinSet h (n 0) (n 1) (n 2) (n 3) (n 4)
  | 0x06 => form [] fun h _ => .wagWatchRead h
  | 0x07 => form [4, 8, 1] fun h n => .wagClear h (selOf (n 0)) (BitVec.ofNat 64 (n 1)) (n 2)
  | 0x08 => form [1, 2, 1, 1] fun h n => .wagOwnerSet h (n 0) (n 1) (n 2) (n 3)
  | _ => none

/-- The forms of opcodes 0x0800 to 0x08FF. -/
def forms8 (op : Nat) : Option Form :=
  match op % 256 with
  | 0x00 => form [1, 1, 1, 1, 2, 1, 1, 8, 1, 1, 1, 2, 2, 1, 1, 2, 1] fun h n => .linkSet h (n 0) ⟨n 1, n 2, n 3, n 4, n 5, n
        6, (le 8 (n 7)).map (·.toNat), n 8, n 9, n 10, n 11, n 12, n 13, n 14, n 15, n 16⟩
  | 0x01 => form [1] fun h n => .linkEnable h (n 0)
  | 0x02 => form [1] fun h n => .linkDisable h (n 0)
  | 0x03 => form [1] fun h n => .linkRetrain h (n 0)
  | 0x04 => form [1, 1, 1] fun h n => .linkSlotSet h (n 0) (n 1) (n 2)
  | 0x05 => form [1] fun h n => .linkEyeRead h (n 0)
  | 0x06 => form [1, 8] fun h n => .linkClear h (n 0) (BitVec.ofNat 64 (n 1))
  | _ => none

/-- The forms of opcodes 0x0900 to 0x09FF. -/
def forms9 (op : Nat) : Option Form :=
  match op % 256 with
  | 0x00 => form (List.replicate 29 1 ++ [8, 1, 1, 1, 2]) fun h
        n => .dmcConfig h ((upFrom 4 0).map fun c => ⟨n (7 * c), n (7 * c + 1), n (7 * c + 2), n (7 * c + 3), n (7 * c + 4),
        n (7 * c + 5), n (7 * c + 6)⟩) (n 28) (n 29) (n 30) (n 31) (n 32) (n 33)
  | 0x01 => form [2, 2, 1, 1] fun h n => .dramRegionSet h (n 0) (n 1) (n 2) (n 3)
  | 0x02 => form [2, 1] fun h n => .dramRegionRead h (n 0) (n 1)
  | 0x03 => form [1, 1] fun h n => .dmcRetrain h (n 0) (n 1)
  | 0x04 => form [1, 1] fun h n => .dmcScrubSet h (n 0) (n 1)
  | 0x05 => formData [8, 2] (some 1) fun h n data => .dramWrite h (n 0) (n 1) data
  | 0x06 => form [8, 1] fun h n => .dramRead h (n 0) (n 1)
  | 0x07 => form [1, 8, 1] fun h n => .dmcClear h (n 0) (BitVec.ofNat 64 (n 1)) (n 2)
  | _ => none

/-- The forms of opcodes 0x0A00 to 0x0AFF. -/
def formsA (op : Nat) : Option Form :=
  match op % 256 with
  | 0x00 => form [1, 1, 2, 2, 2] fun h n => .auxConfig h (n 0) (n 1) (n 2) (n 3) (n 4)
  | 0x01 => form [1, 2, 1] fun h n => .auxWrite h (n 0) (n 1) (n 2)
  | 0x02 => form [1] fun h n => .auxReadback h (n 0)
  | 0x03 => form [1, 8] fun h n => .auxClear h (n 0) (BitVec.ofNat 64 (n 1))
  | _ => none

/-- The forms of opcodes 0x0B00 to 0x0BFF. -/
def formsB (op : Nat) : Option Form :=
  match op % 256 with
  | 0x00 => form [8, 1] fun h n => .colConfig h (BitVec.ofNat 64 (n 0)) (n 1)
  | 0x01 => form [2, 8] fun h n => .colSkewCal h (n 0) (n 1)
  | 0x02 => formData [1, 1] none fun h n data => .colTunnel h (n 0) (n 1) data
  | 0x03 => form [8] fun h n => .colClear h (BitVec.ofNat 64 (n 0))
  | 0x04 => form [8, 8] fun h n => .colWake h (BitVec.ofNat 64 (n 0)) (n 1)
  | _ => none

/-- The forms of opcodes 0x0C00 to 0x0CFF. -/
def formsC (op : Nat) : Option Form :=
  match op % 256 with
  | 0x00 => form [1, 1, 1] fun h n => .ctxSet h (n 0) (n 1) (n 2)
  | 0x01 => form [1, 2, 2, 1, 1] fun h n => .ownSet h (n 0) (n 1) (n 2) (n 3) (n 4)
  | 0x02 => form [1, 2, 1] fun h n => .ownRead h (n 0) (n 1) (n 2)
  | 0x03 => formMask [8, 8, 1, 8] (fun n => decide (2 ^ 32 ≤ n 0) || decide (2 ^ 16 ≤ n 1)) fun h n => .wakeSet h
        (BitVec.ofNat 32 (n 0)) (BitVec.ofNat 16 (n 1)) (n 2) (n 3)
  | 0x04 => form [1, 4] fun h n => .lcAdvance h (n 0) (n 1)
  | 0x05 => form [1] fun h n => .dbgOpen h (n 0)
  | 0x06 => form [32, 2] fun h n => .dbgResponse h (BitVec.ofNat 256 (n 0)) (n 1)
  | 0x07 => form [] fun h _ => .dbgClose h
  | 0x08 => form [2, 1] fun h n => .dbgTraceRead h (n 0) (n 1)
  | _ => none

/-- The forms of opcodes 0x0D00 to 0x0DFF. -/
def formsD (op : Nat) (args : List Byte) : Option Form :=
  match op % 256 with
  | 0x00 => form [1, 2, 1] fun h n => .calRead h (n 0) (n 1) (n 2)
  | 0x01 => form [1, 2, 1, calPayload (ofLe (args.take 1))] fun h n => .calWrite h (n 0) (n 1) (n 2) (le (calPayload (n 0))
        (n 3))
  | 0x02 => form [1, 2, 1] fun h n => .calErase h (n 0) (n 1) (n 2)
  | 0x03 => form [2, 2, 4, 4] fun h n => .bgsSet h (n 0) (n 1) (n 2) (n 3)
  | 0x04 => form [1, 1] fun h n => .telemRead h (n 0) (n 1)
  | 0x10 => formMask [8, 8, 8, 8, 8, 8, 8, 8, 8, 8, 8, 8, 8, 8, 8, 8, 8, 8, 8] (fun n => decide (2 ^ 32 ≤ n 17)) fun h n =>
        .calStart h (n 0) (maskCells n) (BitVec.ofNat 32 (n 17)) (BitVec.ofNat 64 (n 18))
  | _ => none

/-- The forms of opcodes 0x0E00 to 0x0EFF. -/
def formsE (op : Nat) : Option Form :=
  match op % 256 with
  | 0x00 => formMask [1, 8, 1] (fun n => decide (2 ^ 32 ≤ n 1)) fun h n => .faultClear h (n 0) (BitVec.ofNat 32 (n 1)) (n 2)
  | 0x01 => formMask [1, 8] (fun n => decide (2 ^ 32 ≤ n 1)) fun h n => .faultMaskSet h (n 0) (BitVec.ofNat 32 (n 1))
  | 0x02 => form [1, 4, 1] fun h n => .faultEscSet h (n 0) (n 1) (n 2)
  | 0x03 => form [1, 1, 1, 1, 8, 4] fun h n => .faultInject h (n 0) (n 1) (n 2) (n 3) (n 4) (n 5)
  | 0x04 => formMask [8] (fun n => decide (2 ^ 32 ≤ n 0)) fun h n => .restoreClear h (BitVec.ofNat 32 (n 0))
  | _ => none

/-- The forms of opcodes 0x0F00 to 0x0FFF. -/
def formsF (op : Nat) : Option Form :=
  match op % 256 with
  | 0x00 => formMask [8, 8, 1, 4, 8, 1] (fun n => decide (2 ^ 32 ≤ n 4)) fun h n => .jnlConfig h (n 0) (n 1) (n 2) (n 3)
        (BitVec.ofNat 32 (n 4)) (n 5)
  | 0x01 => form [] fun h _ => .jnlStop h
  | 0x02 => form [] fun h _ => .jnlCkpt h
  | 0x03 => form [8, 8, 1, 8] fun h n => .jnlExport h (n 0) (n 1) ⟨n 2, n 3⟩
  | 0x04 => form [1, 8] fun h n => .jnlImport h ⟨n 0, n 1⟩
  | _ => none

/-- The form of an opcode, where it is issued; `NOP` has none, since any ARGS bytes do (R336). -/
def formOf (op : Nat) (args : List Byte) : Option Form :=
  match op / 256 with
  | 0 => forms0 op
  | 1 => forms1 op
  | 2 => forms2 op
  | 3 => forms3 op
  | 4 => forms4 op
  | 5 => forms5 op
  | 6 => forms6 op
  | 7 => forms7 op
  | 8 => forms8 op
  | 9 => forms9 op
  | 10 => formsA op
  | 11 => formsB op
  | 12 => formsC op
  | 13 => formsD op args
  | 14 => formsE op
  | 15 => formsF op
  | _ => none

end Sys2Proof.Machine
end

