-- ==== Sys2Proof/Machine/Host.lean ====
section
/-! DEFINITION. The host interface (R319 to R332, R338): posting frames, acknowledging replies, the pages of BAR0, the window
of BAR2, the bulk aperture, the SPI target. A read leaves what it returns in `bus`. -/

namespace Sys2Proof.Machine

/-! ### Taking a frame (R327, R330, R331) -/

/-- The first frame's header. -/
def hdrOf (f : Frame) (stale : Bool) : Hdr :=
  { ctx := f.ctx, mb := f.mb, seq := f.seq, chk := f.chk, epoch := BitVec.ofNat 32 f.epoch, eff := f.eff, stale := stale }

/-- Continuation frames that arguments need (R331): those that hold the data bytes, or the arguments beyond ARGS; `COL_TUNNEL`
has one. -/
def framesNeeded (op : Nat) (fm : Form) (args : List Byte) : Nat :=
  let r := readArgs 0 args fm.sizes
  if op = 0x0B02 then 1
  else match fm.data with
    | some i => ceilDiv (r.1.getD i 0) 56
    | none => ceilDiv (r.2 - 42) 56

/-- The command a whole frame spells, with whether a mask sets a bit beyond its width; none where an unused byte is not 0. -/
def readCommand (f : Frame) (stale : Bool) (data : List Byte) : Option (Instr × Bool) :=
  if f.opcode = 0 then some (.nop (hdrOf f stale) f.args, false)
  else match formOf f.opcode f.args with
    | none => none
    | some fm =>
      let dataForm := fm.data.isSome || f.opcode = 0x0B02
      let args := if dataForm then f.args else f.args ++ data
      let v := (readArgs 0 args fm.sizes).1
      let n := match fm.data with
        | some i => v.getD i 0
        | none => 64
      let d := if dataForm then data.take n else []
      let clean := padZero 0 args fm.sizes && (!dataForm || (data.drop n).all (· = 0))
      if clean then some (fm.cmd (hdrOf f stale) (fun i => v.getD i 0) d, fm.bad fun i => v.getD i 0) else none

/-- A whole command is judged (orders 4, 9 to 15); whether the keeper's shadow of its unit disagrees with hardware then (R344), no
frame tells (a free value, log 32). -/
def takeCommand (f : Frame) (data : List Byte) (s : State) : State :=
  match readCommand f (Config.shadowStale s.free) data with
  | none => reject s f.ctx f.mb f.opcode f.seq .badFrame
  | some (i, bad) =>
    let s1 := { s with free := s.free + 1 }
    match specOf i s1 with
    | none => reject s f.ctx f.mb f.opcode f.seq .badOpcode
    | some (h, p) => judge s1 h i (if bad then { p with err := some .badArg, errData := [] } else p)

/-- The first frame of a command (orders 3 to 8). -/
def firstFrame (ctx mb : Nat) (fr : List Byte) (s : State) : State :=
  let f := parseFrame fr
  if !f.crcOk then reject s ctx mb f.opcode f.seq .badCrc
  else if f.ctx ≠ ctx ∨ f.mb ≠ mb ∨ !f.reservedOk ∨ f.cont then reject s ctx mb f.opcode f.seq .badFrame
  else
    let fm := formOf f.opcode f.args
    let need := match fm with
      | some fm => framesNeeded f.opcode fm f.args
      | none => f.frames
    if f.frames ≠ (if f.opcode = 0 then 0 else need) then reject s ctx mb f.opcode f.seq .badFrame
    else match seqErr s ctx mb f.seq with
      | some (e, r) => reject s ctx mb f.opcode f.seq e none r
      | none =>
        if f.opcode ≠ 0 ∧ fm.isNone then reject s ctx mb f.opcode f.seq .badOpcode
        else if f.frames = 0 then takeCommand f [] s
        else modMb s ctx mb fun m => { m with asm := some ⟨fr, [], 0, s.time.tick⟩, multi := true }

/-- A continuation frame in order: bytes 0 to 2 and SEQ of the first frame, the next FRAG. -/
def continues (f g : Frame) (got : Nat) : Bool :=
  g.cont && g.reservedOk && g.frames = got + 1 && g.opcode = f.opcode && g.ctx = f.ctx && g.mb = f.mb && g.chk = f.chk && g.seq = f.seq

/-- A continuation frame (orders 3, 4 and 8); the one of `COL_TUNNEL` is the embedded frame itself (R330). -/
def nextFrame (ctx mb : Nat) (a : Asm) (fr : List Byte) (s : State) : State :=
  let f := parseFrame a.first
  let g := parseFrame fr
  let tunnel : Bool := f.opcode = 0x0B02
  if !g.crcOk then reject s ctx mb (if tunnel then f.opcode else g.opcode) (if tunnel then f.seq else g.seq) .badCrc
  else if !tunnel && !continues f g a.got then reject (dropAsm s ctx mb) ctx mb g.opcode g.seq .badFrame
  else
    let data := a.data ++ (if tunnel then fit 64 fr else g.data)
    if f.frames ≤ a.got + 1 then takeCommand f data (dropAsm s ctx mb)
    else modMb s ctx mb fun m => { m with asm := some ⟨a.first, data, a.got + 1, s.time.tick⟩ }

/-- A frame handed to the keeper in mailbox (ctx, mb) (R327). -/
def takeFrame (ctx mb : Nat) (fr : List Byte) (s : State) : State :=
  if refusesPost s ctx mb then refusePost s ctx mb
  else
    let s1 := modMb s ctx mb fun m => { m with refused := false }
    match (mbAt s ctx mb).asm with
    | none => firstFrame ctx mb fr s1
    | some a => nextFrame ctx mb a fr s1

/-- POST: the frame in CMD. -/
def post (ctx mb : Nat) (s : State) : State := takeFrame ctx mb (fit 64 (mbAt s ctx mb).cmd) s

/-- The mailbox exists. -/
def mbExists (ctx mb : Nat) : Bool := decide (ctx < 16) && decide (mb < 4)

/-- POST: R327. -/
def execPost (ctx mb : Nat) (s : State) : Host.Outcome State Fault Refusal :=
  actOn (mbExists ctx mb) s (post ctx mb)

/-- ACK of the frame shown: the next one is written, or the slot is free; a keeper that is down writes none. -/
def ack (ctx mb : Nat) (s : State) : State :=
  let m := mbAt s ctx mb
  match m.reply with
  | none => s
  | some r =>
    if !m.replyValid then s
    else if m.shown + 1 < replyFrames r then
      (if s.kpr.ready then
        irq (modMb s ctx mb fun m => { m with shown := m.shown + 1, pending := decide (m.shown + 2 < replyFrames r) }) ctx mb
      else s)
    else modMb s ctx mb fun m => { m with replyValid := false, pending := false, diverged := false }

/-- ACK: R332. -/
def execAck (ctx mb : Nat) (s : State) : Host.Outcome State Fault Refusal := actOn (mbExists ctx mb) s (ack ctx mb)

/-- MB_RESET, ignored while PENDING. -/
def mbReset (ctx mb : Nat) (s : State) : State :=
  if (mbAt s ctx mb).pending then s
  else modMb s ctx mb fun m =>
    { m with replyValid := false, refused := false, diverged := false, seqFree := true, asm := none, multi := false }

/-- MB_RESET: R328. -/
def execMbReset (ctx mb : Nat) (s : State) : Host.Outcome State Fault Refusal := actOn (mbExists ctx mb) s (mbReset ctx mb)

/-- FRAME_TIMEOUT: 10 ms have passed between two frames of a command. -/
def frameTimeout (ctx mb : Nat) (s : State) : State :=
  match (mbAt s ctx mb).asm with
  | none => s
  | some a =>
    let f := parseFrame a.first
    if s.time.tick < a.tick + 1000000 ∨ !s.kpr.ready then s else reject (dropAsm s ctx mb) ctx mb f.opcode f.seq .badFrame

/-- FRAME_TIMEOUT: R327. -/
def execFrameTimeout (ctx mb : Nat) (s : State) : Host.Outcome State Fault Refusal := actOn (mbExists ctx mb) s (frameTimeout ctx mb)

/-! ### The pages of BAR0 (R320, R321) -/

/-- `MB_STATUS`. -/
def mbStatus (s : State) (m : Mailbox) : Nat :=
  pack [(1, b2n m.busy), (1, b2n m.pending), (1, b2n m.replyValid), (1, b2n m.refused), (1, b2n m.diverged), (1, b2n s.kpr.ready),
    (1, b2n m.multi), (1, 0), (16, m.lastSeq), (1, b2n m.seqFree)]

/-- `CTX_INFO`. -/
def ctxInfo (s : State) (k : Nat) : Nat := pack [(4, k), (1, b2n (ctxSecure s k)), (1, b2n (s.kpr.spiMask.getLsbD k))]

/-- A byte of context page `k`. -/
def pageByte (s : State) (k r : Nat) : Byte :=
  let o := r % 0x100
  let m := mbAt s k (r / 0x100)
  let c := ctxAt s k
  let one (v base : Nat) : Byte := BitVec.ofNat 8 (bits v (8 * (r - base)) 8)
  if r < 0x400 then
    (if o < 0x40 then 0
    else if o < 0x80 then match m.reply with
      | some x => (replyFrame x k (r / 0x100) m.shown).getD (o - 0x40) 0
      | none => 0
    else if o < 0x84 then 0
    else if o < 0x88 then BitVec.ofNat 8 (bits (mbStatus s m) (8 * (o - 0x84)) 8) else 0)
  else if r < 0x404 then one c.irqStatus.toNat 0x400
  else if r < 0x408 then one c.irqMask.toNat 0x404
  else if r < 0x40C then one (ctxInfo s k) 0x408 else 0

/-- `CTX_IRQ_STATUS` is cleared by a read (RC). -/
def clearIrq (k : Nat) (s : State) : State := { s with contexts := tmod {} s.contexts k fun c => { c with irqStatus := 0 } }

/-- CTX_IRQ_STATUS_READ. -/
def ctxIrqStatusRead (k : Nat) (s : State) : State := clearIrq k { s with bus := le 4 (ctxAt s k).irqStatus.toNat }

/-- CTX_IRQ_STATUS_READ: R321. -/
def execCtxIrqStatusRead (ctx : Nat) (s : State) : Host.Outcome State Fault Refusal := actOn (decide (ctx < 16)) s (ctxIrqStatusRead ctx)

/-- A fault of the host interface: FIRST_ERR names PCIe (64) or SPI (65). -/
def hostFault (bit cls obj master acc : Nat) (s : State) : State :=
  raise s { block := .kpr, bit := bit, cls := cls, obj := obj, master := master, acc := acc }

/-- A reserved value was written to a register (R11). -/
def illegalConfig (master : Nat) (s : State) : State := hostFault 9 1 (if master = 0xC then 65 else 64) master 1 s

/-- `MB_CTRL` written: POST, ACK and MB_RESET act, in bit order. -/
def mbCtrl (k m v master : Nat) (s : State) : State :=
  let s0 := if 8 ≤ v then illegalConfig master s else s
  let s1 := if bitOf v 0 then post k m s0 else s0
  let s2 := if bitOf v 1 then ack k m s1 else s1
  if bitOf v 2 then mbReset k m s2 else s2

/-- A byte of context page `k` written: of a command frame, while the mailbox is not BUSY, or of `CTX_IRQ_MASK`. -/
def pageByteWrite (k master r : Nat) (b : Byte) (s : State) : State :=
  let m := r / 0x100
  let o := r % 0x100
  if r < 0x400 ∧ o < 0x40 then
    (if (mbAt s k m).busy then s else modMb s k m fun x => { x with cmd := (fit 64 x.cmd).set o b })
  else if r = 0x404 then
    { s with contexts := tmod {} s.contexts k fun c => { c with irqMask := BitVec.ofNat 32 b.toNat } }
  else if 0x404 < r ∧ r < 0x408 ∧ b ≠ 0 then illegalConfig master s
  else s

/-- The value that a write of bytes at `off` gives a 4-byte register at `reg`: unwritten bytes 0; none where it is not
touched, or, with `whole`, not written whole. -/
def regValue (reg off : Nat) (data : List Byte) (whole : Bool) : Option Nat :=
  let hits := (upFrom 4 reg).filter fun a => decide (off ≤ a) && decide (a < off + data.length)
  if hits.isEmpty ∨ (whole ∧ hits.length ≠ 4) then none
  else some (ofLe ((upFrom 4 reg).map fun a => if off ≤ a then data.getD (a - off) 0 else 0))

/-- Write bytes in context page `k`: the bytes, then every `MB_CTRL` they reach. -/
def pageWrite (k master off : Nat) (data : List Byte) (whole : Bool) (s : State) : State :=
  let s1 := (upFrom data.length 0).foldl (fun s i => pageByteWrite k master (off + i) (data.getD i 0) s) s
  (upFrom 4 0).foldl (fun s m =>
    match regValue (0x100 * m + 0x80) off data whole with
    | some v => mbCtrl k m v master s
    | none => s) s1

/-- A vector's mask is cleared: a pending one is signalled. -/
def unmask (v : Nat) (s : State) : State :=
  let s1 := { s with msixOpen := if s.msixOpen.contains v then s.msixOpen else v :: s.msixOpen }
  if s.msixPba.contains v then { s1 with msixPba := s1.msixPba.erase v, msix := s1.msix ++ [v] } else s1

/-- A byte of the MSI-X table written: address and data of a vector, or its mask bit. -/
def msixByte (o : Nat) (b : Byte) (s : State) : State :=
  if o % 16 < 12 then { s with msixTable := memPut s.msixTable o b }
  else if o % 16 = 12 then (if b.getLsbD 0 then { s with msixOpen := s.msixOpen.erase (o / 16) } else unmask (o / 16) s)
  else s

/-- REGISTER_WRITE at a BAR0 offset: context pages and the MSI-X table; elsewhere writes are discarded (R9, R320). -/
def registerWrite (off : Nat) (data : List Byte) (s : State) : State :=
  if off < 0x10000 then pageWrite (off / 0x1000) 9 (off % 0x1000) data false s
  else if 0x20000 ≤ off ∧ off + data.length ≤ 0x20400 then
    (upFrom data.length 0).foldl (fun s i => msixByte (off - 0x20000 + i) (data.getD i 0) s) s
  else s

/-- REGISTER_WRITE: R9, R11, R320, R321. -/
def execRegisterWrite (offset : Nat) (data : List Byte) (s : State) : Host.Outcome State Fault Refusal := act s (registerWrite offset data)

/-! ### The direct status window (R33, R338) -/

/-- What a 32-bit read of the window returns: at 0x0104 the half that the last read at 0x0100 has latched (R33). -/
def windowRead32 (s : State) (o : Nat) : Nat :=
  match s.time.latch with
  | some w => if o = 0x104 then w.toNat else windowNow s o
  | none => windowNow s o

/-- A 32-bit read of the window: a read at 0x0100 latches the upper half of device time for the next one at 0x0104 (R33). -/
def windowReadHost (o : Nat) (s : State) : State :=
  { s with bus := le 4 (windowRead32 s o),
           time := { s.time with latch := if o = 0x100 then some (BitVec.ofNat 32 (devtimeReg s / 2 ^ 32))
                                          else if o = 0x104 then none else s.time.latch } }

/-- DEVTIME_LATCH_READ: the read at 0x0100; of the other reads of the window the table has no row. -/
def devtimeLatchRead (s : State) : State := windowReadHost 0x100 s

/-- DEVTIME_LATCH_READ: R33. -/
def execDevtimeLatchRead (s : State) : Host.Outcome State Fault Refusal := act s devtimeLatchRead

/-- WINDOW_WRITE: discarded, with its flag (R338), whatever register the offset names, also one of a resource that the variant
lacks, where R3 says no fault (DEDUCED, log 73). -/
def execWindowWrite (_offset : Nat) (_data : List Byte) (s : State) : Host.Outcome State Fault Refusal := act s (hostFault 8 0 64 9 1)

/-! ### The bulk aperture (R323, R324) -/

/-- Where an access through window `k` at `x` goes: nowhere where its base was never set or its context is disabled (R385), nor in
Retain (R403). -/
def bulkTarget (s : State) (k x : Nat) : Option Nat := if ctxEnabled s k && !inRetain s then (ctxAt s k).window.map (· + x) else none

/-- BULK_APERTURE_WRITE. -/
def bulkWrite (off : Nat) (data : List Byte) (s : State) : State :=
  match bulkTarget s (off / 0x10000000) (off % 0x10000000) with
  | some a => ctxWrite (off / 0x10000000) 9 a data s
  | none => s

/-- BULK_APERTURE_WRITE: R132, R292, R323. -/
def execBulkApertureWrite (offset : Nat) (data : List Byte) (s : State) : Host.Outcome State Fault Refusal :=
  actOn (decide (offset + data.length ≤ 2 ^ 32)) s (bulkWrite offset data)

/-- BULK_APERTURE_READ. -/
def bulkRead (off n : Nat) (s : State) : State :=
  match bulkTarget s (off / 0x10000000) (off % 0x10000000) with
  | some a => ctxRead (off / 0x10000000) 9 a n s
  | none => busZero n s

/-- BULK_APERTURE_READ: R132, R292, R323. -/
def execBulkApertureRead (offset len : Nat) (s : State) : Host.Outcome State Fault Refusal :=
  actOn (decide (offset + len ≤ 2 ^ 32)) s (bulkRead offset len)

/-- PCIE_ATOMIC_OP: answered with Unsupported Request; nothing is accessed (R128, R318). -/
def execPcieAtomicOp (_offset : Nat) (s : State) : Host.Outcome State Fault Refusal := act s id

/-! ### The SPI target (R325) -/

/-- A page that SPI reaches: SPI_EN set and the context enabled. -/
def spiReaches (s : State) (k : Nat) : Bool := s.kpr.spiMask.getLsbD k && ctxEnabled s k

/-- An SPI transaction has been seen. -/
def spiSeen (s : State) : State := { s with kpr := { s.kpr with spiSeen := true } }

/-- A write stays within one mailbox block or the context registers of a page. -/
def spiFits (r n : Nat) : Bool :=
  decide (1 ≤ n) && decide (n ≤ 256) &&
    ((decide (r < 0x400) && decide (r % 0x100 + n ≤ 0x100)) || (decide (0x400 ≤ r) && decide (r + n ≤ 0x40C)))

/-- SPI_WRITE: an instruction other than WRITE, or a write that crosses a block, is discarded with SPI_ERR. -/
def spiWrite (instr addr : Nat) (data : List Byte) (s : State) : State :=
  let s1 := spiSeen s
  if instr ≠ 0x02 ∨ 0x10000 ≤ addr ∨ !spiFits (addr % 0x1000) data.length then hostFault 7 0 65 0xC 1 s1
  else if spiReaches s (addr / 0x1000) then pageWrite (addr / 0x1000) 0xC (addr % 0x1000) data true s1
  else s1

/-- SPI_WRITE: R325. -/
def execSpiWrite (instr addr : Nat) (data : List Byte) (s : State) : Host.Outcome State Fault Refusal := act s (spiWrite instr addr data)

/-- The byte that a READ returns at an address. -/
def spiByte (s : State) (a : Nat) : Byte := if a < 0x10000 ∧ spiReaches s (a / 0x1000) then pageByte s (a / 0x1000) (a % 0x1000) else 0

/-- SPI_READ: bytes from rising addresses; a read of `CTX_IRQ_STATUS` clears it. -/
def spiRead (addr n : Nat) (s : State) : State :=
  let s1 := { spiSeen s with bus := (upFrom n addr).map (spiByte s) }
  (upFrom 16 0).foldl (fun t k =>
    if addr ≤ 0x1000 * k + 0x400 ∧ 0x1000 * k + 0x400 < addr + n ∧ spiReaches s k then clearIrq k t else t) s1

/-- SPI_READ: R325. -/
def execSpiRead (addr len : Nat) (s : State) : Host.Outcome State Fault Refusal := act s (spiRead addr len)

/-- Contexts with a cause pending and enabled. -/
def irqPending (s : State) : Nat := pack ((upFrom 16 0).map fun k => (1, b2n ((ctxAt s k).irqStatus &&& (ctxAt s k).irqMask ≠ 0)))

/-- `SPI_IRQ_N` is low. -/
def spiIrqLow (s : State) : Bool := irqPending s ≠ 0

/-- SPI_IRQ_READ. -/
def spiIrqRead (s : State) : State := { spiSeen s with bus := le 2 (irqPending s) }

/-- SPI_IRQ_READ: R325. -/
def execSpiIrqRead (s : State) : Host.Outcome State Fault Refusal := act s spiIrqRead

/-- SPI_ID: `DEVICE_CAPS` then `MODE_STATE`. -/
def spiId (s : State) : State := { spiSeen s with bus := le 4 (deviceCaps s) ++ le 4 (modeState s) }

/-- SPI_ID: R325. -/
def execSpiId (s : State) : Host.Outcome State Fault Refusal := act s spiId

end Sys2Proof.Machine
end

