-- ==== Sys2Proof/Machine/TunnelFrames.lean ====
section
/-! DEFINITION. Tunnelled frames that arrive: TUNNEL on a star port, CHAIN on a chain port (R238, R239, R242, R256). -/

namespace Sys2Proof.Machine

/-- A worker takes an embedded frame as a command in the mailbox it names; the reply will return over the path it came by. -/
def takeTunnelled (path : Nat) (fr : List Byte) (s : State) : State :=
  let f := parseFrame fr
  if refusesPost s f.ctx f.mb then refusePost s f.ctx f.mb
  else takeFrame f.ctx f.mb fr (modMb s f.ctx f.mb fun m => { m with tunnel := some path })

/-- A whole frame has arrived: at a worker a command, at the manager a reply. -/
def frameArrived (path : Nat) (reply : Bool) (fr : List Byte) (s : State) : State :=
  if reply then (if s.col.role = 1 then tunnelReply fr s else s)
  else if s.col.role = 2 then takeTunnelled path fr s else s

/-- A fragment on port `k`: kept until its frame is whole. -/
def collect (k path size i total : Nat) (reply : Bool) (data : List Byte) (s : State) : State :=
  let buf := takeFragment (portAt s k).fragBuf size i data
  if buf.length = size * total then
    frameArrived path reply (fit 64 buf) (modPort s k fun p => { p with fragBuf := [] })
  else modPort s k fun p => { p with fragBuf := buf }

/-- TUNNEL_FRAME: 16 bytes of a frame. -/
def tunnelFrame (k : Nat) (f : ColFrame) (s : State) : State :=
  collect k 0 16 (bits f.hdr.toNat 4 2) 4 (bitOf f.hdr.toNat 6) (le 16 f.payload.toNat) s

/-- TUNNEL_FRAME: R242, R256. -/
def execTunnelFrame (port : Nat) (f : ColFrame) (s : State) : Host.Outcome State Fault Refusal :=
  actOn (decide (port < 64)) s
    (recvFrame port f (decide (bits f.hdr.toNat 0 4 = 7) && !bitOf f.hdr.toNat 7) false (tunnelFrame port f))

/-- The number by which a device knows itself in the chain: its device number once joined, else its place. -/
def chainNumber (s : State) : Nat := if s.col.role = 2 && !s.col.joined then s.col.chainPos else s.col.devnum

/-- ENUMERATE: the device's place in the chain; the next device is one hop on. -/
def enumerate (hops : Nat) (s : State) : State :=
  let s1 := { s with col := { s.col with chainPos := hops } }
  if 2 ≤ s.col.dnState then colDue s1 65 (enumFrame (hops + 1)) else s1

/-- A CHAIN fragment for another device goes on out of the other chain port. -/
def chainOn (k : Nat) (f : ColFrame) (s : State) : State :=
  let out := if k = 64 then 65 else 64
  if 2 ≤ portState s out then colDue s out { rank := 1, hdr := f.hdr, payload := f.payload } else s

/-- CHAIN_FRAME: an enumeration, a fragment for this device, or one for another. A command that reaches a worker whose star
link is down marks it as reached only over the chain. -/
def chainFrame (k : Nat) (f : ColFrame) (s : State) : State :=
  let i := bits f.hdr.toNat 4 3
  let reply := bitOf f.hdr.toNat 7
  if i = 6 then enumerate (pay f 0 6) s
  else if pay f 0 6 ≠ chainNumber s then chainOn k f s
  else
    let s1 := if s.col.role = 2 && !reply && decide ((portAt s 0).st < 2) then { s with col := { s.col with chainOnly := true } } else s
    collect k 1 12 i 6 reply (le 12 (pay f 32 96)) s1

/-- CHAIN_FRAME: R239, R242, R256. -/
def execChainFrame (port : Nat) (f : ColFrame) (s : State) : Host.Outcome State Fault Refusal :=
  actOn (decide (64 ≤ port) && decide (port < 66)) s
    (recvFrame port f
      (decide (bits f.hdr.toNat 0 4 = 8) && decide (bits f.hdr.toNat 4 3 ≠ 7) && pay f 12 20 = 0 &&
        (decide (bits f.hdr.toNat 4 3 ≠ 6) || pay f 32 96 = 0))
      false (chainFrame port f))

end Sys2Proof.Machine
end

