-- ==== Sys2Proof/Machine/Decide.lean ====
section
/-! DEFINITION. COMMAND_DECISION (R57, R58, R62): the accepted command that comes first is decided at its tick. -/

namespace Sys2Proof.Machine

/-- A task input that a waggle command reprograms. -/
def taskNamed (i : Instr) (t : Nat) : Bool :=
  match i, taskKind t with
  | .wagTaskSet _ k .., _ => k = t
  | .wagCounterSet _ k .., some (.counter j _) => k = j
  | .wagTimerSet _ k .., some (.timer j _) => k = j
  | .wagPinSet _ p .., some (.pin q) => p = q
  | .wagPinSet _ p .., some (.swarm l) => p = 32 + l
  | _, _ => false

/-- An event that a task input holds is decided before rank `r` of tick `d`. -/
def eventFirst (p : Nat × Task) (d r : Nat) : Bool := p.2.held.any fun e => comesFirst e.1 (taskRank p.1) d r

/-- The decision of a command on a cell waits: for samples before it, or for an event decided before it (R41, R62). -/
def cellHolds (s : State) (x : Held) (c : Nat) : Bool :=
  actsOnCell s c x.cmd && (!caughtUp s c x.dec || cellEvent s c fun t dec => comesFirst dec (taskRank t) x.dec (rank x.cmd))

/-- The same for a capture channel. -/
def capHolds (s : State) (x : Held) (c : Nat) : Bool :=
  actsOnCap s c x.cmd &&
    (!capCaughtUp s c x.dec || s.tasks.any fun p => (p.1 = 0x2000 + 2 * c || p.1 = 0x2001 + 2 * c) && eventFirst p x.dec (rank x.cmd))

/-- An escalation deadline passes before a `FAULT_CLEAR` of its block (R415). -/
def deadlineFirst (s : State) (x : Held) : Bool :=
  match x.cmd with
  | .faultClear _ b _ _ => match blockOf b with
    | some k => (fltAt s k).running && decide ((fltAt s k).deadline < x.dec)
    | none => false
  | _ => false

/-- A hop due before a change of routes is still on its way (R220), or an expiry before a timer is reprogrammed (R221). -/
def hopsFirst (s : State) (x : Held) : Bool :=
  match x.cmd with
  | .wagTimerSet _ i .. => (tmrAt s i).running && decide ((tmrAt s i).next < x.dec)
  | i => routeCmd i && s.hops.any fun h => decide (h.due < x.dec)

/-- Something that comes before a command's decision has not happened yet. -/
def mustWait (s : State) (x : Held) : Bool :=
  s.cells.any (fun p => cellHolds s x p.1) || s.caps.any (fun p => capHolds s x p.1) ||
    s.tasks.any (fun p => taskNamed x.cmd p.1 && eventFirst p x.dec (rank x.cmd)) || deadlineFirst s x || hopsFirst s x

/-- A command reaches the cells it acts on at its first affected sample: a cell at rest skips to it (R41, R44). -/
def skipCells (x : Held) (s : State) : State :=
  s.cells.foldl (fun s p =>
    if actsOnCell s p.1 x.cmd then
      let s1 := takeNext p.1 s
      noteActed p.1 x.dec { s1 with cells := tmod {} s1.cells p.1 (skipTo s1 x.dec) }
    else s) s

/-- What an accepted command does at its decision tick; the reading commands of class A have nothing left to do. -/
def decideCmd (x : Held) (s : State) : State :=
  match x.cmd with
  -- keeper, modes, firmware
  | .readyRead _ => decReadyRead x s
  | .windowRead _ offset count => decWindowRead x offset count s
  | .modeSet _ mode power stop k e tx => decModeSet x mode power stop k e tx s
  | .warmReset _ => decWarmReset x s
  | .keeperRestart _ image => decKeeperRestart x image s
  | .hostSet _ spiMask noticeCh restartCh => decHostSet spiMask noticeCh restartCh s
  | .bulkWindowSet _ base => decBulkWindowSet x base s
  | .fwStage _ image size => decFwStage x image size s
  | .fwData _ image offset count _ => decFwData x image offset count s
  | .fwVerify _ image => decFwVerify x image s
  | .fwSelect _ image => decFwSelect image s
  | .fwCommit _ => decFwCommit x s
  -- comb and tables
  | .segLoad _ ca _ data => decWrite x 0x0110 ca data s
  | .combRead _ ca count => decCombRead x ca count s
  | .combFill _ ca length pattern => decWrite x 0x0112 ca (fillBytes pattern (length / 8)) s
  | .combAtomic _ ca op operand => decCombAtomic x ca op operand s
  | .combRegionSet _ hive bank region owner secure => decCombRegionSet hive bank region owner secure s
  | .combActiveRead _ hive bank first count => decCombActiveRead x hive bank first count s
  | .srcTableSet _ hive n => decSrcTableSet x hive n s
  | .srcDescSet _ hive index desc => decSrcDescSet x hive index desc s
  | .curveAreaSet _ hive base envCount => decCurveAreaSet hive base envCount s
  -- clocks
  | .domainSet _ d num den div ldiv lockN guard => decDomainSet x d num den div ldiv lockN guard s
  | .domainOff _ d => decDomainOff d s
  | .syncConfig _ log2 lat drive check => decSyncConfig log2 lat drive check s
  | .sysrefSet _ d mode period count width delay => decSysrefSet d mode period count width delay x.dec s
  | .timeHorizonSet _ hor => decTimeHorizonSet hor x.dec s
  | .timePpsSet _ sec => decTimePpsSet sec s
  | .paceConfig _ window margin fillG fillA floor ceiling up down => decPaceConfig window margin fillG fillA floor ceiling up down s
  -- cells and synthesis
  | .cellBind _ c d ratio t bridge park slip => decCellBind c d ratio t bridge park slip x.dec s
  | .cellArm _ c .. => decCellArm c x.serial s
  | .cellStart _ u => forSel u (fun c => startCell c x.dec 0 false) s
  | .cellStop _ u => forSel u (fun c => stopCell c 0 false) s
  | .cellPause _ u => forSel u (fun c => pauseCell c 0 false) s
  | .cellResume _ u => forSel u resumeCell s
  | .cellRateSet _ c ratio => rateCell c ratio x.dec s
  | .cellUnbind _ c => decCellUnbind c s
  | .groupSet _ g cells => decGroupSet g cells s
  | .cellClear _ c mask => decCellClear c mask s
  | .cellReset _ c => decCellReset c s
  | .synConfig _ c format pdEn pdAddr gU oU => decSynConfig c format pdEn pdAddr gU oU s
  | .synGainSet _ u gU oU => forSel u (fun c => decSynGainSet c gU oU) s
  | .formatSet _ link entry word => decFormatSet link entry word s
  | .synClear _ c mask => decSynClear c mask s
  | .synCalApply _ c gC oC => decSynCalApply c gC oC s
  -- play queues and capture
  | .queueOpen _ c q ringBase sizeLog2 mode tail bufBase bufCount => decQueueOpen c q ringBase sizeLog2 mode tail bufBase bufCount s
  | .queueClose _ c q => decQueueClose x c q s
  | .queueStatus _ c q => decQueueStatus x c q s
  | .queueFlush _ c q => decQueueFlush x c q s
  | .capBind _ c d k slot recBase recLog2 mode => decCapBind c d k slot recBase recLog2 mode s
  | .capArm _ c a => decCapArm x c a s
  | .capDisarm _ u => forSel u (fun c => disarm c x.dec) s
  | .capRelease _ c rd => decCapRelease c rd s
  | .capTrigSet _ c enable thr hyst edge => decCapTrigSet c enable thr hyst edge s
  | .capUnbind _ c => decCapUnbind c s
  | .capClear _ c mask => decCapClear c mask s
  -- waggle
  | .wagChanSet _ w entry => decWagChanSet w entry s
  | .wagTaskSet _ t slots scope => decWagTaskSet t slots scope s
  | .wagRaise _ w level => decWagRaise w level x.dec s
  | .wagTimerSet _ i first period count delay => decWagTimerSet i first period count delay s
  | .wagCounterSet _ i value terminal reload => decWagCounterSet i value terminal reload s
  | .wagPinSet _ p dir idle action width => decWagPinSet p dir idle action width s
  | .wagWatchRead _ => decWagWatchRead x s
  | .wagClear _ u mask level => decWagClear u mask level x.dec s
  | .wagOwnerSet _ kind i owner secure => decWagOwnerSet kind i owner secure s
  -- links and DRAM
  | .linkSet _ i a => decLinkSet i a s
  | .linkEnable _ i => decLinkEnable i s
  | .linkDisable _ i => decLinkDisable i s
  | .linkRetrain _ i => decLinkRetrain i s
  | .linkSlotSet _ i slot format => decLinkSlotSet i slot format s
  | .linkEyeRead _ lane => decLinkEyeRead x lane s
  | .linkClear _ i mask => decLinkClear i mask s
  | .dmcConfig _ chans interleave ctxBase age margin trackH ce => decDmcConfig x chans interleave ctxBase age margin trackH ce s
  | .dramRegionSet _ first count owner secure => decDramRegionSet first count owner secure s
  | .dramRegionRead _ first count => decDramRegionRead x first count s
  | .dmcRetrain _ c kind => decDmcRetrain x c kind s
  | .dmcScrubSet _ enable periodH => decDmcScrubSet enable periodH s
  | .dramWrite _ a _ data => decDramWrite x a data s
  | .dramRead _ a count => decDramRead x a count s
  | .dmcClear _ c mask unfreeze => decDmcClear c mask unfreeze s
  -- auxiliary outputs and colony
  | .auxConfig _ a shape step rate clr => decAuxConfig a shape step rate clr s
  | .auxWrite _ a code raw => decAuxWrite x a code raw s
  | .auxReadback _ a => decAuxReadback x a s
  | .auxClear _ a mask => decAuxClear a mask s
  | .colConfig _ starMask swlLead => decColConfig starMask swlLead s
  | .colSkewCal _ exchanges swlMask => decColSkewCal x exchanges swlMask s
  | .colTunnel _ device path frame => decColTunnel x device path frame s
  | .colClear _ mask => decColClear mask s
  | .colWake _ mask wakeTick => decColWake mask wakeTick s
  -- security, calibration, faults, journal
  | .ctxSet _ k enable secure => decCtxSet k enable secure s
  | .ownSet _ kind first count owner secure => decOwnSet kind first count owner secure s
  | .ownRead _ kind first count => decOwnRead x kind first count s
  | .wakeSet _ evp swl colony wakeTick => decWakeSet evp swl colony wakeTick s
  | .lcAdvance _ target confirm => decLcAdvance x target confirm s
  | .dbgOpen _ level => decDbgOpen level s
  | .dbgResponse _ resp sessionMin => decDbgResponse x resp sessionMin s
  | .dbgClose _ => decDbgClose s
  | .dbgTraceRead _ _ count => decDbgTraceRead x count s
  | .calWrite .. => decCalWrite x s
  | .calErase .. => decCalErase x s
  | .bgsSet _ groom eye skew endurance => decBgsSet groom eye skew endurance s
  | .telemRead _ first count => decTelemRead x first count s
  | .calStart _ items cells lanes auxs => decCalStart x items cells lanes auxs s
  | .faultClear _ b mask rearm => decFaultClear x b mask rearm s
  | .faultMaskSet _ b mask => decFaultMaskSet b mask s
  | .faultEscSet _ b window reaction => decFaultEscSet b window reaction s
  | .faultInject _ kind b bit cls object count => decFaultInject kind b bit cls object count s
  | .restoreClear _ mask => decRestoreClear mask s
  | .jnlConfig _ base size mode period rxMask sigEn => decJnlConfig base size mode period rxMask sigEn s
  | .jnlStop _ => decJnlStop s
  | .jnlCkpt _ => decJnlCkpt x s
  | .jnlExport _ first last dest => decJnlExport x first last dest s
  | .jnlImport .. => decJnlImport x s
  | _ => s

/-- An accepted command is decided: it leaves its unit's store and acts. The triggers of one tick are decided together
(R179). -/
def decideHeld (x : Held) (s : State) : State :=
  match x.cmd with
  | .capTrigger _ c => trigDecide c x.dec s
  | _ => decideCmd x (skipCells x { s with held := s.held.erase x })

/-- COMMAND_DECISION: the command that comes first, once its tick has come and everything before it has happened. -/
def commandDecision (s : State) : State :=
  match firstHeld s.held with
  | none => s
  | some x => if s.time.tick < x.dec ∨ mustWait s x then s else decideHeld x s

/-- COMMAND_DECISION: R57, R58, R62. -/
def execCommandDecision (s : State) : Host.Outcome State Fault Refusal := act s commandDecision

end Sys2Proof.Machine
end

