-- ==== Sys2Proof/Machine/ReplayRows.lean ====
section
/-! DEFINITION. The rows of replay (R439 to R443): its start, the entries applied and imposed at their ticks plus Delta,
its end. -/

namespace Sys2Proof.Machine

/-! ### REPLAY_START (R439) -/

/-- REPLAY_START: the checkpoint is loaded and S_r has come. -/
def replayStart (s : State) : State :=
  if s.rpl.st = 1 ∧ s.rpl.startAt ≤ s.time.tick then { s with rpl := { s.rpl with st := 2 } } else s

/-- REPLAY_START: R439. -/
def execReplayStart (s : State) : Host.Outcome State Fault Refusal := act s replayStart

/-! ### REPLAY_ENTRY (R440, R441) -/

/-- Commands that replay does not apply, by opcode. -/
def replaySkips (op : Nat) : Bool :=
  (decide (op < 0x0100) && op ≠ 0x0020) || (decide (0x0C00 ≤ op) && decide (op < 0x0E00)) || (decide (0x0F00 ≤ op) && decide (op < 0x1000))

/-- A CMD entry: applied as accepted now, without checks and without a reply. -/
def replayCmd (dec ctx : Nat) (i : Instr) (s : State) : State :=
  match specOf i s with
  | none => s
  | some (h, p) =>
    if replaySkips p.op then s
    else
      let s1 := if p.hold then
          holdCmd s ⟨dec + s.rpl.delta, s.time.tick, ctx, 4, h.seq, s.kpr.nextSerial, false, i⟩
        else s
      if p.op = 0x0020 then s1 else p.onAccept s1

/-- A cell is NOT_REPRO from now on. -/
def notReproFrom (c : Nat) (s : State) : State :=
  { s with rpl := { s.rpl with notRepro := (s.rpl.notRepro ++ [c]).eraseDups } }

/-- The CMD entry of a doorbell: TAIL moves; a payload that the PQM fetched and whose CRC-32 differs leaves the cell NOT_REPRO (R154, R441). -/
def replayDoorbell (queue tail : Nat) (ps : List (Nat × Nat × Option Nat)) (s : State) : State :=
  let s1 := modQueue s queue fun q => { q with tail := tail }
  let same (p : Nat × Nat × Option Nat) : Bool := match p.2.2 with
    | some crc => crc32 (memRead s.dram p.1 p.2.1) = crc
    | none => true
  if ps.all same then s1 else notReproFrom (queue / 1024) s1

/-- The number of the pin or line that an edge's SRC_ID names. -/
def srcIndex (ev : Event) : Nat := bits ev.srcId 0 10

/-- An EVENT or SWARM entry's edge: its level at its tick, and its event. -/
def replayEdge (p : Nat) (ev : Event) (s : State) : State :=
  let s1 := modPin s p fun x => { x with hist := histAdd ev.origin ev.level x.hist }
  if wagCarries s then produce s1 ev.srcId ev.origin ev.level ev.gen ev.taint else s1

/-- An EVENT entry of the colony: injected onto its channel. -/
def replayInject (ev : Event) (s : State) : State :=
  if wagCarries s then { s with hops := s.hops ++ [⟨ev.origin + 2, ev, .onto ev.channel, true⟩] } else s

/-- Every cell of a domain in a state that satisfies `p` is changed by `f`. -/
def domEach (d : Nat) (p : CellSt → Bool) (f : Nat → State → State) (s : State) : State :=
  s.cells.foldl (fun s c => if c.2.st ≠ .off && c.2.domain = d && p c.2.st then f c.1 s else s) s

/-- A cell leaves REFLOCK, as at the opening of its domain's guard (R60). -/
def unlockCell (c : Nat) (s : State) : State :=
  let s1 := modCell (releaseArm c s) c fun x => { x with st := .bound }
  modCell s1 c (skipTo s1 s.time.tick)

/-- A STATE entry of a domain: loss of lock or a trip sends its playing cells to REFLOCK, lock brings them back. -/
def replayDomain (d new : Nat) (s : State) : State :=
  if new = 1 then domEach d (· = .reflock) unlockCell s else domEach d playing reflock s

/-- A STATE entry, imposed. The changes of links, DRAM channels, keeper and ports reach the cells by the GAP and LATE
entries, not here. -/
def replayState (kind index new cause : Nat) (s : State) : State :=
  match kind with
  | 0x0 => if new = 6 then simModeSet 6 s.time.tick s else if new = 5 then simModeSet 1 s.time.tick s else s
  | 0x1 => if playing (cellAt s index).st ∨ (cellAt s index).st = .armed then toBound index .bound s else s
  | 0x2 => if (capAt s index).st = .rearm then modCap s index fun x => { x with tR := some s.time.tick } else s
  | 0x6 => replayDomain index new s
  | 0x9 => modTask s index fun k => { k with held := k.held.eraseP fun e => e.2.ev.srcId = cause }
  | 0xD => if new = 0 then auxClearAll s else s
  | _ => s

/-- One entry of the region, at its tick plus Delta. -/
def replayApply (e : JEntry) (s : State) : State :=
  let n := s.rpl.delta
  match e.pay with
  | .cmd dec ctx _ i => replayCmd dec ctx i s
  | .doorbell _ queue tail ps => replayDoorbell queue tail ps s
  | .dbgWrite .. => s
  | .event ev colony => if colony then replayInject (moveEvent n ev) s else replayEdge (srcIndex ev) (moveEvent n ev) s
  | .swarm ev _ _ => replayEdge (32 + srcIndex ev) (moveEvent n ev) s
  | .tcorr _ => s
  | .gap .. => s
  | .late .. => s
  | .state kind index new cause => replayState kind index new cause s
  | .rxdata .. => s
  | .taint ev => replayEdgeless { moveEvent n ev with taint := true } s
  | .ckpt _ => s
  | .digest .. => checkDigest s e.pay
  | .sig .. => s
  | .jgap .. => s
  | .pad => s
  | .rpl .. => s
where
  /-- A TAINT entry's event, at its origin. -/
  replayEdgeless (ev : Event) (s : State) : State :=
    if wagCarries s then produce s ev.srcId ev.origin ev.level ev.gen ev.taint else s

/-- The entry that comes first among those whose tick has come. -/
def dueEntry (s : State) : Option JEntry := s.rpl.todo.find? fun e => decide (e.tick + s.rpl.delta ≤ s.time.tick)

/-- REPLAY_ENTRY: the first entry of the region whose tick plus Delta has come is applied or imposed. -/
def replayEntry (s : State) : State :=
  if s.md.mode ≠ .replay ∨ s.rpl.st ≠ 2 then s
  else match dueEntry s with
    | none => s
    | some e => replayApply e { s with rpl := { s.rpl with todo := s.rpl.todo.erase e } }

/-- REPLAY_ENTRY: R440, R441. -/
def execReplayEntry (s : State) : Host.Outcome State Fault Refusal := act s replayEntry

/-! ### REPLAY_END (R443) -/

/-- The region is over at E + Delta: every entry is applied, every playing cell has its samples before that tick. -/
def regionOver (s : State) : Bool :=
  let t := s.rpl.e + s.rpl.delta
  s.rpl.todo.isEmpty && decide (t ≤ s.time.tick) && s.cells.all fun p => caughtUp s p.1 t

/-- REPLAY ends with a final STATE: IDLE takes effect at tick `t`, and an RPL entry is written. -/
def replayOver (st t : Nat) (s : State) : State :=
  let g := s.rpl.gapEnd && regionOver s
  let s1 := enterMode .idle t (leaveReplay st s)
  let s2 := { s1 with rpl := { s1.rpl with gapEnd := g } }
  jput s2 t (.rpl false s2.rpl.k s2.rpl.e st)

/-- REPLAY_END: a mismatch under STOP_ON_MISMATCH ends REPLAY at the tick that follows it (R20), and the region ends it at
E + Delta; where both meet the mismatch names the result. -/
def replayEnd (s : State) : State :=
  if s.md.mode ≠ .replay ∨ s.rpl.st ≠ 2 then s
  else match s.rpl.stopAt with
    | some t => if t < s.time.tick then replayOver 4 (t + 1) s else s
    | none => if regionOver s then replayOver 3 (s.rpl.e + s.rpl.delta) s else s

/-- REPLAY_END: R442, R443. -/
def execReplayEnd (s : State) : Host.Outcome State Fault Refusal := act s replayEnd

end Sys2Proof.Machine
end

