-- ==== Sys2Proof/Machine/Dispatch.lean ====
section
/-! DEFINITION. One arm per command: the call of its meaning. -/

namespace Sys2Proof.Machine

/-- The effect of a command on everything but the queue of waiting commands. -/
def exec (i : Instr) (s : State) : Host.Outcome State Fault Refusal :=
  match i with
  | .powerOn => Sys2Proof.Machine.execPowerOn s
  | .powerOff => Sys2Proof.Machine.execPowerOff s
  | .resetNAssert => Sys2Proof.Machine.execResetNAssert s
  | .resetNRelease refclkSel colRole1 colRole0 => Sys2Proof.Machine.execResetNRelease refclkSel colRole1 colRole0 s
  | .timePllLock => Sys2Proof.Machine.execTimePllLock s
  | .timeUnlock => Sys2Proof.Machine.execTimeUnlock s
  | .combBankCleared hive catchBank => Sys2Proof.Machine.execCombBankCleared hive catchBank s
  | .flashReady => Sys2Proof.Machine.execFlashReady s
  | .keeperStart => Sys2Proof.Machine.execKeeperStart s
  | .calLoadDone => Sys2Proof.Machine.execCalLoadDone s
  | .pciePerst => Sys2Proof.Machine.execPciePerst s
  | .pcieDown => Sys2Proof.Machine.execPcieDown s
  | .post ctx mb => Sys2Proof.Machine.execPost ctx mb s
  | .ack ctx mb => Sys2Proof.Machine.execAck ctx mb s
  | .mbReset ctx mb => Sys2Proof.Machine.execMbReset ctx mb s
  | .frameTimeout ctx mb => Sys2Proof.Machine.execFrameTimeout ctx mb s
  | .ctxIrqStatusRead ctx => Sys2Proof.Machine.execCtxIrqStatusRead ctx s
  | .devtimeLatchRead => Sys2Proof.Machine.execDevtimeLatchRead s
  | .windowWrite offset data => Sys2Proof.Machine.execWindowWrite offset data s
  | .bulkApertureWrite offset data => Sys2Proof.Machine.execBulkApertureWrite offset data s
  | .bulkApertureRead offset len => Sys2Proof.Machine.execBulkApertureRead offset len s
  | .pcieAtomicOp offset => Sys2Proof.Machine.execPcieAtomicOp offset s
  | .doorbellWrite ctx offset width value => Sys2Proof.Machine.execDoorbellWrite ctx offset width value s
  | .doorbellApply => Sys2Proof.Machine.execDoorbellApply s
  | .spiWrite instr addr data => Sys2Proof.Machine.execSpiWrite instr addr data s
  | .spiRead addr len => Sys2Proof.Machine.execSpiRead addr len s
  | .spiIrqRead => Sys2Proof.Machine.execSpiIrqRead s
  | .spiId => Sys2Proof.Machine.execSpiId s
  | .registerWrite offset data => Sys2Proof.Machine.execRegisterWrite offset data s
  | .commandDecision => Sys2Proof.Machine.execCommandDecision s
  | .nop h args => Sys2Proof.Machine.execNop h args s
  | .deviceInfo h => Sys2Proof.Machine.execDeviceInfo h s
  | .readyRead h => Sys2Proof.Machine.execReadyRead h s
  | .windowRead h offset count => Sys2Proof.Machine.execWindowRead h offset count s
  | .modeSet h mode power stopOnMismatch k e txMask => Sys2Proof.Machine.execModeSet h mode power stopOnMismatch k e txMask s
  | .warmReset h => Sys2Proof.Machine.execWarmReset h s
  | .keeperRestart h image => Sys2Proof.Machine.execKeeperRestart h image s
  | .hostSet h spiMask noticeCh restartCh => Sys2Proof.Machine.execHostSet h spiMask noticeCh restartCh s
  | .bulkWindowSet h base => Sys2Proof.Machine.execBulkWindowSet h base s
  | .fwInfo h => Sys2Proof.Machine.execFwInfo h s
  | .fwStage h image size => Sys2Proof.Machine.execFwStage h image size s
  | .flashEraseDone ok => Sys2Proof.Machine.execFlashEraseDone ok s
  | .fwData h image offset count data => Sys2Proof.Machine.execFwData h image offset count data s
  | .fwVerify h image => Sys2Proof.Machine.execFwVerify h image s
  | .fwSelect h image => Sys2Proof.Machine.execFwSelect h image s
  | .fwCommit h => Sys2Proof.Machine.execFwCommit h s
  | .segLoad h ca count data => Sys2Proof.Machine.execSegLoad h ca count data s
  | .combRead h ca count => Sys2Proof.Machine.execCombRead h ca count s
  | .combFill h ca length pattern => Sys2Proof.Machine.execCombFill h ca length pattern s
  | .combAtomic h ca op operand => Sys2Proof.Machine.execCombAtomic h ca op operand s
  | .combRegionSet h hive bank region owner secure => Sys2Proof.Machine.execCombRegionSet h hive bank region owner secure s
  | .combActiveRead h hive bank first count => Sys2Proof.Machine.execCombActiveRead h hive bank first count s
  | .srcTableSet h hive srcCount => Sys2Proof.Machine.execSrcTableSet h hive srcCount s
  | .srcDescSet h hive index desc => Sys2Proof.Machine.execSrcDescSet h hive index desc s
  | .curveAreaSet h hive base envCount => Sys2Proof.Machine.execCurveAreaSet h hive base envCount s
  | .domainSet h domain num den div ldiv lockN guard => Sys2Proof.Machine.execDomainSet h domain num den div ldiv lockN guard s
  | .domainOff h domain => Sys2Proof.Machine.execDomainOff h domain s
  | .syncConfig h syncLog2 syncLat drive check => Sys2Proof.Machine.execSyncConfig h syncLog2 syncLat drive check s
  | .sysrefSet h domain mode period count width delay => Sys2Proof.Machine.execSysrefSet h domain mode period count width delay s
  | .timeHorizonSet h hor => Sys2Proof.Machine.execTimeHorizonSet h hor s
  | .timePpsSet h sec => Sys2Proof.Machine.execTimePpsSet h sec s
  | .paceConfig h window margin fillGuard fillAlarm floor ceiling stepUp stepDown => Sys2Proof.Machine.execPaceConfig h window margin fillGuard fillAlarm floor ceiling stepUp stepDown s
  | .cellBind h cell domain ratio target bridge park slip => Sys2Proof.Machine.execCellBind h cell domain ratio target bridge park slip s
  | .cellArm h cell stepBase stepCount jmapBase jmapCount firstStep => Sys2Proof.Machine.execCellArm h cell stepBase stepCount jmapBase jmapCount firstStep s
  | .cellStart h unit => Sys2Proof.Machine.execCellStart h unit s
  | .cellStop h unit => Sys2Proof.Machine.execCellStop h unit s
  | .cellPause h unit => Sys2Proof.Machine.execCellPause h unit s
  | .cellResume h unit => Sys2Proof.Machine.execCellResume h unit s
  | .cellRateSet h cell ratio => Sys2Proof.Machine.execCellRateSet h cell ratio s
  | .cellUnbind h cell => Sys2Proof.Machine.execCellUnbind h cell s
  | .groupSet h group cells => Sys2Proof.Machine.execGroupSet h group cells s
  | .cellClear h cell mask => Sys2Proof.Machine.execCellClear h cell mask s
  | .cellReset h cell => Sys2Proof.Machine.execCellReset h cell s
  | .synConfig h cell format pdEn pdAddr gU oU => Sys2Proof.Machine.execSynConfig h cell format pdEn pdAddr gU oU s
  | .synGainSet h unit gU oU => Sys2Proof.Machine.execSynGainSet h unit gU oU s
  | .formatSet h link entry word => Sys2Proof.Machine.execFormatSet h link entry word s
  | .synClear h cell mask => Sys2Proof.Machine.execSynClear h cell mask s
  | .synCoefRead h phase => Sys2Proof.Machine.execSynCoefRead h phase s
  | .synCalApply h cell gC oC => Sys2Proof.Machine.execSynCalApply h cell gC oC s
  | .queueOpen h cell q ringBase sizeLog2 mode tail bufBase bufCount => Sys2Proof.Machine.execQueueOpen h cell q ringBase sizeLog2 mode tail bufBase bufCount s
  | .queueClose h cell q => Sys2Proof.Machine.execQueueClose h cell q s
  | .queueStatus h cell q => Sys2Proof.Machine.execQueueStatus h cell q s
  | .queueFlush h cell q => Sys2Proof.Machine.execQueueFlush h cell q s
  | .capBind h channel domain k slot recBase recLog2 mode => Sys2Proof.Machine.execCapBind h channel domain k slot recBase recLog2 mode s
  | .capArm h channel a => Sys2Proof.Machine.execCapArm h channel a s
  | .capArmFillDone channel => Sys2Proof.Machine.execCapArmFillDone channel s
  | .capDisarm h unit => Sys2Proof.Machine.execCapDisarm h unit s
  | .capTrigger h channel => Sys2Proof.Machine.execCapTrigger h channel s
  | .capRelease h channel rd => Sys2Proof.Machine.execCapRelease h channel rd s
  | .capTrigSet h channel enable thr hyst edge => Sys2Proof.Machine.execCapTrigSet h channel enable thr hyst edge s
  | .capUnbind h channel => Sys2Proof.Machine.execCapUnbind h channel s
  | .capClear h channel mask => Sys2Proof.Machine.execCapClear h channel mask s
  | .wagChanSet h channel entry => Sys2Proof.Machine.execWagChanSet h channel entry s
  | .wagTaskSet h task slots scope => Sys2Proof.Machine.execWagTaskSet h task slots scope s
  | .wagRaise h channel level => Sys2Proof.Machine.execWagRaise h channel level s
  | .wagTimerSet h timer first period count delay => Sys2Proof.Machine.execWagTimerSet h timer first period count delay s
  | .wagCounterSet h counter value terminal reload => Sys2Proof.Machine.execWagCounterSet h counter value terminal reload s
  | .wagPinSet h pin dir idle action width => Sys2Proof.Machine.execWagPinSet h pin dir idle action width s
  | .wagWatchRead h => Sys2Proof.Machine.execWagWatchRead h s
  | .wagClear h unit mask level => Sys2Proof.Machine.execWagClear h unit mask level s
  | .wagOwnerSet h kind index owner secure => Sys2Proof.Machine.execWagOwnerSet h kind index owner secure s
  | .linkSet h link a => Sys2Proof.Machine.execLinkSet h link a s
  | .linkEnable h link => Sys2Proof.Machine.execLinkEnable h link s
  | .linkDisable h link => Sys2Proof.Machine.execLinkDisable h link s
  | .linkRetrain h link => Sys2Proof.Machine.execLinkRetrain h link s
  | .linkSlotSet h link slot format => Sys2Proof.Machine.execLinkSlotSet h link slot format s
  | .linkEyeRead h lane => Sys2Proof.Machine.execLinkEyeRead h lane s
  | .linkClear h link mask => Sys2Proof.Machine.execLinkClear h link mask s
  | .dmcConfig h chans interleave ctxBase ageLimit minMargin trackH ceLimit => Sys2Proof.Machine.execDmcConfig h chans interleave ctxBase ageLimit minMargin trackH ceLimit s
  | .dramRegionSet h first count owner secure => Sys2Proof.Machine.execDramRegionSet h first count owner secure s
  | .dramRegionRead h first count => Sys2Proof.Machine.execDramRegionRead h first count s
  | .dmcRetrain h channel kind => Sys2Proof.Machine.execDmcRetrain h channel kind s
  | .dmcScrubSet h enable periodH => Sys2Proof.Machine.execDmcScrubSet h enable periodH s
  | .dramWrite h addr count data => Sys2Proof.Machine.execDramWrite h addr count data s
  | .dramRead h addr count => Sys2Proof.Machine.execDramRead h addr count s
  | .dmcClear h channel mask unfreeze => Sys2Proof.Machine.execDmcClear h channel mask unfreeze s
  | .auxConfig h channel shape stepSize rate clearCode => Sys2Proof.Machine.execAuxConfig h channel shape stepSize rate clearCode s
  | .auxWrite h channel code raw => Sys2Proof.Machine.execAuxWrite h channel code raw s
  | .auxReadback h channel => Sys2Proof.Machine.execAuxReadback h channel s
  | .auxReadbackDone channel meas => Sys2Proof.Machine.execAuxReadbackDone channel meas s
  | .auxClear h channel mask => Sys2Proof.Machine.execAuxClear h channel mask s
  | .colConfig h starMask swlLead => Sys2Proof.Machine.execColConfig h starMask swlLead s
  | .colSkewCal h exchanges swlMask => Sys2Proof.Machine.execColSkewCal h exchanges swlMask s
  | .colTunnel h device path frame => Sys2Proof.Machine.execColTunnel h device path frame s
  | .colClear h mask => Sys2Proof.Machine.execColClear h mask s
  | .colWake h workerMask wakeTick => Sys2Proof.Machine.execColWake h workerMask wakeTick s
  | .ctxSet h context enable secure => Sys2Proof.Machine.execCtxSet h context enable secure s
  | .ownSet h kind first count owner secure => Sys2Proof.Machine.execOwnSet h kind first count owner secure s
  | .ownRead h kind first count => Sys2Proof.Machine.execOwnRead h kind first count s
  | .wakeSet h evpMask swlMask colony wakeTick => Sys2Proof.Machine.execWakeSet h evpMask swlMask colony wakeTick s
  | .lcAdvance h target confirm => Sys2Proof.Machine.execLcAdvance h target confirm s
  | .dbgOpen h level => Sys2Proof.Machine.execDbgOpen h level s
  | .dbgResponse h resp sessionMin => Sys2Proof.Machine.execDbgResponse h resp sessionMin s
  | .dbgClose h => Sys2Proof.Machine.execDbgClose h s
  | .dbgTraceRead h offset count => Sys2Proof.Machine.execDbgTraceRead h offset count s
  | .calRead h kind index source => Sys2Proof.Machine.execCalRead h kind index source s
  | .calWrite h kind index apply payload => Sys2Proof.Machine.execCalWrite h kind index apply payload s
  | .calRecordProgrammed ok => Sys2Proof.Machine.execCalRecordProgrammed ok s
  | .calErase h kind index apply => Sys2Proof.Machine.execCalErase h kind index apply s
  | .bgsSet h groomRate eyePeriod skewPeriod endurance => Sys2Proof.Machine.execBgsSet h groomRate eyePeriod skewPeriod endurance s
  | .telemRead h first count => Sys2Proof.Machine.execTelemRead h first count s
  | .calStart h items cells laneMask auxMask => Sys2Proof.Machine.execCalStart h items cells laneMask auxMask s
  | .calRunComplete r => Sys2Proof.Machine.execCalRunComplete r s
  | .faultClear h block mask rearm => Sys2Proof.Machine.execFaultClear h block mask rearm s
  | .faultMaskSet h block mask => Sys2Proof.Machine.execFaultMaskSet h block mask s
  | .faultEscSet h block window reaction => Sys2Proof.Machine.execFaultEscSet h block window reaction s
  | .faultInject h kind block bit cls object count => Sys2Proof.Machine.execFaultInject h kind block bit cls object count s
  | .restoreClear h mask => Sys2Proof.Machine.execRestoreClear h mask s
  | .jnlConfig h base size mode ckptPeriod rxMask sigEn => Sys2Proof.Machine.execJnlConfig h base size mode ckptPeriod rxMask sigEn s
  | .jnlStop h => Sys2Proof.Machine.execJnlStop h s
  | .jnlCkpt h => Sys2Proof.Machine.execJnlCkpt h s
  | .jnlExport h first last dest => Sys2Proof.Machine.execJnlExport h first last dest s
  | .jnlImport h source => Sys2Proof.Machine.execJnlImport h source s
  | .keeperRestartDone => Sys2Proof.Machine.execKeeperRestartDone s
  | .wdog => Sys2Proof.Machine.execWdog s
  | .firmwareErrorRestart => Sys2Proof.Machine.execFirmwareErrorRestart s
  | .shadowAudit diverged => Sys2Proof.Machine.execShadowAudit diverged s
  | .paceWindowClose readVout statusFault hives => Sys2Proof.Machine.execPaceWindowClose readVout statusFault hives s
  | .fillAlarm hive => Sys2Proof.Machine.execFillAlarm hive s
  | .telemetrySample chan value => Sys2Proof.Machine.execTelemetrySample chan value s
  | .groomGranule hive bank granule fails restorable => Sys2Proof.Machine.execGroomGranule hive bank granule fails restorable s
  | .eyeCheck m => Sys2Proof.Machine.execEyeCheck m s
  | .skewCheck exchanges => Sys2Proof.Machine.execSkewCheck exchanges s
  | .flashCompaction store fits maxErase => Sys2Proof.Machine.execFlashCompaction store fits maxErase s
  | .regParityCheck block => Sys2Proof.Machine.execRegParityCheck block s
  | .escalationDeadline block => Sys2Proof.Machine.execEscalationDeadline block s
  | .evpEdge pin level => Sys2Proof.Machine.execEvpEdge pin level s
  | .swlEdge line level sub => Sys2Proof.Machine.execSwlEdge line level sub s
  | .swarmReportTimeout line => Sys2Proof.Machine.execSwarmReportTimeout line s
  | .ppsEdge sub => Sys2Proof.Machine.execPpsEdge sub s
  | .ppsMissing => Sys2Proof.Machine.execPpsMissing s
  | .syncOutPulse => Sys2Proof.Machine.execSyncOutPulse s
  | .syncInEdge => Sys2Proof.Machine.execSyncInEdge s
  | .syncMiss => Sys2Proof.Machine.execSyncMiss s
  | .frameSlot port => Sys2Proof.Machine.execFrameSlot port s
  | .idleFrame port f => Sys2Proof.Machine.execIdleFrame port f s
  | .timeFrame port f => Sys2Proof.Machine.execTimeFrame port f s
  | .eventFrame port f => Sys2Proof.Machine.execEventFrame port f s
  | .swarmFrame port f => Sys2Proof.Machine.execSwarmFrame port f s
  | .delayRequest port f t2 => Sys2Proof.Machine.execDelayRequest port f t2 s
  | .delayResponse port f t4 => Sys2Proof.Machine.execDelayResponse port f t4 s
  | .statusFrame port f => Sys2Proof.Machine.execStatusFrame port f s
  | .join port f => Sys2Proof.Machine.execJoin port f s
  | .horizonFrame port f => Sys2Proof.Machine.execHorizonFrame port f s
  | .correct port f => Sys2Proof.Machine.execCorrect port f s
  | .swarmCal port f told => Sys2Proof.Machine.execSwarmCal port f told s
  | .wakeFrame port f => Sys2Proof.Machine.execWakeFrame port f s
  | .tunnelFrame port f => Sys2Proof.Machine.execTunnelFrame port f s
  | .chainFrame port f => Sys2Proof.Machine.execChainFrame port f s
  | .portUp port => Sys2Proof.Machine.execPortUp port s
  | .portDown port => Sys2Proof.Machine.execPortDown port s
  | .correctionSlewStep => Sys2Proof.Machine.execCorrectionSlewStep s
  | .tunnelTimeout => Sys2Proof.Machine.execTunnelTimeout s
  | .domainLock domain => Sys2Proof.Machine.execDomainLock domain s
  | .domUnlock domain => Sys2Proof.Machine.execDomUnlock domain s
  | .guardTrip domain => Sys2Proof.Machine.execGuardTrip domain s
  | .sysrefPulse domain => Sys2Proof.Machine.execSysrefPulse domain s
  | .trainingComplete link eyes => Sys2Proof.Machine.execTrainingComplete link eyes s
  | .presetDwellEnd link preset => Sys2Proof.Machine.execPresetDwellEnd link preset s
  | .noSysref link => Sys2Proof.Machine.execNoSysref link s
  | .retryTimer link => Sys2Proof.Machine.execRetryTimer link s
  | .laneLock lane => Sys2Proof.Machine.execLaneLock lane s
  | .crcLimit lane errors => Sys2Proof.Machine.execCrcLimit lane errors s
  | .rxLate link => Sys2Proof.Machine.execRxLate link s
  | .statusPin link => Sys2Proof.Machine.execStatusPin link s
  | .sampleEmission cell late => Sys2Proof.Machine.execSampleEmission cell late s
  | .refillIssue hive => Sys2Proof.Machine.execRefillIssue hive s
  | .blockResident cell q blk => Sys2Proof.Machine.execBlockResident cell q blk s
  | .captureSample channel word => Sys2Proof.Machine.execCaptureSample channel word s
  | .rearmTick channel => Sys2Proof.Machine.execRearmTick channel s
  | .streamChunk hive samples => Sys2Proof.Machine.execStreamChunk hive samples s
  | .recordCommit channel => Sys2Proof.Machine.execRecordCommit channel s
  | .eventHop => Sys2Proof.Machine.execEventHop s
  | .taskDecision task => Sys2Proof.Machine.execTaskDecision task s
  | .tickTimerExpiry timer => Sys2Proof.Machine.execTickTimerExpiry timer s
  | .pinPulseEnd pin => Sys2Proof.Machine.execPinPulseEnd pin s
  | .swarmDriveLaunch line => Sys2Proof.Machine.execSwarmDriveLaunch line s
  | .swarmDriveRelease line => Sys2Proof.Machine.execSwarmDriveRelease line s
  | .dramCommandSlot channel => Sys2Proof.Machine.execDramCommandSlot channel s
  | .dramEntryDone channel entry => Sys2Proof.Machine.execDramEntryDone channel entry s
  | .refreshDue channel rank => Sys2Proof.Machine.execRefreshDue channel rank s
  | .pageIdleClose channel rank bank => Sys2Proof.Machine.execPageIdleClose channel rank bank s
  | .powerDownEntry channel rank => Sys2Proof.Machine.execPowerDownEntry channel rank s
  | .dramTrainingDone channel pass margin => Sys2Proof.Machine.execDramTrainingDone channel pass margin s
  | .dramClearDone channel => Sys2Proof.Machine.execDramClearDone channel s
  | .trackDone channel pass margin => Sys2Proof.Machine.execTrackDone channel pass margin s
  | .tjMoveTrigger channel => Sys2Proof.Machine.execTjMoveTrigger channel s
  | .trackTimer channel => Sys2Proof.Machine.execTrackTimer channel s
  | .ceLimit channel => Sys2Proof.Machine.execCeLimit channel s
  | .caParity channel => Sys2Proof.Machine.execCaParity channel s
  | .patrolScrubBurst channel => Sys2Proof.Machine.execPatrolScrubBurst channel s
  | .retainLoss => Sys2Proof.Machine.execRetainLoss s
  | .standbyEntryDone => Sys2Proof.Machine.execStandbyEntryDone s
  | .pwrEntry => Sys2Proof.Machine.execPwrEntry s
  | .wakeTick => Sys2Proof.Machine.execWakeTick s
  | .wakeComplete => Sys2Proof.Machine.execWakeComplete s
  | .auxClrAssert => Sys2Proof.Machine.execAuxClrAssert s
  | .auxClrRelease => Sys2Proof.Machine.execAuxClrRelease s
  | .auxSlewStep channel => Sys2Proof.Machine.execAuxSlewStep channel s
  | .deglitchHoldEnd channel => Sys2Proof.Machine.execDeglitchHoldEnd channel s
  | .auxShort channel active => Sys2Proof.Machine.execAuxShort channel active s
  | .debugHalt => Sys2Proof.Machine.execDebugHalt s
  | .debugResume => Sys2Proof.Machine.execDebugResume s
  | .dbgWrite space addr data => Sys2Proof.Machine.execDbgWrite space addr data s
  | .jtagInstructionLoad j => Sys2Proof.Machine.execJtagInstructionLoad j s
  | .tapReset => Sys2Proof.Machine.execTapReset s
  | .sessionExpiry => Sys2Proof.Machine.execSessionExpiry s
  | .nonceExpiry => Sys2Proof.Machine.execNonceExpiry s
  | .authLockExpiry => Sys2Proof.Machine.execAuthLockExpiry s
  | .checkpoint => Sys2Proof.Machine.execCheckpoint s
  | .replayStart => Sys2Proof.Machine.execReplayStart s
  | .replayEntry => Sys2Proof.Machine.execReplayEntry s
  | .replayEnd => Sys2Proof.Machine.execReplayEnd s
  | .multiblockLockAcquired link arrivals => Sys2Proof.Machine.execMultiblockLockAcquired link arrivals s
  | .pcieLinkUp => Sys2Proof.Machine.execPcieLinkUp s
  | .regulatorConfirm readVout => Sys2Proof.Machine.execRegulatorConfirm readVout s
  | .combWriteDone => Sys2Proof.Machine.execCombWriteDone s
  | .fwProgramDone ok => Sys2Proof.Machine.execFwProgramDone ok s
  | .fwVerifyDone verdict => Sys2Proof.Machine.execFwVerifyDone verdict s
  | .fwCommitDone ok => Sys2Proof.Machine.execFwCommitDone ok s
  | .lcAdvanceDone => Sys2Proof.Machine.execLcAdvanceDone s
  | .jnlExportDone ok => Sys2Proof.Machine.execJnlExportDone ok s
  | .jnlImportDone ok => Sys2Proof.Machine.execJnlImportDone ok s
  | .colSkewCalDone silent => Sys2Proof.Machine.execColSkewCalDone silent s

end Sys2Proof.Machine
end

