-- ==== Sys2Proof/Safety.lean ====
section
/-! DEFINITION. The terms in which claims are made: the memories' canonical form, what of a state stays the same,
when a command is accepted and when an accepted one is decided. -/

namespace Sys2Proof.Safety

open Sys2Proof Sys2Proof.Machine

/-! ### Canonical form -/

/-- The byte memories (the comb R120, the keeper's scratchpad R119, DRAM R287, the MSI-X table R322), the queue-context cache
(R151) and the tables of units are in canonical form: numbers strictly rising, no entry at its power-on value. -/
structure Canon (s : State) : Prop where
  comb : Memory.wf s.comb = true
  scratch : Memory.wf s.scratch = true
  lines : twf {} s.inner.lines = true
  dram : Memory.wf s.dram = true
  msixTable : Memory.wf s.msixTable = true
  faults : twf {} s.faults = true
  mailboxes : twf {} s.mailboxes = true
  contexts : twf {} s.contexts = true
  cells : twf {} s.cells = true
  cellOwn : twf {} s.cellOwn = true
  hives : twf {} s.hives = true
  active : twf 0 s.active = true
  combOwn : twf {} s.combOwn = true
  queues : twf {} s.queues = true
  caps : twf {} s.caps = true
  chans : twf {} s.chans = true
  tasks : twf {} s.tasks = true
  counters : twf {} s.counters = true
  timers : twf {} s.timers = true
  pins : twf {} s.pins = true
  domains : twf {} s.domains = true
  ports : twf {} s.col.ports = true
  links : twf {} s.links = true
  rxLanes : twf {} s.rxLanes = true
  dmcs : twf {} s.dmcs = true
  dramOwn : twf {} s.dramOwn = true
  auxs : twf {} s.auxs = true

/-! ### What stays the same -/

/-- The parts of the state, one for each field of `State` but the queue of waiting commands. -/
inductive Part where
  | dev | md | time | pace | kpr | svc | sec | grave | faults | mailboxes | contexts | msixTable
  | held | works | cells | cellOwn | hives | comb | scratch | inner | combMarks | active | combOwn | queues | doorbells
  | caps | chans | tasks | counters | timers | pins | hops | wagEpoch | domains | col | links | rxLanes
  | dmcs | dram | dramMarks | dramOwn | dramSettings | auxs | auxClrN | jnl | rpl | bus | bulk | free
  deriving DecidableEq, Repr

/-- A part is the same in two states. The epochs that count changes of mode, readiness, keeper, colony, power and
security state (R28, R259, R340, R341, R406) are no part of what is compared, nor are the interrupt causes and the
messages they send (R321, R322). -/
def Part.Same (s t : State) : Part → Prop
  | .dev => t.dev = s.dev
  | .md => t.md = { s.md with epoch := t.md.epoch }
  | .time => t.time = s.time
  | .pace => t.pace = s.pace
  | .kpr => t.kpr = { s.kpr with readyEpoch := t.kpr.readyEpoch, epoch := t.kpr.epoch }
  | .svc => t.svc = s.svc
  | .sec => t.sec = { s.sec with epoch := t.sec.epoch, pwrEpoch := t.sec.pwrEpoch }
  | .grave => t.grave = s.grave
  | .faults => t.faults = s.faults
  | .mailboxes => t.mailboxes = s.mailboxes
  | .contexts => t.msixOpen = s.msixOpen ∧
      ∀ k, ctxAt t k = { ctxAt s k with irqStatus := (ctxAt t k).irqStatus }
  | .msixTable => t.msixTable = s.msixTable
  | .held => t.held = s.held
  | .works => t.works = s.works
  | .cells => t.cells = s.cells
  | .cellOwn => t.cellOwn = s.cellOwn
  | .hives => t.hives = s.hives
  | .comb => t.comb = s.comb
  | .scratch => t.scratch = s.scratch
  | .inner => t.inner = s.inner
  | .combMarks => t.combUe = s.combUe ∧ t.combCe = s.combCe
  | .active => t.active = s.active
  | .combOwn => t.combOwn = s.combOwn
  | .queues => t.queues = s.queues
  | .doorbells => t.doorbells = s.doorbells
  | .caps => t.caps = s.caps
  | .chans => t.chans = s.chans
  | .tasks => t.tasks = s.tasks
  | .counters => t.counters = s.counters
  | .timers => t.timers = s.timers
  | .pins => t.pins = s.pins
  | .hops => t.hops = s.hops
  | .wagEpoch => t.wagEpoch = s.wagEpoch
  | .domains => t.domains = s.domains
  | .col => t.col = { s.col with epoch := t.col.epoch }
  | .links => t.links = s.links
  | .rxLanes => t.rxLanes = s.rxLanes
  | .dmcs => t.dmcs = s.dmcs
  | .dram => t.dram = s.dram
  | .dramMarks => t.dramUe = s.dramUe ∧ t.dramCe = s.dramCe
  | .dramOwn => t.dramOwn = s.dramOwn
  | .dramSettings => t.dramSystem = s.dramSystem ∧ t.interleave = s.interleave ∧ t.ctxBase = s.ctxBase ∧
      t.ageLimit = s.ageLimit ∧ t.minMargin = s.minMargin ∧ t.trackH = s.trackH ∧ t.ceLimit = s.ceLimit ∧
      t.scrubOn = s.scrubOn ∧ t.scrubPeriod = s.scrubPeriod
  | .auxs => t.auxs = s.auxs
  | .auxClrN => t.auxClrN = s.auxClrN
  | .jnl => t.jnl = s.jnl
  | .rpl => t.rpl = s.rpl
  | .bus => t.bus = s.bus
  | .bulk => t.bulk = s.bulk
  | .free => t.free = s.free

/-- Every part but those listed is the same in `t` as in `s`. -/
structure SameBut (l : List Part) (s t : State) : Prop where
  same : ∀ p, p ∉ l → p.Same s t

/-! ### Commands -/

/-- The block is powered with RESET_N high (R19), and its tables are in canonical form. -/
structure Live (s : State) : Prop where
  alive : alive s = true
  canon : Canon s

/-- A Berza command that `p` judges is posted in a mailbox the device has, which takes it, and no rule of R327 rejects
it. -/
structure Accepts (s : State) (h : Hdr) (p : CSpec) : Prop extends Live s where
  ctx : h.ctx < 16
  mb : h.mb < 4
  takes : refusesPost s h.ctx h.mb = false
  idle : (mbAt s h.ctx h.mb).asm = none
  seq : seqErr s h.ctx h.mb h.seq = none
  judged : judgeErr s h p = none

/-- The accepted command that comes first has reached its decision tick, and everything that comes before it has
happened (R38, R57, R62); mailbox number 4 marks a command that replay applies. -/
structure Decides (s : State) (x : Held) (c : Instr) : Prop extends Live s where
  cmd : x.cmd = c
  slot : x.mb ≤ 4
  first : firstHeld s.held = some x
  due : x.dec ≤ s.time.tick
  ready : mustWait s x = false

/-- The unit, mailbox, port or pin that a command names is one the device has (R2, R3): a Berza command names its mailbox alone, since an
absent unit in its arguments has an error of its own. -/
def unitHere (s : State) (c : Instr) : Bool :=
  match specOf c s with
  | some (h, _) => decide (h.ctx < 16) && decide (h.mb < 4)
  | none =>
    match c with
    | .post k m | .ack k m | .mbReset k m | .frameTimeout k m => decide (k < 16) && decide (m < 4)
    | .ctxIrqStatusRead k | .doorbellWrite k _ _ _ => decide (k < 16)
    | .bulkApertureWrite a d => decide (a + d.length ≤ 2 ^ 32)
    | .bulkApertureRead a n => decide (a + n ≤ 2 ^ 32)
    | .sampleEmission k _ | .capArmFillDone k | .captureSample k _ | .rearmTick k | .recordCommit k => decide (k < nCells s)
    | .blockResident k q _ => decide (k < nCells s) && decide (q < 1024)
    | .combBankCleared h _ | .fillAlarm h | .refillIssue h | .streamChunk h _ => decide (h < nHives s)
    | .groomGranule h b g _ _ => decide (h < if b < 2 then nHives s else 1) && decide (b < 4) && decide (g < groomSize b)
    | .dramCommandSlot k | .dramEntryDone k _ | .dramTrainingDone k _ _ | .dramClearDone k | .trackDone k _ _ | .tjMoveTrigger k
    | .trackTimer k | .ceLimit k | .caParity k | .patrolScrubBurst k => decide (k < nDmc s)
    | .refreshDue k r | .powerDownEntry k r => decide (k < nDmc s) && decide (r < 2)
    | .pageIdleClose k r b => decide (k < nDmc s) && decide (r < 2) && decide (b < 16)
    | .auxReadbackDone a _ | .auxSlewStep a | .deglitchHoldEnd a | .auxShort a _ | .tickTimerExpiry a => decide (a < 64)
    | .telemetrySample k _ => decide (k < 28)
    | .eyeCheck m => decide (m.lane < nLanes s)
    | .laneLock l | .crcLimit l _ => decide (l < nLanes s)
    | .flashCompaction k _ _ => decide (k < 2)
    | .dbgWrite k _ _ => decide (k < 3)
    | .regParityCheck b => decide (b % 16 < 13) && decide (b < 32)
    | .escalationDeadline b => decide (b < 13)
    | .evpEdge p _ | .pinPulseEnd p => decide (p < 32)
    | .swlEdge l _ _ | .swarmReportTimeout l | .swarmDriveLaunch l | .swarmDriveRelease l => decide (l < 16)
    | .frameSlot p | .idleFrame p _ | .portUp p | .portDown p => decide (p < 66)
    | .timeFrame p _ | .eventFrame p _ | .swarmFrame p _ | .delayRequest p _ _ | .delayResponse p _ _ | .statusFrame p _
    | .join p _ | .horizonFrame p _ | .correct p _ | .swarmCal p _ _ | .wakeFrame p _ | .tunnelFrame p _ => decide (p < 64)
    | .chainFrame p _ => decide (64 ≤ p) && decide (p < 66)
    | .domainLock d | .domUnlock d | .guardTrip d | .sysrefPulse d => decide (d < 4)
    | .trainingComplete k _ | .noSysref k | .retryTimer k => decide (k < 32)
    | .presetDwellEnd k _ | .statusPin k => decide (k < 16)
    | .rxLate k | .multiblockLockAcquired k _ => isRx k && decide (k < 32)
    | .taskDecision k => (taskKind k).isSome
    | _ => true

/-- `c` answers a next state, and that state has `P`. -/
def Completes (c : Instr) (s : State) (P : State → Prop) : Prop := ∃ t, exec c s = .next t ∧ P t

/-- The commands that act on the supplies and RESET_N, which the block takes even while it is off (R19, R395, R448). -/
def powerRow : Instr → Bool
  | .powerOn => true
  | .powerOff => true
  | .resetNAssert => true
  | .resetNRelease .. => true
  | _ => false

/-- The reply of a decided or completed command stands in its mailbox (R332), where its slot is still reserved for it and
the command did not come over a colony path. -/
def Replied (s t : State) (x : Held) (op : Nat) (st : Err) (result : List Byte) : Prop :=
  x.reply = true → (mbAt s x.ctx x.mb).tunnel = none →
    (mbAt t x.ctx x.mb).replyValid = true ∧
    ∃ r, (mbAt t x.ctx x.mb).reply = some r ∧ r.opcode = op ∧ r.seq = x.seq ∧ r.status = st ∧ r.decTick = x.dec ∧
      r.sampleTick = s.time.tick ∧ r.result = result

/-- The reply of a frame that was not accepted stands in its mailbox (R333), where the mailbox does not serve a colony path:
DEC_TICK is 0. -/
def Rejected (s t : State) (c m op seq : Nat) (e : Err) (result : List Byte) : Prop :=
  (mbAt s c m).tunnel = none →
    (mbAt t c m).replyValid = true ∧
    ∃ r, (mbAt t c m).reply = some r ∧ r.opcode = op ∧ r.seq = seq ∧ r.status = e ∧ r.decTick = 0 ∧
      r.sampleTick = s.time.tick ∧ r.result = result

/-- The oldest command of a kind that the keeper works on, and the works without it. -/
def Oldest (s : State) (p : Instr → Prop) (x : Held) (rest : List Held) : Prop :=
  x.mb ≤ 4 ∧ ∃ v w, s.works = v ++ x :: w ∧ p x.cmd ∧ (∀ y ∈ v, ¬ p y.cmd) ∧ rest = v ++ w

/-- The state in which a decided command acts: it has left its unit's store. -/
def released (s : State) (x : Held) : State := { s with held := s.held.erase x }

/-- The state in which a decided cell command finds its cells: each has come to its first affected sample (R41, R44). -/
def reached (s : State) (x : Held) : State := skipCells x (released s x)

end Sys2Proof.Safety
end

