-- ==== Sys2Proof/Certificates/Slice0/Obligations.lean ====
section
/-! DEFINITION. The statements about the block. Each docstring names the rules of spec/ a statement rests on. `Completes c s P`
says that `exec c s` answers a next state with `P`; `SameBut l u t` that `t` is `u` but for the parts in `l` and the epochs
and interrupt causes that settling a step counts and raises. -/

section

open Sys2Proof Sys2Proof.Machine Sys2Proof.Safety

/-- The keeper's own commands at their decisions (R317, R323, R324, R336): READY_READ and WINDOW_READ return what they
name; KEEPER_RESTART replies and restarts 10 microseconds later; HOST_SET and BULK_WINDOW_SET set what they name.
Where the chapter leaves a point open, the clauses follow the model's readings, log 37. -/
def Obligations.KeeperDecisions : Prop :=
  (∀ s x h, Decides s x (.readyRead h) → Completes .commandDecision s fun t =>
    Replied s t x 0x0002 .ok (res [(4, ready0 s), (4, ready1 s), (4, ready2 s), (4, ready3 s), (4, s.kpr.readyEpoch.toNat)]) ∧
    SameBut [.mailboxes, .col] (released s x) t) ∧
  (∀ s x h o n, Decides s x (.windowRead h o n) → Completes .commandDecision s fun t =>
    Replied s t x 0x0003 .ok ((upFrom n 0).flatMap fun i => le 4 (windowNow (released s x) (o + 4 * i))) ∧
    SameBut [.mailboxes, .col] (released s x) t) ∧
  (∀ s x h i, Decides s x (.keeperRestart h i) → (i = 0 ∨ (imgBoots s (i - 1)).isSome = true) →
    Completes .commandDecision s fun t => Replied s t x 0x0022 .ok [] ∧ SameBut [.mailboxes, .col]
      { released s x with kpr := { s.kpr with
          restartAt := some (s.kpr.restartAt.getD (s.time.tick + 1000)),
          restartImg := if i = 0 then (if s.kpr.st = 4 then 0 else s.kpr.activeImg + 1) else i } } t) ∧
  (∀ s x h m n r, Decides s x (.hostSet h m n r) → Completes .commandDecision s
    (SameBut [] { released s x with
      kpr := { s.kpr with spiMask := BitVec.ofNat 16 m ||| 1, noticeCh := n, restartCh := r } })) ∧
  (∀ s x h b, Decides s x (.bulkWindowSet h b) → Completes .commandDecision s fun t =>
    Replied s t x 0x0031 .ok [] ∧ SameBut [.mailboxes, .col]
      { released s x with contexts := tmod {} s.contexts x.ctx fun c => { c with window := some b } } t)

/-- The firmware commands at their decisions and at their completions (R336, R346): staging erases the area, data is
programmed at a rising offset, a check records what it found, a commit raises the minimum SVN; each completion answers.
Where the chapter leaves a point open, the clauses follow the model's readings, log 36. -/
def Obligations.FirmwareDecisions : Prop :=
  (∀ s x h i n, Decides s x (.fwStage h i n) → imgRuns s (i - 1) = false → Completes .commandDecision s
    (SameBut [] (beginWork (modImg (released s x) (i - 1) fun _ => { staged := n }) x))) ∧
  (∀ s x h i n, Decides s x (.fwStage h i n) → imgRuns s (i - 1) = true → Completes .commandDecision s fun t =>
    Replied s t x 0x0041 .badState [] ∧ SameBut [.mailboxes, .col] (released s x) t) ∧
  (∀ s x h i o n d, Decides s x (.fwData h i o n d) → fwDataErr s i o n = none → Completes .commandDecision s
    (SameBut [] (beginWork (modImg (released s x) (i - 1) fun m => { m with upto := o + n, info := none }) x))) ∧
  (∀ s x h i, Decides s x (.fwVerify h i) → fwWhole s i = true → Completes .commandDecision s
    (SameBut [] (beginWork (released s x) x))) ∧
  (∀ s x h i, Decides s x (.fwSelect h i) → (imgBoots s (i - 1)).isSome = true → Completes .commandDecision s
    (SameBut [] { released s x with dev := { s.dev with prefImg := i - 1 } })) ∧
  (∀ s x h, Decides s x (.fwCommit h) → Completes .commandDecision s (SameBut [] (beginWork (released s x) x))) ∧
  (∀ s x h i n w, Live s → Oldest s (fun c => ∃ h i n, c = .fwStage h i n) x w → x.cmd = .fwStage h i n → Completes (.flashEraseDone true) s fun t =>
    Replied s t x 0x0041 .ok [] ∧ SameBut [.mailboxes, .col] (modImg { s with works := w } (i - 1) fun m => { m with erased := true }) t) ∧
  (∀ s x h i o n d w, Live s → Oldest s (fun c => ∃ h i o n d, c = .fwData h i o n d) x w → x.cmd = .fwData h i o n d → Completes (.fwProgramDone true) s fun t =>
    Replied s t x 0x0042 .ok [] ∧
    SameBut [.mailboxes, .col] (modImg { s with works := w } (i - 1) fun m => { m with written := m.written + n }) t) ∧
  (∀ s x h i n w, Live s → Oldest s (fun c => ∃ h i n, c = .fwStage h i n) x w → x.cmd = .fwStage h i n → Completes (.flashEraseDone false) s fun t =>
    Replied s t x 0x0041 .memError [] ∧ SameBut [.mailboxes, .col, .faults] { s with works := w } t) ∧
  (∀ s x h i v w, Live s → Oldest s (fun c => ∃ h i, c = .fwVerify h i) x w → x.cmd = .fwVerify h i → Completes (.fwVerifyDone v) s fun t =>
    SameBut [.mailboxes, .col] (modImg { s with works := w } (i - 1) fun m => { m with info := v }) t ∧
    Replied s t x 0x0043 (if (imgBoots t (i - 1)).isSome = true then .ok else .fwAuth) []) ∧
  (∀ s x h w, Live s → Oldest s (fun c => ∃ h, c = .fwCommit h) x w → x.cmd = .fwCommit h → Completes (.fwCommitDone true) s fun t =>
    Replied s t x 0x0045 .ok [] ∧
    SameBut [.mailboxes, .col] { s with works := w, dev := { s.dev with svnMin := max s.dev.svnMin s.kpr.svn } } t)

/-- The comb's writing commands at their decisions (R120, R121, R127, R134, R473): a write over owned, ready and inactive
granules stores its bytes and no others; an atomic stores the sum or the operand and returns the old value; the source
table takes its size and new entries of zeros. Check bits are made good by what is written (R138): the marks and armed
injections are excepted.
Where the chapter leaves a point open, the clauses follow the model's readings, log 18. -/
def Obligations.CombWrites : Prop :=
  (∀ s x h ca n d, Decides s x (.segLoad h ca n d) → combReadyAt s ca d.length = true → combOwned s x.ctx ca d.length = true →
    firstHeldGranule s ca d.length = none → rmwUe s ca d.length = none → Completes .commandDecision s fun t =>
      (∀ i (hi : i < d.length), memByte t.comb (ca + i) = d[i]) ∧
      (∀ a, a < ca ∨ ca + d.length ≤ a → memByte t.comb a = memByte s.comb a) ∧
      SameBut [.comb, .combMarks, .faults, .grave, .hives] { released s x with works := s.works ++ [x] } t) ∧
  (∀ s x h ca n p, Decides s x (.combFill h ca n p) → combReadyAt s ca (8 * (n / 8)) = true →
    combOwned s x.ctx ca (8 * (n / 8)) = true → firstHeldGranule s ca (8 * (n / 8)) = none → ca % 8 = 0 →
    Completes .commandDecision s fun t =>
      (∀ i, i < 8 * (n / 8) → memByte t.comb (ca + i) = (le 8 p.toNat).getD (i % 8) 0) ∧
      (∀ a, a < ca ∨ ca + 8 * (n / 8) ≤ a → memByte t.comb a = memByte s.comb a) ∧
      SameBut [.comb, .combMarks, .grave] { released s x with works := s.works ++ [x] } t) ∧
  (∀ s x h ca op v, Decides s x (.combAtomic h ca op v) → combReadyAt s ca 8 = true → combOwned s x.ctx ca 8 = true →
    firstHeldGranule s ca 8 = none → spanUe s ca 8 = false → Completes .commandDecision s fun t =>
      Replied s t x 0x0113 .ok (le 8 (ofLe (memRead s.comb ca 8))) ∧
      memRead t.comb ca 8 =
        le 8 (if op = 0 then (BitVec.ofNat 64 (ofLe (memRead s.comb ca 8)) + v).toNat else v.toNat) ∧
      (∀ a, a < ca ∨ ca + 8 ≤ a → memByte t.comb a = memByte s.comb a) ∧
      SameBut [.comb, .combMarks, .grave, .hives, .faults, .mailboxes, .col] (released s x) t) ∧
  (∀ s x h hive n, Decides s x (.srcTableSet h hive n) → tableBusy s hive = false →
    firstHeldGranule s (tableAt hive n) (32 * n) = none → combOwned s x.ctx (tableAt hive n) (32 * n) = true →
    combReadyAt s (combAddr hive 0 0) 1 = true → Completes .commandDecision s fun t =>
      (hiveAt t hive).srcCount = n ∧
      (∀ a, a < tableAt hive n ∨ tableAt hive n + 32 * (n - (hiveAt s hive).srcCount) ≤ a → memByte t.comb a = memByte s.comb a) ∧
      (∀ a, tableAt hive n ≤ a → a < tableAt hive n + 32 * (n - (hiveAt s hive).srcCount) → memByte t.comb a = 0) ∧
      SameBut [.comb, .combMarks, .grave]
        { released s x with hives := tmod {} s.hives hive fun y => { y with srcCount := n } } t) ∧
  (∀ s x h hive i d, Decides s x (.srcDescSet h hive i d) → tableBusy s hive = false → i < (hiveAt s hive).srcCount →
    let ca := combAddr hive 0 (tableOff s hive + 32 * i)
    combReadyAt s ca 32 = true → combOwned s x.ctx ca 32 = true → firstHeldGranule s ca 32 = none → rmwUe s ca 32 = none →
    Completes .commandDecision s fun t =>
      memRead t.comb ca 32 = le 32 d.toNat ∧ (∀ a, a < ca ∨ ca + 32 ≤ a → memByte t.comb a = memByte s.comb a) ∧
      SameBut [.comb, .combMarks, .grave] (released s x) t)

/-- The comb's reading commands, the region command and the end of a write (R129, R134, R335, R387): a read returns the
words, or E_MEM_ERROR where one is uncorrectable; the activity of granules is returned bit by bit; a region takes its
owner; the oldest write of the keeper is answered.
Where the chapter leaves a point open, the clauses follow the model's readings, log 18. -/
def Obligations.CombReads : Prop :=
  (∀ s x h ca n, Decides s x (.combRead h ca n) → combReadyAt s ca (8 * n) = true → combOwned s x.ctx ca (8 * n) = true →
    spanUe s ca (8 * n) = false → spanActive s ca (8 * n) = false → Completes .commandDecision s fun t =>
      Replied s t x 0x0111 .ok (memRead s.comb ca (8 * n)) ∧
      SameBut [.combMarks, .hives, .faults, .mailboxes, .col] (released s x) t) ∧
  (∀ s x h ca n, Decides s x (.combRead h ca n) → combReadyAt s ca (8 * n) = true → combOwned s x.ctx ca (8 * n) = true →
    spanUe s ca (8 * n) = false → Completes .commandDecision s fun t =>
      Replied s t x 0x0111 (if (busyWords (wordsOf ca (8 * n)) s).2.isSome = true then .memError else .ok)
        (if (busyWords (wordsOf ca (8 * n)) s).2.isSome = true then [] else memRead s.comb ca (8 * n)) ∧
      (∀ v, (hiveAt s v).busy ≤ (hiveAt t v).busy ∨ (hiveAt t v).busy = 0xFFFFFFFF) ∧
      SameBut [.combMarks, .free, .hives, .faults, .mailboxes, .col] (released s x) t) ∧
  (∀ s x h ca n, Decides s x (.combRead h ca n) → combReadyAt s ca (8 * n) = true → combOwned s x.ctx ca (8 * n) = true →
    spanUe s ca (8 * n) = true → Completes .commandDecision s fun t =>
      Replied s t x 0x0111 .memError [] ∧
      SameBut [.combMarks, .free, .hives, .faults, .mailboxes, .col] (released s x) t) ∧
  (∀ s x h hive bank first n, Decides s x (.combActiveRead h hive bank first n) →
    combReadyAt s (combAddr hive bank 0) 1 = true → Completes .commandDecision s fun t =>
      Replied s t x 0x0115 .ok (activeBits s (combAddr hive bank 0 / 256 + first) n) ∧
      SameBut [.mailboxes, .col] (released s x) t) ∧
  (∀ s x h hive bank r k secure, Decides s x (.combRegionSet h hive bank r k secure) →
    let ca := combAddr hive bank (r * 0x10000)
    spanActive s ca 0x10000 = false → combReadyAt s ca 1 = true → Completes .commandDecision s fun t =>
      combRegion t ca = ⟨k, secure = 1⟩ ∧
      (∀ a, a / 0x10000 ≠ ca / 0x10000 → combRegion t a = combRegion s a) ∧
      SameBut [.combOwn, .hives] (released s x) t) ∧
  (∀ s x h ca n d w, Live s → Oldest s (fun c => (∃ h ca n d, c = .segLoad h ca n d) ∨ ∃ h ca n p, c = .combFill h ca n p) x w →
    x.cmd = .segLoad h ca n d → Completes .combWriteDone s fun t =>
      Replied s t x 0x0110 .ok (le 4 n) ∧ SameBut [.mailboxes, .col] { s with works := w } t) ∧
  (∀ s x h ca n p w, Live s → Oldest s (fun c => (∃ h ca n d, c = .segLoad h ca n d) ∨ ∃ h ca n p, c = .combFill h ca n p) x w →
    x.cmd = .combFill h ca n p → Completes .combWriteDone s fun t =>
      Replied s t x 0x0112 .ok [] ∧ SameBut [.mailboxes, .col] { s with works := w } t)

/-- The clock commands at their decisions (R34, R37, R51, R227, R232, R235, R236, R257): SYNC_CONFIG, SYSREF_SET,
TIME_HORIZON_SET, TIME_PPS_SET and PACE_CONFIG set what they name (a field of 0 its default); DOMAIN_SET switches its
domain on, unlocked, with its guard closed, and answers; DOMAIN_OFF switches it off.
Where the chapter leaves a point open, the clauses follow the model's readings, log 35, 47. -/
def Obligations.ClockDecisions : Prop :=
  (∀ s x h g l d c, Decides s x (.syncConfig h g l d c) → Completes .commandDecision s (SameBut []
    { released s x with col := { s.col with
        syncLog2 := dflt 20 g, syncLat := dflt 2 l, drive := d = 1, check := c = 1,
        lastSync := nextSync (2 ^ dflt 20 g) (dflt 2 l) s.time.tick } })) ∧
  (∀ s x h hor, Decides s x (.timeHorizonSet h hor) → s.md.mode = .bringUp ∨ s.md.mode = .idle →
    Completes .commandDecision s (SameBut []
      { released s x with
        time := { s.time with horizon := hor, horizons := (s.time.horizon, x.dec) :: s.time.horizons.filter fun p => decide (x.dec < p.2 + 8192) },
        col := { s.col with hAccepted := some s.col.dMax } })) ∧
  (∀ s x h sec, Decides s x (.timePpsSet h sec) → Completes .commandDecision s (SameBut []
    { released s x with time := { s.time with
        ppsArmed := some (sec % 2 ^ 64), ppsSeq := (s.time.ppsSeq + 1) % 65536, ppsRejected := 0 } })) ∧
  (∀ s x h w m fg fa lo hi up dn, Decides s x (.paceConfig h w m fg fa lo hi up dn) → Completes .commandDecision s fun t =>
    t.pace.window = dflt 10000 w ∧ t.pace.marginGuard = dflt 12 m ∧ t.pace.fillGuard = dflt 16 fg ∧
    t.pace.fillAlarm = dflt 8 fa ∧ t.pace.floor = dflt 650 lo ∧ t.pace.ceiling = dflt 850 hi ∧
    t.pace.stepUp = dflt 10 up ∧ t.pace.stepDown = dflt 5 dn ∧
    (dflt 650 lo ≤ dflt 850 hi → dflt 650 lo ≤ t.pace.vset ∧ t.pace.vset ≤ dflt 850 hi) ∧ SameBut [.pace] (released s x) t) ∧
  (∀ s x h d m p n w dl, Decides s x (.sysrefSet h d m p n w dl) → domLinkData s d = false → Completes .commandDecision s
    (SameBut [] { released s x with domains := tmod {} s.domains d fun y => { y with
        srMode := m, srPeriod := p, srCount := n, srWidth := w, srDelay := dl, srNext := sysrefFirst y m p dl x.dec,
        srLeft := if m = 2 then n else 0, srRise := none } })) ∧
  (∀ s x h d num den div ldiv ln g, Decides s x (.domainSet h d num den div ldiv ln g) → domFree (reached s x) d = true →
    Completes .commandDecision s fun t =>
      (domAt t d).on = true ∧ (domAt t d).locked = false ∧ (domAt t d).guardOpen = false ∧ (domAt t d).num = num ∧
      (domAt t d).den = den ∧ (domAt t d).div = div ∧ (domAt t d).ldiv = ldiv ∧ (domAt t d).lockN = dflt 1024 ln ∧
      (domAt t d).guard = dflt 1075 g ∧ (∀ e, e ≠ d → domAt t e = domAt s e) ∧ Replied s t x 0x0200 .ok [] ∧
      (∀ i, i < 32 → (linkAt (reached s x) i).st ≠ .off → (linkAt (reached s x) i).domain = d → (linkAt t i).j =
        (slotLevel (domAt t d) (linkAt (reached s x) i).l (linkAt (reached s x) i).m).getD (linkAt (reached s x) i).j) ∧
      SameBut [.active, .caps, .cells, .col, .domains, .hives, .inner, .jnl, .links, .mailboxes, .queues, .rpl, .rxLanes] (reached s x) t) ∧
  (∀ s x h d num den div ldiv ln g, Decides s x (.domainSet h d num den div ldiv ln g) → domFree (reached s x) d = false →
    Completes .commandDecision s fun t =>
      Replied s t x 0x0200 .badState [] ∧ SameBut [.mailboxes, .col] (reached s x) t) ∧
  (∀ s x h d, Decides s x (.domainOff h d) → domUsed s d = false → Completes .commandDecision s fun t =>
    (domAt t d).on = false ∧ (domAt t d).locked = false ∧ (domAt t d).guardOpen = false ∧
    (∀ e, e ≠ d → domAt t e = domAt s e) ∧
    SameBut [.active, .cells, .domains, .hives, .jnl, .links, .rpl, .rxLanes] (released s x) t)

/-- Events of device time, PPS and SYNC (R30, R33, R34, R226, R227, R228): lock makes device time ready but on a worker;
a read at 0x0100 latches the upper half of device time; an armed PPS edge takes the seconds set for it, any other is taken
or counted as rejected; SYNC_OUT rises at multiples of P_SYNC; a SYNC edge at the wrong tick is counted and a missing one
noticed.
Where the chapter leaves a point open, the clauses follow the model's readings, log 47. -/
def Obligations.TimeEvents : Prop :=
  (∀ s, Live s → s.col.role ≠ 2 → Completes .timePllLock s (SameBut [] { s with
    time := { s.time with pllLock := true, ready := true },
    col := { s.col with timeOk := true, lastSync := nextSync (2 ^ s.col.syncLog2) s.col.syncLat s.time.tick } })) ∧
  (∀ s, Live s → s.col.role = 2 → Completes .timePllLock s (SameBut [] { s with time := { s.time with pllLock := true } })) ∧
  (∀ s, Live s → inRetain s = false → Completes .devtimeLatchRead s (SameBut [] { s with
    bus := le 4 (devtimeReg s), time := { s.time with latch := some (BitVec.ofNat 32 (devtimeReg s / 2 ^ 32)) } })) ∧
  (∀ s sub sec, Live s → s.time.ready = true → s.time.ppsArmed = some sec → Completes (.ppsEdge sub) s (SameBut [] { s with
    time := { s.time with
      ppsInterval := ppsFirst (16 * s.time.tick + sub % 16) s,
      ppsTime := 16 * s.time.tick + sub % 16, ppsSec := sec % 2 ^ 64, ppsSeq := (s.time.ppsSeq + 1) % 65536, ppsValid := true,
      ppsMissing := false, ppsArmed := none, ppsLast := some (16 * s.time.tick + sub % 16) } })) ∧
  (∀ s sub l n, Live s → s.time.ready = true → s.time.ppsArmed = none → s.time.ppsLast = some l →
    ppsCount l (16 * s.time.tick + sub % 16) = some n → Completes (.ppsEdge sub) s (SameBut [] { s with
      time := { s.time with
        ppsTime := 16 * s.time.tick + sub % 16, ppsSec := (s.time.ppsSec + n) % 2 ^ 64, ppsSeq := (s.time.ppsSeq + 1) % 65536,
        ppsValid := true, ppsMissing := false, ppsInterval := (16 * s.time.tick + sub % 16 - l) / n, ppsArmed := none,
        ppsLast := some (16 * s.time.tick + sub % 16) } })) ∧
  (∀ s sub l, Live s → s.time.ready = true → s.time.ppsArmed = none → s.time.ppsLast = some l →
    ppsCount l (16 * s.time.tick + sub % 16) = none → Completes (.ppsEdge sub) s
      (SameBut [] { s with time := { s.time with ppsRejected := min 0xFF (s.time.ppsRejected + 1) } })) ∧
  (∀ s l, Live s → s.time.ppsLast = some l → Completes .ppsMissing s fun t =>
    (l + 1600160000 < 16 * s.time.tick → t.time.ppsMissing = true) ∧
    (l + 4 * 1600160000 < 16 * s.time.tick → t.time.ppsValid = false ∧ t.time.ppsLast = none) ∧ SameBut [.time] s t) ∧
  (∀ s, Live s → syncDriving s = true → s.time.ready = true → s.time.tick % 2 ^ s.col.syncLog2 = 0 →
    Completes .syncOutPulse s (SameBut [] { s with col := { s.col with syncOut := some s.time.tick } })) ∧
  (∀ s, Live s → syncIgnored s = false → s.time.ready = true → s.time.tick % 2 ^ s.col.syncLog2 = s.col.syncLat →
    Completes .syncInEdge s (SameBut [] { s with col := { s.col with syncOk := true, lastSync := s.time.tick } })) ∧
  (∀ s, Live s → syncIgnored s = false → s.time.ready = true → s.time.tick % 2 ^ s.col.syncLog2 ≠ s.col.syncLat →
    Completes .syncInEdge s (SameBut [.faults] { s with col := { s.col with
      syncOk := false, shiftCount := min 0xFF (s.col.shiftCount + 1),
      lastSync := nextSync (2 ^ s.col.syncLog2) s.col.syncLat s.time.tick } })) ∧
  (∀ s, Live s → syncIgnored s = false → s.time.ready = true → s.col.lastSync + 2 ^ s.col.syncLog2 + 4 ≤ s.time.tick →
    Completes .syncMiss s (SameBut [.faults] { s with col := { s.col with
      syncOk := false, miss := min 0xFF (s.col.miss + 1), lastSync := s.col.lastSync + 2 ^ s.col.syncLog2 } }))

/-- The pace loop's events (R49, R51, R52, R450): a window close counts the window of every hive present; a regulator
fault reported at it latches FAULT; a buffer below the fill alarm takes VDD_CORE to the ceiling; the ceiling confirmed
makes READY0.PMBUS 1. Rate domains' events (R232, R233, R234, R236): lock on a tick that is a multiple of P_A opens the guard,
on another only declares lock; a loss of lock counts, and closes the guard, as a trip does; a SYSREF pulse with the guard
open takes the next number, one with it closed is skipped.
Where the chapter leaves a point open, the clauses follow the model's readings, log 48, 49. -/
def Obligations.PaceAndDomainEvents : Prop :=
  (∀ s v f ms, Live s → Completes (.paceWindowClose v f ms) s fun t =>
    (∀ h, h < nHives s → (hiveAt t h).window = ((hiveAt s h).window + 1) % 256 ∧ (hiveAt t h).lateWin = false ∧
      (hiveRuns s h = false → (hiveAt t h).slack = 0x400 ∧ (hiveAt t h).fillMin = 0x40)) ∧
    (∀ h, nHives s ≤ h → hiveAt t h = hiveAt s h) ∧ (paceOn s = true → f = true → t.pace.fault = true) ∧
    (paceOn s = false → t.pace = { s.pace with worst := t.pace.worst }) ∧ t.md.calPace = s.md.calPace - 1 ∧
    SameBut [.hives, .pace, .faults] { s with md := { s.md with calPace := s.md.calPace - 1 } } t) ∧
  (∀ s h, Live s → h < nHives s → paceOn s = true → Completes (.fillAlarm h) s (SameBut [.faults] { s with
    pace := { s.pace with vset := s.pace.ceiling, stepPending := true, stepTick := s.time.tick } })) ∧
  (∀ s h, Live s → h < nHives s → paceOn s = false → Completes (.fillAlarm h) s (SameBut [] s)) ∧
  (∀ s v, Live s → s.kpr.ready = true → within5 v s.pace.vset = true → Completes (.regulatorConfirm v) s (SameBut [] { s with
    kpr := { s.kpr with pmbus := true }, pace := { s.pace with vread := v % 1024, stepPending := false } })) ∧
  (∀ s v, Live s → s.kpr.ready = true → within5 v s.pace.vset = false → Completes (.regulatorConfirm v) s
    (SameBut [.faults] { s with pace := { s.pace with vread := v % 1024, fault := true } })) ∧
  (∀ s d, Live s → d < 4 → (domAt s d).on = true → (domAt s d).guardOpen = false → Completes (.domainLock d) s fun t =>
    (domAt t d).locked = true ∧
    ((domAt t d).guardOpen = true ↔
      s.time.ready = true ∧ alignPeriod (domAt s d) ≠ 0 ∧ s.time.tick % alignPeriod (domAt s d) = 0) ∧
    (∀ e, e ≠ d → domAt t e = domAt s e) ∧ SameBut [.active, .cells, .domains, .hives, .inner, .jnl, .links, .queues, .rxLanes] s t) ∧
  (∀ s d, Live s → d < 4 → (domAt s d).locked = true → lossWaits s d = false →
    (fltAt s .tim).mask.getLsbD (1 + d) = false → Completes (.domUnlock d) s fun t =>
    (domAt t d).locked = false ∧ (domAt t d).guardOpen = false ∧ (domAt t d).unlocks = min 0xFFFF ((domAt s d).unlocks + 1) ∧
    (∀ e, e ≠ d → domAt t e = domAt s e) ∧ (fltAt t .tim).status.getLsbD (1 + d) = true ∧
    SameBut [.active, .cells, .domains, .faults, .hives, .jnl, .links, .rpl, .rxLanes] s t) ∧
  (∀ s d, Live s → d < 4 → (domAt s d).guardOpen = true → lossWaits s d = false → Completes (.guardTrip d) s fun t =>
    (domAt t d).trip = true ∧ (∀ c, playing (cellAt t c).st = true → (cellAt s c).st = .off ∨ (cellAt s c).domain ≠ d) ∧ (domAt t d).guardOpen = false ∧ (∀ e, e ≠ d → domAt t e = domAt s e) ∧
    SameBut [.active, .cells, .domains, .faults, .hives, .jnl, .links, .rpl, .rxLanes] s t) ∧
  (∀ s d, Live s → d < 4 → s.time.ready = true → (domAt s d).srMode = 1 → (domAt s d).guardOpen = true →
    sysrefTick (domAt s d) (domAt s d).srNext ≤ s.time.tick → Completes (.sysrefPulse d) s fun t =>
      (domAt t d).srNext = (domAt s d).srNext + 1 ∧ (domAt t d).srRise = some (domAt s d).srNext ∧
      (∀ i, i < 16 → (linkAt s i).st = .aligning → (linkAt s i).domain = d → (linkAt t i).st = .data) ∧
      SameBut [.domains, .links, .jnl] s t) ∧
  (∀ s d, Live s → d < 4 → s.time.ready = true → (domAt s d).srMode = 1 → (domAt s d).guardOpen = false →
    sysrefTick (domAt s d) (domAt s d).srNext ≤ s.time.tick → Completes (.sysrefPulse d) s (SameBut []
      { s with domains := tmod {} s.domains d fun y => { y with
          srNext := y.srNext + 1, srLeft := y.srLeft - 1, srRise := none },
               col := { s.col with sysrefSkip := min 0xFF (s.col.sysrefSkip + 1) } }))

/-- The transitions of R60 that the cell commands make, at their decisions (R41, R60, R62, R82, R83): a cell command finds
the cell at its first affected sample, moves it as R60 says, and leaves every other cell alone; a command that the cell's
state gives no effect sets CMD_IGNORED or START_IGNORED (R58) and moves nothing. A group command does so for each member.
Where the chapter leaves a point open, the clauses follow the model's readings, log 39, 50. -/
def Obligations.CellTransitions : Prop :=
  (∀ s x h u, Decides s x (.cellStart h u) → Completes .commandDecision s fun t =>
    (∀ c ∈ selCells (reached s x) u, ∀ a, (cellAt (reached s x) c).arm = some a → (cellAt (reached s x) c).st = .armed →
      (domAt s (cellAt (reached s x) c).domain).guardOpen = true → wagActs s c = true →
        (cellAt t c).st = .running ∧ (cellAt t c).step = a.firstStep ∧ (cellAt t c).pos = 0 ∧ (cellAt t c).n = 0 ∧
        (cellAt t c).mRef = edgeAt (domAt s (cellAt (reached s x) c).domain) x.dec) ∧
    (∀ c ∈ selCells (reached s x) u, (cellAt (reached s x) c).st ≠ .armed ∨
      (domAt s (cellAt (reached s x) c).domain).guardOpen = false ∨ wagActs s c = false →
        (cellAt t c).st = (cellAt (reached s x) c).st ∧ (cellAt t c).flags = (cellAt (reached s x) c).flags ||| 0x10) ∧
    (∀ c, c ∉ selCells (reached s x) u → cellAt t c = cellAt (reached s x) c) ∧
    SameBut [.active, .cells, .faults, .hives, .inner, .jnl, .queues, .rpl] (released s x) t) ∧
  (∀ s x h u, Decides s x (.cellStop h u) → Completes .commandDecision s fun t =>
    (∀ c ∈ selCells (reached s x) u,
      (cellAt (reached s x) c).st = .armed ∨ (cellAt (reached s x) c).st = .running ∨ (cellAt (reached s x) c).st = .paused →
        (cellAt t c).st = .bound ∧ (cellAt t c).arm = none) ∧
    (∀ c ∈ selCells (reached s x) u,
      (cellAt (reached s x) c).st ≠ .armed → (cellAt (reached s x) c).st ≠ .running → (cellAt (reached s x) c).st ≠ .paused →
        (cellAt t c).st = (cellAt (reached s x) c).st ∧ (cellAt t c).flags = (cellAt (reached s x) c).flags ||| 0x400) ∧
    (∀ c, c ∉ selCells (reached s x) u → cellAt t c = cellAt (reached s x) c) ∧
    SameBut [.active, .cells, .faults, .hives, .inner, .jnl, .queues, .rpl] (released s x) t) ∧
  (∀ s x h u, Decides s x (.cellPause h u) → Completes .commandDecision s fun t =>
    (∀ c ∈ selCells (reached s x) u, (cellAt (reached s x) c).st = .running →
      (cellAt (reached s x) c).entering = false ∨ (cellAt (reached s x) c).pos = 0 →
      (cellAt t c).st = .paused ∧ (cellAt t c).step = (cellAt (reached s x) c).step ∧
      (cellAt t c).pos = (cellAt (reached s x) c).pos) ∧
    (∀ c ∈ selCells (reached s x) u, (cellAt (reached s x) c).st ≠ .running →
      (cellAt t c).st = (cellAt (reached s x) c).st ∧ (cellAt t c).flags = (cellAt (reached s x) c).flags ||| 0x400) ∧
    (∀ c, c ∉ selCells (reached s x) u → cellAt t c = cellAt (reached s x) c) ∧
    SameBut [.active, .cells, .faults, .hives, .inner, .jnl, .queues, .rpl] (released s x) t) ∧
  (∀ s x h u, Decides s x (.cellResume h u) → Completes .commandDecision s fun t =>
    (∀ c ∈ selCells (reached s x) u, (cellAt (reached s x) c).st = .paused →
      (cellAt t c).st = .running ∧ (cellAt t c).step = (cellAt (reached s x) c).step ∧
      (cellAt t c).pos = (cellAt (reached s x) c).pos) ∧
    (∀ c ∈ selCells (reached s x) u, (cellAt (reached s x) c).st ≠ .paused →
      (cellAt t c).st = (cellAt (reached s x) c).st ∧ (cellAt t c).flags = (cellAt (reached s x) c).flags ||| 0x400) ∧
    (∀ c, c ∉ selCells (reached s x) u → cellAt t c = cellAt (reached s x) c) ∧
    SameBut [.active, .cells, .faults, .hives, .inner, .jnl, .queues, .rpl] (released s x) t) ∧
  (∀ s x h c r, Decides s x (.cellRateSet h c r) → (cellAt (reached s x) c).st = .running → Completes .commandDecision s fun t =>
    (cellAt t c).ratio = r ∧ (cellAt t c).st = .running ∧ (cellAt t c).nRef = (cellAt (reached s x) c).n ∧
    (cellAt t c).mRef = edgeAt (domAt s (cellAt (reached s x) c).domain) x.dec ∧
    (∀ k, k ≠ c → cellAt t k = cellAt (reached s x) k) ∧
    SameBut [.active, .cells, .faults, .hives, .inner, .jnl, .queues, .rpl] (released s x) t) ∧
  (∀ s x h c b n jb jn f, Decides s x (.cellArm h c b n jb jn f) → (cellAt (reached s x) c).st = .bound →
    ∀ k i, (cellAt (reached s x) c).arms.find? (fun p => p.1 = x.serial) = some (k, i) → Completes .commandDecision s fun t =>
      (cellAt t c).st = .armed ∧ (cellAt t c).arm = some i ∧ (∀ j, j ≠ c → cellAt t j = cellAt (reached s x) j) ∧
      SameBut [.active, .cells, .faults, .hives, .inner, .jnl, .queues, .rpl] (released s x) t)

/-- The settings of cells and of the synthesis path at their decisions (R55, R60, R87, R106, R110, R111, R116, R117, R474):
CELL_BIND gives a cell at rest its binding and makes it BOUND, CELL_UNBIND and CELL_RESET make it OFF, GROUP_SET gives
group membership, the clears clear what their mask names, and the synthesis commands set what they name.
Where the chapter leaves a point open, the clauses follow the model's readings, log 21, 50, 52. -/
def Obligations.CellSettings : Prop :=
  (∀ s x h c d r g b p sl, Decides s x (.cellBind h c d r g b p sl) → atRest (reached s x) c = true → g.kind ≠ 1 →
    Completes .commandDecision s fun t =>
      (cellAt t c).st = .bound ∧ (cellAt t c).domain = d ∧ (cellAt t c).ratio = r ∧ (cellAt t c).target = g ∧
      (cellAt t c).bridge = b ∧ (cellAt t c).park = p ∧ (cellAt t c).slip = decide (sl = 1) ∧
      (cellAt t c).mRef = edgeAt (domAt s d) x.dec ∧ (cellAt t c).n = 0 ∧
      (cellAt t c).hold = 0 ∧ (∀ k, k ≠ c → cellAt t k = cellAt (reached s x) k) ∧
      SameBut [.active, .auxs, .cells, .faults, .hives, .inner, .jnl, .queues, .rpl] (released s x) t) ∧
  (∀ s x h c d r a b p sl, Decides s x (.cellBind h c d r ⟨1, a⟩ b p sl) → atRest (reached s x) c = true →
    Completes .commandDecision s fun t =>
      (cellAt t c).st = .bound ∧ (cellAt t c).target = ⟨1, a⟩ ∧ (auxAt t a).bound = some c ∧
      (∀ k, k ≠ c → cellAt t k = cellAt (reached s x) k) ∧
      SameBut [.active, .auxs, .cells, .faults, .hives, .inner, .jnl, .queues, .rpl] (released s x) t) ∧
  (∀ s x h c, Decides s x (.cellUnbind h c) → (cellAt (reached s x) c).st = .bound → Completes .commandDecision s fun t =>
    (cellAt t c).st = .off ∧ (cellAt t c).target = ⟨2, 0⟩ ∧ (∀ k, k ≠ c → cellAt t k = cellAt (reached s x) k) ∧
    SameBut [.active, .auxs, .cells, .faults, .hives, .inner, .jnl, .queues, .rpl] (released s x) t) ∧
  (∀ s x h c, Decides s x (.cellUnbind h c) → (cellAt (reached s x) c).st ≠ .bound → Completes .commandDecision s fun t =>
    (cellAt t c).st = (cellAt (reached s x) c).st ∧ (cellAt t c).flags = (cellAt (reached s x) c).flags ||| 0x400 ∧
    (∀ k, k ≠ c → cellAt t k = cellAt (reached s x) k) ∧
    SameBut [.active, .cells, .faults, .hives, .inner, .jnl, .queues, .rpl] (released s x) t) ∧
  (∀ s x h c, Decides s x (.cellReset h c) → Completes .commandDecision s fun t =>
    (∃ e n, cellAt t c = { epoch := e, lateInject := n }) ∧ (∀ k, k ≠ c → cellAt t k = cellAt (reached s x) k) ∧
    (∀ y, y ∈ t.held ↔ y ∈ (released s x).held ∧ waitsAt c y = false) ∧
    t.grave.restore = s.grave.restore ||| 0x3000 ∧ t.grave.restoreCause = 5 ∧
    SameBut [.active, .auxs, .cells, .faults, .grave, .held, .hives, .inner, .jnl, .queues, .rpl] (released s x) t) ∧
  (∀ s x h g l, Decides s x (.groupSet h g l) →
    ((l ++ if g = 63 then [] else selCells (reached s x) ⟨1, g⟩).all (atRest (reached s x))) = true →
    (l.any fun c => (cellAt (reached s x) c).slip) = false → Completes .commandDecision s fun t =>
      (∀ c ∈ l, (cellAt t c).group = g ∧ (cellAt t c).st = (cellAt (reached s x) c).st) ∧
      (∀ c, c ∉ l → cellAt t c = cellAt (reached s x) c) ∧ SameBut [.active, .cells, .faults, .hives, .inner, .jnl, .queues, .rpl] (released s x) t) ∧
  (∀ s x h g l, Decides s x (.groupSet h g l) →
    ((l ++ if g = 63 then [] else selCells (reached s x) ⟨1, g⟩).all (atRest (reached s x))) = false ∨
      (l.any fun c => (cellAt (reached s x) c).slip) = true → Completes .commandDecision s fun t =>
      (∀ c ∈ l, (cellAt t c).group = (cellAt (reached s x) c).group ∧
        (cellAt t c).flags = (cellAt (reached s x) c).flags ||| 0x400) ∧
      (∀ c, c ∉ l → cellAt t c = cellAt (reached s x) c) ∧ SameBut [.active, .cells, .faults, .hives, .inner, .jnl, .queues, .rpl] (released s x) t) ∧
  (∀ s x h c m, Decides s x (.cellClear h c m) → Completes .commandDecision s fun t =>
    (cellAt t c).flags = (cellAt (reached s x) c).flags &&& ~~~(m.truncate 32) ∧
    (m.getLsbD 32 = true → (cellAt t c).lateCount = 0) ∧
    (m.getLsbD 32 = false → (cellAt t c).lateCount = (cellAt (reached s x) c).lateCount) ∧
    (cellAt t c).st = (cellAt (reached s x) c).st ∧ (∀ k, k ≠ c → cellAt t k = cellAt (reached s x) k) ∧
    SameBut [.active, .cells, .faults, .hives, .inner, .jnl, .queues, .rpl] (released s x) t) ∧
  (∀ s x h c f e a g o, Decides s x (.synConfig h c f e a g o) → atRest (reached s x) c = true → Completes .commandDecision s fun t =>
    cellAt t c = { cellAt (reached s x) c with format := f, pdEn := decide (e = 1), pdAddr := a, gU := g, oU := o } ∧
    (∀ k, k ≠ c → cellAt t k = cellAt (reached s x) k) ∧
    SameBut [.active, .cells, .faults, .hives, .inner, .jnl, .queues, .rpl] (released s x) t) ∧
  (∀ s x h u g o, Decides s x (.synGainSet h u g o) → Completes .commandDecision s fun t =>
    (∀ c ∈ selCells (reached s x) u, (cellAt (reached s x) c).st ≠ .off →
      cellAt t c = { cellAt (reached s x) c with gU := g, oU := o }) ∧
    (∀ c, c ∉ selCells (reached s x) u → cellAt t c = cellAt (reached s x) c) ∧
    SameBut [.active, .cells, .faults, .hives, .inner, .jnl, .queues, .rpl] (released s x) t) ∧
  (∀ s x h c g o, Decides s x (.synCalApply h c g o) → (cellAt (reached s x) c).st ≠ .off → Completes .commandDecision s fun t =>
    cellAt t c = { cellAt (reached s x) c with gC := g, oC := o } ∧ (∀ k, k ≠ c → cellAt t k = cellAt (reached s x) k) ∧
    SameBut [.active, .cells, .faults, .hives, .inner, .jnl, .queues, .rpl] (released s x) t) ∧
  (∀ s x h c m, Decides s x (.synClear h c m) → Completes .commandDecision s fun t =>
    (cellAt t c).clipPre = ((cellAt (reached s x) c).clipPre && !m.getLsbD 0) ∧
    (cellAt t c).clipOut = ((cellAt (reached s x) c).clipOut && !m.getLsbD 1) ∧
    (cellAt t c).st = (cellAt (reached s x) c).st ∧ (∀ k, k ≠ c → cellAt t k = cellAt (reached s x) k) ∧
    SameBut [.active, .cells, .faults, .hives, .inner, .jnl, .queues, .rpl] (released s x) t) ∧
  (∀ s x h i e w, Decides s x (.formatSet h i e w) → formatUsed s i e = false → Completes .commandDecision s fun t =>
    linkAt t i = { linkAt s i with formats := tset 0x180 (linkAt s i).formats e w, epoch := (linkAt t i).epoch } ∧
    (∀ k, k ≠ i → linkAt t k = linkAt s k) ∧ SameBut [.links] (released s x) t) ∧
  (∀ s x h p, Decides s x (.synCoefRead h p) → Completes .commandDecision s (SameBut [] (released s x))) ∧
  (∀ s x h v b n, Decides s x (.curveAreaSet h v b n) → curvesBusy s v = false → Completes .commandDecision s (SameBut []
    { released s x with hives := tmod {} s.hives v fun y => { y with curveBase := b, envCount := n } }))

/-- `MODE_SET` at its decision (R20, R21, R24, R470): a transition that R20 does not have is answered E_BAD_MODE; one that it
has takes effect at the decision tick, with MODE_STATE naming the old mode; a mode in which cells may not play stops them; a
SAFE asked for in BRING-UP is held. The moves between BRING-UP, IDLE, RUN, SAFE and FACTORY.
Where the chapter leaves a point open, the clauses follow the model's readings, log 41. -/
def Obligations.ModeChanges : Prop :=
  (∀ s x h m p st k e tx, Decides s x (.modeSet h m p st k e tx) → x.mb < 4 → transition s.md.mode m = false →
    Completes .commandDecision s fun t => Replied s t x 0x0020 .badMode [] ∧ SameBut [.mailboxes, .col] (reached s x) t) ∧
  (∀ s x h m p st k e tx r, Decides s x (.modeSet h m p st k e tx) → x.mb < 4 → transition s.md.mode m = true →
    modeCondition (reached s x) m k e = some r →
    Completes .commandDecision s fun t => Replied s t x 0x0020 r [] ∧ SameBut [.mailboxes, .col] (reached s x) t) ∧
  (∀ s x h p st k e tx, Decides s x (.modeSet h 1 p st k e tx) → x.mb < 4 → s.md.mode = .bringUp → s.kpr.ready = true →
    s.time.ready = true → s.md.safeHeld = false → Completes .commandDecision s fun t =>
      t.md.mode = .idle ∧ t.md.prev = .bringUp ∧ t.md.power = 1 ∧ t.md.since = 16 * x.dec ∧ Replied s t x 0x0020 .ok [] ∧
      SameBut [.md, .jnl, .links, .mailboxes, .col] (reached s x) t) ∧
  (∀ s x h p st k e tx, Decides s x (.modeSet h 7 p st k e tx) → x.mb < 4 → s.md.mode = .bringUp → lcOpen s = true →
    s.md.safeHeld = false → Completes .commandDecision s fun t =>
      t.md.mode = .factory ∧ t.md.prev = .bringUp ∧ Replied s t x 0x0020 .ok [] ∧
      SameBut [.md, .auxs, .jnl, .links, .mailboxes, .col, .pace] (reached s x) t) ∧
  (∀ s x h p st k e tx, Decides s x (.modeSet h 6 p st k e tx) → x.mb < 4 → s.md.mode = .bringUp →
    Completes .commandDecision s fun t =>
      t.md.mode = .bringUp ∧ t.md.safeHeld = true ∧ Replied s t x 0x0020 .ok [] ∧
      SameBut [.md, .mailboxes, .col] (reached s x) t) ∧
  (∀ s x h p st k e tx, Decides s x (.modeSet h 2 p st k e tx) → x.mb < 4 → s.md.mode = .idle →
    Completes .commandDecision s fun t =>
      t.md.mode = .run ∧ t.md.prev = .idle ∧ t.md.power = 0 ∧ t.md.since = 16 * x.dec ∧ Replied s t x 0x0020 .ok [] ∧
      SameBut [.md, .jnl, .links, .mailboxes, .col] (reached s x) t) ∧
  (∀ s x h p st k e tx, Decides s x (.modeSet h 1 p st k e tx) → x.mb < 4 → s.md.mode = .run →
    Completes .commandDecision s fun t =>
      t.md.mode = .idle ∧ t.md.prev = .run ∧ t.md.power = 1 ∧ t.md.since = 16 * x.dec ∧
      (∀ c, (cellAt t c).st ≠ .armed ∧ (cellAt t c).st ≠ .running ∧ (cellAt t c).st ≠ .paused) ∧
      (∀ c, (capAt t c).st ≠ .armed ∧ (capAt t c).st ≠ .window ∧ (capAt t c).st ≠ .rearm) ∧ Replied s t x 0x0020 .ok [] ∧
      SameBut [.md, .active, .caps, .cells, .col, .dmcs, .dram, .dramMarks, .faults, .grave, .hives, .inner, .jnl, .links, .mailboxes, .queues,
        .rpl] (reached s x) t) ∧
  (∀ s x h p st k e tx, Decides s x (.modeSet h 1 p st k e tx) → x.mb < 4 → s.md.mode = .safe →
    class2Held (reached s x) = false → s.md.resetOnly = false → Completes .commandDecision s fun t =>
      t.md.mode = .idle ∧ t.md.prev = .safe ∧ Replied s t x 0x0020 .ok [] ∧
      SameBut [.md, .jnl, .links, .mailboxes, .col] (reached s x) t) ∧
  (∀ s x h p st k e tx, Decides s x (.modeSet h 6 p st k e tx) → x.mb < 4 → s.md.mode = .safe →
    Completes .commandDecision s fun t => Replied s t x 0x0020 .ok [] ∧ SameBut [.mailboxes, .col] (reached s x) t)

/-- Entering SAFE, STANDBY and REPLAY by `MODE_SET`, leaving STANDBY and REPLAY, and `WARM_RESET` (R20, R51, R356, R390, R394,
R421, R423, R425, R426, R443): SAFE stops every cell, sets VDD_CORE to its ceiling, puts auxiliary outputs to their clear
codes and discards armed injections; STANDBY begins its entry; REPLAY loads its region; a warm reset brings every unit to
BRING-UP, discards accepted commands and restarts the keeper, the comb as it was.
Where the chapter leaves a point open, the clauses follow the model's readings, log 41, 42, 43. -/
def Obligations.ModeEntries : Prop :=
  (∀ s x h p st k e tx, Decides s x (.modeSet h 6 p st k e tx) → x.mb < 4 → s.md.mode = .idle ∨ s.md.mode = .run ∨ s.md.mode = .factory →
    Completes .commandDecision s fun t =>
      t.md.mode = .safe ∧ t.md.prev = s.md.mode ∧ t.md.power = 1 ∧ t.md.resetOnly = decide (s.md.mode = .factory) ∧
      t.md.safeHeld = false ∧ (s.kpr.ready = true → t.pace.vset = s.pace.ceiling) ∧
      (s.md.mode = .run → ∀ c, (cellAt t c).st ≠ .armed ∧ (cellAt t c).st ≠ .running ∧ (cellAt t c).st ≠ .paused) ∧
      (∀ a, a < 64 → auxAt t a = { auxClear (auxAt s a) with epoch := (auxAt t a).epoch }) ∧
      t.grave.injComb = [] ∧ t.grave.injDram = [] ∧ Replied s t x 0x0020 .ok [] ∧
      SameBut [.md, .active, .auxs, .caps, .cells, .col, .dmcs, .dram, .dramMarks, .faults, .grave, .hives, .inner, .jnl, .links, .mailboxes,
        .pace, .pins, .queues, .rpl, .wagEpoch] (reached s x) t) ∧
  (∀ s x h p st k e tx, Decides s x (.modeSet h 5 p st k e tx) → x.mb < 4 → s.md.mode = .idle →
    modeCondition (reached s x) 5 k e = none → Completes .commandDecision s fun t =>
      t.md.mode = .standby ∧ t.md.prev = .idle ∧ t.sec.entering = true ∧ t.sec.entryTarget = p ∧ t.sec.entryTick = x.dec ∧
      (∀ d, d < 4 → (domAt t d).guardOpen = false) ∧ (s.kpr.ready = true → t.pace.vset = s.pace.floor) ∧
      (p = 3 → t.sec.sessionEnd = none) ∧ Replied s t x 0x0020 .ok [] ∧
      SameBut [.md, .active, .auxs, .bulk, .bus, .col, .dmcs, .domains, .dram, .dramMarks, .faults, .grave, .hives, .inner, .jnl, .kpr,
        .links, .mailboxes, .pace, .pins, .queues, .rxLanes, .sec, .wagEpoch, .works] (reached s x) t) ∧
  (∀ s x h p st k e tx, Decides s x (.modeSet h 1 p st k e tx) → x.mb < 4 → s.md.mode = .standby → s.sec.entering = false →
    s.sec.waking = false → Completes .commandDecision s fun t =>
      t.md.mode = .standby ∧ t.sec.waking = true ∧ t.sec.wakeCause = 1 ∧ t.sec.wakeStart = x.dec ∧ t.sec.sramRet = false ∧
      t.pace.vset = s.pace.ceiling ∧ x ∈ t.works ∧ (∀ y ∈ t.works, y ∈ s.works ∨ y = x) ∧
      SameBut [.active, .bulk, .bus, .col, .dmcs, .faults, .hives, .inner, .jnl, .mailboxes, .pace, .queues, .sec, .works] (reached s x) t) ∧
  (∀ s x h p st k e tx, Decides s x (.modeSet h 6 p st k e tx) → x.mb < 4 → s.md.mode = .standby → s.sec.entering = false →
    s.sec.waking = false → Completes .commandDecision s fun t =>
      t.sec.waking = true ∧ t.sec.wakeCause = 1 ∧ x ∈ t.works ∧ t.sec.safeAfterWake.isSome = true ∧
      SameBut [.active, .bulk, .bus, .col, .dmcs, .faults, .hives, .inner, .jnl, .mailboxes, .pace, .queues, .sec, .works] (reached s x) t) ∧
  (∀ s x h p st k e tx, Decides s x (.modeSet h 3 p st k e tx) → x.mb < 4 → s.md.mode = .idle →
    modeCondition (reached s x) 3 k e = none → Completes .commandDecision s fun t =>
      t.md.mode = .replay ∧ t.md.prev = .idle ∧ t.rpl.st = 1 ∧ t.rpl.k = k ∧ t.rpl.txMask = tx ∧ t.rpl.stopOn = decide (st = 1) ∧
      Replied s t x 0x0020 .ok [] ∧
      SameBut [.md, .active, .caps, .cells, .chans, .col, .counters, .dmcs, .doorbells, .held, .hives, .hops, .inner, .jnl, .kpr, .links,
        .mailboxes, .pace, .pins, .queues, .rpl, .tasks, .timers, .wagEpoch] (reached s x) t) ∧
  (∀ s x h p st k e tx, Decides s x (.modeSet h 1 p st k e tx) → x.mb < 4 → s.md.mode = .replay →
    Completes .commandDecision s fun t =>
      t.md.mode = .idle ∧ t.md.prev = .replay ∧ t.rpl.st = 5 ∧ (∀ c, ∃ n, cellAt t c = { epoch := n }) ∧ t.doorbells = [] ∧
      t.tasks = [] ∧ Replied s t x 0x0020 .ok [] ∧
      SameBut [.md, .active, .auxs, .caps, .cells, .chans, .col, .counters, .dmcs, .doorbells, .grave, .held, .hives, .hops, .inner, .jnl,
        .links, .mailboxes, .pins, .queues, .rpl, .tasks, .timers, .wagEpoch] (reached s x) t) ∧
  (∀ s x h, Decides s x (.warmReset h) → x.mb < 4 → warmBlocked (reached s x) = true → Completes .commandDecision s
    (SameBut [.jnl] (reached s x))) ∧
  (∀ s x h, Decides s x (.warmReset h) → x.mb < 4 → warmBlocked (reached s x) = false → Completes .commandDecision s fun t =>
    t.md.mode = .bringUp ∧ t.md.prev = s.md.mode ∧ t.md.resetOnly = false ∧ t.md.safeHeld = s.md.safeHeld ∧ t.held = [] ∧ t.works = [] ∧
    t.kpr.ready = false ∧ t.kpr.st = 3 ∧ t.kpr.restarts = min 0xFF (s.kpr.restarts + 1) ∧ t.sec.halted = false ∧
    (∀ c, ∃ n, cellAt t c = { epoch := n }) ∧ (∀ q, ∃ n, queueAt t q = { epoch := n }) ∧
    (∀ c, ∃ n, capAt t c = { epoch := n }) ∧ t.active = [] ∧ t.tasks = [] ∧ t.doorbells = [] ∧
    (∀ c m, (mbAt t c m).seqFree = true ∧ (mbAt t c m).asm = none) ∧ t.grave.restoreCause = 3 ∧
    SameBut [.active, .auxs, .bulk, .bus, .caps, .cells, .chans, .col, .counters, .dmcs, .doorbells, .dram, .dramMarks, .faults, .grave,
      .held, .hives, .hops, .inner, .jnl, .kpr, .links, .mailboxes, .md, .pace, .pins, .queues, .rpl, .sec, .svc, .tasks, .timers,
      .wagEpoch, .works] (reached s x) t)

/-- The play-queue commands at their decisions (R145, R150, R155): QUEUE_OPEN opens a closed queue over inactive buffers and
makes them active; QUEUE_STATUS returns the context; QUEUE_FLUSH and QUEUE_CLOSE answer E_BAD_STATE where a live queue is
named, complete at once where no block is in flight, and otherwise discard the blocks and wait for those in flight.
Where the chapter leaves a point open, the clauses follow the model's readings, log 53. -/
def Obligations.QueueDecisions : Prop :=
  (∀ s x h c q rb sl m tl bb bc, Decides s x (.queueOpen h c q rb sl m tl bb bc) → (queueAt s (queueNum c q)).st = .closed →
    firstHeldGranule s (combAddr (hiveOf c) 0 bb) (4096 * bc) = none → Completes .commandDecision s fun t =>
      queueAt t (queueNum c q) = { ({} : Queue) with
        epoch := (queueAt (ctxTouch (queueNum c q) (released s x)) (queueNum c q)).epoch + 1, ringBase := rb, sizeLog2 := sl, mode := m,
        st := .opened, tail := if m = 0 then tl else 0, bufBase := bb / 4096, bufCount := bc } ∧
      (∀ i, i ≠ queueNum c q → queueAt t i = queueAt s i) ∧
      (∀ g, combAddr (hiveOf c) 0 (bb / 4096 * 4096) / 256 ≤ g → 256 * g < combAddr (hiveOf c) 0 (bb / 4096 * 4096) + 4096 * bc →
        0 < tget 0 t.active g) ∧
      SameBut [.active, .hives, .jnl, .queues] (ctxTouch (queueNum c q) (released s x)) t) ∧
  (∀ s x h c q, Decides s x (.queueStatus h c q) → Completes .commandDecision s fun t =>
    Replied s t x 0x0502 .ok (queueContext (ctxTouch (queueNum c q) (released s x)) (queueNum c q)) ∧
    SameBut [.mailboxes, .col] (ctxTouch (queueNum c q) (released s x)) t) ∧
  (∀ s x h c q, Decides s x (.queueClose h c q) → qLive (queueAt s (queueNum c q)) = true → Completes .commandDecision s fun t =>
    Replied s t x 0x0501 .badState [] ∧ SameBut [.mailboxes, .col] (ctxTouch (queueNum c q) (released s x)) t) ∧
  (∀ s x h c q, Decides s x (.queueClose h c q) → qLive (queueAt s (queueNum c q)) = false →
    let u := ctxTouch (queueNum c q) (released s x)
    (queueAt u (queueNum c q)).st = .closed → Completes .commandDecision s fun t =>
      Replied s t x 0x0501 .ok [] ∧ SameBut [.mailboxes, .col] u t) ∧
  (∀ s x h c q, Decides s x (.queueClose h c q) → qLive (queueAt s (queueNum c q)) = false →
    let u := ctxTouch (queueNum c q) (released s x)
    (queueAt u (queueNum c q)).st ≠ .closed → qInflight (queueAt s (queueNum c q)) = 0 →
    (∀ y ∈ s.works, ∀ g a b, queueNum a b = queueNum c q → y.cmd ≠ .queueClose g a b ∧ y.cmd ≠ .queueFlush g a b) →
    Completes .commandDecision s fun t =>
      (queueAt t (queueNum c q)).st = .closed ∧ (queueAt t (queueNum c q)).blocks = [] ∧ (queueAt t (queueNum c q)).pos = 0 ∧
      (queueAt t (queueNum c q)).err = 0 ∧ (∀ i, i ≠ queueNum c q → queueAt t i = queueAt s i) ∧ Replied s t x 0x0501 .ok [] ∧
      SameBut [.active, .hives, .queues, .mailboxes, .col] u t) ∧
  (∀ s x h c q, Decides s x (.queueClose h c q) → qLive (queueAt s (queueNum c q)) = false →
    let u := ctxTouch (queueNum c q) (released s x)
    (queueAt u (queueNum c q)).st ≠ .closed → 0 < qInflight (queueAt s (queueNum c q)) → Completes .commandDecision s fun t =>
      (∀ b ∈ (queueAt t (queueNum c q)).blocks, b.discard = true ∧ b.flushed = true) ∧
      (queueAt t (queueNum c q)).st = (queueAt u (queueNum c q)).st ∧
      qInflight (queueAt t (queueNum c q)) = qInflight (queueAt s (queueNum c q)) ∧
      (∀ i, i ≠ queueNum c q → queueAt t i = queueAt s i) ∧ SameBut [.queues] (beginWork u x) t) ∧
  (∀ s x h c q, Decides s x (.queueFlush h c q) → qLive (queueAt s (queueNum c q)) = true → Completes .commandDecision s fun t =>
    Replied s t x 0x0503 .badState [] ∧ SameBut [.mailboxes, .col] (ctxTouch (queueNum c q) (released s x)) t) ∧
  (∀ s x h c q, Decides s x (.queueFlush h c q) → qLive (queueAt s (queueNum c q)) = false →
    let u := ctxTouch (queueNum c q) (released s x)
    (queueAt u (queueNum c q)).st = .opened ∨ (queueAt u (queueNum c q)).st = .failed → qInflight (queueAt s (queueNum c q)) = 0 →
    (∀ y ∈ s.works, ∀ g a b, queueNum a b = queueNum c q → y.cmd ≠ .queueClose g a b ∧ y.cmd ≠ .queueFlush g a b) →
    Completes .commandDecision s fun t =>
      (queueAt t (queueNum c q)).st = .opened ∧ (queueAt t (queueNum c q)).blocks = [] ∧ (queueAt t (queueNum c q)).pos = 0 ∧
      (queueAt t (queueNum c q)).err = 0 ∧
      (queueAt t (queueNum c q)).head = (if (queueAt s (queueNum c q)).mode = 0 then (queueAt s (queueNum c q)).tail else 0) ∧
      (queueAt t (queueNum c q)).tail = (queueAt s (queueNum c q)).tail ∧ (∀ i, i ≠ queueNum c q → queueAt t i = queueAt s i) ∧
      Replied s t x 0x0503 .ok [] ∧ SameBut [.hives, .queues, .mailboxes, .col] u t)

/-- Doorbells and refill (R152, R153, R154, R156, R157, R164): a doorbell write enters the FIFO behind the aperture's writes, or is
DB_OVERRUN where it is full; the oldest doorbell waits for those writes, then moves its queue's TAIL alone, or changes no queue where
R153 rejects it; a hive without a credit requests nothing, one with a credit the next block of the queue it picks; a block whose
reads have completed becomes resident, with the bytes read; a discarded block returns its credit and writes nothing.
Where the chapter leaves a point open, the clauses follow the model's readings, log 53, 55, 76, 77. -/
def Obligations.QueueEvents : Prop :=
  (∀ s k off v, Live s → k < 16 → s.doorbells.length < 512 → off % 8 = 0 → Completes (.doorbellWrite k off 64 v) s
    (SameBut [] { s with doorbells := s.doorbells ++ [⟨k, 64, v, (s.bulk.ops.filter fun o => !o.read).map (·.id)⟩] })) ∧
  (∀ s k off w v, Live s → k < 16 → 512 ≤ s.doorbells.length → (fltAt s .pqm).mask.getLsbD 1 = false →
    Completes (.doorbellWrite k off w v) s fun t => (fltAt t .pqm).status.getLsbD 1 = true ∧ SameBut [.faults] s t) ∧
  (∀ s d r, Live s → s.doorbells = d :: r → (s.bulk.ops.any fun o => d.after.contains o.id) = true → Completes .doorbellApply s
    (SameBut [] s)) ∧
  (∀ s d r, Live s → s.doorbells = d :: r → (s.bulk.ops.any fun o => d.after.contains o.id) = false →
    let i := bits d.value.toNat 0 20
    let u := if i / 1024 < nCells s then ctxTouch i { s with doorbells := r } else { s with doorbells := r }
    doorbellBad u d = true → Completes .doorbellApply s (SameBut [.faults] u)) ∧
  (∀ s d r, Live s → s.doorbells = d :: r → (s.bulk.ops.any fun o => d.after.contains o.id) = false →
    let i := bits d.value.toNat 0 20
    let u := ctxTouch i { s with doorbells := r }
    i / 1024 < nCells s → doorbellBad u d = false → Completes .doorbellApply s fun t =>
      (queueAt t i).tail = bits d.value.toNat 20 16 ∧ (queueAt t i).head = (queueAt s i).head ∧ (queueAt t i).st = (queueAt u i).st ∧
      (∀ j, j ≠ i → queueAt t j = queueAt s j) ∧ SameBut [.jnl, .queues] u t) ∧
  (∀ s h, Live s → h < nHives s → (hiveAt (placeWaiting s) h).credits = 0 → Completes (.refillIssue h) s
    (SameBut [] (placeWaiting s))) ∧
  (∀ s h i, Live s → h < nHives s → placeWaiting s = s → (hiveAt s h).credits ≠ 0 → pickRefill s h = some i → hiveOf (i / 1024) = h →
    dramQuiet s ((queueAt s i).ringBase + 32 * (queueAt s i).head) 32 = true →
    descFails s i = none → (nextBlock s (queueAt s i)).1 + (nextBlock s (queueAt s i)).2.1 > (queueAt s i).pos * fmtBytes (queueAt s i).fmt →
    refillable (queueAt s i) = true → Completes (.refillIssue h) s fun t =>
      (hiveAt t h).credits = (hiveAt s h).credits - 1 ∧ (hiveAt t h).rr = i + 1 ∧
      (queueAt t i).blocks.length = (queueAt s i).blocks.length + 1 ∧
      (queueAt t i).next = (queueAt s i).next + (nextBlock s (queueAt s i)).2.1 ∧ (queueAt t i).st = (queueAt s i).st ∧
      (∀ j, j ≠ i → queueAt t j = queueAt s j) ∧ SameBut [.dmcs, .dramMarks, .faults, .hives, .jnl, .queues] s t) ∧
  (∀ s c q b, Live s → c < nCells s → q < 1024 →
    (queueAt s (queueNum c q)).blocks.find? (fun k => k.buf = b && k.resident.isNone && k.read) = none →
    Completes (.blockResident c q b) s (SameBut [] s)) ∧
  (∀ s c q u b, Live s → c < nCells s → q < 1024 →
    (queueAt s (queueNum c q)).blocks.find? (fun k => k.buf = u && k.resident.isNone && k.read) = some b → b.discard = false →
    let ca := combAddr (hiveOf c) 0 (((queueAt s (queueNum c q)).bufBase + b.buf) * 4096)
    ((wordsOf ca b.len).any fun w => granuleBad s (w / 32)) = false → Completes (.blockResident c q u) s fun t =>
      (∃ k ∈ (queueAt t (queueNum c q)).blocks, k.off = b.off ∧ k.resident = some s.time.tick) ∧
      (queueAt t (queueNum c q)).blocks.length = (queueAt s (queueNum c q)).blocks.length ∧
      (hiveAt t (hiveOf c)).credits = min 64 ((hiveAt s (hiveOf c)).credits + 1) ∧
      memRead t.comb ca b.len = memRead b.img b.addr b.len ∧ (∀ a, a < ca ∨ ca + b.len ≤ a → memByte t.comb a = memByte s.comb a) ∧
      SameBut [.comb, .combMarks, .faults, .grave, .hives, .queues] s t) ∧
  (∀ s c q u b, Live s → c < nCells s → q < 1024 →
    (queueAt s (queueNum c q)).blocks.find? (fun k => k.buf = u && k.resident.isNone && k.read) = some b → b.discard = true →
    Completes (.blockResident c q u) s fun t =>
      (hiveAt t (hiveOf c)).credits = min 64 ((hiveAt s (hiveOf c)).credits + 1) ∧
      SameBut [.active, .col, .faults, .hives, .mailboxes, .queues, .works] s t)

/-- The capture commands at their decisions (R172, R176, R179, R180, R187, R196, R200, R474): CAP_BIND, CAP_UNBIND,
CAP_TRIG_SET, CAP_CLEAR and CAP_RELEASE set what they name; CAP_ARM makes the decision tick sample 0; CAP_DISARM ends a
window; a trigger opens one, or is TRIG_IGNORED; a command without effect sets CMD_IGNORED.
Where the chapter leaves a point open, the clauses follow the model's readings, log 56. -/
def Obligations.CaptureDecisions : Prop :=
  (∀ s x h c d k sl rb rl m, Decides s x (.capBind h c d k sl rb rl m) → (capAt s c).st = .off ∨ (capAt s c).st = .bound →
    Completes .commandDecision s (SameBut [] { released s x with caps := tset {} s.caps c { capAt s c with
      st := .bound, domain := d, k := k, slot := sl, recBase := if rl = 0 then 0 else rb, recLog2 := rl, mode := m,
      epoch := (capAt s c).epoch + 1 } })) ∧
  (∀ s x h c d k sl rb rl m, Decides s x (.capBind h c d k sl rb rl m) → (capAt s c).st ≠ .off → (capAt s c).st ≠ .bound →
    Completes .commandDecision s (SameBut [] { released s x with caps := tmod {} s.caps c fun y => { y with
      flags := y.flags ||| 0x1000 } })) ∧
  (∀ s x h c a, Decides s x (.capArm h c a) → (capAt s c).st = .bound →
    (pendOf (capAt s c) x.serial).any (·.fill) = false → Completes .commandDecision s fun t =>
    (capAt t c).st = .armed ∧ (capAt t c).n = 0 ∧ (capAt t c).nA = 0 ∧ (capAt t c).mA = edgeAt (domAt s (capAt s c).domain) x.dec ∧
    (capAt t c).ringBase = a.ringBase ∧ (capAt t c).ringLen = a.ringLen ∧ (capAt t c).rearm = a.rearm ∧ (capAt t c).preLen = a.preLen ∧
    (capAt t c).postLen = a.postLen ∧ (capAt t c).count = a.count ∧ (capAt t c).recs = [] ∧ (capAt t c).wr = 0 ∧ (capAt t c).rd = 0 ∧
    (capAt t c).areas = ((pendOf (capAt s c) x.serial).map (·.areas)).getD [] ∧ pendOf (capAt t c) x.serial = none ∧
    (∀ k, k ≠ c → capAt t k = capAt s k) ∧ SameBut [.caps] (released s x) t) ∧
  (∀ s x h c a, Decides s x (.capArm h c a) → (capAt s c).st = .bound →
    (pendOf (capAt s c) x.serial).any (·.fill) = true →
    ((wordsOf (combAddr (hiveOf c) 1 a.accBase) (8 * a.l)).any fun w => granuleBad s (w / 32)) = false →
    Completes .commandDecision s fun t =>
    (capAt t c).st = .armed ∧ (capAt t c).accBase = a.accBase ∧ (capAt t c).l = a.l ∧ (capAt t c).delay = a.delay ∧
    (∀ i, i < 8 * a.l → memByte t.comb (combAddr (hiveOf c) 1 a.accBase + i) = 0) ∧ (∀ k, k ≠ c → capAt t k = capAt s k) ∧
    Replied s t x 0x0601 .ok (res [(4, capShift s (capAt s c) (edgeAt (domAt s (capAt s c).domain) x.dec))]) ∧
    SameBut [.caps, .comb, .combMarks, .grave, .mailboxes, .col] (released s x) t) ∧
  (∀ s x h u, Decides s x (.capDisarm h u) → Completes .commandDecision s fun t =>
    (∀ c ∈ selCells s u, (capAt s c).st = .armed ∨ (capAt s c).st = .window ∨ (capAt s c).st = .rearm →
      (capAt t c).st = .draining ∨ (capAt t c).st = .bound) ∧
    (∀ c ∈ selCells s u, (capAt s c).st ≠ .armed → (capAt s c).st ≠ .window → (capAt s c).st ≠ .rearm →
      capAt t c = { capAt s c with flags := (capAt s c).flags ||| 0x1000 }) ∧
    (∀ c, c ∉ selCells s u → capAt t c = capAt s c) ∧
    SameBut [.active, .caps, .dmcs, .dram, .dramMarks, .faults, .grave, .hives, .jnl] (released s x) t) ∧
  (∀ s x h c n, Decides s x (.capTrigger h c) → wagActs s c = true → eventsAt s (0x2000 + 2 * c) x.dec = [] →
    (capAt s c).st = .armed →
    capSampleAt (domAt s (capAt s c).domain) (capAt s c) (x.dec - s.time.horizon) = some n → stateAt (capAt s c) n = .armed →
    (capAt s c).n ≤ (if (capAt s c).mode = 1 then n + (capAt s c).delay + (capAt s c).l - 1 else n + (capAt s c).postLen - 1) →
    Completes .commandDecision s fun t =>
      (capAt t c).st = .window ∧ (capAt t c).nT = n ∧
      (∃ e, (capAt t c).trig = some e ∧ e.channel = 512 ∧ e.origin = x.dec - s.time.horizon) ∧ x ∉ t.held ∧
      (∀ k, k ≠ c → capAt t k = capAt s k) ∧
      SameBut [.caps, .dmcs, .dram, .dramMarks, .faults, .grave, .held, .jnl, .tasks] s t) ∧
  (∀ s x h c, Decides s x (.capTrigger h c) → wagActs s c = true → (capAt s c).st = .off ∨ (capAt s c).st = .bound →
    Completes .commandDecision s fun t =>
      capAt t c = { capAt s c with flags := (capAt s c).flags ||| 0x40 } ∧ (∀ k, k ≠ c → capAt t k = capAt s k) ∧
      SameBut [.caps, .faults, .held, .tasks] s t) ∧
  (∀ s x h c r, Decides s x (.capRelease h c r) → newRd (capAt s c) r ≤ (capAt s c).wr → Completes .commandDecision s
    (SameBut [] { released s x with caps := tset {} s.caps c { capAt s c with rd := newRd (capAt s c) r } })) ∧
  (∀ s x h c e th hy ed, Decides s x (.capTrigSet h c e th hy ed) → (capAt s c).st ≠ .off → Completes .commandDecision s fun t =>
    capAt t c = { capAt s c with
      trigEn := decide (e = 1), thr := th, hyst := hy, edge := ed, primedUp := false, primedDown := false } ∧
    (∀ k, k ≠ c → capAt t k = capAt s k) ∧ SameBut [.caps] (released s x) t) ∧
  (∀ s x h c, Decides s x (.capUnbind h c) → (capAt s c).st = .bound → Completes .commandDecision s fun t =>
    capAt t c = { capAt s c with
      st := .off, domain := 0, k := 0, slot := 0, recBase := 0, recLog2 := 0, mode := 0, trigEn := false, epoch := (capAt s c).epoch + 1 } ∧
    (∀ k, k ≠ c → capAt t k = capAt s k) ∧ SameBut [.caps] (released s x) t) ∧
  (∀ s x h c m, Decides s x (.capClear h c m) → Completes .commandDecision s fun t =>
    capAt t c = { capAt s c with
      flags := (capAt s c).flags &&& ~~~(m.truncate 32), missed := if m.getLsbD 32 then 0 else (capAt s c).missed,
      gapSamples := if m.getLsbD 33 then 0 else (capAt s c).gapSamples } ∧
    (∀ k, k ≠ c → capAt t k = capAt s k) ∧ SameBut [.caps] (released s x) t)

/-- Capture events (R173, R174, R177, R182, R188, R191, R196): the fill of an arm zeroes its accumulators and answers; a sample
is stored at its ring address as the next sample of its channel, and where the ring is not written only the index goes on; an
AUTO channel re-arms at its tick; a complete record is committed.
Where the chapter leaves a point open, the clauses follow the model's readings, log 56. -/
def Obligations.CaptureEvents : Prop :=
  (∀ s x h c a v w, Live s → c < nCells s → s.held = v ++ x :: w → x.cmd = .capArm h c a → x.mb ≤ 4 →
    (pendOf (capAt s c) x.serial).any (·.fill) = true →
    (∀ y ∈ v, ∀ g b, y.cmd = .capArm g c b → (pendOf (capAt s c) y.serial).any (·.fill) = false) →
    ((wordsOf (combAddr (hiveOf c) 1 a.accBase) (8 * a.l)).any fun w => granuleBad s (w / 32)) = false →
    Completes (.capArmFillDone c) s fun t =>
      (∀ i, i < 8 * a.l → memByte t.comb (combAddr (hiveOf c) 1 a.accBase + i) = 0) ∧
      (∀ i, i < combAddr (hiveOf c) 1 a.accBase ∨ combAddr (hiveOf c) 1 a.accBase + 8 * a.l ≤ i → memByte t.comb i = memByte s.comb i) ∧
      Replied s t x 0x0601 .ok (res [(4, capShift s (capAt s c) (edgeAt (domAt s (capAt s c).domain) x.dec))]) ∧
      { x with reply := false } ∈ t.held ∧ t.held.length = s.held.length ∧
      (pendOf (capAt t c) x.serial).any (·.fill) = false ∧ (∀ k, k ≠ c → capAt t k = capAt s k) ∧
      SameBut [.caps, .comb, .combMarks, .grave, .held, .mailboxes, .col] s t) ∧
  (∀ s c w, Live s → c < nCells s → (capAt s c).st = .armed → (capAt s c).trigEn = false → (capAt s c).mode = 0 → wagActs s c = true →
    capEdge (capAt s c) (capAt s c).n * (domAt s (capAt s c).domain).den * (domAt s (capAt s c).domain).div ≤
      s.time.tick * (domAt s (capAt s c).domain).num →
    capDecisionBefore s c (capEdge (capAt s c) (capAt s c).n) = false →
    ((wordsOf (ringAddr s c (capAt s c) (capAt s c).n) (capBps s (capAt s c))).any fun w => granuleBad s (w / 32)) = false →
    Completes (.captureSample c w) s fun t =>
      (capAt t c).n = (capAt s c).n + 1 ∧ (capAt t c).st = .armed ∧
      (let a := ringAddr s c (capAt s c) (capAt s c).n
       let e := capEdge (capAt s c) (capAt s c).n
       memRead t.comb a (capBps s (capAt s c)) =
         le (capBps s (capAt s c)) (toField (8 * capBps s (capAt s c)) (storedSample s (capAt s c) e w).1) ∧
       ∀ i, i < a ∨ a + capBps s (capAt s c) ≤ i → memByte t.comb i = memByte s.comb i) ∧
      (∀ k, k ≠ c → capAt t k = capAt s k) ∧
      SameBut [.caps, .comb, .combMarks, .dmcs, .dram, .dramMarks, .faults, .free, .grave, .hops, .jnl, .links] s t) ∧
  (∀ s c w, Live s → c < nCells s → (capAt s c).st ≠ .off → (capAt s c).st ≠ .bound → ringWritten s c = false →
    capEdge (capAt s c) (capAt s c).n * (domAt s (capAt s c).domain).den * (domAt s (capAt s c).domain).div ≤
      s.time.tick * (domAt s (capAt s c).domain).num →
    capDecisionBefore s c (capEdge (capAt s c) (capAt s c).n) = false → Completes (.captureSample c w) s
      (SameBut [] { s with caps := tset {} s.caps c { capAt s c with n := (capAt s c).n + 1 } })) ∧
  (∀ s c r n, Live s → c < nCells s → (capAt s c).st = .rearm → (capAt s c).rearm = 1 → (capAt s c).tR = some r → r ≤ s.time.tick →
    capSampleAt (domAt s (capAt s c).domain) (capAt s c) r = some n → Completes (.rearmTick c) s fun t =>
      (capAt t c).st = .armed ∧ (capAt t c).nA = n ∧ (capAt t c).tR = none ∧
      ((capAt t c).flags = if (capAt s c).tC + 8 < r then (capAt s c).flags ||| 0x800 else (capAt s c).flags) ∧
      (∀ k, k ≠ c → capAt t k = capAt s k) ∧ SameBut [.caps, .jnl] s t) ∧
  (∀ s h n, Live s → h < nHives s → nextStream s h = none → Completes (.streamChunk h n) s (SameBut [] s)) ∧
  (∀ s h n c r, Live s → h < nHives s → nextStream s h = some (c, r) → ringOffline s (capAt s c) = true →
    Completes (.streamChunk h n) s fun t =>
      (∀ k ∈ (capAt t c).recs, recOpen k = false) ∧ (∀ k, k ≠ c → capAt t k = capAt s k) ∧
      SameBut [.active, .caps, .dmcs, .dram, .dramMarks, .faults, .grave, .hives, .jnl] s t) ∧
  (∀ s h n c r, Live s → h < nHives s → nextStream s h = some (c, r) → (capAt s c).recs = [r] → ringOffline s (capAt s c) = false →
    r.kind = 1 → r.lostRun = 0 →
    let b := capBps s (capAt s c)
    let k := min n (min r.count ((capAt s c).n - r.firstN) - r.streamed)
    let a := recAddr (capAt s c) (r.off + 64 + b * r.streamed)
    0 < k → creditsFor s (entryPieces a (b * k)) = true →
    ((chunkRead s c (capAt s c) r k).2.any fun p => spanUe s p.1 p.2) = false → Completes (.streamChunk h n) s fun t =>
      (capAt t c).recs = [{ r with streamed := r.streamed + k }] ∧
      (∀ p ∈ entryPieces a (b * k), ∃ e ∈ (dmcAt t (dramChannel s p.1)).queue, e.master = 2 ∧ e.id = recId c r ∧ e.write = true ∧
        e.capture = true ∧ e.pos = p.1 ∧ e.data = ((chunkRead s c (capAt s c) r k).1.drop (p.1 - a)).take p.2) ∧
      (∀ j, j ≠ c → capAt t j = capAt s j) ∧ SameBut [.caps, .combMarks, .dmcs, .faults, .free, .grave, .hives] s t) ∧
  (∀ s h n c r, Live s → h < nHives s → nextStream s h = some (c, r) → ringOffline s (capAt s c) = false → r.lostRun = 0 →
    (capAt s c).recs = [r] →
    let b := if r.kind = 4 then 8 else capBps s (capAt s c)
    let k := min n ((if r.kind = 4 then r.count else min r.count ((capAt s c).n - r.firstN)) - r.streamed)
    creditsFor s (entryPieces (recAddr (capAt s c) (r.off + 64 + b * r.streamed)) (b * k)) = false → Completes (.streamChunk h n) s
    (SameBut [] s)) ∧
  (∀ s c r, Live s → c < nCells s → (capAt s c).recs = [r] → commitReady s c (capAt s c) r = true → r.lostRun = 0 →
    (capAt s c).st = .window → Completes (.recordCommit c) s fun t =>
      (capAt t c).recs = [] ∧ (capAt t c).wr = r.off + r.bytes ∧ (capAt t c).st = .window ∧ (∀ k, k ≠ c → capAt t k = capAt s k) ∧
      SameBut [.caps, .dmcs, .dram, .dramMarks, .grave, .jnl] s t)

/-- The waggle commands at their decisions (R205, R207, R209, R211, R217, R218, R221, R224, R474): each sets the channel, task
input, timer, counter, pin or owner that it names and counts in WAG_EPOCH; WAG_RAISE puts its event on the channel two ticks
on; WAG_WATCH_READ returns and clears the SEEN bits of its context's channels.
Where the chapter leaves a point open, the clauses follow the model's readings, log 57. -/
def Obligations.WaggleDecisions : Prop :=
  (∀ s x h w e, Decides s x (.wagChanSet h w e) → Completes .commandDecision s (SameBut []
    { released s x with chans := tmod {} s.chans w fun c => { c with entry := e }, wagEpoch := s.wagEpoch + 1 })) ∧
  (∀ s x h k sl sc, Decides s x (.wagTaskSet h k sl sc) → Completes .commandDecision s (SameBut []
    { released s x with
      tasks := tmod {} s.tasks k fun y => { y with slots := if sl.all (· = 0) then [] else sl, scope := sc },
      wagEpoch := s.wagEpoch + 1 })) ∧
  (∀ s x h w l, Decides s x (.wagRaise h w l) → keeperChan (chanAt s w) = true → Completes .commandDecision s (SameBut []
    { released s x with
      chans := tmod {} s.chans w fun c => { c with lastRaise := some x.dec }, wagEpoch := s.wagEpoch + 1,
      hops := s.hops ++ [⟨x.dec + 2, ⟨x.dec, w, decide (l = 1), 0, chanSource (chanAt s w), false⟩, .onto w, false⟩] })) ∧
  (∀ s x h w l, Decides s x (.wagRaise h w l) → keeperChan (chanAt s w) = false → Completes .commandDecision s
    (SameBut [] (released s x))) ∧
  (∀ s x h i f p n d, Decides s x (.wagTimerSet h i f p n d) → Completes .commandDecision s fun t =>
    tmrAt t i = { ({} : Timer) with
      programmed := true, running := decide (f ≠ 0), next := f, remaining := if f = 0 ∨ n = 0 then none else some n,
      period := p, count := n, delay := d, own := (tmrAt s i).own } ∧ (∀ j, j ≠ i → tmrAt t j = tmrAt s j) ∧
    t.wagEpoch = s.wagEpoch + 1 ∧ SameBut [.timers, .wagEpoch] (released s x) t) ∧
  (∀ s x h i v n r, Decides s x (.wagCounterSet h i v n r) → Completes .commandDecision s fun t =>
    ctrAt t i = { value := v, terminal := n, reload := decide (r = 1), held := decide (v = n), own := (ctrAt s i).own } ∧
    (∀ j, j ≠ i → ctrAt t j = ctrAt s j) ∧ t.wagEpoch = s.wagEpoch + 1 ∧ SameBut [.counters, .wagEpoch] (released s x) t) ∧
  (∀ s x h p d i a w, Decides s x (.wagPinSet h p d i a w) → p < 32 → Completes .commandDecision s fun t =>
    (pinAt t p).output = decide (d = 1) ∧ (pinAt t p).idle = decide (i = 1) ∧ (pinAt t p).action = a ∧ (pinAt t p).width = w ∧
    (pinAt t p).pulseEnd = none ∧ (pinAt t p).own = (pinAt s p).own ∧ (∀ j, j ≠ p → pinAt t j = pinAt s j) ∧
    t.wagEpoch = s.wagEpoch + 1 ∧ SameBut [.pins, .wagEpoch] (released s x) t) ∧
  (∀ s x h p d i a w, Decides s x (.wagPinSet h p d i a w) → 32 ≤ p → Completes .commandDecision s fun t =>
    (pinAt t p).width = w ∧ (pinAt t p).idle = true ∧ (∀ j, j ≠ p → pinAt t j = pinAt s j) ∧
    t.wagEpoch = s.wagEpoch + 1 ∧ SameBut [.pins, .wagEpoch, .col] (released s x) t) ∧
  (∀ s x h, Decides s x (.wagWatchRead h) → Completes .commandDecision s fun t =>
    Replied s t x 0x0706 .ok (seenBits s x.ctx) ∧
    (∀ w, chanAt t w = { chanAt s w with seen := (chanAt s w).seen && !owns s x.ctx (chanAt s w).own }) ∧
    SameBut [.chans, .wagEpoch, .mailboxes, .col] (released s x) t) ∧
  (∀ s x h w m l, Decides s x (.wagClear h ⟨0, w⟩ m l) → Completes .commandDecision s fun t =>
    (chanAt t w).seen = ((chanAt s w).seen && !m.getLsbD 2) ∧ (chanAt t w).loopCut = ((chanAt s w).loopCut && !m.getLsbD 3) ∧
    (chanAt t w).count = (if m.getLsbD 32 then 0 else (chanAt s w).count) ∧ (chanAt t w).entry = (chanAt s w).entry ∧
    (l = 0xFF → (chanAt t w).ops = (chanAt s w).ops) ∧ (∀ k, k ≠ w → chanAt t k = chanAt s k) ∧
    t.wagEpoch = s.wagEpoch + 1 ∧ SameBut [.chans, .wagEpoch] (released s x) t) ∧
  (∀ s x h k n m l, Decides s x (.wagClear h ⟨k, n⟩ m l) → k ≠ 0 → Completes .commandDecision s fun t =>
    (taskAt t n).coincident = ((taskAt s n).coincident && !m.getLsbD 0) ∧
    (taskAt t n).overrun = ((taskAt s n).overrun && !m.getLsbD 13) ∧ (taskAt t n).gated = ((taskAt s n).gated && !m.getLsbD 14) ∧
    (taskAt t n).late = ((taskAt s n).late && !m.getLsbD 15) ∧
    (taskAt t n).ovrCount = (if m.getLsbD 32 then 0 else (taskAt s n).ovrCount) ∧
    (taskAt t n).act = (if m.getLsbD 33 then 0 else (taskAt s n).act) ∧
    (taskAt t n).slots = (taskAt s n).slots ∧ (taskAt t n).held = (taskAt s n).held ∧ (∀ j, j ≠ n → taskAt t j = taskAt s j) ∧
    t.wagEpoch = s.wagEpoch + 1 ∧ SameBut [.tasks, .wagEpoch] (released s x) t) ∧
  (∀ s x h k i o b, Decides s x (.wagOwnerSet h k i o b) → wagUsed s k i = false → Completes .commandDecision s fun t =>
    (k = 0 → chanAt t i = { chanAt s i with own := ⟨o, decide (b = 1)⟩ } ∧ ∀ j, j ≠ i → chanAt t j = chanAt s j) ∧
    (k = 1 → tmrAt t i = { tmrAt s i with own := ⟨o, decide (b = 1)⟩ } ∧ ∀ j, j ≠ i → tmrAt t j = tmrAt s j) ∧
    (k = 2 → ctrAt t i = { ctrAt s i with own := ⟨o, decide (b = 1)⟩ } ∧ ∀ j, j ≠ i → ctrAt t j = ctrAt s j) ∧
    (k = 3 → pinAt t i = { pinAt s i with own := ⟨o, decide (b = 1)⟩ } ∧ ∀ j, j ≠ i → pinAt t j = pinAt s j) ∧
    (k = 4 → pinAt t (32 + i) = { pinAt s (32 + i) with own := ⟨o, decide (b = 1)⟩ } ∧ ∀ j, j ≠ 32 + i → pinAt t j = pinAt s j) ∧
    SameBut [.chans, .timers, .counters, .pins, .wagEpoch] (released s x) t) ∧
  (∀ s x h k i o b, Decides s x (.wagOwnerSet h k i o b) → wagUsed s k i = true → Completes .commandDecision s
    (SameBut [] (released s x)))

/-- The link commands at their decisions (R265, R270, R275 to R278, R280, R281, R427, R474): LINK_SET configures a link at
rest; LINK_ENABLE starts training, which a TX link without a status pin passes at once; LINK_DISABLE returns the link to
CONFIGURED; LINK_RETRAIN retrains from DATA and retries from DOWN; the rest set, read or clear what they name.
Where the chapter leaves a point open, the clauses follow the model's readings, log 27, 58. -/
def Obligations.LinkDecisions : Prop :=
  (∀ s x h i a, Decides s x (.linkSet h i a) → (linkAt s i).st = .off ∨ (linkAt s i).st = .configured →
    linkBound (released s x) i = false → linkArgsOk (released s x) i a = true → Completes .commandDecision s fun t =>
      (linkAt t i).st = .configured ∧ (linkAt t i).domain = a.domain ∧ (linkAt t i).firstLane = a.firstLane ∧ (linkAt t i).l = a.l ∧
      (linkAt t i).m = a.m ∧ (linkAt t i).s = a.s ∧ (linkAt t i).e = a.e ∧ (linkAt t i).cause = 0 ∧ (linkAt t i).laneMap = a.laneMap ∧
      (linkAt t i).retryS = a.retryS ∧ (∀ k, k ≠ i → linkAt t k = linkAt s k) ∧ SameBut [.links, .jnl] (released s x) t) ∧
  (∀ s x h i, Decides s x (.linkEnable h i) → (linkAt s i).st = .configured → Completes .commandDecision s fun t =>
    ((linkAt t i).st = if linkRuns s i = false then .clockWait
      else if isRx i = false ∧ (linkAt s i).statusPin = 0xFF then .aligning else .training) ∧
    (linkAt t i).preset = 0 ∧ (∀ k, k ≠ i → linkAt t k = linkAt s k) ∧ SameBut [.links, .jnl] (released s x) t) ∧
  (∀ s x h i, Decides s x (.linkDisable h i) → (linkAt s i).st ≠ .off → Completes .commandDecision s fun t =>
    (linkAt t i).st = .configured ∧ (linkAt t i).cause = 0 ∧ (linkAt t i).domain = (linkAt s i).domain ∧
    (isRx i = true → ∀ k ∈ linkLanes (linkAt s i), (tget ({} : RxLane) t.rxLanes k).ctle = 0) ∧
    (isRx i = false → t.rxLanes = s.rxLanes) ∧ t.grave.restore = s.grave.restore ||| 0x200000 ∧ t.grave.restoreCause = 6 ∧
    (∀ k, k ≠ i → linkAt t k = linkAt s k) ∧ SameBut [.links, .jnl, .rxLanes, .grave] (released s x) t) ∧
  (∀ s x h i, Decides s x (.linkRetrain h i) → (linkAt s i).st = .data → linkRuns s i = true → isRx i = true →
    Completes .commandDecision s fun t =>
      (linkAt t i).st = .training ∧ (linkAt t i).retrains = min 0xFF ((linkAt s i).retrains + 1) ∧
      (∀ k, k ≠ i → linkAt t k = linkAt s k) ∧ SameBut [.links, .jnl, .faults] (released s x) t) ∧
  (∀ s x h i, Decides s x (.linkRetrain h i) → (linkAt s i).st = .down → linkRuns s i = true → isRx i = true →
    Completes .commandDecision s fun t =>
      (linkAt t i).st = .training ∧ (linkAt t i).retrains = (linkAt s i).retrains ∧ (∀ k, k ≠ i → linkAt t k = linkAt s k) ∧
      SameBut [.links, .jnl] (released s x) t) ∧
  (∀ s x h i sl f, Decides s x (.linkSlotSet h i sl f) → slotArmed s i sl = false → Completes .commandDecision s (SameBut []
    { released s x with links := tset {} s.links i { linkAt s i with
        slotFormats := tset 0 (linkAt s i).slotFormats sl f, epoch := (linkAt s i).epoch + 1 } })) ∧
  (∀ s x h i sl f, Decides s x (.linkSlotSet h i sl f) → slotArmed s i sl = true → Completes .commandDecision s
    (SameBut [] (released s x))) ∧
  (∀ s x h n l, Decides s x (.linkEyeRead h n) → laneLink s true n = some l → (linkAt s l).st = .data →
    Completes .commandDecision s fun t =>
      Replied s t x 0x0805 .ok (res [(1, (tget ({} : RxLane) s.rxLanes n).w), (2, (tget ({} : RxLane) s.rxLanes n).h),
        (1, (tget ({} : RxLane) s.rxLanes n).ctle)] ++ ((upFrom 5 0).map fun k => Config.dfeTap n k s.time.tick) ++ res [(4, linkShift s l)]) ∧
      SameBut [.mailboxes, .col] (released s x) t) ∧
  (∀ s x h n, Decides s x (.linkEyeRead h n) → (∀ l, laneLink s true n = some l → (linkAt s l).st ≠ .data) →
    Completes .commandDecision s fun t => Replied s t x 0x0805 .badState [] ∧ SameBut [.mailboxes, .col] (released s x) t) ∧
  (∀ s x h i m, Decides s x (.linkClear h i m) → Completes .commandDecision s fun t =>
    linkAt t i = { linkAt s i with
      crcErr := if m.getLsbD 32 then 0 else (linkAt s i).crcErr, retrains := if m.getLsbD 33 then 0 else (linkAt s i).retrains,
      downs := if m.getLsbD 34 then 0 else (linkAt s i).downs, rxOvr := if m.getLsbD 35 then 0 else (linkAt s i).rxOvr,
      rxInvalid := if m.getLsbD 36 then 0 else (linkAt s i).rxInvalid } ∧
    (∀ k, k ≠ i → linkAt t k = linkAt s k) ∧ (m.getLsbD 37 = false → t.rxLanes = s.rxLanes) ∧
    SameBut [.links, .rxLanes] (released s x) t)

/-- Link events (R272 to R278): a training passes into ALIGNING with an eye on every lane, and takes the link DOWN without
one; a status pin that stays high passes a preset, else the next is tried; no SYSREF takes an ALIGNING link DOWN; a DOWN link
trains again when its time has come; both locks on every lane bring DATA; loss of lock, CRC errors, late data and a low status
pin retrain from DATA.
Where the chapter leaves a point open, the clauses follow the model's readings, log 58. -/
def Obligations.LinkEvents : Prop :=
  (∀ s i eyes k ms, Live s → i < 32 → (linkAt s i).st = .training → isRx i = true → k < 16 →
    settingEyes (linkAt s i) eyes k = some ms → Completes (.trainingComplete i eyes) s fun t =>
      (linkAt t i).st = .aligning ∧ (linkAt t i).aligned = false ∧ (∀ k, k ≠ i → linkAt t k = linkAt s k) ∧
      SameBut [.links, .jnl, .rxLanes] s t) ∧
  (∀ s i eyes, Live s → i < 32 → (linkAt s i).st = .training → isRx i = true →
    (∀ k, k < 16 → settingEyes (linkAt s i) eyes k = none) → Completes (.trainingComplete i eyes) s fun t =>
      (linkAt t i).st = .down ∧ (linkAt t i).cause = 1 ∧ (linkAt t i).downs = min 0xFF ((linkAt s i).downs + 1) ∧
      (∀ k, k ≠ i → linkAt t k = linkAt s k) ∧ SameBut [.links, .jnl, .rxLanes, .faults] s t) ∧
  (∀ s i, Live s → i < 16 → (linkAt s i).st = .training → (linkAt s i).statusPin ≠ 0xFF →
    (linkAt s i).since + 100000 ≤ s.time.tick →
    let b := pinHighSince s (linkAt s i).statusPin (linkAt s i).since
    Completes (.presetDwellEnd i (linkAt s i).preset) s fun t =>
    (b = true → (linkAt t i).st = .aligning) ∧
    (b = false → (linkAt s i).preset + 1 < (linkAt s i).presets → (linkAt t i).st = .training ∧ (linkAt t i).preset = (linkAt s i).preset + 1) ∧
    (b = false → (linkAt s i).presets ≤ (linkAt s i).preset + 1 → (linkAt t i).st = .down ∧ (linkAt t i).cause = 3) ∧
    (∀ k, k ≠ i → linkAt t k = linkAt s k) ∧ SameBut [.links, .jnl, .faults] s t) ∧
  (∀ s i, Live s → i < 32 → (linkAt s i).st = .aligning → (linkAt s i).aligned = false → (linkAt s i).since + 10000000 ≤ s.time.tick →
    Completes (.noSysref i) s fun t =>
      (linkAt t i).st = .down ∧ (linkAt t i).cause = 2 ∧ (∀ k, k ≠ i → linkAt t k = linkAt s k) ∧ SameBut [.links, .jnl, .faults] s t) ∧
  (∀ s i, Live s → i < 32 → (linkAt s i).st = .down → (linkAt s i).retryS ≠ 0 →
    (linkAt s i).since + 100000000 * (linkAt s i).retryS ≤ s.time.tick → linkRuns s i = true → isRx i = true →
    Completes (.retryTimer i) s fun t =>
      (linkAt t i).st = .training ∧ (∀ k, k ≠ i → linkAt t k = linkAt s k) ∧ SameBut [.links, .jnl] s t) ∧
  (∀ s i, Live s → i < 32 → (linkAt s i).retryS = 0 → Completes (.retryTimer i) s (SameBut [] s)) ∧
  (∀ s i l, Live s → isRx i = true → i < 32 → linkLanes (linkAt s i) ≠ [] → l.length = (linkLanes (linkAt s i)).length →
    (linkAt s i).st = .aligning → s.md.mode ≠ .standby →
    let m := max (linkAt s i).arrivalMax (min 65535 (largest l))
    m + 2 ^ (linkAt s i).j ≤ (linkAt s i).rxLat * 2 ^ (linkAt s i).j → Completes (.multiblockLockAcquired i l) s fun t =>
      (linkAt t i).st = .data ∧ (linkAt t i).arrivalMax = m ∧ (linkAt t i).dataSince = s.time.tick ∧ (linkAt t i).cause = 0 ∧
      (∀ k ∈ linkLanes (linkAt s i), (tget ({} : RxLane) t.rxLanes k).hdrLock = true ∧ (tget ({} : RxLane) t.rxLanes k).embLock = true) ∧
      (∀ k, k ≠ i → linkAt t k = linkAt s k) ∧ SameBut [.links, .jnl, .rxLanes] s t) ∧
  (∀ s n i, Live s → n < nLanes s → laneLink s true n = some i → (linkAt s i).st = .data → linkRuns s i = true → isRx i = true →
    Completes (.laneLock n) s fun t =>
      (linkAt t i).st = .training ∧ (tget ({} : RxLane) t.rxLanes n).hdrLock = false ∧
      (tget ({} : RxLane) t.rxLanes n).embLock = false ∧ (∀ k, k ≠ i → linkAt t k = linkAt s k) ∧
      SameBut [.links, .jnl, .rxLanes, .faults] s t) ∧
  (∀ s k i n, Live s → k < nLanes s → laneLink s true k = some i → (linkAt s i).st = .data → 0 < n →
    let recent := (linkAt s i).crcRecent.filter fun p => decide (s.time.tick < p.1 + 100000000)
    n + crcSum recent < (linkAt s i).crcLimit → Completes (.crcLimit k n) s (SameBut [.faults]
      { s with rxLanes := tmod {} s.rxLanes k fun (r : RxLane) => { r with crcErr := min 0xFFFF (r.crcErr + n) },
               links := tset {} s.links i { linkAt s i with
                 crcErr := min 0xFFFF ((linkAt s i).crcErr + n), crcRecent := (s.time.tick, n) :: recent } })) ∧
  (∀ s k i n, Live s → k < nLanes s → laneLink s true k = some i → (linkAt s i).st = .data → 0 < n →
    (linkAt s i).crcLimit ≤ n + crcSum ((linkAt s i).crcRecent.filter fun p => decide (s.time.tick < p.1 + 100000000)) →
    linkRuns s i = true → isRx i = true → Completes (.crcLimit k n) s fun t =>
      (linkAt t i).st = .training ∧ (linkAt t i).crcErr = min 0xFFFF ((linkAt s i).crcErr + n) ∧
      (tget ({} : RxLane) t.rxLanes k).crcErr = min 0xFFFF ((tget ({} : RxLane) s.rxLanes k).crcErr + n) ∧
      (∀ j, j ≠ i → linkAt t j = linkAt s j) ∧ SameBut [.links, .jnl, .rxLanes, .faults] s t) ∧
  (∀ s i, Live s → isRx i = true → i < 32 → (linkAt s i).st = .data → linkRuns s i = true → Completes (.rxLate i) s fun t =>
    (linkAt t i).st = .training ∧ (∀ k, k ≠ i → linkAt t k = linkAt s k) ∧ SameBut [.links, .jnl, .faults] s t) ∧
  (∀ s i, Live s → i < 16 → (linkAt s i).st = .data → (linkAt s i).statusPin ≠ 0xFF → pinLowFor s (linkAt s i).statusPin 100 = true →
    linkRuns s i = true → Completes (.statusPin i) s fun t =>
      (linkAt t i).st = .training ∧ (∀ k, k ≠ i → linkAt t k = linkAt s k) ∧ SameBut [.links, .jnl, .faults] s t) ∧
  (∀ s i, Live s → i < 16 → pinLowFor s (linkAt s i).statusPin 100 = false → Completes (.statusPin i) s (SameBut [] s))

/-- The DRAM commands at their decisions (R285, R290, R292, R301, R303, R306, R312, R474): DMC_CONFIG starts the training of
every present channel; the region commands set and return owners; DMC_RETRAIN starts a TRACK or a FULL; the entries of DRAM_WRITE and
DRAM_READ are queued, or wait for room, and their reply comes with the last of them.
Where the chapter leaves a point open, the clauses follow the model's readings, log 54. -/
def Obligations.DramDecisions : Prop :=
  (∀ s x h cs il cb ag mm th ce, Decides s x (.dmcConfig h cs il cb ag mm th ce) → unitMode s = .bringUp → dmcUnconfigured s = true →
    cs.length = 4 → Completes .commandDecision s fun t =>
      (∀ c, c < nDmc s → (dmcAt t c).st = .training ∧ (dmcAt t c).speed = (cs.getD c ⟨0, 0, 0, 0, 0, 0, 0⟩).speed ∧
        (dmcAt t c).capGib = dmcCap (cs.getD c ⟨0, 0, 0, 0, 0, 0, 0⟩)) ∧
      t.interleave = il ∧ t.ctxBase = cb ∧ t.ageLimit = dflt 4 ag ∧ t.minMargin = dflt 6 mm ∧ t.trackH = dflt 24 th ∧
      t.ceLimit = dflt 64 ce ∧ t.works = s.works ++ [x] ∧
      (∀ r, r ∈ t.dramSystem ↔ r ∈ s.dramSystem ∨ r ∈ dramRegions cb (ctxArea s)) ∧
      SameBut [.dmcs, .dramSettings, .jnl, .works] (released s x) t) ∧
  (∀ s x h cs il cb ag mm th ce, Decides s x (.dmcConfig h cs il cb ag mm th ce) → unitMode s ≠ .bringUp →
    Completes .commandDecision s fun t => Replied s t x 0x0900 .badMode [] ∧ SameBut [.mailboxes, .col] (released s x) t) ∧
  (∀ s x h cs il cb ag mm th ce, Decides s x (.dmcConfig h cs il cb ag mm th ce) → unitMode s = .bringUp → dmcUnconfigured s = false →
    Completes .commandDecision s fun t => Replied s t x 0x0900 .badState [] ∧ SameBut [.mailboxes, .col] (released s x) t) ∧
  (∀ s x h f n o b, Decides s x (.dramRegionSet h f n o b) → regionsUsed s f n o = false →
    (upFrom n f).any s.dramSystem.contains = false → Completes .commandDecision s fun t =>
      (∀ r, f ≤ r → r < f + n → tget ({} : Own) t.dramOwn r = ⟨o, decide (b = 1)⟩) ∧
      (∀ r, r < f ∨ f + n ≤ r → tget ({} : Own) t.dramOwn r = tget ({} : Own) s.dramOwn r) ∧
      SameBut [.dramOwn] (released s x) t) ∧
  (∀ s x h f n o b, Decides s x (.dramRegionSet h f n o b) → regionsUsed s f n o = true → Completes .commandDecision s
    (SameBut [] (released s x))) ∧
  (∀ s x h f n, Decides s x (.dramRegionRead h f n) → Completes .commandDecision s fun t =>
    Replied s t x 0x0902 .ok ((upFrom n f).map fun r => BitVec.ofNat 8 (pack [(4, (tget ({} : Own) s.dramOwn r).owner),
      (1, b2n (tget ({} : Own) s.dramOwn r).secure), (1, b2n (s.dramSystem.contains r))])) ∧
    SameBut [.mailboxes, .col] (released s x) t) ∧
  (∀ s x h c k, Decides s x (.dmcRetrain h c k) → (dmcAt s c).st = .inService → (dmcAt s c).tracking = false → k = 0 ∨ k = 1 →
    Completes .commandDecision s fun t =>
      (k = 0 → (dmcAt t c).st = .inService ∧ (dmcAt t c).tracking = true) ∧
      (k = 1 → (dmcAt t c).st = .retraining ∧ (dmcAt t c).fulls = min 0xFF ((dmcAt s c).fulls + 1)) ∧
      (dmcAt t c).retrains = min 0xFFFF ((dmcAt s c).retrains + 1) ∧ (∀ j, j ≠ c → dmcAt t j = dmcAt s j) ∧ t.works = s.works ++ [x] ∧
      SameBut [.dmcs, .faults, .jnl, .works] (released s x) t) ∧
  (∀ s x h c k, Decides s x (.dmcRetrain h c k) → (dmcAt s c).st = .inService → (dmcAt s c).tracking = true →
    Completes .commandDecision s fun t =>
      (dmcAt t c).trackPending = true ∧ (dmcAt t c).tracking = true ∧ (∀ j, j ≠ c → dmcAt t j = dmcAt s j) ∧
      SameBut [.dmcs] { released s x with works := s.works ++ [x] } t) ∧
  (∀ s x h c k, Decides s x (.dmcRetrain h c k) → mayRetrain s c k = false → (dmcAt s c).st ≠ .inService →
    Completes .commandDecision s fun t => Replied s t x 0x0903 .badState [] ∧ SameBut [.mailboxes, .col] (released s x) t) ∧
  (∀ s x h e p, Decides s x (.dmcScrubSet h e p) → Completes .commandDecision s
    (SameBut [] { released s x with scrubOn := decide (e = 1), scrubPeriod := dflt 24 p })) ∧
  (∀ s x h a n d, Decides s x (.dramWrite h a n d) → dramDecErr s x.ctx a d.length = none → waitingCmds s = [] → waitingBulk s = [] →
    entryQueued s 8 x.serial = false → roomFor s (entryPieces a d.length) = true → Completes .commandDecision s fun t =>
      (∀ p ∈ entryPieces a d.length, ∃ e ∈ (dmcAt t (dramChannel s p.1)).queue, e.master = 8 ∧ e.id = x.serial ∧ e.write = true ∧
        e.pos = p.1 ∧ e.data = (d.drop (p.1 - a)).take p.2) ∧
      SameBut [.dmcs] { released s x with works := s.works ++ [x] } t) ∧
  (∀ s x h a n d, Decides s x (.dramWrite h a n d) → dramDecErr s x.ctx a d.length = none → waitingCmds s = [] → waitingBulk s = [] →
    entryQueued s 8 x.serial = false → roomFor s (entryPieces a d.length) = false → Completes .commandDecision s
    (SameBut [] { released s x with works := s.works ++ [x] })) ∧
  (∀ s x h a n d e, Decides s x (.dramWrite h a n d) → dramDecErr s x.ctx a d.length = some e → Completes .commandDecision s fun t =>
    Replied s t x 0x0905 e [] ∧ SameBut [.mailboxes, .col] (released s x) t) ∧
  (∀ s x h a n, Decides s x (.dramRead h a n) → dramDecErr s x.ctx a (8 * n) = none → waitingCmds s = [] → waitingBulk s = [] →
    entryQueued s 8 x.serial = false → roomFor s (entryPieces a (8 * n)) = true → Completes .commandDecision s fun t =>
      (∀ p ∈ entryPieces a (8 * n), ∃ e ∈ (dmcAt t (dramChannel s p.1)).queue, e.master = 8 ∧ e.id = x.serial ∧ e.write = false ∧
        e.addr = p.1 / 64 * 64 ∧ e.len = (p.1 + p.2 + 63) / 64 * 64 - p.1 / 64 * 64) ∧
      SameBut [.dmcs] { released s x with works := s.works ++ [x] } t) ∧
  (∀ s x h a n e, Decides s x (.dramRead h a n) → dramDecErr s x.ctx a (8 * n) = some e → Completes .commandDecision s fun t =>
    Replied s t x 0x0906 e [] ∧ SameBut [.mailboxes, .col] (released s x) t) ∧
  (∀ s x h c m u, Decides s x (.dmcClear h c m u) → Completes .commandDecision s fun t =>
    (dmcAt t c).st = (dmcAt s c).st ∧ (dmcAt t c).latMax = (if m.getLsbD 32 then 0 else (dmcAt s c).latMax) ∧
    (dmcAt t c).overs = (if m.getLsbD 32 then 0 else (dmcAt s c).overs) ∧
    (dmcAt t c).ceCount = (if m.getLsbD 33 then 0 else (dmcAt s c).ceCount) ∧
    (dmcAt t c).ueCount = (if m.getLsbD 34 then 0 else (dmcAt s c).ueCount) ∧
    ((dmcAt t c).ueFrozen = if u = 1 then false else (dmcAt s c).ueFrozen) ∧ (∀ j, j ≠ c → dmcAt t j = dmcAt s j) ∧
    SameBut [.dmcs] (released s x) t)

/-- DRAM events (R285, R295 to R298, R303, R305 to R310): trainings, the clear, refreshes, idle pages, power-down, the patrol
scrub, and the triggers of a retraining; an entry whose bursts are all served completes: its bytes are stored, or replied, and the
access that ends with it is answered.
Where the chapter leaves a point open, the clauses follow the model's readings, log 22, 54. -/
def Obligations.DramEvents : Prop :=
  (∀ s c m, Live s → c < nDmc s → (dmcAt s c).st = .training → s.minMargin ≤ m → Completes (.dramTrainingDone c true m) s fun t =>
    (dmcAt t c).st = .clearing ∧ (dmcAt t c).margin = m ∧ (dmcAt t c).lastKind = 1 ∧ (dmcAt t c).lastTrain = s.time.tick ∧
    (∀ j, j ≠ c → dmcAt t j = dmcAt s j) ∧ SameBut [.dmcs, .free, .jnl] s t) ∧
  (∀ s c b m, Live s → c < nDmc s → (dmcAt s c).st = .training → (b = true → m < s.minMargin) →
    Completes (.dramTrainingDone c b m) s fun t =>
    (dmcAt t c).st = .offline ∧ (dmcAt t c).queue = [] ∧ (∀ j, j ≠ c → (dmcAt t j).st = (dmcAt s j).st) ∧
    SameBut [.active, .bulk, .bus, .caps, .col, .dmcs, .faults, .hives, .inner, .jnl, .mailboxes, .queues, .works] s t) ∧
  (∀ s c, Live s → c < nDmc s → (dmcAt s c).st = .clearing → Completes (.dramClearDone c) s fun t =>
    (dmcAt t c).st = .inService ∧ (dmcAt t c).scrubPos = 0 ∧ (∀ a, dramChannel s a = c → memByte t.dram a = 0) ∧
    (∀ a, dramChannel s a ≠ c → memByte t.dram a = memByte s.dram a) ∧ (∀ l ∈ t.dramUe, dramChannel s (64 * l) ≠ c) ∧
    (∀ j, j ≠ c → dmcAt t j = dmcAt s j) ∧ SameBut [.col, .dmcs, .dram, .dramMarks, .jnl, .mailboxes, .works] s t) ∧
  (∀ s c m, Live s → c < nDmc s → (dmcAt s c).st = .inService → (dmcAt s c).tracking = true → (dmcAt s c).trackPending = false →
    s.minMargin ≤ m → Completes (.trackDone c true m) s fun t =>
      (dmcAt t c).st = .inService ∧ (dmcAt t c).tracking = false ∧ (dmcAt t c).margin = m ∧ (dmcAt t c).lastKind = 2 ∧
      (∀ j, j ≠ c → dmcAt t j = dmcAt s j) ∧ SameBut [.col, .dmcs, .free, .jnl, .mailboxes, .works] s t) ∧
  (∀ s c b m, Live s → c < nDmc s → (dmcAt s c).st = .inService → (dmcAt s c).tracking = true → (b = true → m < s.minMargin) →
    Completes (.trackDone c b m) s fun t =>
      (dmcAt t c).st = .retraining ∧ (dmcAt t c).tracking = false ∧ (∀ j, j ≠ c → dmcAt t j = dmcAt s j) ∧
      SameBut [.dmcs, .faults, .jnl] s t) ∧
  (∀ s c, Live s → c < nDmc s → (dmcAt s c).st = .inService → (dmcAt s c).tracking = false →
    15 * 64 ≤ (dieTj s - (dmcAt s c).trainTj).natAbs → Completes (.tjMoveTrigger c) s fun t =>
      (dmcAt t c).tracking = true ∧ (dmcAt t c).st = .inService ∧ (dmcAt t c).retrains = min 0xFFFF ((dmcAt s c).retrains + 1) ∧
      (∀ j, j ≠ c → dmcAt t j = dmcAt s j) ∧ SameBut [.dmcs, .faults, .jnl] s t) ∧
  (∀ s c, Live s → c < nDmc s → (dmcAt s c).st = .inService → (dmcAt s c).tracking = false →
    s.ceLimit ≤ ((dmcAt s c).ceTicks.filter fun t => decide (s.time.tick < t + minuteTicks)).length → Completes (.ceLimit c) s fun t =>
      (dmcAt t c).tracking = true ∧ (dmcAt t c).st = .inService ∧ (dmcAt t c).retrains = min 0xFFFF ((dmcAt s c).retrains + 1) ∧
      (∀ j, j ≠ c → dmcAt t j = dmcAt s j) ∧ SameBut [.dmcs, .faults, .jnl] s t) ∧
  (∀ s c, Live s → c < nDmc s → (dmcAt s c).st = .inService → (dmcAt s c).tracking = false →
    (dmcAt s c).lastTrain + s.trackH * 360000000000 ≤ s.time.tick → Completes (.trackTimer c) s fun t =>
      (dmcAt t c).tracking = true ∧ (dmcAt t c).st = .inService ∧ (dmcAt t c).retrains = min 0xFFFF ((dmcAt s c).retrains + 1) ∧
      (∀ j, j ≠ c → dmcAt t j = dmcAt s j) ∧ SameBut [.dmcs, .faults, .jnl] s t) ∧
  (∀ s c, Live s → c < nDmc s → (dmcAt s c).caTick = none → Completes (.caParity c) s fun t =>
    (dmcAt t c).caTick = some s.time.tick ∧ (dmcAt t c).st = (dmcAt s c).st ∧ (∀ j, j ≠ c → dmcAt t j = dmcAt s j) ∧
    SameBut [.dmcs, .faults] s t) ∧
  (∀ s c k, Live s → c < nDmc s → (dmcAt s c).caTick = some k → s.time.tick ≤ k + 100000 → (dmcAt s c).st = .inService →
    (dmcAt s c).tracking = false → Completes (.caParity c) s fun t =>
      (dmcAt t c).st = .retraining ∧ (dmcAt t c).caTick = none ∧ (∀ j, j ≠ c → dmcAt t j = dmcAt s j) ∧
      SameBut [.dmcs, .faults, .jnl] s t) ∧
  (∀ s c r, Live s → c < nDmc s → r ≤ (dmcAt s c).ranks → r < 2 → (dmcAt s c).st = .inService → tget 0 (dmcAt s c).postponed r < 8 →
    tget 0 (dmcAt s c).refNext r ≤ s.time.tick →
    Completes (.refreshDue c r) s (SameBut [] { s with dmcs := tmod {} s.dmcs c fun x => { x with
      postponed := tmod 0 x.postponed r (· + 1), refNext := tset 0 x.refNext r (tget 0 x.refNext r + tRefi x) } })) ∧
  (∀ s c r b, Live s → c < nDmc s → r < 2 → b < 16 → Completes (.pageIdleClose c r b) s fun t =>
    (∀ p, p ∈ (dmcAt t c).rows ↔ p ∈ (dmcAt s c).rows ∧ ¬ (p.1 = 16 * r + b ∧ p.2.2 + (dmcAt s c).pageIdle ≤ s.time.tick)) ∧
    (dmcAt t c).queue = (dmcAt s c).queue ∧ (∀ j, j ≠ c → dmcAt t j = dmcAt s j) ∧ SameBut [.dmcs] s t) ∧
  (∀ s c r, Live s → c < nDmc s → r < 2 → r ≤ (dmcAt s c).ranks → (dmcAt s c).st = .inService → (dmcAt s c).pdIdle ≠ 0 →
    (dmcAt s c).queue = [] → r ∉ (dmcAt s c).pd → rankBlocked s (dmcAt s c) r = false →
    tget 0 (dmcAt s c).idleFrom r + (dmcAt s c).pdIdle ≤ s.time.tick → Completes (.powerDownEntry c r) s fun t =>
      (dmcAt t c).pd = (dmcAt s c).pd ++ [r] ∧ (∀ p ∈ (dmcAt t c).rows, p.1 / 16 ≠ r) ∧ (∀ j, j ≠ c → dmcAt t j = dmcAt s j) ∧
      SameBut [.dmcs] s t) ∧
  (∀ s c, Live s → c < nDmc s → s.scrubOn = true → (dmcAt s c).st = .inService → (dmcAt s c).capGib ≠ 0 →
    scrubDue s (dmcAt s c) = true → dramQuiet s (dramDevAddr s c (dmcAt s c).scrubPos) 64 = true →
    s.dramUe = [] → Completes (.patrolScrubBurst c) s fun t =>
      ((dmcAt t c).scrubPos = if (dmcAt s c).capGib * 2 ^ 30 ≤ (dmcAt s c).scrubPos + 64 then 0 else (dmcAt s c).scrubPos + 64) ∧
      t.dramCe = s.dramCe.erase (dramDevAddr s c (dmcAt s c).scrubPos / 64) ∧ SameBut [.dmcs, .dramMarks, .faults, .jnl] s t) ∧
  (∀ s c e, Live s → c < nDmc s → (dmcAt s c).queue = [e] → (dmcAt s c).st = .inService → (dmcAt s c).tracking = false →
    (∀ r, tget 0 (dmcAt s c).postponed r < 8) → 64 * e.served < e.len → s.jnl.staged = 0 →
    rankBlocked s (dmcAt s c) (nextRow s (dmcAt s c) e).1 = false → Completes (.dramCommandSlot c) s fun t =>
      (dmcAt t c).queue = [{ e with served := e.served + 1 }] ∧ (∀ j, j ≠ c → dmcAt t j = dmcAt s j) ∧ SameBut [.dmcs] s t) ∧
  (∀ s c, Live s → c < nDmc s → (dmcAt s c).st ≠ .inService ∨ (dmcAt s c).tracking = true → Completes (.dramCommandSlot c) s
    (SameBut [] s)) ∧
  (∀ s c i e, Live s → c < nDmc s → (dmcAt s c).queue[i]? = some e → 64 * e.served < e.len → Completes (.dramEntryDone c i) s
    (SameBut [] s)) ∧
  (∀ s c i e, Live s → c < nDmc s → (dmcAt s c).queue[i]? = some e → e.len ≤ 64 * e.served → e.master = 2 →
    (∀ q ∈ s.queues, ∀ b ∈ q.2.blocks, b.queued = true ∨ b.resident.isSome = true) → waitingCmds s = [] → waitingBulk s = [] → Completes (.dramEntryDone c i) s fun t =>
      memRead t.dram e.pos e.data.length = e.data ∧
      (∀ k, k < e.pos ∨ e.pos + e.data.length ≤ k → memByte t.dram k = memByte s.dram k) ∧
      (dmcAt t c).queue = (dmcAt s c).queue.eraseIdx i ∧ (∀ j, j ≠ c → dmcAt t j = dmcAt s j) ∧
      SameBut [.dmcs, .dram, .dramMarks, .faults, .grave] s t) ∧
  (∀ s c i e, Live s → c < nDmc s → (dmcAt s c).queue[i]? = some e → e.len ≤ 64 * e.served → e.master = 6 →
    (∀ q ∈ s.queues, ∀ b ∈ q.2.blocks, b.queued = true ∨ b.resident.isSome = true) → waitingCmds s = [] → waitingBulk s = [] → Completes (.dramEntryDone c i) s fun t =>
      t.jnl.staged = s.jnl.staged - e.id ∧ t.jnl.written = s.jnl.written ∧
      (dmcAt t c).queue = (dmcAt s c).queue.eraseIdx i ∧ (∀ j, j ≠ c → dmcAt t j = dmcAt s j) ∧
      SameBut [.dmcs, .faults, .jnl] s t) ∧
  (∀ s c i e v x w h a n d, Live s → c < nDmc s → (dmcAt s c).queue[i]? = some e → e.len ≤ 64 * e.served → e.master = 8 →
    (∀ q ∈ s.queues, ∀ b ∈ q.2.blocks, b.queued = true ∨ b.resident.isSome = true) → waitingCmds s = [] → waitingBulk s = [] →
    entryQueued { s with dmcs := tmod {} s.dmcs c fun q => { q with queue := q.queue.eraseIdx i } } 8 e.id = false →
    s.works = v ++ x :: w → x.serial = e.id → x.cmd = .dramWrite h a n d → x.mb ≤ 4 → (∀ y ∈ v ++ w, y.serial ≠ e.id) →
    e.write = true → e.err = none → ((partialLines e.pos e.data.length).any fun l => s.dramUe.contains l) = false →
    Completes (.dramEntryDone c i) s fun t =>
      memRead t.dram e.pos e.data.length = e.data ∧
      (∀ k, k < e.pos ∨ e.pos + e.data.length ≤ k → memByte t.dram k = memByte s.dram k) ∧ Replied s t x 0x0905 .ok [] ∧
      (dmcAt t c).queue = (dmcAt s c).queue.eraseIdx i ∧ t.works = v ++ w ∧
      SameBut [.col, .dmcs, .dram, .dramMarks, .faults, .grave, .mailboxes, .works] s t) ∧
  (∀ s c i e v x w h a n, Live s → c < nDmc s → (dmcAt s c).queue[i]? = some e → e.len ≤ 64 * e.served → e.master = 8 →
    (∀ q ∈ s.queues, ∀ b ∈ q.2.blocks, b.queued = true ∨ b.resident.isSome = true) → waitingCmds s = [] → waitingBulk s = [] →
    entryQueued { s with dmcs := tmod {} s.dmcs c fun q => { q with queue := q.queue.eraseIdx i } } 8 e.id = false →
    s.works = v ++ x :: w → x.serial = e.id → x.cmd = .dramRead h a n → x.mb ≤ 4 → (∀ y ∈ v ++ w, y.serial ≠ e.id) →
    e.write = false → e.err = none → e.img = [] → e.addr ≤ a → a + 8 * n ≤ e.addr + e.len →
    Completes (.dramEntryDone c i) s fun t =>
      (linesUe s e.addr e.len = false → Replied s t x 0x0906 .ok (memRead s.dram a (8 * n))) ∧
      (linesUe s e.addr e.len = true → Replied s t x 0x0906 .memError []) ∧
      (dmcAt t c).queue = (dmcAt s c).queue.eraseIdx i ∧ t.works = v ++ w ∧
      SameBut [.col, .dmcs, .dramMarks, .faults, .grave, .jnl, .mailboxes, .works] s t)

/-- The auxiliary outputs (R349 to R353, R356 to R361, R474): AUX_CONFIG and AUX_WRITE act on a channel that no cell is bound
to; a write reaches the output where the mode and AUX_CLR_N let it, else only its target; AUX_READBACK samples the code and is
answered when measured; AUX_CLR_N takes every channel to its clear code, where its release leaves it; slew steps and the
deglitch hold bring the code to its target; a current limit reached is a fault. -/
def Obligations.AuxOutputs : Prop :=
  (∀ s x h a sh st r cl, Decides s x (.auxConfig h a sh st r cl) → (auxAt s a).bound = none → Completes .commandDecision s fun t =>
    (auxAt t a).shape = sh ∧ (auxAt t a).stepSize = st ∧ (auxAt t a).rate = r ∧ (auxAt t a).clearCode = cl ∧
    ((auxAt t a).code = if (auxAt s a).cleared then cl else (auxAt s a).code) ∧ (auxAt t a).own = (auxAt s a).own ∧
    (∀ k, k ≠ a → auxAt t k = auxAt s k) ∧ SameBut [.auxs] (released s x) t) ∧
  (∀ s x h a sh st r cl, Decides s x (.auxConfig h a sh st r cl) → (auxAt s a).bound ≠ none → Completes .commandDecision s
    (SameBut [] (released s x))) ∧
  (∀ s x h a v w, Decides s x (.auxWrite h a v w) → (auxAt s a).bound = none → auxDrives s = true → (auxAt s a).shape = 0 →
    Completes .commandDecision s fun t =>
      (auxAt t a).code = (if w = 1 then v else auxCal (auxAt s a) v) ∧ (auxAt t a).target = (auxAt t a).code ∧
      (auxAt t a).cleared = false ∧ (∀ k, k ≠ a → auxAt t k = auxAt s k) ∧ SameBut [.auxs] (released s x) t) ∧
  (∀ s x h a v w, Decides s x (.auxWrite h a v w) → (auxAt s a).bound = none → auxDrives s = true → (auxAt s a).shape = 2 →
    Completes .commandDecision s fun t =>
      (auxAt t a).target = (if w = 1 then v else auxCal (auxAt s a) v) ∧
      (auxAt t a).code = slewTo (auxAt s a).code (auxAt t a).target (auxAt s a).stepSize ∧ (auxAt t a).cleared = false ∧
      ((auxAt t a).slewNext = if (auxAt t a).code = (auxAt t a).target then none else some (x.dec + (auxAt s a).rate)) ∧
      (∀ k, k ≠ a → auxAt t k = auxAt s k) ∧ SameBut [.auxs] (released s x) t) ∧
  (∀ s x h a v w, Decides s x (.auxWrite h a v w) → (auxAt s a).bound = none → auxDrives s = false → Completes .commandDecision s fun t =>
    (auxAt t a).code = (auxAt s a).code ∧ (auxAt t a).target = (if w = 1 then v else auxCal (auxAt s a) v) ∧
    (∀ k, k ≠ a → auxAt t k = auxAt s k) ∧ SameBut [.auxs] (released s x) t) ∧
  (∀ s x h a, Decides s x (.auxReadback h a) → Completes .commandDecision s fun t =>
    auxAt t a = { auxAt s a with reads := ((auxAt s a).reads.filter fun r => s.works.any (·.serial = r.1)) ++
      [(x.serial, x.dec, (auxAt s a).code)] } ∧ (∀ k, k ≠ a → auxAt t k = auxAt s k) ∧
    SameBut [.auxs] { released s x with works := s.works ++ [x] } t) ∧
  (∀ s x h a m w, Live s → a < 64 → Oldest s (fun c => ∃ h, c = .auxReadback h a) x w → x.cmd = .auxReadback h a →
    Completes (.auxReadbackDone a m) s fun t =>
      (auxAt t a).meas = m % 65536 ∧ (auxAt t a).code = (auxAt s a).code ∧
      Replied s t x 0x0A02 .ok
        (res [(2, m % 65536), (2, (auxSampled (auxAt s a) x.serial).2), (8, (auxSampled (auxAt s a) x.serial).1)]) ∧
      (∀ k, k ≠ a → auxAt t k = auxAt s k) ∧ SameBut [.auxs, .mailboxes, .col] { s with works := w } t) ∧
  (∀ s x h a m, Decides s x (.auxClear h a m) → Completes .commandDecision s fun t =>
    (auxAt t a).meas = (if m.getLsbD 32 then 0 else (auxAt s a).meas) ∧ (auxAt t a).code = (auxAt s a).code ∧
    (t.svc = if m.getLsbD 33 then { s.svc with selfResid := 0, selfWorst := 0, selfRuns := 0 } else s.svc) ∧
    (∀ k, k ≠ a → auxAt t k = auxAt s k) ∧ SameBut [.auxs, .svc] (released s x) t) ∧
  (∀ s, Live s → s.auxClrN = true → Completes .auxClrAssert s fun t =>
    t.auxClrN = false ∧ (∀ a, a < 64 → (auxAt t a).code = (auxAt s a).clearCode ∧ (auxAt t a).cleared = true ∧
      (auxAt t a).slewNext = none ∧ (auxAt t a).holdEnd = none ∧ (auxAt t a).clearCode = (auxAt s a).clearCode ∧
      (auxAt t a).epoch = (auxAt s a).epoch + 1) ∧
    (∀ a, 64 ≤ a → auxAt t a = auxAt s a) ∧ SameBut [.auxs, .auxClrN, .faults, .jnl] s t) ∧
  (∀ s, Live s → s.auxClrN = false → Completes .auxClrRelease s fun t =>
    t.auxClrN = true ∧ (∀ a, a < 64 → auxAt t a = { auxAt s a with epoch := (auxAt s a).epoch + 1 }) ∧
    (∀ a, 64 ≤ a → auxAt t a = auxAt s a) ∧ SameBut [.auxs, .auxClrN, .jnl] s t) ∧
  (∀ s a n, Live s → a < 64 → (auxAt s a).slewNext = some n → n ≤ s.time.tick → Completes (.auxSlewStep a) s fun t =>
    (auxAt t a).code = slewTo (auxAt s a).code (auxAt s a).target (auxAt s a).stepSize ∧
    ((auxAt t a).slewNext = if (auxAt t a).code = (auxAt s a).target then none else some (n + (auxAt s a).rate)) ∧
    (∀ k, k ≠ a → auxAt t k = auxAt s k) ∧ SameBut [.auxs] s t) ∧
  (∀ s a n, Live s → a < 64 → (auxAt s a).holdEnd = some n → n ≤ s.time.tick → Completes (.deglitchHoldEnd a) s fun t =>
    auxAt t a = { auxAt s a with code := (auxAt s a).target, holdEnd := none } ∧ (∀ k, k ≠ a → auxAt t k = auxAt s k) ∧
    SameBut [.auxs] s t) ∧
  (∀ s a, Live s → a < 64 → (fltAt s .aux).mask.getLsbD 0 = false → Completes (.auxShort a true) s fun t =>
    auxAt t a = { auxAt s a with short := true } ∧ (∀ k, k ≠ a → auxAt t k = auxAt s k) ∧ (fltAt t .aux).status.getLsbD 0 = true ∧
    SameBut [.auxs, .faults] s t) ∧
  (∀ s a, Live s → a < 64 → Completes (.auxShort a false) s fun t =>
    auxAt t a = { auxAt s a with short := false } ∧ (∀ k, k ≠ a → auxAt t k = auxAt s k) ∧ SameBut [.auxs] s t)

/-- The colony commands at their decisions (R237, R240, R248, R256, R257, R474): COL_CONFIG sets the ports in use, and a port
no longer enabled goes DOWN; COL_SKEW_CAL begins its exchanges on every joined port; COL_TUNNEL puts the frame's fragments on
its path, or fails where the path is down; COL_CLEAR clears what its mask names; COL_WAKE sends WAKE frames.
Where the chapter leaves a point open, the clauses follow the model's readings, log 61. -/
def Obligations.ColonyDecisions : Prop :=
  (∀ s x h m l, Decides s x (.colConfig h m l) → unitMode s = .bringUp → s.col.role = 1 → Completes .commandDecision s fun t =>
    t.col.starMask = m ∧ t.col.swlLead = dflt 2 l ∧
    (∀ k, 1 ≤ k → k ≤ 63 → m.getLsbD (k - 1) = true → portAt t k = portAt s k) ∧
    (∀ k, 1 ≤ k → k ≤ 63 → m.getLsbD (k - 1) = false → (portAt t k).st = 0 ∧ (portAt t k).due = []) ∧
    (t.col.joined = true ↔ ∃ k, 1 ≤ k ∧ k ≤ 63 ∧ (portAt t k).st = 3) ∧ SameBut [.col] (released s x) t) ∧
  (∀ s x h m l, Decides s x (.colConfig h m l) → unitMode s ≠ .bringUp → Completes .commandDecision s
    (SameBut [] (released s x))) ∧
  (∀ s x h e m, Decides s x (.colSkewCal h e m) → unitMode s = .bringUp ∨ unitMode s = .idle → workersQuiet s = true →
    joinedPorts s ≠ [] → Completes .commandDecision s fun t =>
      (∀ k ∈ joinedPorts s, portAt t k = { askDelay (dflt 256 e) (portAt s k) with acquiring := false }) ∧
      t.col.run = some ⟨1, dflt 256 e, joinedPorts s, maskLines m, [], false⟩ ∧
      (∀ k, k ∉ joinedPorts s → portAt t k = portAt s k) ∧ SameBut [.col] { released s x with works := s.works ++ [x] } t) ∧
  (∀ s x h e m, Decides s x (.colSkewCal h e m) → ¬ ((unitMode s = .bringUp ∨ unitMode s = .idle) ∧ workersQuiet s = true) →
    Completes .commandDecision s fun t => Replied s t x 0x0B01 .badMode [] ∧ SameBut [.mailboxes, .col] (released s x) t) ∧
  (∀ s x h d f, Decides s x (.colTunnel h d 0 f) → pathDown s d 0 = false → Completes .commandDecision s fun t =>
    (portAt t d).due.length = (portAt s d).due.length + 4 ∧ (portAt t d).st = (portAt s d).st ∧
    (∀ k, k ≠ d → portAt t k = portAt s k) ∧ SameBut [.col] { released s x with works := s.works ++ [x] } t) ∧
  (∀ s x h d f, Decides s x (.colTunnel h d 1 f) → pathDown s d 1 = false → Completes .commandDecision s fun t =>
    (portAt t 65).due.length = (portAt s 65).due.length + 6 ∧ (∀ k, k ≠ 65 → portAt t k = portAt s k) ∧
    SameBut [.col] { released s x with works := s.works ++ [x] } t) ∧
  (∀ s x h d p f, Decides s x (.colTunnel h d p f) → pathDown s d p = true → Completes .commandDecision s fun t =>
    Replied s t x 0x0B02 .colLink [] ∧ SameBut [.mailboxes, .col] (released s x) t) ∧
  (∀ s x h m, Decides s x (.colClear h m) → Completes .commandDecision s fun t =>
    t.col.swlAdjust = s.col.swlAdjust &&& ~~~((m >>> 16).truncate 16) ∧ t.col.miss = (if m.getLsbD 32 then 0 else s.col.miss) ∧
    t.col.shiftCount = (if m.getLsbD 33 then 0 else s.col.shiftCount) ∧
    t.col.sysrefSkip = (if m.getLsbD 34 then 0 else s.col.sysrefSkip) ∧
    (∀ k, k < 64 → portAt t k = { portAt s k with
      frameErr := if m.getLsbD 35 then 0 else (portAt s k).frameErr, fwdDrop := if m.getLsbD 36 then 0 else (portAt s k).fwdDrop }) ∧
    (∀ k, 64 ≤ k → portAt t k = portAt s k) ∧ SameBut [.col] (released s x) t) ∧
  (∀ s x h m w, Decides s x (.colWake h m w) → Completes .commandDecision s fun t =>
    (∀ k ∈ maskWorkers m, 2 ≤ (portAt s k).st → ∃ f ∈ (portAt t k).due, f.hdr = 0x46 ∧ f.payload = BitVec.ofNat 128 w) ∧
    (∀ k, k ∉ maskWorkers m ∨ (portAt s k).st < 2 → portAt t k = portAt s k) ∧ SameBut [.col] (released s x) t)

/-- Frames received (R237, R240 to R245, R247, R253, R255 to R257): on a port that is not UP nothing happens; a frame with a
wrong CRC is counted and discarded; the rest act as their kind says.
Where the chapter leaves a point open, the clauses follow the model's readings, log 24, 60. -/
def Obligations.ColonyFrames : Prop :=
  (∀ s k f c, Live s → k < 64 → starPort s k = false ∨ inRetain s = true →
    c = .idleFrame k f ∨ c = .timeFrame k f ∨ c = .eventFrame k f ∨ c = .swarmFrame k f ∨ c = .statusFrame k f ∨ c = .join k f ∨
      c = .horizonFrame k f ∨ c = .correct k f ∨ c = .wakeFrame k f ∨ c = .tunnelFrame k f ∨ c = .swarmCal k f true ∨
      c = .swarmCal k f false → Completes c s (SameBut [] s)) ∧
  (∀ s k f c, Live s → k < 64 → starPort s k = true → inRetain s = false → (portAt s k).st < 2 → frameCrcOk f = true →
    c = .idleFrame k f ∨ c = .timeFrame k f ∨ c = .eventFrame k f ∨ c = .swarmFrame k f ∨ c = .statusFrame k f ∨ c = .join k f ∨
      c = .horizonFrame k f ∨ c = .correct k f ∨ c = .wakeFrame k f ∨ c = .tunnelFrame k f ∨ c = .swarmCal k f true ∨
      c = .swarmCal k f false → Completes c s fun t =>
      (portAt t k).st = max 1 (portAt s k).st ∧ (portAt t k).good = min 64 ((portAt s k).good + 1) ∧ (portAt t k).bad = 0 ∧
      (∀ j, j ≠ k → portAt t j = portAt s j) ∧ SameBut [.col, .faults] s t) ∧
  (∀ s k f c, Live s → k < 64 → starPort s k = true → inRetain s = false → frameCrcOk f = false → (portAt s k).bad < 7 →
    c = .idleFrame k f ∨ c = .timeFrame k f ∨ c = .eventFrame k f ∨ c = .swarmFrame k f ∨ c = .statusFrame k f ∨ c = .join k f ∨
      c = .horizonFrame k f ∨ c = .correct k f ∨ c = .wakeFrame k f ∨ c = .tunnelFrame k f ∨ c = .swarmCal k f true ∨
      c = .swarmCal k f false → Completes c s fun t =>
      portAt t k = { portAt s k with
        frameErr := min 0xFFFF ((portAt s k).frameErr + 1), good := 0, bad := (portAt s k).bad + 1 } ∧
      (∀ j, j ≠ k → portAt t j = portAt s j) ∧ SameBut [.col, .faults] s t) ∧
  (∀ s k f, Live s → k < 64 → starPort s k = true → inRetain s = false → 2 ≤ (portAt s k).st → frameCrcOk f = true → plain f 0 [(0, 128)] = true →
    Completes (.idleFrame k f) s (SameBut [] (heardFrame k true s))) ∧
  (∀ s k f, Live s → k < 64 → starPort s k = true → inRetain s = false → 2 ≤ (portAt s k).st → frameCrcOk f = true → plain f 1 [(96, 32)] = true → s.col.role = 2 →
    s.time.ready = false → Completes (.timeFrame k f) s fun t =>
      t.time.horizon = pay f 64 12 ∧ t.col.lastTime = some (pay f 0 60, s.time.tick) ∧ t.col.syncLat = pay f 60 4 ∧
      t.col.syncLog2 = pay f 76 5 ∧ t.col.swlLead = pay f 81 4 ∧ t.col.dMax = pay f 85 11 ∧
      t.col.hMin = max 96 (70 + 2 * pay f 85 11) ∧ SameBut [.col, .time] s t) ∧
  (∀ s k f, Live s → k < 64 → starPort s k = true → inRetain s = false → 2 ≤ (portAt s k).st → frameCrcOk f = true → plain f 1 [(96, 32)] = true → s.col.role = 2 →
    s.time.ready = true → ownSlot s ≠ pay f 0 60 → (fltAt s .col).mask.getLsbD 4 = false → Completes (.timeFrame k f) s fun t =>
      (fltAt t .col).status.getLsbD 4 = true ∧ t.time.horizon = s.time.horizon) ∧
  (∀ s k f, Live s → k < 64 → starPort s k = true → inRetain s = false → 2 ≤ (portAt s k).st → frameCrcOk f = true → plain f 0x06 [(6, 122)] = true → s.col.role = 2 →
    Completes (.join k f) s fun t =>
      t.col.devnum = pay f 0 6 ∧ t.col.joined = true ∧ (portAt t 0).st = 3 ∧ t.col.gotJoin = true ∧
      (∀ j, j ≠ 0 → portAt t j = portAt s j) ∧ SameBut [.col] s t) ∧
  (∀ s k f, Live s → k < 64 → starPort s k = true → inRetain s = false → 2 ≤ (portAt s k).st → frameCrcOk f = true → plain f 0x16 [(12, 4), (76, 52)] = true → s.col.role = 2 →
    Completes (.horizonFrame k f) s fun t =>
      (∃ y ∈ t.held, y.dec = pay f 16 60 ∧ y.cmd = .timeHorizonSet { ctx := 0, mb := 5, seq := 0 } (pay f 0 12) ∧ y.reply = false) ∧
      t.held.length = s.held.length + 1 ∧ SameBut [.held, .kpr] (heardFrame k true s) t) ∧
  (∀ s k f, Live s → k < 64 → starPort s k = true → inRetain s = false → 2 ≤ (portAt s k).st → frameCrcOk f = true → plain f 0x26 [(32, 96)] = true → s.col.role = 2 →
    s.time.ready = false → Completes (.correct k f) s fun t =>
      t.col.gotCorrect = true ∧ t.col.phase = s.col.phase + sext 32 (pay f 0 32) ∧ (portAt t 0).delay ≤ 1024 * (s.col.dMax + 1) ∧
      t.col.slew = s.col.slew ∧ t.col.calibrated = s.col.calibrated ∧ (∀ j, j ≠ 0 → portAt t j = portAt s j) ∧ SameBut [.col] s t) ∧
  (∀ s k f, Live s → k < 64 → starPort s k = true → inRetain s = false → 2 ≤ (portAt s k).st → frameCrcOk f = true → plain f 0x26 [(32, 96)] = true → s.col.role = 2 →
    s.time.ready = true → Completes (.correct k f) s fun t =>
      let u := heardFrame k true s
      SameBut [] { u with col := { u.col with
        gotCorrect := true, calibrated := t.col.calibrated, slew := s.col.slew + sext 32 (pay f 0 32) } } t) ∧
  (∀ s k f, Live s → k < 64 → starPort s k = true → inRetain s = false → 2 ≤ (portAt s k).st → frameCrcOk f = true → plain f 5 [(9, 7), (27, 5), (92, 36)] = true →
    s.col.role = 1 → Completes (.statusFrame k f) s fun t =>
      portAt t k = { portAt (heardFrame k true s) k with
        stMode := pay f 0 4, stPower := pay f 4 2, stBits := pay f 6 3, maxHops := pay f 16 11 } ∧
      (∀ j, j ≠ k → portAt t j = portAt s j) ∧ SameBut [.col] s t) ∧
  (∀ s k f t2, Live s → k < 64 → starPort s k = true → inRetain s = false → 2 ≤ (portAt s k).st → frameCrcOk f = true → plain f 0x04 [(60, 68)] = true → s.col.role = 2 →
    Completes (.delayRequest k f t2) s fun t =>
      (∃ d ∈ (portAt t 0).due, d.hdr = 0x14 ∧ bits d.payload.toNat 0 60 = pay f 0 60 ∧
        bits d.payload.toNat 64 28 = toField 28 ((t2 : Int) - 1024 * (pay f 0 60 : Int))) ∧
      (∀ j, j ≠ 0 → portAt t j = portAt s j) ∧ SameBut [.col] s t) ∧
  (∀ s k f t4, Live s → k < 64 → starPort s k = true → inRetain s = false → 2 ≤ (portAt s k).st → frameCrcOk f = true → plain f 0x14 [(60, 4), (108, 20)] = true →
    s.col.role = 1 → (portAt s k).acquiring = false → s.col.run = none → Completes (.delayResponse k f t4) s fun t =>
      (let a1 := sext 28 (pay f 64 28) - (phyLat s k).1 - (phyLat s 0).2
       let q1 := (t4 : Int) - 1024 * ((pay f 0 60 : Int) + (pay f 92 16 : Int)) - (phyLat s 0).1 - (phyLat s k).2
       portAt t k = { portAt (heardFrame k true s) k with
         answers := (portAt s k).answers + 1, sumDelay := (portAt s k).sumDelay + (a1 + q1) / 2,
         sumTheta := (portAt s k).sumTheta + (a1 - q1) / 2 }) ∧
      (∀ j, j ≠ k → portAt t j = portAt s j) ∧ SameBut [.col] s t) ∧
  (∀ s k f t4, Live s → k < 64 → starPort s k = true → inRetain s = false → 2 ≤ (portAt s k).st → frameCrcOk f = true → plain f 0x14 [(60, 4), (108, 20)] = true →
    s.col.role = 1 → (portAt s k).acquiring = true → (portAt s k).answers = 63 → Completes (.delayResponse k f t4) s fun t =>
      (portAt t k).delay = toField 22 (((portAt s k).sumDelay + (exchange s k f t4).1) / 64) ∧ (portAt t k).acquiring = false ∧
      (∃ d ∈ (portAt t k).due, d.hdr = 0x26 ∧
        d.payload = BitVec.ofNat 128 (toField 32 (-(((portAt s k).sumTheta + (exchange s k f t4).2) / 64)))) ∧
      t.col.hMin = max 96 (70 + 2 * t.col.dMax) ∧ (∀ j, j ≠ k → portAt t j = portAt s j) ∧ SameBut [.col, .faults] s t) ∧
  (∀ s k f b, Live s → k < 64 → starPort s k = true → inRetain s = false → 2 ≤ (portAt s k).st → frameCrcOk f = true → plain f 0x36 [(64, 64)] = true → s.col.role = 2 →
    Completes (.swarmCal k f b) s fun t =>
      let u := heardFrame k true s
      SameBut [] { u with col := { u.col with
        calLines := tset 0 s.col.calLines (pay f 0 4) (pay f 4 60), calibrated := b } } t) ∧
  (∀ s k f, Live s → k < 64 → starPort s k = true → inRetain s = false → 2 ≤ (portAt s k).st → frameCrcOk f = true → plain f 2 [(60, 4), (77, 3), (102, 26)] = true →
    s.time.ready = true → wagCarries s = true → s.md.mode ≠ .replay → s.col.suspended = false → s.col.role = 2 →
    pay f 96 6 ≠ s.col.devnum → chanFwd (chanAt s (pay f 64 9)) = true → chanEnabled (chanAt s (pay f 64 9)) = true →
    Completes (.eventFrame k f) s fun t =>
      t.hops = s.hops ++ [⟨s.time.tick + 2, ⟨pay f 0 60, pay f 64 9, decide (pay f 73 1 = 1), pay f 74 3, pay f 80 16, false⟩,
        .onto (pay f 64 9), true⟩] ∧ SameBut [.hops, .jnl] (heardFrame k true s) t) ∧
  (∀ s k f, Live s → k < 64 → starPort s k = true → inRetain s = false → 2 ≤ (portAt s k).st → frameCrcOk f = true → plain f 2 [(60, 4), (77, 3), (102, 26)] = true →
    pay f 96 6 = s.col.devnum → Completes (.eventFrame k f) s (SameBut [] (heardFrame k true s))) ∧
  (∀ s k f, Live s → k < 64 → starPort s k = true → inRetain s = false → 2 ≤ (portAt s k).st → frameCrcOk f = true → plain f 3 [(124, 4)] = true → s.col.role ≠ 2 →
    Completes (.swarmFrame k f) s (SameBut [] (heardFrame k true s))) ∧
  (∀ s k f, Live s → k < 64 → starPort s k = true → inRetain s = false → 2 ≤ (portAt s k).st → frameCrcOk f = true → plain f 0x46 [(60, 68)] = true → s.col.role = 2 →
    s.md.mode = .standby → s.md.power = 2 → s.sec.wakeColony = true → s.sec.waking = false →
    Completes (.wakeFrame k f) s fun t =>
      (pay f 0 60, 5, 0) ∈ t.sec.wakeAt ∧ (∀ w ∈ s.sec.wakeAt, w ∈ t.sec.wakeAt) ∧ SameBut [.sec] (heardFrame k true s) t) ∧
  (∀ s k f, Live s → k < 64 → starPort s k = true → inRetain s = false → 2 ≤ (portAt s k).st → frameCrcOk f = true → bits f.hdr.toNat 0 4 = 7 → bitOf f.hdr.toNat 7 = false →
    bits f.hdr.toNat 4 2 = 0 → Completes (.tunnelFrame k f) s fun t =>
      portAt t k = { portAt (heardFrame k true s) k with fragBuf := le 16 f.payload.toNat } ∧
      (∀ j, j ≠ k → portAt t j = portAt s j) ∧ SameBut [.col] s t) ∧
  (∀ s f, Live s → inRetain s = false → 2 ≤ s.col.upState → frameCrcOk f = true → bits f.hdr.toNat 0 4 = 8 →
    bits f.hdr.toNat 4 3 = 6 → pay f 12 20 = 0 → pay f 32 96 = 0 → Completes (.chainFrame 64 f) s fun t =>
      t.col.chainPos = pay f 0 6 ∧ (s.col.dnState < 2 → ∀ k, k ≠ 64 → portAt t k = portAt s k) ∧
      (2 ≤ s.col.dnState → ∃ d ∈ (portAt t 65).due, d.hdr = 0x68 ∧ bits d.payload.toNat 0 6 = (pay f 0 6 + 1) % 64) ∧ SameBut [.col] s t)

/-- Ports, slots and colony timers (R238, R240, R243, R245, R248, R251, R256, R456).
Where the chapter leaves a point open, the clauses follow the model's readings, log 59, 60, 61. -/
def Obligations.ColonyEvents : Prop :=
  (∀ s k, Live s → k < 64 → starPort s k = true → (portAt s k).st < 2 → 64 ≤ (portAt s k).good → s.col.role = 2 →
    Completes (.portUp k) s fun t =>
    (portAt t k).st = 2 ∧ (∀ j, j ≠ k → portAt t j = portAt s j) ∧ SameBut [.col] s t) ∧
  (∀ s k, Live s → k < 64 → starPort s k = true → (portAt s k).st < 2 → 64 ≤ (portAt s k).good → s.col.role = 1 →
    Completes (.portUp k) s fun t =>
    (portAt t k).st = 3 ∧ (portAt t k).exchanges = 64 ∧ (portAt t k).acquiring = true ∧ t.col.joined = true ∧ (portAt t k).sinceTime = 1023 ∧
    (∃ f ∈ (portAt t k).due, f.hdr = 0x06 ∧ f.payload = BitVec.ofNat 128 k) ∧ (∀ j, j ≠ k → portAt t j = portAt s j) ∧
    SameBut [.col] s t) ∧
  (∀ s k, Live s → k < 66 → portState s k < 2 → (portAt s k).good < 64 → Completes (.portUp k) s (SameBut [] s)) ∧
  (∀ s k f c, Live s → k < 64 → starPort s k = true → inRetain s = false → frameCrcOk f = false → (portAt s k).bad = 7 →
    2 ≤ (portAt s k).st → (fltAt s .col).mask.getLsbD 0 = false →
    c = .idleFrame k f ∨ c = .timeFrame k f ∨ c = .eventFrame k f ∨ c = .swarmFrame k f ∨ c = .statusFrame k f → Completes c s fun t =>
      (portAt t k).st = 0 ∧ (portAt t k).due = [] ∧ (portAt t k).frameErr = min 0xFFFF ((portAt s k).frameErr + 1) ∧
      (fltAt t .col).status.getLsbD 0 = true ∧ (∀ j, j ≠ k → portAt t j = portAt s j) ∧ SameBut [.col, .faults, .mailboxes] s t) ∧
  (∀ s k, Live s → k < 64 → 2 ≤ (portAt s k).st → (fltAt s .col).mask.getLsbD 0 = false → Completes (.portDown k) s fun t =>
      (portAt t k).st = 0 ∧ (portAt t k).due = [] ∧ (fltAt t .col).status.getLsbD 0 = true ∧
      (∀ j, j ≠ k → portAt t j = portAt s j) ∧ SameBut [.col, .faults, .mailboxes] s t) ∧
  (∀ s k, Live s → k < 66 → s.time.tick % 8 = 0 → inRetain s = false → portState s k < 2 →
    Completes (.frameSlot k) s fun t =>
    (portAt t k).lastSlot = s.time.tick ∧ 
    (portAt t k).lastSent = some (sentFrame { rank := 8, hdr := 0, payload := 0 } s.time.tick) ∧
    (portAt t k).due = (portAt s k).due.erase { rank := 8, hdr := 0, payload := 0 } ∧ (∀ j, j ≠ k → portAt t j = portAt s j) ∧ SameBut [.col] s t) ∧
  (∀ s k, Live s → k < 66 → s.time.tick % 8 ≠ 0 ∨ inRetain s = true → Completes (.frameSlot k) s (SameBut [] s)) ∧
  (∀ s f, Live s → s.time.tick % 8 = 0 → inRetain s = false → s.col.role = 2 → (portAt s 0).st = 2 → (portAt s 0).due = [f] → f.since ≤ s.time.tick →
    f.hdr ≠ 2 → f.frees = none → Completes (.frameSlot 0) s fun t =>
      (portAt t 0).due = [] ∧ (portAt t 0).lastSent = some (sentFrame f s.time.tick) ∧ (∀ j, j ≠ 0 → portAt t j = portAt s j) ∧
      SameBut [.col] s t) ∧
  (∀ s, Live s → s.col.slew ≠ 0 → s.time.ready = true → s.col.lastSlew + 1024 ≤ s.time.tick →
    (s.col.corr + (if 0 < s.col.slew then 1 else -1)).natAbs ≤ 128 → Completes .correctionSlewStep s (SameBut [.jnl] { s with
      col := { s.col with
        slew := s.col.slew - (if 0 < s.col.slew then 1 else -1), corr := s.col.corr + (if 0 < s.col.slew then 1 else -1),
        phase := s.col.phase + (if 0 < s.col.slew then 1 else -1), lastSlew := s.time.tick } })) ∧
  (∀ s x h d p f w, Live s → Oldest s (fun c => ∃ h d p f, c = .colTunnel h d p f) x w → x.cmd = .colTunnel h d p f →
    x.dec + 1000000 ≤ s.time.tick → Completes .tunnelTimeout s fun t =>
      Replied s t x 0x0B02 .colTimeout [] ∧ SameBut [.mailboxes, .col] { s with works := w } t) ∧
  (∀ s x h e m w r b, Live s → Oldest s (fun c => ∃ h e m, c = .colSkewCal h e m) x w → x.cmd = .colSkewCal h e m → s.col.run = some r →
    r.service = false → linesDone r = true → compTooLong s r = false → Completes (.colSkewCalDone b) s fun t =>
      t.col.calibrated = true ∧ t.col.run = none ∧ t.col.residual = s.col.residual ∧
      t.col.swlComp = r.comps.foldl (fun t c => tset 0 t c.1 c.2) s.col.swlComp ∧ Replied s t x 0x0B01 .ok [] ∧
      SameBut [.mailboxes, .col] { s with works := w } t) ∧
  (∀ s x h e m w r b, Live s → Oldest s (fun c => ∃ h e m, c = .colSkewCal h e m) x w → x.cmd = .colSkewCal h e m → s.col.run = some r →
    r.service = false → r.phase = 5 ∨ skewStuck s b r = true → Completes (.colSkewCalDone b) s fun t =>
      t.col.calibrated = false ∧ t.col.run = none ∧ t.col.swlComp = s.col.swlComp ∧ Replied s t x 0x0B01 .colLink [] ∧
      SameBut [.mailboxes, .col, .faults] { s with works := w } t) ∧
  (∀ s l e, Live s → l < 16 → s.col.heldEdges = [e] → e.line = l → e.kept = false →
    edgeWindow e + 19 + s.col.dMax ≤ s.time.tick →
    Completes (.swarmReportTimeout l) s fun t =>
      t.col.heldEdges = [] ∧ (portAt t 0).frameErr = min 0xFFFF ((portAt s 0).frameErr + 1) ∧
      pinLevelAt t (32 + l) e.origin = e.level ∧ SameBut [.col, .faults, .hops, .jnl, .pins] s t)

/-- Contexts, owners and wake sources (R385, R386, R387, R392, R405, R407): CTX_SET gives a context its attributes unless an
object forbids it; OWN_SET gives every object named its owner and no other; OWN_READ returns owner bytes; WAKE_SET sets the
sources outside STANDBY.
Where the chapter leaves a point open, the clauses follow the model's readings, log 63. -/
def Obligations.SecurityDecisions : Prop :=
  (∀ s x h k en se, Decides s x (.ctxSet h k en se) → 0 < k → k < 16 → ctxHolds s k en se = false → Completes .commandDecision s fun t =>
    ctxEnabled t k = decide (en = 1) ∧ (ctxSecure t k = true ↔ se ≠ 0) ∧ (ctxAt t k).window = (ctxAt s k).window ∧
    (ctxAt t k).irqMask = (ctxAt s k).irqMask ∧
    (∀ j, j < 16 → j ≠ k → ctxEnabled t j = ctxEnabled s j ∧ ctxSecure t j = ctxSecure s j) ∧ SameBut [.contexts] (released s x) t) ∧
  (∀ s x h k en se, Decides s x (.ctxSet h k en se) → ctxHolds s k en se = true → Completes .commandDecision s
    (SameBut [] (released s x))) ∧
  (∀ s x h f n o se, Decides s x (.ownSet h 0 f n o se) → (upFrom n f).any (ownUsed s 0) = false → Completes .commandDecision s fun t =>
    (∀ c, f ≤ c → c < f + n → cellOwner t c = ⟨o, decide (se = 1)⟩ ∧
      (cellOwner s c ≠ cellOwner t c → (cellAt t c).epoch = (cellAt s c).epoch + 1)) ∧
    (∀ c, c < f ∨ f + n ≤ c → cellOwner t c = cellOwner s c) ∧
    (∀ c, cellAt t c = { cellAt s c with epoch := (cellAt t c).epoch }) ∧
    SameBut [.cells, .cellOwn] (released s x) t) ∧
  (∀ s x h f n o se, Decides s x (.ownSet h 1 f n o se) → (upFrom n f).any (ownUsed s 1) = false → Completes .commandDecision s fun t =>
    (∀ a, f ≤ a → a < f + n → (auxAt t a).own = ⟨o, decide (se = 1)⟩) ∧
    (∀ a, a < f ∨ f + n ≤ a → auxAt t a = auxAt s a) ∧
    (∀ a, auxAt t a = { auxAt s a with own := (auxAt t a).own, epoch := (auxAt t a).epoch }) ∧ SameBut [.auxs] (released s x) t) ∧
  (∀ s x h k f n o se, Decides s x (.ownSet h k f n o se) → (upFrom n f).any (ownUsed s k) = true → Completes .commandDecision s
    (SameBut [] (released s x))) ∧
  (∀ s x h f n, Decides s x (.ownRead h 0 f n) → Completes .commandDecision s fun t =>
    Replied s t x 0x0C02 .ok ((upFrom n f).map fun i => BitVec.ofNat 8 ((cellOwner s i).owner % 16 + 16 * b2n (cellOwner s i).secure)) ∧
    SameBut [.mailboxes, .col] (released s x) t) ∧
  (∀ s x h f n, Decides s x (.ownRead h 1 f n) → Completes .commandDecision s fun t =>
    Replied s t x 0x0C02 .ok ((upFrom n f).map fun i => BitVec.ofNat 8 ((auxAt s i).own.owner % 16 + 16 * b2n (auxAt s i).own.secure)) ∧
    SameBut [.mailboxes, .col] (released s x) t) ∧
  (∀ s x h e l c w, Decides s x (.wakeSet h e l c w) → s.md.mode ≠ .standby → Completes .commandDecision s
    (SameBut [] { released s x with
      sec := { s.sec with wakeEvp := e, wakeSwl := l, wakeColony := c = 1, wakeTick := w } })) ∧
  (∀ s x h e l c w, Decides s x (.wakeSet h e l c w) → s.md.mode = .standby → Completes .commandDecision s
    (SameBut [] (released s x)))

/-- Lifecycle and debug sessions at their decisions (R383, R384, R396, R397, R398, R399, R401): LC_ADVANCE blows the fuse and
ends any session; DBG_OPEN opens a level that needs no authentication; a response that matches opens FULL, any other fails and the
third failure in a row locks; DBG_CLOSE closes; a trace read answers its words.
Where the chapter leaves a point open, the clauses follow the model's readings, log 11, 62. -/
def Obligations.LifecycleDecisions : Prop :=
  (∀ s x h n c, Decides s x (.lcAdvance h n c) → s.md.mode = .bringUp ∨ s.md.mode = .idle → lcErr s n c = none →
    Completes .commandDecision s fun t =>
      t.dev = { s.dev with lifecycle := n } ∧ t.works = s.works ++ [x] ∧ t.sec.nonce = none ∧ t.sec.sessionEnd = none ∧
      t.sec.dbg = (if n = 2 ∨ s.dev.fusesOk = false then 0 else 2) ∧ t.sec.halted = false ∧ (n = 2 → t.sec.jtag = .bypass) ∧
      SameBut [.dev, .jnl, .works, .sec]
        { released s x with kpr := { s.kpr with ready := s.kpr.ready || s.sec.halted } } t) ∧
  (∀ s x h n c e, Decides s x (.lcAdvance h n c) → s.md.mode = .bringUp ∨ s.md.mode = .idle → lcErr s n c = some e →
    Completes .commandDecision s fun t => Replied s t x 0x0C04 e [] ∧ SameBut [.mailboxes, .col] (released s x) t) ∧
  (∀ s x h l, Decides s x (.dbgOpen h l) → needsAuth s l = false → inRetain s = false → Completes .commandDecision s
    (SameBut [] { released s x with
      sec := { s.sec with dbg := l, sessionEnd := none, sessions := min 0xFFFF (s.sec.sessions + 1) } })) ∧
  (∀ s x h l, Decides s x (.dbgOpen h l) → needsAuth s l = true → Completes .commandDecision s (SameBut [] (released s x))) ∧
  (∀ s x h r m n e, Decides s x (.dbgResponse h r m) → s.sec.nonce = some (n, e) → s.dev.keyLocked = false →
    r = Config.hmac n s.dev.serial m → Completes .commandDecision s fun t =>
      Replied s t x 0x0C06 .ok [] ∧ SameBut [.mailboxes, .col] { released s x with
        sec := { s.sec with dbg := 2, nonce := none, authFails := 0, sessions := min 0xFFFF (s.sec.sessions + 1),
                            sessionEnd := some (s.time.tick + m * 6000000000) } } t) ∧
  (∀ s x h r m n e, Decides s x (.dbgResponse h r m) → s.sec.nonce = some (n, e) →
    s.dev.keyLocked = true ∨ r ≠ Config.hmac n s.dev.serial m → s.sec.authFails < 2 → Completes .commandDecision s fun t =>
      Replied s t x 0x0C06 .auth [] ∧ SameBut [.mailboxes, .col, .faults] { released s x with
        sec := { s.sec with authFails := s.sec.authFails + 1, nonce := none } } t) ∧
  (∀ s x h r m n e, Decides s x (.dbgResponse h r m) → s.sec.nonce = some (n, e) →
    s.dev.keyLocked = true ∨ r ≠ Config.hmac n s.dev.serial m → 2 ≤ s.sec.authFails → Completes .commandDecision s fun t =>
      Replied s t x 0x0C06 .auth [] ∧ SameBut [.mailboxes, .col, .faults] { released s x with
        sec := { s.sec with authFails := 3, nonce := none, authLock := some (s.time.tick + 60000000000) } } t) ∧
  (∀ s x h, Decides s x (.dbgClose h) → Completes .commandDecision s
    (SameBut (if s.sec.halted then [.jnl] else []) { released s x with
      kpr := { s.kpr with ready := s.kpr.ready || s.sec.halted }, sec := { s.sec with dbg := 0, nonce := none, sessionEnd := none, halted := false } })) ∧
  (∀ s x h o n, Decides s x (.dbgTraceRead h o n) → s.sec.dbg ≠ 0 → Completes .commandDecision s fun t =>
    Replied s t x 0x0C08 .ok ((upFrom (2 * n) 0).flatMap fun i => le 4 (Config.traceWord (s.free + i)).toNat) ∧
    SameBut [.mailboxes, .col] { released s x with free := s.free + 2 * n } t) ∧
  (∀ s x h o n, Decides s x (.dbgTraceRead h o n) → s.sec.dbg = 0 → Completes .commandDecision s fun t =>
    Replied s t x 0x0C08 .denied [] ∧ SameBut [.mailboxes, .col] (released s x) t)

/-- Calibration and service commands at their decisions (R20, R368, R371, R373, R375, R379): a record to write or erase goes to
the keeper's work, or is answered E_BAD_STATE while the store is full; CAL_START takes the device into CALIBRATE with its set;
BGS_SET sets the rates; TELEM_READ answers its words.
Where the chapter leaves a point open, the clauses follow the model's readings, log 25, 26, 64. -/
def Obligations.ServiceDecisions : Prop :=
  (∀ s x h k i a p, Decides s x (.calWrite h k i a p) → s.svc.storeFull = false → Completes .commandDecision s
    (SameBut [] { released s x with works := (s.works.filter fun y => !laterPut x y) ++ x :: s.works.filter (laterPut x) })) ∧
  (∀ s x h k i a p, Decides s x (.calWrite h k i a p) → s.svc.storeFull = true → Completes .commandDecision s fun t =>
    Replied s t x 0x0D01 .badState [] ∧ SameBut [.mailboxes, .col] (released s x) t) ∧
  (∀ s x h k i a, Decides s x (.calErase h k i a) → s.svc.storeFull = false → Completes .commandDecision s
    (SameBut [] { released s x with works := (s.works.filter fun y => !laterPut x y) ++ x :: s.works.filter (laterPut x) })) ∧
  (∀ s x h k i a, Decides s x (.calErase h k i a) → s.svc.storeFull = true → Completes .commandDecision s fun t =>
    Replied s t x 0x0D02 .badState [] ∧ SameBut [.mailboxes, .col] (released s x) t) ∧
  (∀ s x h g e k n, Decides s x (.bgsSet h g e k n) → 4 * dflt 100000 n ≤ 5 * s.svc.maxErase → s.svc.wearWarn = false →
    Completes .commandDecision s (SameBut [.faults] { released s x with
    svc := { s.svc with groomRate := g, eyePeriod := e, skewPeriod := k, endurance := dflt 100000 n, wearWarn := true } })) ∧
  (∀ s x h g e k n, Decides s x (.bgsSet h g e k n) → 5 * s.svc.maxErase < 4 * dflt 100000 n ∨ s.svc.wearWarn = true →
    Completes .commandDecision s (SameBut [] { released s x with
    svc := { s.svc with groomRate := g, eyePeriod := e, skewPeriod := k, endurance := dflt 100000 n } })) ∧
  (∀ s x h f n, Decides s x (.telemRead h f n) → Completes .commandDecision s fun t =>
    Replied s t x 0x0D04 .ok ((upFrom n f).flatMap fun i =>
      le 2 (tget (0 : BitVec 16) s.svc.telem i).toNat ++ le 2 (telemAge s i)) ∧
    SameBut [.mailboxes, .col] (released s x) t) ∧
  (∀ s x h i c l a, Decides s x (.calStart h i c l a) → s.md.mode = .idle ∨ s.md.mode = .run →
    (c.all (ownsCell (reached s x) x.ctx) && (maskAux a).all fun k => owns (reached s x) x.ctx (auxAt (reached s x) k).own) = true → calBusy (reached s x) c = false →
    Completes .commandDecision s fun t =>
      t.md.mode = .calibrate ∧ t.md.prev = s.md.mode ∧ t.md.origin = s.md.mode ∧ t.md.since = 16 * x.dec ∧ t.md.power = 0 ∧
      t.md.calItems = i ∧ t.md.calCells = c ∧ t.md.calLanes = l ∧ t.md.calAux = a ∧ t.svc = { s.svc with running := true } ∧
      t.works = s.works ++ [x] ∧ (s.kpr.ready = true → bitOf i 0 = true → t.pace.vset = s.pace.ceiling) ∧
      t.md.calPace = (if bitOf i 0 then 64 else 0) ∧
      SameBut (if bitOf i 1 && s.col.role = 1 then [.col, .faults, .md, .svc, .works, .pace, .links, .jnl]
        else [.md, .svc, .works, .pace, .links, .jnl]) (reached s x) t) ∧
  (∀ s x h i c l a, Decides s x (.calStart h i c l a) → s.md.mode = .idle ∨ s.md.mode = .run →
    (c.all (ownsCell (reached s x) x.ctx) && (maskAux a).all fun k => owns (reached s x) x.ctx (auxAt (reached s x) k).own) = false → Completes .commandDecision s fun t =>
    Replied s t x 0x0D10 .denied [] ∧ SameBut [.mailboxes, .col] (reached s x) t) ∧
  (∀ s x h i c l a, Decides s x (.calStart h i c l a) → s.md.mode ≠ .idle → s.md.mode ≠ .run → Completes .commandDecision s fun t =>
    Replied s t x 0x0D10 .badMode [] ∧ SameBut [.mailboxes, .col] (reached s x) t) ∧
  (∀ s x h i c l a, Decides s x (.calStart h i c l a) → s.md.mode = .idle ∨ s.md.mode = .run →
    (c.all (ownsCell (reached s x) x.ctx) && (maskAux a).all fun k => owns (reached s x) x.ctx (auxAt (reached s x) k).own) = true → calBusy (reached s x) c = true →
    Completes .commandDecision s fun t => Replied s t x 0x0D10 .badState [] ∧ SameBut [.mailboxes, .col] (reached s x) t)

/-- Fault commands at their decisions (R376, R411, R412, R414, R415, R416, R423, R427, R429): FAULT_CLEAR clears the bits named
but those whose condition still stands, and answers the block's status and ESC_CFG; a bit held at class 3 is not cleared; the
masks, windows and restore bits are set as named; FAULT_INJECT does in FACTORY what its kind says.
Where the chapter leaves a point open, the clauses follow the model's readings, log 46. -/
def Obligations.FaultDecisions : Prop :=
  (∀ s x h b k m r, Decides s x (.faultClear h b m r) → blockOf b = some k → namesGrave (fltAt s k) m = false →
    Completes .commandDecision s fun t =>
      (fltAt t k).status = (fltAt s k).status &&& ~~~(m &&& ~~~standing s k) ∧
      (fltAt t k).valid = ((fltAt s k).valid && decide (r ≠ 1)) ∧ (fltAt t k).mask = (fltAt s k).mask ∧
      (fltAt t k).count = (fltAt s k).count ∧
      (holdsClass (fltAt t k) 2 = false → (fltAt t k).running = false ∧ (fltAt t k).reacted = false ∧ (fltAt t k).scope = [] ∧
        (k = .col → t.col.suspended = false)) ∧
      (holdsClass (fltAt t k) 2 = true → (fltAt t k).running = (fltAt s k).running ∧ t.col.suspended = s.col.suspended) ∧
      (∀ j, j ≠ k → fltAt t j = fltAt s j) ∧
      Replied s t x 0x0E00 .ok (res [(4, (fltAt t k).status.toNat), (4, escCfg k (fltAt t k))]) ∧
      SameBut [.faults, .mailboxes, .col] (released s x) t) ∧
  (∀ s x h b k m r, Decides s x (.faultClear h b m r) → blockOf b = some k → namesGrave (fltAt s k) m = true →
    Completes .commandDecision s fun t => Replied s t x 0x0E00 .badState [] ∧ SameBut [.mailboxes, .col] (released s x) t) ∧
  (∀ s x h b k m, Decides s x (.faultMaskSet h b m) → blockOf b = some k → Completes .commandDecision s fun t =>
    fltAt t k = { fltAt s k with mask := m } ∧ (∀ j, j ≠ k → fltAt t j = fltAt s j) ∧ SameBut [.faults] (released s x) t) ∧
  (∀ s x h b k w r, Decides s x (.faultEscSet h b w r) → blockOf b = some k → (fltAt s k).running = false →
    Completes .commandDecision s fun t =>
      fltAt t k = { fltAt s k with window := dflt 100000 w, reaction := some (decide (r = 1)) } ∧
      (∀ j, j ≠ k → fltAt t j = fltAt s j) ∧ SameBut [.faults] (released s x) t) ∧
  (∀ s x h b k w r, Decides s x (.faultEscSet h b w r) → blockOf b = some k → (fltAt s k).running = true →
    Completes .commandDecision s (SameBut [] (released s x))) ∧
  (∀ s x h m, Decides s x (.restoreClear h m) → Completes .commandDecision s
    (SameBut [] { released s x with grave := { s.grave with restore := s.grave.restore &&& ~~~m } })) ∧
  (∀ s x h k b bit c o n, Decides s x (.faultInject h k b bit c o n) → s.md.mode ≠ .factory → Completes .commandDecision s
    (SameBut [] (released s x))) ∧
  (∀ s x h b k bit c o n, Decides s x (.faultInject h 0 b bit c o n) → s.md.mode = .factory → blockOf b = some k → c < 3 → bit < 32 →
    ((fltAt s k).mask.getLsbD bit = false ∨ c = 2) → Completes .commandDecision s fun t =>
      (fltAt t k).status.getLsbD bit = true ∧ c ≤ fltClass (fltAt t k) bit ∧
      (fltAt t k).count = min 0xFFFFFFFF ((fltAt s k).count + 1) ∧ (c = 2 → (fltAt t k).running = true) ∧
      (∀ j, j ≠ k → fltAt t j = fltAt s j) ∧ SameBut [.faults] (released s x) t) ∧
  (∀ s x h b k bit o n, Decides s x (.faultInject h 0 b bit 3 o n) → s.md.mode = .factory → blockOf b = some k → bit < 32 →
    s.grave.held = false → Completes .commandDecision s fun t =>
      t.grave.held = true ∧ t.grave.block = b ∧ t.grave.time = 16 * s.time.tick ∧
      t.grave.due = s.grave.due ++ [(s.time.tick + 1, true, 1)] ∧ (fltAt t k).status.getLsbD bit = true ∧
      3 ≤ fltClass (fltAt t k) bit ∧ (∀ j, j ≠ k → fltAt t j = fltAt s j) ∧ SameBut [.faults, .grave] (released s x) t) ∧
  (∀ s x h b bit c o n, Decides s x (.faultInject h 1 b bit c o n) → s.md.mode = .factory → Completes .commandDecision s
    (SameBut [] { released s x with grave := { s.grave with injComb := tset 0 s.grave.injComb (o / 8) n } })) ∧
  (∀ s x h b bit c o n, Decides s x (.faultInject h 2 b bit c o n) → s.md.mode = .factory → Completes .commandDecision s
    (SameBut [] { released s x with grave := { s.grave with injDram := tset 0 s.grave.injDram (o / 64) n } })) ∧
  (∀ s x h b bit c o n, Decides s x (.faultInject h 3 b bit c o n) → s.md.mode = .factory → Completes .commandDecision s fun t =>
    (o - 0x1400) / 64 ∈ t.grave.parityBad ∧ (∀ j, j ∈ s.grave.parityBad → j ∈ t.grave.parityBad) ∧ SameBut [.grave] (released s x) t) ∧
  (∀ s x h b bit c o n, Decides s x (.faultInject h 4 b bit c o n) → s.md.mode = .factory → Completes .commandDecision s fun t =>
    cellAt t o = { cellAt s o with lateInject := n } ∧ (∀ k, k ≠ o → cellAt t k = cellAt s k) ∧ SameBut [.cells] (released s x) t)

/-- The journal's commands at their decisions (R291, R430, R434, R438, R444): JNL_CONFIG places the ring, makes its regions
SYSTEM and starts recording with a checkpoint; JNL_STOP ends recording and keeps the ring's entries; JNL_CKPT takes a checkpoint;
an export or import that the state allows begins, any other is answered.
Where the chapter leaves a point open, the clauses follow the model's readings, log 13, 65. -/
def Obligations.JournalDecisions : Prop :=
  (∀ s x h b n m p r g, Decides s x (.jnlConfig h b n m p r g) → s.jnl.st = 0 → spanReady s b n = true →
    s.md.mode = .bringUp ∨ s.md.mode = .idle → Completes .commandDecision s fun t =>
      t.jnl.st = 1 ∧ t.jnl.base = b ∧ t.jnl.size = n ∧ t.jnl.stop = decide (m = 1) ∧ t.jnl.period = p ∧ t.jnl.rxMask = r ∧
      t.jnl.sigEn = decide (g = 1) ∧ t.jnl.ckptNo = 1 ∧
      (jBytes (.ckpt 0) + ((activeAreas s).map fun a => jBytes (digestOf s s.time.tick a)).sum ≤ n →
        ∃ c, t.jnl.ckpts = [c] ∧ c.1 = 0 ∧ c.2.2.tick = s.time.tick) ∧
      (∀ a, a ∈ t.dramSystem ↔ a ∈ s.dramSystem ∨ a ∈ dramRegions b n) ∧
      SameBut [.jnl] { released s x with dramSystem := t.dramSystem } t) ∧
  (∀ s x h b n m p r g, Decides s x (.jnlConfig h b n m p r g) → s.jnl.st ≠ 0 → Completes .commandDecision s
    (SameBut [] (released s x))) ∧
  (∀ s x h, Decides s x (.jnlStop h) → Completes .commandDecision s
    (SameBut [] { released s x with jnl := { s.jnl with st := 0 } })) ∧
  (∀ s x h, Decides s x (.jnlCkpt h) → s.jnl.st = 1 → Completes .commandDecision s fun t =>
    t.jnl.ckptNo = s.jnl.ckptNo + 1 ∧ t.jnl.st = 1 ∧
    (2 * (jBytes (.ckpt s.jnl.ckptNo) + ((activeAreas s).map fun a => jBytes (digestOf s s.time.tick a)).sum) ≤ s.jnl.size →
      ∃ o n, (o, s.jnl.ckptNo, n) ∈ t.jnl.ckpts ∧ n.tick = s.time.tick) ∧
    Replied s t x 0x0F02 .ok [] ∧ SameBut [.jnl, .mailboxes, .col] (released s x) t) ∧
  (∀ s x h, Decides s x (.jnlCkpt h) → s.jnl.st ≠ 1 → Completes .commandDecision s fun t =>
    Replied s t x 0x0F02 .badState [] ∧ SameBut [.mailboxes, .col] (released s x) t) ∧
  (∀ s x h f l d, Decides s x (.jnlExport h f l d) → exportErr s x.ctx f l d = none → Completes .commandDecision s
    (SameBut [] { released s x with works := s.works ++ [x] })) ∧
  (∀ s x h f l d e, Decides s x (.jnlExport h f l d) → exportErr s x.ctx f l d = some e → Completes .commandDecision s fun t =>
    Replied s t x 0x0F03 e [] ∧ SameBut [.mailboxes, .col] (released s x) t) ∧
  (∀ s x h d, Decides s x (.jnlImport h d) → s.jnl.st = 0 → s.jnl.size ≠ 0 → s.md.mode = .idle → Completes .commandDecision s
    (SameBut [] { released s x with works := s.works ++ [x] })) ∧
  (∀ s x h d, Decides s x (.jnlImport h d) → s.jnl.st ≠ 0 ∨ s.jnl.size = 0 → Completes .commandDecision s fun t =>
    Replied s t x 0x0F04 .badState [] ∧ SameBut [.mailboxes, .col] (released s x) t)

/-- Supplies and RESET_N (R19, R137, R237, R382, R395, R398, R426, R448): power-on sets everything to its power-on value with the
factory's spare maps, RESET_N low; power-off leaves OTP and flash; RESET_N low keeps the comb, its spares, the counts since
power-on and the authentication lock; its release samples the straps and starts device time at 0.
Where the chapter leaves a point open, the clauses follow the model's readings, log 3, 72. -/
def Obligations.PowerEvents : Prop :=
  (∀ s, s.dev.powered = false → Completes .powerOn s fun t =>
    alive t = false ∧ t.dev = { s.dev with powered := true, resetN := false, fresh := true, remapsDue := true, refclkSel := false,
                                           colRole := 0 } ∧
    (∀ h, hiveAt t h = { ({} : Hive) with
      sparesPlay := factorySpares s (2 * h), sparesCatch := factorySpares s (2 * h + 1) }) ∧
    t.sec.dbg = (if lcOpen s then 2 else 0) ∧ (s.dev.fusesOk = true → t.faults = []) ∧ t.pending = s.pending ∧
    SameBut [.dev, .hives, .sec, .faults, .auxClrN, .free] State.reset t) ∧
  (∀ s, s.dev.powered = true → Completes .powerOff s fun t =>
    alive t = false ∧ t.dev = { s.dev with powered := false, resetN := false, fresh := true, remapsDue := true, refclkSel := false,
                                           colRole := 0 } ∧ t.pending = s.pending ∧
    SameBut [.dev, .sec, .auxClrN, .free] State.reset t) ∧
  (∀ s, s.dev.powered = true → s.dev.resetN = true → Completes .resetNAssert s fun t =>
    alive t = false ∧ t.dev.otp = s.dev.otp ∧ t.dev.store = s.dev.store ∧ t.comb = s.comb ∧ t.combUe = s.combUe ∧
    t.combCe = s.combCe ∧ t.kpr.restarts = s.kpr.restarts ∧ t.sec.authFails = s.sec.authFails ∧
    t.sec.sessions = s.sec.sessions ∧ (t.sec.authLock.isSome = s.sec.authLock.isSome) ∧ t.sec.nonce = none ∧
    t.sec.sessionEnd = none ∧ t.grave.restore = s.grave.restore ∧ t.grave.held = false ∧ t.auxClrN = s.auxClrN ∧
    t.inner = { s.inner with lines := [], scratch := { s.inner.scratch with ue := [], ce := [] } } ∧
    t.free = s.free ∧ t.pending = s.pending ∧
    SameBut [.dev, .comb, .inner, .combMarks, .hives, .kpr, .sec, .grave, .auxClrN, .free] State.reset t) ∧
  (∀ s h, Canon s → s.dev.powered = true → s.dev.resetN = true → Completes .resetNAssert s fun t =>
    (hiveAt t h).sparesPlay = (hiveAt s h).sparesPlay ∧ (hiveAt t h).sparesCatch = (hiveAt s h).sparesCatch ∧
    (hiveAt t h).bad = (hiveAt s h).bad ∧ (hiveAt t h).groomPasses = (hiveAt s h).groomPasses ∧
    ((hiveAt s h).power = 0 → (hiveAt t h).playReady = (hiveAt s h).playReady)) ∧
  (∀ s f r1 r0, s.dev.powered = true → s.dev.resetN = false → s.dev.fresh = true → (r1 && r0) = false →
    Completes (.resetNRelease f r1 r0) s fun t => t.pending = s.pending ∧ SameBut [] { s with
      dev := { s.dev with resetN := true, fresh := false, refclkSel := f, colRole := b2n r0 + 2 * b2n r1 },
      col := { s.col with role := if r1 then 2 else if r0 then 1 else 0 }, time := { s.time with tick := 0 } } t) ∧
  (∀ s f r1 r0, s.dev.powered = true → s.dev.resetN = false → s.dev.fresh = false → (r1 && r0) = false →
    Completes (.resetNRelease f r1 r0) s fun t =>
      t.grave.restoreCause = 2 ∧ t.grave.restoreTick = 0 ∧ t.grave.held = s.grave.held ∧
      (∀ c, t.grave.restore.getLsbD c = (s.grave.restore.getLsbD c || (decide (c < 27) && decide (c ≠ 15) && decide (c ≠ 16)))) ∧
      SameBut [.grave] { s with
        dev := { s.dev with resetN := true, fresh := false, refclkSel := f, colRole := b2n r0 + 2 * b2n r1 },
        col := { s.col with role := if r1 then 2 else if r0 then 1 else 0 }, time := { s.time with tick := 0 } } t) ∧
  (∀ s f, s.dev.powered = true → s.dev.resetN = false → (fltAt s .col).mask.getLsbD 10 = false → twf {} s.faults = true →
    Completes (.resetNRelease f true true) s fun t =>
      alive t = true ∧ t.col.role = 0 ∧ (fltAt t .col).status.getLsbD 10 = true ∧
      SameBut [.dev, .col, .time, .grave, .faults] s t)

/-- Bring-up (R137, R317, R346, R365, R367, R449, R450, R452): a cleared bank is ready; the flash comes up; the keeper starts
from the image chosen, or in RECOVERY, with VDD_CORE at its ceiling; the calibration values come into force; the PCIe link comes up.
Where the chapter leaves a point open, the clauses follow the model's readings, log 25, 27. -/
def Obligations.BringUpEvents : Prop :=
  (∀ s h, Live s → h < nHives s → (hiveAt s h).power = 2 → (hiveAt s h).playReady = false → Completes (.combBankCleared h false) s fun t =>
    (hiveAt t h).playReady = true ∧ (hiveAt t h).catchReady = (hiveAt s h).catchReady ∧
    (hiveAt t h).power = (if (hiveAt s h).catchReady then 0 else 2) ∧ (∀ k, k ≠ h → hiveAt t k = hiveAt s k) ∧
    SameBut [.hives, .faults] s t) ∧
  (∀ s h, Live s → h < nHives s → (hiveAt s h).power = 2 → (hiveAt s h).catchReady = false → Completes (.combBankCleared h true) s fun t =>
    (hiveAt t h).catchReady = true ∧ (hiveAt t h).playReady = (hiveAt s h).playReady ∧
    (hiveAt t h).power = (if (hiveAt s h).playReady then 0 else 2) ∧ (∀ k, k ≠ h → hiveAt t k = hiveAt s k) ∧
    SameBut [.hives, .faults] s t) ∧
  (∀ s, Live s → Completes .flashReady s (SameBut [] { s with kpr := { s.kpr with flash := true } })) ∧
  (∀ s i v, Live s → s.kpr.ready = false → s.kpr.st ≤ 1 → bootImage s = some (i, v) → Completes .keeperStart s fun t =>
    t.kpr = { s.kpr with ready := true, st := 2, activeImg := i, fallback := decide (i ≠ s.dev.prefImg), version := v.version,
                         svn := v.svn, restartImg := 0, epoch := t.kpr.epoch, readyEpoch := t.kpr.readyEpoch } ∧
    t.pace = { s.pace with vset := s.pace.ceiling, stepPending := true, stepTick := s.time.tick } ∧ t.dev.remapsDue = false ∧
    (i ≠ s.dev.prefImg → (fltAt s .kpr).mask.getLsbD 1 = false → (fltAt t .kpr).status.getLsbD 1 = true) ∧
    t.inner = { s.inner with scratch := { s.inner.scratch with ue := [], ce := [] } } ∧
    SameBut [.kpr, .pace, .dev, .hives, .faults, .inner] s t) ∧
  (∀ s, Live s → s.kpr.ready = false → s.kpr.st ≤ 1 → bootImage s = none → Completes .keeperStart s fun t =>
    t.kpr.ready = true ∧ t.kpr.st = 4 ∧ t.kpr.version = 0 ∧ t.pace.vset = s.pace.ceiling ∧
    ((fltAt s .kpr).mask.getLsbD 2 = false → (fltAt t .kpr).status.getLsbD 2 = true) ∧
    t.inner = { s.inner with scratch := { s.inner.scratch with ue := [], ce := [] } } ∧
    SameBut [.kpr, .pace, .dev, .hives, .faults, .inner] s t) ∧
  (∀ s, Live s → s.kpr.ready = true → s.kpr.cal = false → s.kpr.flash = true → Completes .calLoadDone s fun t =>
    t.kpr.cal = true ∧ t.kpr.aux = true ∧ t.svc.storeOk = true ∧ t.svc.otpOk = (s.dev.otp.all fun r => calValid false r) ∧
    t.svc.slotCal = slotTable s ∧ (∀ a, a < 64 → (auxAt t a).gA = (calGO s 2 a).1 ∧ (auxAt t a).oA = (calGO s 2 a).2) ∧
    SameBut [.kpr, .svc, .auxs, .faults] s t) ∧
  (∀ s, Live s → s.kpr.ready = true → s.kpr.cal = false → s.kpr.flash = false → Completes .calLoadDone s fun t =>
    t.kpr.cal = true ∧ t.kpr.aux = s.kpr.aux ∧ t.svc.storeOk = false ∧
    (∀ a, a < 64 → auxAt t a = { auxAt s a with
      gA := (match factoryRec s 2 a with
        | some r => calG r.payload
        | none => 0x10000000),
      oA := (match factoryRec s 2 a with
        | some r => calO r.payload
        | none => 0) }) ∧ SameBut [.kpr, .svc, .auxs, .faults] s t) ∧
  (∀ s, Live s → Completes .pcieLinkUp s (SameBut [] { s with kpr := { s.kpr with pcieUp := true } }))

/-- A frame posted (R327, R328, R330, R332, R333, R347): a mailbox that takes none shows REFUSED and nothing else changes; a frame with
a bad CRC is answered E_BAD_CRC; the first frame of several waits for the rest; a whole frame that no rule rejects is accepted as the
command it spells, on its own or with its continuation frame, a unit whose shadow it finds stale made known first (R344); 10 ms without the next frame end a command;
ACK of the last frame of a reply frees the reply slot, of an earlier one shows the next.
Where the chapter leaves a point open, the clauses follow the model's readings, log 28, 29. -/
def Obligations.PostedFrames : Prop :=
  (∀ s c m, Live s → c < 16 → m < 4 → refusesPost s c m = true → Completes (.post c m) s fun t =>
    mbAt t c m = { mbAt s c m with refused := true } ∧ (∀ d n, 4 * d + n ≠ 4 * c + m → mbAt t d n = mbAt s d n) ∧
    SameBut [.mailboxes] s t) ∧
  (∀ s c m f, Live s → c < 16 → m < 4 → refusesPost s c m = false → (mbAt s c m).asm = none →
    f = parseFrame (fit 64 (mbAt s c m).cmd) → f.crcOk = false → Completes (.post c m) s fun t =>
      Rejected s t c m f.opcode f.seq .badCrc [] ∧ (mbAt t c m).lastSeq = (mbAt s c m).lastSeq ∧
      (mbAt t c m).seqFree = (mbAt s c m).seqFree ∧ (mbAt t c m).refused = false ∧ SameBut [.mailboxes, .col, .faults] s t) ∧
  (∀ s c m f n, Live s → c < 16 → m < 4 → refusesPost s c m = false → (mbAt s c m).asm = none →
    f = parseFrame (fit 64 (mbAt s c m).cmd) → f.crcOk = true → f.reservedOk = true → f.cont = false → f.ctx = c → f.mb = m →
    seqErr s c m f.seq = none → f.opcode ≠ 0 → (formOf f.opcode f.args).map (framesNeeded f.opcode · f.args) = some n →
    f.frames = n → n ≠ 0 → Completes (.post c m) s fun t =>
      mbAt t c m = { mbAt s c m with
        refused := false, multi := true, asm := some ⟨fit 64 (mbAt s c m).cmd, [], 0, s.time.tick⟩ } ∧
      (∀ d k, 4 * d + k ≠ 4 * c + m → mbAt t d k = mbAt s d k) ∧ SameBut [.mailboxes] s t) ∧
  (∀ s c m f i h p u, Live s → c < 16 → m < 4 → refusesPost s c m = false → (mbAt s c m).asm = none →
    f = parseFrame (fit 64 (mbAt s c m).cmd) → f.crcOk = true → f.reservedOk = true → f.cont = false → f.ctx = c → f.mb = m →
    seqErr s c m f.seq = none → f.frames = 0 →
    (f.opcode = 0 ∨ (formOf f.opcode f.args).map (framesNeeded f.opcode · f.args) = some 0) →
    readCommand f (Config.shadowStale s.free) [] = some (i, false) →
    u = { (modMb s c m fun y => { y with refused := false }) with free := s.free + 1 } → specOf i u = some (h, p) →
    h = hdrOf f (Config.shadowStale s.free) → judgeErr u h p = none →
    Completes (.post c m) s (SameBut [] (accept (findStale h p u) h i p))) ∧
  (∀ s c m a f g i h p u, Live s → c < 16 → m < 4 → refusesPost s c m = false → (mbAt s c m).asm = some a →
    f = parseFrame a.first → g = parseFrame (fit 64 (mbAt s c m).cmd) → g.crcOk = true → f.opcode ≠ 0x0B02 →
    continues f g a.got = true → f.frames = a.got + 1 → readCommand f (Config.shadowStale s.free) (a.data ++ g.data) = some (i, false) →
    u = { (modMb (modMb s c m fun y => { y with refused := false }) c m fun y => { y with asm := none, multi := false }) with free := s.free + 1 } →
    specOf i u = some (h, p) → h = hdrOf f (Config.shadowStale s.free) → f.ctx = c → f.mb = m → seqErr s c m f.seq = none →
    judgeErr u h p = none → Completes (.post c m) s (SameBut [] (accept (findStale h p u) h i p))) ∧
  (∀ f b d i z h p s, readCommand f b d = some (i, z) → specOf i s = some (h, p) → h = hdrOf f b) ∧
  (∀ s c m a, Live s → c < 16 → m < 4 → s.kpr.ready = true → (mbAt s c m).asm = some a → a.tick + 1000000 ≤ s.time.tick →
    Completes (.frameTimeout c m) s fun t =>
      Rejected s t c m (parseFrame a.first).opcode (parseFrame a.first).seq .badFrame [] ∧ (mbAt t c m).asm = none ∧
      (mbAt t c m).lastSeq = (mbAt s c m).lastSeq ∧ SameBut [.mailboxes, .col, .faults] s t) ∧
  (∀ s c m r, Live s → c < 16 → m < 4 → (mbAt s c m).reply = some r → (mbAt s c m).replyValid = true →
    replyFrames r ≤ (mbAt s c m).shown + 1 → Completes (.ack c m) s fun t =>
      mbAt t c m = { mbAt s c m with replyValid := false, pending := false, diverged := false } ∧
      (∀ d n, 4 * d + n ≠ 4 * c + m → mbAt t d n = mbAt s d n) ∧ SameBut [.mailboxes] s t) ∧
  (∀ s c m r, Live s → c < 16 → m < 4 → (mbAt s c m).reply = some r → (mbAt s c m).replyValid = true → s.kpr.ready = true →
    (mbAt s c m).shown + 1 < replyFrames r → Completes (.ack c m) s fun t =>
      mbAt t c m = { mbAt s c m with
        shown := (mbAt s c m).shown + 1, pending := decide ((mbAt s c m).shown + 2 < replyFrames r) } ∧
      (ctxAt t c).irqStatus.getLsbD m = true ∧ (∀ d n, 4 * d + n ≠ 4 * c + m → mbAt t d n = mbAt s d n) ∧
      SameBut [.mailboxes] s t)

/-- Registers, window and atomics of PCIe (R9, R11, R128, R318, R320, R321, R322, R338): bytes written to a command frame stand in it;
MB_CTRL posts, acknowledges and resets; the interrupt mask and the MSI-X table are written; CTX_IRQ_STATUS clears when read; the
window of BAR2 is not written; a PCIe atomic accesses nothing.
Where the chapter leaves a point open, the clauses follow the model's readings, log 5, 30. -/
def Obligations.RegisterEvents : Prop :=
  (∀ s k m o d, Live s → k < 16 → m < 4 → o + d.length ≤ 64 → (mbAt s k m).busy = false →
    Completes (.registerWrite (0x1000 * k + 0x100 * m + o) d) s fun t =>
      (∀ i, i < 64 → (fit 64 (mbAt t k m).cmd).getD i 0 =
        if o ≤ i ∧ i < o + d.length then d.getD (i - o) 0 else (fit 64 (mbAt s k m).cmd).getD i 0) ∧
      mbAt t k m = { mbAt s k m with cmd := (mbAt t k m).cmd } ∧
      (∀ e n, 4 * e + n ≠ 4 * k + m → mbAt t e n = mbAt s e n) ∧ SameBut [.mailboxes] s t) ∧
  (∀ s k m, Live s → k < 16 → m < 4 → Completes (.registerWrite (0x1000 * k + 0x100 * m + 0x80) [1, 0, 0, 0]) s
    (SameBut [] (post k m s))) ∧
  (∀ s k m, Live s → k < 16 → m < 4 → Completes (.registerWrite (0x1000 * k + 0x100 * m + 0x80) [2, 0, 0, 0]) s
    (SameBut [] (ack k m s))) ∧
  (∀ s k m, Live s → k < 16 → m < 4 → Completes (.registerWrite (0x1000 * k + 0x100 * m + 0x80) [4, 0, 0, 0]) s
    (SameBut [] (mbReset k m s))) ∧
  (∀ s k b, Live s → k < 16 → Completes (.registerWrite (0x1000 * k + 0x404) [b]) s fun t =>
    (ctxAt t k).irqMask = BitVec.ofNat 32 b.toNat ∧ ctxEnabled t k = ctxEnabled s k ∧
    (∀ j, j ≠ k → (ctxAt t j).irqMask = (ctxAt s j).irqMask) ∧ SameBut [.contexts] s t) ∧
  (∀ s v o b, Live s → v < 64 → o < 12 → Completes (.registerWrite (0x20000 + 16 * v + o) [b]) s fun t =>
    memByte t.msixTable (16 * v + o) = b ∧ (∀ a, a ≠ 16 * v + o → memByte t.msixTable a = memByte s.msixTable a) ∧
    SameBut [.msixTable] s t) ∧
  (∀ s v, Live s → v < 64 → Completes (.registerWrite (0x20000 + 16 * v + 12) [0]) s fun t =>
    v ∈ t.msixOpen ∧ (v ∈ s.msixPba → s.msixPba.Nodup → v ∉ t.msixPba ∧ t.msix = s.msix ++ [v]) ∧ SameBut [.contexts] s t) ∧
  (∀ s v, Live s → v < 64 → s.msixOpen.Nodup → Completes (.registerWrite (0x20000 + 16 * v + 12) [1]) s fun t =>
    v ∉ t.msixOpen ∧ SameBut [.contexts] s t) ∧
  (∀ s o d, Live s → 0x10000 ≤ o → o < 0x20000 ∨ 0x20400 ≤ o → Completes (.registerWrite o d) s (SameBut [] s)) ∧
  (∀ s k, Live s → k < 16 → Completes (.ctxIrqStatusRead k) s fun t =>
    t.bus = le 4 (ctxAt s k).irqStatus.toNat ∧ (ctxAt t k).irqStatus = 0 ∧
    (∀ j, j ≠ k → ctxAt t j = ctxAt s j) ∧ SameBut [.bus] s t) ∧
  (∀ s o d, Live s → (fltAt s .kpr).mask.getLsbD 8 = false → Completes (.windowWrite o d) s fun t =>
    (fltAt t .kpr).status.getLsbD 8 = true ∧ SameBut [.faults] s t) ∧
  (∀ s o, Live s → Completes (.pcieAtomicOp o) s (SameBut [] s))

/-- The bulk aperture and SPI (R132, R292, R323, R324, R325, R385): an access goes to its window's base plus the offset as its window's
context, or nowhere; in the comb a permitted write stores its bytes and a read returns them; an SPI write of another instruction, or
over a block's end, is discarded with a flag; SPI reads return what they name.
Where the chapter leaves a point open, the clauses follow the model's readings, log 31. -/
def Obligations.ApertureEvents : Prop :=
  (∀ s o d, Live s → o + d.length ≤ 2 ^ 32 → bulkTarget s (o / 0x10000000) (o % 0x10000000) = none →
    Completes (.bulkApertureWrite o d) s (SameBut [] s)) ∧
  (∀ s o n, Live s → o + n ≤ 2 ^ 32 → bulkTarget s (o / 0x10000000) (o % 0x10000000) = none →
    Completes (.bulkApertureRead o n) s (SameBut [] { s with bus := List.replicate n 0 })) ∧
  (∀ s o d ca, Live s → o + d.length ≤ 2 ^ 32 → bulkTarget s (o / 0x10000000) (o % 0x10000000) = some (2 ^ 40 + ca) →
    combPresent s ca d.length = true → combOwned s (o / 0x10000000) ca d.length = true → combReadyAt s ca d.length = true →
    firstHeldGranule s ca d.length = none → rmwUe s ca d.length = none → Completes (.bulkApertureWrite o d) s fun t =>
      (∀ i (hi : i < d.length), memByte t.comb (ca + i) = d[i]) ∧
      (∀ a, a < ca ∨ ca + d.length ≤ a → memByte t.comb a = memByte s.comb a) ∧ SameBut [.comb, .combMarks, .grave, .hives, .faults] s t) ∧
  (∀ s o d ca, Live s → o + d.length ≤ 2 ^ 32 → bulkTarget s (o / 0x10000000) (o % 0x10000000) = some (2 ^ 40 + ca) →
    combPresent s ca d.length = false ∨ combOwned s (o / 0x10000000) ca d.length = false →
    Completes (.bulkApertureWrite o d) s (SameBut [.faults] s)) ∧
  (∀ s o n ca, Live s → o + n ≤ 2 ^ 32 → bulkTarget s (o / 0x10000000) (o % 0x10000000) = some (2 ^ 40 + ca) →
    combPresent s ca n = true → combOwned s (o / 0x10000000) ca n = true → combReadyAt s ca n = true → spanUe s ca n = false →
    spanActive s ca n = false → Completes (.bulkApertureRead o n) s fun t =>
      t.bus = memRead s.comb ca n ∧ SameBut [.bus, .combMarks, .hives, .faults] s t) ∧
  (∀ s o n ca, Live s → o + n ≤ 2 ^ 32 → bulkTarget s (o / 0x10000000) (o % 0x10000000) = some (2 ^ 40 + ca) →
    combPresent s ca n = true → combOwned s (o / 0x10000000) ca n = true → combReadyAt s ca n = true →
    Completes (.bulkApertureRead o n) s fun t =>
      t.bus = (if spanUe s ca n = true ∨ (busyWords (wordsOf ca n) s).2.isSome = true then List.replicate n 0
        else memRead s.comb ca n) ∧ SameBut [.bus, .combMarks, .hives, .faults, .free] s t) ∧
  (∀ s o n ca, Live s → o + n ≤ 2 ^ 32 → bulkTarget s (o / 0x10000000) (o % 0x10000000) = some (2 ^ 40 + ca) →
    combPresent s ca n = false ∨ combOwned s (o / 0x10000000) ca n = false → Completes (.bulkApertureRead o n) s fun t =>
      t.bus = List.replicate n 0 ∧ SameBut [.bus, .faults] s t) ∧
  (∀ s o d a, Live s → o + d.length ≤ 2 ^ 32 → bulkTarget s (o / 0x10000000) (o % 0x10000000) = some a → a < 2 ^ 40 →
    Completes (.bulkApertureWrite o d) s (SameBut [] (ctxDramWrite (o / 0x10000000) 9 a d s))) ∧
  (∀ s o n a, Live s → o + n ≤ 2 ^ 32 → bulkTarget s (o / 0x10000000) (o % 0x10000000) = some a → a < 2 ^ 40 →
    spanPresent s a n = true → dramOwned s (o / 0x10000000) a n = true → spanReady s a n = true → 0 < n →
    s.md.mode ≠ .standby → waitingCmds s = [] → waitingBulk s = [] → roomFor s (entryPieces a n) = true →
    Completes (.bulkApertureRead o n) s fun t =>
      t.bus = [] ∧ t.bulk = { next := s.bulk.next + 1, ops := s.bulk.ops ++ [⟨s.bulk.next, true, 9, a, n, []⟩] } ∧
      entryQueued t 9 s.bulk.next = true ∧ SameBut [.bus, .bulk, .dmcs] s t) ∧
  (∀ s o d a, Live s → o + d.length ≤ 2 ^ 32 → bulkTarget s (o / 0x10000000) (o % 0x10000000) = some a → a < 2 ^ 40 →
    spanPresent s a d.length = true → dramOwned s (o / 0x10000000) a d.length = true → spanReady s a d.length = true →
    0 < d.length → s.md.mode ≠ .standby → waitingCmds s = [] → waitingBulk s = [] →
    roomFor s (entryPieces a d.length) = true → Completes (.bulkApertureWrite o d) s fun t =>
      t.bulk = { next := s.bulk.next + 1, ops := s.bulk.ops ++ [⟨s.bulk.next, false, 9, a, d.length, d⟩] } ∧
      entryQueued t 9 s.bulk.next = true ∧ SameBut [.bulk, .dmcs] s t) ∧
  (∀ s i a d, Live s → i ≠ 2 ∨ 0x10000 ≤ a ∨ spiFits (a % 0x1000) d.length = false → (fltAt s .kpr).mask.getLsbD 7 = false →
    Completes (.spiWrite i a d) s fun t =>
      (fltAt t .kpr).status.getLsbD 7 = true ∧ SameBut [.faults] { s with kpr := { s.kpr with spiSeen := true } } t) ∧
  (∀ s a d, Live s → a < 0x10000 → spiFits (a % 0x1000) d.length = true → spiReaches s (a / 0x1000) = false →
    Completes (.spiWrite 2 a d) s (SameBut [] { s with kpr := { s.kpr with spiSeen := true } })) ∧
  (∀ s k m o d, Live s → k < 16 → m < 4 → o + d.length ≤ 64 → 0 < d.length → spiReaches s k = true → (mbAt s k m).busy = false →
    Completes (.spiWrite 2 (0x1000 * k + 0x100 * m + o) d) s fun t =>
      (∀ i, i < 64 → (fit 64 (mbAt t k m).cmd).getD i 0 =
        if o ≤ i ∧ i < o + d.length then d.getD (i - o) 0 else (fit 64 (mbAt s k m).cmd).getD i 0) ∧
      (∀ e n, 4 * e + n ≠ 4 * k + m → mbAt t e n = mbAt s e n) ∧
      SameBut [.mailboxes] { s with kpr := { s.kpr with spiSeen := true } } t) ∧
  (∀ s a n, Live s → Completes (.spiRead a n) s fun t =>
    t.bus = (upFrom n a).map (spiByte s) ∧ t.kpr.spiSeen = true ∧
    (∀ k, k < 16 → a ≤ 0x1000 * k + 0x400 → 0x1000 * k + 0x400 < a + n → spiReaches s k = true → (ctxAt t k).irqStatus = 0) ∧
    SameBut [.bus] { s with kpr := { s.kpr with spiSeen := true } } t) ∧
  (∀ s, Live s → Completes .spiIrqRead s
    (SameBut [] { s with bus := le 2 (irqPending s), kpr := { s.kpr with spiSeen := true } })) ∧
  (∀ s, Live s → Completes .spiId s
    (SameBut [] { s with bus := le 4 (deviceCaps s) ++ le 4 (modeState s), kpr := { s.kpr with spiSeen := true } }))

/-- Edges of pins and swarm lines (R36, R46, R204, R207, R216, R250, R251, R252, R283, R392): an edge of an input pin is stamped with
its tick and becomes an event; in STANDBY it may ask for a wake; a swarm edge is stamped one tick after its compensated time's,
used at once by a manager or a device alone, held by a worker; a pulse ends at its idle level; a swarm drive is launched and released
at its instants.
Where the chapter leaves a point open, the clauses follow the model's readings, log 59. -/
def Obligations.PinEvents : Prop :=
  (∀ s p l, Live s → p < 32 → s.time.ready = true → pinLevelAt s p s.time.tick ≠ l → (pinAt s p).output = false →
    ((pinAt s p).hist.head?.any fun q => decide (s.time.tick ≤ q.1)) = false → s.md.mode ≠ .replay → s.md.mode ≠ .standby → Completes (.evpEdge p l) s fun t =>
      pinLevelAt t p s.time.tick = l ∧ pinAt t p = { pinAt s p with hist := (pinAt t p).hist } ∧
      (∀ q, q ≠ p → pinAt t q = pinAt s q) ∧
      (wagCarries s = true → t.hops = s.hops ++
        [⟨s.time.tick + 2, ⟨s.time.tick, 0, l, 0, 0x4000 + p, false⟩, .producer, false⟩]) ∧
      (wagCarries s = false → t.hops = s.hops) ∧
      (l = false → (fltAt s .lnk).mask.getLsbD 6 = false → ∀ i, i < 16 → (linkAt s i).statusPin = p → (linkAt s i).st = .data →
        (fltAt t .lnk).status.getLsbD 6 = true) ∧
      SameBut [.pins, .hops, .jnl, .faults] s t) ∧
  (∀ s p l, Live s → p < 32 → s.time.ready = true → pinLevelAt s p s.time.tick ≠ l → (pinAt s p).output = false →
    ((pinAt s p).hist.head?.any fun q => decide (s.time.tick ≤ q.1)) = false →
    s.md.mode = .standby → s.sec.waking = false → Completes (.evpEdge p l) s fun t =>
      pinLevelAt t p s.time.tick = l ∧ t.sec.wakeAt =
        (if s.sec.wakeEvp.getLsbD p = true ∧ (s.time.tick + horizonAt s s.time.tick, 3, p) ∉ s.sec.wakeAt
          then s.sec.wakeAt ++ [(s.time.tick + horizonAt s s.time.tick, 3, p)] else s.sec.wakeAt) ∧
      t.hops = s.hops ∧ SameBut [.pins, .sec, .faults] s t) ∧
  (∀ s l v k, Live s → l < 16 → s.time.ready = true → swlLast s l ≠ v → s.md.mode ≠ .replay → s.md.mode ≠ .standby →
    v = true ∨ tget 0 s.col.calLines l = 0 → s.col.role = 2 →
    let c := (1024 * s.time.tick + k % 1024 - tget 0 s.col.swlComp l) / 64
    (addEdge s.col.heldEdges ⟨l, v, c / 16 + 1, c, false⟩).2 = false → Completes (.swlEdge l v k) s
      (SameBut [] { s with col := { s.col with heldEdges := s.col.heldEdges ++ [⟨l, v, c / 16 + 1, c, false⟩] } })) ∧
  (∀ s l v k, Live s → l < 16 → s.time.ready = true → swlLast s l ≠ v → s.md.mode ≠ .replay → s.md.mode ≠ .standby →
    v = true ∨ tget 0 s.col.calLines l = 0 → s.col.role = 0 →
    let c := (1024 * s.time.tick + k % 1024 - tget 0 s.col.swlComp l) / 64
    (s.col.windowEdges.any fun o => o.line = l && edgeWindow o = (c / 16 + 1) / 8 * 8) = false →
    Completes (.swlEdge l v k) s fun t =>
      t.col.swlLevel.getLsbD l = v ∧ (∀ j, j ≠ l → t.col.swlLevel.getLsbD j = s.col.swlLevel.getLsbD j) ∧
      (wagCarries s = true → t.hops = s.hops ++
        [⟨c / 16 + 3, ⟨c / 16 + 1, 0, v, 0, 0x4400 + l, false⟩, .producer, false⟩]) ∧
      (∀ q, q ≠ 32 + l → pinAt t q = pinAt s q) ∧ SameBut [.pins, .hops, .jnl, .col] s t) ∧
  (∀ s l v k, Live s → l < 16 → s.time.ready = true → swlLast s l ≠ v → s.md.mode ≠ .replay → s.md.mode ≠ .standby →
    v = true ∨ tget 0 s.col.calLines l = 0 → s.col.role = 1 →
    let c := (1024 * s.time.tick + k % 1024 - tget 0 s.col.swlComp l) / 64
    (addEdge s.col.windowEdges ⟨l, v, c / 16 + 1, c, false⟩).2 = false → Completes (.swlEdge l v k) s fun t =>
      t.col.windowEdges = s.col.windowEdges ++ [⟨l, v, c / 16 + 1, c, false⟩] ∧ t.col.swlLevel.getLsbD l = v ∧
      SameBut [.pins, .hops, .jnl, .col] s t) ∧
  (∀ s l v k, Live s → l < 16 → s.time.ready = true → swlLast s l ≠ v → s.md.mode ≠ .replay → s.md.mode ≠ .standby →
    v = true ∨ tget 0 s.col.calLines l = 0 → s.col.role ≠ 2 → (fltAt s .col).mask.getLsbD 7 = false →
    let c := (1024 * s.time.tick + k % 1024 - tget 0 s.col.swlComp l) / 64
    (s.col.windowEdges.any fun o => o.line = l && edgeWindow o = (c / 16 + 1) / 8 * 8) = true →
    Completes (.swlEdge l v k) s fun t =>
      (fltAt t .col).status.getLsbD 7 = true ∧ t.col.swlLevel.getLsbD l = v ∧
      SameBut [.pins, .hops, .jnl, .col, .faults] s t) ∧
  (∀ s p e, Live s → p < 32 → (pinAt s p).pulseEnd = some e → e ≤ s.time.tick → Completes (.pinPulseEnd p) s fun t =>
    (pinAt t p).drive = (pinAt s p).idle ∧ (pinAt t p).pulseEnd = none ∧ (pinAt t p).action = (pinAt s p).action ∧
    (∀ q, q ≠ p → pinAt t q = pinAt s q) ∧ SameBut [.pins] s t) ∧
  (∀ s l, Live s → l < 16 → tget 0 s.col.drives l ≠ 0 → tget 0 s.col.drives l < 1024 * (s.time.tick + 1) →
    Completes (.swarmDriveLaunch l) s (SameBut [] { s with col := { s.col with
      drives := tset 0 s.col.drives l 0,
      asserted := tset 0 s.col.asserted l (tget 0 s.col.drives l + 1024 * (pinAt s (32 + l)).width) } })) ∧
  (∀ s l, Live s → l < 16 → tget 0 s.col.asserted l ≠ 0 → tget 0 s.col.asserted l < 1024 * (s.time.tick + 1) →
    Completes (.swarmDriveRelease l) s (SameBut [] { s with col := { s.col with asserted := tset 0 s.col.asserted l 0 } }))

/-- Hops and timers (R206, R207, R209, R211, R213, R214, R216): a hop takes two ticks; an event on an enabled channel that passes it
counts and goes on to its relays and task inputs; at the eighth generation it is cut; an input that it reaches holds it, with the
gates and the SCOPE it arrived under, for its decision tick; nothing is carried in STANDBY and SAFE. A timer's expiry is an event with
the expiry tick as origin, at most one a tick, after the stops and settings decided by then.
Where the chapter leaves a point open, the clauses follow the model's readings, log 19. -/
def Obligations.HopEvents : Prop :=
  (∀ s h, Live s → firstHop s.hops = some h → h.due ≤ s.time.tick →
    (s.held.any fun x => routeCmd x.cmd && decide (x.dec ≤ h.due)) = false → wagCarries s = false → Completes .eventHop s
    (SameBut [] { s with hops := s.hops.erase h })) ∧
  (∀ s h w, Live s → firstHop s.hops = some h → h.due ≤ s.time.tick →
    (s.held.any fun x => routeCmd x.cmd && decide (x.dec ≤ h.due)) = false → wagCarries s = true → h.src = .onto w → h.ev.gen < 8 →
    chanEnabled (chanAt s w) = true → edgePasses (chanEdge (chanAt s w)) h.ev.level = true → Completes .eventHop s fun t =>
      (chanAt t w).count = (chanAt s w).count + 1 ∧ (chanAt t w).seen = ((chanAt s w).seen || chanWatch (chanAt s w)) ∧
      (chanAt t w).entry = (chanAt s w).entry ∧ (∀ v, v ≠ w → chanAt t v = chanAt s v) ∧
      t.hops = s.hops.erase h ++ [⟨h.due + 2, { h.ev with channel := w }, .leave w, h.injected⟩] ∧
      SameBut [.chans, .hops] s t) ∧
  (∀ s h w, Live s → firstHop s.hops = some h → h.due ≤ s.time.tick →
    (s.held.any fun x => routeCmd x.cmd && decide (x.dec ≤ h.due)) = false → wagCarries s = true → h.src = .onto w → 8 ≤ h.ev.gen →
    chanEnabled (chanAt s w) = true → edgePasses (chanEdge (chanAt s w)) h.ev.level = true → Completes .eventHop s fun t =>
      chanAt t w = { chanAt s w with loopCut := true, loopSrc := h.ev.srcId } ∧ (∀ v, v ≠ w → chanAt t v = chanAt s v) ∧
      t.hops = s.hops.erase h ∧ SameBut [.chans, .hops, .faults] s t) ∧
  (∀ s h w, Live s → firstHop s.hops = some h → h.due ≤ s.time.tick →
    (s.held.any fun x => routeCmd x.cmd && decide (x.dec ≤ h.due)) = false → wagCarries s = true → h.src = .leave w → h.ev.channel = w →
    Completes .eventHop s fun t =>
      (∀ k, k ∈ subscribers s w → h.due + 16 ≤ h.ev.origin + horizonAt s h.ev.origin →
        taskBounded k = false ∨ (taskAt s k).held.length < 8 → (taskAt t k).held = (taskAt s k).held ++
          [(h.ev.origin + horizonAt s h.ev.origin,
            ⟨h.ev, (slotsFor (taskAt s k) w).map fun y => (y.2.2.1, y.2.2.2), (taskAt s k).scope⟩)]) ∧
      (∀ k, k ∈ subscribers s w → h.ev.origin + horizonAt s h.ev.origin < h.due + 16 →
        (taskAt t k).held = (taskAt s k).held ∧ ((taskAt t k).late = true ∨ (taskAt t k).gated = true)) ∧
      (∀ k, k ∉ subscribers s w → taskAt t k = taskAt s k) ∧ SameBut [.chans, .hops, .tasks, .jnl, .faults, .col] s t) ∧
  (∀ s h, Live s → firstHop s.hops = some h → h.due ≤ s.time.tick →
    (s.held.any fun x => routeCmd x.cmd && decide (x.dec ≤ h.due)) = false → wagCarries s = true → h.src = .producer →
    Completes .eventHop s fun t =>
      (∀ w, w ∈ sourceChannels s h.ev.srcId → h.ev.gen < 8 → chanEnabled (chanAt s w) = true →
        edgePasses (chanEdge (chanAt s w)) h.ev.level = true → (chanAt t w).count = (chanAt s w).count + 1 ∧
          ⟨h.due + 2, { h.ev with channel := w }, .leave w, h.injected⟩ ∈ t.hops) ∧
      (∀ w, w ∉ sourceChannels s h.ev.srcId → chanAt t w = chanAt s w) ∧ SameBut [.chans, .hops, .faults] s t) ∧
  (∀ s i, Live s → i < 64 → (tmrAt s i).running = true → (tmrAt s i).next ≤ s.time.tick → wagCounts s = true →
    ((taskAt s (0x2901 + 2 * i)).held.any fun e => decide (e.1 ≤ (tmrAt s i).next)) = false →
    (s.held.any fun x => tickTimerExpiry.setsTimer i x.cmd && decide (x.dec ≤ (tmrAt s i).next)) = false →
    (tmrAt s i).raised ≠ some (tmrAt s i).next → Completes (.tickTimerExpiry i) s fun t =>
      t.hops = s.hops ++ [⟨(tmrAt s i).next + 2,
        ⟨(tmrAt s i).next, 0, true, (tmrAt s i).gen, 0x6000 + i, (tmrAt s i).taint⟩, .producer, false⟩] ∧
      (tmrAt t i).raised = some (tmrAt s i).next ∧ (tmrAt t i).remaining = (tmrAt s i).remaining.map (· - 1) ∧
      ((tmrAt t i).running = true ↔ (tmrAt t i).remaining ≠ some 0) ∧
      ((tmrAt t i).remaining ≠ some 0 → (tmrAt t i).next = (tmrAt s i).next + (tmrAt s i).period) ∧
      (∀ j, j ≠ i → tmrAt t j = tmrAt s j) ∧ SameBut [.timers, .hops] s t)

/-- Task decisions (R60, R79, R80, R179, R210, R211, R212): at its decision tick an input takes its events and acts once: a pin drives,
a swarm line is asserted, a counter counts, a timer starts or stops, a cell starts, stops, pauses or jumps, a trigger counts one event;
events whose gates are false at their origin are dropped with GATED.
Where the chapter leaves a point open, the clauses follow the model's readings, log 57. -/
def Obligations.TaskDecisions : Prop :=
  (∀ s k p d, Live s → taskKind k = some (.pin p) → nextDecision s k = some d → d ≤ s.time.tick → eventsAt s k d ≠ [] → (pinAt s p).output = true →
    wagPins s = true → Completes (.taskDecision k) s fun t =>
      ((pinAt s p).action = 0 → (pinAt t p).drive = !(pinAt s p).idle) ∧ ((pinAt s p).action = 1 → (pinAt t p).drive = (pinAt s p).idle) ∧
      ((pinAt s p).action = 2 → (pinAt t p).drive = !(pinAt s p).drive) ∧
      ((pinAt s p).action = 3 → (pinAt s p).pulseEnd = none →
        (pinAt t p).drive = (!(pinAt s p).idle) ∧ (pinAt t p).pulseEnd = some (d + (pinAt s p).width)) ∧
      (∀ q, q ≠ p → pinAt t q = pinAt s q) ∧ (taskAt t k).act = (taskAt s k).act + 1 ∧
      (taskAt t k).held = (taskAt s k).held.filter (fun e => e.1 ≠ d) ∧ (∀ j, j ≠ k → taskAt t j = taskAt s j) ∧
      SameBut [.tasks, .pins, .faults] s t) ∧
  (∀ s k l d, Live s → taskKind k = some (.swarm l) → nextDecision s k = some d → d ≤ s.time.tick → eventsAt s k d ≠ [] → wagSwarm s = true →
    tget 0 s.col.drives l = 0 → tget 0 s.col.asserted l ≤ 1024 * d → Completes (.taskDecision k) s fun t =>
      (taskAt t k).act = (taskAt s k).act + 1 ∧ (∀ j, j ≠ k → taskAt t j = taskAt s j) ∧
      SameBut [.tasks] { s with col := { s.col with
        drives := tset 0 s.col.drives l (64 * (16 * (d + s.col.swlLead) + 8) - tget 0 s.col.swlComp l) } } t) ∧
  (∀ s i d, Live s → i < 64 → nextDecision s (0x2840 + 2 * i) = some d → d ≤ s.time.tick → eventsAt s (0x2840 + 2 * i) d ≠ [] → wagCounts s = true →
    eventsAt s (0x2841 + 2 * i) d = [] → (ctrAt s i).held = false → Completes (.taskDecision (0x2840 + 2 * i)) s fun t =>
      ((ctrAt s i).terminal ≠ ((ctrAt s i).value + 1) % 2 ^ 32 →
        ctrAt t i = { ctrAt s i with value := ((ctrAt s i).value + 1) % 2 ^ 32 } ∧ t.hops = s.hops) ∧
      ((ctrAt s i).terminal = ((ctrAt s i).value + 1) % 2 ^ 32 →
        (ctrAt t i).value = (if (ctrAt s i).reload then 0 else (ctrAt s i).terminal) ∧ (ctrAt t i).held = !(ctrAt s i).reload ∧
        ∃ g y, t.hops = s.hops ++ [⟨d + 2, ⟨d, 0, true, g, 0x8000 + i, y⟩, .producer, false⟩]) ∧
      (∀ j, j ≠ i → ctrAt t j = ctrAt s j) ∧ SameBut [.tasks, .counters, .hops] s t) ∧
  (∀ s i d, Live s → i < 64 → nextDecision s (0x2841 + 2 * i) = some d → d ≤ s.time.tick → eventsAt s (0x2841 + 2 * i) d ≠ [] → wagCounts s = true →
    Completes (.taskDecision (0x2841 + 2 * i)) s fun t =>
      ctrAt t i = { ctrAt s i with value := 0, held := false } ∧ (∀ j, j ≠ i → ctrAt t j = ctrAt s j) ∧
      SameBut [.tasks, .counters] s t) ∧
  (∀ s i d, Live s → i < 64 → nextDecision s (0x2900 + 2 * i) = some d → d ≤ s.time.tick → eventsAt s (0x2900 + 2 * i) d ≠ [] → wagCounts s = true →
    (tmrAt s i).programmed = true → (tmrAt s i).running = false → eventsAt s (0x2901 + 2 * i) d = [] →
    Completes (.taskDecision (0x2900 + 2 * i)) s fun t =>
      (tmrAt t i).running = true ∧ (tmrAt t i).next = d + (tmrAt s i).delay ∧
      ((tmrAt t i).remaining = if (tmrAt s i).count = 0 then none else some (tmrAt s i).count) ∧
      (∀ j, j ≠ i → tmrAt t j = tmrAt s j) ∧ SameBut [.tasks, .timers] s t) ∧
  (∀ s i d, Live s → i < 64 → nextDecision s (0x2901 + 2 * i) = some d → d ≤ s.time.tick → eventsAt s (0x2901 + 2 * i) d ≠ [] → wagCounts s = true →
    (tmrAt s i).programmed = true → ((tmrAt s i).running = false ∨ d ≤ (tmrAt s i).next) →
    Completes (.taskDecision (0x2901 + 2 * i)) s fun t =>
      tmrAt t i = { tmrAt s i with running := false } ∧ (∀ j, j ≠ i → tmrAt t j = tmrAt s j) ∧ SameBut [.tasks, .timers] s t) ∧
  (∀ s c d, Live s → c < 1024 → nextDecision s (8 * c + 4) = some d → d ≤ s.time.tick → eventsAt s (8 * c + 4) d ≠ [] →
    scopeAt s (8 * c + 4) d = 0x7F →
    cellReadyFor s d 5 c = true → wagActs s c = true → (cellAt s c).st = .armed → (cellAt s c).next = none →
    (cellAt s c).arm ≠ none → (domAt s (cellAt s c).domain).guardOpen = true → Completes (.taskDecision (8 * c + 4)) s fun t =>
      (cellAt t c).st = .running ∧ (cellAt t c).n = 0 ∧ (∀ k, k ≠ c → cellAt t k = cellAt s k) ∧
      (taskAt t (8 * c + 4)).act = (taskAt s (8 * c + 4)).act + 1 ∧
      SameBut [.tasks, .active, .cells, .faults, .hives, .inner, .jnl, .queues, .rpl] s t) ∧
  (∀ s c d, Live s → c < 1024 → nextDecision s (8 * c + 5) = some d → d ≤ s.time.tick → eventsAt s (8 * c + 5) d ≠ [] →
    scopeAt s (8 * c + 5) d = 0x7F →
    cellReadyFor s d 2 c = true → wagActs s c = true → (cellAt s c).st = .running → (cellAt s c).next = none →
    Completes (.taskDecision (8 * c + 5)) s fun t =>
      (cellAt t c).st = .bound ∧ (∀ k, k ≠ c → cellAt t k = cellAt s k) ∧
      SameBut [.tasks, .active, .cells, .faults, .hives, .inner, .jnl, .queues, .rpl] s t) ∧
  (∀ s c d, Live s → c < 1024 → nextDecision s (8 * c + 6) = some d → d ≤ s.time.tick → eventsAt s (8 * c + 6) d ≠ [] →
    scopeAt s (8 * c + 6) d = 0x7F →
    cellReadyFor s d 4 c = true → wagActs s c = true → (cellAt s c).st = .running → (cellAt s c).next = none →
    (cellAt s c).entering = false ∨ (cellAt s c).pos = 0 →
    Completes (.taskDecision (8 * c + 6)) s fun t =>
      (cellAt t c).st = .paused ∧ (cellAt t c).step = (cellAt s c).step ∧ (cellAt t c).pos = (cellAt s c).pos ∧
      (∀ k, k ≠ c → cellAt t k = cellAt s k) ∧
      SameBut [.tasks, .active, .cells, .faults, .hives, .inner, .jnl, .queues, .rpl] s t) ∧
  (∀ s c d j, Live s → c < 1024 → nextDecision s (8 * c) = some d → d ≤ s.time.tick → eventsAt s (8 * c) d ≠ [] → cellReadyFor s d 7 c = true → wagActs s c = true →
    (cellAt s c).st = .running → (cellAt s c).next = none → (cellAt s c).haltAt ≠ some (cellAt s c).n →
    (∀ k, k ∈ [1, 2, 3] → eventsAt s (8 * c + k) d = []) →
    (∀ e, (eventsAt s (8 * c) d).head? = some e → jumpEntry s c 0 e.origin = some j) → Completes (.taskDecision (8 * c)) s fun t =>
      (cellAt t c).st = .running ∧ (cellAt t c).step = j.target ∧ (cellAt t c).pos = 0 ∧ (cellAt t c).dead = 8 ∧ (cellAt t c).entering = true ∧
      (∀ k, k ≠ c → cellAt t k = cellAt s k) ∧ SameBut [.tasks, .cells, .jnl, .rpl] s t) ∧
  (∀ s c d, Live s → c < 1024 → nextDecision s (0x2000 + 2 * c) = some d → d ≤ s.time.tick → eventsAt s (0x2000 + 2 * c) d ≠ [] → capCaughtUp s c d = true →
    capEarlier s c d 1 = false → wagActs s c = true → (capAt s c).st = .bound → Completes (.taskDecision (0x2000 + 2 * c)) s fun t =>
      capAt t c = { capAt s c with flags := (capAt s c).flags ||| 0x40 } ∧ (∀ k, k ≠ c → capAt t k = capAt s k) ∧
      SameBut [.tasks, .caps, .held] s t) ∧
  (∀ s k p d, Live s → taskKind k = some (.pin p) → nextDecision s k = some d → d ≤ s.time.tick → eventsAt s k d = [] →
    Completes (.taskDecision k) s fun t =>
      (taskAt t k).gated = true ∧ (taskAt t k).act = (taskAt s k).act ∧
      (taskAt t k).held = (taskAt s k).held.filter (fun e => e.1 ≠ d) ∧ (∀ j, j ≠ k → taskAt t j = taskAt s j) ∧
      SameBut [.tasks] s t)

/-- Samples of a cell (R43, R54, R59, R60, R69, R72, R73, R90, R112, R138, R163): once the instant of a cell's next sample has come with the guard
open and no decision before it, one sample leaves: the bridge value of a cell that does not play; of a RUNNING cell the value of the
walk through the stages, the bridge value with UNDERRUN where data is missing and with LATE where it was late; the walk's end takes
the cell to BOUND. No other cell changes.
Where the chapter leaves a point open, the clauses follow the model's readings, log 21, 51. -/
def Obligations.SampleEmissions : Prop :=
  (∀ s c l, Live s → c < nCells s → (domAt s (cellAt s c).domain).guardOpen = false → Completes (.sampleEmission c l) s (SameBut [] s)) ∧
  (∀ s c l x d, Live s → c < nCells s → x = cellAt s c → d = domAt s x.domain → d.guardOpen = true →
    x.st = .bound ∨ x.st = .armed ∨ x.st = .paused → x.next = none → nextEdge x * d.den * d.div ≤ s.time.tick * d.num →
    decisionBefore s c (nextEdge x) = false → Completes (.sampleEmission c l) s fun t =>
      (cellAt t c).st = x.st ∧ (cellAt t c).n = x.n + 1 ∧ (cellAt t c).emitCount = BitVec.ofNat 32 x.n ∧ (cellAt t c).outValid = true ∧
      (cellAt t c).out = BitVec.ofNat 32
        (if x.target.kind = 1 then auxCode (bridgeValue x) else fmtOut (cellFormat s x) (bridgeValue x) + (4 + x.bridge)) ∧
      (cellAt t c).markers = 0 ∧ (cellAt t c).hold = x.hold ∧ (∀ k, k ≠ c → cellAt t k = cellAt s k) ∧
      (x.target.kind ≠ 1 → t.auxs = s.auxs) ∧ SameBut [.cells, .auxs, .hops, .jnl, .rpl] s t) ∧
  (∀ s c l x d, Live s → c < nCells s → x = cellAt s c → d = domAt s x.domain → d.guardOpen = true → x.st = .running → 0 < x.dead →
    x.next = none → nextEdge x * d.den * d.div ≤ s.time.tick * d.num → decisionBefore s c (nextEdge x) = false →
    Completes (.sampleEmission c l) s fun t =>
      (cellAt t c).st = .running ∧ (cellAt t c).n = x.n + 1 ∧ (cellAt t c).next = some
        { step := x.step, pos := x.pos, passes := x.passes, dead := x.dead - 1, loops := x.loops } ∧
      (cellAt t c).out = BitVec.ofNat 32
        (if x.target.kind = 1 then auxCode (bridgeValue x) else fmtOut (cellFormat s x) (bridgeValue x) + (4 + x.bridge)) ∧
      (∀ k, k ≠ c → cellAt t k = cellAt s k) ∧ SameBut [.cells, .auxs, .hops, .jnl, .rpl] s t) ∧
  (∀ s c x d p a b m, Live s → c < nCells s → x = cellAt s c → d = domAt s x.domain → d.guardOpen = true → x.st = .running → x.dead = 0 →
    x.next = none → x.lateInject = 0 → s.md.mode ≠ .replay → nextEdge x * d.den * d.div ≤ s.time.tick * d.num →
    decisionBefore s c (nextEdge x) = false → p = playAt s c x [] (edgeTick d (nextEdge x) - 32) → rsActive x.ratio = false → x.pdEn = false →
    p.missing = false → (p.spans.all fun r => !spanUe s r.1 r.2) = true → a = gainOut x.gU x.oU p.v → b = gainOut x.gC x.oC (clip1 a) →
    m = markersAt (stepAt s c x x.step) x.pos p.len p.mark p.dds → Completes (.sampleEmission c false) s fun t =>
      (cellAt t c).st = .running ∧ (cellAt t c).n = x.n + 1 ∧ (cellAt t c).hold = b ∧ (cellAt t c).markers = m ∧
      (cellAt t c).out = BitVec.ofNat 32 (if x.target.kind = 1 then auxCode b
        else fmtOut (cellFormat s x) b + 16 * m + 8 * b2n ((stepAt s c x x.step).segBit && decide (x.pos = 0))) ∧
      (∃ v, v = advance s c p.len { x with ddsA := p.aNext } ∧ (cellAt t c).next = some
        { step := v.x.step, pos := v.x.pos, passes := v.x.passes, dead := v.x.dead, loops := v.x.loops, stop := v.stop }) ∧
      (cellAt t c).flags = x.flags ∧ (∀ k, k ≠ c → cellAt t k = cellAt s k) ∧
      SameBut [.cells, .auxs, .hops, .jnl, .rpl, .queues, .hives, .combMarks, .faults] s t) ∧
  (∀ s c l x d p, Live s → c < nCells s → x = cellAt s c → d = domAt s x.domain → d.guardOpen = true → x.st = .running → x.dead = 0 →
    x.next = none → s.md.mode ≠ .replay → nextEdge x * d.den * d.div ≤ s.time.tick * d.num → decisionBefore s c (nextEdge x) = false →
    p = playAt s c x [] (edgeTick d (nextEdge x) - 32) → rsActive x.ratio = false → x.pdEn = false → p.missing = true →
    (p.spans.all fun r => !spanUe s r.1 r.2) = true → Completes (.sampleEmission c l) s fun t =>
      (cellAt t c).st = .running ∧ (cellAt t c).n = x.n + 1 ∧ (cellAt t c).underrunCount = min 0xFFFFFFFF (x.underrunCount + 1) ∧
      (cellAt t c).flags.getLsbD 6 = true ∧ (cellAt t c).inGap = true ∧ (cellAt t c).hold = x.hold ∧
      (cellAt t c).out = BitVec.ofNat 32
        (if x.target.kind = 1 then auxCode (bridgeValue x) else fmtOut (cellFormat s x) (bridgeValue x) + 7) ∧
      (∀ k, k ≠ c → cellAt t k = cellAt s k) ∧
      SameBut [.cells, .auxs, .hops, .jnl, .rpl, .queues, .hives, .combMarks, .faults] s t) ∧
  (∀ s c x d p, Live s → c < nCells s → x = cellAt s c → d = domAt s x.domain → d.guardOpen = true → x.st = .running → x.dead = 0 →
    x.next = none → s.md.mode ≠ .replay → nextEdge x * d.den * d.div ≤ s.time.tick * d.num → decisionBefore s c (nextEdge x) = false →
    p = playAt s c x [] (edgeTick d (nextEdge x) - 32) → rsActive x.ratio = false → x.pdEn = false → p.missing = false →
    (p.spans.all fun r => !spanUe s r.1 r.2) = true → Completes (.sampleEmission c true) s fun t =>
      (cellAt t c).st = .running ∧ (cellAt t c).n = x.n + 1 ∧ (cellAt t c).lateCount = min 0xFFFFFFFF (x.lateCount + 1) ∧
      (cellAt t c).flags.getLsbD 7 = true ∧ (cellAt t c).hold = x.hold ∧ (fltAt t .cel).status.getLsbD 0 = true ∧
      (hiveAt t (hiveOf c)).lateWin = true ∧ (cellAt t c).out = BitVec.ofNat 32
        (if x.target.kind = 1 then auxCode (bridgeValue x) else fmtOut (cellFormat s x) (bridgeValue x) + (4 + x.bridge)) ∧
      (∀ k, k ≠ c → cellAt t k = cellAt s k) ∧
      SameBut [.cells, .auxs, .hops, .jnl, .rpl, .queues, .hives, .combMarks, .faults] s t) ∧
  (∀ s c l x d p r, Live s → c < nCells s → x = cellAt s c → d = domAt s x.domain → d.guardOpen = true → x.st = .running → x.dead = 0 →
    x.next = none → nextEdge x * d.den * d.div ≤ s.time.tick * d.num → decisionBefore s c (nextEdge x) = false →
    p = playAt s c x [] (edgeTick d (nextEdge x) - 32) → r ∈ p.spans → spanUe s r.1 r.2 = true → Completes (.sampleEmission c l) s fun t =>
      (cellAt t c).st = .bound ∧ (cellAt t c).n = x.n + 1 ∧ (fltAt t .cmb).status.getLsbD 1 = true ∧
      (∀ k, k ≠ c → cellAt t k = cellAt s k) ∧
      SameBut [.cells, .active, .auxs, .hops, .inner, .jnl, .rpl, .queues, .hives, .combMarks, .faults] s t) ∧
  (∀ s c l x d q, Live s → c < nCells s → x = cellAt s c → d = domAt s x.domain → d.guardOpen = true → x.st = .running → x.next = some q →
    q.stop = 1 → nextEdge x * d.den * d.div ≤ s.time.tick * d.num → decisionBefore s c (nextEdge x) = false →
    Completes (.sampleEmission c l) s fun t =>
      (cellAt t c).st = .bound ∧ (cellAt t c).arm = none ∧ (cellAt t c).n = x.n + 1 ∧ (cellAt t c).flags.getLsbD 0 = true ∧
      (∀ k, k ≠ c → cellAt t k = cellAt s k) ∧
      SameBut [.cells, .active, .auxs, .hops, .inner, .jnl, .rpl, .queues, .hives] s t)

/-- STANDBY's events (R135, R136, R137, R390, R392, R393, R394): its entry completes in the power state asked for, in Retain with the
banks retained; an entry that overruns is noticed; a wake tick begins the wake; the wake completes, with the reply of its command, once
every function that was ready is ready again; a loss of the retained supply empties the comb.
Where the chapter leaves a point open, the clauses follow the model's readings, log 42, 63. -/
def Obligations.StandbyEvents : Prop :=
  (∀ s, Live s → s.md.mode = .standby → s.sec.entering = true → (s.sec.wakeAt.any fun w => decide (w.1 ≤ s.time.tick)) = false → s.sec.entryTarget = 2 →
    Completes .standbyEntryDone s (SameBut [] { s with
      md := { s.md with power := 2 }, sec := { s.sec with entering := false } })) ∧
  (∀ s, Live s → s.md.mode = .standby → s.sec.entering = true → (s.sec.wakeAt.any fun w => decide (w.1 ≤ s.time.tick)) = false → s.sec.entryTarget = 3 →
    Completes .standbyEntryDone s fun t =>
      t.md = { s.md with power := 3, epoch := t.md.epoch } ∧ t.sec.entering = false ∧ t.sec.sramRet = true ∧
      (∀ h, (hiveAt s h).power = 0 → (hiveAt t h).power = 1 ∧ (hiveAt t h).playReady = false ∧ (hiveAt t h).catchReady = false) ∧
      (∀ k, (portAt t k).st = 0) ∧ t.comb = s.comb ∧ t.inner = { s.inner with lines := [] } ∧
      SameBut [.md, .sec, .hives, .col, .inner] s t) ∧
  (∀ s, Live s → s.sec.entering = true → s.sec.entryTick + (if s.sec.entryTarget = 3 then 300000 else 100000) < s.time.tick →
    (fltAt s .spd).mask.getLsbD 3 = false → Completes .pwrEntry s fun t =>
      (fltAt t .spd).status.getLsbD 3 = true ∧ SameBut [.faults] s t) ∧
  (∀ s, Live s → s.sec.entering = false → Completes .pwrEntry s (SameBut [] s)) ∧
  (∀ s, Live s → s.md.mode = .standby → s.sec.entering = false → s.sec.waking = false → (s.sec.wakeAt.any fun w => decide (w.1 ≤ s.time.tick)) = false → s.sec.wakeTick ≠ 0 →
    s.sec.entryTick ≤ s.sec.wakeTick → s.sec.wakeTick ≤ s.time.tick → Completes .wakeTick s fun t =>
      t.md.mode = .standby ∧ t.sec.waking = true ∧ t.sec.wakeCause = 2 ∧ t.sec.wakeStart = s.sec.wakeTick ∧ t.sec.sramRet = false ∧
      t.pace.vset = s.pace.ceiling ∧ SameBut [.dmcs, .faults, .hives, .jnl, .pace, .sec] s t) ∧
  (∀ s c i w, Live s → s.md.mode = .standby → s.sec.entering = false → s.sec.waking = false →
    firstWake (s.sec.wakeAt.filter fun w => decide (w.1 ≤ s.time.tick)) = some (w, c, i) → s.sec.wakeTick = 0 →
    Completes .wakeTick s fun t =>
      t.sec.waking = true ∧ t.sec.wakeCause = c ∧ t.sec.wakeIndex = i ∧ t.sec.wakeStart = w ∧
      SameBut [.dmcs, .faults, .hives, .jnl, .pace, .sec] s t) ∧
  (∀ s, Live s → s.md.mode = .standby → s.sec.waking = true → s.sec.safeAfterWake = none →
    (∀ f ∈ s.sec.readyBefore, f ∈ readyFunctions (banksBack s) ∧ ¬(4 ≤ f ∧ f < 8 ∧ (dmcAt s (f - 4)).tracking = true)) →
    Completes .wakeComplete s fun t =>
      t.md.mode = .idle ∧ t.md.prev = .standby ∧ t.md.power = 1 ∧ t.md.since = 16 * s.time.tick ∧ t.sec.waking = false ∧
      t.sec.readyBefore = [] ∧ (∀ x, modeWorks s = [x] → Replied s t x 0x0020 .ok []) ∧
      SameBut [.md, .sec, .hives, .jnl, .links, .mailboxes, .col, .works] s t) ∧
  (∀ s n, Live s → s.md.mode = .standby → s.sec.waking = true → s.sec.safeAfterWake = some n →
    (∀ f ∈ s.sec.readyBefore, f ∈ readyFunctions (banksBack s) ∧ ¬(4 ≤ f ∧ f < 8 ∧ (dmcAt s (f - 4)).tracking = true)) →
    Completes .wakeComplete s fun t =>
      t.md.mode = .safe ∧ t.md.prev = .standby ∧ t.sec.waking = false ∧ t.sec.safeAfterWake = none ∧ t.grave.injComb = [] ∧
      ((modePending s).isNone = true → t.held = s.held) ∧
      SameBut [.md, .sec, .hives, .held, .jnl, .links, .mailboxes, .col, .works, .pins, .wagEpoch, .auxs, .pace, .grave] s t) ∧
  (∀ s f, Live s → s.md.mode = .standby → s.sec.waking = true → f ∈ s.sec.readyBefore → f ∉ readyFunctions (banksBack s) →
    Completes .wakeComplete s fun t => t.md.mode = .standby ∧ t.sec.waking = true ∧ SameBut [.hives] s t) ∧
  (∀ s k, Live s → s.md.mode = .standby → (hiveAt s k).power = 1 ∨ (hiveAt s k).power = 3 → (fltAt s .cmb).mask.getLsbD 10 = false →
    Completes .retainLoss s fun t =>
      t.comb = [] ∧ t.scratch = [] ∧ t.inner = {} ∧ t.combOwn = [] ∧ t.active = [] ∧ t.sec.sramLost = true ∧
      (hiveAt t k).sparesPlay = factorySpares s (2 * k) ∧ (hiveAt t k).bad = [] ∧ t.grave.restoreCause = 7 ∧
      (fltAt t .cmb).status.getLsbD 10 = true ∧
      SameBut [.comb, .scratch, .inner, .combMarks, .active, .combOwn, .hives, .sec, .grave, .faults] s t)

/-- Debug sessions and the debug port (R397, R398, R399, R400, R401, R403): a session, a nonce and the authentication lock end at their
ticks; a FULL session halts and resumes the keeper and writes memory as context 0; an instruction that is not permitted is
replaced by BYPASS; a TAP reset selects IDCODE.
Where the chapter leaves a point open, the clauses follow the model's readings, log 4, 6, 62. -/
def Obligations.DebugEvents : Prop :=
  (∀ s e, Live s → s.sec.sessionEnd = some e → e ≤ s.time.tick → Completes .sessionExpiry s
    (SameBut (if s.sec.halted then [.jnl] else []) { s with
      kpr := { s.kpr with ready := s.kpr.ready || s.sec.halted },
      sec := { s.sec with dbg := if lcOpen s then 2 else 0, nonce := none, sessionEnd := none, halted := false } })) ∧
  (∀ s n e, Live s → s.sec.nonce = some (n, e) → e ≤ s.time.tick → Completes .nonceExpiry s
    (SameBut [] { s with sec := { s.sec with nonce := none } })) ∧
  (∀ s e, Live s → s.sec.authLock = some e → e ≤ s.time.tick → Completes .authLockExpiry s
    (SameBut [] { s with sec := { s.sec with authLock := none } })) ∧
  (∀ s e, Live s → s.sec.sessionEnd = some e → s.time.tick < e → Completes .sessionExpiry s (SameBut [] s)) ∧
  (∀ s, Live s → fullAccess s = true → s.kpr.ready = true → Completes .debugHalt s
    (SameBut [.jnl] { s with
      pace := { s.pace with vset := s.pace.ceiling, stepPending := true, stepTick := s.time.tick },
      kpr := { s.kpr with ready := false }, sec := { s.sec with halted := true } })) ∧
  (∀ s, Live s → fullAccess s = false → Completes .debugHalt s (SameBut [] s)) ∧
  (∀ s, Live s → s.sec.halted = true → Completes .debugResume s
    (SameBut [.jnl] { s with kpr := { s.kpr with ready := true }, sec := { s.sec with halted := false } })) ∧
  (∀ s sp a d, Live s → sp < 3 → fullAccess s = false → Completes (.dbgWrite sp a d) s (SameBut [] s)) ∧
  (∀ s a d, Live s → fullAccess s = true → d ≠ [] → a + d.length ≤ 0x200000 →
    ((partialWords a d.length).any (innerUe s true)) = false → Completes (.dbgWrite 0 a d) s fun t =>
    (∀ i (hi : i < d.length), memByte t.scratch (a + i) = d[i]) ∧
    (∀ b, b < a ∨ a + d.length ≤ b → memByte t.scratch b = memByte s.scratch b) ∧ SameBut [.scratch, .inner, .jnl, .faults] s t) ∧
  (∀ s a d, Live s → fullAccess s = true → d ≠ [] → combPresent s a d.length = true → combOwned s 0 a d.length = true →
    combReadyAt s a d.length = true → firstHeldGranule s a d.length = none → rmwUe s a d.length = none →
    Completes (.dbgWrite 1 a d) s fun t =>
      (∀ i (hi : i < d.length), memByte t.comb (a + i) = d[i]) ∧
      (∀ b, b < a ∨ a + d.length ≤ b → memByte t.comb b = memByte s.comb b) ∧
      SameBut [.comb, .combMarks, .grave, .hives, .jnl, .faults] s t) ∧
  (∀ s a d, Live s → fullAccess s = true → d ≠ [] → s.md.mode ≠ .standby → spanPresent s a d.length = true →
    dramOwned s 0 a d.length = true → spanReady s a d.length = true → ((partialLines a d.length).any fun l => s.dramUe.contains l) = false →
    dramQuiet s a d.length = true →
    Completes (.dbgWrite 2 a d) s fun t =>
      (∀ i (hi : i < d.length), memByte t.dram (a + i) = d[i]) ∧
      (∀ b, b < a ∨ a + d.length ≤ b → memByte t.dram b = memByte s.dram b) ∧
      SameBut [.dram, .dramMarks, .dmcs, .grave, .jnl, .faults] s t) ∧
  (∀ s, Live s → Completes (.jtagInstructionLoad .bypass) s (SameBut [] { s with sec := { s.sec with jtag := .bypass } })) ∧
  (∀ s, Live s → Completes (.jtagInstructionLoad .idcode) s (SameBut [] { s with sec := { s.sec with jtag := .idcode } })) ∧
  (∀ s, Live s → Completes (.jtagInstructionLoad .sample) s
    (SameBut [] { s with sec := { s.sec with jtag := if bscanOk s then .sample else .bypass } })) ∧
  (∀ s i, Live s → i = .extest ∨ i = .extestPulse ∨ i = .extestTrain → extestOk s = true → Completes (.jtagInstructionLoad i) s
    (SameBut [] { s with sec := { s.sec with jtag := i } })) ∧
  (∀ s i, Live s → i = .extest ∨ i = .extestPulse ∨ i = .extestTrain → extestOk s = false → (fltAt s .spd).mask.getLsbD 5 = false →
    Completes (.jtagInstructionLoad i) s fun t =>
      (fltAt t .spd).status.getLsbD 5 = true ∧ SameBut [.faults] { s with sec := { s.sec with jtag := .bypass } } t) ∧
  (∀ s, Live s → Completes .tapReset s (SameBut [] { s with sec := { s.sec with jtag := .idcode } }))

/-- Keeper restarts and audits (R138, R317, R341, R342, R344, R345, R346, R426): a watchdog or an internal error restarts the keeper, which ends any
session, frees every mailbox's SEQ and abandons its memory commands; the restarted keeper writes the ceiling and answers E_RESTARTED
to each reply it owed; an audit counts its heartbeat, and what disagreed; an uncorrectable word of its scratchpad halts the keeper (R138).
Where the chapter leaves a point open, the clauses follow the model's readings, log 27, 32, 40. -/
def Obligations.RestartEvents : Prop :=
  (∀ s, Live s → s.kpr.ready = true → s.sec.halted = false → inRetain s = false → (fltAt s .kpr).mask.getLsbD 0 = false →
    Completes .wdog s fun t =>
      t.kpr.ready = false ∧ t.kpr.pmbus = false ∧ t.kpr.st = 3 ∧ t.kpr.restarts = min 0xFF (s.kpr.restarts + 1) ∧
      (∀ y ∈ t.held, keeperMem y.cmd = false ∨ y.mb = 4) ∧ (∀ y ∈ t.works, keeperMem y.cmd = false ∨ y.mb = 4) ∧
      (∀ c m, (mbAt t c m).seqFree = true ∧ (mbAt t c m).asm = none) ∧ t.sec.nonce = none ∧ t.sec.sessionEnd = none ∧
      t.grave.restoreCause = 4 ∧ t.grave.injComb = [] ∧ t.grave.injDram = [] ∧ (fltAt t .kpr).status.getLsbD 0 = true ∧
      SameBut [.dmcs, .faults, .grave, .held, .jnl, .kpr, .mailboxes, .sec, .works] s t) ∧
  (∀ s, Live s → s.kpr.ready = true → s.sec.halted = false → inRetain s = false → Completes .firmwareErrorRestart s fun t =>
    t.kpr.ready = false ∧ t.kpr.st = 3 ∧ t.kpr.restarts = min 0xFF (s.kpr.restarts + 1) ∧
    (∀ y ∈ t.held, keeperMem y.cmd = false ∨ y.mb = 4) ∧ (∀ c m, (mbAt t c m).seqFree = true) ∧ t.grave.restoreCause = 4 ∧
    SameBut [.dmcs, .grave, .held, .jnl, .kpr, .mailboxes, .sec, .works] s t) ∧
  (∀ s, Live s → s.sec.halted = true → Completes .wdog s (SameBut [] s)) ∧
  (∀ s i v, Live s → s.kpr.st = 3 → bootImage s = some (i, v) → Completes .keeperRestartDone s fun t =>
    t.kpr.ready = true ∧ t.kpr.st = 2 ∧ t.kpr.activeImg = i ∧ t.kpr.version = v.version ∧ t.pace.vset = s.pace.ceiling ∧
    (∀ c m o, m < 4 → (mbAt s c m).owed = some o → (mbAt s c m).tunnel = none → (mbAt t c m).replyValid = true ∧ (mbAt t c m).owed = none ∧
      ∃ r, (mbAt t c m).reply = some r ∧ r.opcode = o.opcode ∧ r.seq = o.seq ∧ r.status = .restarted ∧ r.decTick = o.dec ∧
        r.result = [BitVec.ofNat 8 (b2n o.handed)]) ∧
    (∀ c m, m < 4 → (mbAt s c m).owed = none → mbAt t c m = mbAt s c m) ∧
    SameBut [.col, .dev, .faults, .held, .hives, .jnl, .kpr, .mailboxes, .pace] s t) ∧
  (∀ s, Live s → s.kpr.st = 3 → bootImage s = none → Completes .keeperRestartDone s fun t =>
    t.kpr.ready = true ∧ t.kpr.st = 4 ∧ t.pace.vset = s.pace.ceiling ∧
    t.inner = { s.inner with scratch := { s.inner.scratch with ue := [], ce := [] } } ∧
    SameBut [.col, .dev, .faults, .hives, .inner, .kpr, .mailboxes, .pace] s t) ∧
  (∀ s, Live s → serviceRuns s = true → scratchBad s = false → Completes (.shadowAudit []) s
    (SameBut [] { s with kpr := { s.kpr with heartbeat := (s.kpr.heartbeat + 1) % 65536 } })) ∧
  (∀ s u, Live s → serviceRuns s = true → scratchBad s = false → (fltAt s .kpr).mask.getLsbD 3 = false → Completes (.shadowAudit [u]) s fun t =>
    t.kpr.heartbeat = (s.kpr.heartbeat + 1) % 65536 ∧ t.kpr.divergedCount = min 0xFFFFFFFF (s.kpr.divergedCount + 1) ∧
    t.kpr.lastDiverged = BitVec.ofNat 32 (selNum u) ∧ (fltAt t .kpr).status.getLsbD 3 = true ∧
    (ctxAt t 0).irqStatus.getLsbD 7 = true ∧ SameBut [.faults, .held, .jnl, .kpr] s t) ∧
  (∀ s l, Live s → serviceRuns s = true → scratchBad s = true → s.grave.held = false → Completes (.shadowAudit l) s fun t =>
    t.kpr.ready = false ∧ t.kpr.heartbeat = s.kpr.heartbeat ∧ (fltAt t .cmb).status.getLsbD 4 = true ∧ t.grave.held = true ∧
    SameBut [.faults, .grave, .jnl] { s with kpr := { s.kpr with ready := false } } t)

/-- Background services (R49, R52, R139, R142, R248, R277, R373, R375, R376, R378): a telemetry sample is stored with its time, the hottest
sensor after it, a supply out of range ten times is a fault; grooming tests a granule of a bank, the scratchpad or the context cache and
remaps one that fails, or marks it bad; an eye check stores what it measured; a skew check begins its exchanges, one unanswered before
it fails; compaction keeps the newest record of every key.
Where the chapter leaves a point open, the clauses follow the model's readings, log 26, 64. -/
def Obligations.ServiceEvents : Prop :=
  (∀ s i v, Live s → i < 28 → serviceRuns s = false → Completes (.telemetrySample i v) s (SameBut [] s)) ∧
  (∀ s i v, Live s → i < 16 → serviceRuns s = true → Completes (.telemetrySample i v) s fun t =>
    t.svc = { s.svc with
      telem := tset 0 (tset 0 s.svc.telem i v) 27 (hottest (noteTelem i v s)),
      telemTick := tset 0 (tset 0 s.svc.telemTick i s.time.tick) 27 s.time.tick } ∧ SameBut [.svc, .faults] s t) ∧
  (∀ s i v, Live s → i ∈ [17, 18] → serviceRuns s = true → Completes (.telemetrySample i v) s (SameBut [] { s with svc := { s.svc with
    telem := tset 0 s.svc.telem i v, telemTick := tset 0 s.svc.telemTick i s.time.tick } })) ∧
  (∀ s i v lo hi, Live s → i < 28 → i ≠ 16 → serviceRuns s = true → supplyRange i = some (lo, hi) → lo ≤ v.toNat → v.toNat ≤ hi →
    Completes (.telemetrySample i v) s (SameBut [] { s with svc := { s.svc with
      telem := tset 0 s.svc.telem i v, telemTick := tset 0 s.svc.telemTick i s.time.tick,
      outOfRange := tset 0 s.svc.outOfRange i 0 } })) ∧
  (∀ s i v lo hi, Live s → i < 28 → i ≠ 16 → serviceRuns s = true → supplyRange i = some (lo, hi) → v.toNat < lo ∨ hi < v.toNat →
    (fltAt s .bgs).mask.getLsbD 5 = false → Completes (.telemetrySample i v) s fun t =>
      t.svc.outOfRange = tset 0 s.svc.outOfRange i (min 10 (tget 0 s.svc.outOfRange i + 1)) ∧
      (9 ≤ tget 0 s.svc.outOfRange i → (fltAt t .bgs).status.getLsbD 5 = true) ∧
      (tget 0 s.svc.outOfRange i < 9 → t.faults = s.faults) ∧ SameBut [.svc, .faults] s t) ∧
  (∀ s v, Live s → serviceRuns s = true → 650 ≤ v.toNat → v.toNat ≤ 850 → Completes (.telemetrySample 16 v) s (SameBut [] { s with
    pace := { s.pace with vread := v.toNat }, svc := { s.svc with
      telem := tset 0 s.svc.telem 16 v, telemTick := tset 0 s.svc.telemTick 16 s.time.tick,
      outOfRange := tset 0 s.svc.outOfRange 16 0 } })) ∧
  (∀ s v, Live s → serviceRuns s = true → v &&& 0xFF7F = 0 → Completes (.telemetrySample 19 v) s (SameBut [] { s with
    svc := { s.svc with
      telem := tset 0 s.svc.telem 19 v, telemTick := tset 0 s.svc.telemTick 19 s.time.tick } })) ∧
  (∀ s v, Live s → serviceRuns s = true → v &&& 0xFF7F ≠ 0 → Completes (.telemetrySample 19 v) s fun t =>
    t.pace = { s.pace with fault := true } ∧ (fltAt t .tim).status.getLsbD 9 = true ∧ SameBut [.svc, .pace, .faults] s t) ∧
  (∀ s h b g r, Live s → h < nHives s → b < 2 → g < bankGranules b → groomRuns s = true →
    (if b = 0 then (hiveAt s h).playReady else (hiveAt s h).catchReady) = true →
    ((wordsOf (combAddr h b (256 * g)) 256).any fun w => wordUe s w || s.combCe.contains w) = false →
    Completes (.groomGranule h b g false r) s
      (SameBut [] { s with hives := tmod {} s.hives h fun y => { y with
        groomGranule := g, groomBank := b,
        groomPasses := if b = 1 ∧ g = 2047 ∧ r = true then min 0x3FFFF (y.groomPasses + 1) else y.groomPasses } })) ∧
  (∀ s h b g r, Live s → h < nHives s → b < 2 → g < bankGranules b → groomRuns s = true →
    (if b = 0 then (hiveAt s h).playReady else (hiveAt s h).catchReady) = true → Completes (.groomGranule h b g false r) s fun t =>
      (hiveAt t h).groomGranule = g ∧ (hiveAt t h).groomBank = b ∧ (hiveAt t h).bad = (hiveAt s h).bad ∧ t.combUe = s.combUe ∧
      (∀ w, w ∈ s.combCe → w ∉ wordsOf (combAddr h b (256 * g)) 256 → w ∈ t.combCe) ∧ (∀ k, k ≠ h → hiveAt t k = hiveAt s k) ∧
      SameBut [.hives, .faults, .combMarks] s t) ∧
  (∀ s h b g r, Live s → h < nHives s → b < 2 → g < bankGranules b → groomRuns s = true →
    (if b = 0 then (hiveAt s h).playReady else (hiveAt s h).catchReady) = true → (b, g) ∉ (hiveAt s h).bad →
    (sparesOf s (2 * h + b)).length < 16 → (fltAt s .cmb).mask.getLsbD 8 = false → Completes (.groomGranule h b g true r) s fun t =>
      sparesOf t (2 * h + b) = sparesOf s (2 * h + b) ++ [g] ∧ (hiveAt t h).bad = (hiveAt s h).bad ∧
      (fltAt t .cmb).status.getLsbD 8 = true ∧ (∀ k, k ≠ h → hiveAt t k = hiveAt s k) ∧
      SameBut [.hives, .combMarks, .faults, .svc, .dev] s t) ∧
  (∀ s h b g, Live s → h < nHives s → b < 2 → g < bankGranules b → groomRuns s = true →
    (if b = 0 then (hiveAt s h).playReady else (hiveAt s h).catchReady) = true → (b, g) ∉ (hiveAt s h).bad →
    16 ≤ (sparesOf s (2 * h + b)).length → Completes (.groomGranule h b g true false) s fun t =>
      (b, g) ∈ (hiveAt t h).bad ∧ (∀ w, w < 32 → 32 * (h * 8192 + 6144 * b + g) + w ∈ t.combUe) ∧
      (∀ w, w ∈ s.combUe → w ∈ t.combUe) ∧ (∀ k, k ≠ h → hiveAt t k = hiveAt s k) ∧ SameBut [.hives, .faults, .combMarks] s t) ∧
  (∀ s b g r, Live s → b = 2 ∨ b = 3 → g < groomSize b → groomRuns s = true → Completes (.groomGranule 0 b g false r) s fun t =>
    (innerMem t (decide (b = 2))).bad = (innerMem s (decide (b = 2))).bad ∧
    (innerMem t (decide (b = 2))).ue = (innerMem s (decide (b = 2))).ue ∧ t.inner.lines = s.inner.lines ∧
    SameBut [.inner, .faults] s t) ∧
  (∀ s b g r, Live s → b = 2 ∨ b = 3 → g < groomSize b → groomRuns s = true → g ∉ (innerMem s (decide (b = 2))).bad →
    (innerMem s (decide (b = 2))).spares.length < 16 → (fltAt s .cmb).mask.getLsbD 8 = false →
    Completes (.groomGranule 0 b g true r) s fun t =>
      (innerMem t (decide (b = 2))).spares = (innerMem s (decide (b = 2))).spares ++ [g] ∧ (fltAt t .cmb).status.getLsbD 8 = true ∧
      SameBut [.inner, .faults] s t) ∧
  (∀ s m, Live s → m.lane < nLanes s → serviceRuns s = true → s.svc.eyePeriod ≠ 0 →
    s.md.mode = .idle ∨ s.md.mode = .run ∨ s.md.mode = .safe → laneInData s m.lane = true →
    (∀ l, laneLink s true m.lane = some l → eyeOk (linkAt s l) m = true) → Completes (.eyeCheck m) s
      (SameBut [] { s with rxLanes := tmod {} s.rxLanes m.lane fun (r : RxLane) => { r with
        w := min 255 m.w, h := min 1023 m.h, ctle := m.ctle % 16 } })) ∧
  (∀ s m l, Live s → m.lane < nLanes s → serviceRuns s = true → s.svc.eyePeriod ≠ 0 →
    s.md.mode = .idle ∨ s.md.mode = .run ∨ s.md.mode = .safe → laneInData s m.lane = true → laneLink s true m.lane = some l →
    eyeOk (linkAt s l) m = false → Completes (.eyeCheck m) s fun t =>
      (linkAt t l).st ≠ .data ∧ (linkAt t l).retrains = min 0xFF ((linkAt s l).retrains + 1) ∧
      (∀ k, k ≠ l → linkAt t k = linkAt s k) ∧ SameBut [.links, .rxLanes, .jnl, .faults] s t) ∧
  (∀ s k n, Live s → serviceRuns s = true → s.svc.skewPeriod ≠ 0 → s.col.role = 1 → s.md.mode = .idle ∨ s.md.mode = .run → s.col.run = none →
    k ∈ joinedPorts s → 0 < n → Completes (.skewCheck n) s fun t =>
      t.col.run = some ⟨1, n, joinedPorts s, [], [], true⟩ ∧ (portAt t k).exchanges = n ∧ (portAt t k).answers = 0 ∧
      (∀ j, (portAt t j).st = (portAt s j).st) ∧ SameBut [.col] s t) ∧
  (∀ s r n, Live s → serviceRuns s = true → s.svc.skewPeriod ≠ 0 → s.col.role = 1 → s.md.mode = .idle ∨ s.md.mode = .run → s.col.run = some r →
    r.service = false → Completes (.skewCheck n) s (SameBut [] s)) ∧
  (∀ s r k n, Live s → serviceRuns s = true → s.svc.skewPeriod ≠ 0 → s.col.role = 1 → s.md.mode = .idle ∨ s.md.mode = .run → s.col.run = some r →
    r.service = true → r.phase ≤ 2 → k ∈ joinedPorts s → 0 < n → (fltAt s .col).mask.getLsbD 8 = false → Completes (.skewCheck n) s fun t =>
      (fltAt t .col).status.getLsbD 8 = true ∧ t.col.run = some ⟨1, n, joinedPorts s, [], [], true⟩ ∧
      SameBut [.col, .faults] s t) ∧
  (∀ s n, Live s → serviceRuns s = true → s.kpr.flash = true → storeDue s = true → Completes (.flashCompaction 0 true n) s fun t =>
    t.dev = { s.dev with store := compacted s.dev.store, storeUsed := storeBytes (compacted s.dev.store) } ∧ t.svc.storeFull = false ∧
    t.svc.maxErase = max s.svc.maxErase (min 0xFFFFF n) ∧ SameBut [.dev, .svc, .faults] s t) ∧
  (∀ s n, Live s → serviceRuns s = true → s.kpr.flash = true → storeDue s = true → (fltAt s .bgs).mask.getLsbD 7 = false →
    Completes (.flashCompaction 0 false n) s fun t =>
      t.svc.storeFull = true ∧ (fltAt t .bgs).status.getLsbD 7 = true ∧ SameBut [.svc, .faults] s t) ∧
  (∀ s n, Live s → serviceRuns s = true → s.kpr.flash = true → Completes (.flashCompaction 1 true n) s fun t =>
    t.svc.maxErase = max s.svc.maxErase (min 0xFFFFF n) ∧ t.svc.storeFull = s.svc.storeFull ∧ SameBut [.svc, .faults] s t)

/-- Faults that come by themselves (R226, R409, R415, R416, R417, R418): loss of the time PLL and a parity error are class 3: held as grave
where none was, with SAFE due at the next tick; at its deadline a block held at class 2 makes its reaction once, SAFE at the
next tick or the stop of the cells named.
Where the chapter leaves a point open, the clauses follow the model's readings, log 46. -/
def Obligations.FaultEvents : Prop :=
  (∀ s, Live s → s.time.ready = false → Completes .timeUnlock s (SameBut [] { s with time := { s.time with pllLock := false } })) ∧
  (∀ s, Live s → s.time.ready = true → s.grave.held = false → Completes .timeUnlock s fun t =>
    t.grave = { s.grave with held := true, block := 7, regParity := false, time := 16 * s.time.tick,
                             due := s.grave.due ++ [(s.time.tick + 1, true, 1)] } ∧
    (fltAt t .tim).status.getLsbD 0 = true ∧
    SameBut [.grave, .faults] { s with time := { s.time with pllLock := false } } t) ∧
  (∀ s b, Live s → b < 13 → b ∈ s.grave.parityBad → s.grave.held = false → Completes (.regParityCheck b) s fun t =>
    t.grave = { s.grave with held := true, block := b, regParity := true, time := 16 * s.time.tick,
                             parityBad := s.grave.parityBad.erase b, due := s.grave.due ++ [(s.time.tick + 1, true, 1)] } ∧
    (ctxAt t 0).irqStatus.getLsbD 5 = true ∧ SameBut [.grave] s t) ∧
  (∀ s b, Live s → b < 13 → s.grave.held = false → Completes (.regParityCheck (16 + b)) s fun t =>
    t.grave.held = true ∧ t.grave.block = b ∧ t.grave.regParity = true ∧ t.grave.due = s.grave.due ++ [(s.time.tick + 1, true, 1)] ∧
    SameBut [.grave] s t) ∧
  (∀ s b, Live s → b < 13 → b ∉ s.grave.parityBad → Completes (.regParityCheck b) s (SameBut [] s)) ∧
  (∀ s b k, Live s → blockOf b = some k → (fltAt s k).running = true → s.time.tick < (fltAt s k).deadline →
    Completes (.escalationDeadline b) s (SameBut [] s)) ∧
  (∀ s b k, Live s → blockOf b = some k → (fltAt s k).running = true → s.time.tick = (fltAt s k).deadline →
    clearFirst s b (fltAt s k).deadline = false → reactionSafe k (fltAt s k) = true → Completes (.escalationDeadline b) s fun t =>
      fltAt t k = { fltAt s k with running := false, reacted := true } ∧ (∀ j, j ≠ k → fltAt t j = fltAt s j) ∧
      SameBut [.faults, .jnl] { s with grave := { s.grave with due := s.grave.due ++ [(s.time.tick + 1, false, 2 + b)] } } t) ∧
  (∀ s b k, Live s → blockOf b = some k → (fltAt s k).running = true → (fltAt s k).deadline ≤ s.time.tick →
    clearFirst s b (fltAt s k).deadline = false → reactionSafe k (fltAt s k) = false →
    reactionWaits s k (fltAt s k) = false → Completes (.escalationDeadline b) s fun t =>
      fltAt t k = { fltAt s k with running := false, reacted := true } ∧ (∀ j, j ≠ k → fltAt t j = fltAt s j) ∧
      (∀ c, (cellAt s c).st ≠ .off → reactionHits s k (fltAt s k) c (cellAt s c) = true →
        (cellAt t c).st ≠ .armed ∧ (cellAt t c).st ≠ .running ∧ (cellAt t c).st ≠ .paused) ∧
      (∀ c, (cellAt s c).st = .off ∨ reactionHits s k (fltAt s k) c (cellAt s c) = false → cellAt t c = cellAt s c) ∧
      (t.col.suspended = (s.col.suspended || decide (k = .col))) ∧
      SameBut [.faults, .jnl, .cells, .active, .queues, .hives, .inner, .rpl, .col] s t)

/-- Ends of the keeper's longer work (R366, R368, R369, R371, R372, R384): a programmed record joins its store with the next SEQ and is
answered, a failed one is E_MEM_ERROR; a finished run answers one status for each item and the device goes back, at the first tick
after, to where it came from; the lifecycle reply, and for RETURNED the erasures and a warm reset to come.
Where the chapter leaves a point open, the clauses follow the model's readings, log 25, 64. -/
def Obligations.WorkEvents : Prop :=
  (∀ s x w op k i a p, Live s → Oldest s (fun c => (calPut c).isSome = true) x w → calPut x.cmd = some (op, k, i, a, p) →
    putWaits s x = false → storeRoom s p = true → Completes (.calRecordProgrammed true) s fun t =>
      t.dev.store = s.dev.store ++ [⟨k, i, s.svc.calSeq + 1, p, false⟩] ∧ t.svc.calSeq = s.svc.calSeq + 1 ∧ t.works = w ∧
      (k = 2 → Replied s t x op .ok [] ∧ (auxAt t i).gA = (calGO t 2 i).1 ∧ (auxAt t i).oA = (calGO t 2 i).2 ∧
        SameBut [.dev, .svc, .auxs, .works, .mailboxes, .col] s t) ∧
      (k = 3 → Replied s t x op .ok [] ∧ SameBut [.dev, .svc, .works, .mailboxes, .col] s t) ∧
      (k = 1 → a = 0 → Replied s t x op .ok [] ∧ t.svc.slotCal = tset calIdentity s.svc.slotCal i (calGO t 1 i) ∧
        SameBut [.dev, .svc, .works, .mailboxes, .col] s t) ∧
      SameBut [.dev, .svc, .auxs, .works, .mailboxes, .col, .held, .jnl, .kpr] s t) ∧
  (∀ s b x w op k i a p, Live s → Oldest s (fun c => (calPut c).isSome = true) x w → calPut x.cmd = some (op, k, i, a, p) →
    putWaits s x = false → b = false ∨ storeRoom s p = false → Completes (.calRecordProgrammed b) s fun t =>
      Replied s t x op .memError [] ∧ ((fltAt s .kpr).mask.getLsbD 6 = false → (fltAt t .kpr).status.getLsbD 6 = true) ∧
      SameBut [.faults, .mailboxes, .col] { s with works := w } t) ∧
  (∀ s x w r, Live s → Oldest s (fun c => ∃ h i l m n, c = .calStart h i l m n) x w → s.md.mode = .calibrate →
    Completes (.calRunComplete r) s fun t =>
      t.md = { s.md with calItems := 0, calPace := 0, leave := some (s.time.tick + 1), epoch := t.md.epoch } ∧ t.svc.running = false ∧
      t.svc.lastFail = ((upFrom 5 0).any fun i => itemStatus s r i = 1) ∧
      Replied s t x 0x0D10 .ok ((upFrom 5 0).map fun i => BitVec.ofNat 8 (itemStatus s r i)) ∧
      SameBut [.md, .svc, .faults, .mailboxes, .col, .links, .rxLanes, .jnl] { s with works := w } t) ∧
  (∀ s x w r, Live s → Oldest s (fun c => ∃ h i l m n, c = .calStart h i l m n) x w → s.md.mode = .calibrate →
    bitOf s.md.calItems 1 = false → bitOf s.md.calItems 2 = false → Completes (.calRunComplete r) s
      (SameBut [.md, .svc, .faults, .mailboxes, .col] { s with works := w })) ∧
  (∀ s n, Live s → s.md.mode = .calibrate → s.md.origin = .run → s.md.leave = some n → n ≤ s.time.tick →
    (modeReturns s).md.mode = .run ∧ (modeReturns s).md.prev = .calibrate ∧ (modeReturns s).md.since = 16 * n ∧
    (modeReturns s).md.calCells = [] ∧ (modeReturns s).md.leave = none ∧ SameBut [.md, .jnl] s (modeReturns s)) ∧
  (∀ s n, Live s → s.md.mode = .calibrate → s.md.origin = .idle → s.md.leave = some n → n ≤ s.time.tick →
    (modeReturns s).md.mode = .idle ∧ (modeReturns s).md.prev = .calibrate ∧ (modeReturns s).md.calCells = [] ∧
    (∀ c, (cellAt (modeReturns s) c).st ≠ .armed ∧ (cellAt (modeReturns s) c).st ≠ .running ∧
      (cellAt (modeReturns s) c).st ≠ .paused) ∧ (modeReturns s).held = s.held ∧ (modeReturns s).dev = s.dev) ∧
  (∀ s x w, Live s → Oldest s (fun c => ∃ h n k, c = .lcAdvance h n k) x w → s.dev.lifecycle ≠ 3 → Completes .lcAdvanceDone s fun t =>
    Replied s t x 0x0C04 .ok [] ∧ SameBut [.mailboxes, .col] { s with works := w } t) ∧
  (∀ s x w, Live s → Oldest s (fun c => ∃ h n k, c = .lcAdvance h n k) x w → s.dev.lifecycle = 3 → Completes .lcAdvanceDone s fun t =>
    Replied s t x 0x0C04 .ok [] ∧ t.dev = { s.dev with
      keyLocked := true, store := [], storeUsed := 0, config := [], exports := s.dev.exports.filter fun e => !e.flash } ∧
    t.kpr.resetAt = some (s.time.tick + 1000) ∧ SameBut [.mailboxes, .col, .dev, .kpr] { s with works := w } t)

/-- The journal's events (R430, R434, R438): a checkpoint is taken when its period has passed; a finished export stands at its
destination and is answered, a failed one is E_MEM_ERROR; a finished import stands in the ring, one whose header failed is E_BAD_ARG.
Where the chapter leaves a point open, the clauses follow the model's readings, log 13, 65. -/
def Obligations.JournalEvents : Prop :=
  (∀ s, Live s → s.jnl.st = 1 → s.jnl.period ≠ 0 → (∀ n, newestCkpt s.jnl = some n → n + s.jnl.period ≤ s.time.tick) →
    Completes .checkpoint s fun t =>
      t.jnl = ckptInto s s.time.tick ∧ t.jnl.ckptNo = s.jnl.ckptNo + 1 ∧ SameBut [.jnl] s t) ∧
  (∀ s n, Live s → newestCkpt s.jnl = some n → s.time.tick < n + s.jnl.period → Completes .checkpoint s (SameBut [] s)) ∧
  (∀ s, Live s → s.jnl.period = 0 → Completes .checkpoint s (SameBut [] s)) ∧
  (∀ s x w h f l n o k, Live s → Oldest s (fun c => ∃ h f l d, c = .jnlExport h f l d) x w → x.cmd = .jnlExport h f l ⟨0, n⟩ →
    ckptBefore s.jnl f = some (o, k) → Completes (.jnlExportDone true) s fun t =>
      (∃ c, t.dev = { s.dev with exports := s.dev.exports ++ [c] } ∧ c.flash = true ∧ c.entries = stretch s.jnl o l ∧ c.first = k ∧
        c.last = l ∧ c.bytes = copyBytes (stretch s.jnl o l) ∧ c.serial = s.dev.serial) ∧
      Replied s t x 0x0F03 .ok [] ∧ SameBut [.dev, .mailboxes, .col] { s with works := w } t) ∧
  (∀ s x w h f l n o k, Live s → Oldest s (fun c => ∃ h f l d, c = .jnlExport h f l d) x w → x.cmd = .jnlExport h f l ⟨1, n⟩ →
    ckptBefore s.jnl f = some (o, k) → spanReady s n (copyBytes (stretch s.jnl o l)) = true → Completes (.jnlExportDone true) s fun t =>
      (∃ c, t.dev = { s.dev with exports := s.dev.exports ++ [c] } ∧ c.flash = false ∧ c.addr = n ∧ c.entries = stretch s.jnl o l) ∧
      (∀ i (hi : i < (copyImage k (stretch s.jnl o l)).length), memByte t.dram (n + i) = (copyImage k (stretch s.jnl o l))[i]) ∧
      (∀ a, a < n ∨ n + (copyImage k (stretch s.jnl o l)).length ≤ a → memByte t.dram a = memByte s.dram a) ∧ Replied s t x 0x0F03 .ok [] ∧
      SameBut [.dev, .dram, .dramMarks, .dmcs, .grave, .jnl, .mailboxes, .col] { s with works := w } t) ∧
  (∀ s x w h f l d o k b, Live s → Oldest s (fun c => ∃ h f l d, c = .jnlExport h f l d) x w → x.cmd = .jnlExport h f l d →
    ckptBefore s.jnl f = some (o, k) →
    b = false ∨ (d.kind = 1 ∧ spanReady s d.num (copyBytes (stretch s.jnl o l)) = false) → Completes (.jnlExportDone b) s fun t =>
      Replied s t x 0x0F03 .memError [] ∧ SameBut [.mailboxes, .col] { s with works := w } t) ∧
  (∀ s x w h d c, Live s → Oldest s (fun c => ∃ h d, c = .jnlImport h d) x w → x.cmd = .jnlImport h d → copyAt s d = some c →
    Completes (.jnlImportDone true) s fun t =>
      t.jnl.entries.map (·.pay) = c.entries.map (·.pay) ∧ t.jnl.entries.map (·.tick) = c.entries.map (·.tick) ∧
      t.jnl.count = c.entries.length ∧ t.jnl.ckptNo = c.ckpts.length ∧ t.jnl.st = s.jnl.st ∧ t.jnl.base = s.jnl.base ∧
      Replied s t x 0x0F04 .ok [] ∧ SameBut [.jnl, .mailboxes, .col] { s with works := w } t) ∧
  (∀ s x w h d, Live s → Oldest s (fun c => ∃ h d, c = .jnlImport h d) x w → x.cmd = .jnlImport h d → Completes (.jnlImportDone false) s fun t =>
    Replied s t x 0x0F04 .badArg [] ∧ SameBut [.mailboxes, .col] { s with works := w } t)

/-- Replay's events (R439, R440, R441, R442, R443): replay begins at S_r; the region's entries are applied or imposed at their ticks plus
Delta, a command as accepted without checks and without a reply, an edge as an event, a commanded stop of a cell; it ends in IDLE with
every unit at its power-on values, at the tick after a mismatch where it was asked to stop at one, else at the region's end.
Where the chapter leaves a point open, the clauses follow the model's readings, log 67. -/
def Obligations.ReplayEvents : Prop :=
  (∀ s, Live s → s.rpl.st = 1 → s.rpl.startAt ≤ s.time.tick → Completes .replayStart s
    (SameBut [] { s with rpl := { s.rpl with st := 2 } })) ∧
  (∀ s, Live s → s.rpl.st = 1 → s.time.tick < s.rpl.startAt → Completes .replayStart s (SameBut [] s)) ∧
  (∀ s, Live s → s.md.mode = .replay → s.rpl.st = 2 → dueEntry s = none → Completes .replayEntry s (SameBut [] s)) ∧
  (∀ s e d c m i h p, Live s → s.md.mode = .replay → s.rpl.st = 2 → dueEntry s = some e → e.pay = .cmd d c m i →
    specOf i { s with rpl := { s.rpl with todo := s.rpl.todo.erase e } } = some (h, p) → replaySkips p.op = true →
    Completes .replayEntry s (SameBut [] { s with rpl := { s.rpl with todo := s.rpl.todo.erase e } })) ∧
  (∀ s e d c m h u, Live s → s.md.mode = .replay → s.rpl.st = 2 → dueEntry s = some e → e.pay = .cmd d c m (.cellStart h u) →
    Completes .replayEntry s (SameBut [] { s with
      rpl := { s.rpl with todo := s.rpl.todo.erase e }, kpr := { s.kpr with nextSerial := s.kpr.nextSerial + 1 },
      held := s.held ++ [⟨d + s.rpl.delta, s.time.tick, c, 4, h.seq, s.kpr.nextSerial, false, .cellStart h u⟩] })) ∧
  (∀ s e d c m h a b k f g i x, Live s → s.md.mode = .replay → s.rpl.st = 2 → dueEntry s = some e →
    e.pay = .cmd d c m (.modeSet h a b k f g i) →
    x = (⟨d + s.rpl.delta, s.time.tick, c, 4, h.seq, s.kpr.nextSerial, false, .modeSet h a b k f g i⟩ : Held) →
    Completes .replayEntry s (SameBut [] { s with
      rpl := { s.rpl with todo := s.rpl.todo.erase e }, kpr := { s.kpr with nextSerial := s.kpr.nextSerial + 1 },
      held := s.held ++ [x] })) ∧
  (∀ s e v, Live s → s.md.mode = .replay → s.rpl.st = 2 → dueEntry s = some e → e.pay = .event v false → wagCarries s = true →
    Completes .replayEntry s fun t =>
      t.hops = s.hops ++ [⟨v.origin + s.rpl.delta + 2, ⟨v.origin + s.rpl.delta, 0, v.level, v.gen, v.srcId, v.taint⟩, .producer, false⟩] ∧
      (∀ q, q ≠ bits v.srcId 0 10 → pinAt t q = pinAt s q) ∧ t.rpl = { s.rpl with todo := s.rpl.todo.erase e } ∧
      SameBut [.hops, .pins, .rpl] s t) ∧
  (∀ s e v, Live s → s.md.mode = .replay → s.rpl.st = 2 → dueEntry s = some e → e.pay = .event v true → wagCarries s = true →
    Completes .replayEntry s (SameBut [] { s with
      rpl := { s.rpl with todo := s.rpl.todo.erase e },
      hops := s.hops ++ [⟨v.origin + s.rpl.delta + 2, { v with origin := v.origin + s.rpl.delta }, .onto v.channel, true⟩] })) ∧
  (∀ s e c n u, Live s → s.md.mode = .replay → s.rpl.st = 2 → dueEntry s = some e → e.pay = .state 1 c n u →
    (cellAt s c).st = .running → Completes .replayEntry s fun t =>
      (cellAt t c).st = .bound ∧ (∀ k, k ≠ c → cellAt t k = cellAt s k) ∧
      SameBut [.cells, .active, .queues, .hives, .inner, .jnl, .rpl] s t) ∧
  (∀ s, Live s → s.md.mode = .replay → s.rpl.st = 2 → s.rpl.stopAt = none → regionOver s = false → Completes .replayEnd s
    (SameBut [] s)) ∧
  (∀ s n, Live s → s.md.mode = .replay → s.rpl.st = 2 → s.rpl.stopAt = some n → s.time.tick ≤ n → Completes .replayEnd s
    (SameBut [] s)) ∧
  (∀ s n, Live s → s.md.mode = .replay → s.rpl.st = 2 → s.rpl.stopAt = some n → n < s.time.tick → Completes .replayEnd s fun t =>
    t.md.mode = .idle ∧ t.md.prev = .replay ∧ t.md.since = 16 * (n + 1) ∧ t.rpl.st = 4 ∧
    t.rpl.todo = [] ∧ t.rpl.misValid = s.rpl.misValid ∧ (∀ c, ∃ n, cellAt t c = { epoch := n }) ∧ (∀ c, ∃ n, capAt t c = { epoch := n }) ∧
    (∀ q, ∃ n, queueAt t q = { epoch := n }) ∧ t.tasks = [] ∧ t.hops = [] ∧ t.doorbells = [] ∧ t.active = [] ∧
    t.grave.restoreCause = 8 ∧
    SameBut [.md, .rpl, .active, .auxs, .caps, .cells, .chans, .col, .counters, .dmcs, .doorbells, .grave, .held, .hives, .hops, .inner, .jnl, .links,
      .pins, .queues, .tasks, .timers, .wagEpoch] s t) ∧
  (∀ s, Live s → s.md.mode = .replay → s.rpl.st = 2 → s.rpl.stopAt = none → regionOver s = true → Completes .replayEnd s fun t =>
    t.md.mode = .idle ∧ t.md.prev = .replay ∧ t.md.since = 16 * (s.rpl.e + s.rpl.delta) ∧ t.rpl.st = 3 ∧
    t.rpl.todo = [] ∧ t.rpl.misValid = s.rpl.misValid ∧ (∀ c, ∃ n, cellAt t c = { epoch := n }) ∧ (∀ c, ∃ n, capAt t c = { epoch := n }) ∧
    (∀ q, ∃ n, queueAt t q = { epoch := n }) ∧ t.tasks = [] ∧ t.hops = [] ∧ t.doorbells = [] ∧ t.active = [] ∧
    t.grave.restoreCause = 8 ∧
    SameBut [.md, .rpl, .active, .auxs, .caps, .cells, .chans, .col, .counters, .dmcs, .doorbells, .grave, .held, .hives, .hops, .inner, .jnl, .links,
      .pins, .queues, .tasks, .timers, .wagEpoch] s t)

/-- A step runs the command at the front of the queue on the state with the queue's rest. -/
def Obligations.StepRunsFrontCommand : Prop :=
  ∀ s c r, s.pending = c :: r → step s = exec c { s with pending := r }

/-- With an empty queue one launch tick passes (R30, R31, R32). THE MODEL'S CHOICE, log 1: the table has no row for a tick, so a
step on an empty queue is one. While the block is off nothing happens; where no entry to SAFE, restart, warm reset or end of a
calibration run falls due, only device time moves, by one tick; a restart of the keeper that falls due begins (R317); a warm reset that
falls due begins (R425); the origin mode follows a calibration run at the first tick after it (R20). -/
def Obligations.IdleStepTicks : Prop :=
  (∀ s, s.pending = [] → alive s = false → step s = .next s) ∧
  (∀ s, s.pending = [] → alive s = true → (∀ d ∈ s.grave.due, s.time.tick + 1 < d.1) →
    (∀ r, s.kpr.restartAt = some r → s.time.tick + 1 < r) → (∀ r, s.kpr.resetAt = some r → s.time.tick + 1 < r) →
    (∀ n, s.md.leave = some n → s.time.tick + 1 < n) →
    ∃ t, step s = .next t ∧ SameBut [] { s with time := { s.time with tick := s.time.tick + 1 } } t) ∧
  (∀ s r, s.pending = [] → alive s = true → (∀ d ∈ s.grave.due, s.time.tick + 1 < d.1) → s.kpr.restartAt = some r →
    r ≤ s.time.tick + 1 → s.kpr.resetAt = none →
    ∃ t, step s = .next t ∧ t.time = { s.time with tick := s.time.tick + 1 } ∧ t.kpr.st = 3 ∧ t.kpr.ready = false ∧
      t.kpr.restartAt = none ∧ t.kpr.restartImg = s.kpr.restartImg ∧ t.kpr.restarts = sat 0xFF s.kpr.restarts) ∧
  (∀ s r, s.pending = [] → alive s = true → (∀ d ∈ s.grave.due, s.time.tick + 1 < d.1) → s.kpr.restartAt = none →
    s.kpr.resetAt = some r → r ≤ s.time.tick + 1 →
    ∃ t, step s = .next t ∧ t.time.tick = s.time.tick + 1 ∧ t.md.mode = .bringUp ∧ t.kpr.st = 3 ∧ t.kpr.ready = false ∧
      t.kpr.resetAt = none ∧ t.held = [] ∧ t.works = []) ∧
  (∀ s n, s.pending = [] → alive s = true → (∀ d ∈ s.grave.due, s.time.tick + 1 < d.1) → s.kpr.restartAt = none →
    s.kpr.resetAt = none → s.md.mode = .calibrate → s.md.leave = some n → n ≤ s.time.tick + 1 →
    ∃ t, step s = .next t ∧ t.time.tick = s.time.tick + 1 ∧ t.md.mode = s.md.origin ∧ t.md.prev = .calibrate ∧
      t.md.since = 16 * n ∧ t.md.leave = none)

/-- Waiting commands run first in, first out, one a step: as many steps as commands wait leave what was queued behind them, whatever
they are, or one of them named a unit the device does not have. No command is refused, and none changes the queue. -/
def Obligations.QueueRunsDry : Prop :=
  (∀ s c t, exec c s = .next t → t.pending = s.pending) ∧
  (∀ (cs ds : List Instr) (s : State), s.pending = cs ++ ds →
    (∃ t : State, core.run cs.length s = .next t ∧ t.pending = ds) ∨ core.run cs.length s = .fault Fault.absentUnit)

/-- Every command answers a next state where the unit, mailbox or port that it names is there, whatever else its operands and the state
are, and stops where it is not (R2, R3): no command is refused; both ends of each range of units. Unpowered or held in reset, the
device does nothing (R19, R426): no command but those of the supplies and RESET_N changes anything. -/
def Obligations.Outcomes : Prop :=
  (∀ s c, unitHere s c = true → ∃ t, exec c s = .next t) ∧
  (∀ s c, unitHere s c = false → exec c s = .fault .absentUnit) ∧
  (∀ s c, (∃ t, exec c s = .next t) ∨ exec c s = .fault .absentUnit) ∧
  (∀ s c l, exec (.sampleEmission c l) s = .fault .absentUnit ↔ nCells s ≤ c) ∧
  (∀ s h b, exec (.combBankCleared h b) s = .fault .absentUnit ↔ nHives s ≤ h) ∧
  (∀ s c, exec (.dramClearDone c) s = .fault .absentUnit ↔ nDmc s ≤ c) ∧
  (∀ s p l, exec (.evpEdge p l) s = .fault .absentUnit ↔ 32 ≤ p) ∧
  (∀ s c m, exec (.post c m) s = .fault .absentUnit ↔ 16 ≤ c ∨ 4 ≤ m) ∧
  (∀ s, s.dev.variant = .zw1024 → nCells s = 1024 ∧ nHives s = 64 ∧ nDmc s = 4) ∧
  (∀ s, s.dev.variant = .zw0256 → nCells s = 256 ∧ nHives s = 16 ∧ nDmc s = 2) ∧
  (∀ s c t, alive s = false → powerRow c = false → exec c s = .next t → t = s)

/-- Epochs and the STATE cause (R28, R259, R321, R340, R341, R406): while the block is alive, a command after which MODE_STATE, a
bit of READY0 to READY3, the keeper's STATE, ACTIVE_IMG or PREF_IMG, a colony register, the power registers, or the lifecycle or debug
level differ has moved the epoch that counts such changes; where MODE_STATE, the ready bits or the keeper's STATE differ, the STATE
cause stands in every context.
Where the chapter leaves a point open, the clauses follow the model's readings, log 44. -/
def Obligations.EpochsCount : Prop :=
  ∀ s c t, alive s = true → powerRow c = false → exec c s = .next t →
    (modeState t ≠ modeState s → t.md.epoch ≠ s.md.epoch) ∧
    ((ready0 t ≠ ready0 s ∨ ready1 t ≠ ready1 s ∨ ready2 t ≠ ready2 s ∨ ready3 t ≠ ready3 s) →
      t.kpr.readyEpoch ≠ s.kpr.readyEpoch) ∧
    ((t.kpr.st ≠ s.kpr.st ∨ t.kpr.activeImg ≠ s.kpr.activeImg ∨ t.dev.prefImg ≠ s.dev.prefImg) → t.kpr.epoch ≠ s.kpr.epoch) ∧
    (colKey t ≠ colKey s → t.col.epoch ≠ s.col.epoch) ∧
    (pwrKey t ≠ pwrKey s → t.sec.pwrEpoch ≠ s.sec.pwrEpoch) ∧
    ((t.dev.lifecycle ≠ s.dev.lifecycle ∨ t.sec.dbg ≠ s.sec.dbg) → t.sec.epoch ≠ s.sec.epoch) ∧
    ((modeState t ≠ modeState s ∨ ready0 t ≠ ready0 s ∨ ready1 t ≠ ready1 s ∨ ready2 t ≠ ready2 s ∨ ready3 t ≠ ready3 s ∨
        t.kpr.st ≠ s.kpr.st) → ∀ k, k < 16 → (ctxAt t k).irqStatus.getLsbD 6 = true)

/-- The block right after reset (R10, R18, R28, R29, R39, R51, R300, R321, R341, R343, R426, R427): BRING-UP, device time 0 and not
ready, nothing ready, no command accepted, epochs 0, H = 48 ticks, VDD_CORE limits as given, causes enabled, every context free to
use any SEQ, class 26's scrub on, all classes named in RESTORE_STATUS. That power and RESET_N are up is log 2; that the
memories and tables are in canonical form, the model's own. -/
def Obligations.ResetState : Prop :=
  State.reset.md.mode = .bringUp ∧ State.reset.md.epoch = 0 ∧ State.reset.md.resetOnly = false ∧ modeState State.reset = 0 ∧
  State.reset.time.tick = 0 ∧ State.reset.time.ready = false ∧ State.reset.time.horizon = 48 ∧
  ready1 State.reset = 0 ∧ ready2 State.reset = 0 ∧ ready3 State.reset = 0 ∧ State.reset.kpr.ready = false ∧
  State.reset.kpr.readyEpoch = 0 ∧ State.reset.kpr.epoch = 0 ∧ State.reset.kpr.st = 0 ∧
  State.reset.pace.floor = 650 ∧ State.reset.pace.ceiling = 850 ∧ State.reset.pace.vset = 850 ∧
  (∀ k, (ctxAt State.reset k).irqMask = 0xFF ∧ (ctxAt State.reset k).irqStatus = 0 ∧ (ctxAt State.reset k).enabled = true) ∧
  (∀ k m, (mbAt State.reset k m).seqFree = true ∧ (mbAt State.reset k m).pending = false ∧
    (mbAt State.reset k m).replyValid = false ∧ (mbAt State.reset k m).lastSeq = 0) ∧
  (∀ c, (cellAt State.reset c).st = .off ∧ (cellAt State.reset c).epoch = 0 ∧ (capAt State.reset c).st = .off ∧
    (cellOwner State.reset c) = {}) ∧
  (∀ b, (fltAt State.reset b).status = 0 ∧ (fltAt State.reset b).mask = 0) ∧
  State.reset.held = [] ∧ State.reset.works = [] ∧ State.reset.pending = [] ∧ State.reset.hops = [] ∧
  State.reset.comb = [] ∧ State.reset.dram = [] ∧ State.reset.ceLimit = 64 ∧ State.reset.scrubOn = true ∧
  State.reset.grave.restoreCause = 1 ∧ State.reset.grave.held = false ∧ Canon State.reset

/-- Every step keeps the memories and unit tables in canonical form, so that equal contents are equal data: numbers strictly rising, no
entry at its power-on value. That form is the model's own. -/
def Obligations.StepKeepsCanon : Prop :=
  ∀ s t, Canon s → step s = .next t → Canon t

/-- Device time never steps and never runs backwards once it is ready (R31): no command but those of the supplies and RESET_N
moves it or takes its readiness, and a step on an empty queue of a live block moves it by exactly one tick (log 1 makes that step a
tick). -/
def Obligations.DeviceTimeNeverSteps : Prop :=
  (∀ s c t, s.time.ready = true → powerRow c = false → exec c s = .next t →
    t.time.tick = s.time.tick ∧ t.time.ready = true) ∧
  (∀ s t, s.time.ready = true → alive s = true → s.pending = [] → step s = .next t →
    t.time.tick = s.time.tick + 1 ∧ t.time.ready = true)

/-- Owners change only by a decided command (R123, R296, R386, R387): no other event moves a cell's or a DRAM
region's owner, nor a comb region's but for a loss of the retained supply. -/
def Obligations.OwnersKept : Prop :=
  ∀ s c t, powerRow c = false → c ≠ .commandDecision → exec c s = .next t →
    t.cellOwn = s.cellOwn ∧ t.dramOwn = s.dramOwn ∧
    (c ≠ .retainLoss → t.combOwn = s.combOwn)

/-- An accepted Berza command (R15, R38, R47, R57, R316, R327, R333), for all 118: NOP, DEVICE_INFO, READY_READ, WINDOW_READ, MODE_SET,
WARM_RESET, KEEPER_RESTART, HOST_SET, BULK_WINDOW_SET, FW_INFO, FW_STAGE, FW_DATA, FW_VERIFY, FW_SELECT, FW_COMMIT and every
other constructor `c` that `specOf` reads. LAST_SEQ is its SEQ, SEQ_FREE and REFUSED are clear; where a unit
holds it, the command waits there with its decision tick, acceptance tick, context, mailbox and SEQ, last in the order of
acceptance; a command that is answered at its acceptance has its reply, E_OK with its decision tick and RESULT, in the mailbox; any
other has its reply slot reserved. Beside that, the state is the one in which it was posted, with the acceptance journaled and what
the command does at once (`MODE_SET`, which may end another's wait, is in the first clause alone). Where the keeper's shadow of the unit it reads
disagrees with hardware, the divergence is noted first (R344). NOP returns what it carries,
DEVICE_INFO, FW_INFO, SYN_COEF_READ and CAL_READ what they name (R117, R336, R365).
Where the chapter leaves a point open, the clauses follow the model's readings, log 28, 29. -/
def Obligations.Acceptance : Prop :=
  (∀ s c h p, specOf c s = some (h, p) → Accepts s h p → Completes c s
    (SameBut [] (accept (findStale h p (modMb s h.ctx h.mb fun m => { m with refused := false })) h c p))) ∧
  (∀ s c h p, specOf c s = some (h, p) → Accepts s h p → h.stale = false → p.op ≠ 0x0020 → Completes c s fun t =>
    (mbAt t h.ctx h.mb).lastSeq = h.seq ∧ (mbAt t h.ctx h.mb).seqFree = false ∧ (mbAt t h.ctx h.mb).refused = false ∧
    (p.cls ≠ .a → (mbAt t h.ctx h.mb).pending = true ∧
      (mbAt t h.ctx h.mb).owed = some ⟨p.op, h.seq, false, decTick s h p⟩) ∧
    (p.cls = .a → (mbAt s h.ctx h.mb).tunnel = none → (mbAt t h.ctx h.mb).replyValid = true ∧
      (ctxAt t h.ctx).irqStatus.getLsbD h.mb = true ∧
      ∃ r, (mbAt t h.ctx h.mb).reply = some r ∧ r.opcode = p.op ∧ r.seq = h.seq ∧ r.status = .ok ∧
        r.decTick = decTick s h p ∧ r.sampleTick = s.time.tick ∧ r.result = p.result) ∧
    (p.hold = true → t.held = s.held ++ [⟨decTick s h p, s.time.tick, h.ctx, h.mb, h.seq, s.kpr.nextSerial, decide (p.cls ≠ .a), c⟩] ∧
      t.kpr.nextSerial = s.kpr.nextSerial + 1) ∧
    (p.hold = false → t.held = s.held)) ∧
  (∀ s h a p, specOf (.nop h a) s = some (h, p) → Accepts s h p → h.stale = false → Completes (.nop h a) s fun t =>
    SameBut [.mailboxes, .col, .jnl] s t ∧
    ((mbAt s h.ctx h.mb).tunnel = none → ∃ r, (mbAt t h.ctx h.mb).reply = some r ∧ r.status = .ok ∧ r.result = fit 34 a)) ∧
  (∀ s h p, specOf (.deviceInfo h) s = some (h, p) → Accepts s h p → h.stale = false → Completes (.deviceInfo h) s fun t =>
    SameBut [.mailboxes, .col, .jnl] s t ∧
    ((mbAt s h.ctx h.mb).tunnel = none →
      ∃ r, (mbAt t h.ctx h.mb).reply = some r ∧ r.status = .ok ∧ r.result = deviceInfoRes s)) ∧
  (∀ s h p, specOf (.fwInfo h) s = some (h, p) → Accepts s h p → h.stale = false → Completes (.fwInfo h) s fun t =>
    SameBut [.mailboxes, .col, .jnl] s t ∧
    ((mbAt s h.ctx h.mb).tunnel = none →
      ∃ r, (mbAt t h.ctx h.mb).reply = some r ∧ r.status = .ok ∧ r.result = (specFwInfo s).result)) ∧
  (∀ s h n p, specOf (.synCoefRead h n) s = some (h, p) → Accepts s h p → h.stale = false → Completes (.synCoefRead h n) s fun t =>
    (mbAt s h.ctx h.mb).tunnel = none → ∃ r, (mbAt t h.ctx h.mb).reply = some r ∧ r.status = .ok ∧ r.result = coefBytes n) ∧
  (∀ s h k i o p b, specOf (.calRead h k i o) s = some (h, p) → Accepts s h p → h.stale = false → calReadBytes s k i o = some b →
    Completes (.calRead h k i o) s fun t =>
      (mbAt s h.ctx h.mb).tunnel = none → ∃ r, (mbAt t h.ctx h.mb).reply = some r ∧ r.status = .ok ∧ r.result = b)

/-- A frame that is not accepted (R11, R21, R26, R38, R318, R327, R333, R342, R343, R385): refused, with nothing but REFUSED set; or answered
at once with the error of the first rule it breaks, in R327's order, and with no other effect than a rejection's own: a whole frame
where another was to be continued; SEQ repeated or out of order; context disabled or not permitted; a function not ready or a
firmware in RECOVERY; a mode that does not permit it; an effective tick past or too far; a stale epoch; the command's own checks.
Where the chapter leaves a point open, the clauses follow the model's readings, log 34. -/
def Obligations.Rejections : Prop :=
  (∀ s c h p, specOf c s = some (h, p) → Live s → h.ctx < 16 → h.mb < 4 → refusesPost s h.ctx h.mb = true →
    Completes c s (SameBut [] (modMb s h.ctx h.mb fun m => { m with refused := true }))) ∧
  (∀ s c h p, specOf c s = some (h, p) → Live s → h.ctx < 16 → h.mb < 4 → refusesPost s h.ctx h.mb = false →
    (mbAt s h.ctx h.mb).asm.isSome = true → Completes c s fun t =>
      Rejected s t h.ctx h.mb p.op h.seq .badFrame [] ∧ (mbAt t h.ctx h.mb).asm = none ∧
      SameBut [.mailboxes, .col, .faults] s t) ∧
  (∀ s c h p e r, specOf c s = some (h, p) → Live s → h.ctx < 16 → h.mb < 4 → refusesPost s h.ctx h.mb = false →
    (mbAt s h.ctx h.mb).asm = none → seqErr s h.ctx h.mb h.seq = some (e, r) → Completes c s fun t =>
      Rejected s t h.ctx h.mb p.op h.seq e r ∧ (mbAt t h.ctx h.mb).lastSeq = (mbAt s h.ctx h.mb).lastSeq ∧
      SameBut [.mailboxes, .col] s t) ∧
  (∀ s c h p e, specOf c s = some (h, p) → Live s → h.ctx < 16 → h.mb < 4 → refusesPost s h.ctx h.mb = false →
    (mbAt s h.ctx h.mb).asm = none → seqErr s h.ctx h.mb h.seq = none → judgeErr s h p = some e → Completes c s fun t =>
      Rejected s t h.ctx h.mb p.op h.seq e (if p.err = some e then p.errData else []) ∧
      (mbAt t h.ctx h.mb).lastSeq = (mbAt s h.ctx h.mb).lastSeq ∧ (mbAt t h.ctx h.mb).seqFree = (mbAt s h.ctx h.mb).seqFree ∧
      (h.stale = false → t.held = s.held ∧ (p.err ≠ some e → SameBut [.mailboxes, .col, .faults] s t))) ∧
  (∀ s c m q, (mbAt s c m).seqFree = false → q = (mbAt s c m).lastSeq → (seqErr s c m q).map (·.1) = some .duplicate) ∧
  (∀ s c m q, (mbAt s c m).seqFree = false → q ≠ (mbAt s c m).lastSeq → q ≠ ((mbAt s c m).lastSeq + 1) % 65536 →
    seqErr s c m q = some (.badSeq, [])) ∧
  (∀ s h p, p.permitted = false ∨ ctxEnabled s h.ctx = false → judgeErr s h p = some .denied) ∧
  (∀ s h p, p.permitted = true → ctxEnabled s h.ctx = true → (p.noTime = false ∧ s.time.ready = false) ∨ p.ready = false ∨
    (s.kpr.st = 4 ∧ recoveryOp p.op = false) → judgeErr s h p = some .notReady) ∧
  (∀ s h p, judgeErr s h p = none → s.md.mode = .replay → replayOp p.op = true) ∧
  (∀ s h p, judgeErr s h p = none → h.eff = 0 ∨
    (s.time.tick + s.time.horizon ≤ h.eff ∧ h.eff ≤ s.time.tick + 2 ^ 40)) ∧
  (∀ s h p, judgeErr s h p = none → h.chk = true → h.epoch = epochOf s p.unit)

/-- Which accepted command is decided first (R38, R60, R62): of the commands that the units hold, one of the earliest
decision tick, of those one of the lowest rank, of those the first accepted; and nothing is decided before its tick or while
something that comes before it is still to happen. The ranks beside those of R60 and R62 are the model's choice, log 17. -/
def Obligations.DecisionOrder : Prop :=
  (∀ l x, firstHeld l = some x → x ∈ l ∧ ∀ y ∈ l, heldBefore y x = false) ∧
  (∀ l x, x ∈ l → (firstHeld l).isSome = true) ∧
  (∀ s, Live s → firstHeld s.held = none → Completes .commandDecision s (SameBut [] s)) ∧
  (∀ s x, Live s → firstHeld s.held = some x → s.time.tick < x.dec → Completes .commandDecision s (SameBut [] s)) ∧
  (∀ s x, Live s → firstHeld s.held = some x → mustWait s x = true → Completes .commandDecision s (SameBut [] s)) ∧
  (∀ a b, a.dec < b.dec → heldBefore a b = true ∧ heldBefore b a = false) ∧
  (∀ a b h c, a.dec = b.dec → a.cmd = .cellStop h c → (∃ g k, b.cmd = .cellStart g k) → heldBefore a b = true)

/-- R328: MB_RESET clears REPLY_VALID, REFUSED and DIVERGED, sets SEQ_FREE and abandons a command being assembled, with nothing else
changed, and is ignored while PENDING is 1 (R321); power-on, warm reset and keeper restart set SEQ_FREE on every mailbox. -/
def Obligations.MailboxReset : Prop :=
  (∀ s c m, Live s → c < 16 → m < 4 → (mbAt s c m).pending = false → Completes (.mbReset c m) s fun t =>
    mbAt t c m = { mbAt s c m with
      replyValid := false, refused := false, diverged := false, seqFree := true, asm := none, multi := false } ∧
    (∀ d n, 4 * d + n ≠ 4 * c + m → mbAt t d n = mbAt s d n) ∧ SameBut [.mailboxes] s t) ∧
  (∀ s c m, Live s → c < 16 → m < 4 → (mbAt s c m).pending = true → Completes (.mbReset c m) s (SameBut [] s)) ∧
  (∀ s, s.dev.powered = false → Completes .powerOn s fun t => ∀ c m, c < 16 → m < 4 → (mbAt t c m).seqFree = true) ∧
  (∀ s x h, Decides s x (.warmReset h) → x.mb < 4 → warmBlocked (reached s x) = false → Completes .commandDecision s fun t =>
    ∀ c m, c < 16 → m < 4 → (mbAt t c m).seqFree = true) ∧
  (∀ s, Live s → s.kpr.ready = true → s.sec.halted = false → s.md.mode ≠ .standby → Completes .firmwareErrorRestart s fun t =>
    ∀ c m, c < 16 → m < 4 → (mbAt t c m).seqFree = true) ∧
  (∀ s, Live s → s.kpr.ready = true → s.sec.halted = false → s.md.mode ≠ .standby → Completes .wdog s fun t =>
    ∀ c m, c < 16 → m < 4 → (mbAt t c m).seqFree = true)

/-- R319: PCIE_PERST_N resets the endpoint only, so the mode, running cells, contexts, mailboxes and held replies stay; the loss of
the PCIe link sets PCIE_DOWN at class 0 and has no other effect. -/
def Obligations.EndpointReset : Prop :=
  (∀ s, Live s → Completes .pciePerst s fun t =>
    t.kpr.pcieUp = false ∧
    (∀ k, ctxAt t k = { ctxAt s k with irqStatus := (ctxAt t k).irqStatus }) ∧
    SameBut [.contexts, .msixTable] { s with kpr := { s.kpr with pcieUp := false } } t) ∧
  (∀ s, Live s → s.kpr.pcieUp = true → (fltAt s .kpr).mask.getLsbD 5 = false → Completes .pcieDown s fun t =>
    (fltAt t .kpr).status.getLsbD 5 = true ∧ (∀ b, b ≠ .kpr → fltAt t b = fltAt s b) ∧
    SameBut [.faults] { s with kpr := { s.kpr with pcieUp := false } } t) ∧
  (∀ s, Live s → s.kpr.pcieUp = true → (fltAt s .kpr).mask.getLsbD 5 = true → Completes .pcieDown s
    (SameBut [] { s with kpr := { s.kpr with pcieUp := false } }))

end
end

