-- ==== Sys2Proof/Laws/State.lean ====
section
/-! SUPPORT. What each record update of the state leaves alone: one lemma for each field of each update, by `rfl`. -/

namespace Sys2Proof.Laws

open Sys2Proof Sys2Proof.Machine

set_option Elab.async false

variable (s : State)

/-! ### putCell -/

@[simp] theorem putCell_dev (i : Nat) (x : Cell) : (putCell s i x).dev = s.dev := rfl
@[simp] theorem putCell_md (i : Nat) (x : Cell) : (putCell s i x).md = s.md := rfl
@[simp] theorem putCell_time (i : Nat) (x : Cell) : (putCell s i x).time = s.time := rfl
@[simp] theorem putCell_pace (i : Nat) (x : Cell) : (putCell s i x).pace = s.pace := rfl
@[simp] theorem putCell_kpr (i : Nat) (x : Cell) : (putCell s i x).kpr = s.kpr := rfl
@[simp] theorem putCell_svc (i : Nat) (x : Cell) : (putCell s i x).svc = s.svc := rfl
@[simp] theorem putCell_sec (i : Nat) (x : Cell) : (putCell s i x).sec = s.sec := rfl
@[simp] theorem putCell_grave (i : Nat) (x : Cell) : (putCell s i x).grave = s.grave := rfl
@[simp] theorem putCell_faults (i : Nat) (x : Cell) : (putCell s i x).faults = s.faults := rfl
@[simp] theorem putCell_mailboxes (i : Nat) (x : Cell) : (putCell s i x).mailboxes = s.mailboxes := rfl
@[simp] theorem putCell_contexts (i : Nat) (x : Cell) : (putCell s i x).contexts = s.contexts := rfl
@[simp] theorem putCell_msix (i : Nat) (x : Cell) : (putCell s i x).msix = s.msix := rfl
@[simp] theorem putCell_msixOpen (i : Nat) (x : Cell) : (putCell s i x).msixOpen = s.msixOpen := rfl
@[simp] theorem putCell_msixPba (i : Nat) (x : Cell) : (putCell s i x).msixPba = s.msixPba := rfl
@[simp] theorem putCell_msixTable (i : Nat) (x : Cell) : (putCell s i x).msixTable = s.msixTable := rfl
@[simp] theorem putCell_held (i : Nat) (x : Cell) : (putCell s i x).held = s.held := rfl
@[simp] theorem putCell_works (i : Nat) (x : Cell) : (putCell s i x).works = s.works := rfl
@[simp] theorem putCell_cellOwn (i : Nat) (x : Cell) : (putCell s i x).cellOwn = s.cellOwn := rfl
@[simp] theorem putCell_hives (i : Nat) (x : Cell) : (putCell s i x).hives = s.hives := rfl
@[simp] theorem putCell_comb (i : Nat) (x : Cell) : (putCell s i x).comb = s.comb := rfl
@[simp] theorem putCell_scratch (i : Nat) (x : Cell) : (putCell s i x).scratch = s.scratch := rfl
@[simp] theorem putCell_inner (i : Nat) (x : Cell) : (putCell s i x).inner = s.inner := rfl
@[simp] theorem putCell_combUe (i : Nat) (x : Cell) : (putCell s i x).combUe = s.combUe := rfl
@[simp] theorem putCell_combCe (i : Nat) (x : Cell) : (putCell s i x).combCe = s.combCe := rfl
@[simp] theorem putCell_active (i : Nat) (x : Cell) : (putCell s i x).active = s.active := rfl
@[simp] theorem putCell_combOwn (i : Nat) (x : Cell) : (putCell s i x).combOwn = s.combOwn := rfl
@[simp] theorem putCell_queues (i : Nat) (x : Cell) : (putCell s i x).queues = s.queues := rfl
@[simp] theorem putCell_doorbells (i : Nat) (x : Cell) : (putCell s i x).doorbells = s.doorbells := rfl
@[simp] theorem putCell_caps (i : Nat) (x : Cell) : (putCell s i x).caps = s.caps := rfl
@[simp] theorem putCell_chans (i : Nat) (x : Cell) : (putCell s i x).chans = s.chans := rfl
@[simp] theorem putCell_tasks (i : Nat) (x : Cell) : (putCell s i x).tasks = s.tasks := rfl
@[simp] theorem putCell_counters (i : Nat) (x : Cell) : (putCell s i x).counters = s.counters := rfl
@[simp] theorem putCell_timers (i : Nat) (x : Cell) : (putCell s i x).timers = s.timers := rfl
@[simp] theorem putCell_pins (i : Nat) (x : Cell) : (putCell s i x).pins = s.pins := rfl
@[simp] theorem putCell_hops (i : Nat) (x : Cell) : (putCell s i x).hops = s.hops := rfl
@[simp] theorem putCell_wagEpoch (i : Nat) (x : Cell) : (putCell s i x).wagEpoch = s.wagEpoch := rfl
@[simp] theorem putCell_domains (i : Nat) (x : Cell) : (putCell s i x).domains = s.domains := rfl
@[simp] theorem putCell_col (i : Nat) (x : Cell) : (putCell s i x).col = s.col := rfl
@[simp] theorem putCell_links (i : Nat) (x : Cell) : (putCell s i x).links = s.links := rfl
@[simp] theorem putCell_rxLanes (i : Nat) (x : Cell) : (putCell s i x).rxLanes = s.rxLanes := rfl
@[simp] theorem putCell_dmcs (i : Nat) (x : Cell) : (putCell s i x).dmcs = s.dmcs := rfl
@[simp] theorem putCell_dram (i : Nat) (x : Cell) : (putCell s i x).dram = s.dram := rfl
@[simp] theorem putCell_dramUe (i : Nat) (x : Cell) : (putCell s i x).dramUe = s.dramUe := rfl
@[simp] theorem putCell_dramCe (i : Nat) (x : Cell) : (putCell s i x).dramCe = s.dramCe := rfl
@[simp] theorem putCell_dramOwn (i : Nat) (x : Cell) : (putCell s i x).dramOwn = s.dramOwn := rfl
@[simp] theorem putCell_dramSystem (i : Nat) (x : Cell) : (putCell s i x).dramSystem = s.dramSystem := rfl
@[simp] theorem putCell_interleave (i : Nat) (x : Cell) : (putCell s i x).interleave = s.interleave := rfl
@[simp] theorem putCell_ctxBase (i : Nat) (x : Cell) : (putCell s i x).ctxBase = s.ctxBase := rfl
@[simp] theorem putCell_ageLimit (i : Nat) (x : Cell) : (putCell s i x).ageLimit = s.ageLimit := rfl
@[simp] theorem putCell_minMargin (i : Nat) (x : Cell) : (putCell s i x).minMargin = s.minMargin := rfl
@[simp] theorem putCell_trackH (i : Nat) (x : Cell) : (putCell s i x).trackH = s.trackH := rfl
@[simp] theorem putCell_ceLimit (i : Nat) (x : Cell) : (putCell s i x).ceLimit = s.ceLimit := rfl
@[simp] theorem putCell_scrubOn (i : Nat) (x : Cell) : (putCell s i x).scrubOn = s.scrubOn := rfl
@[simp] theorem putCell_scrubPeriod (i : Nat) (x : Cell) : (putCell s i x).scrubPeriod = s.scrubPeriod := rfl
@[simp] theorem putCell_auxs (i : Nat) (x : Cell) : (putCell s i x).auxs = s.auxs := rfl
@[simp] theorem putCell_auxClrN (i : Nat) (x : Cell) : (putCell s i x).auxClrN = s.auxClrN := rfl
@[simp] theorem putCell_jnl (i : Nat) (x : Cell) : (putCell s i x).jnl = s.jnl := rfl
@[simp] theorem putCell_rpl (i : Nat) (x : Cell) : (putCell s i x).rpl = s.rpl := rfl
@[simp] theorem putCell_bus (i : Nat) (x : Cell) : (putCell s i x).bus = s.bus := rfl
@[simp] theorem putCell_bulk (i : Nat) (x : Cell) : (putCell s i x).bulk = s.bulk := rfl
@[simp] theorem putCell_free (i : Nat) (x : Cell) : (putCell s i x).free = s.free := rfl
@[simp] theorem putCell_pending (i : Nat) (x : Cell) : (putCell s i x).pending = s.pending := rfl

/-! ### modCell -/

@[simp] theorem modCell_dev (i : Nat) (f : Cell → Cell) : (modCell s i f).dev = s.dev := rfl
@[simp] theorem modCell_md (i : Nat) (f : Cell → Cell) : (modCell s i f).md = s.md := rfl
@[simp] theorem modCell_time (i : Nat) (f : Cell → Cell) : (modCell s i f).time = s.time := rfl
@[simp] theorem modCell_pace (i : Nat) (f : Cell → Cell) : (modCell s i f).pace = s.pace := rfl
@[simp] theorem modCell_kpr (i : Nat) (f : Cell → Cell) : (modCell s i f).kpr = s.kpr := rfl
@[simp] theorem modCell_svc (i : Nat) (f : Cell → Cell) : (modCell s i f).svc = s.svc := rfl
@[simp] theorem modCell_sec (i : Nat) (f : Cell → Cell) : (modCell s i f).sec = s.sec := rfl
@[simp] theorem modCell_grave (i : Nat) (f : Cell → Cell) : (modCell s i f).grave = s.grave := rfl
@[simp] theorem modCell_faults (i : Nat) (f : Cell → Cell) : (modCell s i f).faults = s.faults := rfl
@[simp] theorem modCell_mailboxes (i : Nat) (f : Cell → Cell) : (modCell s i f).mailboxes = s.mailboxes := rfl
@[simp] theorem modCell_contexts (i : Nat) (f : Cell → Cell) : (modCell s i f).contexts = s.contexts := rfl
@[simp] theorem modCell_msix (i : Nat) (f : Cell → Cell) : (modCell s i f).msix = s.msix := rfl
@[simp] theorem modCell_msixOpen (i : Nat) (f : Cell → Cell) : (modCell s i f).msixOpen = s.msixOpen := rfl
@[simp] theorem modCell_msixPba (i : Nat) (f : Cell → Cell) : (modCell s i f).msixPba = s.msixPba := rfl
@[simp] theorem modCell_msixTable (i : Nat) (f : Cell → Cell) : (modCell s i f).msixTable = s.msixTable := rfl
@[simp] theorem modCell_held (i : Nat) (f : Cell → Cell) : (modCell s i f).held = s.held := rfl
@[simp] theorem modCell_works (i : Nat) (f : Cell → Cell) : (modCell s i f).works = s.works := rfl
@[simp] theorem modCell_cellOwn (i : Nat) (f : Cell → Cell) : (modCell s i f).cellOwn = s.cellOwn := rfl
@[simp] theorem modCell_hives (i : Nat) (f : Cell → Cell) : (modCell s i f).hives = s.hives := rfl
@[simp] theorem modCell_comb (i : Nat) (f : Cell → Cell) : (modCell s i f).comb = s.comb := rfl
@[simp] theorem modCell_scratch (i : Nat) (f : Cell → Cell) : (modCell s i f).scratch = s.scratch := rfl
@[simp] theorem modCell_inner (i : Nat) (f : Cell → Cell) : (modCell s i f).inner = s.inner := rfl
@[simp] theorem modCell_combUe (i : Nat) (f : Cell → Cell) : (modCell s i f).combUe = s.combUe := rfl
@[simp] theorem modCell_combCe (i : Nat) (f : Cell → Cell) : (modCell s i f).combCe = s.combCe := rfl
@[simp] theorem modCell_active (i : Nat) (f : Cell → Cell) : (modCell s i f).active = s.active := rfl
@[simp] theorem modCell_combOwn (i : Nat) (f : Cell → Cell) : (modCell s i f).combOwn = s.combOwn := rfl
@[simp] theorem modCell_queues (i : Nat) (f : Cell → Cell) : (modCell s i f).queues = s.queues := rfl
@[simp] theorem modCell_doorbells (i : Nat) (f : Cell → Cell) : (modCell s i f).doorbells = s.doorbells := rfl
@[simp] theorem modCell_caps (i : Nat) (f : Cell → Cell) : (modCell s i f).caps = s.caps := rfl
@[simp] theorem modCell_chans (i : Nat) (f : Cell → Cell) : (modCell s i f).chans = s.chans := rfl
@[simp] theorem modCell_tasks (i : Nat) (f : Cell → Cell) : (modCell s i f).tasks = s.tasks := rfl
@[simp] theorem modCell_counters (i : Nat) (f : Cell → Cell) : (modCell s i f).counters = s.counters := rfl
@[simp] theorem modCell_timers (i : Nat) (f : Cell → Cell) : (modCell s i f).timers = s.timers := rfl
@[simp] theorem modCell_pins (i : Nat) (f : Cell → Cell) : (modCell s i f).pins = s.pins := rfl
@[simp] theorem modCell_hops (i : Nat) (f : Cell → Cell) : (modCell s i f).hops = s.hops := rfl
@[simp] theorem modCell_wagEpoch (i : Nat) (f : Cell → Cell) : (modCell s i f).wagEpoch = s.wagEpoch := rfl
@[simp] theorem modCell_domains (i : Nat) (f : Cell → Cell) : (modCell s i f).domains = s.domains := rfl
@[simp] theorem modCell_col (i : Nat) (f : Cell → Cell) : (modCell s i f).col = s.col := rfl
@[simp] theorem modCell_links (i : Nat) (f : Cell → Cell) : (modCell s i f).links = s.links := rfl
@[simp] theorem modCell_rxLanes (i : Nat) (f : Cell → Cell) : (modCell s i f).rxLanes = s.rxLanes := rfl
@[simp] theorem modCell_dmcs (i : Nat) (f : Cell → Cell) : (modCell s i f).dmcs = s.dmcs := rfl
@[simp] theorem modCell_dram (i : Nat) (f : Cell → Cell) : (modCell s i f).dram = s.dram := rfl
@[simp] theorem modCell_dramUe (i : Nat) (f : Cell → Cell) : (modCell s i f).dramUe = s.dramUe := rfl
@[simp] theorem modCell_dramCe (i : Nat) (f : Cell → Cell) : (modCell s i f).dramCe = s.dramCe := rfl
@[simp] theorem modCell_dramOwn (i : Nat) (f : Cell → Cell) : (modCell s i f).dramOwn = s.dramOwn := rfl
@[simp] theorem modCell_dramSystem (i : Nat) (f : Cell → Cell) : (modCell s i f).dramSystem = s.dramSystem := rfl
@[simp] theorem modCell_interleave (i : Nat) (f : Cell → Cell) : (modCell s i f).interleave = s.interleave := rfl
@[simp] theorem modCell_ctxBase (i : Nat) (f : Cell → Cell) : (modCell s i f).ctxBase = s.ctxBase := rfl
@[simp] theorem modCell_ageLimit (i : Nat) (f : Cell → Cell) : (modCell s i f).ageLimit = s.ageLimit := rfl
@[simp] theorem modCell_minMargin (i : Nat) (f : Cell → Cell) : (modCell s i f).minMargin = s.minMargin := rfl
@[simp] theorem modCell_trackH (i : Nat) (f : Cell → Cell) : (modCell s i f).trackH = s.trackH := rfl
@[simp] theorem modCell_ceLimit (i : Nat) (f : Cell → Cell) : (modCell s i f).ceLimit = s.ceLimit := rfl
@[simp] theorem modCell_scrubOn (i : Nat) (f : Cell → Cell) : (modCell s i f).scrubOn = s.scrubOn := rfl
@[simp] theorem modCell_scrubPeriod (i : Nat) (f : Cell → Cell) : (modCell s i f).scrubPeriod = s.scrubPeriod := rfl
@[simp] theorem modCell_auxs (i : Nat) (f : Cell → Cell) : (modCell s i f).auxs = s.auxs := rfl
@[simp] theorem modCell_auxClrN (i : Nat) (f : Cell → Cell) : (modCell s i f).auxClrN = s.auxClrN := rfl
@[simp] theorem modCell_jnl (i : Nat) (f : Cell → Cell) : (modCell s i f).jnl = s.jnl := rfl
@[simp] theorem modCell_rpl (i : Nat) (f : Cell → Cell) : (modCell s i f).rpl = s.rpl := rfl
@[simp] theorem modCell_bus (i : Nat) (f : Cell → Cell) : (modCell s i f).bus = s.bus := rfl
@[simp] theorem modCell_bulk (i : Nat) (f : Cell → Cell) : (modCell s i f).bulk = s.bulk := rfl
@[simp] theorem modCell_free (i : Nat) (f : Cell → Cell) : (modCell s i f).free = s.free := rfl
@[simp] theorem modCell_pending (i : Nat) (f : Cell → Cell) : (modCell s i f).pending = s.pending := rfl

/-! ### putCap -/

@[simp] theorem putCap_dev (i : Nat) (x : Cap) : (putCap s i x).dev = s.dev := rfl
@[simp] theorem putCap_md (i : Nat) (x : Cap) : (putCap s i x).md = s.md := rfl
@[simp] theorem putCap_time (i : Nat) (x : Cap) : (putCap s i x).time = s.time := rfl
@[simp] theorem putCap_pace (i : Nat) (x : Cap) : (putCap s i x).pace = s.pace := rfl
@[simp] theorem putCap_kpr (i : Nat) (x : Cap) : (putCap s i x).kpr = s.kpr := rfl
@[simp] theorem putCap_svc (i : Nat) (x : Cap) : (putCap s i x).svc = s.svc := rfl
@[simp] theorem putCap_sec (i : Nat) (x : Cap) : (putCap s i x).sec = s.sec := rfl
@[simp] theorem putCap_grave (i : Nat) (x : Cap) : (putCap s i x).grave = s.grave := rfl
@[simp] theorem putCap_faults (i : Nat) (x : Cap) : (putCap s i x).faults = s.faults := rfl
@[simp] theorem putCap_mailboxes (i : Nat) (x : Cap) : (putCap s i x).mailboxes = s.mailboxes := rfl
@[simp] theorem putCap_contexts (i : Nat) (x : Cap) : (putCap s i x).contexts = s.contexts := rfl
@[simp] theorem putCap_msix (i : Nat) (x : Cap) : (putCap s i x).msix = s.msix := rfl
@[simp] theorem putCap_msixOpen (i : Nat) (x : Cap) : (putCap s i x).msixOpen = s.msixOpen := rfl
@[simp] theorem putCap_msixPba (i : Nat) (x : Cap) : (putCap s i x).msixPba = s.msixPba := rfl
@[simp] theorem putCap_msixTable (i : Nat) (x : Cap) : (putCap s i x).msixTable = s.msixTable := rfl
@[simp] theorem putCap_held (i : Nat) (x : Cap) : (putCap s i x).held = s.held := rfl
@[simp] theorem putCap_works (i : Nat) (x : Cap) : (putCap s i x).works = s.works := rfl
@[simp] theorem putCap_cells (i : Nat) (x : Cap) : (putCap s i x).cells = s.cells := rfl
@[simp] theorem putCap_cellOwn (i : Nat) (x : Cap) : (putCap s i x).cellOwn = s.cellOwn := rfl
@[simp] theorem putCap_hives (i : Nat) (x : Cap) : (putCap s i x).hives = s.hives := rfl
@[simp] theorem putCap_comb (i : Nat) (x : Cap) : (putCap s i x).comb = s.comb := rfl
@[simp] theorem putCap_scratch (i : Nat) (x : Cap) : (putCap s i x).scratch = s.scratch := rfl
@[simp] theorem putCap_inner (i : Nat) (x : Cap) : (putCap s i x).inner = s.inner := rfl
@[simp] theorem putCap_combUe (i : Nat) (x : Cap) : (putCap s i x).combUe = s.combUe := rfl
@[simp] theorem putCap_combCe (i : Nat) (x : Cap) : (putCap s i x).combCe = s.combCe := rfl
@[simp] theorem putCap_active (i : Nat) (x : Cap) : (putCap s i x).active = s.active := rfl
@[simp] theorem putCap_combOwn (i : Nat) (x : Cap) : (putCap s i x).combOwn = s.combOwn := rfl
@[simp] theorem putCap_queues (i : Nat) (x : Cap) : (putCap s i x).queues = s.queues := rfl
@[simp] theorem putCap_doorbells (i : Nat) (x : Cap) : (putCap s i x).doorbells = s.doorbells := rfl
@[simp] theorem putCap_chans (i : Nat) (x : Cap) : (putCap s i x).chans = s.chans := rfl
@[simp] theorem putCap_tasks (i : Nat) (x : Cap) : (putCap s i x).tasks = s.tasks := rfl
@[simp] theorem putCap_counters (i : Nat) (x : Cap) : (putCap s i x).counters = s.counters := rfl
@[simp] theorem putCap_timers (i : Nat) (x : Cap) : (putCap s i x).timers = s.timers := rfl
@[simp] theorem putCap_pins (i : Nat) (x : Cap) : (putCap s i x).pins = s.pins := rfl
@[simp] theorem putCap_hops (i : Nat) (x : Cap) : (putCap s i x).hops = s.hops := rfl
@[simp] theorem putCap_wagEpoch (i : Nat) (x : Cap) : (putCap s i x).wagEpoch = s.wagEpoch := rfl
@[simp] theorem putCap_domains (i : Nat) (x : Cap) : (putCap s i x).domains = s.domains := rfl
@[simp] theorem putCap_col (i : Nat) (x : Cap) : (putCap s i x).col = s.col := rfl
@[simp] theorem putCap_links (i : Nat) (x : Cap) : (putCap s i x).links = s.links := rfl
@[simp] theorem putCap_rxLanes (i : Nat) (x : Cap) : (putCap s i x).rxLanes = s.rxLanes := rfl
@[simp] theorem putCap_dmcs (i : Nat) (x : Cap) : (putCap s i x).dmcs = s.dmcs := rfl
@[simp] theorem putCap_dram (i : Nat) (x : Cap) : (putCap s i x).dram = s.dram := rfl
@[simp] theorem putCap_dramUe (i : Nat) (x : Cap) : (putCap s i x).dramUe = s.dramUe := rfl
@[simp] theorem putCap_dramCe (i : Nat) (x : Cap) : (putCap s i x).dramCe = s.dramCe := rfl
@[simp] theorem putCap_dramOwn (i : Nat) (x : Cap) : (putCap s i x).dramOwn = s.dramOwn := rfl
@[simp] theorem putCap_dramSystem (i : Nat) (x : Cap) : (putCap s i x).dramSystem = s.dramSystem := rfl
@[simp] theorem putCap_interleave (i : Nat) (x : Cap) : (putCap s i x).interleave = s.interleave := rfl
@[simp] theorem putCap_ctxBase (i : Nat) (x : Cap) : (putCap s i x).ctxBase = s.ctxBase := rfl
@[simp] theorem putCap_ageLimit (i : Nat) (x : Cap) : (putCap s i x).ageLimit = s.ageLimit := rfl
@[simp] theorem putCap_minMargin (i : Nat) (x : Cap) : (putCap s i x).minMargin = s.minMargin := rfl
@[simp] theorem putCap_trackH (i : Nat) (x : Cap) : (putCap s i x).trackH = s.trackH := rfl
@[simp] theorem putCap_ceLimit (i : Nat) (x : Cap) : (putCap s i x).ceLimit = s.ceLimit := rfl
@[simp] theorem putCap_scrubOn (i : Nat) (x : Cap) : (putCap s i x).scrubOn = s.scrubOn := rfl
@[simp] theorem putCap_scrubPeriod (i : Nat) (x : Cap) : (putCap s i x).scrubPeriod = s.scrubPeriod := rfl
@[simp] theorem putCap_auxs (i : Nat) (x : Cap) : (putCap s i x).auxs = s.auxs := rfl
@[simp] theorem putCap_auxClrN (i : Nat) (x : Cap) : (putCap s i x).auxClrN = s.auxClrN := rfl
@[simp] theorem putCap_jnl (i : Nat) (x : Cap) : (putCap s i x).jnl = s.jnl := rfl
@[simp] theorem putCap_rpl (i : Nat) (x : Cap) : (putCap s i x).rpl = s.rpl := rfl
@[simp] theorem putCap_bus (i : Nat) (x : Cap) : (putCap s i x).bus = s.bus := rfl
@[simp] theorem putCap_bulk (i : Nat) (x : Cap) : (putCap s i x).bulk = s.bulk := rfl
@[simp] theorem putCap_free (i : Nat) (x : Cap) : (putCap s i x).free = s.free := rfl
@[simp] theorem putCap_pending (i : Nat) (x : Cap) : (putCap s i x).pending = s.pending := rfl

/-! ### modCap -/

@[simp] theorem modCap_dev (i : Nat) (f : Cap → Cap) : (modCap s i f).dev = s.dev := rfl
@[simp] theorem modCap_md (i : Nat) (f : Cap → Cap) : (modCap s i f).md = s.md := rfl
@[simp] theorem modCap_time (i : Nat) (f : Cap → Cap) : (modCap s i f).time = s.time := rfl
@[simp] theorem modCap_pace (i : Nat) (f : Cap → Cap) : (modCap s i f).pace = s.pace := rfl
@[simp] theorem modCap_kpr (i : Nat) (f : Cap → Cap) : (modCap s i f).kpr = s.kpr := rfl
@[simp] theorem modCap_svc (i : Nat) (f : Cap → Cap) : (modCap s i f).svc = s.svc := rfl
@[simp] theorem modCap_sec (i : Nat) (f : Cap → Cap) : (modCap s i f).sec = s.sec := rfl
@[simp] theorem modCap_grave (i : Nat) (f : Cap → Cap) : (modCap s i f).grave = s.grave := rfl
@[simp] theorem modCap_faults (i : Nat) (f : Cap → Cap) : (modCap s i f).faults = s.faults := rfl
@[simp] theorem modCap_mailboxes (i : Nat) (f : Cap → Cap) : (modCap s i f).mailboxes = s.mailboxes := rfl
@[simp] theorem modCap_contexts (i : Nat) (f : Cap → Cap) : (modCap s i f).contexts = s.contexts := rfl
@[simp] theorem modCap_msix (i : Nat) (f : Cap → Cap) : (modCap s i f).msix = s.msix := rfl
@[simp] theorem modCap_msixOpen (i : Nat) (f : Cap → Cap) : (modCap s i f).msixOpen = s.msixOpen := rfl
@[simp] theorem modCap_msixPba (i : Nat) (f : Cap → Cap) : (modCap s i f).msixPba = s.msixPba := rfl
@[simp] theorem modCap_msixTable (i : Nat) (f : Cap → Cap) : (modCap s i f).msixTable = s.msixTable := rfl
@[simp] theorem modCap_held (i : Nat) (f : Cap → Cap) : (modCap s i f).held = s.held := rfl
@[simp] theorem modCap_works (i : Nat) (f : Cap → Cap) : (modCap s i f).works = s.works := rfl
@[simp] theorem modCap_cells (i : Nat) (f : Cap → Cap) : (modCap s i f).cells = s.cells := rfl
@[simp] theorem modCap_cellOwn (i : Nat) (f : Cap → Cap) : (modCap s i f).cellOwn = s.cellOwn := rfl
@[simp] theorem modCap_hives (i : Nat) (f : Cap → Cap) : (modCap s i f).hives = s.hives := rfl
@[simp] theorem modCap_comb (i : Nat) (f : Cap → Cap) : (modCap s i f).comb = s.comb := rfl
@[simp] theorem modCap_scratch (i : Nat) (f : Cap → Cap) : (modCap s i f).scratch = s.scratch := rfl
@[simp] theorem modCap_inner (i : Nat) (f : Cap → Cap) : (modCap s i f).inner = s.inner := rfl
@[simp] theorem modCap_combUe (i : Nat) (f : Cap → Cap) : (modCap s i f).combUe = s.combUe := rfl
@[simp] theorem modCap_combCe (i : Nat) (f : Cap → Cap) : (modCap s i f).combCe = s.combCe := rfl
@[simp] theorem modCap_active (i : Nat) (f : Cap → Cap) : (modCap s i f).active = s.active := rfl
@[simp] theorem modCap_combOwn (i : Nat) (f : Cap → Cap) : (modCap s i f).combOwn = s.combOwn := rfl
@[simp] theorem modCap_queues (i : Nat) (f : Cap → Cap) : (modCap s i f).queues = s.queues := rfl
@[simp] theorem modCap_doorbells (i : Nat) (f : Cap → Cap) : (modCap s i f).doorbells = s.doorbells := rfl
@[simp] theorem modCap_chans (i : Nat) (f : Cap → Cap) : (modCap s i f).chans = s.chans := rfl
@[simp] theorem modCap_tasks (i : Nat) (f : Cap → Cap) : (modCap s i f).tasks = s.tasks := rfl
@[simp] theorem modCap_counters (i : Nat) (f : Cap → Cap) : (modCap s i f).counters = s.counters := rfl
@[simp] theorem modCap_timers (i : Nat) (f : Cap → Cap) : (modCap s i f).timers = s.timers := rfl
@[simp] theorem modCap_pins (i : Nat) (f : Cap → Cap) : (modCap s i f).pins = s.pins := rfl
@[simp] theorem modCap_hops (i : Nat) (f : Cap → Cap) : (modCap s i f).hops = s.hops := rfl
@[simp] theorem modCap_wagEpoch (i : Nat) (f : Cap → Cap) : (modCap s i f).wagEpoch = s.wagEpoch := rfl
@[simp] theorem modCap_domains (i : Nat) (f : Cap → Cap) : (modCap s i f).domains = s.domains := rfl
@[simp] theorem modCap_col (i : Nat) (f : Cap → Cap) : (modCap s i f).col = s.col := rfl
@[simp] theorem modCap_links (i : Nat) (f : Cap → Cap) : (modCap s i f).links = s.links := rfl
@[simp] theorem modCap_rxLanes (i : Nat) (f : Cap → Cap) : (modCap s i f).rxLanes = s.rxLanes := rfl
@[simp] theorem modCap_dmcs (i : Nat) (f : Cap → Cap) : (modCap s i f).dmcs = s.dmcs := rfl
@[simp] theorem modCap_dram (i : Nat) (f : Cap → Cap) : (modCap s i f).dram = s.dram := rfl
@[simp] theorem modCap_dramUe (i : Nat) (f : Cap → Cap) : (modCap s i f).dramUe = s.dramUe := rfl
@[simp] theorem modCap_dramCe (i : Nat) (f : Cap → Cap) : (modCap s i f).dramCe = s.dramCe := rfl
@[simp] theorem modCap_dramOwn (i : Nat) (f : Cap → Cap) : (modCap s i f).dramOwn = s.dramOwn := rfl
@[simp] theorem modCap_dramSystem (i : Nat) (f : Cap → Cap) : (modCap s i f).dramSystem = s.dramSystem := rfl
@[simp] theorem modCap_interleave (i : Nat) (f : Cap → Cap) : (modCap s i f).interleave = s.interleave := rfl
@[simp] theorem modCap_ctxBase (i : Nat) (f : Cap → Cap) : (modCap s i f).ctxBase = s.ctxBase := rfl
@[simp] theorem modCap_ageLimit (i : Nat) (f : Cap → Cap) : (modCap s i f).ageLimit = s.ageLimit := rfl
@[simp] theorem modCap_minMargin (i : Nat) (f : Cap → Cap) : (modCap s i f).minMargin = s.minMargin := rfl
@[simp] theorem modCap_trackH (i : Nat) (f : Cap → Cap) : (modCap s i f).trackH = s.trackH := rfl
@[simp] theorem modCap_ceLimit (i : Nat) (f : Cap → Cap) : (modCap s i f).ceLimit = s.ceLimit := rfl
@[simp] theorem modCap_scrubOn (i : Nat) (f : Cap → Cap) : (modCap s i f).scrubOn = s.scrubOn := rfl
@[simp] theorem modCap_scrubPeriod (i : Nat) (f : Cap → Cap) : (modCap s i f).scrubPeriod = s.scrubPeriod := rfl
@[simp] theorem modCap_auxs (i : Nat) (f : Cap → Cap) : (modCap s i f).auxs = s.auxs := rfl
@[simp] theorem modCap_auxClrN (i : Nat) (f : Cap → Cap) : (modCap s i f).auxClrN = s.auxClrN := rfl
@[simp] theorem modCap_jnl (i : Nat) (f : Cap → Cap) : (modCap s i f).jnl = s.jnl := rfl
@[simp] theorem modCap_rpl (i : Nat) (f : Cap → Cap) : (modCap s i f).rpl = s.rpl := rfl
@[simp] theorem modCap_bus (i : Nat) (f : Cap → Cap) : (modCap s i f).bus = s.bus := rfl
@[simp] theorem modCap_bulk (i : Nat) (f : Cap → Cap) : (modCap s i f).bulk = s.bulk := rfl
@[simp] theorem modCap_free (i : Nat) (f : Cap → Cap) : (modCap s i f).free = s.free := rfl
@[simp] theorem modCap_pending (i : Nat) (f : Cap → Cap) : (modCap s i f).pending = s.pending := rfl

/-! ### putHive -/

@[simp] theorem putHive_dev (i : Nat) (x : Hive) : (putHive s i x).dev = s.dev := rfl
@[simp] theorem putHive_md (i : Nat) (x : Hive) : (putHive s i x).md = s.md := rfl
@[simp] theorem putHive_time (i : Nat) (x : Hive) : (putHive s i x).time = s.time := rfl
@[simp] theorem putHive_pace (i : Nat) (x : Hive) : (putHive s i x).pace = s.pace := rfl
@[simp] theorem putHive_kpr (i : Nat) (x : Hive) : (putHive s i x).kpr = s.kpr := rfl
@[simp] theorem putHive_svc (i : Nat) (x : Hive) : (putHive s i x).svc = s.svc := rfl
@[simp] theorem putHive_sec (i : Nat) (x : Hive) : (putHive s i x).sec = s.sec := rfl
@[simp] theorem putHive_grave (i : Nat) (x : Hive) : (putHive s i x).grave = s.grave := rfl
@[simp] theorem putHive_faults (i : Nat) (x : Hive) : (putHive s i x).faults = s.faults := rfl
@[simp] theorem putHive_mailboxes (i : Nat) (x : Hive) : (putHive s i x).mailboxes = s.mailboxes := rfl
@[simp] theorem putHive_contexts (i : Nat) (x : Hive) : (putHive s i x).contexts = s.contexts := rfl
@[simp] theorem putHive_msix (i : Nat) (x : Hive) : (putHive s i x).msix = s.msix := rfl
@[simp] theorem putHive_msixOpen (i : Nat) (x : Hive) : (putHive s i x).msixOpen = s.msixOpen := rfl
@[simp] theorem putHive_msixPba (i : Nat) (x : Hive) : (putHive s i x).msixPba = s.msixPba := rfl
@[simp] theorem putHive_msixTable (i : Nat) (x : Hive) : (putHive s i x).msixTable = s.msixTable := rfl
@[simp] theorem putHive_held (i : Nat) (x : Hive) : (putHive s i x).held = s.held := rfl
@[simp] theorem putHive_works (i : Nat) (x : Hive) : (putHive s i x).works = s.works := rfl
@[simp] theorem putHive_cells (i : Nat) (x : Hive) : (putHive s i x).cells = s.cells := rfl
@[simp] theorem putHive_cellOwn (i : Nat) (x : Hive) : (putHive s i x).cellOwn = s.cellOwn := rfl
@[simp] theorem putHive_comb (i : Nat) (x : Hive) : (putHive s i x).comb = s.comb := rfl
@[simp] theorem putHive_scratch (i : Nat) (x : Hive) : (putHive s i x).scratch = s.scratch := rfl
@[simp] theorem putHive_inner (i : Nat) (x : Hive) : (putHive s i x).inner = s.inner := rfl
@[simp] theorem putHive_combUe (i : Nat) (x : Hive) : (putHive s i x).combUe = s.combUe := rfl
@[simp] theorem putHive_combCe (i : Nat) (x : Hive) : (putHive s i x).combCe = s.combCe := rfl
@[simp] theorem putHive_active (i : Nat) (x : Hive) : (putHive s i x).active = s.active := rfl
@[simp] theorem putHive_combOwn (i : Nat) (x : Hive) : (putHive s i x).combOwn = s.combOwn := rfl
@[simp] theorem putHive_queues (i : Nat) (x : Hive) : (putHive s i x).queues = s.queues := rfl
@[simp] theorem putHive_doorbells (i : Nat) (x : Hive) : (putHive s i x).doorbells = s.doorbells := rfl
@[simp] theorem putHive_caps (i : Nat) (x : Hive) : (putHive s i x).caps = s.caps := rfl
@[simp] theorem putHive_chans (i : Nat) (x : Hive) : (putHive s i x).chans = s.chans := rfl
@[simp] theorem putHive_tasks (i : Nat) (x : Hive) : (putHive s i x).tasks = s.tasks := rfl
@[simp] theorem putHive_counters (i : Nat) (x : Hive) : (putHive s i x).counters = s.counters := rfl
@[simp] theorem putHive_timers (i : Nat) (x : Hive) : (putHive s i x).timers = s.timers := rfl
@[simp] theorem putHive_pins (i : Nat) (x : Hive) : (putHive s i x).pins = s.pins := rfl
@[simp] theorem putHive_hops (i : Nat) (x : Hive) : (putHive s i x).hops = s.hops := rfl
@[simp] theorem putHive_wagEpoch (i : Nat) (x : Hive) : (putHive s i x).wagEpoch = s.wagEpoch := rfl
@[simp] theorem putHive_domains (i : Nat) (x : Hive) : (putHive s i x).domains = s.domains := rfl
@[simp] theorem putHive_col (i : Nat) (x : Hive) : (putHive s i x).col = s.col := rfl
@[simp] theorem putHive_links (i : Nat) (x : Hive) : (putHive s i x).links = s.links := rfl
@[simp] theorem putHive_rxLanes (i : Nat) (x : Hive) : (putHive s i x).rxLanes = s.rxLanes := rfl
@[simp] theorem putHive_dmcs (i : Nat) (x : Hive) : (putHive s i x).dmcs = s.dmcs := rfl
@[simp] theorem putHive_dram (i : Nat) (x : Hive) : (putHive s i x).dram = s.dram := rfl
@[simp] theorem putHive_dramUe (i : Nat) (x : Hive) : (putHive s i x).dramUe = s.dramUe := rfl
@[simp] theorem putHive_dramCe (i : Nat) (x : Hive) : (putHive s i x).dramCe = s.dramCe := rfl
@[simp] theorem putHive_dramOwn (i : Nat) (x : Hive) : (putHive s i x).dramOwn = s.dramOwn := rfl
@[simp] theorem putHive_dramSystem (i : Nat) (x : Hive) : (putHive s i x).dramSystem = s.dramSystem := rfl
@[simp] theorem putHive_interleave (i : Nat) (x : Hive) : (putHive s i x).interleave = s.interleave := rfl
@[simp] theorem putHive_ctxBase (i : Nat) (x : Hive) : (putHive s i x).ctxBase = s.ctxBase := rfl
@[simp] theorem putHive_ageLimit (i : Nat) (x : Hive) : (putHive s i x).ageLimit = s.ageLimit := rfl
@[simp] theorem putHive_minMargin (i : Nat) (x : Hive) : (putHive s i x).minMargin = s.minMargin := rfl
@[simp] theorem putHive_trackH (i : Nat) (x : Hive) : (putHive s i x).trackH = s.trackH := rfl
@[simp] theorem putHive_ceLimit (i : Nat) (x : Hive) : (putHive s i x).ceLimit = s.ceLimit := rfl
@[simp] theorem putHive_scrubOn (i : Nat) (x : Hive) : (putHive s i x).scrubOn = s.scrubOn := rfl
@[simp] theorem putHive_scrubPeriod (i : Nat) (x : Hive) : (putHive s i x).scrubPeriod = s.scrubPeriod := rfl
@[simp] theorem putHive_auxs (i : Nat) (x : Hive) : (putHive s i x).auxs = s.auxs := rfl
@[simp] theorem putHive_auxClrN (i : Nat) (x : Hive) : (putHive s i x).auxClrN = s.auxClrN := rfl
@[simp] theorem putHive_jnl (i : Nat) (x : Hive) : (putHive s i x).jnl = s.jnl := rfl
@[simp] theorem putHive_rpl (i : Nat) (x : Hive) : (putHive s i x).rpl = s.rpl := rfl
@[simp] theorem putHive_bus (i : Nat) (x : Hive) : (putHive s i x).bus = s.bus := rfl
@[simp] theorem putHive_bulk (i : Nat) (x : Hive) : (putHive s i x).bulk = s.bulk := rfl
@[simp] theorem putHive_free (i : Nat) (x : Hive) : (putHive s i x).free = s.free := rfl
@[simp] theorem putHive_pending (i : Nat) (x : Hive) : (putHive s i x).pending = s.pending := rfl

/-! ### modHive -/

@[simp] theorem modHive_dev (i : Nat) (f : Hive → Hive) : (modHive s i f).dev = s.dev := rfl
@[simp] theorem modHive_md (i : Nat) (f : Hive → Hive) : (modHive s i f).md = s.md := rfl
@[simp] theorem modHive_time (i : Nat) (f : Hive → Hive) : (modHive s i f).time = s.time := rfl
@[simp] theorem modHive_pace (i : Nat) (f : Hive → Hive) : (modHive s i f).pace = s.pace := rfl
@[simp] theorem modHive_kpr (i : Nat) (f : Hive → Hive) : (modHive s i f).kpr = s.kpr := rfl
@[simp] theorem modHive_svc (i : Nat) (f : Hive → Hive) : (modHive s i f).svc = s.svc := rfl
@[simp] theorem modHive_sec (i : Nat) (f : Hive → Hive) : (modHive s i f).sec = s.sec := rfl
@[simp] theorem modHive_grave (i : Nat) (f : Hive → Hive) : (modHive s i f).grave = s.grave := rfl
@[simp] theorem modHive_faults (i : Nat) (f : Hive → Hive) : (modHive s i f).faults = s.faults := rfl
@[simp] theorem modHive_mailboxes (i : Nat) (f : Hive → Hive) : (modHive s i f).mailboxes = s.mailboxes := rfl
@[simp] theorem modHive_contexts (i : Nat) (f : Hive → Hive) : (modHive s i f).contexts = s.contexts := rfl
@[simp] theorem modHive_msix (i : Nat) (f : Hive → Hive) : (modHive s i f).msix = s.msix := rfl
@[simp] theorem modHive_msixOpen (i : Nat) (f : Hive → Hive) : (modHive s i f).msixOpen = s.msixOpen := rfl
@[simp] theorem modHive_msixPba (i : Nat) (f : Hive → Hive) : (modHive s i f).msixPba = s.msixPba := rfl
@[simp] theorem modHive_msixTable (i : Nat) (f : Hive → Hive) : (modHive s i f).msixTable = s.msixTable := rfl
@[simp] theorem modHive_held (i : Nat) (f : Hive → Hive) : (modHive s i f).held = s.held := rfl
@[simp] theorem modHive_works (i : Nat) (f : Hive → Hive) : (modHive s i f).works = s.works := rfl
@[simp] theorem modHive_cells (i : Nat) (f : Hive → Hive) : (modHive s i f).cells = s.cells := rfl
@[simp] theorem modHive_cellOwn (i : Nat) (f : Hive → Hive) : (modHive s i f).cellOwn = s.cellOwn := rfl
@[simp] theorem modHive_comb (i : Nat) (f : Hive → Hive) : (modHive s i f).comb = s.comb := rfl
@[simp] theorem modHive_scratch (i : Nat) (f : Hive → Hive) : (modHive s i f).scratch = s.scratch := rfl
@[simp] theorem modHive_inner (i : Nat) (f : Hive → Hive) : (modHive s i f).inner = s.inner := rfl
@[simp] theorem modHive_combUe (i : Nat) (f : Hive → Hive) : (modHive s i f).combUe = s.combUe := rfl
@[simp] theorem modHive_combCe (i : Nat) (f : Hive → Hive) : (modHive s i f).combCe = s.combCe := rfl
@[simp] theorem modHive_active (i : Nat) (f : Hive → Hive) : (modHive s i f).active = s.active := rfl
@[simp] theorem modHive_combOwn (i : Nat) (f : Hive → Hive) : (modHive s i f).combOwn = s.combOwn := rfl
@[simp] theorem modHive_queues (i : Nat) (f : Hive → Hive) : (modHive s i f).queues = s.queues := rfl
@[simp] theorem modHive_doorbells (i : Nat) (f : Hive → Hive) : (modHive s i f).doorbells = s.doorbells := rfl
@[simp] theorem modHive_caps (i : Nat) (f : Hive → Hive) : (modHive s i f).caps = s.caps := rfl
@[simp] theorem modHive_chans (i : Nat) (f : Hive → Hive) : (modHive s i f).chans = s.chans := rfl
@[simp] theorem modHive_tasks (i : Nat) (f : Hive → Hive) : (modHive s i f).tasks = s.tasks := rfl
@[simp] theorem modHive_counters (i : Nat) (f : Hive → Hive) : (modHive s i f).counters = s.counters := rfl
@[simp] theorem modHive_timers (i : Nat) (f : Hive → Hive) : (modHive s i f).timers = s.timers := rfl
@[simp] theorem modHive_pins (i : Nat) (f : Hive → Hive) : (modHive s i f).pins = s.pins := rfl
@[simp] theorem modHive_hops (i : Nat) (f : Hive → Hive) : (modHive s i f).hops = s.hops := rfl
@[simp] theorem modHive_wagEpoch (i : Nat) (f : Hive → Hive) : (modHive s i f).wagEpoch = s.wagEpoch := rfl
@[simp] theorem modHive_domains (i : Nat) (f : Hive → Hive) : (modHive s i f).domains = s.domains := rfl
@[simp] theorem modHive_col (i : Nat) (f : Hive → Hive) : (modHive s i f).col = s.col := rfl
@[simp] theorem modHive_links (i : Nat) (f : Hive → Hive) : (modHive s i f).links = s.links := rfl
@[simp] theorem modHive_rxLanes (i : Nat) (f : Hive → Hive) : (modHive s i f).rxLanes = s.rxLanes := rfl
@[simp] theorem modHive_dmcs (i : Nat) (f : Hive → Hive) : (modHive s i f).dmcs = s.dmcs := rfl
@[simp] theorem modHive_dram (i : Nat) (f : Hive → Hive) : (modHive s i f).dram = s.dram := rfl
@[simp] theorem modHive_dramUe (i : Nat) (f : Hive → Hive) : (modHive s i f).dramUe = s.dramUe := rfl
@[simp] theorem modHive_dramCe (i : Nat) (f : Hive → Hive) : (modHive s i f).dramCe = s.dramCe := rfl
@[simp] theorem modHive_dramOwn (i : Nat) (f : Hive → Hive) : (modHive s i f).dramOwn = s.dramOwn := rfl
@[simp] theorem modHive_dramSystem (i : Nat) (f : Hive → Hive) : (modHive s i f).dramSystem = s.dramSystem := rfl
@[simp] theorem modHive_interleave (i : Nat) (f : Hive → Hive) : (modHive s i f).interleave = s.interleave := rfl
@[simp] theorem modHive_ctxBase (i : Nat) (f : Hive → Hive) : (modHive s i f).ctxBase = s.ctxBase := rfl
@[simp] theorem modHive_ageLimit (i : Nat) (f : Hive → Hive) : (modHive s i f).ageLimit = s.ageLimit := rfl
@[simp] theorem modHive_minMargin (i : Nat) (f : Hive → Hive) : (modHive s i f).minMargin = s.minMargin := rfl
@[simp] theorem modHive_trackH (i : Nat) (f : Hive → Hive) : (modHive s i f).trackH = s.trackH := rfl
@[simp] theorem modHive_ceLimit (i : Nat) (f : Hive → Hive) : (modHive s i f).ceLimit = s.ceLimit := rfl
@[simp] theorem modHive_scrubOn (i : Nat) (f : Hive → Hive) : (modHive s i f).scrubOn = s.scrubOn := rfl
@[simp] theorem modHive_scrubPeriod (i : Nat) (f : Hive → Hive) : (modHive s i f).scrubPeriod = s.scrubPeriod := rfl
@[simp] theorem modHive_auxs (i : Nat) (f : Hive → Hive) : (modHive s i f).auxs = s.auxs := rfl
@[simp] theorem modHive_auxClrN (i : Nat) (f : Hive → Hive) : (modHive s i f).auxClrN = s.auxClrN := rfl
@[simp] theorem modHive_jnl (i : Nat) (f : Hive → Hive) : (modHive s i f).jnl = s.jnl := rfl
@[simp] theorem modHive_rpl (i : Nat) (f : Hive → Hive) : (modHive s i f).rpl = s.rpl := rfl
@[simp] theorem modHive_bus (i : Nat) (f : Hive → Hive) : (modHive s i f).bus = s.bus := rfl
@[simp] theorem modHive_bulk (i : Nat) (f : Hive → Hive) : (modHive s i f).bulk = s.bulk := rfl
@[simp] theorem modHive_free (i : Nat) (f : Hive → Hive) : (modHive s i f).free = s.free := rfl
@[simp] theorem modHive_pending (i : Nat) (f : Hive → Hive) : (modHive s i f).pending = s.pending := rfl

/-! ### putDom -/

@[simp] theorem putDom_dev (i : Nat) (x : Domain) : (putDom s i x).dev = s.dev := rfl
@[simp] theorem putDom_md (i : Nat) (x : Domain) : (putDom s i x).md = s.md := rfl
@[simp] theorem putDom_time (i : Nat) (x : Domain) : (putDom s i x).time = s.time := rfl
@[simp] theorem putDom_pace (i : Nat) (x : Domain) : (putDom s i x).pace = s.pace := rfl
@[simp] theorem putDom_kpr (i : Nat) (x : Domain) : (putDom s i x).kpr = s.kpr := rfl
@[simp] theorem putDom_svc (i : Nat) (x : Domain) : (putDom s i x).svc = s.svc := rfl
@[simp] theorem putDom_sec (i : Nat) (x : Domain) : (putDom s i x).sec = s.sec := rfl
@[simp] theorem putDom_grave (i : Nat) (x : Domain) : (putDom s i x).grave = s.grave := rfl
@[simp] theorem putDom_faults (i : Nat) (x : Domain) : (putDom s i x).faults = s.faults := rfl
@[simp] theorem putDom_mailboxes (i : Nat) (x : Domain) : (putDom s i x).mailboxes = s.mailboxes := rfl
@[simp] theorem putDom_contexts (i : Nat) (x : Domain) : (putDom s i x).contexts = s.contexts := rfl
@[simp] theorem putDom_msix (i : Nat) (x : Domain) : (putDom s i x).msix = s.msix := rfl
@[simp] theorem putDom_msixOpen (i : Nat) (x : Domain) : (putDom s i x).msixOpen = s.msixOpen := rfl
@[simp] theorem putDom_msixPba (i : Nat) (x : Domain) : (putDom s i x).msixPba = s.msixPba := rfl
@[simp] theorem putDom_msixTable (i : Nat) (x : Domain) : (putDom s i x).msixTable = s.msixTable := rfl
@[simp] theorem putDom_held (i : Nat) (x : Domain) : (putDom s i x).held = s.held := rfl
@[simp] theorem putDom_works (i : Nat) (x : Domain) : (putDom s i x).works = s.works := rfl
@[simp] theorem putDom_cells (i : Nat) (x : Domain) : (putDom s i x).cells = s.cells := rfl
@[simp] theorem putDom_cellOwn (i : Nat) (x : Domain) : (putDom s i x).cellOwn = s.cellOwn := rfl
@[simp] theorem putDom_hives (i : Nat) (x : Domain) : (putDom s i x).hives = s.hives := rfl
@[simp] theorem putDom_comb (i : Nat) (x : Domain) : (putDom s i x).comb = s.comb := rfl
@[simp] theorem putDom_scratch (i : Nat) (x : Domain) : (putDom s i x).scratch = s.scratch := rfl
@[simp] theorem putDom_inner (i : Nat) (x : Domain) : (putDom s i x).inner = s.inner := rfl
@[simp] theorem putDom_combUe (i : Nat) (x : Domain) : (putDom s i x).combUe = s.combUe := rfl
@[simp] theorem putDom_combCe (i : Nat) (x : Domain) : (putDom s i x).combCe = s.combCe := rfl
@[simp] theorem putDom_active (i : Nat) (x : Domain) : (putDom s i x).active = s.active := rfl
@[simp] theorem putDom_combOwn (i : Nat) (x : Domain) : (putDom s i x).combOwn = s.combOwn := rfl
@[simp] theorem putDom_queues (i : Nat) (x : Domain) : (putDom s i x).queues = s.queues := rfl
@[simp] theorem putDom_doorbells (i : Nat) (x : Domain) : (putDom s i x).doorbells = s.doorbells := rfl
@[simp] theorem putDom_caps (i : Nat) (x : Domain) : (putDom s i x).caps = s.caps := rfl
@[simp] theorem putDom_chans (i : Nat) (x : Domain) : (putDom s i x).chans = s.chans := rfl
@[simp] theorem putDom_tasks (i : Nat) (x : Domain) : (putDom s i x).tasks = s.tasks := rfl
@[simp] theorem putDom_counters (i : Nat) (x : Domain) : (putDom s i x).counters = s.counters := rfl
@[simp] theorem putDom_timers (i : Nat) (x : Domain) : (putDom s i x).timers = s.timers := rfl
@[simp] theorem putDom_pins (i : Nat) (x : Domain) : (putDom s i x).pins = s.pins := rfl
@[simp] theorem putDom_hops (i : Nat) (x : Domain) : (putDom s i x).hops = s.hops := rfl
@[simp] theorem putDom_wagEpoch (i : Nat) (x : Domain) : (putDom s i x).wagEpoch = s.wagEpoch := rfl
@[simp] theorem putDom_col (i : Nat) (x : Domain) : (putDom s i x).col = s.col := rfl
@[simp] theorem putDom_links (i : Nat) (x : Domain) : (putDom s i x).links = s.links := rfl
@[simp] theorem putDom_rxLanes (i : Nat) (x : Domain) : (putDom s i x).rxLanes = s.rxLanes := rfl
@[simp] theorem putDom_dmcs (i : Nat) (x : Domain) : (putDom s i x).dmcs = s.dmcs := rfl
@[simp] theorem putDom_dram (i : Nat) (x : Domain) : (putDom s i x).dram = s.dram := rfl
@[simp] theorem putDom_dramUe (i : Nat) (x : Domain) : (putDom s i x).dramUe = s.dramUe := rfl
@[simp] theorem putDom_dramCe (i : Nat) (x : Domain) : (putDom s i x).dramCe = s.dramCe := rfl
@[simp] theorem putDom_dramOwn (i : Nat) (x : Domain) : (putDom s i x).dramOwn = s.dramOwn := rfl
@[simp] theorem putDom_dramSystem (i : Nat) (x : Domain) : (putDom s i x).dramSystem = s.dramSystem := rfl
@[simp] theorem putDom_interleave (i : Nat) (x : Domain) : (putDom s i x).interleave = s.interleave := rfl
@[simp] theorem putDom_ctxBase (i : Nat) (x : Domain) : (putDom s i x).ctxBase = s.ctxBase := rfl
@[simp] theorem putDom_ageLimit (i : Nat) (x : Domain) : (putDom s i x).ageLimit = s.ageLimit := rfl
@[simp] theorem putDom_minMargin (i : Nat) (x : Domain) : (putDom s i x).minMargin = s.minMargin := rfl
@[simp] theorem putDom_trackH (i : Nat) (x : Domain) : (putDom s i x).trackH = s.trackH := rfl
@[simp] theorem putDom_ceLimit (i : Nat) (x : Domain) : (putDom s i x).ceLimit = s.ceLimit := rfl
@[simp] theorem putDom_scrubOn (i : Nat) (x : Domain) : (putDom s i x).scrubOn = s.scrubOn := rfl
@[simp] theorem putDom_scrubPeriod (i : Nat) (x : Domain) : (putDom s i x).scrubPeriod = s.scrubPeriod := rfl
@[simp] theorem putDom_auxs (i : Nat) (x : Domain) : (putDom s i x).auxs = s.auxs := rfl
@[simp] theorem putDom_auxClrN (i : Nat) (x : Domain) : (putDom s i x).auxClrN = s.auxClrN := rfl
@[simp] theorem putDom_jnl (i : Nat) (x : Domain) : (putDom s i x).jnl = s.jnl := rfl
@[simp] theorem putDom_rpl (i : Nat) (x : Domain) : (putDom s i x).rpl = s.rpl := rfl
@[simp] theorem putDom_bus (i : Nat) (x : Domain) : (putDom s i x).bus = s.bus := rfl
@[simp] theorem putDom_bulk (i : Nat) (x : Domain) : (putDom s i x).bulk = s.bulk := rfl
@[simp] theorem putDom_free (i : Nat) (x : Domain) : (putDom s i x).free = s.free := rfl
@[simp] theorem putDom_pending (i : Nat) (x : Domain) : (putDom s i x).pending = s.pending := rfl

/-! ### modDom -/

@[simp] theorem modDom_dev (i : Nat) (f : Domain → Domain) : (modDom s i f).dev = s.dev := rfl
@[simp] theorem modDom_md (i : Nat) (f : Domain → Domain) : (modDom s i f).md = s.md := rfl
@[simp] theorem modDom_time (i : Nat) (f : Domain → Domain) : (modDom s i f).time = s.time := rfl
@[simp] theorem modDom_pace (i : Nat) (f : Domain → Domain) : (modDom s i f).pace = s.pace := rfl
@[simp] theorem modDom_kpr (i : Nat) (f : Domain → Domain) : (modDom s i f).kpr = s.kpr := rfl
@[simp] theorem modDom_svc (i : Nat) (f : Domain → Domain) : (modDom s i f).svc = s.svc := rfl
@[simp] theorem modDom_sec (i : Nat) (f : Domain → Domain) : (modDom s i f).sec = s.sec := rfl
@[simp] theorem modDom_grave (i : Nat) (f : Domain → Domain) : (modDom s i f).grave = s.grave := rfl
@[simp] theorem modDom_faults (i : Nat) (f : Domain → Domain) : (modDom s i f).faults = s.faults := rfl
@[simp] theorem modDom_mailboxes (i : Nat) (f : Domain → Domain) : (modDom s i f).mailboxes = s.mailboxes := rfl
@[simp] theorem modDom_contexts (i : Nat) (f : Domain → Domain) : (modDom s i f).contexts = s.contexts := rfl
@[simp] theorem modDom_msix (i : Nat) (f : Domain → Domain) : (modDom s i f).msix = s.msix := rfl
@[simp] theorem modDom_msixOpen (i : Nat) (f : Domain → Domain) : (modDom s i f).msixOpen = s.msixOpen := rfl
@[simp] theorem modDom_msixPba (i : Nat) (f : Domain → Domain) : (modDom s i f).msixPba = s.msixPba := rfl
@[simp] theorem modDom_msixTable (i : Nat) (f : Domain → Domain) : (modDom s i f).msixTable = s.msixTable := rfl
@[simp] theorem modDom_held (i : Nat) (f : Domain → Domain) : (modDom s i f).held = s.held := rfl
@[simp] theorem modDom_works (i : Nat) (f : Domain → Domain) : (modDom s i f).works = s.works := rfl
@[simp] theorem modDom_cells (i : Nat) (f : Domain → Domain) : (modDom s i f).cells = s.cells := rfl
@[simp] theorem modDom_cellOwn (i : Nat) (f : Domain → Domain) : (modDom s i f).cellOwn = s.cellOwn := rfl
@[simp] theorem modDom_hives (i : Nat) (f : Domain → Domain) : (modDom s i f).hives = s.hives := rfl
@[simp] theorem modDom_comb (i : Nat) (f : Domain → Domain) : (modDom s i f).comb = s.comb := rfl
@[simp] theorem modDom_scratch (i : Nat) (f : Domain → Domain) : (modDom s i f).scratch = s.scratch := rfl
@[simp] theorem modDom_inner (i : Nat) (f : Domain → Domain) : (modDom s i f).inner = s.inner := rfl
@[simp] theorem modDom_combUe (i : Nat) (f : Domain → Domain) : (modDom s i f).combUe = s.combUe := rfl
@[simp] theorem modDom_combCe (i : Nat) (f : Domain → Domain) : (modDom s i f).combCe = s.combCe := rfl
@[simp] theorem modDom_active (i : Nat) (f : Domain → Domain) : (modDom s i f).active = s.active := rfl
@[simp] theorem modDom_combOwn (i : Nat) (f : Domain → Domain) : (modDom s i f).combOwn = s.combOwn := rfl
@[simp] theorem modDom_queues (i : Nat) (f : Domain → Domain) : (modDom s i f).queues = s.queues := rfl
@[simp] theorem modDom_doorbells (i : Nat) (f : Domain → Domain) : (modDom s i f).doorbells = s.doorbells := rfl
@[simp] theorem modDom_caps (i : Nat) (f : Domain → Domain) : (modDom s i f).caps = s.caps := rfl
@[simp] theorem modDom_chans (i : Nat) (f : Domain → Domain) : (modDom s i f).chans = s.chans := rfl
@[simp] theorem modDom_tasks (i : Nat) (f : Domain → Domain) : (modDom s i f).tasks = s.tasks := rfl
@[simp] theorem modDom_counters (i : Nat) (f : Domain → Domain) : (modDom s i f).counters = s.counters := rfl
@[simp] theorem modDom_timers (i : Nat) (f : Domain → Domain) : (modDom s i f).timers = s.timers := rfl
@[simp] theorem modDom_pins (i : Nat) (f : Domain → Domain) : (modDom s i f).pins = s.pins := rfl
@[simp] theorem modDom_hops (i : Nat) (f : Domain → Domain) : (modDom s i f).hops = s.hops := rfl
@[simp] theorem modDom_wagEpoch (i : Nat) (f : Domain → Domain) : (modDom s i f).wagEpoch = s.wagEpoch := rfl
@[simp] theorem modDom_col (i : Nat) (f : Domain → Domain) : (modDom s i f).col = s.col := rfl
@[simp] theorem modDom_links (i : Nat) (f : Domain → Domain) : (modDom s i f).links = s.links := rfl
@[simp] theorem modDom_rxLanes (i : Nat) (f : Domain → Domain) : (modDom s i f).rxLanes = s.rxLanes := rfl
@[simp] theorem modDom_dmcs (i : Nat) (f : Domain → Domain) : (modDom s i f).dmcs = s.dmcs := rfl
@[simp] theorem modDom_dram (i : Nat) (f : Domain → Domain) : (modDom s i f).dram = s.dram := rfl
@[simp] theorem modDom_dramUe (i : Nat) (f : Domain → Domain) : (modDom s i f).dramUe = s.dramUe := rfl
@[simp] theorem modDom_dramCe (i : Nat) (f : Domain → Domain) : (modDom s i f).dramCe = s.dramCe := rfl
@[simp] theorem modDom_dramOwn (i : Nat) (f : Domain → Domain) : (modDom s i f).dramOwn = s.dramOwn := rfl
@[simp] theorem modDom_dramSystem (i : Nat) (f : Domain → Domain) : (modDom s i f).dramSystem = s.dramSystem := rfl
@[simp] theorem modDom_interleave (i : Nat) (f : Domain → Domain) : (modDom s i f).interleave = s.interleave := rfl
@[simp] theorem modDom_ctxBase (i : Nat) (f : Domain → Domain) : (modDom s i f).ctxBase = s.ctxBase := rfl
@[simp] theorem modDom_ageLimit (i : Nat) (f : Domain → Domain) : (modDom s i f).ageLimit = s.ageLimit := rfl
@[simp] theorem modDom_minMargin (i : Nat) (f : Domain → Domain) : (modDom s i f).minMargin = s.minMargin := rfl
@[simp] theorem modDom_trackH (i : Nat) (f : Domain → Domain) : (modDom s i f).trackH = s.trackH := rfl
@[simp] theorem modDom_ceLimit (i : Nat) (f : Domain → Domain) : (modDom s i f).ceLimit = s.ceLimit := rfl
@[simp] theorem modDom_scrubOn (i : Nat) (f : Domain → Domain) : (modDom s i f).scrubOn = s.scrubOn := rfl
@[simp] theorem modDom_scrubPeriod (i : Nat) (f : Domain → Domain) : (modDom s i f).scrubPeriod = s.scrubPeriod := rfl
@[simp] theorem modDom_auxs (i : Nat) (f : Domain → Domain) : (modDom s i f).auxs = s.auxs := rfl
@[simp] theorem modDom_auxClrN (i : Nat) (f : Domain → Domain) : (modDom s i f).auxClrN = s.auxClrN := rfl
@[simp] theorem modDom_jnl (i : Nat) (f : Domain → Domain) : (modDom s i f).jnl = s.jnl := rfl
@[simp] theorem modDom_rpl (i : Nat) (f : Domain → Domain) : (modDom s i f).rpl = s.rpl := rfl
@[simp] theorem modDom_bus (i : Nat) (f : Domain → Domain) : (modDom s i f).bus = s.bus := rfl
@[simp] theorem modDom_bulk (i : Nat) (f : Domain → Domain) : (modDom s i f).bulk = s.bulk := rfl
@[simp] theorem modDom_free (i : Nat) (f : Domain → Domain) : (modDom s i f).free = s.free := rfl
@[simp] theorem modDom_pending (i : Nat) (f : Domain → Domain) : (modDom s i f).pending = s.pending := rfl

/-! ### modAux -/

@[simp] theorem modAux_dev (i : Nat) (f : Aux → Aux) : (modAux s i f).dev = s.dev := rfl
@[simp] theorem modAux_md (i : Nat) (f : Aux → Aux) : (modAux s i f).md = s.md := rfl
@[simp] theorem modAux_time (i : Nat) (f : Aux → Aux) : (modAux s i f).time = s.time := rfl
@[simp] theorem modAux_pace (i : Nat) (f : Aux → Aux) : (modAux s i f).pace = s.pace := rfl
@[simp] theorem modAux_kpr (i : Nat) (f : Aux → Aux) : (modAux s i f).kpr = s.kpr := rfl
@[simp] theorem modAux_svc (i : Nat) (f : Aux → Aux) : (modAux s i f).svc = s.svc := rfl
@[simp] theorem modAux_sec (i : Nat) (f : Aux → Aux) : (modAux s i f).sec = s.sec := rfl
@[simp] theorem modAux_grave (i : Nat) (f : Aux → Aux) : (modAux s i f).grave = s.grave := rfl
@[simp] theorem modAux_faults (i : Nat) (f : Aux → Aux) : (modAux s i f).faults = s.faults := rfl
@[simp] theorem modAux_mailboxes (i : Nat) (f : Aux → Aux) : (modAux s i f).mailboxes = s.mailboxes := rfl
@[simp] theorem modAux_contexts (i : Nat) (f : Aux → Aux) : (modAux s i f).contexts = s.contexts := rfl
@[simp] theorem modAux_msix (i : Nat) (f : Aux → Aux) : (modAux s i f).msix = s.msix := rfl
@[simp] theorem modAux_msixOpen (i : Nat) (f : Aux → Aux) : (modAux s i f).msixOpen = s.msixOpen := rfl
@[simp] theorem modAux_msixPba (i : Nat) (f : Aux → Aux) : (modAux s i f).msixPba = s.msixPba := rfl
@[simp] theorem modAux_msixTable (i : Nat) (f : Aux → Aux) : (modAux s i f).msixTable = s.msixTable := rfl
@[simp] theorem modAux_held (i : Nat) (f : Aux → Aux) : (modAux s i f).held = s.held := rfl
@[simp] theorem modAux_works (i : Nat) (f : Aux → Aux) : (modAux s i f).works = s.works := rfl
@[simp] theorem modAux_cells (i : Nat) (f : Aux → Aux) : (modAux s i f).cells = s.cells := rfl
@[simp] theorem modAux_cellOwn (i : Nat) (f : Aux → Aux) : (modAux s i f).cellOwn = s.cellOwn := rfl
@[simp] theorem modAux_hives (i : Nat) (f : Aux → Aux) : (modAux s i f).hives = s.hives := rfl
@[simp] theorem modAux_comb (i : Nat) (f : Aux → Aux) : (modAux s i f).comb = s.comb := rfl
@[simp] theorem modAux_scratch (i : Nat) (f : Aux → Aux) : (modAux s i f).scratch = s.scratch := rfl
@[simp] theorem modAux_inner (i : Nat) (f : Aux → Aux) : (modAux s i f).inner = s.inner := rfl
@[simp] theorem modAux_combUe (i : Nat) (f : Aux → Aux) : (modAux s i f).combUe = s.combUe := rfl
@[simp] theorem modAux_combCe (i : Nat) (f : Aux → Aux) : (modAux s i f).combCe = s.combCe := rfl
@[simp] theorem modAux_active (i : Nat) (f : Aux → Aux) : (modAux s i f).active = s.active := rfl
@[simp] theorem modAux_combOwn (i : Nat) (f : Aux → Aux) : (modAux s i f).combOwn = s.combOwn := rfl
@[simp] theorem modAux_queues (i : Nat) (f : Aux → Aux) : (modAux s i f).queues = s.queues := rfl
@[simp] theorem modAux_doorbells (i : Nat) (f : Aux → Aux) : (modAux s i f).doorbells = s.doorbells := rfl
@[simp] theorem modAux_caps (i : Nat) (f : Aux → Aux) : (modAux s i f).caps = s.caps := rfl
@[simp] theorem modAux_chans (i : Nat) (f : Aux → Aux) : (modAux s i f).chans = s.chans := rfl
@[simp] theorem modAux_tasks (i : Nat) (f : Aux → Aux) : (modAux s i f).tasks = s.tasks := rfl
@[simp] theorem modAux_counters (i : Nat) (f : Aux → Aux) : (modAux s i f).counters = s.counters := rfl
@[simp] theorem modAux_timers (i : Nat) (f : Aux → Aux) : (modAux s i f).timers = s.timers := rfl
@[simp] theorem modAux_pins (i : Nat) (f : Aux → Aux) : (modAux s i f).pins = s.pins := rfl
@[simp] theorem modAux_hops (i : Nat) (f : Aux → Aux) : (modAux s i f).hops = s.hops := rfl
@[simp] theorem modAux_wagEpoch (i : Nat) (f : Aux → Aux) : (modAux s i f).wagEpoch = s.wagEpoch := rfl
@[simp] theorem modAux_domains (i : Nat) (f : Aux → Aux) : (modAux s i f).domains = s.domains := rfl
@[simp] theorem modAux_col (i : Nat) (f : Aux → Aux) : (modAux s i f).col = s.col := rfl
@[simp] theorem modAux_links (i : Nat) (f : Aux → Aux) : (modAux s i f).links = s.links := rfl
@[simp] theorem modAux_rxLanes (i : Nat) (f : Aux → Aux) : (modAux s i f).rxLanes = s.rxLanes := rfl
@[simp] theorem modAux_dmcs (i : Nat) (f : Aux → Aux) : (modAux s i f).dmcs = s.dmcs := rfl
@[simp] theorem modAux_dram (i : Nat) (f : Aux → Aux) : (modAux s i f).dram = s.dram := rfl
@[simp] theorem modAux_dramUe (i : Nat) (f : Aux → Aux) : (modAux s i f).dramUe = s.dramUe := rfl
@[simp] theorem modAux_dramCe (i : Nat) (f : Aux → Aux) : (modAux s i f).dramCe = s.dramCe := rfl
@[simp] theorem modAux_dramOwn (i : Nat) (f : Aux → Aux) : (modAux s i f).dramOwn = s.dramOwn := rfl
@[simp] theorem modAux_dramSystem (i : Nat) (f : Aux → Aux) : (modAux s i f).dramSystem = s.dramSystem := rfl
@[simp] theorem modAux_interleave (i : Nat) (f : Aux → Aux) : (modAux s i f).interleave = s.interleave := rfl
@[simp] theorem modAux_ctxBase (i : Nat) (f : Aux → Aux) : (modAux s i f).ctxBase = s.ctxBase := rfl
@[simp] theorem modAux_ageLimit (i : Nat) (f : Aux → Aux) : (modAux s i f).ageLimit = s.ageLimit := rfl
@[simp] theorem modAux_minMargin (i : Nat) (f : Aux → Aux) : (modAux s i f).minMargin = s.minMargin := rfl
@[simp] theorem modAux_trackH (i : Nat) (f : Aux → Aux) : (modAux s i f).trackH = s.trackH := rfl
@[simp] theorem modAux_ceLimit (i : Nat) (f : Aux → Aux) : (modAux s i f).ceLimit = s.ceLimit := rfl
@[simp] theorem modAux_scrubOn (i : Nat) (f : Aux → Aux) : (modAux s i f).scrubOn = s.scrubOn := rfl
@[simp] theorem modAux_scrubPeriod (i : Nat) (f : Aux → Aux) : (modAux s i f).scrubPeriod = s.scrubPeriod := rfl
@[simp] theorem modAux_auxClrN (i : Nat) (f : Aux → Aux) : (modAux s i f).auxClrN = s.auxClrN := rfl
@[simp] theorem modAux_jnl (i : Nat) (f : Aux → Aux) : (modAux s i f).jnl = s.jnl := rfl
@[simp] theorem modAux_rpl (i : Nat) (f : Aux → Aux) : (modAux s i f).rpl = s.rpl := rfl
@[simp] theorem modAux_bus (i : Nat) (f : Aux → Aux) : (modAux s i f).bus = s.bus := rfl
@[simp] theorem modAux_bulk (i : Nat) (f : Aux → Aux) : (modAux s i f).bulk = s.bulk := rfl
@[simp] theorem modAux_free (i : Nat) (f : Aux → Aux) : (modAux s i f).free = s.free := rfl
@[simp] theorem modAux_pending (i : Nat) (f : Aux → Aux) : (modAux s i f).pending = s.pending := rfl

/-! ### modMb -/

@[simp] theorem modMb_dev (i j : Nat) (f : Mailbox → Mailbox) : (modMb s i j f).dev = s.dev := rfl
@[simp] theorem modMb_md (i j : Nat) (f : Mailbox → Mailbox) : (modMb s i j f).md = s.md := rfl
@[simp] theorem modMb_time (i j : Nat) (f : Mailbox → Mailbox) : (modMb s i j f).time = s.time := rfl
@[simp] theorem modMb_pace (i j : Nat) (f : Mailbox → Mailbox) : (modMb s i j f).pace = s.pace := rfl
@[simp] theorem modMb_kpr (i j : Nat) (f : Mailbox → Mailbox) : (modMb s i j f).kpr = s.kpr := rfl
@[simp] theorem modMb_svc (i j : Nat) (f : Mailbox → Mailbox) : (modMb s i j f).svc = s.svc := rfl
@[simp] theorem modMb_sec (i j : Nat) (f : Mailbox → Mailbox) : (modMb s i j f).sec = s.sec := rfl
@[simp] theorem modMb_grave (i j : Nat) (f : Mailbox → Mailbox) : (modMb s i j f).grave = s.grave := rfl
@[simp] theorem modMb_faults (i j : Nat) (f : Mailbox → Mailbox) : (modMb s i j f).faults = s.faults := rfl
@[simp] theorem modMb_contexts (i j : Nat) (f : Mailbox → Mailbox) : (modMb s i j f).contexts = s.contexts := rfl
@[simp] theorem modMb_msix (i j : Nat) (f : Mailbox → Mailbox) : (modMb s i j f).msix = s.msix := rfl
@[simp] theorem modMb_msixOpen (i j : Nat) (f : Mailbox → Mailbox) : (modMb s i j f).msixOpen = s.msixOpen := rfl
@[simp] theorem modMb_msixPba (i j : Nat) (f : Mailbox → Mailbox) : (modMb s i j f).msixPba = s.msixPba := rfl
@[simp] theorem modMb_msixTable (i j : Nat) (f : Mailbox → Mailbox) : (modMb s i j f).msixTable = s.msixTable := rfl
@[simp] theorem modMb_held (i j : Nat) (f : Mailbox → Mailbox) : (modMb s i j f).held = s.held := rfl
@[simp] theorem modMb_works (i j : Nat) (f : Mailbox → Mailbox) : (modMb s i j f).works = s.works := rfl
@[simp] theorem modMb_cells (i j : Nat) (f : Mailbox → Mailbox) : (modMb s i j f).cells = s.cells := rfl
@[simp] theorem modMb_cellOwn (i j : Nat) (f : Mailbox → Mailbox) : (modMb s i j f).cellOwn = s.cellOwn := rfl
@[simp] theorem modMb_hives (i j : Nat) (f : Mailbox → Mailbox) : (modMb s i j f).hives = s.hives := rfl
@[simp] theorem modMb_comb (i j : Nat) (f : Mailbox → Mailbox) : (modMb s i j f).comb = s.comb := rfl
@[simp] theorem modMb_scratch (i j : Nat) (f : Mailbox → Mailbox) : (modMb s i j f).scratch = s.scratch := rfl
@[simp] theorem modMb_inner (i j : Nat) (f : Mailbox → Mailbox) : (modMb s i j f).inner = s.inner := rfl
@[simp] theorem modMb_combUe (i j : Nat) (f : Mailbox → Mailbox) : (modMb s i j f).combUe = s.combUe := rfl
@[simp] theorem modMb_combCe (i j : Nat) (f : Mailbox → Mailbox) : (modMb s i j f).combCe = s.combCe := rfl
@[simp] theorem modMb_active (i j : Nat) (f : Mailbox → Mailbox) : (modMb s i j f).active = s.active := rfl
@[simp] theorem modMb_combOwn (i j : Nat) (f : Mailbox → Mailbox) : (modMb s i j f).combOwn = s.combOwn := rfl
@[simp] theorem modMb_queues (i j : Nat) (f : Mailbox → Mailbox) : (modMb s i j f).queues = s.queues := rfl
@[simp] theorem modMb_doorbells (i j : Nat) (f : Mailbox → Mailbox) : (modMb s i j f).doorbells = s.doorbells := rfl
@[simp] theorem modMb_caps (i j : Nat) (f : Mailbox → Mailbox) : (modMb s i j f).caps = s.caps := rfl
@[simp] theorem modMb_chans (i j : Nat) (f : Mailbox → Mailbox) : (modMb s i j f).chans = s.chans := rfl
@[simp] theorem modMb_tasks (i j : Nat) (f : Mailbox → Mailbox) : (modMb s i j f).tasks = s.tasks := rfl
@[simp] theorem modMb_counters (i j : Nat) (f : Mailbox → Mailbox) : (modMb s i j f).counters = s.counters := rfl
@[simp] theorem modMb_timers (i j : Nat) (f : Mailbox → Mailbox) : (modMb s i j f).timers = s.timers := rfl
@[simp] theorem modMb_pins (i j : Nat) (f : Mailbox → Mailbox) : (modMb s i j f).pins = s.pins := rfl
@[simp] theorem modMb_hops (i j : Nat) (f : Mailbox → Mailbox) : (modMb s i j f).hops = s.hops := rfl
@[simp] theorem modMb_wagEpoch (i j : Nat) (f : Mailbox → Mailbox) : (modMb s i j f).wagEpoch = s.wagEpoch := rfl
@[simp] theorem modMb_domains (i j : Nat) (f : Mailbox → Mailbox) : (modMb s i j f).domains = s.domains := rfl
@[simp] theorem modMb_col (i j : Nat) (f : Mailbox → Mailbox) : (modMb s i j f).col = s.col := rfl
@[simp] theorem modMb_links (i j : Nat) (f : Mailbox → Mailbox) : (modMb s i j f).links = s.links := rfl
@[simp] theorem modMb_rxLanes (i j : Nat) (f : Mailbox → Mailbox) : (modMb s i j f).rxLanes = s.rxLanes := rfl
@[simp] theorem modMb_dmcs (i j : Nat) (f : Mailbox → Mailbox) : (modMb s i j f).dmcs = s.dmcs := rfl
@[simp] theorem modMb_dram (i j : Nat) (f : Mailbox → Mailbox) : (modMb s i j f).dram = s.dram := rfl
@[simp] theorem modMb_dramUe (i j : Nat) (f : Mailbox → Mailbox) : (modMb s i j f).dramUe = s.dramUe := rfl
@[simp] theorem modMb_dramCe (i j : Nat) (f : Mailbox → Mailbox) : (modMb s i j f).dramCe = s.dramCe := rfl
@[simp] theorem modMb_dramOwn (i j : Nat) (f : Mailbox → Mailbox) : (modMb s i j f).dramOwn = s.dramOwn := rfl
@[simp] theorem modMb_dramSystem (i j : Nat) (f : Mailbox → Mailbox) : (modMb s i j f).dramSystem = s.dramSystem := rfl
@[simp] theorem modMb_interleave (i j : Nat) (f : Mailbox → Mailbox) : (modMb s i j f).interleave = s.interleave := rfl
@[simp] theorem modMb_ctxBase (i j : Nat) (f : Mailbox → Mailbox) : (modMb s i j f).ctxBase = s.ctxBase := rfl
@[simp] theorem modMb_ageLimit (i j : Nat) (f : Mailbox → Mailbox) : (modMb s i j f).ageLimit = s.ageLimit := rfl
@[simp] theorem modMb_minMargin (i j : Nat) (f : Mailbox → Mailbox) : (modMb s i j f).minMargin = s.minMargin := rfl
@[simp] theorem modMb_trackH (i j : Nat) (f : Mailbox → Mailbox) : (modMb s i j f).trackH = s.trackH := rfl
@[simp] theorem modMb_ceLimit (i j : Nat) (f : Mailbox → Mailbox) : (modMb s i j f).ceLimit = s.ceLimit := rfl
@[simp] theorem modMb_scrubOn (i j : Nat) (f : Mailbox → Mailbox) : (modMb s i j f).scrubOn = s.scrubOn := rfl
@[simp] theorem modMb_scrubPeriod (i j : Nat) (f : Mailbox → Mailbox) : (modMb s i j f).scrubPeriod = s.scrubPeriod := rfl
@[simp] theorem modMb_auxs (i j : Nat) (f : Mailbox → Mailbox) : (modMb s i j f).auxs = s.auxs := rfl
@[simp] theorem modMb_auxClrN (i j : Nat) (f : Mailbox → Mailbox) : (modMb s i j f).auxClrN = s.auxClrN := rfl
@[simp] theorem modMb_jnl (i j : Nat) (f : Mailbox → Mailbox) : (modMb s i j f).jnl = s.jnl := rfl
@[simp] theorem modMb_rpl (i j : Nat) (f : Mailbox → Mailbox) : (modMb s i j f).rpl = s.rpl := rfl
@[simp] theorem modMb_bus (i j : Nat) (f : Mailbox → Mailbox) : (modMb s i j f).bus = s.bus := rfl
@[simp] theorem modMb_bulk (i j : Nat) (f : Mailbox → Mailbox) : (modMb s i j f).bulk = s.bulk := rfl
@[simp] theorem modMb_free (i j : Nat) (f : Mailbox → Mailbox) : (modMb s i j f).free = s.free := rfl
@[simp] theorem modMb_pending (i j : Nat) (f : Mailbox → Mailbox) : (modMb s i j f).pending = s.pending := rfl

/-! ### modChan -/

@[simp] theorem modChan_dev (i : Nat) (f : Chan → Chan) : (modChan s i f).dev = s.dev := rfl
@[simp] theorem modChan_md (i : Nat) (f : Chan → Chan) : (modChan s i f).md = s.md := rfl
@[simp] theorem modChan_time (i : Nat) (f : Chan → Chan) : (modChan s i f).time = s.time := rfl
@[simp] theorem modChan_pace (i : Nat) (f : Chan → Chan) : (modChan s i f).pace = s.pace := rfl
@[simp] theorem modChan_kpr (i : Nat) (f : Chan → Chan) : (modChan s i f).kpr = s.kpr := rfl
@[simp] theorem modChan_svc (i : Nat) (f : Chan → Chan) : (modChan s i f).svc = s.svc := rfl
@[simp] theorem modChan_sec (i : Nat) (f : Chan → Chan) : (modChan s i f).sec = s.sec := rfl
@[simp] theorem modChan_grave (i : Nat) (f : Chan → Chan) : (modChan s i f).grave = s.grave := rfl
@[simp] theorem modChan_faults (i : Nat) (f : Chan → Chan) : (modChan s i f).faults = s.faults := rfl
@[simp] theorem modChan_mailboxes (i : Nat) (f : Chan → Chan) : (modChan s i f).mailboxes = s.mailboxes := rfl
@[simp] theorem modChan_contexts (i : Nat) (f : Chan → Chan) : (modChan s i f).contexts = s.contexts := rfl
@[simp] theorem modChan_msix (i : Nat) (f : Chan → Chan) : (modChan s i f).msix = s.msix := rfl
@[simp] theorem modChan_msixOpen (i : Nat) (f : Chan → Chan) : (modChan s i f).msixOpen = s.msixOpen := rfl
@[simp] theorem modChan_msixPba (i : Nat) (f : Chan → Chan) : (modChan s i f).msixPba = s.msixPba := rfl
@[simp] theorem modChan_msixTable (i : Nat) (f : Chan → Chan) : (modChan s i f).msixTable = s.msixTable := rfl
@[simp] theorem modChan_held (i : Nat) (f : Chan → Chan) : (modChan s i f).held = s.held := rfl
@[simp] theorem modChan_works (i : Nat) (f : Chan → Chan) : (modChan s i f).works = s.works := rfl
@[simp] theorem modChan_cells (i : Nat) (f : Chan → Chan) : (modChan s i f).cells = s.cells := rfl
@[simp] theorem modChan_cellOwn (i : Nat) (f : Chan → Chan) : (modChan s i f).cellOwn = s.cellOwn := rfl
@[simp] theorem modChan_hives (i : Nat) (f : Chan → Chan) : (modChan s i f).hives = s.hives := rfl
@[simp] theorem modChan_comb (i : Nat) (f : Chan → Chan) : (modChan s i f).comb = s.comb := rfl
@[simp] theorem modChan_scratch (i : Nat) (f : Chan → Chan) : (modChan s i f).scratch = s.scratch := rfl
@[simp] theorem modChan_inner (i : Nat) (f : Chan → Chan) : (modChan s i f).inner = s.inner := rfl
@[simp] theorem modChan_combUe (i : Nat) (f : Chan → Chan) : (modChan s i f).combUe = s.combUe := rfl
@[simp] theorem modChan_combCe (i : Nat) (f : Chan → Chan) : (modChan s i f).combCe = s.combCe := rfl
@[simp] theorem modChan_active (i : Nat) (f : Chan → Chan) : (modChan s i f).active = s.active := rfl
@[simp] theorem modChan_combOwn (i : Nat) (f : Chan → Chan) : (modChan s i f).combOwn = s.combOwn := rfl
@[simp] theorem modChan_queues (i : Nat) (f : Chan → Chan) : (modChan s i f).queues = s.queues := rfl
@[simp] theorem modChan_doorbells (i : Nat) (f : Chan → Chan) : (modChan s i f).doorbells = s.doorbells := rfl
@[simp] theorem modChan_caps (i : Nat) (f : Chan → Chan) : (modChan s i f).caps = s.caps := rfl
@[simp] theorem modChan_tasks (i : Nat) (f : Chan → Chan) : (modChan s i f).tasks = s.tasks := rfl
@[simp] theorem modChan_counters (i : Nat) (f : Chan → Chan) : (modChan s i f).counters = s.counters := rfl
@[simp] theorem modChan_timers (i : Nat) (f : Chan → Chan) : (modChan s i f).timers = s.timers := rfl
@[simp] theorem modChan_pins (i : Nat) (f : Chan → Chan) : (modChan s i f).pins = s.pins := rfl
@[simp] theorem modChan_hops (i : Nat) (f : Chan → Chan) : (modChan s i f).hops = s.hops := rfl
@[simp] theorem modChan_wagEpoch (i : Nat) (f : Chan → Chan) : (modChan s i f).wagEpoch = s.wagEpoch := rfl
@[simp] theorem modChan_domains (i : Nat) (f : Chan → Chan) : (modChan s i f).domains = s.domains := rfl
@[simp] theorem modChan_col (i : Nat) (f : Chan → Chan) : (modChan s i f).col = s.col := rfl
@[simp] theorem modChan_links (i : Nat) (f : Chan → Chan) : (modChan s i f).links = s.links := rfl
@[simp] theorem modChan_rxLanes (i : Nat) (f : Chan → Chan) : (modChan s i f).rxLanes = s.rxLanes := rfl
@[simp] theorem modChan_dmcs (i : Nat) (f : Chan → Chan) : (modChan s i f).dmcs = s.dmcs := rfl
@[simp] theorem modChan_dram (i : Nat) (f : Chan → Chan) : (modChan s i f).dram = s.dram := rfl
@[simp] theorem modChan_dramUe (i : Nat) (f : Chan → Chan) : (modChan s i f).dramUe = s.dramUe := rfl
@[simp] theorem modChan_dramCe (i : Nat) (f : Chan → Chan) : (modChan s i f).dramCe = s.dramCe := rfl
@[simp] theorem modChan_dramOwn (i : Nat) (f : Chan → Chan) : (modChan s i f).dramOwn = s.dramOwn := rfl
@[simp] theorem modChan_dramSystem (i : Nat) (f : Chan → Chan) : (modChan s i f).dramSystem = s.dramSystem := rfl
@[simp] theorem modChan_interleave (i : Nat) (f : Chan → Chan) : (modChan s i f).interleave = s.interleave := rfl
@[simp] theorem modChan_ctxBase (i : Nat) (f : Chan → Chan) : (modChan s i f).ctxBase = s.ctxBase := rfl
@[simp] theorem modChan_ageLimit (i : Nat) (f : Chan → Chan) : (modChan s i f).ageLimit = s.ageLimit := rfl
@[simp] theorem modChan_minMargin (i : Nat) (f : Chan → Chan) : (modChan s i f).minMargin = s.minMargin := rfl
@[simp] theorem modChan_trackH (i : Nat) (f : Chan → Chan) : (modChan s i f).trackH = s.trackH := rfl
@[simp] theorem modChan_ceLimit (i : Nat) (f : Chan → Chan) : (modChan s i f).ceLimit = s.ceLimit := rfl
@[simp] theorem modChan_scrubOn (i : Nat) (f : Chan → Chan) : (modChan s i f).scrubOn = s.scrubOn := rfl
@[simp] theorem modChan_scrubPeriod (i : Nat) (f : Chan → Chan) : (modChan s i f).scrubPeriod = s.scrubPeriod := rfl
@[simp] theorem modChan_auxs (i : Nat) (f : Chan → Chan) : (modChan s i f).auxs = s.auxs := rfl
@[simp] theorem modChan_auxClrN (i : Nat) (f : Chan → Chan) : (modChan s i f).auxClrN = s.auxClrN := rfl
@[simp] theorem modChan_jnl (i : Nat) (f : Chan → Chan) : (modChan s i f).jnl = s.jnl := rfl
@[simp] theorem modChan_rpl (i : Nat) (f : Chan → Chan) : (modChan s i f).rpl = s.rpl := rfl
@[simp] theorem modChan_bus (i : Nat) (f : Chan → Chan) : (modChan s i f).bus = s.bus := rfl
@[simp] theorem modChan_bulk (i : Nat) (f : Chan → Chan) : (modChan s i f).bulk = s.bulk := rfl
@[simp] theorem modChan_free (i : Nat) (f : Chan → Chan) : (modChan s i f).free = s.free := rfl
@[simp] theorem modChan_pending (i : Nat) (f : Chan → Chan) : (modChan s i f).pending = s.pending := rfl

/-! ### modTask -/

@[simp] theorem modTask_dev (i : Nat) (f : Task → Task) : (modTask s i f).dev = s.dev := rfl
@[simp] theorem modTask_md (i : Nat) (f : Task → Task) : (modTask s i f).md = s.md := rfl
@[simp] theorem modTask_time (i : Nat) (f : Task → Task) : (modTask s i f).time = s.time := rfl
@[simp] theorem modTask_pace (i : Nat) (f : Task → Task) : (modTask s i f).pace = s.pace := rfl
@[simp] theorem modTask_kpr (i : Nat) (f : Task → Task) : (modTask s i f).kpr = s.kpr := rfl
@[simp] theorem modTask_svc (i : Nat) (f : Task → Task) : (modTask s i f).svc = s.svc := rfl
@[simp] theorem modTask_sec (i : Nat) (f : Task → Task) : (modTask s i f).sec = s.sec := rfl
@[simp] theorem modTask_grave (i : Nat) (f : Task → Task) : (modTask s i f).grave = s.grave := rfl
@[simp] theorem modTask_faults (i : Nat) (f : Task → Task) : (modTask s i f).faults = s.faults := rfl
@[simp] theorem modTask_mailboxes (i : Nat) (f : Task → Task) : (modTask s i f).mailboxes = s.mailboxes := rfl
@[simp] theorem modTask_contexts (i : Nat) (f : Task → Task) : (modTask s i f).contexts = s.contexts := rfl
@[simp] theorem modTask_msix (i : Nat) (f : Task → Task) : (modTask s i f).msix = s.msix := rfl
@[simp] theorem modTask_msixOpen (i : Nat) (f : Task → Task) : (modTask s i f).msixOpen = s.msixOpen := rfl
@[simp] theorem modTask_msixPba (i : Nat) (f : Task → Task) : (modTask s i f).msixPba = s.msixPba := rfl
@[simp] theorem modTask_msixTable (i : Nat) (f : Task → Task) : (modTask s i f).msixTable = s.msixTable := rfl
@[simp] theorem modTask_held (i : Nat) (f : Task → Task) : (modTask s i f).held = s.held := rfl
@[simp] theorem modTask_works (i : Nat) (f : Task → Task) : (modTask s i f).works = s.works := rfl
@[simp] theorem modTask_cells (i : Nat) (f : Task → Task) : (modTask s i f).cells = s.cells := rfl
@[simp] theorem modTask_cellOwn (i : Nat) (f : Task → Task) : (modTask s i f).cellOwn = s.cellOwn := rfl
@[simp] theorem modTask_hives (i : Nat) (f : Task → Task) : (modTask s i f).hives = s.hives := rfl
@[simp] theorem modTask_comb (i : Nat) (f : Task → Task) : (modTask s i f).comb = s.comb := rfl
@[simp] theorem modTask_scratch (i : Nat) (f : Task → Task) : (modTask s i f).scratch = s.scratch := rfl
@[simp] theorem modTask_inner (i : Nat) (f : Task → Task) : (modTask s i f).inner = s.inner := rfl
@[simp] theorem modTask_combUe (i : Nat) (f : Task → Task) : (modTask s i f).combUe = s.combUe := rfl
@[simp] theorem modTask_combCe (i : Nat) (f : Task → Task) : (modTask s i f).combCe = s.combCe := rfl
@[simp] theorem modTask_active (i : Nat) (f : Task → Task) : (modTask s i f).active = s.active := rfl
@[simp] theorem modTask_combOwn (i : Nat) (f : Task → Task) : (modTask s i f).combOwn = s.combOwn := rfl
@[simp] theorem modTask_queues (i : Nat) (f : Task → Task) : (modTask s i f).queues = s.queues := rfl
@[simp] theorem modTask_doorbells (i : Nat) (f : Task → Task) : (modTask s i f).doorbells = s.doorbells := rfl
@[simp] theorem modTask_caps (i : Nat) (f : Task → Task) : (modTask s i f).caps = s.caps := rfl
@[simp] theorem modTask_chans (i : Nat) (f : Task → Task) : (modTask s i f).chans = s.chans := rfl
@[simp] theorem modTask_counters (i : Nat) (f : Task → Task) : (modTask s i f).counters = s.counters := rfl
@[simp] theorem modTask_timers (i : Nat) (f : Task → Task) : (modTask s i f).timers = s.timers := rfl
@[simp] theorem modTask_pins (i : Nat) (f : Task → Task) : (modTask s i f).pins = s.pins := rfl
@[simp] theorem modTask_hops (i : Nat) (f : Task → Task) : (modTask s i f).hops = s.hops := rfl
@[simp] theorem modTask_wagEpoch (i : Nat) (f : Task → Task) : (modTask s i f).wagEpoch = s.wagEpoch := rfl
@[simp] theorem modTask_domains (i : Nat) (f : Task → Task) : (modTask s i f).domains = s.domains := rfl
@[simp] theorem modTask_col (i : Nat) (f : Task → Task) : (modTask s i f).col = s.col := rfl
@[simp] theorem modTask_links (i : Nat) (f : Task → Task) : (modTask s i f).links = s.links := rfl
@[simp] theorem modTask_rxLanes (i : Nat) (f : Task → Task) : (modTask s i f).rxLanes = s.rxLanes := rfl
@[simp] theorem modTask_dmcs (i : Nat) (f : Task → Task) : (modTask s i f).dmcs = s.dmcs := rfl
@[simp] theorem modTask_dram (i : Nat) (f : Task → Task) : (modTask s i f).dram = s.dram := rfl
@[simp] theorem modTask_dramUe (i : Nat) (f : Task → Task) : (modTask s i f).dramUe = s.dramUe := rfl
@[simp] theorem modTask_dramCe (i : Nat) (f : Task → Task) : (modTask s i f).dramCe = s.dramCe := rfl
@[simp] theorem modTask_dramOwn (i : Nat) (f : Task → Task) : (modTask s i f).dramOwn = s.dramOwn := rfl
@[simp] theorem modTask_dramSystem (i : Nat) (f : Task → Task) : (modTask s i f).dramSystem = s.dramSystem := rfl
@[simp] theorem modTask_interleave (i : Nat) (f : Task → Task) : (modTask s i f).interleave = s.interleave := rfl
@[simp] theorem modTask_ctxBase (i : Nat) (f : Task → Task) : (modTask s i f).ctxBase = s.ctxBase := rfl
@[simp] theorem modTask_ageLimit (i : Nat) (f : Task → Task) : (modTask s i f).ageLimit = s.ageLimit := rfl
@[simp] theorem modTask_minMargin (i : Nat) (f : Task → Task) : (modTask s i f).minMargin = s.minMargin := rfl
@[simp] theorem modTask_trackH (i : Nat) (f : Task → Task) : (modTask s i f).trackH = s.trackH := rfl
@[simp] theorem modTask_ceLimit (i : Nat) (f : Task → Task) : (modTask s i f).ceLimit = s.ceLimit := rfl
@[simp] theorem modTask_scrubOn (i : Nat) (f : Task → Task) : (modTask s i f).scrubOn = s.scrubOn := rfl
@[simp] theorem modTask_scrubPeriod (i : Nat) (f : Task → Task) : (modTask s i f).scrubPeriod = s.scrubPeriod := rfl
@[simp] theorem modTask_auxs (i : Nat) (f : Task → Task) : (modTask s i f).auxs = s.auxs := rfl
@[simp] theorem modTask_auxClrN (i : Nat) (f : Task → Task) : (modTask s i f).auxClrN = s.auxClrN := rfl
@[simp] theorem modTask_jnl (i : Nat) (f : Task → Task) : (modTask s i f).jnl = s.jnl := rfl
@[simp] theorem modTask_rpl (i : Nat) (f : Task → Task) : (modTask s i f).rpl = s.rpl := rfl
@[simp] theorem modTask_bus (i : Nat) (f : Task → Task) : (modTask s i f).bus = s.bus := rfl
@[simp] theorem modTask_bulk (i : Nat) (f : Task → Task) : (modTask s i f).bulk = s.bulk := rfl
@[simp] theorem modTask_free (i : Nat) (f : Task → Task) : (modTask s i f).free = s.free := rfl
@[simp] theorem modTask_pending (i : Nat) (f : Task → Task) : (modTask s i f).pending = s.pending := rfl

/-! ### modPin -/

@[simp] theorem modPin_dev (i : Nat) (f : Pin → Pin) : (modPin s i f).dev = s.dev := rfl
@[simp] theorem modPin_md (i : Nat) (f : Pin → Pin) : (modPin s i f).md = s.md := rfl
@[simp] theorem modPin_time (i : Nat) (f : Pin → Pin) : (modPin s i f).time = s.time := rfl
@[simp] theorem modPin_pace (i : Nat) (f : Pin → Pin) : (modPin s i f).pace = s.pace := rfl
@[simp] theorem modPin_kpr (i : Nat) (f : Pin → Pin) : (modPin s i f).kpr = s.kpr := rfl
@[simp] theorem modPin_svc (i : Nat) (f : Pin → Pin) : (modPin s i f).svc = s.svc := rfl
@[simp] theorem modPin_sec (i : Nat) (f : Pin → Pin) : (modPin s i f).sec = s.sec := rfl
@[simp] theorem modPin_grave (i : Nat) (f : Pin → Pin) : (modPin s i f).grave = s.grave := rfl
@[simp] theorem modPin_faults (i : Nat) (f : Pin → Pin) : (modPin s i f).faults = s.faults := rfl
@[simp] theorem modPin_mailboxes (i : Nat) (f : Pin → Pin) : (modPin s i f).mailboxes = s.mailboxes := rfl
@[simp] theorem modPin_contexts (i : Nat) (f : Pin → Pin) : (modPin s i f).contexts = s.contexts := rfl
@[simp] theorem modPin_msix (i : Nat) (f : Pin → Pin) : (modPin s i f).msix = s.msix := rfl
@[simp] theorem modPin_msixOpen (i : Nat) (f : Pin → Pin) : (modPin s i f).msixOpen = s.msixOpen := rfl
@[simp] theorem modPin_msixPba (i : Nat) (f : Pin → Pin) : (modPin s i f).msixPba = s.msixPba := rfl
@[simp] theorem modPin_msixTable (i : Nat) (f : Pin → Pin) : (modPin s i f).msixTable = s.msixTable := rfl
@[simp] theorem modPin_held (i : Nat) (f : Pin → Pin) : (modPin s i f).held = s.held := rfl
@[simp] theorem modPin_works (i : Nat) (f : Pin → Pin) : (modPin s i f).works = s.works := rfl
@[simp] theorem modPin_cells (i : Nat) (f : Pin → Pin) : (modPin s i f).cells = s.cells := rfl
@[simp] theorem modPin_cellOwn (i : Nat) (f : Pin → Pin) : (modPin s i f).cellOwn = s.cellOwn := rfl
@[simp] theorem modPin_hives (i : Nat) (f : Pin → Pin) : (modPin s i f).hives = s.hives := rfl
@[simp] theorem modPin_comb (i : Nat) (f : Pin → Pin) : (modPin s i f).comb = s.comb := rfl
@[simp] theorem modPin_scratch (i : Nat) (f : Pin → Pin) : (modPin s i f).scratch = s.scratch := rfl
@[simp] theorem modPin_inner (i : Nat) (f : Pin → Pin) : (modPin s i f).inner = s.inner := rfl
@[simp] theorem modPin_combUe (i : Nat) (f : Pin → Pin) : (modPin s i f).combUe = s.combUe := rfl
@[simp] theorem modPin_combCe (i : Nat) (f : Pin → Pin) : (modPin s i f).combCe = s.combCe := rfl
@[simp] theorem modPin_active (i : Nat) (f : Pin → Pin) : (modPin s i f).active = s.active := rfl
@[simp] theorem modPin_combOwn (i : Nat) (f : Pin → Pin) : (modPin s i f).combOwn = s.combOwn := rfl
@[simp] theorem modPin_queues (i : Nat) (f : Pin → Pin) : (modPin s i f).queues = s.queues := rfl
@[simp] theorem modPin_doorbells (i : Nat) (f : Pin → Pin) : (modPin s i f).doorbells = s.doorbells := rfl
@[simp] theorem modPin_caps (i : Nat) (f : Pin → Pin) : (modPin s i f).caps = s.caps := rfl
@[simp] theorem modPin_chans (i : Nat) (f : Pin → Pin) : (modPin s i f).chans = s.chans := rfl
@[simp] theorem modPin_tasks (i : Nat) (f : Pin → Pin) : (modPin s i f).tasks = s.tasks := rfl
@[simp] theorem modPin_counters (i : Nat) (f : Pin → Pin) : (modPin s i f).counters = s.counters := rfl
@[simp] theorem modPin_timers (i : Nat) (f : Pin → Pin) : (modPin s i f).timers = s.timers := rfl
@[simp] theorem modPin_hops (i : Nat) (f : Pin → Pin) : (modPin s i f).hops = s.hops := rfl
@[simp] theorem modPin_wagEpoch (i : Nat) (f : Pin → Pin) : (modPin s i f).wagEpoch = s.wagEpoch := rfl
@[simp] theorem modPin_domains (i : Nat) (f : Pin → Pin) : (modPin s i f).domains = s.domains := rfl
@[simp] theorem modPin_col (i : Nat) (f : Pin → Pin) : (modPin s i f).col = s.col := rfl
@[simp] theorem modPin_links (i : Nat) (f : Pin → Pin) : (modPin s i f).links = s.links := rfl
@[simp] theorem modPin_rxLanes (i : Nat) (f : Pin → Pin) : (modPin s i f).rxLanes = s.rxLanes := rfl
@[simp] theorem modPin_dmcs (i : Nat) (f : Pin → Pin) : (modPin s i f).dmcs = s.dmcs := rfl
@[simp] theorem modPin_dram (i : Nat) (f : Pin → Pin) : (modPin s i f).dram = s.dram := rfl
@[simp] theorem modPin_dramUe (i : Nat) (f : Pin → Pin) : (modPin s i f).dramUe = s.dramUe := rfl
@[simp] theorem modPin_dramCe (i : Nat) (f : Pin → Pin) : (modPin s i f).dramCe = s.dramCe := rfl
@[simp] theorem modPin_dramOwn (i : Nat) (f : Pin → Pin) : (modPin s i f).dramOwn = s.dramOwn := rfl
@[simp] theorem modPin_dramSystem (i : Nat) (f : Pin → Pin) : (modPin s i f).dramSystem = s.dramSystem := rfl
@[simp] theorem modPin_interleave (i : Nat) (f : Pin → Pin) : (modPin s i f).interleave = s.interleave := rfl
@[simp] theorem modPin_ctxBase (i : Nat) (f : Pin → Pin) : (modPin s i f).ctxBase = s.ctxBase := rfl
@[simp] theorem modPin_ageLimit (i : Nat) (f : Pin → Pin) : (modPin s i f).ageLimit = s.ageLimit := rfl
@[simp] theorem modPin_minMargin (i : Nat) (f : Pin → Pin) : (modPin s i f).minMargin = s.minMargin := rfl
@[simp] theorem modPin_trackH (i : Nat) (f : Pin → Pin) : (modPin s i f).trackH = s.trackH := rfl
@[simp] theorem modPin_ceLimit (i : Nat) (f : Pin → Pin) : (modPin s i f).ceLimit = s.ceLimit := rfl
@[simp] theorem modPin_scrubOn (i : Nat) (f : Pin → Pin) : (modPin s i f).scrubOn = s.scrubOn := rfl
@[simp] theorem modPin_scrubPeriod (i : Nat) (f : Pin → Pin) : (modPin s i f).scrubPeriod = s.scrubPeriod := rfl
@[simp] theorem modPin_auxs (i : Nat) (f : Pin → Pin) : (modPin s i f).auxs = s.auxs := rfl
@[simp] theorem modPin_auxClrN (i : Nat) (f : Pin → Pin) : (modPin s i f).auxClrN = s.auxClrN := rfl
@[simp] theorem modPin_jnl (i : Nat) (f : Pin → Pin) : (modPin s i f).jnl = s.jnl := rfl
@[simp] theorem modPin_rpl (i : Nat) (f : Pin → Pin) : (modPin s i f).rpl = s.rpl := rfl
@[simp] theorem modPin_bus (i : Nat) (f : Pin → Pin) : (modPin s i f).bus = s.bus := rfl
@[simp] theorem modPin_bulk (i : Nat) (f : Pin → Pin) : (modPin s i f).bulk = s.bulk := rfl
@[simp] theorem modPin_free (i : Nat) (f : Pin → Pin) : (modPin s i f).free = s.free := rfl
@[simp] theorem modPin_pending (i : Nat) (f : Pin → Pin) : (modPin s i f).pending = s.pending := rfl

/-! ### modFlt -/

@[simp] theorem modFlt_dev (b : Block) (f : FaultBlk → FaultBlk) : (modFlt s b f).dev = s.dev := rfl
@[simp] theorem modFlt_md (b : Block) (f : FaultBlk → FaultBlk) : (modFlt s b f).md = s.md := rfl
@[simp] theorem modFlt_time (b : Block) (f : FaultBlk → FaultBlk) : (modFlt s b f).time = s.time := rfl
@[simp] theorem modFlt_pace (b : Block) (f : FaultBlk → FaultBlk) : (modFlt s b f).pace = s.pace := rfl
@[simp] theorem modFlt_kpr (b : Block) (f : FaultBlk → FaultBlk) : (modFlt s b f).kpr = s.kpr := rfl
@[simp] theorem modFlt_svc (b : Block) (f : FaultBlk → FaultBlk) : (modFlt s b f).svc = s.svc := rfl
@[simp] theorem modFlt_sec (b : Block) (f : FaultBlk → FaultBlk) : (modFlt s b f).sec = s.sec := rfl
@[simp] theorem modFlt_grave (b : Block) (f : FaultBlk → FaultBlk) : (modFlt s b f).grave = s.grave := rfl
@[simp] theorem modFlt_mailboxes (b : Block) (f : FaultBlk → FaultBlk) : (modFlt s b f).mailboxes = s.mailboxes := rfl
@[simp] theorem modFlt_contexts (b : Block) (f : FaultBlk → FaultBlk) : (modFlt s b f).contexts = s.contexts := rfl
@[simp] theorem modFlt_msix (b : Block) (f : FaultBlk → FaultBlk) : (modFlt s b f).msix = s.msix := rfl
@[simp] theorem modFlt_msixOpen (b : Block) (f : FaultBlk → FaultBlk) : (modFlt s b f).msixOpen = s.msixOpen := rfl
@[simp] theorem modFlt_msixPba (b : Block) (f : FaultBlk → FaultBlk) : (modFlt s b f).msixPba = s.msixPba := rfl
@[simp] theorem modFlt_msixTable (b : Block) (f : FaultBlk → FaultBlk) : (modFlt s b f).msixTable = s.msixTable := rfl
@[simp] theorem modFlt_held (b : Block) (f : FaultBlk → FaultBlk) : (modFlt s b f).held = s.held := rfl
@[simp] theorem modFlt_works (b : Block) (f : FaultBlk → FaultBlk) : (modFlt s b f).works = s.works := rfl
@[simp] theorem modFlt_cells (b : Block) (f : FaultBlk → FaultBlk) : (modFlt s b f).cells = s.cells := rfl
@[simp] theorem modFlt_cellOwn (b : Block) (f : FaultBlk → FaultBlk) : (modFlt s b f).cellOwn = s.cellOwn := rfl
@[simp] theorem modFlt_hives (b : Block) (f : FaultBlk → FaultBlk) : (modFlt s b f).hives = s.hives := rfl
@[simp] theorem modFlt_comb (b : Block) (f : FaultBlk → FaultBlk) : (modFlt s b f).comb = s.comb := rfl
@[simp] theorem modFlt_scratch (b : Block) (f : FaultBlk → FaultBlk) : (modFlt s b f).scratch = s.scratch := rfl
@[simp] theorem modFlt_inner (b : Block) (f : FaultBlk → FaultBlk) : (modFlt s b f).inner = s.inner := rfl
@[simp] theorem modFlt_combUe (b : Block) (f : FaultBlk → FaultBlk) : (modFlt s b f).combUe = s.combUe := rfl
@[simp] theorem modFlt_combCe (b : Block) (f : FaultBlk → FaultBlk) : (modFlt s b f).combCe = s.combCe := rfl
@[simp] theorem modFlt_active (b : Block) (f : FaultBlk → FaultBlk) : (modFlt s b f).active = s.active := rfl
@[simp] theorem modFlt_combOwn (b : Block) (f : FaultBlk → FaultBlk) : (modFlt s b f).combOwn = s.combOwn := rfl
@[simp] theorem modFlt_queues (b : Block) (f : FaultBlk → FaultBlk) : (modFlt s b f).queues = s.queues := rfl
@[simp] theorem modFlt_doorbells (b : Block) (f : FaultBlk → FaultBlk) : (modFlt s b f).doorbells = s.doorbells := rfl
@[simp] theorem modFlt_caps (b : Block) (f : FaultBlk → FaultBlk) : (modFlt s b f).caps = s.caps := rfl
@[simp] theorem modFlt_chans (b : Block) (f : FaultBlk → FaultBlk) : (modFlt s b f).chans = s.chans := rfl
@[simp] theorem modFlt_tasks (b : Block) (f : FaultBlk → FaultBlk) : (modFlt s b f).tasks = s.tasks := rfl
@[simp] theorem modFlt_counters (b : Block) (f : FaultBlk → FaultBlk) : (modFlt s b f).counters = s.counters := rfl
@[simp] theorem modFlt_timers (b : Block) (f : FaultBlk → FaultBlk) : (modFlt s b f).timers = s.timers := rfl
@[simp] theorem modFlt_pins (b : Block) (f : FaultBlk → FaultBlk) : (modFlt s b f).pins = s.pins := rfl
@[simp] theorem modFlt_hops (b : Block) (f : FaultBlk → FaultBlk) : (modFlt s b f).hops = s.hops := rfl
@[simp] theorem modFlt_wagEpoch (b : Block) (f : FaultBlk → FaultBlk) : (modFlt s b f).wagEpoch = s.wagEpoch := rfl
@[simp] theorem modFlt_domains (b : Block) (f : FaultBlk → FaultBlk) : (modFlt s b f).domains = s.domains := rfl
@[simp] theorem modFlt_col (b : Block) (f : FaultBlk → FaultBlk) : (modFlt s b f).col = s.col := rfl
@[simp] theorem modFlt_links (b : Block) (f : FaultBlk → FaultBlk) : (modFlt s b f).links = s.links := rfl
@[simp] theorem modFlt_rxLanes (b : Block) (f : FaultBlk → FaultBlk) : (modFlt s b f).rxLanes = s.rxLanes := rfl
@[simp] theorem modFlt_dmcs (b : Block) (f : FaultBlk → FaultBlk) : (modFlt s b f).dmcs = s.dmcs := rfl
@[simp] theorem modFlt_dram (b : Block) (f : FaultBlk → FaultBlk) : (modFlt s b f).dram = s.dram := rfl
@[simp] theorem modFlt_dramUe (b : Block) (f : FaultBlk → FaultBlk) : (modFlt s b f).dramUe = s.dramUe := rfl
@[simp] theorem modFlt_dramCe (b : Block) (f : FaultBlk → FaultBlk) : (modFlt s b f).dramCe = s.dramCe := rfl
@[simp] theorem modFlt_dramOwn (b : Block) (f : FaultBlk → FaultBlk) : (modFlt s b f).dramOwn = s.dramOwn := rfl
@[simp] theorem modFlt_dramSystem (b : Block) (f : FaultBlk → FaultBlk) : (modFlt s b f).dramSystem = s.dramSystem := rfl
@[simp] theorem modFlt_interleave (b : Block) (f : FaultBlk → FaultBlk) : (modFlt s b f).interleave = s.interleave := rfl
@[simp] theorem modFlt_ctxBase (b : Block) (f : FaultBlk → FaultBlk) : (modFlt s b f).ctxBase = s.ctxBase := rfl
@[simp] theorem modFlt_ageLimit (b : Block) (f : FaultBlk → FaultBlk) : (modFlt s b f).ageLimit = s.ageLimit := rfl
@[simp] theorem modFlt_minMargin (b : Block) (f : FaultBlk → FaultBlk) : (modFlt s b f).minMargin = s.minMargin := rfl
@[simp] theorem modFlt_trackH (b : Block) (f : FaultBlk → FaultBlk) : (modFlt s b f).trackH = s.trackH := rfl
@[simp] theorem modFlt_ceLimit (b : Block) (f : FaultBlk → FaultBlk) : (modFlt s b f).ceLimit = s.ceLimit := rfl
@[simp] theorem modFlt_scrubOn (b : Block) (f : FaultBlk → FaultBlk) : (modFlt s b f).scrubOn = s.scrubOn := rfl
@[simp] theorem modFlt_scrubPeriod (b : Block) (f : FaultBlk → FaultBlk) : (modFlt s b f).scrubPeriod = s.scrubPeriod := rfl
@[simp] theorem modFlt_auxs (b : Block) (f : FaultBlk → FaultBlk) : (modFlt s b f).auxs = s.auxs := rfl
@[simp] theorem modFlt_auxClrN (b : Block) (f : FaultBlk → FaultBlk) : (modFlt s b f).auxClrN = s.auxClrN := rfl
@[simp] theorem modFlt_jnl (b : Block) (f : FaultBlk → FaultBlk) : (modFlt s b f).jnl = s.jnl := rfl
@[simp] theorem modFlt_rpl (b : Block) (f : FaultBlk → FaultBlk) : (modFlt s b f).rpl = s.rpl := rfl
@[simp] theorem modFlt_bus (b : Block) (f : FaultBlk → FaultBlk) : (modFlt s b f).bus = s.bus := rfl
@[simp] theorem modFlt_bulk (b : Block) (f : FaultBlk → FaultBlk) : (modFlt s b f).bulk = s.bulk := rfl
@[simp] theorem modFlt_free (b : Block) (f : FaultBlk → FaultBlk) : (modFlt s b f).free = s.free := rfl
@[simp] theorem modFlt_pending (b : Block) (f : FaultBlk → FaultBlk) : (modFlt s b f).pending = s.pending := rfl

/-! ### modPort -/

@[simp] theorem modPort_dev (i : Nat) (f : Port → Port) : (modPort s i f).dev = s.dev := rfl
@[simp] theorem modPort_md (i : Nat) (f : Port → Port) : (modPort s i f).md = s.md := rfl
@[simp] theorem modPort_time (i : Nat) (f : Port → Port) : (modPort s i f).time = s.time := rfl
@[simp] theorem modPort_pace (i : Nat) (f : Port → Port) : (modPort s i f).pace = s.pace := rfl
@[simp] theorem modPort_kpr (i : Nat) (f : Port → Port) : (modPort s i f).kpr = s.kpr := rfl
@[simp] theorem modPort_svc (i : Nat) (f : Port → Port) : (modPort s i f).svc = s.svc := rfl
@[simp] theorem modPort_sec (i : Nat) (f : Port → Port) : (modPort s i f).sec = s.sec := rfl
@[simp] theorem modPort_grave (i : Nat) (f : Port → Port) : (modPort s i f).grave = s.grave := rfl
@[simp] theorem modPort_faults (i : Nat) (f : Port → Port) : (modPort s i f).faults = s.faults := rfl
@[simp] theorem modPort_mailboxes (i : Nat) (f : Port → Port) : (modPort s i f).mailboxes = s.mailboxes := rfl
@[simp] theorem modPort_contexts (i : Nat) (f : Port → Port) : (modPort s i f).contexts = s.contexts := rfl
@[simp] theorem modPort_msix (i : Nat) (f : Port → Port) : (modPort s i f).msix = s.msix := rfl
@[simp] theorem modPort_msixOpen (i : Nat) (f : Port → Port) : (modPort s i f).msixOpen = s.msixOpen := rfl
@[simp] theorem modPort_msixPba (i : Nat) (f : Port → Port) : (modPort s i f).msixPba = s.msixPba := rfl
@[simp] theorem modPort_msixTable (i : Nat) (f : Port → Port) : (modPort s i f).msixTable = s.msixTable := rfl
@[simp] theorem modPort_held (i : Nat) (f : Port → Port) : (modPort s i f).held = s.held := rfl
@[simp] theorem modPort_works (i : Nat) (f : Port → Port) : (modPort s i f).works = s.works := rfl
@[simp] theorem modPort_cells (i : Nat) (f : Port → Port) : (modPort s i f).cells = s.cells := rfl
@[simp] theorem modPort_cellOwn (i : Nat) (f : Port → Port) : (modPort s i f).cellOwn = s.cellOwn := rfl
@[simp] theorem modPort_hives (i : Nat) (f : Port → Port) : (modPort s i f).hives = s.hives := rfl
@[simp] theorem modPort_comb (i : Nat) (f : Port → Port) : (modPort s i f).comb = s.comb := rfl
@[simp] theorem modPort_scratch (i : Nat) (f : Port → Port) : (modPort s i f).scratch = s.scratch := rfl
@[simp] theorem modPort_inner (i : Nat) (f : Port → Port) : (modPort s i f).inner = s.inner := rfl
@[simp] theorem modPort_combUe (i : Nat) (f : Port → Port) : (modPort s i f).combUe = s.combUe := rfl
@[simp] theorem modPort_combCe (i : Nat) (f : Port → Port) : (modPort s i f).combCe = s.combCe := rfl
@[simp] theorem modPort_active (i : Nat) (f : Port → Port) : (modPort s i f).active = s.active := rfl
@[simp] theorem modPort_combOwn (i : Nat) (f : Port → Port) : (modPort s i f).combOwn = s.combOwn := rfl
@[simp] theorem modPort_queues (i : Nat) (f : Port → Port) : (modPort s i f).queues = s.queues := rfl
@[simp] theorem modPort_doorbells (i : Nat) (f : Port → Port) : (modPort s i f).doorbells = s.doorbells := rfl
@[simp] theorem modPort_caps (i : Nat) (f : Port → Port) : (modPort s i f).caps = s.caps := rfl
@[simp] theorem modPort_chans (i : Nat) (f : Port → Port) : (modPort s i f).chans = s.chans := rfl
@[simp] theorem modPort_tasks (i : Nat) (f : Port → Port) : (modPort s i f).tasks = s.tasks := rfl
@[simp] theorem modPort_counters (i : Nat) (f : Port → Port) : (modPort s i f).counters = s.counters := rfl
@[simp] theorem modPort_timers (i : Nat) (f : Port → Port) : (modPort s i f).timers = s.timers := rfl
@[simp] theorem modPort_pins (i : Nat) (f : Port → Port) : (modPort s i f).pins = s.pins := rfl
@[simp] theorem modPort_hops (i : Nat) (f : Port → Port) : (modPort s i f).hops = s.hops := rfl
@[simp] theorem modPort_wagEpoch (i : Nat) (f : Port → Port) : (modPort s i f).wagEpoch = s.wagEpoch := rfl
@[simp] theorem modPort_domains (i : Nat) (f : Port → Port) : (modPort s i f).domains = s.domains := rfl
@[simp] theorem modPort_links (i : Nat) (f : Port → Port) : (modPort s i f).links = s.links := rfl
@[simp] theorem modPort_rxLanes (i : Nat) (f : Port → Port) : (modPort s i f).rxLanes = s.rxLanes := rfl
@[simp] theorem modPort_dmcs (i : Nat) (f : Port → Port) : (modPort s i f).dmcs = s.dmcs := rfl
@[simp] theorem modPort_dram (i : Nat) (f : Port → Port) : (modPort s i f).dram = s.dram := rfl
@[simp] theorem modPort_dramUe (i : Nat) (f : Port → Port) : (modPort s i f).dramUe = s.dramUe := rfl
@[simp] theorem modPort_dramCe (i : Nat) (f : Port → Port) : (modPort s i f).dramCe = s.dramCe := rfl
@[simp] theorem modPort_dramOwn (i : Nat) (f : Port → Port) : (modPort s i f).dramOwn = s.dramOwn := rfl
@[simp] theorem modPort_dramSystem (i : Nat) (f : Port → Port) : (modPort s i f).dramSystem = s.dramSystem := rfl
@[simp] theorem modPort_interleave (i : Nat) (f : Port → Port) : (modPort s i f).interleave = s.interleave := rfl
@[simp] theorem modPort_ctxBase (i : Nat) (f : Port → Port) : (modPort s i f).ctxBase = s.ctxBase := rfl
@[simp] theorem modPort_ageLimit (i : Nat) (f : Port → Port) : (modPort s i f).ageLimit = s.ageLimit := rfl
@[simp] theorem modPort_minMargin (i : Nat) (f : Port → Port) : (modPort s i f).minMargin = s.minMargin := rfl
@[simp] theorem modPort_trackH (i : Nat) (f : Port → Port) : (modPort s i f).trackH = s.trackH := rfl
@[simp] theorem modPort_ceLimit (i : Nat) (f : Port → Port) : (modPort s i f).ceLimit = s.ceLimit := rfl
@[simp] theorem modPort_scrubOn (i : Nat) (f : Port → Port) : (modPort s i f).scrubOn = s.scrubOn := rfl
@[simp] theorem modPort_scrubPeriod (i : Nat) (f : Port → Port) : (modPort s i f).scrubPeriod = s.scrubPeriod := rfl
@[simp] theorem modPort_auxs (i : Nat) (f : Port → Port) : (modPort s i f).auxs = s.auxs := rfl
@[simp] theorem modPort_auxClrN (i : Nat) (f : Port → Port) : (modPort s i f).auxClrN = s.auxClrN := rfl
@[simp] theorem modPort_jnl (i : Nat) (f : Port → Port) : (modPort s i f).jnl = s.jnl := rfl
@[simp] theorem modPort_rpl (i : Nat) (f : Port → Port) : (modPort s i f).rpl = s.rpl := rfl
@[simp] theorem modPort_bus (i : Nat) (f : Port → Port) : (modPort s i f).bus = s.bus := rfl
@[simp] theorem modPort_bulk (i : Nat) (f : Port → Port) : (modPort s i f).bulk = s.bulk := rfl
@[simp] theorem modPort_free (i : Nat) (f : Port → Port) : (modPort s i f).free = s.free := rfl
@[simp] theorem modPort_pending (i : Nat) (f : Port → Port) : (modPort s i f).pending = s.pending := rfl

/-! ### bumpSec -/

@[simp] theorem bumpSec_dev : (bumpSec s).dev = s.dev := rfl
@[simp] theorem bumpSec_md : (bumpSec s).md = s.md := rfl
@[simp] theorem bumpSec_time : (bumpSec s).time = s.time := rfl
@[simp] theorem bumpSec_pace : (bumpSec s).pace = s.pace := rfl
@[simp] theorem bumpSec_kpr : (bumpSec s).kpr = s.kpr := rfl
@[simp] theorem bumpSec_svc : (bumpSec s).svc = s.svc := rfl
@[simp] theorem bumpSec_grave : (bumpSec s).grave = s.grave := rfl
@[simp] theorem bumpSec_faults : (bumpSec s).faults = s.faults := rfl
@[simp] theorem bumpSec_mailboxes : (bumpSec s).mailboxes = s.mailboxes := rfl
@[simp] theorem bumpSec_contexts : (bumpSec s).contexts = s.contexts := rfl
@[simp] theorem bumpSec_msix : (bumpSec s).msix = s.msix := rfl
@[simp] theorem bumpSec_msixOpen : (bumpSec s).msixOpen = s.msixOpen := rfl
@[simp] theorem bumpSec_msixPba : (bumpSec s).msixPba = s.msixPba := rfl
@[simp] theorem bumpSec_msixTable : (bumpSec s).msixTable = s.msixTable := rfl
@[simp] theorem bumpSec_held : (bumpSec s).held = s.held := rfl
@[simp] theorem bumpSec_works : (bumpSec s).works = s.works := rfl
@[simp] theorem bumpSec_cells : (bumpSec s).cells = s.cells := rfl
@[simp] theorem bumpSec_cellOwn : (bumpSec s).cellOwn = s.cellOwn := rfl
@[simp] theorem bumpSec_hives : (bumpSec s).hives = s.hives := rfl
@[simp] theorem bumpSec_comb : (bumpSec s).comb = s.comb := rfl
@[simp] theorem bumpSec_scratch : (bumpSec s).scratch = s.scratch := rfl
@[simp] theorem bumpSec_inner : (bumpSec s).inner = s.inner := rfl
@[simp] theorem bumpSec_combUe : (bumpSec s).combUe = s.combUe := rfl
@[simp] theorem bumpSec_combCe : (bumpSec s).combCe = s.combCe := rfl
@[simp] theorem bumpSec_active : (bumpSec s).active = s.active := rfl
@[simp] theorem bumpSec_combOwn : (bumpSec s).combOwn = s.combOwn := rfl
@[simp] theorem bumpSec_queues : (bumpSec s).queues = s.queues := rfl
@[simp] theorem bumpSec_doorbells : (bumpSec s).doorbells = s.doorbells := rfl
@[simp] theorem bumpSec_caps : (bumpSec s).caps = s.caps := rfl
@[simp] theorem bumpSec_chans : (bumpSec s).chans = s.chans := rfl
@[simp] theorem bumpSec_tasks : (bumpSec s).tasks = s.tasks := rfl
@[simp] theorem bumpSec_counters : (bumpSec s).counters = s.counters := rfl
@[simp] theorem bumpSec_timers : (bumpSec s).timers = s.timers := rfl
@[simp] theorem bumpSec_pins : (bumpSec s).pins = s.pins := rfl
@[simp] theorem bumpSec_hops : (bumpSec s).hops = s.hops := rfl
@[simp] theorem bumpSec_wagEpoch : (bumpSec s).wagEpoch = s.wagEpoch := rfl
@[simp] theorem bumpSec_domains : (bumpSec s).domains = s.domains := rfl
@[simp] theorem bumpSec_col : (bumpSec s).col = s.col := rfl
@[simp] theorem bumpSec_links : (bumpSec s).links = s.links := rfl
@[simp] theorem bumpSec_rxLanes : (bumpSec s).rxLanes = s.rxLanes := rfl
@[simp] theorem bumpSec_dmcs : (bumpSec s).dmcs = s.dmcs := rfl
@[simp] theorem bumpSec_dram : (bumpSec s).dram = s.dram := rfl
@[simp] theorem bumpSec_dramUe : (bumpSec s).dramUe = s.dramUe := rfl
@[simp] theorem bumpSec_dramCe : (bumpSec s).dramCe = s.dramCe := rfl
@[simp] theorem bumpSec_dramOwn : (bumpSec s).dramOwn = s.dramOwn := rfl
@[simp] theorem bumpSec_dramSystem : (bumpSec s).dramSystem = s.dramSystem := rfl
@[simp] theorem bumpSec_interleave : (bumpSec s).interleave = s.interleave := rfl
@[simp] theorem bumpSec_ctxBase : (bumpSec s).ctxBase = s.ctxBase := rfl
@[simp] theorem bumpSec_ageLimit : (bumpSec s).ageLimit = s.ageLimit := rfl
@[simp] theorem bumpSec_minMargin : (bumpSec s).minMargin = s.minMargin := rfl
@[simp] theorem bumpSec_trackH : (bumpSec s).trackH = s.trackH := rfl
@[simp] theorem bumpSec_ceLimit : (bumpSec s).ceLimit = s.ceLimit := rfl
@[simp] theorem bumpSec_scrubOn : (bumpSec s).scrubOn = s.scrubOn := rfl
@[simp] theorem bumpSec_scrubPeriod : (bumpSec s).scrubPeriod = s.scrubPeriod := rfl
@[simp] theorem bumpSec_auxs : (bumpSec s).auxs = s.auxs := rfl
@[simp] theorem bumpSec_auxClrN : (bumpSec s).auxClrN = s.auxClrN := rfl
@[simp] theorem bumpSec_jnl : (bumpSec s).jnl = s.jnl := rfl
@[simp] theorem bumpSec_rpl : (bumpSec s).rpl = s.rpl := rfl
@[simp] theorem bumpSec_bus : (bumpSec s).bus = s.bus := rfl
@[simp] theorem bumpSec_bulk : (bumpSec s).bulk = s.bulk := rfl
@[simp] theorem bumpSec_free : (bumpSec s).free = s.free := rfl
@[simp] theorem bumpSec_pending : (bumpSec s).pending = s.pending := rfl

end Sys2Proof.Laws
end

