-- ==== Sys2Proof/Laws/Table.lean ====
section
/-! SUPPORT. The laws of unit tables and byte memories: what a read gives after a write, and that every write keeps the
canonical form. -/

namespace Sys2Proof.Laws

open Sys2Proof Sys2Proof.Machine

variable {α : Type} [DecidableEq α]

omit [DecidableEq α] in
@[simp] theorem tget_nil (d : α) (i : Nat) : tget d [] i = d := rfl

/-- An entry that is not the default is read back, whatever the table. -/
theorem tget_tset_ne {d x : α} (t : Tab α) (i : Nat) (hx : x ≠ d) : tget d (tset d t i x) i = x := by
  induction t with
  | nil => simp [tset, tget, hx]
  | cons p t ih =>
    obtain ⟨k, v⟩ := p
    simp only [tset]
    simp only [hx, if_false]
    split
    · simp [tget]
    · split
      · simp [tget]
      · simp only [tget, show k ≠ i by omega, if_false]
        exact ih

/-- What lies below the first key of a canonical table reads as the default. -/
theorem tget_below {d : α} {t : Tab α} {lo i : Nat} (h : twfFrom d lo t = true) (hi : i < lo) : tget d t i = d := by
  induction t generalizing lo with
  | nil => rfl
  | cons p t ih =>
    obtain ⟨k, v⟩ := p
    simp only [twfFrom, Bool.and_eq_true, decide_eq_true_eq] at h
    have hk : k ≠ i := by omega
    simp only [tget, hk, if_false]
    exact ih h.2 (by omega)

/-- A write is read back. -/
theorem tget_tset_same {d : α} {t : Tab α} {lo : Nat} (h : twfFrom d lo t = true) (i : Nat) (x : α) :
    tget d (tset d t i x) i = x := by
  induction t generalizing lo with
  | nil => by_cases hx : x = d <;> simp [tset, tget, hx]
  | cons p t ih =>
    obtain ⟨k, v⟩ := p
    simp only [twfFrom, Bool.and_eq_true, decide_eq_true_eq] at h
    simp only [tset]
    split
    · rename_i hik
      split
      · rename_i hx
        simp only [tget, show k ≠ i by omega, if_false]
        rw [tget_below h.2 (by omega), hx]
      · simp [tget]
    · split
      · rename_i hik
        split
        · rename_i hx
          rw [tget_below h.2 (by omega), hx]
        · simp [tget]
      · rename_i hk
        simp only [tget, show k ≠ i by omega, if_false]
        exact ih h.2

/-- A write leaves every other entry alone. -/
theorem tget_tset_other (d : α) (t : Tab α) {i j : Nat} (h : j ≠ i) (x : α) : tget d (tset d t i x) j = tget d t j := by
  induction t with
  | nil => by_cases hx : x = d <;> simp [tset, tget, hx, Ne.symm h]
  | cons p t ih =>
    obtain ⟨k, v⟩ := p
    simp only [tset]
    split
    · split <;> simp [tget, Ne.symm h]
    · split
      · rename_i hik
        have hkj : k ≠ j := by omega
        split <;> simp [tget, hkj, Ne.symm h]
      · simp only [tget]
        split
        · rfl
        · exact ih

theorem twfFrom_tset {d : α} {t : Tab α} {lo i : Nat} (h : twfFrom d lo t = true) (hi : lo ≤ i) (x : α) :
    twfFrom d lo (tset d t i x) = true := by
  induction t generalizing lo with
  | nil => by_cases hx : x = d <;> simp [tset, twfFrom, hx, hi]
  | cons p t ih =>
    obtain ⟨k, v⟩ := p
    simp only [twfFrom, Bool.and_eq_true, decide_eq_true_eq] at h
    obtain ⟨⟨hk, hv⟩, ht⟩ := h
    simp only [tset]
    split
    · split
      · simp [twfFrom, hk, hv, ht]
      · rename_i hx
        simp [twfFrom, hx, hi, hv, ht]
        omega
    · split
      · rename_i hik
        subst hik
        split
        · revert ht
          cases t with
          | nil => simp [twfFrom]
          | cons q t =>
            obtain ⟨k', v'⟩ := q
            simp only [twfFrom, Bool.and_eq_true, decide_eq_true_eq]
            rintro ⟨⟨hk', hv'⟩, ht'⟩
            exact ⟨⟨by omega, hv'⟩, ht'⟩
        · rename_i hx
          simp [twfFrom, hx, hk, ht]
      · have := ih ht (show k + 1 ≤ i by omega)
        simp [twfFrom, hk, hv, this]

/-- Every write of a table keeps the canonical form. -/
theorem twf_tset {d : α} {t : Tab α} (h : twf d t = true) (i : Nat) (x : α) : twf d (tset d t i x) = true :=
  twfFrom_tset h (Nat.zero_le i) x

theorem twf_tmod {d : α} {t : Tab α} (h : twf d t = true) (i : Nat) (f : α → α) : twf d (tmod d t i f) = true :=
  twf_tset h i _

theorem tget_tmod_same {d : α} {t : Tab α} (h : twf d t = true) (i : Nat) (f : α → α) :
    tget d (tmod d t i f) i = f (tget d t i) := tget_tset_same h i _

theorem tget_tmod_other (d : α) (t : Tab α) {i j : Nat} (h : j ≠ i) (f : α → α) :
    tget d (tmod d t i f) j = tget d t j := tget_tset_other d t h _

/-! ### Byte memories -/

theorem memByte_memPut_same {m : List Host.Cell} (h : Memory.wf m = true) (a : Nat) (b : Byte) :
    memByte (memPut m a b) a = b := tget_tset_same h a b

theorem memByte_memPut_other (m : List Host.Cell) {a c : Nat} (h : c ≠ a) (b : Byte) :
    memByte (memPut m a b) c = memByte m c := tget_tset_other _ _ h _

theorem memPut_wf {m : List Host.Cell} (h : Memory.wf m = true) (a : Nat) (b : Byte) : Memory.wf (memPut m a b) = true :=
  twf_tset h a b

/-- Every write of bytes keeps the canonical form. -/
theorem memWrite_wf {m : List Host.Cell} (h : Memory.wf m = true) (a : Nat) (l : List Byte) :
    Memory.wf (memWrite m a l) = true := by
  induction l generalizing m a with
  | nil => exact h
  | cons b bs ih => exact ih (memPut_wf h a b) (a + 1)

/-- A write leaves every byte outside the span alone. -/
theorem memByte_memWrite_out (m : List Host.Cell) (a : Nat) (l : List Byte) {c : Nat} (h : c < a ∨ a + l.length ≤ c) :
    memByte (memWrite m a l) c = memByte m c := by
  induction l generalizing m a with
  | nil => rfl
  | cons b bs ih =>
    simp only [List.length_cons] at h
    simp only [memWrite]
    rw [ih _ _ (by omega), memByte_memPut_other _ (by omega)]

/-- Every byte written is read back. -/
theorem memByte_memWrite_in {m : List Host.Cell} (h : Memory.wf m = true) (a : Nat) (l : List Byte) (i : Nat)
    (hi : i < l.length) : memByte (memWrite m a l) (a + i) = l[i] := by
  induction l generalizing m a i with
  | nil => simp at hi
  | cons b bs ih =>
    simp only [memWrite]
    cases i with
    | zero => rw [memByte_memWrite_out _ _ _ (by omega)]; simpa using memByte_memPut_same h a b
    | succ i =>
      have := ih (memPut_wf h a b) (a + 1) i (by simpa using hi)
      simpa [Nat.add_assoc, Nat.add_comm 1 i] using this

/-- A span written is read back whole. -/
theorem memRead_memWrite {m : List Host.Cell} (h : Memory.wf m = true) (a : Nat) (l : List Byte) :
    memRead (memWrite m a l) a l.length = l := by
  induction l generalizing m a with
  | nil => rfl
  | cons b bs ih =>
    simp only [memWrite, List.length_cons, memRead]
    rw [ih (memPut_wf h a b), memByte_memWrite_out _ _ _ (by omega), memByte_memPut_same h]

/-- Dropping entries by a test of the address keeps the canonical form. -/
theorem twfFrom_filter {d : α} {t : Tab α} {lo : Nat} (h : twfFrom d lo t = true) (p : Nat × α → Bool) :
    twfFrom d lo (t.filter p) = true := by
  induction t generalizing lo with
  | nil => rfl
  | cons q t ih =>
    obtain ⟨k, v⟩ := q
    simp only [twfFrom, Bool.and_eq_true, decide_eq_true_eq] at h
    obtain ⟨⟨hk, hv⟩, ht⟩ := h
    have mono : ∀ {lo lo' : Nat} {t : Tab α}, lo ≤ lo' → twfFrom d lo' t = true → twfFrom d lo t = true := by
      intro lo lo' t hl h'
      cases t with
      | nil => rfl
      | cons q t =>
        simp only [twfFrom, Bool.and_eq_true, decide_eq_true_eq] at h' ⊢
        exact ⟨⟨by omega, h'.1.2⟩, h'.2⟩
    simp only [List.filter_cons]
    split
    · simp [twfFrom, hk, hv, ih ht]
    · exact mono (by omega) (ih ht)

theorem Memory.wf_filter {m : List Host.Cell} (h : Memory.wf m = true) (p : Host.Cell → Bool) :
    Memory.wf (m.filter p) = true := twfFrom_filter h p

/-! ### Repetition -/

/-- What every turn of a repetition keeps, the repetition keeps. -/
theorem forUp_keeps {σ : Type} {P : σ → Prop} {f : Nat → σ → σ} (hf : ∀ i s, P s → P (f i s)) (n i : Nat) {s : σ}
    (h : P s) : P (forUp f n i s) := by
  induction n generalizing i s with
  | zero => exact h
  | succ n ih => exact ih (i + 1) (hf i s h)

/-- What every turn of a fold keeps, the fold keeps. -/
theorem foldl_keeps {σ β : Type} {P : σ → Prop} {f : σ → β → σ} (hf : ∀ s b, P s → P (f s b)) (l : List β) {s : σ}
    (h : P s) : P (l.foldl f s) := by
  induction l generalizing s with
  | nil => exact h
  | cons b l ih => exact ih (hf s b h)

/-- A fold that never changes a view of its state does not change it in the end. -/
theorem foldl_view {σ β γ : Type} {f : σ → β → σ} (g : σ → γ) (hf : ∀ s b, g (f s b) = g s) (l : List β) (s : σ) :
    g (l.foldl f s) = g s :=
  foldl_keeps (P := fun x => g x = g s) (fun x b h => (hf x b).trans h) l rfl

/-- The same for a repetition. -/
theorem forUp_view {σ γ : Type} {f : Nat → σ → σ} (g : σ → γ) (hf : ∀ i s, g (f i s) = g s) (n i : Nat) (s : σ) :
    g (forUp f n i s) = g s :=
  forUp_keeps (P := fun x => g x = g s) (fun k x h => (hf k x).trans h) n i rfl

end Sys2Proof.Laws
end

