-- ==== Sys2Proof/Laws/Ops.lean ====
section
/-! SUPPORT. What the shared operations of Machine/Ops.lean leave alone, field by field. -/

namespace Sys2Proof.Laws

open Sys2Proof Sys2Proof.Machine

set_option Elab.async false

variable (s : State)

/-- `putQueue` changes nothing but the fields named here. -/
theorem putQueue_eq (i : Nat) (x : Queue) :
    putQueue s i x = { s with queues := (putQueue s i x).queues, hives := (putQueue s i x).hives } := by
  unfold putQueue; dsimp only; (repeat' split) <;> rfl

@[simp] theorem putQueue_dev (i : Nat) (x : Queue) : (putQueue s i x).dev = s.dev := (congrArg State.dev (putQueue_eq s i x) :)
@[simp] theorem putQueue_md (i : Nat) (x : Queue) : (putQueue s i x).md = s.md := (congrArg State.md (putQueue_eq s i x) :)
@[simp] theorem putQueue_time (i : Nat) (x : Queue) : (putQueue s i x).time = s.time := (congrArg State.time (putQueue_eq s i x) :)
@[simp] theorem putQueue_pace (i : Nat) (x : Queue) : (putQueue s i x).pace = s.pace := (congrArg State.pace (putQueue_eq s i x) :)
@[simp] theorem putQueue_kpr (i : Nat) (x : Queue) : (putQueue s i x).kpr = s.kpr := (congrArg State.kpr (putQueue_eq s i x) :)
@[simp] theorem putQueue_svc (i : Nat) (x : Queue) : (putQueue s i x).svc = s.svc := (congrArg State.svc (putQueue_eq s i x) :)
@[simp] theorem putQueue_sec (i : Nat) (x : Queue) : (putQueue s i x).sec = s.sec := (congrArg State.sec (putQueue_eq s i x) :)
@[simp] theorem putQueue_grave (i : Nat) (x : Queue) : (putQueue s i x).grave = s.grave := (congrArg State.grave (putQueue_eq s i x) :)
@[simp] theorem putQueue_faults (i : Nat) (x : Queue) : (putQueue s i x).faults = s.faults := (congrArg State.faults (putQueue_eq s i x) :)
@[simp] theorem putQueue_mailboxes (i : Nat) (x : Queue) : (putQueue s i x).mailboxes = s.mailboxes := (congrArg State.mailboxes (putQueue_eq s i x) :)
@[simp] theorem putQueue_contexts (i : Nat) (x : Queue) : (putQueue s i x).contexts = s.contexts := (congrArg State.contexts (putQueue_eq s i x) :)
@[simp] theorem putQueue_msix (i : Nat) (x : Queue) : (putQueue s i x).msix = s.msix := (congrArg State.msix (putQueue_eq s i x) :)
@[simp] theorem putQueue_msixOpen (i : Nat) (x : Queue) : (putQueue s i x).msixOpen = s.msixOpen := (congrArg State.msixOpen (putQueue_eq s i x) :)
@[simp] theorem putQueue_msixPba (i : Nat) (x : Queue) : (putQueue s i x).msixPba = s.msixPba := (congrArg State.msixPba (putQueue_eq s i x) :)
@[simp] theorem putQueue_msixTable (i : Nat) (x : Queue) : (putQueue s i x).msixTable = s.msixTable := (congrArg State.msixTable (putQueue_eq s i x) :)
@[simp] theorem putQueue_held (i : Nat) (x : Queue) : (putQueue s i x).held = s.held := (congrArg State.held (putQueue_eq s i x) :)
@[simp] theorem putQueue_works (i : Nat) (x : Queue) : (putQueue s i x).works = s.works := (congrArg State.works (putQueue_eq s i x) :)
@[simp] theorem putQueue_cells (i : Nat) (x : Queue) : (putQueue s i x).cells = s.cells := (congrArg State.cells (putQueue_eq s i x) :)
@[simp] theorem putQueue_cellOwn (i : Nat) (x : Queue) : (putQueue s i x).cellOwn = s.cellOwn := (congrArg State.cellOwn (putQueue_eq s i x) :)
@[simp] theorem putQueue_comb (i : Nat) (x : Queue) : (putQueue s i x).comb = s.comb := (congrArg State.comb (putQueue_eq s i x) :)
@[simp] theorem putQueue_scratch (i : Nat) (x : Queue) : (putQueue s i x).scratch = s.scratch := (congrArg State.scratch (putQueue_eq s i x) :)
@[simp] theorem putQueue_inner (i : Nat) (x : Queue) : (putQueue s i x).inner = s.inner := (congrArg State.inner (putQueue_eq s i x) :)
@[simp] theorem putQueue_combUe (i : Nat) (x : Queue) : (putQueue s i x).combUe = s.combUe := (congrArg State.combUe (putQueue_eq s i x) :)
@[simp] theorem putQueue_combCe (i : Nat) (x : Queue) : (putQueue s i x).combCe = s.combCe := (congrArg State.combCe (putQueue_eq s i x) :)
@[simp] theorem putQueue_active (i : Nat) (x : Queue) : (putQueue s i x).active = s.active := (congrArg State.active (putQueue_eq s i x) :)
@[simp] theorem putQueue_combOwn (i : Nat) (x : Queue) : (putQueue s i x).combOwn = s.combOwn := (congrArg State.combOwn (putQueue_eq s i x) :)
@[simp] theorem putQueue_doorbells (i : Nat) (x : Queue) : (putQueue s i x).doorbells = s.doorbells := (congrArg State.doorbells (putQueue_eq s i x) :)
@[simp] theorem putQueue_caps (i : Nat) (x : Queue) : (putQueue s i x).caps = s.caps := (congrArg State.caps (putQueue_eq s i x) :)
@[simp] theorem putQueue_chans (i : Nat) (x : Queue) : (putQueue s i x).chans = s.chans := (congrArg State.chans (putQueue_eq s i x) :)
@[simp] theorem putQueue_tasks (i : Nat) (x : Queue) : (putQueue s i x).tasks = s.tasks := (congrArg State.tasks (putQueue_eq s i x) :)
@[simp] theorem putQueue_counters (i : Nat) (x : Queue) : (putQueue s i x).counters = s.counters := (congrArg State.counters (putQueue_eq s i x) :)
@[simp] theorem putQueue_timers (i : Nat) (x : Queue) : (putQueue s i x).timers = s.timers := (congrArg State.timers (putQueue_eq s i x) :)
@[simp] theorem putQueue_pins (i : Nat) (x : Queue) : (putQueue s i x).pins = s.pins := (congrArg State.pins (putQueue_eq s i x) :)
@[simp] theorem putQueue_hops (i : Nat) (x : Queue) : (putQueue s i x).hops = s.hops := (congrArg State.hops (putQueue_eq s i x) :)
@[simp] theorem putQueue_wagEpoch (i : Nat) (x : Queue) : (putQueue s i x).wagEpoch = s.wagEpoch := (congrArg State.wagEpoch (putQueue_eq s i x) :)
@[simp] theorem putQueue_domains (i : Nat) (x : Queue) : (putQueue s i x).domains = s.domains := (congrArg State.domains (putQueue_eq s i x) :)
@[simp] theorem putQueue_col (i : Nat) (x : Queue) : (putQueue s i x).col = s.col := (congrArg State.col (putQueue_eq s i x) :)
@[simp] theorem putQueue_links (i : Nat) (x : Queue) : (putQueue s i x).links = s.links := (congrArg State.links (putQueue_eq s i x) :)
@[simp] theorem putQueue_rxLanes (i : Nat) (x : Queue) : (putQueue s i x).rxLanes = s.rxLanes := (congrArg State.rxLanes (putQueue_eq s i x) :)
@[simp] theorem putQueue_dmcs (i : Nat) (x : Queue) : (putQueue s i x).dmcs = s.dmcs := (congrArg State.dmcs (putQueue_eq s i x) :)
@[simp] theorem putQueue_dram (i : Nat) (x : Queue) : (putQueue s i x).dram = s.dram := (congrArg State.dram (putQueue_eq s i x) :)
@[simp] theorem putQueue_dramUe (i : Nat) (x : Queue) : (putQueue s i x).dramUe = s.dramUe := (congrArg State.dramUe (putQueue_eq s i x) :)
@[simp] theorem putQueue_dramCe (i : Nat) (x : Queue) : (putQueue s i x).dramCe = s.dramCe := (congrArg State.dramCe (putQueue_eq s i x) :)
@[simp] theorem putQueue_dramOwn (i : Nat) (x : Queue) : (putQueue s i x).dramOwn = s.dramOwn := (congrArg State.dramOwn (putQueue_eq s i x) :)
@[simp] theorem putQueue_dramSystem (i : Nat) (x : Queue) : (putQueue s i x).dramSystem = s.dramSystem := (congrArg State.dramSystem (putQueue_eq s i x) :)
@[simp] theorem putQueue_interleave (i : Nat) (x : Queue) : (putQueue s i x).interleave = s.interleave := (congrArg State.interleave (putQueue_eq s i x) :)
@[simp] theorem putQueue_ctxBase (i : Nat) (x : Queue) : (putQueue s i x).ctxBase = s.ctxBase := (congrArg State.ctxBase (putQueue_eq s i x) :)
@[simp] theorem putQueue_ageLimit (i : Nat) (x : Queue) : (putQueue s i x).ageLimit = s.ageLimit := (congrArg State.ageLimit (putQueue_eq s i x) :)
@[simp] theorem putQueue_minMargin (i : Nat) (x : Queue) : (putQueue s i x).minMargin = s.minMargin := (congrArg State.minMargin (putQueue_eq s i x) :)
@[simp] theorem putQueue_trackH (i : Nat) (x : Queue) : (putQueue s i x).trackH = s.trackH := (congrArg State.trackH (putQueue_eq s i x) :)
@[simp] theorem putQueue_ceLimit (i : Nat) (x : Queue) : (putQueue s i x).ceLimit = s.ceLimit := (congrArg State.ceLimit (putQueue_eq s i x) :)
@[simp] theorem putQueue_scrubOn (i : Nat) (x : Queue) : (putQueue s i x).scrubOn = s.scrubOn := (congrArg State.scrubOn (putQueue_eq s i x) :)
@[simp] theorem putQueue_scrubPeriod (i : Nat) (x : Queue) : (putQueue s i x).scrubPeriod = s.scrubPeriod := (congrArg State.scrubPeriod (putQueue_eq s i x) :)
@[simp] theorem putQueue_auxs (i : Nat) (x : Queue) : (putQueue s i x).auxs = s.auxs := (congrArg State.auxs (putQueue_eq s i x) :)
@[simp] theorem putQueue_auxClrN (i : Nat) (x : Queue) : (putQueue s i x).auxClrN = s.auxClrN := (congrArg State.auxClrN (putQueue_eq s i x) :)
@[simp] theorem putQueue_jnl (i : Nat) (x : Queue) : (putQueue s i x).jnl = s.jnl := (congrArg State.jnl (putQueue_eq s i x) :)
@[simp] theorem putQueue_rpl (i : Nat) (x : Queue) : (putQueue s i x).rpl = s.rpl := (congrArg State.rpl (putQueue_eq s i x) :)
@[simp] theorem putQueue_bus (i : Nat) (x : Queue) : (putQueue s i x).bus = s.bus := (congrArg State.bus (putQueue_eq s i x) :)
@[simp] theorem putQueue_bulk (i : Nat) (x : Queue) : (putQueue s i x).bulk = s.bulk := (congrArg State.bulk (putQueue_eq s i x) :)
@[simp] theorem putQueue_free (i : Nat) (x : Queue) : (putQueue s i x).free = s.free := (congrArg State.free (putQueue_eq s i x) :)
@[simp] theorem putQueue_pending (i : Nat) (x : Queue) : (putQueue s i x).pending = s.pending := (congrArg State.pending (putQueue_eq s i x) :)

/-- `modQueue` changes nothing but the fields named here. -/
theorem modQueue_eq (i : Nat) (f : Queue → Queue) :
    modQueue s i f = { s with queues := (modQueue s i f).queues, hives := (modQueue s i f).hives } := putQueue_eq ..

@[simp] theorem modQueue_dev (i : Nat) (f : Queue → Queue) : (modQueue s i f).dev = s.dev := (congrArg State.dev (modQueue_eq s i f) :)
@[simp] theorem modQueue_md (i : Nat) (f : Queue → Queue) : (modQueue s i f).md = s.md := (congrArg State.md (modQueue_eq s i f) :)
@[simp] theorem modQueue_time (i : Nat) (f : Queue → Queue) : (modQueue s i f).time = s.time := (congrArg State.time (modQueue_eq s i f) :)
@[simp] theorem modQueue_pace (i : Nat) (f : Queue → Queue) : (modQueue s i f).pace = s.pace := (congrArg State.pace (modQueue_eq s i f) :)
@[simp] theorem modQueue_kpr (i : Nat) (f : Queue → Queue) : (modQueue s i f).kpr = s.kpr := (congrArg State.kpr (modQueue_eq s i f) :)
@[simp] theorem modQueue_svc (i : Nat) (f : Queue → Queue) : (modQueue s i f).svc = s.svc := (congrArg State.svc (modQueue_eq s i f) :)
@[simp] theorem modQueue_sec (i : Nat) (f : Queue → Queue) : (modQueue s i f).sec = s.sec := (congrArg State.sec (modQueue_eq s i f) :)
@[simp] theorem modQueue_grave (i : Nat) (f : Queue → Queue) : (modQueue s i f).grave = s.grave := (congrArg State.grave (modQueue_eq s i f) :)
@[simp] theorem modQueue_faults (i : Nat) (f : Queue → Queue) : (modQueue s i f).faults = s.faults := (congrArg State.faults (modQueue_eq s i f) :)
@[simp] theorem modQueue_mailboxes (i : Nat) (f : Queue → Queue) : (modQueue s i f).mailboxes = s.mailboxes := (congrArg State.mailboxes (modQueue_eq s i f) :)
@[simp] theorem modQueue_contexts (i : Nat) (f : Queue → Queue) : (modQueue s i f).contexts = s.contexts := (congrArg State.contexts (modQueue_eq s i f) :)
@[simp] theorem modQueue_msix (i : Nat) (f : Queue → Queue) : (modQueue s i f).msix = s.msix := (congrArg State.msix (modQueue_eq s i f) :)
@[simp] theorem modQueue_msixOpen (i : Nat) (f : Queue → Queue) : (modQueue s i f).msixOpen = s.msixOpen := (congrArg State.msixOpen (modQueue_eq s i f) :)
@[simp] theorem modQueue_msixPba (i : Nat) (f : Queue → Queue) : (modQueue s i f).msixPba = s.msixPba := (congrArg State.msixPba (modQueue_eq s i f) :)
@[simp] theorem modQueue_msixTable (i : Nat) (f : Queue → Queue) : (modQueue s i f).msixTable = s.msixTable := (congrArg State.msixTable (modQueue_eq s i f) :)
@[simp] theorem modQueue_held (i : Nat) (f : Queue → Queue) : (modQueue s i f).held = s.held := (congrArg State.held (modQueue_eq s i f) :)
@[simp] theorem modQueue_works (i : Nat) (f : Queue → Queue) : (modQueue s i f).works = s.works := (congrArg State.works (modQueue_eq s i f) :)
@[simp] theorem modQueue_cells (i : Nat) (f : Queue → Queue) : (modQueue s i f).cells = s.cells := (congrArg State.cells (modQueue_eq s i f) :)
@[simp] theorem modQueue_cellOwn (i : Nat) (f : Queue → Queue) : (modQueue s i f).cellOwn = s.cellOwn := (congrArg State.cellOwn (modQueue_eq s i f) :)
@[simp] theorem modQueue_comb (i : Nat) (f : Queue → Queue) : (modQueue s i f).comb = s.comb := (congrArg State.comb (modQueue_eq s i f) :)
@[simp] theorem modQueue_scratch (i : Nat) (f : Queue → Queue) : (modQueue s i f).scratch = s.scratch := (congrArg State.scratch (modQueue_eq s i f) :)
@[simp] theorem modQueue_inner (i : Nat) (f : Queue → Queue) : (modQueue s i f).inner = s.inner := (congrArg State.inner (modQueue_eq s i f) :)
@[simp] theorem modQueue_combUe (i : Nat) (f : Queue → Queue) : (modQueue s i f).combUe = s.combUe := (congrArg State.combUe (modQueue_eq s i f) :)
@[simp] theorem modQueue_combCe (i : Nat) (f : Queue → Queue) : (modQueue s i f).combCe = s.combCe := (congrArg State.combCe (modQueue_eq s i f) :)
@[simp] theorem modQueue_active (i : Nat) (f : Queue → Queue) : (modQueue s i f).active = s.active := (congrArg State.active (modQueue_eq s i f) :)
@[simp] theorem modQueue_combOwn (i : Nat) (f : Queue → Queue) : (modQueue s i f).combOwn = s.combOwn := (congrArg State.combOwn (modQueue_eq s i f) :)
@[simp] theorem modQueue_doorbells (i : Nat) (f : Queue → Queue) : (modQueue s i f).doorbells = s.doorbells := (congrArg State.doorbells (modQueue_eq s i f) :)
@[simp] theorem modQueue_caps (i : Nat) (f : Queue → Queue) : (modQueue s i f).caps = s.caps := (congrArg State.caps (modQueue_eq s i f) :)
@[simp] theorem modQueue_chans (i : Nat) (f : Queue → Queue) : (modQueue s i f).chans = s.chans := (congrArg State.chans (modQueue_eq s i f) :)
@[simp] theorem modQueue_tasks (i : Nat) (f : Queue → Queue) : (modQueue s i f).tasks = s.tasks := (congrArg State.tasks (modQueue_eq s i f) :)
@[simp] theorem modQueue_counters (i : Nat) (f : Queue → Queue) : (modQueue s i f).counters = s.counters := (congrArg State.counters (modQueue_eq s i f) :)
@[simp] theorem modQueue_timers (i : Nat) (f : Queue → Queue) : (modQueue s i f).timers = s.timers := (congrArg State.timers (modQueue_eq s i f) :)
@[simp] theorem modQueue_pins (i : Nat) (f : Queue → Queue) : (modQueue s i f).pins = s.pins := (congrArg State.pins (modQueue_eq s i f) :)
@[simp] theorem modQueue_hops (i : Nat) (f : Queue → Queue) : (modQueue s i f).hops = s.hops := (congrArg State.hops (modQueue_eq s i f) :)
@[simp] theorem modQueue_wagEpoch (i : Nat) (f : Queue → Queue) : (modQueue s i f).wagEpoch = s.wagEpoch := (congrArg State.wagEpoch (modQueue_eq s i f) :)
@[simp] theorem modQueue_domains (i : Nat) (f : Queue → Queue) : (modQueue s i f).domains = s.domains := (congrArg State.domains (modQueue_eq s i f) :)
@[simp] theorem modQueue_col (i : Nat) (f : Queue → Queue) : (modQueue s i f).col = s.col := (congrArg State.col (modQueue_eq s i f) :)
@[simp] theorem modQueue_links (i : Nat) (f : Queue → Queue) : (modQueue s i f).links = s.links := (congrArg State.links (modQueue_eq s i f) :)
@[simp] theorem modQueue_rxLanes (i : Nat) (f : Queue → Queue) : (modQueue s i f).rxLanes = s.rxLanes := (congrArg State.rxLanes (modQueue_eq s i f) :)
@[simp] theorem modQueue_dmcs (i : Nat) (f : Queue → Queue) : (modQueue s i f).dmcs = s.dmcs := (congrArg State.dmcs (modQueue_eq s i f) :)
@[simp] theorem modQueue_dram (i : Nat) (f : Queue → Queue) : (modQueue s i f).dram = s.dram := (congrArg State.dram (modQueue_eq s i f) :)
@[simp] theorem modQueue_dramUe (i : Nat) (f : Queue → Queue) : (modQueue s i f).dramUe = s.dramUe := (congrArg State.dramUe (modQueue_eq s i f) :)
@[simp] theorem modQueue_dramCe (i : Nat) (f : Queue → Queue) : (modQueue s i f).dramCe = s.dramCe := (congrArg State.dramCe (modQueue_eq s i f) :)
@[simp] theorem modQueue_dramOwn (i : Nat) (f : Queue → Queue) : (modQueue s i f).dramOwn = s.dramOwn := (congrArg State.dramOwn (modQueue_eq s i f) :)
@[simp] theorem modQueue_dramSystem (i : Nat) (f : Queue → Queue) : (modQueue s i f).dramSystem = s.dramSystem := (congrArg State.dramSystem (modQueue_eq s i f) :)
@[simp] theorem modQueue_interleave (i : Nat) (f : Queue → Queue) : (modQueue s i f).interleave = s.interleave := (congrArg State.interleave (modQueue_eq s i f) :)
@[simp] theorem modQueue_ctxBase (i : Nat) (f : Queue → Queue) : (modQueue s i f).ctxBase = s.ctxBase := (congrArg State.ctxBase (modQueue_eq s i f) :)
@[simp] theorem modQueue_ageLimit (i : Nat) (f : Queue → Queue) : (modQueue s i f).ageLimit = s.ageLimit := (congrArg State.ageLimit (modQueue_eq s i f) :)
@[simp] theorem modQueue_minMargin (i : Nat) (f : Queue → Queue) : (modQueue s i f).minMargin = s.minMargin := (congrArg State.minMargin (modQueue_eq s i f) :)
@[simp] theorem modQueue_trackH (i : Nat) (f : Queue → Queue) : (modQueue s i f).trackH = s.trackH := (congrArg State.trackH (modQueue_eq s i f) :)
@[simp] theorem modQueue_ceLimit (i : Nat) (f : Queue → Queue) : (modQueue s i f).ceLimit = s.ceLimit := (congrArg State.ceLimit (modQueue_eq s i f) :)
@[simp] theorem modQueue_scrubOn (i : Nat) (f : Queue → Queue) : (modQueue s i f).scrubOn = s.scrubOn := (congrArg State.scrubOn (modQueue_eq s i f) :)
@[simp] theorem modQueue_scrubPeriod (i : Nat) (f : Queue → Queue) : (modQueue s i f).scrubPeriod = s.scrubPeriod := (congrArg State.scrubPeriod (modQueue_eq s i f) :)
@[simp] theorem modQueue_auxs (i : Nat) (f : Queue → Queue) : (modQueue s i f).auxs = s.auxs := (congrArg State.auxs (modQueue_eq s i f) :)
@[simp] theorem modQueue_auxClrN (i : Nat) (f : Queue → Queue) : (modQueue s i f).auxClrN = s.auxClrN := (congrArg State.auxClrN (modQueue_eq s i f) :)
@[simp] theorem modQueue_jnl (i : Nat) (f : Queue → Queue) : (modQueue s i f).jnl = s.jnl := (congrArg State.jnl (modQueue_eq s i f) :)
@[simp] theorem modQueue_rpl (i : Nat) (f : Queue → Queue) : (modQueue s i f).rpl = s.rpl := (congrArg State.rpl (modQueue_eq s i f) :)
@[simp] theorem modQueue_bus (i : Nat) (f : Queue → Queue) : (modQueue s i f).bus = s.bus := (congrArg State.bus (modQueue_eq s i f) :)
@[simp] theorem modQueue_bulk (i : Nat) (f : Queue → Queue) : (modQueue s i f).bulk = s.bulk := (congrArg State.bulk (modQueue_eq s i f) :)
@[simp] theorem modQueue_free (i : Nat) (f : Queue → Queue) : (modQueue s i f).free = s.free := (congrArg State.free (modQueue_eq s i f) :)
@[simp] theorem modQueue_pending (i : Nat) (f : Queue → Queue) : (modQueue s i f).pending = s.pending := (congrArg State.pending (modQueue_eq s i f) :)

/-- `irq` changes nothing but the fields named here. -/
theorem irq_eq (k b : Nat) :
    irq s k b = { s with contexts := (irq s k b).contexts, msix := (irq s k b).msix, msixPba := (irq s k b).msixPba } := by
  unfold irq; dsimp only; (repeat' split) <;> rfl

@[simp] theorem irq_dev (k b : Nat) : (irq s k b).dev = s.dev := (congrArg State.dev (irq_eq s k b) :)
@[simp] theorem irq_md (k b : Nat) : (irq s k b).md = s.md := (congrArg State.md (irq_eq s k b) :)
@[simp] theorem irq_time (k b : Nat) : (irq s k b).time = s.time := (congrArg State.time (irq_eq s k b) :)
@[simp] theorem irq_pace (k b : Nat) : (irq s k b).pace = s.pace := (congrArg State.pace (irq_eq s k b) :)
@[simp] theorem irq_kpr (k b : Nat) : (irq s k b).kpr = s.kpr := (congrArg State.kpr (irq_eq s k b) :)
@[simp] theorem irq_svc (k b : Nat) : (irq s k b).svc = s.svc := (congrArg State.svc (irq_eq s k b) :)
@[simp] theorem irq_sec (k b : Nat) : (irq s k b).sec = s.sec := (congrArg State.sec (irq_eq s k b) :)
@[simp] theorem irq_grave (k b : Nat) : (irq s k b).grave = s.grave := (congrArg State.grave (irq_eq s k b) :)
@[simp] theorem irq_faults (k b : Nat) : (irq s k b).faults = s.faults := (congrArg State.faults (irq_eq s k b) :)
@[simp] theorem irq_mailboxes (k b : Nat) : (irq s k b).mailboxes = s.mailboxes := (congrArg State.mailboxes (irq_eq s k b) :)
@[simp] theorem irq_msixOpen (k b : Nat) : (irq s k b).msixOpen = s.msixOpen := (congrArg State.msixOpen (irq_eq s k b) :)
@[simp] theorem irq_msixTable (k b : Nat) : (irq s k b).msixTable = s.msixTable := (congrArg State.msixTable (irq_eq s k b) :)
@[simp] theorem irq_held (k b : Nat) : (irq s k b).held = s.held := (congrArg State.held (irq_eq s k b) :)
@[simp] theorem irq_works (k b : Nat) : (irq s k b).works = s.works := (congrArg State.works (irq_eq s k b) :)
@[simp] theorem irq_cells (k b : Nat) : (irq s k b).cells = s.cells := (congrArg State.cells (irq_eq s k b) :)
@[simp] theorem irq_cellOwn (k b : Nat) : (irq s k b).cellOwn = s.cellOwn := (congrArg State.cellOwn (irq_eq s k b) :)
@[simp] theorem irq_hives (k b : Nat) : (irq s k b).hives = s.hives := (congrArg State.hives (irq_eq s k b) :)
@[simp] theorem irq_comb (k b : Nat) : (irq s k b).comb = s.comb := (congrArg State.comb (irq_eq s k b) :)
@[simp] theorem irq_scratch (k b : Nat) : (irq s k b).scratch = s.scratch := (congrArg State.scratch (irq_eq s k b) :)
@[simp] theorem irq_inner (k b : Nat) : (irq s k b).inner = s.inner := (congrArg State.inner (irq_eq s k b) :)
@[simp] theorem irq_combUe (k b : Nat) : (irq s k b).combUe = s.combUe := (congrArg State.combUe (irq_eq s k b) :)
@[simp] theorem irq_combCe (k b : Nat) : (irq s k b).combCe = s.combCe := (congrArg State.combCe (irq_eq s k b) :)
@[simp] theorem irq_active (k b : Nat) : (irq s k b).active = s.active := (congrArg State.active (irq_eq s k b) :)
@[simp] theorem irq_combOwn (k b : Nat) : (irq s k b).combOwn = s.combOwn := (congrArg State.combOwn (irq_eq s k b) :)
@[simp] theorem irq_queues (k b : Nat) : (irq s k b).queues = s.queues := (congrArg State.queues (irq_eq s k b) :)
@[simp] theorem irq_doorbells (k b : Nat) : (irq s k b).doorbells = s.doorbells := (congrArg State.doorbells (irq_eq s k b) :)
@[simp] theorem irq_caps (k b : Nat) : (irq s k b).caps = s.caps := (congrArg State.caps (irq_eq s k b) :)
@[simp] theorem irq_chans (k b : Nat) : (irq s k b).chans = s.chans := (congrArg State.chans (irq_eq s k b) :)
@[simp] theorem irq_tasks (k b : Nat) : (irq s k b).tasks = s.tasks := (congrArg State.tasks (irq_eq s k b) :)
@[simp] theorem irq_counters (k b : Nat) : (irq s k b).counters = s.counters := (congrArg State.counters (irq_eq s k b) :)
@[simp] theorem irq_timers (k b : Nat) : (irq s k b).timers = s.timers := (congrArg State.timers (irq_eq s k b) :)
@[simp] theorem irq_pins (k b : Nat) : (irq s k b).pins = s.pins := (congrArg State.pins (irq_eq s k b) :)
@[simp] theorem irq_hops (k b : Nat) : (irq s k b).hops = s.hops := (congrArg State.hops (irq_eq s k b) :)
@[simp] theorem irq_wagEpoch (k b : Nat) : (irq s k b).wagEpoch = s.wagEpoch := (congrArg State.wagEpoch (irq_eq s k b) :)
@[simp] theorem irq_domains (k b : Nat) : (irq s k b).domains = s.domains := (congrArg State.domains (irq_eq s k b) :)
@[simp] theorem irq_col (k b : Nat) : (irq s k b).col = s.col := (congrArg State.col (irq_eq s k b) :)
@[simp] theorem irq_links (k b : Nat) : (irq s k b).links = s.links := (congrArg State.links (irq_eq s k b) :)
@[simp] theorem irq_rxLanes (k b : Nat) : (irq s k b).rxLanes = s.rxLanes := (congrArg State.rxLanes (irq_eq s k b) :)
@[simp] theorem irq_dmcs (k b : Nat) : (irq s k b).dmcs = s.dmcs := (congrArg State.dmcs (irq_eq s k b) :)
@[simp] theorem irq_dram (k b : Nat) : (irq s k b).dram = s.dram := (congrArg State.dram (irq_eq s k b) :)
@[simp] theorem irq_dramUe (k b : Nat) : (irq s k b).dramUe = s.dramUe := (congrArg State.dramUe (irq_eq s k b) :)
@[simp] theorem irq_dramCe (k b : Nat) : (irq s k b).dramCe = s.dramCe := (congrArg State.dramCe (irq_eq s k b) :)
@[simp] theorem irq_dramOwn (k b : Nat) : (irq s k b).dramOwn = s.dramOwn := (congrArg State.dramOwn (irq_eq s k b) :)
@[simp] theorem irq_dramSystem (k b : Nat) : (irq s k b).dramSystem = s.dramSystem := (congrArg State.dramSystem (irq_eq s k b) :)
@[simp] theorem irq_interleave (k b : Nat) : (irq s k b).interleave = s.interleave := (congrArg State.interleave (irq_eq s k b) :)
@[simp] theorem irq_ctxBase (k b : Nat) : (irq s k b).ctxBase = s.ctxBase := (congrArg State.ctxBase (irq_eq s k b) :)
@[simp] theorem irq_ageLimit (k b : Nat) : (irq s k b).ageLimit = s.ageLimit := (congrArg State.ageLimit (irq_eq s k b) :)
@[simp] theorem irq_minMargin (k b : Nat) : (irq s k b).minMargin = s.minMargin := (congrArg State.minMargin (irq_eq s k b) :)
@[simp] theorem irq_trackH (k b : Nat) : (irq s k b).trackH = s.trackH := (congrArg State.trackH (irq_eq s k b) :)
@[simp] theorem irq_ceLimit (k b : Nat) : (irq s k b).ceLimit = s.ceLimit := (congrArg State.ceLimit (irq_eq s k b) :)
@[simp] theorem irq_scrubOn (k b : Nat) : (irq s k b).scrubOn = s.scrubOn := (congrArg State.scrubOn (irq_eq s k b) :)
@[simp] theorem irq_scrubPeriod (k b : Nat) : (irq s k b).scrubPeriod = s.scrubPeriod := (congrArg State.scrubPeriod (irq_eq s k b) :)
@[simp] theorem irq_auxs (k b : Nat) : (irq s k b).auxs = s.auxs := (congrArg State.auxs (irq_eq s k b) :)
@[simp] theorem irq_auxClrN (k b : Nat) : (irq s k b).auxClrN = s.auxClrN := (congrArg State.auxClrN (irq_eq s k b) :)
@[simp] theorem irq_jnl (k b : Nat) : (irq s k b).jnl = s.jnl := (congrArg State.jnl (irq_eq s k b) :)
@[simp] theorem irq_rpl (k b : Nat) : (irq s k b).rpl = s.rpl := (congrArg State.rpl (irq_eq s k b) :)
@[simp] theorem irq_bus (k b : Nat) : (irq s k b).bus = s.bus := (congrArg State.bus (irq_eq s k b) :)
@[simp] theorem irq_bulk (k b : Nat) : (irq s k b).bulk = s.bulk := (congrArg State.bulk (irq_eq s k b) :)
@[simp] theorem irq_free (k b : Nat) : (irq s k b).free = s.free := (congrArg State.free (irq_eq s k b) :)
@[simp] theorem irq_pending (k b : Nat) : (irq s k b).pending = s.pending := (congrArg State.pending (irq_eq s k b) :)

/-- `irqState` changes nothing but the fields named here. -/
theorem irqState_eq :
    irqState s = { s with contexts := (irqState s).contexts, msix := (irqState s).msix, msixPba := (irqState s).msixPba } := by
  unfold irqState; apply forUp_keeps (P := fun x : State => x = { s with contexts := x.contexts, msix := x.msix, msixPba := x.msixPba }); intro i x h; rw [irq_eq, h]; rfl

@[simp] theorem irqState_dev : (irqState s).dev = s.dev := (congrArg State.dev (irqState_eq s ) :)
@[simp] theorem irqState_md : (irqState s).md = s.md := (congrArg State.md (irqState_eq s ) :)
@[simp] theorem irqState_time : (irqState s).time = s.time := (congrArg State.time (irqState_eq s ) :)
@[simp] theorem irqState_pace : (irqState s).pace = s.pace := (congrArg State.pace (irqState_eq s ) :)
@[simp] theorem irqState_kpr : (irqState s).kpr = s.kpr := (congrArg State.kpr (irqState_eq s ) :)
@[simp] theorem irqState_svc : (irqState s).svc = s.svc := (congrArg State.svc (irqState_eq s ) :)
@[simp] theorem irqState_sec : (irqState s).sec = s.sec := (congrArg State.sec (irqState_eq s ) :)
@[simp] theorem irqState_grave : (irqState s).grave = s.grave := (congrArg State.grave (irqState_eq s ) :)
@[simp] theorem irqState_faults : (irqState s).faults = s.faults := (congrArg State.faults (irqState_eq s ) :)
@[simp] theorem irqState_mailboxes : (irqState s).mailboxes = s.mailboxes := (congrArg State.mailboxes (irqState_eq s ) :)
@[simp] theorem irqState_msixOpen : (irqState s).msixOpen = s.msixOpen := (congrArg State.msixOpen (irqState_eq s ) :)
@[simp] theorem irqState_msixTable : (irqState s).msixTable = s.msixTable := (congrArg State.msixTable (irqState_eq s ) :)
@[simp] theorem irqState_held : (irqState s).held = s.held := (congrArg State.held (irqState_eq s ) :)
@[simp] theorem irqState_works : (irqState s).works = s.works := (congrArg State.works (irqState_eq s ) :)
@[simp] theorem irqState_cells : (irqState s).cells = s.cells := (congrArg State.cells (irqState_eq s ) :)
@[simp] theorem irqState_cellOwn : (irqState s).cellOwn = s.cellOwn := (congrArg State.cellOwn (irqState_eq s ) :)
@[simp] theorem irqState_hives : (irqState s).hives = s.hives := (congrArg State.hives (irqState_eq s ) :)
@[simp] theorem irqState_comb : (irqState s).comb = s.comb := (congrArg State.comb (irqState_eq s ) :)
@[simp] theorem irqState_scratch : (irqState s).scratch = s.scratch := (congrArg State.scratch (irqState_eq s ) :)
@[simp] theorem irqState_inner : (irqState s).inner = s.inner := (congrArg State.inner (irqState_eq s ) :)
@[simp] theorem irqState_combUe : (irqState s).combUe = s.combUe := (congrArg State.combUe (irqState_eq s ) :)
@[simp] theorem irqState_combCe : (irqState s).combCe = s.combCe := (congrArg State.combCe (irqState_eq s ) :)
@[simp] theorem irqState_active : (irqState s).active = s.active := (congrArg State.active (irqState_eq s ) :)
@[simp] theorem irqState_combOwn : (irqState s).combOwn = s.combOwn := (congrArg State.combOwn (irqState_eq s ) :)
@[simp] theorem irqState_queues : (irqState s).queues = s.queues := (congrArg State.queues (irqState_eq s ) :)
@[simp] theorem irqState_doorbells : (irqState s).doorbells = s.doorbells := (congrArg State.doorbells (irqState_eq s ) :)
@[simp] theorem irqState_caps : (irqState s).caps = s.caps := (congrArg State.caps (irqState_eq s ) :)
@[simp] theorem irqState_chans : (irqState s).chans = s.chans := (congrArg State.chans (irqState_eq s ) :)
@[simp] theorem irqState_tasks : (irqState s).tasks = s.tasks := (congrArg State.tasks (irqState_eq s ) :)
@[simp] theorem irqState_counters : (irqState s).counters = s.counters := (congrArg State.counters (irqState_eq s ) :)
@[simp] theorem irqState_timers : (irqState s).timers = s.timers := (congrArg State.timers (irqState_eq s ) :)
@[simp] theorem irqState_pins : (irqState s).pins = s.pins := (congrArg State.pins (irqState_eq s ) :)
@[simp] theorem irqState_hops : (irqState s).hops = s.hops := (congrArg State.hops (irqState_eq s ) :)
@[simp] theorem irqState_wagEpoch : (irqState s).wagEpoch = s.wagEpoch := (congrArg State.wagEpoch (irqState_eq s ) :)
@[simp] theorem irqState_domains : (irqState s).domains = s.domains := (congrArg State.domains (irqState_eq s ) :)
@[simp] theorem irqState_col : (irqState s).col = s.col := (congrArg State.col (irqState_eq s ) :)
@[simp] theorem irqState_links : (irqState s).links = s.links := (congrArg State.links (irqState_eq s ) :)
@[simp] theorem irqState_rxLanes : (irqState s).rxLanes = s.rxLanes := (congrArg State.rxLanes (irqState_eq s ) :)
@[simp] theorem irqState_dmcs : (irqState s).dmcs = s.dmcs := (congrArg State.dmcs (irqState_eq s ) :)
@[simp] theorem irqState_dram : (irqState s).dram = s.dram := (congrArg State.dram (irqState_eq s ) :)
@[simp] theorem irqState_dramUe : (irqState s).dramUe = s.dramUe := (congrArg State.dramUe (irqState_eq s ) :)
@[simp] theorem irqState_dramCe : (irqState s).dramCe = s.dramCe := (congrArg State.dramCe (irqState_eq s ) :)
@[simp] theorem irqState_dramOwn : (irqState s).dramOwn = s.dramOwn := (congrArg State.dramOwn (irqState_eq s ) :)
@[simp] theorem irqState_dramSystem : (irqState s).dramSystem = s.dramSystem := (congrArg State.dramSystem (irqState_eq s ) :)
@[simp] theorem irqState_interleave : (irqState s).interleave = s.interleave := (congrArg State.interleave (irqState_eq s ) :)
@[simp] theorem irqState_ctxBase : (irqState s).ctxBase = s.ctxBase := (congrArg State.ctxBase (irqState_eq s ) :)
@[simp] theorem irqState_ageLimit : (irqState s).ageLimit = s.ageLimit := (congrArg State.ageLimit (irqState_eq s ) :)
@[simp] theorem irqState_minMargin : (irqState s).minMargin = s.minMargin := (congrArg State.minMargin (irqState_eq s ) :)
@[simp] theorem irqState_trackH : (irqState s).trackH = s.trackH := (congrArg State.trackH (irqState_eq s ) :)
@[simp] theorem irqState_ceLimit : (irqState s).ceLimit = s.ceLimit := (congrArg State.ceLimit (irqState_eq s ) :)
@[simp] theorem irqState_scrubOn : (irqState s).scrubOn = s.scrubOn := (congrArg State.scrubOn (irqState_eq s ) :)
@[simp] theorem irqState_scrubPeriod : (irqState s).scrubPeriod = s.scrubPeriod := (congrArg State.scrubPeriod (irqState_eq s ) :)
@[simp] theorem irqState_auxs : (irqState s).auxs = s.auxs := (congrArg State.auxs (irqState_eq s ) :)
@[simp] theorem irqState_auxClrN : (irqState s).auxClrN = s.auxClrN := (congrArg State.auxClrN (irqState_eq s ) :)
@[simp] theorem irqState_jnl : (irqState s).jnl = s.jnl := (congrArg State.jnl (irqState_eq s ) :)
@[simp] theorem irqState_rpl : (irqState s).rpl = s.rpl := (congrArg State.rpl (irqState_eq s ) :)
@[simp] theorem irqState_bus : (irqState s).bus = s.bus := (congrArg State.bus (irqState_eq s ) :)
@[simp] theorem irqState_bulk : (irqState s).bulk = s.bulk := (congrArg State.bulk (irqState_eq s ) :)
@[simp] theorem irqState_free : (irqState s).free = s.free := (congrArg State.free (irqState_eq s ) :)
@[simp] theorem irqState_pending : (irqState s).pending = s.pending := (congrArg State.pending (irqState_eq s ) :)

/-- `jput` changes nothing but the fields named here. -/
theorem jput_eq (t : Nat) (p : JPay) :
    jput s t p = { s with jnl := (jput s t p).jnl } := by
  unfold jput; dsimp only; (repeat' split) <;> rfl

@[simp] theorem jput_dev (t : Nat) (p : JPay) : (jput s t p).dev = s.dev := (congrArg State.dev (jput_eq s t p) :)
@[simp] theorem jput_md (t : Nat) (p : JPay) : (jput s t p).md = s.md := (congrArg State.md (jput_eq s t p) :)
@[simp] theorem jput_time (t : Nat) (p : JPay) : (jput s t p).time = s.time := (congrArg State.time (jput_eq s t p) :)
@[simp] theorem jput_pace (t : Nat) (p : JPay) : (jput s t p).pace = s.pace := (congrArg State.pace (jput_eq s t p) :)
@[simp] theorem jput_kpr (t : Nat) (p : JPay) : (jput s t p).kpr = s.kpr := (congrArg State.kpr (jput_eq s t p) :)
@[simp] theorem jput_svc (t : Nat) (p : JPay) : (jput s t p).svc = s.svc := (congrArg State.svc (jput_eq s t p) :)
@[simp] theorem jput_sec (t : Nat) (p : JPay) : (jput s t p).sec = s.sec := (congrArg State.sec (jput_eq s t p) :)
@[simp] theorem jput_grave (t : Nat) (p : JPay) : (jput s t p).grave = s.grave := (congrArg State.grave (jput_eq s t p) :)
@[simp] theorem jput_faults (t : Nat) (p : JPay) : (jput s t p).faults = s.faults := (congrArg State.faults (jput_eq s t p) :)
@[simp] theorem jput_mailboxes (t : Nat) (p : JPay) : (jput s t p).mailboxes = s.mailboxes := (congrArg State.mailboxes (jput_eq s t p) :)
@[simp] theorem jput_contexts (t : Nat) (p : JPay) : (jput s t p).contexts = s.contexts := (congrArg State.contexts (jput_eq s t p) :)
@[simp] theorem jput_msix (t : Nat) (p : JPay) : (jput s t p).msix = s.msix := (congrArg State.msix (jput_eq s t p) :)
@[simp] theorem jput_msixOpen (t : Nat) (p : JPay) : (jput s t p).msixOpen = s.msixOpen := (congrArg State.msixOpen (jput_eq s t p) :)
@[simp] theorem jput_msixPba (t : Nat) (p : JPay) : (jput s t p).msixPba = s.msixPba := (congrArg State.msixPba (jput_eq s t p) :)
@[simp] theorem jput_msixTable (t : Nat) (p : JPay) : (jput s t p).msixTable = s.msixTable := (congrArg State.msixTable (jput_eq s t p) :)
@[simp] theorem jput_held (t : Nat) (p : JPay) : (jput s t p).held = s.held := (congrArg State.held (jput_eq s t p) :)
@[simp] theorem jput_works (t : Nat) (p : JPay) : (jput s t p).works = s.works := (congrArg State.works (jput_eq s t p) :)
@[simp] theorem jput_cells (t : Nat) (p : JPay) : (jput s t p).cells = s.cells := (congrArg State.cells (jput_eq s t p) :)
@[simp] theorem jput_cellOwn (t : Nat) (p : JPay) : (jput s t p).cellOwn = s.cellOwn := (congrArg State.cellOwn (jput_eq s t p) :)
@[simp] theorem jput_hives (t : Nat) (p : JPay) : (jput s t p).hives = s.hives := (congrArg State.hives (jput_eq s t p) :)
@[simp] theorem jput_comb (t : Nat) (p : JPay) : (jput s t p).comb = s.comb := (congrArg State.comb (jput_eq s t p) :)
@[simp] theorem jput_scratch (t : Nat) (p : JPay) : (jput s t p).scratch = s.scratch := (congrArg State.scratch (jput_eq s t p) :)
@[simp] theorem jput_inner (t : Nat) (p : JPay) : (jput s t p).inner = s.inner := (congrArg State.inner (jput_eq s t p) :)
@[simp] theorem jput_combUe (t : Nat) (p : JPay) : (jput s t p).combUe = s.combUe := (congrArg State.combUe (jput_eq s t p) :)
@[simp] theorem jput_combCe (t : Nat) (p : JPay) : (jput s t p).combCe = s.combCe := (congrArg State.combCe (jput_eq s t p) :)
@[simp] theorem jput_active (t : Nat) (p : JPay) : (jput s t p).active = s.active := (congrArg State.active (jput_eq s t p) :)
@[simp] theorem jput_combOwn (t : Nat) (p : JPay) : (jput s t p).combOwn = s.combOwn := (congrArg State.combOwn (jput_eq s t p) :)
@[simp] theorem jput_queues (t : Nat) (p : JPay) : (jput s t p).queues = s.queues := (congrArg State.queues (jput_eq s t p) :)
@[simp] theorem jput_doorbells (t : Nat) (p : JPay) : (jput s t p).doorbells = s.doorbells := (congrArg State.doorbells (jput_eq s t p) :)
@[simp] theorem jput_caps (t : Nat) (p : JPay) : (jput s t p).caps = s.caps := (congrArg State.caps (jput_eq s t p) :)
@[simp] theorem jput_chans (t : Nat) (p : JPay) : (jput s t p).chans = s.chans := (congrArg State.chans (jput_eq s t p) :)
@[simp] theorem jput_tasks (t : Nat) (p : JPay) : (jput s t p).tasks = s.tasks := (congrArg State.tasks (jput_eq s t p) :)
@[simp] theorem jput_counters (t : Nat) (p : JPay) : (jput s t p).counters = s.counters := (congrArg State.counters (jput_eq s t p) :)
@[simp] theorem jput_timers (t : Nat) (p : JPay) : (jput s t p).timers = s.timers := (congrArg State.timers (jput_eq s t p) :)
@[simp] theorem jput_pins (t : Nat) (p : JPay) : (jput s t p).pins = s.pins := (congrArg State.pins (jput_eq s t p) :)
@[simp] theorem jput_hops (t : Nat) (p : JPay) : (jput s t p).hops = s.hops := (congrArg State.hops (jput_eq s t p) :)
@[simp] theorem jput_wagEpoch (t : Nat) (p : JPay) : (jput s t p).wagEpoch = s.wagEpoch := (congrArg State.wagEpoch (jput_eq s t p) :)
@[simp] theorem jput_domains (t : Nat) (p : JPay) : (jput s t p).domains = s.domains := (congrArg State.domains (jput_eq s t p) :)
@[simp] theorem jput_col (t : Nat) (p : JPay) : (jput s t p).col = s.col := (congrArg State.col (jput_eq s t p) :)
@[simp] theorem jput_links (t : Nat) (p : JPay) : (jput s t p).links = s.links := (congrArg State.links (jput_eq s t p) :)
@[simp] theorem jput_rxLanes (t : Nat) (p : JPay) : (jput s t p).rxLanes = s.rxLanes := (congrArg State.rxLanes (jput_eq s t p) :)
@[simp] theorem jput_dmcs (t : Nat) (p : JPay) : (jput s t p).dmcs = s.dmcs := (congrArg State.dmcs (jput_eq s t p) :)
@[simp] theorem jput_dram (t : Nat) (p : JPay) : (jput s t p).dram = s.dram := (congrArg State.dram (jput_eq s t p) :)
@[simp] theorem jput_dramUe (t : Nat) (p : JPay) : (jput s t p).dramUe = s.dramUe := (congrArg State.dramUe (jput_eq s t p) :)
@[simp] theorem jput_dramCe (t : Nat) (p : JPay) : (jput s t p).dramCe = s.dramCe := (congrArg State.dramCe (jput_eq s t p) :)
@[simp] theorem jput_dramOwn (t : Nat) (p : JPay) : (jput s t p).dramOwn = s.dramOwn := (congrArg State.dramOwn (jput_eq s t p) :)
@[simp] theorem jput_dramSystem (t : Nat) (p : JPay) : (jput s t p).dramSystem = s.dramSystem := (congrArg State.dramSystem (jput_eq s t p) :)
@[simp] theorem jput_interleave (t : Nat) (p : JPay) : (jput s t p).interleave = s.interleave := (congrArg State.interleave (jput_eq s t p) :)
@[simp] theorem jput_ctxBase (t : Nat) (p : JPay) : (jput s t p).ctxBase = s.ctxBase := (congrArg State.ctxBase (jput_eq s t p) :)
@[simp] theorem jput_ageLimit (t : Nat) (p : JPay) : (jput s t p).ageLimit = s.ageLimit := (congrArg State.ageLimit (jput_eq s t p) :)
@[simp] theorem jput_minMargin (t : Nat) (p : JPay) : (jput s t p).minMargin = s.minMargin := (congrArg State.minMargin (jput_eq s t p) :)
@[simp] theorem jput_trackH (t : Nat) (p : JPay) : (jput s t p).trackH = s.trackH := (congrArg State.trackH (jput_eq s t p) :)
@[simp] theorem jput_ceLimit (t : Nat) (p : JPay) : (jput s t p).ceLimit = s.ceLimit := (congrArg State.ceLimit (jput_eq s t p) :)
@[simp] theorem jput_scrubOn (t : Nat) (p : JPay) : (jput s t p).scrubOn = s.scrubOn := (congrArg State.scrubOn (jput_eq s t p) :)
@[simp] theorem jput_scrubPeriod (t : Nat) (p : JPay) : (jput s t p).scrubPeriod = s.scrubPeriod := (congrArg State.scrubPeriod (jput_eq s t p) :)
@[simp] theorem jput_auxs (t : Nat) (p : JPay) : (jput s t p).auxs = s.auxs := (congrArg State.auxs (jput_eq s t p) :)
@[simp] theorem jput_auxClrN (t : Nat) (p : JPay) : (jput s t p).auxClrN = s.auxClrN := (congrArg State.auxClrN (jput_eq s t p) :)
@[simp] theorem jput_rpl (t : Nat) (p : JPay) : (jput s t p).rpl = s.rpl := (congrArg State.rpl (jput_eq s t p) :)
@[simp] theorem jput_bus (t : Nat) (p : JPay) : (jput s t p).bus = s.bus := (congrArg State.bus (jput_eq s t p) :)
@[simp] theorem jput_bulk (t : Nat) (p : JPay) : (jput s t p).bulk = s.bulk := (congrArg State.bulk (jput_eq s t p) :)
@[simp] theorem jput_free (t : Nat) (p : JPay) : (jput s t p).free = s.free := (congrArg State.free (jput_eq s t p) :)
@[simp] theorem jput_pending (t : Nat) (p : JPay) : (jput s t p).pending = s.pending := (congrArg State.pending (jput_eq s t p) :)

/-- `jstate` changes nothing but the fields named here. -/
theorem jstate_eq (k i n c : Nat) :
    jstate s k i n c = { s with jnl := (jstate s k i n c).jnl } := jput_eq ..

@[simp] theorem jstate_dev (k i n c : Nat) : (jstate s k i n c).dev = s.dev := (congrArg State.dev (jstate_eq s k i n c) :)
@[simp] theorem jstate_md (k i n c : Nat) : (jstate s k i n c).md = s.md := (congrArg State.md (jstate_eq s k i n c) :)
@[simp] theorem jstate_time (k i n c : Nat) : (jstate s k i n c).time = s.time := (congrArg State.time (jstate_eq s k i n c) :)
@[simp] theorem jstate_pace (k i n c : Nat) : (jstate s k i n c).pace = s.pace := (congrArg State.pace (jstate_eq s k i n c) :)
@[simp] theorem jstate_kpr (k i n c : Nat) : (jstate s k i n c).kpr = s.kpr := (congrArg State.kpr (jstate_eq s k i n c) :)
@[simp] theorem jstate_svc (k i n c : Nat) : (jstate s k i n c).svc = s.svc := (congrArg State.svc (jstate_eq s k i n c) :)
@[simp] theorem jstate_sec (k i n c : Nat) : (jstate s k i n c).sec = s.sec := (congrArg State.sec (jstate_eq s k i n c) :)
@[simp] theorem jstate_grave (k i n c : Nat) : (jstate s k i n c).grave = s.grave := (congrArg State.grave (jstate_eq s k i n c) :)
@[simp] theorem jstate_faults (k i n c : Nat) : (jstate s k i n c).faults = s.faults := (congrArg State.faults (jstate_eq s k i n c) :)
@[simp] theorem jstate_mailboxes (k i n c : Nat) : (jstate s k i n c).mailboxes = s.mailboxes := (congrArg State.mailboxes (jstate_eq s k i n c) :)
@[simp] theorem jstate_contexts (k i n c : Nat) : (jstate s k i n c).contexts = s.contexts := (congrArg State.contexts (jstate_eq s k i n c) :)
@[simp] theorem jstate_msix (k i n c : Nat) : (jstate s k i n c).msix = s.msix := (congrArg State.msix (jstate_eq s k i n c) :)
@[simp] theorem jstate_msixOpen (k i n c : Nat) : (jstate s k i n c).msixOpen = s.msixOpen := (congrArg State.msixOpen (jstate_eq s k i n c) :)
@[simp] theorem jstate_msixPba (k i n c : Nat) : (jstate s k i n c).msixPba = s.msixPba := (congrArg State.msixPba (jstate_eq s k i n c) :)
@[simp] theorem jstate_msixTable (k i n c : Nat) : (jstate s k i n c).msixTable = s.msixTable := (congrArg State.msixTable (jstate_eq s k i n c) :)
@[simp] theorem jstate_held (k i n c : Nat) : (jstate s k i n c).held = s.held := (congrArg State.held (jstate_eq s k i n c) :)
@[simp] theorem jstate_works (k i n c : Nat) : (jstate s k i n c).works = s.works := (congrArg State.works (jstate_eq s k i n c) :)
@[simp] theorem jstate_cells (k i n c : Nat) : (jstate s k i n c).cells = s.cells := (congrArg State.cells (jstate_eq s k i n c) :)
@[simp] theorem jstate_cellOwn (k i n c : Nat) : (jstate s k i n c).cellOwn = s.cellOwn := (congrArg State.cellOwn (jstate_eq s k i n c) :)
@[simp] theorem jstate_hives (k i n c : Nat) : (jstate s k i n c).hives = s.hives := (congrArg State.hives (jstate_eq s k i n c) :)
@[simp] theorem jstate_comb (k i n c : Nat) : (jstate s k i n c).comb = s.comb := (congrArg State.comb (jstate_eq s k i n c) :)
@[simp] theorem jstate_scratch (k i n c : Nat) : (jstate s k i n c).scratch = s.scratch := (congrArg State.scratch (jstate_eq s k i n c) :)
@[simp] theorem jstate_inner (k i n c : Nat) : (jstate s k i n c).inner = s.inner := (congrArg State.inner (jstate_eq s k i n c) :)
@[simp] theorem jstate_combUe (k i n c : Nat) : (jstate s k i n c).combUe = s.combUe := (congrArg State.combUe (jstate_eq s k i n c) :)
@[simp] theorem jstate_combCe (k i n c : Nat) : (jstate s k i n c).combCe = s.combCe := (congrArg State.combCe (jstate_eq s k i n c) :)
@[simp] theorem jstate_active (k i n c : Nat) : (jstate s k i n c).active = s.active := (congrArg State.active (jstate_eq s k i n c) :)
@[simp] theorem jstate_combOwn (k i n c : Nat) : (jstate s k i n c).combOwn = s.combOwn := (congrArg State.combOwn (jstate_eq s k i n c) :)
@[simp] theorem jstate_queues (k i n c : Nat) : (jstate s k i n c).queues = s.queues := (congrArg State.queues (jstate_eq s k i n c) :)
@[simp] theorem jstate_doorbells (k i n c : Nat) : (jstate s k i n c).doorbells = s.doorbells := (congrArg State.doorbells (jstate_eq s k i n c) :)
@[simp] theorem jstate_caps (k i n c : Nat) : (jstate s k i n c).caps = s.caps := (congrArg State.caps (jstate_eq s k i n c) :)
@[simp] theorem jstate_chans (k i n c : Nat) : (jstate s k i n c).chans = s.chans := (congrArg State.chans (jstate_eq s k i n c) :)
@[simp] theorem jstate_tasks (k i n c : Nat) : (jstate s k i n c).tasks = s.tasks := (congrArg State.tasks (jstate_eq s k i n c) :)
@[simp] theorem jstate_counters (k i n c : Nat) : (jstate s k i n c).counters = s.counters := (congrArg State.counters (jstate_eq s k i n c) :)
@[simp] theorem jstate_timers (k i n c : Nat) : (jstate s k i n c).timers = s.timers := (congrArg State.timers (jstate_eq s k i n c) :)
@[simp] theorem jstate_pins (k i n c : Nat) : (jstate s k i n c).pins = s.pins := (congrArg State.pins (jstate_eq s k i n c) :)
@[simp] theorem jstate_hops (k i n c : Nat) : (jstate s k i n c).hops = s.hops := (congrArg State.hops (jstate_eq s k i n c) :)
@[simp] theorem jstate_wagEpoch (k i n c : Nat) : (jstate s k i n c).wagEpoch = s.wagEpoch := (congrArg State.wagEpoch (jstate_eq s k i n c) :)
@[simp] theorem jstate_domains (k i n c : Nat) : (jstate s k i n c).domains = s.domains := (congrArg State.domains (jstate_eq s k i n c) :)
@[simp] theorem jstate_col (k i n c : Nat) : (jstate s k i n c).col = s.col := (congrArg State.col (jstate_eq s k i n c) :)
@[simp] theorem jstate_links (k i n c : Nat) : (jstate s k i n c).links = s.links := (congrArg State.links (jstate_eq s k i n c) :)
@[simp] theorem jstate_rxLanes (k i n c : Nat) : (jstate s k i n c).rxLanes = s.rxLanes := (congrArg State.rxLanes (jstate_eq s k i n c) :)
@[simp] theorem jstate_dmcs (k i n c : Nat) : (jstate s k i n c).dmcs = s.dmcs := (congrArg State.dmcs (jstate_eq s k i n c) :)
@[simp] theorem jstate_dram (k i n c : Nat) : (jstate s k i n c).dram = s.dram := (congrArg State.dram (jstate_eq s k i n c) :)
@[simp] theorem jstate_dramUe (k i n c : Nat) : (jstate s k i n c).dramUe = s.dramUe := (congrArg State.dramUe (jstate_eq s k i n c) :)
@[simp] theorem jstate_dramCe (k i n c : Nat) : (jstate s k i n c).dramCe = s.dramCe := (congrArg State.dramCe (jstate_eq s k i n c) :)
@[simp] theorem jstate_dramOwn (k i n c : Nat) : (jstate s k i n c).dramOwn = s.dramOwn := (congrArg State.dramOwn (jstate_eq s k i n c) :)
@[simp] theorem jstate_dramSystem (k i n c : Nat) : (jstate s k i n c).dramSystem = s.dramSystem := (congrArg State.dramSystem (jstate_eq s k i n c) :)
@[simp] theorem jstate_interleave (k i n c : Nat) : (jstate s k i n c).interleave = s.interleave := (congrArg State.interleave (jstate_eq s k i n c) :)
@[simp] theorem jstate_ctxBase (k i n c : Nat) : (jstate s k i n c).ctxBase = s.ctxBase := (congrArg State.ctxBase (jstate_eq s k i n c) :)
@[simp] theorem jstate_ageLimit (k i n c : Nat) : (jstate s k i n c).ageLimit = s.ageLimit := (congrArg State.ageLimit (jstate_eq s k i n c) :)
@[simp] theorem jstate_minMargin (k i n c : Nat) : (jstate s k i n c).minMargin = s.minMargin := (congrArg State.minMargin (jstate_eq s k i n c) :)
@[simp] theorem jstate_trackH (k i n c : Nat) : (jstate s k i n c).trackH = s.trackH := (congrArg State.trackH (jstate_eq s k i n c) :)
@[simp] theorem jstate_ceLimit (k i n c : Nat) : (jstate s k i n c).ceLimit = s.ceLimit := (congrArg State.ceLimit (jstate_eq s k i n c) :)
@[simp] theorem jstate_scrubOn (k i n c : Nat) : (jstate s k i n c).scrubOn = s.scrubOn := (congrArg State.scrubOn (jstate_eq s k i n c) :)
@[simp] theorem jstate_scrubPeriod (k i n c : Nat) : (jstate s k i n c).scrubPeriod = s.scrubPeriod := (congrArg State.scrubPeriod (jstate_eq s k i n c) :)
@[simp] theorem jstate_auxs (k i n c : Nat) : (jstate s k i n c).auxs = s.auxs := (congrArg State.auxs (jstate_eq s k i n c) :)
@[simp] theorem jstate_auxClrN (k i n c : Nat) : (jstate s k i n c).auxClrN = s.auxClrN := (congrArg State.auxClrN (jstate_eq s k i n c) :)
@[simp] theorem jstate_rpl (k i n c : Nat) : (jstate s k i n c).rpl = s.rpl := (congrArg State.rpl (jstate_eq s k i n c) :)
@[simp] theorem jstate_bus (k i n c : Nat) : (jstate s k i n c).bus = s.bus := (congrArg State.bus (jstate_eq s k i n c) :)
@[simp] theorem jstate_bulk (k i n c : Nat) : (jstate s k i n c).bulk = s.bulk := (congrArg State.bulk (jstate_eq s k i n c) :)
@[simp] theorem jstate_free (k i n c : Nat) : (jstate s k i n c).free = s.free := (congrArg State.free (jstate_eq s k i n c) :)
@[simp] theorem jstate_pending (k i n c : Nat) : (jstate s k i n c).pending = s.pending := (congrArg State.pending (jstate_eq s k i n c) :)

/-- `putLink` changes nothing but the fields named here. -/
theorem putLink_eq (i : Nat) (x : Link) :
    putLink s i x = { s with links := (putLink s i x).links, jnl := (putLink s i x).jnl } := by
  unfold putLink; dsimp only; (repeat' split) <;> first | rfl | rw [jstate_eq]

@[simp] theorem putLink_dev (i : Nat) (x : Link) : (putLink s i x).dev = s.dev := (congrArg State.dev (putLink_eq s i x) :)
@[simp] theorem putLink_md (i : Nat) (x : Link) : (putLink s i x).md = s.md := (congrArg State.md (putLink_eq s i x) :)
@[simp] theorem putLink_time (i : Nat) (x : Link) : (putLink s i x).time = s.time := (congrArg State.time (putLink_eq s i x) :)
@[simp] theorem putLink_pace (i : Nat) (x : Link) : (putLink s i x).pace = s.pace := (congrArg State.pace (putLink_eq s i x) :)
@[simp] theorem putLink_kpr (i : Nat) (x : Link) : (putLink s i x).kpr = s.kpr := (congrArg State.kpr (putLink_eq s i x) :)
@[simp] theorem putLink_svc (i : Nat) (x : Link) : (putLink s i x).svc = s.svc := (congrArg State.svc (putLink_eq s i x) :)
@[simp] theorem putLink_sec (i : Nat) (x : Link) : (putLink s i x).sec = s.sec := (congrArg State.sec (putLink_eq s i x) :)
@[simp] theorem putLink_grave (i : Nat) (x : Link) : (putLink s i x).grave = s.grave := (congrArg State.grave (putLink_eq s i x) :)
@[simp] theorem putLink_faults (i : Nat) (x : Link) : (putLink s i x).faults = s.faults := (congrArg State.faults (putLink_eq s i x) :)
@[simp] theorem putLink_mailboxes (i : Nat) (x : Link) : (putLink s i x).mailboxes = s.mailboxes := (congrArg State.mailboxes (putLink_eq s i x) :)
@[simp] theorem putLink_contexts (i : Nat) (x : Link) : (putLink s i x).contexts = s.contexts := (congrArg State.contexts (putLink_eq s i x) :)
@[simp] theorem putLink_msix (i : Nat) (x : Link) : (putLink s i x).msix = s.msix := (congrArg State.msix (putLink_eq s i x) :)
@[simp] theorem putLink_msixOpen (i : Nat) (x : Link) : (putLink s i x).msixOpen = s.msixOpen := (congrArg State.msixOpen (putLink_eq s i x) :)
@[simp] theorem putLink_msixPba (i : Nat) (x : Link) : (putLink s i x).msixPba = s.msixPba := (congrArg State.msixPba (putLink_eq s i x) :)
@[simp] theorem putLink_msixTable (i : Nat) (x : Link) : (putLink s i x).msixTable = s.msixTable := (congrArg State.msixTable (putLink_eq s i x) :)
@[simp] theorem putLink_held (i : Nat) (x : Link) : (putLink s i x).held = s.held := (congrArg State.held (putLink_eq s i x) :)
@[simp] theorem putLink_works (i : Nat) (x : Link) : (putLink s i x).works = s.works := (congrArg State.works (putLink_eq s i x) :)
@[simp] theorem putLink_cells (i : Nat) (x : Link) : (putLink s i x).cells = s.cells := (congrArg State.cells (putLink_eq s i x) :)
@[simp] theorem putLink_cellOwn (i : Nat) (x : Link) : (putLink s i x).cellOwn = s.cellOwn := (congrArg State.cellOwn (putLink_eq s i x) :)
@[simp] theorem putLink_hives (i : Nat) (x : Link) : (putLink s i x).hives = s.hives := (congrArg State.hives (putLink_eq s i x) :)
@[simp] theorem putLink_comb (i : Nat) (x : Link) : (putLink s i x).comb = s.comb := (congrArg State.comb (putLink_eq s i x) :)
@[simp] theorem putLink_scratch (i : Nat) (x : Link) : (putLink s i x).scratch = s.scratch := (congrArg State.scratch (putLink_eq s i x) :)
@[simp] theorem putLink_inner (i : Nat) (x : Link) : (putLink s i x).inner = s.inner := (congrArg State.inner (putLink_eq s i x) :)
@[simp] theorem putLink_combUe (i : Nat) (x : Link) : (putLink s i x).combUe = s.combUe := (congrArg State.combUe (putLink_eq s i x) :)
@[simp] theorem putLink_combCe (i : Nat) (x : Link) : (putLink s i x).combCe = s.combCe := (congrArg State.combCe (putLink_eq s i x) :)
@[simp] theorem putLink_active (i : Nat) (x : Link) : (putLink s i x).active = s.active := (congrArg State.active (putLink_eq s i x) :)
@[simp] theorem putLink_combOwn (i : Nat) (x : Link) : (putLink s i x).combOwn = s.combOwn := (congrArg State.combOwn (putLink_eq s i x) :)
@[simp] theorem putLink_queues (i : Nat) (x : Link) : (putLink s i x).queues = s.queues := (congrArg State.queues (putLink_eq s i x) :)
@[simp] theorem putLink_doorbells (i : Nat) (x : Link) : (putLink s i x).doorbells = s.doorbells := (congrArg State.doorbells (putLink_eq s i x) :)
@[simp] theorem putLink_caps (i : Nat) (x : Link) : (putLink s i x).caps = s.caps := (congrArg State.caps (putLink_eq s i x) :)
@[simp] theorem putLink_chans (i : Nat) (x : Link) : (putLink s i x).chans = s.chans := (congrArg State.chans (putLink_eq s i x) :)
@[simp] theorem putLink_tasks (i : Nat) (x : Link) : (putLink s i x).tasks = s.tasks := (congrArg State.tasks (putLink_eq s i x) :)
@[simp] theorem putLink_counters (i : Nat) (x : Link) : (putLink s i x).counters = s.counters := (congrArg State.counters (putLink_eq s i x) :)
@[simp] theorem putLink_timers (i : Nat) (x : Link) : (putLink s i x).timers = s.timers := (congrArg State.timers (putLink_eq s i x) :)
@[simp] theorem putLink_pins (i : Nat) (x : Link) : (putLink s i x).pins = s.pins := (congrArg State.pins (putLink_eq s i x) :)
@[simp] theorem putLink_hops (i : Nat) (x : Link) : (putLink s i x).hops = s.hops := (congrArg State.hops (putLink_eq s i x) :)
@[simp] theorem putLink_wagEpoch (i : Nat) (x : Link) : (putLink s i x).wagEpoch = s.wagEpoch := (congrArg State.wagEpoch (putLink_eq s i x) :)
@[simp] theorem putLink_domains (i : Nat) (x : Link) : (putLink s i x).domains = s.domains := (congrArg State.domains (putLink_eq s i x) :)
@[simp] theorem putLink_col (i : Nat) (x : Link) : (putLink s i x).col = s.col := (congrArg State.col (putLink_eq s i x) :)
@[simp] theorem putLink_rxLanes (i : Nat) (x : Link) : (putLink s i x).rxLanes = s.rxLanes := (congrArg State.rxLanes (putLink_eq s i x) :)
@[simp] theorem putLink_dmcs (i : Nat) (x : Link) : (putLink s i x).dmcs = s.dmcs := (congrArg State.dmcs (putLink_eq s i x) :)
@[simp] theorem putLink_dram (i : Nat) (x : Link) : (putLink s i x).dram = s.dram := (congrArg State.dram (putLink_eq s i x) :)
@[simp] theorem putLink_dramUe (i : Nat) (x : Link) : (putLink s i x).dramUe = s.dramUe := (congrArg State.dramUe (putLink_eq s i x) :)
@[simp] theorem putLink_dramCe (i : Nat) (x : Link) : (putLink s i x).dramCe = s.dramCe := (congrArg State.dramCe (putLink_eq s i x) :)
@[simp] theorem putLink_dramOwn (i : Nat) (x : Link) : (putLink s i x).dramOwn = s.dramOwn := (congrArg State.dramOwn (putLink_eq s i x) :)
@[simp] theorem putLink_dramSystem (i : Nat) (x : Link) : (putLink s i x).dramSystem = s.dramSystem := (congrArg State.dramSystem (putLink_eq s i x) :)
@[simp] theorem putLink_interleave (i : Nat) (x : Link) : (putLink s i x).interleave = s.interleave := (congrArg State.interleave (putLink_eq s i x) :)
@[simp] theorem putLink_ctxBase (i : Nat) (x : Link) : (putLink s i x).ctxBase = s.ctxBase := (congrArg State.ctxBase (putLink_eq s i x) :)
@[simp] theorem putLink_ageLimit (i : Nat) (x : Link) : (putLink s i x).ageLimit = s.ageLimit := (congrArg State.ageLimit (putLink_eq s i x) :)
@[simp] theorem putLink_minMargin (i : Nat) (x : Link) : (putLink s i x).minMargin = s.minMargin := (congrArg State.minMargin (putLink_eq s i x) :)
@[simp] theorem putLink_trackH (i : Nat) (x : Link) : (putLink s i x).trackH = s.trackH := (congrArg State.trackH (putLink_eq s i x) :)
@[simp] theorem putLink_ceLimit (i : Nat) (x : Link) : (putLink s i x).ceLimit = s.ceLimit := (congrArg State.ceLimit (putLink_eq s i x) :)
@[simp] theorem putLink_scrubOn (i : Nat) (x : Link) : (putLink s i x).scrubOn = s.scrubOn := (congrArg State.scrubOn (putLink_eq s i x) :)
@[simp] theorem putLink_scrubPeriod (i : Nat) (x : Link) : (putLink s i x).scrubPeriod = s.scrubPeriod := (congrArg State.scrubPeriod (putLink_eq s i x) :)
@[simp] theorem putLink_auxs (i : Nat) (x : Link) : (putLink s i x).auxs = s.auxs := (congrArg State.auxs (putLink_eq s i x) :)
@[simp] theorem putLink_auxClrN (i : Nat) (x : Link) : (putLink s i x).auxClrN = s.auxClrN := (congrArg State.auxClrN (putLink_eq s i x) :)
@[simp] theorem putLink_rpl (i : Nat) (x : Link) : (putLink s i x).rpl = s.rpl := (congrArg State.rpl (putLink_eq s i x) :)
@[simp] theorem putLink_bus (i : Nat) (x : Link) : (putLink s i x).bus = s.bus := (congrArg State.bus (putLink_eq s i x) :)
@[simp] theorem putLink_bulk (i : Nat) (x : Link) : (putLink s i x).bulk = s.bulk := (congrArg State.bulk (putLink_eq s i x) :)
@[simp] theorem putLink_free (i : Nat) (x : Link) : (putLink s i x).free = s.free := (congrArg State.free (putLink_eq s i x) :)
@[simp] theorem putLink_pending (i : Nat) (x : Link) : (putLink s i x).pending = s.pending := (congrArg State.pending (putLink_eq s i x) :)

/-- `modLink` changes nothing but the fields named here. -/
theorem modLink_eq (i : Nat) (f : Link → Link) :
    modLink s i f = { s with links := (modLink s i f).links, jnl := (modLink s i f).jnl } := putLink_eq ..

@[simp] theorem modLink_dev (i : Nat) (f : Link → Link) : (modLink s i f).dev = s.dev := (congrArg State.dev (modLink_eq s i f) :)
@[simp] theorem modLink_md (i : Nat) (f : Link → Link) : (modLink s i f).md = s.md := (congrArg State.md (modLink_eq s i f) :)
@[simp] theorem modLink_time (i : Nat) (f : Link → Link) : (modLink s i f).time = s.time := (congrArg State.time (modLink_eq s i f) :)
@[simp] theorem modLink_pace (i : Nat) (f : Link → Link) : (modLink s i f).pace = s.pace := (congrArg State.pace (modLink_eq s i f) :)
@[simp] theorem modLink_kpr (i : Nat) (f : Link → Link) : (modLink s i f).kpr = s.kpr := (congrArg State.kpr (modLink_eq s i f) :)
@[simp] theorem modLink_svc (i : Nat) (f : Link → Link) : (modLink s i f).svc = s.svc := (congrArg State.svc (modLink_eq s i f) :)
@[simp] theorem modLink_sec (i : Nat) (f : Link → Link) : (modLink s i f).sec = s.sec := (congrArg State.sec (modLink_eq s i f) :)
@[simp] theorem modLink_grave (i : Nat) (f : Link → Link) : (modLink s i f).grave = s.grave := (congrArg State.grave (modLink_eq s i f) :)
@[simp] theorem modLink_faults (i : Nat) (f : Link → Link) : (modLink s i f).faults = s.faults := (congrArg State.faults (modLink_eq s i f) :)
@[simp] theorem modLink_mailboxes (i : Nat) (f : Link → Link) : (modLink s i f).mailboxes = s.mailboxes := (congrArg State.mailboxes (modLink_eq s i f) :)
@[simp] theorem modLink_contexts (i : Nat) (f : Link → Link) : (modLink s i f).contexts = s.contexts := (congrArg State.contexts (modLink_eq s i f) :)
@[simp] theorem modLink_msix (i : Nat) (f : Link → Link) : (modLink s i f).msix = s.msix := (congrArg State.msix (modLink_eq s i f) :)
@[simp] theorem modLink_msixOpen (i : Nat) (f : Link → Link) : (modLink s i f).msixOpen = s.msixOpen := (congrArg State.msixOpen (modLink_eq s i f) :)
@[simp] theorem modLink_msixPba (i : Nat) (f : Link → Link) : (modLink s i f).msixPba = s.msixPba := (congrArg State.msixPba (modLink_eq s i f) :)
@[simp] theorem modLink_msixTable (i : Nat) (f : Link → Link) : (modLink s i f).msixTable = s.msixTable := (congrArg State.msixTable (modLink_eq s i f) :)
@[simp] theorem modLink_held (i : Nat) (f : Link → Link) : (modLink s i f).held = s.held := (congrArg State.held (modLink_eq s i f) :)
@[simp] theorem modLink_works (i : Nat) (f : Link → Link) : (modLink s i f).works = s.works := (congrArg State.works (modLink_eq s i f) :)
@[simp] theorem modLink_cells (i : Nat) (f : Link → Link) : (modLink s i f).cells = s.cells := (congrArg State.cells (modLink_eq s i f) :)
@[simp] theorem modLink_cellOwn (i : Nat) (f : Link → Link) : (modLink s i f).cellOwn = s.cellOwn := (congrArg State.cellOwn (modLink_eq s i f) :)
@[simp] theorem modLink_hives (i : Nat) (f : Link → Link) : (modLink s i f).hives = s.hives := (congrArg State.hives (modLink_eq s i f) :)
@[simp] theorem modLink_comb (i : Nat) (f : Link → Link) : (modLink s i f).comb = s.comb := (congrArg State.comb (modLink_eq s i f) :)
@[simp] theorem modLink_scratch (i : Nat) (f : Link → Link) : (modLink s i f).scratch = s.scratch := (congrArg State.scratch (modLink_eq s i f) :)
@[simp] theorem modLink_inner (i : Nat) (f : Link → Link) : (modLink s i f).inner = s.inner := (congrArg State.inner (modLink_eq s i f) :)
@[simp] theorem modLink_combUe (i : Nat) (f : Link → Link) : (modLink s i f).combUe = s.combUe := (congrArg State.combUe (modLink_eq s i f) :)
@[simp] theorem modLink_combCe (i : Nat) (f : Link → Link) : (modLink s i f).combCe = s.combCe := (congrArg State.combCe (modLink_eq s i f) :)
@[simp] theorem modLink_active (i : Nat) (f : Link → Link) : (modLink s i f).active = s.active := (congrArg State.active (modLink_eq s i f) :)
@[simp] theorem modLink_combOwn (i : Nat) (f : Link → Link) : (modLink s i f).combOwn = s.combOwn := (congrArg State.combOwn (modLink_eq s i f) :)
@[simp] theorem modLink_queues (i : Nat) (f : Link → Link) : (modLink s i f).queues = s.queues := (congrArg State.queues (modLink_eq s i f) :)
@[simp] theorem modLink_doorbells (i : Nat) (f : Link → Link) : (modLink s i f).doorbells = s.doorbells := (congrArg State.doorbells (modLink_eq s i f) :)
@[simp] theorem modLink_caps (i : Nat) (f : Link → Link) : (modLink s i f).caps = s.caps := (congrArg State.caps (modLink_eq s i f) :)
@[simp] theorem modLink_chans (i : Nat) (f : Link → Link) : (modLink s i f).chans = s.chans := (congrArg State.chans (modLink_eq s i f) :)
@[simp] theorem modLink_tasks (i : Nat) (f : Link → Link) : (modLink s i f).tasks = s.tasks := (congrArg State.tasks (modLink_eq s i f) :)
@[simp] theorem modLink_counters (i : Nat) (f : Link → Link) : (modLink s i f).counters = s.counters := (congrArg State.counters (modLink_eq s i f) :)
@[simp] theorem modLink_timers (i : Nat) (f : Link → Link) : (modLink s i f).timers = s.timers := (congrArg State.timers (modLink_eq s i f) :)
@[simp] theorem modLink_pins (i : Nat) (f : Link → Link) : (modLink s i f).pins = s.pins := (congrArg State.pins (modLink_eq s i f) :)
@[simp] theorem modLink_hops (i : Nat) (f : Link → Link) : (modLink s i f).hops = s.hops := (congrArg State.hops (modLink_eq s i f) :)
@[simp] theorem modLink_wagEpoch (i : Nat) (f : Link → Link) : (modLink s i f).wagEpoch = s.wagEpoch := (congrArg State.wagEpoch (modLink_eq s i f) :)
@[simp] theorem modLink_domains (i : Nat) (f : Link → Link) : (modLink s i f).domains = s.domains := (congrArg State.domains (modLink_eq s i f) :)
@[simp] theorem modLink_col (i : Nat) (f : Link → Link) : (modLink s i f).col = s.col := (congrArg State.col (modLink_eq s i f) :)
@[simp] theorem modLink_rxLanes (i : Nat) (f : Link → Link) : (modLink s i f).rxLanes = s.rxLanes := (congrArg State.rxLanes (modLink_eq s i f) :)
@[simp] theorem modLink_dmcs (i : Nat) (f : Link → Link) : (modLink s i f).dmcs = s.dmcs := (congrArg State.dmcs (modLink_eq s i f) :)
@[simp] theorem modLink_dram (i : Nat) (f : Link → Link) : (modLink s i f).dram = s.dram := (congrArg State.dram (modLink_eq s i f) :)
@[simp] theorem modLink_dramUe (i : Nat) (f : Link → Link) : (modLink s i f).dramUe = s.dramUe := (congrArg State.dramUe (modLink_eq s i f) :)
@[simp] theorem modLink_dramCe (i : Nat) (f : Link → Link) : (modLink s i f).dramCe = s.dramCe := (congrArg State.dramCe (modLink_eq s i f) :)
@[simp] theorem modLink_dramOwn (i : Nat) (f : Link → Link) : (modLink s i f).dramOwn = s.dramOwn := (congrArg State.dramOwn (modLink_eq s i f) :)
@[simp] theorem modLink_dramSystem (i : Nat) (f : Link → Link) : (modLink s i f).dramSystem = s.dramSystem := (congrArg State.dramSystem (modLink_eq s i f) :)
@[simp] theorem modLink_interleave (i : Nat) (f : Link → Link) : (modLink s i f).interleave = s.interleave := (congrArg State.interleave (modLink_eq s i f) :)
@[simp] theorem modLink_ctxBase (i : Nat) (f : Link → Link) : (modLink s i f).ctxBase = s.ctxBase := (congrArg State.ctxBase (modLink_eq s i f) :)
@[simp] theorem modLink_ageLimit (i : Nat) (f : Link → Link) : (modLink s i f).ageLimit = s.ageLimit := (congrArg State.ageLimit (modLink_eq s i f) :)
@[simp] theorem modLink_minMargin (i : Nat) (f : Link → Link) : (modLink s i f).minMargin = s.minMargin := (congrArg State.minMargin (modLink_eq s i f) :)
@[simp] theorem modLink_trackH (i : Nat) (f : Link → Link) : (modLink s i f).trackH = s.trackH := (congrArg State.trackH (modLink_eq s i f) :)
@[simp] theorem modLink_ceLimit (i : Nat) (f : Link → Link) : (modLink s i f).ceLimit = s.ceLimit := (congrArg State.ceLimit (modLink_eq s i f) :)
@[simp] theorem modLink_scrubOn (i : Nat) (f : Link → Link) : (modLink s i f).scrubOn = s.scrubOn := (congrArg State.scrubOn (modLink_eq s i f) :)
@[simp] theorem modLink_scrubPeriod (i : Nat) (f : Link → Link) : (modLink s i f).scrubPeriod = s.scrubPeriod := (congrArg State.scrubPeriod (modLink_eq s i f) :)
@[simp] theorem modLink_auxs (i : Nat) (f : Link → Link) : (modLink s i f).auxs = s.auxs := (congrArg State.auxs (modLink_eq s i f) :)
@[simp] theorem modLink_auxClrN (i : Nat) (f : Link → Link) : (modLink s i f).auxClrN = s.auxClrN := (congrArg State.auxClrN (modLink_eq s i f) :)
@[simp] theorem modLink_rpl (i : Nat) (f : Link → Link) : (modLink s i f).rpl = s.rpl := (congrArg State.rpl (modLink_eq s i f) :)
@[simp] theorem modLink_bus (i : Nat) (f : Link → Link) : (modLink s i f).bus = s.bus := (congrArg State.bus (modLink_eq s i f) :)
@[simp] theorem modLink_bulk (i : Nat) (f : Link → Link) : (modLink s i f).bulk = s.bulk := (congrArg State.bulk (modLink_eq s i f) :)
@[simp] theorem modLink_free (i : Nat) (f : Link → Link) : (modLink s i f).free = s.free := (congrArg State.free (modLink_eq s i f) :)
@[simp] theorem modLink_pending (i : Nat) (f : Link → Link) : (modLink s i f).pending = s.pending := (congrArg State.pending (modLink_eq s i f) :)

/-- `putDmc` changes nothing but the fields named here. -/
theorem putDmc_eq (i : Nat) (x : Dmc) :
    putDmc s i x = { s with dmcs := (putDmc s i x).dmcs, jnl := (putDmc s i x).jnl } := by
  unfold putDmc; dsimp only; (repeat' split) <;> first | rfl | rw [jstate_eq]

@[simp] theorem putDmc_dev (i : Nat) (x : Dmc) : (putDmc s i x).dev = s.dev := (congrArg State.dev (putDmc_eq s i x) :)
@[simp] theorem putDmc_md (i : Nat) (x : Dmc) : (putDmc s i x).md = s.md := (congrArg State.md (putDmc_eq s i x) :)
@[simp] theorem putDmc_time (i : Nat) (x : Dmc) : (putDmc s i x).time = s.time := (congrArg State.time (putDmc_eq s i x) :)
@[simp] theorem putDmc_pace (i : Nat) (x : Dmc) : (putDmc s i x).pace = s.pace := (congrArg State.pace (putDmc_eq s i x) :)
@[simp] theorem putDmc_kpr (i : Nat) (x : Dmc) : (putDmc s i x).kpr = s.kpr := (congrArg State.kpr (putDmc_eq s i x) :)
@[simp] theorem putDmc_svc (i : Nat) (x : Dmc) : (putDmc s i x).svc = s.svc := (congrArg State.svc (putDmc_eq s i x) :)
@[simp] theorem putDmc_sec (i : Nat) (x : Dmc) : (putDmc s i x).sec = s.sec := (congrArg State.sec (putDmc_eq s i x) :)
@[simp] theorem putDmc_grave (i : Nat) (x : Dmc) : (putDmc s i x).grave = s.grave := (congrArg State.grave (putDmc_eq s i x) :)
@[simp] theorem putDmc_faults (i : Nat) (x : Dmc) : (putDmc s i x).faults = s.faults := (congrArg State.faults (putDmc_eq s i x) :)
@[simp] theorem putDmc_mailboxes (i : Nat) (x : Dmc) : (putDmc s i x).mailboxes = s.mailboxes := (congrArg State.mailboxes (putDmc_eq s i x) :)
@[simp] theorem putDmc_contexts (i : Nat) (x : Dmc) : (putDmc s i x).contexts = s.contexts := (congrArg State.contexts (putDmc_eq s i x) :)
@[simp] theorem putDmc_msix (i : Nat) (x : Dmc) : (putDmc s i x).msix = s.msix := (congrArg State.msix (putDmc_eq s i x) :)
@[simp] theorem putDmc_msixOpen (i : Nat) (x : Dmc) : (putDmc s i x).msixOpen = s.msixOpen := (congrArg State.msixOpen (putDmc_eq s i x) :)
@[simp] theorem putDmc_msixPba (i : Nat) (x : Dmc) : (putDmc s i x).msixPba = s.msixPba := (congrArg State.msixPba (putDmc_eq s i x) :)
@[simp] theorem putDmc_msixTable (i : Nat) (x : Dmc) : (putDmc s i x).msixTable = s.msixTable := (congrArg State.msixTable (putDmc_eq s i x) :)
@[simp] theorem putDmc_held (i : Nat) (x : Dmc) : (putDmc s i x).held = s.held := (congrArg State.held (putDmc_eq s i x) :)
@[simp] theorem putDmc_works (i : Nat) (x : Dmc) : (putDmc s i x).works = s.works := (congrArg State.works (putDmc_eq s i x) :)
@[simp] theorem putDmc_cells (i : Nat) (x : Dmc) : (putDmc s i x).cells = s.cells := (congrArg State.cells (putDmc_eq s i x) :)
@[simp] theorem putDmc_cellOwn (i : Nat) (x : Dmc) : (putDmc s i x).cellOwn = s.cellOwn := (congrArg State.cellOwn (putDmc_eq s i x) :)
@[simp] theorem putDmc_hives (i : Nat) (x : Dmc) : (putDmc s i x).hives = s.hives := (congrArg State.hives (putDmc_eq s i x) :)
@[simp] theorem putDmc_comb (i : Nat) (x : Dmc) : (putDmc s i x).comb = s.comb := (congrArg State.comb (putDmc_eq s i x) :)
@[simp] theorem putDmc_scratch (i : Nat) (x : Dmc) : (putDmc s i x).scratch = s.scratch := (congrArg State.scratch (putDmc_eq s i x) :)
@[simp] theorem putDmc_inner (i : Nat) (x : Dmc) : (putDmc s i x).inner = s.inner := (congrArg State.inner (putDmc_eq s i x) :)
@[simp] theorem putDmc_combUe (i : Nat) (x : Dmc) : (putDmc s i x).combUe = s.combUe := (congrArg State.combUe (putDmc_eq s i x) :)
@[simp] theorem putDmc_combCe (i : Nat) (x : Dmc) : (putDmc s i x).combCe = s.combCe := (congrArg State.combCe (putDmc_eq s i x) :)
@[simp] theorem putDmc_active (i : Nat) (x : Dmc) : (putDmc s i x).active = s.active := (congrArg State.active (putDmc_eq s i x) :)
@[simp] theorem putDmc_combOwn (i : Nat) (x : Dmc) : (putDmc s i x).combOwn = s.combOwn := (congrArg State.combOwn (putDmc_eq s i x) :)
@[simp] theorem putDmc_queues (i : Nat) (x : Dmc) : (putDmc s i x).queues = s.queues := (congrArg State.queues (putDmc_eq s i x) :)
@[simp] theorem putDmc_doorbells (i : Nat) (x : Dmc) : (putDmc s i x).doorbells = s.doorbells := (congrArg State.doorbells (putDmc_eq s i x) :)
@[simp] theorem putDmc_caps (i : Nat) (x : Dmc) : (putDmc s i x).caps = s.caps := (congrArg State.caps (putDmc_eq s i x) :)
@[simp] theorem putDmc_chans (i : Nat) (x : Dmc) : (putDmc s i x).chans = s.chans := (congrArg State.chans (putDmc_eq s i x) :)
@[simp] theorem putDmc_tasks (i : Nat) (x : Dmc) : (putDmc s i x).tasks = s.tasks := (congrArg State.tasks (putDmc_eq s i x) :)
@[simp] theorem putDmc_counters (i : Nat) (x : Dmc) : (putDmc s i x).counters = s.counters := (congrArg State.counters (putDmc_eq s i x) :)
@[simp] theorem putDmc_timers (i : Nat) (x : Dmc) : (putDmc s i x).timers = s.timers := (congrArg State.timers (putDmc_eq s i x) :)
@[simp] theorem putDmc_pins (i : Nat) (x : Dmc) : (putDmc s i x).pins = s.pins := (congrArg State.pins (putDmc_eq s i x) :)
@[simp] theorem putDmc_hops (i : Nat) (x : Dmc) : (putDmc s i x).hops = s.hops := (congrArg State.hops (putDmc_eq s i x) :)
@[simp] theorem putDmc_wagEpoch (i : Nat) (x : Dmc) : (putDmc s i x).wagEpoch = s.wagEpoch := (congrArg State.wagEpoch (putDmc_eq s i x) :)
@[simp] theorem putDmc_domains (i : Nat) (x : Dmc) : (putDmc s i x).domains = s.domains := (congrArg State.domains (putDmc_eq s i x) :)
@[simp] theorem putDmc_col (i : Nat) (x : Dmc) : (putDmc s i x).col = s.col := (congrArg State.col (putDmc_eq s i x) :)
@[simp] theorem putDmc_links (i : Nat) (x : Dmc) : (putDmc s i x).links = s.links := (congrArg State.links (putDmc_eq s i x) :)
@[simp] theorem putDmc_rxLanes (i : Nat) (x : Dmc) : (putDmc s i x).rxLanes = s.rxLanes := (congrArg State.rxLanes (putDmc_eq s i x) :)
@[simp] theorem putDmc_dram (i : Nat) (x : Dmc) : (putDmc s i x).dram = s.dram := (congrArg State.dram (putDmc_eq s i x) :)
@[simp] theorem putDmc_dramUe (i : Nat) (x : Dmc) : (putDmc s i x).dramUe = s.dramUe := (congrArg State.dramUe (putDmc_eq s i x) :)
@[simp] theorem putDmc_dramCe (i : Nat) (x : Dmc) : (putDmc s i x).dramCe = s.dramCe := (congrArg State.dramCe (putDmc_eq s i x) :)
@[simp] theorem putDmc_dramOwn (i : Nat) (x : Dmc) : (putDmc s i x).dramOwn = s.dramOwn := (congrArg State.dramOwn (putDmc_eq s i x) :)
@[simp] theorem putDmc_dramSystem (i : Nat) (x : Dmc) : (putDmc s i x).dramSystem = s.dramSystem := (congrArg State.dramSystem (putDmc_eq s i x) :)
@[simp] theorem putDmc_interleave (i : Nat) (x : Dmc) : (putDmc s i x).interleave = s.interleave := (congrArg State.interleave (putDmc_eq s i x) :)
@[simp] theorem putDmc_ctxBase (i : Nat) (x : Dmc) : (putDmc s i x).ctxBase = s.ctxBase := (congrArg State.ctxBase (putDmc_eq s i x) :)
@[simp] theorem putDmc_ageLimit (i : Nat) (x : Dmc) : (putDmc s i x).ageLimit = s.ageLimit := (congrArg State.ageLimit (putDmc_eq s i x) :)
@[simp] theorem putDmc_minMargin (i : Nat) (x : Dmc) : (putDmc s i x).minMargin = s.minMargin := (congrArg State.minMargin (putDmc_eq s i x) :)
@[simp] theorem putDmc_trackH (i : Nat) (x : Dmc) : (putDmc s i x).trackH = s.trackH := (congrArg State.trackH (putDmc_eq s i x) :)
@[simp] theorem putDmc_ceLimit (i : Nat) (x : Dmc) : (putDmc s i x).ceLimit = s.ceLimit := (congrArg State.ceLimit (putDmc_eq s i x) :)
@[simp] theorem putDmc_scrubOn (i : Nat) (x : Dmc) : (putDmc s i x).scrubOn = s.scrubOn := (congrArg State.scrubOn (putDmc_eq s i x) :)
@[simp] theorem putDmc_scrubPeriod (i : Nat) (x : Dmc) : (putDmc s i x).scrubPeriod = s.scrubPeriod := (congrArg State.scrubPeriod (putDmc_eq s i x) :)
@[simp] theorem putDmc_auxs (i : Nat) (x : Dmc) : (putDmc s i x).auxs = s.auxs := (congrArg State.auxs (putDmc_eq s i x) :)
@[simp] theorem putDmc_auxClrN (i : Nat) (x : Dmc) : (putDmc s i x).auxClrN = s.auxClrN := (congrArg State.auxClrN (putDmc_eq s i x) :)
@[simp] theorem putDmc_rpl (i : Nat) (x : Dmc) : (putDmc s i x).rpl = s.rpl := (congrArg State.rpl (putDmc_eq s i x) :)
@[simp] theorem putDmc_bus (i : Nat) (x : Dmc) : (putDmc s i x).bus = s.bus := (congrArg State.bus (putDmc_eq s i x) :)
@[simp] theorem putDmc_bulk (i : Nat) (x : Dmc) : (putDmc s i x).bulk = s.bulk := (congrArg State.bulk (putDmc_eq s i x) :)
@[simp] theorem putDmc_free (i : Nat) (x : Dmc) : (putDmc s i x).free = s.free := (congrArg State.free (putDmc_eq s i x) :)
@[simp] theorem putDmc_pending (i : Nat) (x : Dmc) : (putDmc s i x).pending = s.pending := (congrArg State.pending (putDmc_eq s i x) :)

/-- `modDmc` changes nothing but the fields named here. -/
theorem modDmc_eq (i : Nat) (f : Dmc → Dmc) :
    modDmc s i f = { s with dmcs := (modDmc s i f).dmcs, jnl := (modDmc s i f).jnl } := putDmc_eq ..

@[simp] theorem modDmc_dev (i : Nat) (f : Dmc → Dmc) : (modDmc s i f).dev = s.dev := (congrArg State.dev (modDmc_eq s i f) :)
@[simp] theorem modDmc_md (i : Nat) (f : Dmc → Dmc) : (modDmc s i f).md = s.md := (congrArg State.md (modDmc_eq s i f) :)
@[simp] theorem modDmc_time (i : Nat) (f : Dmc → Dmc) : (modDmc s i f).time = s.time := (congrArg State.time (modDmc_eq s i f) :)
@[simp] theorem modDmc_pace (i : Nat) (f : Dmc → Dmc) : (modDmc s i f).pace = s.pace := (congrArg State.pace (modDmc_eq s i f) :)
@[simp] theorem modDmc_kpr (i : Nat) (f : Dmc → Dmc) : (modDmc s i f).kpr = s.kpr := (congrArg State.kpr (modDmc_eq s i f) :)
@[simp] theorem modDmc_svc (i : Nat) (f : Dmc → Dmc) : (modDmc s i f).svc = s.svc := (congrArg State.svc (modDmc_eq s i f) :)
@[simp] theorem modDmc_sec (i : Nat) (f : Dmc → Dmc) : (modDmc s i f).sec = s.sec := (congrArg State.sec (modDmc_eq s i f) :)
@[simp] theorem modDmc_grave (i : Nat) (f : Dmc → Dmc) : (modDmc s i f).grave = s.grave := (congrArg State.grave (modDmc_eq s i f) :)
@[simp] theorem modDmc_faults (i : Nat) (f : Dmc → Dmc) : (modDmc s i f).faults = s.faults := (congrArg State.faults (modDmc_eq s i f) :)
@[simp] theorem modDmc_mailboxes (i : Nat) (f : Dmc → Dmc) : (modDmc s i f).mailboxes = s.mailboxes := (congrArg State.mailboxes (modDmc_eq s i f) :)
@[simp] theorem modDmc_contexts (i : Nat) (f : Dmc → Dmc) : (modDmc s i f).contexts = s.contexts := (congrArg State.contexts (modDmc_eq s i f) :)
@[simp] theorem modDmc_msix (i : Nat) (f : Dmc → Dmc) : (modDmc s i f).msix = s.msix := (congrArg State.msix (modDmc_eq s i f) :)
@[simp] theorem modDmc_msixOpen (i : Nat) (f : Dmc → Dmc) : (modDmc s i f).msixOpen = s.msixOpen := (congrArg State.msixOpen (modDmc_eq s i f) :)
@[simp] theorem modDmc_msixPba (i : Nat) (f : Dmc → Dmc) : (modDmc s i f).msixPba = s.msixPba := (congrArg State.msixPba (modDmc_eq s i f) :)
@[simp] theorem modDmc_msixTable (i : Nat) (f : Dmc → Dmc) : (modDmc s i f).msixTable = s.msixTable := (congrArg State.msixTable (modDmc_eq s i f) :)
@[simp] theorem modDmc_held (i : Nat) (f : Dmc → Dmc) : (modDmc s i f).held = s.held := (congrArg State.held (modDmc_eq s i f) :)
@[simp] theorem modDmc_works (i : Nat) (f : Dmc → Dmc) : (modDmc s i f).works = s.works := (congrArg State.works (modDmc_eq s i f) :)
@[simp] theorem modDmc_cells (i : Nat) (f : Dmc → Dmc) : (modDmc s i f).cells = s.cells := (congrArg State.cells (modDmc_eq s i f) :)
@[simp] theorem modDmc_cellOwn (i : Nat) (f : Dmc → Dmc) : (modDmc s i f).cellOwn = s.cellOwn := (congrArg State.cellOwn (modDmc_eq s i f) :)
@[simp] theorem modDmc_hives (i : Nat) (f : Dmc → Dmc) : (modDmc s i f).hives = s.hives := (congrArg State.hives (modDmc_eq s i f) :)
@[simp] theorem modDmc_comb (i : Nat) (f : Dmc → Dmc) : (modDmc s i f).comb = s.comb := (congrArg State.comb (modDmc_eq s i f) :)
@[simp] theorem modDmc_scratch (i : Nat) (f : Dmc → Dmc) : (modDmc s i f).scratch = s.scratch := (congrArg State.scratch (modDmc_eq s i f) :)
@[simp] theorem modDmc_inner (i : Nat) (f : Dmc → Dmc) : (modDmc s i f).inner = s.inner := (congrArg State.inner (modDmc_eq s i f) :)
@[simp] theorem modDmc_combUe (i : Nat) (f : Dmc → Dmc) : (modDmc s i f).combUe = s.combUe := (congrArg State.combUe (modDmc_eq s i f) :)
@[simp] theorem modDmc_combCe (i : Nat) (f : Dmc → Dmc) : (modDmc s i f).combCe = s.combCe := (congrArg State.combCe (modDmc_eq s i f) :)
@[simp] theorem modDmc_active (i : Nat) (f : Dmc → Dmc) : (modDmc s i f).active = s.active := (congrArg State.active (modDmc_eq s i f) :)
@[simp] theorem modDmc_combOwn (i : Nat) (f : Dmc → Dmc) : (modDmc s i f).combOwn = s.combOwn := (congrArg State.combOwn (modDmc_eq s i f) :)
@[simp] theorem modDmc_queues (i : Nat) (f : Dmc → Dmc) : (modDmc s i f).queues = s.queues := (congrArg State.queues (modDmc_eq s i f) :)
@[simp] theorem modDmc_doorbells (i : Nat) (f : Dmc → Dmc) : (modDmc s i f).doorbells = s.doorbells := (congrArg State.doorbells (modDmc_eq s i f) :)
@[simp] theorem modDmc_caps (i : Nat) (f : Dmc → Dmc) : (modDmc s i f).caps = s.caps := (congrArg State.caps (modDmc_eq s i f) :)
@[simp] theorem modDmc_chans (i : Nat) (f : Dmc → Dmc) : (modDmc s i f).chans = s.chans := (congrArg State.chans (modDmc_eq s i f) :)
@[simp] theorem modDmc_tasks (i : Nat) (f : Dmc → Dmc) : (modDmc s i f).tasks = s.tasks := (congrArg State.tasks (modDmc_eq s i f) :)
@[simp] theorem modDmc_counters (i : Nat) (f : Dmc → Dmc) : (modDmc s i f).counters = s.counters := (congrArg State.counters (modDmc_eq s i f) :)
@[simp] theorem modDmc_timers (i : Nat) (f : Dmc → Dmc) : (modDmc s i f).timers = s.timers := (congrArg State.timers (modDmc_eq s i f) :)
@[simp] theorem modDmc_pins (i : Nat) (f : Dmc → Dmc) : (modDmc s i f).pins = s.pins := (congrArg State.pins (modDmc_eq s i f) :)
@[simp] theorem modDmc_hops (i : Nat) (f : Dmc → Dmc) : (modDmc s i f).hops = s.hops := (congrArg State.hops (modDmc_eq s i f) :)
@[simp] theorem modDmc_wagEpoch (i : Nat) (f : Dmc → Dmc) : (modDmc s i f).wagEpoch = s.wagEpoch := (congrArg State.wagEpoch (modDmc_eq s i f) :)
@[simp] theorem modDmc_domains (i : Nat) (f : Dmc → Dmc) : (modDmc s i f).domains = s.domains := (congrArg State.domains (modDmc_eq s i f) :)
@[simp] theorem modDmc_col (i : Nat) (f : Dmc → Dmc) : (modDmc s i f).col = s.col := (congrArg State.col (modDmc_eq s i f) :)
@[simp] theorem modDmc_links (i : Nat) (f : Dmc → Dmc) : (modDmc s i f).links = s.links := (congrArg State.links (modDmc_eq s i f) :)
@[simp] theorem modDmc_rxLanes (i : Nat) (f : Dmc → Dmc) : (modDmc s i f).rxLanes = s.rxLanes := (congrArg State.rxLanes (modDmc_eq s i f) :)
@[simp] theorem modDmc_dram (i : Nat) (f : Dmc → Dmc) : (modDmc s i f).dram = s.dram := (congrArg State.dram (modDmc_eq s i f) :)
@[simp] theorem modDmc_dramUe (i : Nat) (f : Dmc → Dmc) : (modDmc s i f).dramUe = s.dramUe := (congrArg State.dramUe (modDmc_eq s i f) :)
@[simp] theorem modDmc_dramCe (i : Nat) (f : Dmc → Dmc) : (modDmc s i f).dramCe = s.dramCe := (congrArg State.dramCe (modDmc_eq s i f) :)
@[simp] theorem modDmc_dramOwn (i : Nat) (f : Dmc → Dmc) : (modDmc s i f).dramOwn = s.dramOwn := (congrArg State.dramOwn (modDmc_eq s i f) :)
@[simp] theorem modDmc_dramSystem (i : Nat) (f : Dmc → Dmc) : (modDmc s i f).dramSystem = s.dramSystem := (congrArg State.dramSystem (modDmc_eq s i f) :)
@[simp] theorem modDmc_interleave (i : Nat) (f : Dmc → Dmc) : (modDmc s i f).interleave = s.interleave := (congrArg State.interleave (modDmc_eq s i f) :)
@[simp] theorem modDmc_ctxBase (i : Nat) (f : Dmc → Dmc) : (modDmc s i f).ctxBase = s.ctxBase := (congrArg State.ctxBase (modDmc_eq s i f) :)
@[simp] theorem modDmc_ageLimit (i : Nat) (f : Dmc → Dmc) : (modDmc s i f).ageLimit = s.ageLimit := (congrArg State.ageLimit (modDmc_eq s i f) :)
@[simp] theorem modDmc_minMargin (i : Nat) (f : Dmc → Dmc) : (modDmc s i f).minMargin = s.minMargin := (congrArg State.minMargin (modDmc_eq s i f) :)
@[simp] theorem modDmc_trackH (i : Nat) (f : Dmc → Dmc) : (modDmc s i f).trackH = s.trackH := (congrArg State.trackH (modDmc_eq s i f) :)
@[simp] theorem modDmc_ceLimit (i : Nat) (f : Dmc → Dmc) : (modDmc s i f).ceLimit = s.ceLimit := (congrArg State.ceLimit (modDmc_eq s i f) :)
@[simp] theorem modDmc_scrubOn (i : Nat) (f : Dmc → Dmc) : (modDmc s i f).scrubOn = s.scrubOn := (congrArg State.scrubOn (modDmc_eq s i f) :)
@[simp] theorem modDmc_scrubPeriod (i : Nat) (f : Dmc → Dmc) : (modDmc s i f).scrubPeriod = s.scrubPeriod := (congrArg State.scrubPeriod (modDmc_eq s i f) :)
@[simp] theorem modDmc_auxs (i : Nat) (f : Dmc → Dmc) : (modDmc s i f).auxs = s.auxs := (congrArg State.auxs (modDmc_eq s i f) :)
@[simp] theorem modDmc_auxClrN (i : Nat) (f : Dmc → Dmc) : (modDmc s i f).auxClrN = s.auxClrN := (congrArg State.auxClrN (modDmc_eq s i f) :)
@[simp] theorem modDmc_rpl (i : Nat) (f : Dmc → Dmc) : (modDmc s i f).rpl = s.rpl := (congrArg State.rpl (modDmc_eq s i f) :)
@[simp] theorem modDmc_bus (i : Nat) (f : Dmc → Dmc) : (modDmc s i f).bus = s.bus := (congrArg State.bus (modDmc_eq s i f) :)
@[simp] theorem modDmc_bulk (i : Nat) (f : Dmc → Dmc) : (modDmc s i f).bulk = s.bulk := (congrArg State.bulk (modDmc_eq s i f) :)
@[simp] theorem modDmc_free (i : Nat) (f : Dmc → Dmc) : (modDmc s i f).free = s.free := (congrArg State.free (modDmc_eq s i f) :)
@[simp] theorem modDmc_pending (i : Nat) (f : Dmc → Dmc) : (modDmc s i f).pending = s.pending := (congrArg State.pending (modDmc_eq s i f) :)

/-- `raise` changes nothing but the fields named here. -/
theorem raise_eq (o : Occ) :
    raise s o = { s with faults := (raise s o).faults, contexts := (raise s o).contexts, msix := (raise s o).msix, msixPba := (raise s o).msixPba } := by
  unfold raise; dsimp only; split
  · rfl
  · split
    · rw [irq_eq, irq_eq]; rfl
    · rw [irq_eq]; rfl

@[simp] theorem raise_dev (o : Occ) : (raise s o).dev = s.dev := (congrArg State.dev (raise_eq s o) :)
@[simp] theorem raise_md (o : Occ) : (raise s o).md = s.md := (congrArg State.md (raise_eq s o) :)
@[simp] theorem raise_time (o : Occ) : (raise s o).time = s.time := (congrArg State.time (raise_eq s o) :)
@[simp] theorem raise_pace (o : Occ) : (raise s o).pace = s.pace := (congrArg State.pace (raise_eq s o) :)
@[simp] theorem raise_kpr (o : Occ) : (raise s o).kpr = s.kpr := (congrArg State.kpr (raise_eq s o) :)
@[simp] theorem raise_svc (o : Occ) : (raise s o).svc = s.svc := (congrArg State.svc (raise_eq s o) :)
@[simp] theorem raise_sec (o : Occ) : (raise s o).sec = s.sec := (congrArg State.sec (raise_eq s o) :)
@[simp] theorem raise_grave (o : Occ) : (raise s o).grave = s.grave := (congrArg State.grave (raise_eq s o) :)
@[simp] theorem raise_mailboxes (o : Occ) : (raise s o).mailboxes = s.mailboxes := (congrArg State.mailboxes (raise_eq s o) :)
@[simp] theorem raise_msixOpen (o : Occ) : (raise s o).msixOpen = s.msixOpen := (congrArg State.msixOpen (raise_eq s o) :)
@[simp] theorem raise_msixTable (o : Occ) : (raise s o).msixTable = s.msixTable := (congrArg State.msixTable (raise_eq s o) :)
@[simp] theorem raise_held (o : Occ) : (raise s o).held = s.held := (congrArg State.held (raise_eq s o) :)
@[simp] theorem raise_works (o : Occ) : (raise s o).works = s.works := (congrArg State.works (raise_eq s o) :)
@[simp] theorem raise_cells (o : Occ) : (raise s o).cells = s.cells := (congrArg State.cells (raise_eq s o) :)
@[simp] theorem raise_cellOwn (o : Occ) : (raise s o).cellOwn = s.cellOwn := (congrArg State.cellOwn (raise_eq s o) :)
@[simp] theorem raise_hives (o : Occ) : (raise s o).hives = s.hives := (congrArg State.hives (raise_eq s o) :)
@[simp] theorem raise_comb (o : Occ) : (raise s o).comb = s.comb := (congrArg State.comb (raise_eq s o) :)
@[simp] theorem raise_scratch (o : Occ) : (raise s o).scratch = s.scratch := (congrArg State.scratch (raise_eq s o) :)
@[simp] theorem raise_inner (o : Occ) : (raise s o).inner = s.inner := (congrArg State.inner (raise_eq s o) :)
@[simp] theorem raise_combUe (o : Occ) : (raise s o).combUe = s.combUe := (congrArg State.combUe (raise_eq s o) :)
@[simp] theorem raise_combCe (o : Occ) : (raise s o).combCe = s.combCe := (congrArg State.combCe (raise_eq s o) :)
@[simp] theorem raise_active (o : Occ) : (raise s o).active = s.active := (congrArg State.active (raise_eq s o) :)
@[simp] theorem raise_combOwn (o : Occ) : (raise s o).combOwn = s.combOwn := (congrArg State.combOwn (raise_eq s o) :)
@[simp] theorem raise_queues (o : Occ) : (raise s o).queues = s.queues := (congrArg State.queues (raise_eq s o) :)
@[simp] theorem raise_doorbells (o : Occ) : (raise s o).doorbells = s.doorbells := (congrArg State.doorbells (raise_eq s o) :)
@[simp] theorem raise_caps (o : Occ) : (raise s o).caps = s.caps := (congrArg State.caps (raise_eq s o) :)
@[simp] theorem raise_chans (o : Occ) : (raise s o).chans = s.chans := (congrArg State.chans (raise_eq s o) :)
@[simp] theorem raise_tasks (o : Occ) : (raise s o).tasks = s.tasks := (congrArg State.tasks (raise_eq s o) :)
@[simp] theorem raise_counters (o : Occ) : (raise s o).counters = s.counters := (congrArg State.counters (raise_eq s o) :)
@[simp] theorem raise_timers (o : Occ) : (raise s o).timers = s.timers := (congrArg State.timers (raise_eq s o) :)
@[simp] theorem raise_pins (o : Occ) : (raise s o).pins = s.pins := (congrArg State.pins (raise_eq s o) :)
@[simp] theorem raise_hops (o : Occ) : (raise s o).hops = s.hops := (congrArg State.hops (raise_eq s o) :)
@[simp] theorem raise_wagEpoch (o : Occ) : (raise s o).wagEpoch = s.wagEpoch := (congrArg State.wagEpoch (raise_eq s o) :)
@[simp] theorem raise_domains (o : Occ) : (raise s o).domains = s.domains := (congrArg State.domains (raise_eq s o) :)
@[simp] theorem raise_col (o : Occ) : (raise s o).col = s.col := (congrArg State.col (raise_eq s o) :)
@[simp] theorem raise_links (o : Occ) : (raise s o).links = s.links := (congrArg State.links (raise_eq s o) :)
@[simp] theorem raise_rxLanes (o : Occ) : (raise s o).rxLanes = s.rxLanes := (congrArg State.rxLanes (raise_eq s o) :)
@[simp] theorem raise_dmcs (o : Occ) : (raise s o).dmcs = s.dmcs := (congrArg State.dmcs (raise_eq s o) :)
@[simp] theorem raise_dram (o : Occ) : (raise s o).dram = s.dram := (congrArg State.dram (raise_eq s o) :)
@[simp] theorem raise_dramUe (o : Occ) : (raise s o).dramUe = s.dramUe := (congrArg State.dramUe (raise_eq s o) :)
@[simp] theorem raise_dramCe (o : Occ) : (raise s o).dramCe = s.dramCe := (congrArg State.dramCe (raise_eq s o) :)
@[simp] theorem raise_dramOwn (o : Occ) : (raise s o).dramOwn = s.dramOwn := (congrArg State.dramOwn (raise_eq s o) :)
@[simp] theorem raise_dramSystem (o : Occ) : (raise s o).dramSystem = s.dramSystem := (congrArg State.dramSystem (raise_eq s o) :)
@[simp] theorem raise_interleave (o : Occ) : (raise s o).interleave = s.interleave := (congrArg State.interleave (raise_eq s o) :)
@[simp] theorem raise_ctxBase (o : Occ) : (raise s o).ctxBase = s.ctxBase := (congrArg State.ctxBase (raise_eq s o) :)
@[simp] theorem raise_ageLimit (o : Occ) : (raise s o).ageLimit = s.ageLimit := (congrArg State.ageLimit (raise_eq s o) :)
@[simp] theorem raise_minMargin (o : Occ) : (raise s o).minMargin = s.minMargin := (congrArg State.minMargin (raise_eq s o) :)
@[simp] theorem raise_trackH (o : Occ) : (raise s o).trackH = s.trackH := (congrArg State.trackH (raise_eq s o) :)
@[simp] theorem raise_ceLimit (o : Occ) : (raise s o).ceLimit = s.ceLimit := (congrArg State.ceLimit (raise_eq s o) :)
@[simp] theorem raise_scrubOn (o : Occ) : (raise s o).scrubOn = s.scrubOn := (congrArg State.scrubOn (raise_eq s o) :)
@[simp] theorem raise_scrubPeriod (o : Occ) : (raise s o).scrubPeriod = s.scrubPeriod := (congrArg State.scrubPeriod (raise_eq s o) :)
@[simp] theorem raise_auxs (o : Occ) : (raise s o).auxs = s.auxs := (congrArg State.auxs (raise_eq s o) :)
@[simp] theorem raise_auxClrN (o : Occ) : (raise s o).auxClrN = s.auxClrN := (congrArg State.auxClrN (raise_eq s o) :)
@[simp] theorem raise_jnl (o : Occ) : (raise s o).jnl = s.jnl := (congrArg State.jnl (raise_eq s o) :)
@[simp] theorem raise_rpl (o : Occ) : (raise s o).rpl = s.rpl := (congrArg State.rpl (raise_eq s o) :)
@[simp] theorem raise_bus (o : Occ) : (raise s o).bus = s.bus := (congrArg State.bus (raise_eq s o) :)
@[simp] theorem raise_bulk (o : Occ) : (raise s o).bulk = s.bulk := (congrArg State.bulk (raise_eq s o) :)
@[simp] theorem raise_free (o : Occ) : (raise s o).free = s.free := (congrArg State.free (raise_eq s o) :)
@[simp] theorem raise_pending (o : Occ) : (raise s o).pending = s.pending := (congrArg State.pending (raise_eq s o) :)

/-- `restoreMark` changes nothing but the fields named here. -/
theorem restoreMark_eq (e : Nat) (l : List Nat) :
    restoreMark e l s = { s with grave := (restoreMark e l s).grave } := rfl

@[simp] theorem restoreMark_dev (e : Nat) (l : List Nat) : (restoreMark e l s).dev = s.dev := (congrArg State.dev (restoreMark_eq s e l) :)
@[simp] theorem restoreMark_md (e : Nat) (l : List Nat) : (restoreMark e l s).md = s.md := (congrArg State.md (restoreMark_eq s e l) :)
@[simp] theorem restoreMark_time (e : Nat) (l : List Nat) : (restoreMark e l s).time = s.time := (congrArg State.time (restoreMark_eq s e l) :)
@[simp] theorem restoreMark_pace (e : Nat) (l : List Nat) : (restoreMark e l s).pace = s.pace := (congrArg State.pace (restoreMark_eq s e l) :)
@[simp] theorem restoreMark_kpr (e : Nat) (l : List Nat) : (restoreMark e l s).kpr = s.kpr := (congrArg State.kpr (restoreMark_eq s e l) :)
@[simp] theorem restoreMark_svc (e : Nat) (l : List Nat) : (restoreMark e l s).svc = s.svc := (congrArg State.svc (restoreMark_eq s e l) :)
@[simp] theorem restoreMark_sec (e : Nat) (l : List Nat) : (restoreMark e l s).sec = s.sec := (congrArg State.sec (restoreMark_eq s e l) :)
@[simp] theorem restoreMark_faults (e : Nat) (l : List Nat) : (restoreMark e l s).faults = s.faults := (congrArg State.faults (restoreMark_eq s e l) :)
@[simp] theorem restoreMark_mailboxes (e : Nat) (l : List Nat) : (restoreMark e l s).mailboxes = s.mailboxes := (congrArg State.mailboxes (restoreMark_eq s e l) :)
@[simp] theorem restoreMark_contexts (e : Nat) (l : List Nat) : (restoreMark e l s).contexts = s.contexts := (congrArg State.contexts (restoreMark_eq s e l) :)
@[simp] theorem restoreMark_msix (e : Nat) (l : List Nat) : (restoreMark e l s).msix = s.msix := (congrArg State.msix (restoreMark_eq s e l) :)
@[simp] theorem restoreMark_msixOpen (e : Nat) (l : List Nat) : (restoreMark e l s).msixOpen = s.msixOpen := (congrArg State.msixOpen (restoreMark_eq s e l) :)
@[simp] theorem restoreMark_msixPba (e : Nat) (l : List Nat) : (restoreMark e l s).msixPba = s.msixPba := (congrArg State.msixPba (restoreMark_eq s e l) :)
@[simp] theorem restoreMark_msixTable (e : Nat) (l : List Nat) : (restoreMark e l s).msixTable = s.msixTable := (congrArg State.msixTable (restoreMark_eq s e l) :)
@[simp] theorem restoreMark_held (e : Nat) (l : List Nat) : (restoreMark e l s).held = s.held := (congrArg State.held (restoreMark_eq s e l) :)
@[simp] theorem restoreMark_works (e : Nat) (l : List Nat) : (restoreMark e l s).works = s.works := (congrArg State.works (restoreMark_eq s e l) :)
@[simp] theorem restoreMark_cells (e : Nat) (l : List Nat) : (restoreMark e l s).cells = s.cells := (congrArg State.cells (restoreMark_eq s e l) :)
@[simp] theorem restoreMark_cellOwn (e : Nat) (l : List Nat) : (restoreMark e l s).cellOwn = s.cellOwn := (congrArg State.cellOwn (restoreMark_eq s e l) :)
@[simp] theorem restoreMark_hives (e : Nat) (l : List Nat) : (restoreMark e l s).hives = s.hives := (congrArg State.hives (restoreMark_eq s e l) :)
@[simp] theorem restoreMark_comb (e : Nat) (l : List Nat) : (restoreMark e l s).comb = s.comb := (congrArg State.comb (restoreMark_eq s e l) :)
@[simp] theorem restoreMark_scratch (e : Nat) (l : List Nat) : (restoreMark e l s).scratch = s.scratch := (congrArg State.scratch (restoreMark_eq s e l) :)
@[simp] theorem restoreMark_inner (e : Nat) (l : List Nat) : (restoreMark e l s).inner = s.inner := (congrArg State.inner (restoreMark_eq s e l) :)
@[simp] theorem restoreMark_combUe (e : Nat) (l : List Nat) : (restoreMark e l s).combUe = s.combUe := (congrArg State.combUe (restoreMark_eq s e l) :)
@[simp] theorem restoreMark_combCe (e : Nat) (l : List Nat) : (restoreMark e l s).combCe = s.combCe := (congrArg State.combCe (restoreMark_eq s e l) :)
@[simp] theorem restoreMark_active (e : Nat) (l : List Nat) : (restoreMark e l s).active = s.active := (congrArg State.active (restoreMark_eq s e l) :)
@[simp] theorem restoreMark_combOwn (e : Nat) (l : List Nat) : (restoreMark e l s).combOwn = s.combOwn := (congrArg State.combOwn (restoreMark_eq s e l) :)
@[simp] theorem restoreMark_queues (e : Nat) (l : List Nat) : (restoreMark e l s).queues = s.queues := (congrArg State.queues (restoreMark_eq s e l) :)
@[simp] theorem restoreMark_doorbells (e : Nat) (l : List Nat) : (restoreMark e l s).doorbells = s.doorbells := (congrArg State.doorbells (restoreMark_eq s e l) :)
@[simp] theorem restoreMark_caps (e : Nat) (l : List Nat) : (restoreMark e l s).caps = s.caps := (congrArg State.caps (restoreMark_eq s e l) :)
@[simp] theorem restoreMark_chans (e : Nat) (l : List Nat) : (restoreMark e l s).chans = s.chans := (congrArg State.chans (restoreMark_eq s e l) :)
@[simp] theorem restoreMark_tasks (e : Nat) (l : List Nat) : (restoreMark e l s).tasks = s.tasks := (congrArg State.tasks (restoreMark_eq s e l) :)
@[simp] theorem restoreMark_counters (e : Nat) (l : List Nat) : (restoreMark e l s).counters = s.counters := (congrArg State.counters (restoreMark_eq s e l) :)
@[simp] theorem restoreMark_timers (e : Nat) (l : List Nat) : (restoreMark e l s).timers = s.timers := (congrArg State.timers (restoreMark_eq s e l) :)
@[simp] theorem restoreMark_pins (e : Nat) (l : List Nat) : (restoreMark e l s).pins = s.pins := (congrArg State.pins (restoreMark_eq s e l) :)
@[simp] theorem restoreMark_hops (e : Nat) (l : List Nat) : (restoreMark e l s).hops = s.hops := (congrArg State.hops (restoreMark_eq s e l) :)
@[simp] theorem restoreMark_wagEpoch (e : Nat) (l : List Nat) : (restoreMark e l s).wagEpoch = s.wagEpoch := (congrArg State.wagEpoch (restoreMark_eq s e l) :)
@[simp] theorem restoreMark_domains (e : Nat) (l : List Nat) : (restoreMark e l s).domains = s.domains := (congrArg State.domains (restoreMark_eq s e l) :)
@[simp] theorem restoreMark_col (e : Nat) (l : List Nat) : (restoreMark e l s).col = s.col := (congrArg State.col (restoreMark_eq s e l) :)
@[simp] theorem restoreMark_links (e : Nat) (l : List Nat) : (restoreMark e l s).links = s.links := (congrArg State.links (restoreMark_eq s e l) :)
@[simp] theorem restoreMark_rxLanes (e : Nat) (l : List Nat) : (restoreMark e l s).rxLanes = s.rxLanes := (congrArg State.rxLanes (restoreMark_eq s e l) :)
@[simp] theorem restoreMark_dmcs (e : Nat) (l : List Nat) : (restoreMark e l s).dmcs = s.dmcs := (congrArg State.dmcs (restoreMark_eq s e l) :)
@[simp] theorem restoreMark_dram (e : Nat) (l : List Nat) : (restoreMark e l s).dram = s.dram := (congrArg State.dram (restoreMark_eq s e l) :)
@[simp] theorem restoreMark_dramUe (e : Nat) (l : List Nat) : (restoreMark e l s).dramUe = s.dramUe := (congrArg State.dramUe (restoreMark_eq s e l) :)
@[simp] theorem restoreMark_dramCe (e : Nat) (l : List Nat) : (restoreMark e l s).dramCe = s.dramCe := (congrArg State.dramCe (restoreMark_eq s e l) :)
@[simp] theorem restoreMark_dramOwn (e : Nat) (l : List Nat) : (restoreMark e l s).dramOwn = s.dramOwn := (congrArg State.dramOwn (restoreMark_eq s e l) :)
@[simp] theorem restoreMark_dramSystem (e : Nat) (l : List Nat) : (restoreMark e l s).dramSystem = s.dramSystem := (congrArg State.dramSystem (restoreMark_eq s e l) :)
@[simp] theorem restoreMark_interleave (e : Nat) (l : List Nat) : (restoreMark e l s).interleave = s.interleave := (congrArg State.interleave (restoreMark_eq s e l) :)
@[simp] theorem restoreMark_ctxBase (e : Nat) (l : List Nat) : (restoreMark e l s).ctxBase = s.ctxBase := (congrArg State.ctxBase (restoreMark_eq s e l) :)
@[simp] theorem restoreMark_ageLimit (e : Nat) (l : List Nat) : (restoreMark e l s).ageLimit = s.ageLimit := (congrArg State.ageLimit (restoreMark_eq s e l) :)
@[simp] theorem restoreMark_minMargin (e : Nat) (l : List Nat) : (restoreMark e l s).minMargin = s.minMargin := (congrArg State.minMargin (restoreMark_eq s e l) :)
@[simp] theorem restoreMark_trackH (e : Nat) (l : List Nat) : (restoreMark e l s).trackH = s.trackH := (congrArg State.trackH (restoreMark_eq s e l) :)
@[simp] theorem restoreMark_ceLimit (e : Nat) (l : List Nat) : (restoreMark e l s).ceLimit = s.ceLimit := (congrArg State.ceLimit (restoreMark_eq s e l) :)
@[simp] theorem restoreMark_scrubOn (e : Nat) (l : List Nat) : (restoreMark e l s).scrubOn = s.scrubOn := (congrArg State.scrubOn (restoreMark_eq s e l) :)
@[simp] theorem restoreMark_scrubPeriod (e : Nat) (l : List Nat) : (restoreMark e l s).scrubPeriod = s.scrubPeriod := (congrArg State.scrubPeriod (restoreMark_eq s e l) :)
@[simp] theorem restoreMark_auxs (e : Nat) (l : List Nat) : (restoreMark e l s).auxs = s.auxs := (congrArg State.auxs (restoreMark_eq s e l) :)
@[simp] theorem restoreMark_auxClrN (e : Nat) (l : List Nat) : (restoreMark e l s).auxClrN = s.auxClrN := (congrArg State.auxClrN (restoreMark_eq s e l) :)
@[simp] theorem restoreMark_jnl (e : Nat) (l : List Nat) : (restoreMark e l s).jnl = s.jnl := (congrArg State.jnl (restoreMark_eq s e l) :)
@[simp] theorem restoreMark_rpl (e : Nat) (l : List Nat) : (restoreMark e l s).rpl = s.rpl := (congrArg State.rpl (restoreMark_eq s e l) :)
@[simp] theorem restoreMark_bus (e : Nat) (l : List Nat) : (restoreMark e l s).bus = s.bus := (congrArg State.bus (restoreMark_eq s e l) :)
@[simp] theorem restoreMark_bulk (e : Nat) (l : List Nat) : (restoreMark e l s).bulk = s.bulk := (congrArg State.bulk (restoreMark_eq s e l) :)
@[simp] theorem restoreMark_free (e : Nat) (l : List Nat) : (restoreMark e l s).free = s.free := (congrArg State.free (restoreMark_eq s e l) :)
@[simp] theorem restoreMark_pending (e : Nat) (l : List Nat) : (restoreMark e l s).pending = s.pending := (congrArg State.pending (restoreMark_eq s e l) :)

/-- `modeSettle` changes nothing but the fields named here. -/
theorem modeSettle_eq (s0 : State) :
    modeSettle s0 s = { s with md := (modeSettle s0 s).md } := by
  unfold modeSettle; split <;> rfl

@[simp] theorem modeSettle_dev (s0 : State) : (modeSettle s0 s).dev = s.dev := (congrArg State.dev (modeSettle_eq s s0) :)
@[simp] theorem modeSettle_time (s0 : State) : (modeSettle s0 s).time = s.time := (congrArg State.time (modeSettle_eq s s0) :)
@[simp] theorem modeSettle_pace (s0 : State) : (modeSettle s0 s).pace = s.pace := (congrArg State.pace (modeSettle_eq s s0) :)
@[simp] theorem modeSettle_kpr (s0 : State) : (modeSettle s0 s).kpr = s.kpr := (congrArg State.kpr (modeSettle_eq s s0) :)
@[simp] theorem modeSettle_svc (s0 : State) : (modeSettle s0 s).svc = s.svc := (congrArg State.svc (modeSettle_eq s s0) :)
@[simp] theorem modeSettle_sec (s0 : State) : (modeSettle s0 s).sec = s.sec := (congrArg State.sec (modeSettle_eq s s0) :)
@[simp] theorem modeSettle_grave (s0 : State) : (modeSettle s0 s).grave = s.grave := (congrArg State.grave (modeSettle_eq s s0) :)
@[simp] theorem modeSettle_faults (s0 : State) : (modeSettle s0 s).faults = s.faults := (congrArg State.faults (modeSettle_eq s s0) :)
@[simp] theorem modeSettle_mailboxes (s0 : State) : (modeSettle s0 s).mailboxes = s.mailboxes := (congrArg State.mailboxes (modeSettle_eq s s0) :)
@[simp] theorem modeSettle_contexts (s0 : State) : (modeSettle s0 s).contexts = s.contexts := (congrArg State.contexts (modeSettle_eq s s0) :)
@[simp] theorem modeSettle_msix (s0 : State) : (modeSettle s0 s).msix = s.msix := (congrArg State.msix (modeSettle_eq s s0) :)
@[simp] theorem modeSettle_msixOpen (s0 : State) : (modeSettle s0 s).msixOpen = s.msixOpen := (congrArg State.msixOpen (modeSettle_eq s s0) :)
@[simp] theorem modeSettle_msixPba (s0 : State) : (modeSettle s0 s).msixPba = s.msixPba := (congrArg State.msixPba (modeSettle_eq s s0) :)
@[simp] theorem modeSettle_msixTable (s0 : State) : (modeSettle s0 s).msixTable = s.msixTable := (congrArg State.msixTable (modeSettle_eq s s0) :)
@[simp] theorem modeSettle_held (s0 : State) : (modeSettle s0 s).held = s.held := (congrArg State.held (modeSettle_eq s s0) :)
@[simp] theorem modeSettle_works (s0 : State) : (modeSettle s0 s).works = s.works := (congrArg State.works (modeSettle_eq s s0) :)
@[simp] theorem modeSettle_cells (s0 : State) : (modeSettle s0 s).cells = s.cells := (congrArg State.cells (modeSettle_eq s s0) :)
@[simp] theorem modeSettle_cellOwn (s0 : State) : (modeSettle s0 s).cellOwn = s.cellOwn := (congrArg State.cellOwn (modeSettle_eq s s0) :)
@[simp] theorem modeSettle_hives (s0 : State) : (modeSettle s0 s).hives = s.hives := (congrArg State.hives (modeSettle_eq s s0) :)
@[simp] theorem modeSettle_comb (s0 : State) : (modeSettle s0 s).comb = s.comb := (congrArg State.comb (modeSettle_eq s s0) :)
@[simp] theorem modeSettle_scratch (s0 : State) : (modeSettle s0 s).scratch = s.scratch := (congrArg State.scratch (modeSettle_eq s s0) :)
@[simp] theorem modeSettle_inner (s0 : State) : (modeSettle s0 s).inner = s.inner := (congrArg State.inner (modeSettle_eq s s0) :)
@[simp] theorem modeSettle_combUe (s0 : State) : (modeSettle s0 s).combUe = s.combUe := (congrArg State.combUe (modeSettle_eq s s0) :)
@[simp] theorem modeSettle_combCe (s0 : State) : (modeSettle s0 s).combCe = s.combCe := (congrArg State.combCe (modeSettle_eq s s0) :)
@[simp] theorem modeSettle_active (s0 : State) : (modeSettle s0 s).active = s.active := (congrArg State.active (modeSettle_eq s s0) :)
@[simp] theorem modeSettle_combOwn (s0 : State) : (modeSettle s0 s).combOwn = s.combOwn := (congrArg State.combOwn (modeSettle_eq s s0) :)
@[simp] theorem modeSettle_queues (s0 : State) : (modeSettle s0 s).queues = s.queues := (congrArg State.queues (modeSettle_eq s s0) :)
@[simp] theorem modeSettle_doorbells (s0 : State) : (modeSettle s0 s).doorbells = s.doorbells := (congrArg State.doorbells (modeSettle_eq s s0) :)
@[simp] theorem modeSettle_caps (s0 : State) : (modeSettle s0 s).caps = s.caps := (congrArg State.caps (modeSettle_eq s s0) :)
@[simp] theorem modeSettle_chans (s0 : State) : (modeSettle s0 s).chans = s.chans := (congrArg State.chans (modeSettle_eq s s0) :)
@[simp] theorem modeSettle_tasks (s0 : State) : (modeSettle s0 s).tasks = s.tasks := (congrArg State.tasks (modeSettle_eq s s0) :)
@[simp] theorem modeSettle_counters (s0 : State) : (modeSettle s0 s).counters = s.counters := (congrArg State.counters (modeSettle_eq s s0) :)
@[simp] theorem modeSettle_timers (s0 : State) : (modeSettle s0 s).timers = s.timers := (congrArg State.timers (modeSettle_eq s s0) :)
@[simp] theorem modeSettle_pins (s0 : State) : (modeSettle s0 s).pins = s.pins := (congrArg State.pins (modeSettle_eq s s0) :)
@[simp] theorem modeSettle_hops (s0 : State) : (modeSettle s0 s).hops = s.hops := (congrArg State.hops (modeSettle_eq s s0) :)
@[simp] theorem modeSettle_wagEpoch (s0 : State) : (modeSettle s0 s).wagEpoch = s.wagEpoch := (congrArg State.wagEpoch (modeSettle_eq s s0) :)
@[simp] theorem modeSettle_domains (s0 : State) : (modeSettle s0 s).domains = s.domains := (congrArg State.domains (modeSettle_eq s s0) :)
@[simp] theorem modeSettle_col (s0 : State) : (modeSettle s0 s).col = s.col := (congrArg State.col (modeSettle_eq s s0) :)
@[simp] theorem modeSettle_links (s0 : State) : (modeSettle s0 s).links = s.links := (congrArg State.links (modeSettle_eq s s0) :)
@[simp] theorem modeSettle_rxLanes (s0 : State) : (modeSettle s0 s).rxLanes = s.rxLanes := (congrArg State.rxLanes (modeSettle_eq s s0) :)
@[simp] theorem modeSettle_dmcs (s0 : State) : (modeSettle s0 s).dmcs = s.dmcs := (congrArg State.dmcs (modeSettle_eq s s0) :)
@[simp] theorem modeSettle_dram (s0 : State) : (modeSettle s0 s).dram = s.dram := (congrArg State.dram (modeSettle_eq s s0) :)
@[simp] theorem modeSettle_dramUe (s0 : State) : (modeSettle s0 s).dramUe = s.dramUe := (congrArg State.dramUe (modeSettle_eq s s0) :)
@[simp] theorem modeSettle_dramCe (s0 : State) : (modeSettle s0 s).dramCe = s.dramCe := (congrArg State.dramCe (modeSettle_eq s s0) :)
@[simp] theorem modeSettle_dramOwn (s0 : State) : (modeSettle s0 s).dramOwn = s.dramOwn := (congrArg State.dramOwn (modeSettle_eq s s0) :)
@[simp] theorem modeSettle_dramSystem (s0 : State) : (modeSettle s0 s).dramSystem = s.dramSystem := (congrArg State.dramSystem (modeSettle_eq s s0) :)
@[simp] theorem modeSettle_interleave (s0 : State) : (modeSettle s0 s).interleave = s.interleave := (congrArg State.interleave (modeSettle_eq s s0) :)
@[simp] theorem modeSettle_ctxBase (s0 : State) : (modeSettle s0 s).ctxBase = s.ctxBase := (congrArg State.ctxBase (modeSettle_eq s s0) :)
@[simp] theorem modeSettle_ageLimit (s0 : State) : (modeSettle s0 s).ageLimit = s.ageLimit := (congrArg State.ageLimit (modeSettle_eq s s0) :)
@[simp] theorem modeSettle_minMargin (s0 : State) : (modeSettle s0 s).minMargin = s.minMargin := (congrArg State.minMargin (modeSettle_eq s s0) :)
@[simp] theorem modeSettle_trackH (s0 : State) : (modeSettle s0 s).trackH = s.trackH := (congrArg State.trackH (modeSettle_eq s s0) :)
@[simp] theorem modeSettle_ceLimit (s0 : State) : (modeSettle s0 s).ceLimit = s.ceLimit := (congrArg State.ceLimit (modeSettle_eq s s0) :)
@[simp] theorem modeSettle_scrubOn (s0 : State) : (modeSettle s0 s).scrubOn = s.scrubOn := (congrArg State.scrubOn (modeSettle_eq s s0) :)
@[simp] theorem modeSettle_scrubPeriod (s0 : State) : (modeSettle s0 s).scrubPeriod = s.scrubPeriod := (congrArg State.scrubPeriod (modeSettle_eq s s0) :)
@[simp] theorem modeSettle_auxs (s0 : State) : (modeSettle s0 s).auxs = s.auxs := (congrArg State.auxs (modeSettle_eq s s0) :)
@[simp] theorem modeSettle_auxClrN (s0 : State) : (modeSettle s0 s).auxClrN = s.auxClrN := (congrArg State.auxClrN (modeSettle_eq s s0) :)
@[simp] theorem modeSettle_jnl (s0 : State) : (modeSettle s0 s).jnl = s.jnl := (congrArg State.jnl (modeSettle_eq s s0) :)
@[simp] theorem modeSettle_rpl (s0 : State) : (modeSettle s0 s).rpl = s.rpl := (congrArg State.rpl (modeSettle_eq s s0) :)
@[simp] theorem modeSettle_bus (s0 : State) : (modeSettle s0 s).bus = s.bus := (congrArg State.bus (modeSettle_eq s s0) :)
@[simp] theorem modeSettle_bulk (s0 : State) : (modeSettle s0 s).bulk = s.bulk := (congrArg State.bulk (modeSettle_eq s s0) :)
@[simp] theorem modeSettle_free (s0 : State) : (modeSettle s0 s).free = s.free := (congrArg State.free (modeSettle_eq s s0) :)
@[simp] theorem modeSettle_pending (s0 : State) : (modeSettle s0 s).pending = s.pending := (congrArg State.pending (modeSettle_eq s s0) :)

/-- `readySettle` changes nothing but the fields named here. -/
theorem readySettle_eq (s0 : State) :
    readySettle s0 s = { s with kpr := (readySettle s0 s).kpr } := by
  unfold readySettle; split <;> rfl

@[simp] theorem readySettle_dev (s0 : State) : (readySettle s0 s).dev = s.dev := (congrArg State.dev (readySettle_eq s s0) :)
@[simp] theorem readySettle_md (s0 : State) : (readySettle s0 s).md = s.md := (congrArg State.md (readySettle_eq s s0) :)
@[simp] theorem readySettle_time (s0 : State) : (readySettle s0 s).time = s.time := (congrArg State.time (readySettle_eq s s0) :)
@[simp] theorem readySettle_pace (s0 : State) : (readySettle s0 s).pace = s.pace := (congrArg State.pace (readySettle_eq s s0) :)
@[simp] theorem readySettle_svc (s0 : State) : (readySettle s0 s).svc = s.svc := (congrArg State.svc (readySettle_eq s s0) :)
@[simp] theorem readySettle_sec (s0 : State) : (readySettle s0 s).sec = s.sec := (congrArg State.sec (readySettle_eq s s0) :)
@[simp] theorem readySettle_grave (s0 : State) : (readySettle s0 s).grave = s.grave := (congrArg State.grave (readySettle_eq s s0) :)
@[simp] theorem readySettle_faults (s0 : State) : (readySettle s0 s).faults = s.faults := (congrArg State.faults (readySettle_eq s s0) :)
@[simp] theorem readySettle_mailboxes (s0 : State) : (readySettle s0 s).mailboxes = s.mailboxes := (congrArg State.mailboxes (readySettle_eq s s0) :)
@[simp] theorem readySettle_contexts (s0 : State) : (readySettle s0 s).contexts = s.contexts := (congrArg State.contexts (readySettle_eq s s0) :)
@[simp] theorem readySettle_msix (s0 : State) : (readySettle s0 s).msix = s.msix := (congrArg State.msix (readySettle_eq s s0) :)
@[simp] theorem readySettle_msixOpen (s0 : State) : (readySettle s0 s).msixOpen = s.msixOpen := (congrArg State.msixOpen (readySettle_eq s s0) :)
@[simp] theorem readySettle_msixPba (s0 : State) : (readySettle s0 s).msixPba = s.msixPba := (congrArg State.msixPba (readySettle_eq s s0) :)
@[simp] theorem readySettle_msixTable (s0 : State) : (readySettle s0 s).msixTable = s.msixTable := (congrArg State.msixTable (readySettle_eq s s0) :)
@[simp] theorem readySettle_held (s0 : State) : (readySettle s0 s).held = s.held := (congrArg State.held (readySettle_eq s s0) :)
@[simp] theorem readySettle_works (s0 : State) : (readySettle s0 s).works = s.works := (congrArg State.works (readySettle_eq s s0) :)
@[simp] theorem readySettle_cells (s0 : State) : (readySettle s0 s).cells = s.cells := (congrArg State.cells (readySettle_eq s s0) :)
@[simp] theorem readySettle_cellOwn (s0 : State) : (readySettle s0 s).cellOwn = s.cellOwn := (congrArg State.cellOwn (readySettle_eq s s0) :)
@[simp] theorem readySettle_hives (s0 : State) : (readySettle s0 s).hives = s.hives := (congrArg State.hives (readySettle_eq s s0) :)
@[simp] theorem readySettle_comb (s0 : State) : (readySettle s0 s).comb = s.comb := (congrArg State.comb (readySettle_eq s s0) :)
@[simp] theorem readySettle_scratch (s0 : State) : (readySettle s0 s).scratch = s.scratch := (congrArg State.scratch (readySettle_eq s s0) :)
@[simp] theorem readySettle_inner (s0 : State) : (readySettle s0 s).inner = s.inner := (congrArg State.inner (readySettle_eq s s0) :)
@[simp] theorem readySettle_combUe (s0 : State) : (readySettle s0 s).combUe = s.combUe := (congrArg State.combUe (readySettle_eq s s0) :)
@[simp] theorem readySettle_combCe (s0 : State) : (readySettle s0 s).combCe = s.combCe := (congrArg State.combCe (readySettle_eq s s0) :)
@[simp] theorem readySettle_active (s0 : State) : (readySettle s0 s).active = s.active := (congrArg State.active (readySettle_eq s s0) :)
@[simp] theorem readySettle_combOwn (s0 : State) : (readySettle s0 s).combOwn = s.combOwn := (congrArg State.combOwn (readySettle_eq s s0) :)
@[simp] theorem readySettle_queues (s0 : State) : (readySettle s0 s).queues = s.queues := (congrArg State.queues (readySettle_eq s s0) :)
@[simp] theorem readySettle_doorbells (s0 : State) : (readySettle s0 s).doorbells = s.doorbells := (congrArg State.doorbells (readySettle_eq s s0) :)
@[simp] theorem readySettle_caps (s0 : State) : (readySettle s0 s).caps = s.caps := (congrArg State.caps (readySettle_eq s s0) :)
@[simp] theorem readySettle_chans (s0 : State) : (readySettle s0 s).chans = s.chans := (congrArg State.chans (readySettle_eq s s0) :)
@[simp] theorem readySettle_tasks (s0 : State) : (readySettle s0 s).tasks = s.tasks := (congrArg State.tasks (readySettle_eq s s0) :)
@[simp] theorem readySettle_counters (s0 : State) : (readySettle s0 s).counters = s.counters := (congrArg State.counters (readySettle_eq s s0) :)
@[simp] theorem readySettle_timers (s0 : State) : (readySettle s0 s).timers = s.timers := (congrArg State.timers (readySettle_eq s s0) :)
@[simp] theorem readySettle_pins (s0 : State) : (readySettle s0 s).pins = s.pins := (congrArg State.pins (readySettle_eq s s0) :)
@[simp] theorem readySettle_hops (s0 : State) : (readySettle s0 s).hops = s.hops := (congrArg State.hops (readySettle_eq s s0) :)
@[simp] theorem readySettle_wagEpoch (s0 : State) : (readySettle s0 s).wagEpoch = s.wagEpoch := (congrArg State.wagEpoch (readySettle_eq s s0) :)
@[simp] theorem readySettle_domains (s0 : State) : (readySettle s0 s).domains = s.domains := (congrArg State.domains (readySettle_eq s s0) :)
@[simp] theorem readySettle_col (s0 : State) : (readySettle s0 s).col = s.col := (congrArg State.col (readySettle_eq s s0) :)
@[simp] theorem readySettle_links (s0 : State) : (readySettle s0 s).links = s.links := (congrArg State.links (readySettle_eq s s0) :)
@[simp] theorem readySettle_rxLanes (s0 : State) : (readySettle s0 s).rxLanes = s.rxLanes := (congrArg State.rxLanes (readySettle_eq s s0) :)
@[simp] theorem readySettle_dmcs (s0 : State) : (readySettle s0 s).dmcs = s.dmcs := (congrArg State.dmcs (readySettle_eq s s0) :)
@[simp] theorem readySettle_dram (s0 : State) : (readySettle s0 s).dram = s.dram := (congrArg State.dram (readySettle_eq s s0) :)
@[simp] theorem readySettle_dramUe (s0 : State) : (readySettle s0 s).dramUe = s.dramUe := (congrArg State.dramUe (readySettle_eq s s0) :)
@[simp] theorem readySettle_dramCe (s0 : State) : (readySettle s0 s).dramCe = s.dramCe := (congrArg State.dramCe (readySettle_eq s s0) :)
@[simp] theorem readySettle_dramOwn (s0 : State) : (readySettle s0 s).dramOwn = s.dramOwn := (congrArg State.dramOwn (readySettle_eq s s0) :)
@[simp] theorem readySettle_dramSystem (s0 : State) : (readySettle s0 s).dramSystem = s.dramSystem := (congrArg State.dramSystem (readySettle_eq s s0) :)
@[simp] theorem readySettle_interleave (s0 : State) : (readySettle s0 s).interleave = s.interleave := (congrArg State.interleave (readySettle_eq s s0) :)
@[simp] theorem readySettle_ctxBase (s0 : State) : (readySettle s0 s).ctxBase = s.ctxBase := (congrArg State.ctxBase (readySettle_eq s s0) :)
@[simp] theorem readySettle_ageLimit (s0 : State) : (readySettle s0 s).ageLimit = s.ageLimit := (congrArg State.ageLimit (readySettle_eq s s0) :)
@[simp] theorem readySettle_minMargin (s0 : State) : (readySettle s0 s).minMargin = s.minMargin := (congrArg State.minMargin (readySettle_eq s s0) :)
@[simp] theorem readySettle_trackH (s0 : State) : (readySettle s0 s).trackH = s.trackH := (congrArg State.trackH (readySettle_eq s s0) :)
@[simp] theorem readySettle_ceLimit (s0 : State) : (readySettle s0 s).ceLimit = s.ceLimit := (congrArg State.ceLimit (readySettle_eq s s0) :)
@[simp] theorem readySettle_scrubOn (s0 : State) : (readySettle s0 s).scrubOn = s.scrubOn := (congrArg State.scrubOn (readySettle_eq s s0) :)
@[simp] theorem readySettle_scrubPeriod (s0 : State) : (readySettle s0 s).scrubPeriod = s.scrubPeriod := (congrArg State.scrubPeriod (readySettle_eq s s0) :)
@[simp] theorem readySettle_auxs (s0 : State) : (readySettle s0 s).auxs = s.auxs := (congrArg State.auxs (readySettle_eq s s0) :)
@[simp] theorem readySettle_auxClrN (s0 : State) : (readySettle s0 s).auxClrN = s.auxClrN := (congrArg State.auxClrN (readySettle_eq s s0) :)
@[simp] theorem readySettle_jnl (s0 : State) : (readySettle s0 s).jnl = s.jnl := (congrArg State.jnl (readySettle_eq s s0) :)
@[simp] theorem readySettle_rpl (s0 : State) : (readySettle s0 s).rpl = s.rpl := (congrArg State.rpl (readySettle_eq s s0) :)
@[simp] theorem readySettle_bus (s0 : State) : (readySettle s0 s).bus = s.bus := (congrArg State.bus (readySettle_eq s s0) :)
@[simp] theorem readySettle_bulk (s0 : State) : (readySettle s0 s).bulk = s.bulk := (congrArg State.bulk (readySettle_eq s s0) :)
@[simp] theorem readySettle_free (s0 : State) : (readySettle s0 s).free = s.free := (congrArg State.free (readySettle_eq s s0) :)
@[simp] theorem readySettle_pending (s0 : State) : (readySettle s0 s).pending = s.pending := (congrArg State.pending (readySettle_eq s s0) :)

/-- `keeperSettle` changes nothing but the fields named here. -/
theorem keeperSettle_eq (s0 : State) :
    keeperSettle s0 s = { s with kpr := (keeperSettle s0 s).kpr } := by
  unfold keeperSettle; split <;> rfl

@[simp] theorem keeperSettle_dev (s0 : State) : (keeperSettle s0 s).dev = s.dev := (congrArg State.dev (keeperSettle_eq s s0) :)
@[simp] theorem keeperSettle_md (s0 : State) : (keeperSettle s0 s).md = s.md := (congrArg State.md (keeperSettle_eq s s0) :)
@[simp] theorem keeperSettle_time (s0 : State) : (keeperSettle s0 s).time = s.time := (congrArg State.time (keeperSettle_eq s s0) :)
@[simp] theorem keeperSettle_pace (s0 : State) : (keeperSettle s0 s).pace = s.pace := (congrArg State.pace (keeperSettle_eq s s0) :)
@[simp] theorem keeperSettle_svc (s0 : State) : (keeperSettle s0 s).svc = s.svc := (congrArg State.svc (keeperSettle_eq s s0) :)
@[simp] theorem keeperSettle_sec (s0 : State) : (keeperSettle s0 s).sec = s.sec := (congrArg State.sec (keeperSettle_eq s s0) :)
@[simp] theorem keeperSettle_grave (s0 : State) : (keeperSettle s0 s).grave = s.grave := (congrArg State.grave (keeperSettle_eq s s0) :)
@[simp] theorem keeperSettle_faults (s0 : State) : (keeperSettle s0 s).faults = s.faults := (congrArg State.faults (keeperSettle_eq s s0) :)
@[simp] theorem keeperSettle_mailboxes (s0 : State) : (keeperSettle s0 s).mailboxes = s.mailboxes := (congrArg State.mailboxes (keeperSettle_eq s s0) :)
@[simp] theorem keeperSettle_contexts (s0 : State) : (keeperSettle s0 s).contexts = s.contexts := (congrArg State.contexts (keeperSettle_eq s s0) :)
@[simp] theorem keeperSettle_msix (s0 : State) : (keeperSettle s0 s).msix = s.msix := (congrArg State.msix (keeperSettle_eq s s0) :)
@[simp] theorem keeperSettle_msixOpen (s0 : State) : (keeperSettle s0 s).msixOpen = s.msixOpen := (congrArg State.msixOpen (keeperSettle_eq s s0) :)
@[simp] theorem keeperSettle_msixPba (s0 : State) : (keeperSettle s0 s).msixPba = s.msixPba := (congrArg State.msixPba (keeperSettle_eq s s0) :)
@[simp] theorem keeperSettle_msixTable (s0 : State) : (keeperSettle s0 s).msixTable = s.msixTable := (congrArg State.msixTable (keeperSettle_eq s s0) :)
@[simp] theorem keeperSettle_held (s0 : State) : (keeperSettle s0 s).held = s.held := (congrArg State.held (keeperSettle_eq s s0) :)
@[simp] theorem keeperSettle_works (s0 : State) : (keeperSettle s0 s).works = s.works := (congrArg State.works (keeperSettle_eq s s0) :)
@[simp] theorem keeperSettle_cells (s0 : State) : (keeperSettle s0 s).cells = s.cells := (congrArg State.cells (keeperSettle_eq s s0) :)
@[simp] theorem keeperSettle_cellOwn (s0 : State) : (keeperSettle s0 s).cellOwn = s.cellOwn := (congrArg State.cellOwn (keeperSettle_eq s s0) :)
@[simp] theorem keeperSettle_hives (s0 : State) : (keeperSettle s0 s).hives = s.hives := (congrArg State.hives (keeperSettle_eq s s0) :)
@[simp] theorem keeperSettle_comb (s0 : State) : (keeperSettle s0 s).comb = s.comb := (congrArg State.comb (keeperSettle_eq s s0) :)
@[simp] theorem keeperSettle_scratch (s0 : State) : (keeperSettle s0 s).scratch = s.scratch := (congrArg State.scratch (keeperSettle_eq s s0) :)
@[simp] theorem keeperSettle_inner (s0 : State) : (keeperSettle s0 s).inner = s.inner := (congrArg State.inner (keeperSettle_eq s s0) :)
@[simp] theorem keeperSettle_combUe (s0 : State) : (keeperSettle s0 s).combUe = s.combUe := (congrArg State.combUe (keeperSettle_eq s s0) :)
@[simp] theorem keeperSettle_combCe (s0 : State) : (keeperSettle s0 s).combCe = s.combCe := (congrArg State.combCe (keeperSettle_eq s s0) :)
@[simp] theorem keeperSettle_active (s0 : State) : (keeperSettle s0 s).active = s.active := (congrArg State.active (keeperSettle_eq s s0) :)
@[simp] theorem keeperSettle_combOwn (s0 : State) : (keeperSettle s0 s).combOwn = s.combOwn := (congrArg State.combOwn (keeperSettle_eq s s0) :)
@[simp] theorem keeperSettle_queues (s0 : State) : (keeperSettle s0 s).queues = s.queues := (congrArg State.queues (keeperSettle_eq s s0) :)
@[simp] theorem keeperSettle_doorbells (s0 : State) : (keeperSettle s0 s).doorbells = s.doorbells := (congrArg State.doorbells (keeperSettle_eq s s0) :)
@[simp] theorem keeperSettle_caps (s0 : State) : (keeperSettle s0 s).caps = s.caps := (congrArg State.caps (keeperSettle_eq s s0) :)
@[simp] theorem keeperSettle_chans (s0 : State) : (keeperSettle s0 s).chans = s.chans := (congrArg State.chans (keeperSettle_eq s s0) :)
@[simp] theorem keeperSettle_tasks (s0 : State) : (keeperSettle s0 s).tasks = s.tasks := (congrArg State.tasks (keeperSettle_eq s s0) :)
@[simp] theorem keeperSettle_counters (s0 : State) : (keeperSettle s0 s).counters = s.counters := (congrArg State.counters (keeperSettle_eq s s0) :)
@[simp] theorem keeperSettle_timers (s0 : State) : (keeperSettle s0 s).timers = s.timers := (congrArg State.timers (keeperSettle_eq s s0) :)
@[simp] theorem keeperSettle_pins (s0 : State) : (keeperSettle s0 s).pins = s.pins := (congrArg State.pins (keeperSettle_eq s s0) :)
@[simp] theorem keeperSettle_hops (s0 : State) : (keeperSettle s0 s).hops = s.hops := (congrArg State.hops (keeperSettle_eq s s0) :)
@[simp] theorem keeperSettle_wagEpoch (s0 : State) : (keeperSettle s0 s).wagEpoch = s.wagEpoch := (congrArg State.wagEpoch (keeperSettle_eq s s0) :)
@[simp] theorem keeperSettle_domains (s0 : State) : (keeperSettle s0 s).domains = s.domains := (congrArg State.domains (keeperSettle_eq s s0) :)
@[simp] theorem keeperSettle_col (s0 : State) : (keeperSettle s0 s).col = s.col := (congrArg State.col (keeperSettle_eq s s0) :)
@[simp] theorem keeperSettle_links (s0 : State) : (keeperSettle s0 s).links = s.links := (congrArg State.links (keeperSettle_eq s s0) :)
@[simp] theorem keeperSettle_rxLanes (s0 : State) : (keeperSettle s0 s).rxLanes = s.rxLanes := (congrArg State.rxLanes (keeperSettle_eq s s0) :)
@[simp] theorem keeperSettle_dmcs (s0 : State) : (keeperSettle s0 s).dmcs = s.dmcs := (congrArg State.dmcs (keeperSettle_eq s s0) :)
@[simp] theorem keeperSettle_dram (s0 : State) : (keeperSettle s0 s).dram = s.dram := (congrArg State.dram (keeperSettle_eq s s0) :)
@[simp] theorem keeperSettle_dramUe (s0 : State) : (keeperSettle s0 s).dramUe = s.dramUe := (congrArg State.dramUe (keeperSettle_eq s s0) :)
@[simp] theorem keeperSettle_dramCe (s0 : State) : (keeperSettle s0 s).dramCe = s.dramCe := (congrArg State.dramCe (keeperSettle_eq s s0) :)
@[simp] theorem keeperSettle_dramOwn (s0 : State) : (keeperSettle s0 s).dramOwn = s.dramOwn := (congrArg State.dramOwn (keeperSettle_eq s s0) :)
@[simp] theorem keeperSettle_dramSystem (s0 : State) : (keeperSettle s0 s).dramSystem = s.dramSystem := (congrArg State.dramSystem (keeperSettle_eq s s0) :)
@[simp] theorem keeperSettle_interleave (s0 : State) : (keeperSettle s0 s).interleave = s.interleave := (congrArg State.interleave (keeperSettle_eq s s0) :)
@[simp] theorem keeperSettle_ctxBase (s0 : State) : (keeperSettle s0 s).ctxBase = s.ctxBase := (congrArg State.ctxBase (keeperSettle_eq s s0) :)
@[simp] theorem keeperSettle_ageLimit (s0 : State) : (keeperSettle s0 s).ageLimit = s.ageLimit := (congrArg State.ageLimit (keeperSettle_eq s s0) :)
@[simp] theorem keeperSettle_minMargin (s0 : State) : (keeperSettle s0 s).minMargin = s.minMargin := (congrArg State.minMargin (keeperSettle_eq s s0) :)
@[simp] theorem keeperSettle_trackH (s0 : State) : (keeperSettle s0 s).trackH = s.trackH := (congrArg State.trackH (keeperSettle_eq s s0) :)
@[simp] theorem keeperSettle_ceLimit (s0 : State) : (keeperSettle s0 s).ceLimit = s.ceLimit := (congrArg State.ceLimit (keeperSettle_eq s s0) :)
@[simp] theorem keeperSettle_scrubOn (s0 : State) : (keeperSettle s0 s).scrubOn = s.scrubOn := (congrArg State.scrubOn (keeperSettle_eq s s0) :)
@[simp] theorem keeperSettle_scrubPeriod (s0 : State) : (keeperSettle s0 s).scrubPeriod = s.scrubPeriod := (congrArg State.scrubPeriod (keeperSettle_eq s s0) :)
@[simp] theorem keeperSettle_auxs (s0 : State) : (keeperSettle s0 s).auxs = s.auxs := (congrArg State.auxs (keeperSettle_eq s s0) :)
@[simp] theorem keeperSettle_auxClrN (s0 : State) : (keeperSettle s0 s).auxClrN = s.auxClrN := (congrArg State.auxClrN (keeperSettle_eq s s0) :)
@[simp] theorem keeperSettle_jnl (s0 : State) : (keeperSettle s0 s).jnl = s.jnl := (congrArg State.jnl (keeperSettle_eq s s0) :)
@[simp] theorem keeperSettle_rpl (s0 : State) : (keeperSettle s0 s).rpl = s.rpl := (congrArg State.rpl (keeperSettle_eq s s0) :)
@[simp] theorem keeperSettle_bus (s0 : State) : (keeperSettle s0 s).bus = s.bus := (congrArg State.bus (keeperSettle_eq s s0) :)
@[simp] theorem keeperSettle_bulk (s0 : State) : (keeperSettle s0 s).bulk = s.bulk := (congrArg State.bulk (keeperSettle_eq s s0) :)
@[simp] theorem keeperSettle_free (s0 : State) : (keeperSettle s0 s).free = s.free := (congrArg State.free (keeperSettle_eq s s0) :)
@[simp] theorem keeperSettle_pending (s0 : State) : (keeperSettle s0 s).pending = s.pending := (congrArg State.pending (keeperSettle_eq s s0) :)

/-- `colSettle` changes nothing but the fields named here. -/
theorem colSettle_eq (s0 : State) :
    colSettle s0 s = { s with col := (colSettle s0 s).col } := by
  unfold colSettle; split <;> rfl

@[simp] theorem colSettle_dev (s0 : State) : (colSettle s0 s).dev = s.dev := (congrArg State.dev (colSettle_eq s s0) :)
@[simp] theorem colSettle_md (s0 : State) : (colSettle s0 s).md = s.md := (congrArg State.md (colSettle_eq s s0) :)
@[simp] theorem colSettle_time (s0 : State) : (colSettle s0 s).time = s.time := (congrArg State.time (colSettle_eq s s0) :)
@[simp] theorem colSettle_pace (s0 : State) : (colSettle s0 s).pace = s.pace := (congrArg State.pace (colSettle_eq s s0) :)
@[simp] theorem colSettle_kpr (s0 : State) : (colSettle s0 s).kpr = s.kpr := (congrArg State.kpr (colSettle_eq s s0) :)
@[simp] theorem colSettle_svc (s0 : State) : (colSettle s0 s).svc = s.svc := (congrArg State.svc (colSettle_eq s s0) :)
@[simp] theorem colSettle_sec (s0 : State) : (colSettle s0 s).sec = s.sec := (congrArg State.sec (colSettle_eq s s0) :)
@[simp] theorem colSettle_grave (s0 : State) : (colSettle s0 s).grave = s.grave := (congrArg State.grave (colSettle_eq s s0) :)
@[simp] theorem colSettle_faults (s0 : State) : (colSettle s0 s).faults = s.faults := (congrArg State.faults (colSettle_eq s s0) :)
@[simp] theorem colSettle_mailboxes (s0 : State) : (colSettle s0 s).mailboxes = s.mailboxes := (congrArg State.mailboxes (colSettle_eq s s0) :)
@[simp] theorem colSettle_contexts (s0 : State) : (colSettle s0 s).contexts = s.contexts := (congrArg State.contexts (colSettle_eq s s0) :)
@[simp] theorem colSettle_msix (s0 : State) : (colSettle s0 s).msix = s.msix := (congrArg State.msix (colSettle_eq s s0) :)
@[simp] theorem colSettle_msixOpen (s0 : State) : (colSettle s0 s).msixOpen = s.msixOpen := (congrArg State.msixOpen (colSettle_eq s s0) :)
@[simp] theorem colSettle_msixPba (s0 : State) : (colSettle s0 s).msixPba = s.msixPba := (congrArg State.msixPba (colSettle_eq s s0) :)
@[simp] theorem colSettle_msixTable (s0 : State) : (colSettle s0 s).msixTable = s.msixTable := (congrArg State.msixTable (colSettle_eq s s0) :)
@[simp] theorem colSettle_held (s0 : State) : (colSettle s0 s).held = s.held := (congrArg State.held (colSettle_eq s s0) :)
@[simp] theorem colSettle_works (s0 : State) : (colSettle s0 s).works = s.works := (congrArg State.works (colSettle_eq s s0) :)
@[simp] theorem colSettle_cells (s0 : State) : (colSettle s0 s).cells = s.cells := (congrArg State.cells (colSettle_eq s s0) :)
@[simp] theorem colSettle_cellOwn (s0 : State) : (colSettle s0 s).cellOwn = s.cellOwn := (congrArg State.cellOwn (colSettle_eq s s0) :)
@[simp] theorem colSettle_hives (s0 : State) : (colSettle s0 s).hives = s.hives := (congrArg State.hives (colSettle_eq s s0) :)
@[simp] theorem colSettle_comb (s0 : State) : (colSettle s0 s).comb = s.comb := (congrArg State.comb (colSettle_eq s s0) :)
@[simp] theorem colSettle_scratch (s0 : State) : (colSettle s0 s).scratch = s.scratch := (congrArg State.scratch (colSettle_eq s s0) :)
@[simp] theorem colSettle_inner (s0 : State) : (colSettle s0 s).inner = s.inner := (congrArg State.inner (colSettle_eq s s0) :)
@[simp] theorem colSettle_combUe (s0 : State) : (colSettle s0 s).combUe = s.combUe := (congrArg State.combUe (colSettle_eq s s0) :)
@[simp] theorem colSettle_combCe (s0 : State) : (colSettle s0 s).combCe = s.combCe := (congrArg State.combCe (colSettle_eq s s0) :)
@[simp] theorem colSettle_active (s0 : State) : (colSettle s0 s).active = s.active := (congrArg State.active (colSettle_eq s s0) :)
@[simp] theorem colSettle_combOwn (s0 : State) : (colSettle s0 s).combOwn = s.combOwn := (congrArg State.combOwn (colSettle_eq s s0) :)
@[simp] theorem colSettle_queues (s0 : State) : (colSettle s0 s).queues = s.queues := (congrArg State.queues (colSettle_eq s s0) :)
@[simp] theorem colSettle_doorbells (s0 : State) : (colSettle s0 s).doorbells = s.doorbells := (congrArg State.doorbells (colSettle_eq s s0) :)
@[simp] theorem colSettle_caps (s0 : State) : (colSettle s0 s).caps = s.caps := (congrArg State.caps (colSettle_eq s s0) :)
@[simp] theorem colSettle_chans (s0 : State) : (colSettle s0 s).chans = s.chans := (congrArg State.chans (colSettle_eq s s0) :)
@[simp] theorem colSettle_tasks (s0 : State) : (colSettle s0 s).tasks = s.tasks := (congrArg State.tasks (colSettle_eq s s0) :)
@[simp] theorem colSettle_counters (s0 : State) : (colSettle s0 s).counters = s.counters := (congrArg State.counters (colSettle_eq s s0) :)
@[simp] theorem colSettle_timers (s0 : State) : (colSettle s0 s).timers = s.timers := (congrArg State.timers (colSettle_eq s s0) :)
@[simp] theorem colSettle_pins (s0 : State) : (colSettle s0 s).pins = s.pins := (congrArg State.pins (colSettle_eq s s0) :)
@[simp] theorem colSettle_hops (s0 : State) : (colSettle s0 s).hops = s.hops := (congrArg State.hops (colSettle_eq s s0) :)
@[simp] theorem colSettle_wagEpoch (s0 : State) : (colSettle s0 s).wagEpoch = s.wagEpoch := (congrArg State.wagEpoch (colSettle_eq s s0) :)
@[simp] theorem colSettle_domains (s0 : State) : (colSettle s0 s).domains = s.domains := (congrArg State.domains (colSettle_eq s s0) :)
@[simp] theorem colSettle_links (s0 : State) : (colSettle s0 s).links = s.links := (congrArg State.links (colSettle_eq s s0) :)
@[simp] theorem colSettle_rxLanes (s0 : State) : (colSettle s0 s).rxLanes = s.rxLanes := (congrArg State.rxLanes (colSettle_eq s s0) :)
@[simp] theorem colSettle_dmcs (s0 : State) : (colSettle s0 s).dmcs = s.dmcs := (congrArg State.dmcs (colSettle_eq s s0) :)
@[simp] theorem colSettle_dram (s0 : State) : (colSettle s0 s).dram = s.dram := (congrArg State.dram (colSettle_eq s s0) :)
@[simp] theorem colSettle_dramUe (s0 : State) : (colSettle s0 s).dramUe = s.dramUe := (congrArg State.dramUe (colSettle_eq s s0) :)
@[simp] theorem colSettle_dramCe (s0 : State) : (colSettle s0 s).dramCe = s.dramCe := (congrArg State.dramCe (colSettle_eq s s0) :)
@[simp] theorem colSettle_dramOwn (s0 : State) : (colSettle s0 s).dramOwn = s.dramOwn := (congrArg State.dramOwn (colSettle_eq s s0) :)
@[simp] theorem colSettle_dramSystem (s0 : State) : (colSettle s0 s).dramSystem = s.dramSystem := (congrArg State.dramSystem (colSettle_eq s s0) :)
@[simp] theorem colSettle_interleave (s0 : State) : (colSettle s0 s).interleave = s.interleave := (congrArg State.interleave (colSettle_eq s s0) :)
@[simp] theorem colSettle_ctxBase (s0 : State) : (colSettle s0 s).ctxBase = s.ctxBase := (congrArg State.ctxBase (colSettle_eq s s0) :)
@[simp] theorem colSettle_ageLimit (s0 : State) : (colSettle s0 s).ageLimit = s.ageLimit := (congrArg State.ageLimit (colSettle_eq s s0) :)
@[simp] theorem colSettle_minMargin (s0 : State) : (colSettle s0 s).minMargin = s.minMargin := (congrArg State.minMargin (colSettle_eq s s0) :)
@[simp] theorem colSettle_trackH (s0 : State) : (colSettle s0 s).trackH = s.trackH := (congrArg State.trackH (colSettle_eq s s0) :)
@[simp] theorem colSettle_ceLimit (s0 : State) : (colSettle s0 s).ceLimit = s.ceLimit := (congrArg State.ceLimit (colSettle_eq s s0) :)
@[simp] theorem colSettle_scrubOn (s0 : State) : (colSettle s0 s).scrubOn = s.scrubOn := (congrArg State.scrubOn (colSettle_eq s s0) :)
@[simp] theorem colSettle_scrubPeriod (s0 : State) : (colSettle s0 s).scrubPeriod = s.scrubPeriod := (congrArg State.scrubPeriod (colSettle_eq s s0) :)
@[simp] theorem colSettle_auxs (s0 : State) : (colSettle s0 s).auxs = s.auxs := (congrArg State.auxs (colSettle_eq s s0) :)
@[simp] theorem colSettle_auxClrN (s0 : State) : (colSettle s0 s).auxClrN = s.auxClrN := (congrArg State.auxClrN (colSettle_eq s s0) :)
@[simp] theorem colSettle_jnl (s0 : State) : (colSettle s0 s).jnl = s.jnl := (congrArg State.jnl (colSettle_eq s s0) :)
@[simp] theorem colSettle_rpl (s0 : State) : (colSettle s0 s).rpl = s.rpl := (congrArg State.rpl (colSettle_eq s s0) :)
@[simp] theorem colSettle_bus (s0 : State) : (colSettle s0 s).bus = s.bus := (congrArg State.bus (colSettle_eq s s0) :)
@[simp] theorem colSettle_bulk (s0 : State) : (colSettle s0 s).bulk = s.bulk := (congrArg State.bulk (colSettle_eq s s0) :)
@[simp] theorem colSettle_free (s0 : State) : (colSettle s0 s).free = s.free := (congrArg State.free (colSettle_eq s s0) :)
@[simp] theorem colSettle_pending (s0 : State) : (colSettle s0 s).pending = s.pending := (congrArg State.pending (colSettle_eq s s0) :)

/-- `secSettle` changes nothing but the fields named here. -/
theorem secSettle_eq (s0 : State) :
    secSettle s0 s = { s with sec := (secSettle s0 s).sec } := by
  unfold secSettle; dsimp only; split <;> split <;> rfl

@[simp] theorem secSettle_dev (s0 : State) : (secSettle s0 s).dev = s.dev := (congrArg State.dev (secSettle_eq s s0) :)
@[simp] theorem secSettle_md (s0 : State) : (secSettle s0 s).md = s.md := (congrArg State.md (secSettle_eq s s0) :)
@[simp] theorem secSettle_time (s0 : State) : (secSettle s0 s).time = s.time := (congrArg State.time (secSettle_eq s s0) :)
@[simp] theorem secSettle_pace (s0 : State) : (secSettle s0 s).pace = s.pace := (congrArg State.pace (secSettle_eq s s0) :)
@[simp] theorem secSettle_kpr (s0 : State) : (secSettle s0 s).kpr = s.kpr := (congrArg State.kpr (secSettle_eq s s0) :)
@[simp] theorem secSettle_svc (s0 : State) : (secSettle s0 s).svc = s.svc := (congrArg State.svc (secSettle_eq s s0) :)
@[simp] theorem secSettle_grave (s0 : State) : (secSettle s0 s).grave = s.grave := (congrArg State.grave (secSettle_eq s s0) :)
@[simp] theorem secSettle_faults (s0 : State) : (secSettle s0 s).faults = s.faults := (congrArg State.faults (secSettle_eq s s0) :)
@[simp] theorem secSettle_mailboxes (s0 : State) : (secSettle s0 s).mailboxes = s.mailboxes := (congrArg State.mailboxes (secSettle_eq s s0) :)
@[simp] theorem secSettle_contexts (s0 : State) : (secSettle s0 s).contexts = s.contexts := (congrArg State.contexts (secSettle_eq s s0) :)
@[simp] theorem secSettle_msix (s0 : State) : (secSettle s0 s).msix = s.msix := (congrArg State.msix (secSettle_eq s s0) :)
@[simp] theorem secSettle_msixOpen (s0 : State) : (secSettle s0 s).msixOpen = s.msixOpen := (congrArg State.msixOpen (secSettle_eq s s0) :)
@[simp] theorem secSettle_msixPba (s0 : State) : (secSettle s0 s).msixPba = s.msixPba := (congrArg State.msixPba (secSettle_eq s s0) :)
@[simp] theorem secSettle_msixTable (s0 : State) : (secSettle s0 s).msixTable = s.msixTable := (congrArg State.msixTable (secSettle_eq s s0) :)
@[simp] theorem secSettle_held (s0 : State) : (secSettle s0 s).held = s.held := (congrArg State.held (secSettle_eq s s0) :)
@[simp] theorem secSettle_works (s0 : State) : (secSettle s0 s).works = s.works := (congrArg State.works (secSettle_eq s s0) :)
@[simp] theorem secSettle_cells (s0 : State) : (secSettle s0 s).cells = s.cells := (congrArg State.cells (secSettle_eq s s0) :)
@[simp] theorem secSettle_cellOwn (s0 : State) : (secSettle s0 s).cellOwn = s.cellOwn := (congrArg State.cellOwn (secSettle_eq s s0) :)
@[simp] theorem secSettle_hives (s0 : State) : (secSettle s0 s).hives = s.hives := (congrArg State.hives (secSettle_eq s s0) :)
@[simp] theorem secSettle_comb (s0 : State) : (secSettle s0 s).comb = s.comb := (congrArg State.comb (secSettle_eq s s0) :)
@[simp] theorem secSettle_scratch (s0 : State) : (secSettle s0 s).scratch = s.scratch := (congrArg State.scratch (secSettle_eq s s0) :)
@[simp] theorem secSettle_inner (s0 : State) : (secSettle s0 s).inner = s.inner := (congrArg State.inner (secSettle_eq s s0) :)
@[simp] theorem secSettle_combUe (s0 : State) : (secSettle s0 s).combUe = s.combUe := (congrArg State.combUe (secSettle_eq s s0) :)
@[simp] theorem secSettle_combCe (s0 : State) : (secSettle s0 s).combCe = s.combCe := (congrArg State.combCe (secSettle_eq s s0) :)
@[simp] theorem secSettle_active (s0 : State) : (secSettle s0 s).active = s.active := (congrArg State.active (secSettle_eq s s0) :)
@[simp] theorem secSettle_combOwn (s0 : State) : (secSettle s0 s).combOwn = s.combOwn := (congrArg State.combOwn (secSettle_eq s s0) :)
@[simp] theorem secSettle_queues (s0 : State) : (secSettle s0 s).queues = s.queues := (congrArg State.queues (secSettle_eq s s0) :)
@[simp] theorem secSettle_doorbells (s0 : State) : (secSettle s0 s).doorbells = s.doorbells := (congrArg State.doorbells (secSettle_eq s s0) :)
@[simp] theorem secSettle_caps (s0 : State) : (secSettle s0 s).caps = s.caps := (congrArg State.caps (secSettle_eq s s0) :)
@[simp] theorem secSettle_chans (s0 : State) : (secSettle s0 s).chans = s.chans := (congrArg State.chans (secSettle_eq s s0) :)
@[simp] theorem secSettle_tasks (s0 : State) : (secSettle s0 s).tasks = s.tasks := (congrArg State.tasks (secSettle_eq s s0) :)
@[simp] theorem secSettle_counters (s0 : State) : (secSettle s0 s).counters = s.counters := (congrArg State.counters (secSettle_eq s s0) :)
@[simp] theorem secSettle_timers (s0 : State) : (secSettle s0 s).timers = s.timers := (congrArg State.timers (secSettle_eq s s0) :)
@[simp] theorem secSettle_pins (s0 : State) : (secSettle s0 s).pins = s.pins := (congrArg State.pins (secSettle_eq s s0) :)
@[simp] theorem secSettle_hops (s0 : State) : (secSettle s0 s).hops = s.hops := (congrArg State.hops (secSettle_eq s s0) :)
@[simp] theorem secSettle_wagEpoch (s0 : State) : (secSettle s0 s).wagEpoch = s.wagEpoch := (congrArg State.wagEpoch (secSettle_eq s s0) :)
@[simp] theorem secSettle_domains (s0 : State) : (secSettle s0 s).domains = s.domains := (congrArg State.domains (secSettle_eq s s0) :)
@[simp] theorem secSettle_col (s0 : State) : (secSettle s0 s).col = s.col := (congrArg State.col (secSettle_eq s s0) :)
@[simp] theorem secSettle_links (s0 : State) : (secSettle s0 s).links = s.links := (congrArg State.links (secSettle_eq s s0) :)
@[simp] theorem secSettle_rxLanes (s0 : State) : (secSettle s0 s).rxLanes = s.rxLanes := (congrArg State.rxLanes (secSettle_eq s s0) :)
@[simp] theorem secSettle_dmcs (s0 : State) : (secSettle s0 s).dmcs = s.dmcs := (congrArg State.dmcs (secSettle_eq s s0) :)
@[simp] theorem secSettle_dram (s0 : State) : (secSettle s0 s).dram = s.dram := (congrArg State.dram (secSettle_eq s s0) :)
@[simp] theorem secSettle_dramUe (s0 : State) : (secSettle s0 s).dramUe = s.dramUe := (congrArg State.dramUe (secSettle_eq s s0) :)
@[simp] theorem secSettle_dramCe (s0 : State) : (secSettle s0 s).dramCe = s.dramCe := (congrArg State.dramCe (secSettle_eq s s0) :)
@[simp] theorem secSettle_dramOwn (s0 : State) : (secSettle s0 s).dramOwn = s.dramOwn := (congrArg State.dramOwn (secSettle_eq s s0) :)
@[simp] theorem secSettle_dramSystem (s0 : State) : (secSettle s0 s).dramSystem = s.dramSystem := (congrArg State.dramSystem (secSettle_eq s s0) :)
@[simp] theorem secSettle_interleave (s0 : State) : (secSettle s0 s).interleave = s.interleave := (congrArg State.interleave (secSettle_eq s s0) :)
@[simp] theorem secSettle_ctxBase (s0 : State) : (secSettle s0 s).ctxBase = s.ctxBase := (congrArg State.ctxBase (secSettle_eq s s0) :)
@[simp] theorem secSettle_ageLimit (s0 : State) : (secSettle s0 s).ageLimit = s.ageLimit := (congrArg State.ageLimit (secSettle_eq s s0) :)
@[simp] theorem secSettle_minMargin (s0 : State) : (secSettle s0 s).minMargin = s.minMargin := (congrArg State.minMargin (secSettle_eq s s0) :)
@[simp] theorem secSettle_trackH (s0 : State) : (secSettle s0 s).trackH = s.trackH := (congrArg State.trackH (secSettle_eq s s0) :)
@[simp] theorem secSettle_ceLimit (s0 : State) : (secSettle s0 s).ceLimit = s.ceLimit := (congrArg State.ceLimit (secSettle_eq s s0) :)
@[simp] theorem secSettle_scrubOn (s0 : State) : (secSettle s0 s).scrubOn = s.scrubOn := (congrArg State.scrubOn (secSettle_eq s s0) :)
@[simp] theorem secSettle_scrubPeriod (s0 : State) : (secSettle s0 s).scrubPeriod = s.scrubPeriod := (congrArg State.scrubPeriod (secSettle_eq s s0) :)
@[simp] theorem secSettle_auxs (s0 : State) : (secSettle s0 s).auxs = s.auxs := (congrArg State.auxs (secSettle_eq s s0) :)
@[simp] theorem secSettle_auxClrN (s0 : State) : (secSettle s0 s).auxClrN = s.auxClrN := (congrArg State.auxClrN (secSettle_eq s s0) :)
@[simp] theorem secSettle_jnl (s0 : State) : (secSettle s0 s).jnl = s.jnl := (congrArg State.jnl (secSettle_eq s s0) :)
@[simp] theorem secSettle_rpl (s0 : State) : (secSettle s0 s).rpl = s.rpl := (congrArg State.rpl (secSettle_eq s s0) :)
@[simp] theorem secSettle_bus (s0 : State) : (secSettle s0 s).bus = s.bus := (congrArg State.bus (secSettle_eq s s0) :)
@[simp] theorem secSettle_bulk (s0 : State) : (secSettle s0 s).bulk = s.bulk := (congrArg State.bulk (secSettle_eq s s0) :)
@[simp] theorem secSettle_free (s0 : State) : (secSettle s0 s).free = s.free := (congrArg State.free (secSettle_eq s s0) :)
@[simp] theorem secSettle_pending (s0 : State) : (secSettle s0 s).pending = s.pending := (congrArg State.pending (secSettle_eq s s0) :)

/-- `stateCause` changes nothing but the fields named here. -/
theorem stateCause_eq (s0 : State) :
    stateCause s0 s = { s with contexts := (stateCause s0 s).contexts, msix := (stateCause s0 s).msix, msixPba := (stateCause s0 s).msixPba } := by
  unfold stateCause; split
  · rfl
  · exact irqState_eq s

@[simp] theorem stateCause_dev (s0 : State) : (stateCause s0 s).dev = s.dev := (congrArg State.dev (stateCause_eq s s0) :)
@[simp] theorem stateCause_md (s0 : State) : (stateCause s0 s).md = s.md := (congrArg State.md (stateCause_eq s s0) :)
@[simp] theorem stateCause_time (s0 : State) : (stateCause s0 s).time = s.time := (congrArg State.time (stateCause_eq s s0) :)
@[simp] theorem stateCause_pace (s0 : State) : (stateCause s0 s).pace = s.pace := (congrArg State.pace (stateCause_eq s s0) :)
@[simp] theorem stateCause_kpr (s0 : State) : (stateCause s0 s).kpr = s.kpr := (congrArg State.kpr (stateCause_eq s s0) :)
@[simp] theorem stateCause_svc (s0 : State) : (stateCause s0 s).svc = s.svc := (congrArg State.svc (stateCause_eq s s0) :)
@[simp] theorem stateCause_sec (s0 : State) : (stateCause s0 s).sec = s.sec := (congrArg State.sec (stateCause_eq s s0) :)
@[simp] theorem stateCause_grave (s0 : State) : (stateCause s0 s).grave = s.grave := (congrArg State.grave (stateCause_eq s s0) :)
@[simp] theorem stateCause_faults (s0 : State) : (stateCause s0 s).faults = s.faults := (congrArg State.faults (stateCause_eq s s0) :)
@[simp] theorem stateCause_mailboxes (s0 : State) : (stateCause s0 s).mailboxes = s.mailboxes := (congrArg State.mailboxes (stateCause_eq s s0) :)
@[simp] theorem stateCause_msixOpen (s0 : State) : (stateCause s0 s).msixOpen = s.msixOpen := (congrArg State.msixOpen (stateCause_eq s s0) :)
@[simp] theorem stateCause_msixTable (s0 : State) : (stateCause s0 s).msixTable = s.msixTable := (congrArg State.msixTable (stateCause_eq s s0) :)
@[simp] theorem stateCause_held (s0 : State) : (stateCause s0 s).held = s.held := (congrArg State.held (stateCause_eq s s0) :)
@[simp] theorem stateCause_works (s0 : State) : (stateCause s0 s).works = s.works := (congrArg State.works (stateCause_eq s s0) :)
@[simp] theorem stateCause_cells (s0 : State) : (stateCause s0 s).cells = s.cells := (congrArg State.cells (stateCause_eq s s0) :)
@[simp] theorem stateCause_cellOwn (s0 : State) : (stateCause s0 s).cellOwn = s.cellOwn := (congrArg State.cellOwn (stateCause_eq s s0) :)
@[simp] theorem stateCause_hives (s0 : State) : (stateCause s0 s).hives = s.hives := (congrArg State.hives (stateCause_eq s s0) :)
@[simp] theorem stateCause_comb (s0 : State) : (stateCause s0 s).comb = s.comb := (congrArg State.comb (stateCause_eq s s0) :)
@[simp] theorem stateCause_scratch (s0 : State) : (stateCause s0 s).scratch = s.scratch := (congrArg State.scratch (stateCause_eq s s0) :)
@[simp] theorem stateCause_inner (s0 : State) : (stateCause s0 s).inner = s.inner := (congrArg State.inner (stateCause_eq s s0) :)
@[simp] theorem stateCause_combUe (s0 : State) : (stateCause s0 s).combUe = s.combUe := (congrArg State.combUe (stateCause_eq s s0) :)
@[simp] theorem stateCause_combCe (s0 : State) : (stateCause s0 s).combCe = s.combCe := (congrArg State.combCe (stateCause_eq s s0) :)
@[simp] theorem stateCause_active (s0 : State) : (stateCause s0 s).active = s.active := (congrArg State.active (stateCause_eq s s0) :)
@[simp] theorem stateCause_combOwn (s0 : State) : (stateCause s0 s).combOwn = s.combOwn := (congrArg State.combOwn (stateCause_eq s s0) :)
@[simp] theorem stateCause_queues (s0 : State) : (stateCause s0 s).queues = s.queues := (congrArg State.queues (stateCause_eq s s0) :)
@[simp] theorem stateCause_doorbells (s0 : State) : (stateCause s0 s).doorbells = s.doorbells := (congrArg State.doorbells (stateCause_eq s s0) :)
@[simp] theorem stateCause_caps (s0 : State) : (stateCause s0 s).caps = s.caps := (congrArg State.caps (stateCause_eq s s0) :)
@[simp] theorem stateCause_chans (s0 : State) : (stateCause s0 s).chans = s.chans := (congrArg State.chans (stateCause_eq s s0) :)
@[simp] theorem stateCause_tasks (s0 : State) : (stateCause s0 s).tasks = s.tasks := (congrArg State.tasks (stateCause_eq s s0) :)
@[simp] theorem stateCause_counters (s0 : State) : (stateCause s0 s).counters = s.counters := (congrArg State.counters (stateCause_eq s s0) :)
@[simp] theorem stateCause_timers (s0 : State) : (stateCause s0 s).timers = s.timers := (congrArg State.timers (stateCause_eq s s0) :)
@[simp] theorem stateCause_pins (s0 : State) : (stateCause s0 s).pins = s.pins := (congrArg State.pins (stateCause_eq s s0) :)
@[simp] theorem stateCause_hops (s0 : State) : (stateCause s0 s).hops = s.hops := (congrArg State.hops (stateCause_eq s s0) :)
@[simp] theorem stateCause_wagEpoch (s0 : State) : (stateCause s0 s).wagEpoch = s.wagEpoch := (congrArg State.wagEpoch (stateCause_eq s s0) :)
@[simp] theorem stateCause_domains (s0 : State) : (stateCause s0 s).domains = s.domains := (congrArg State.domains (stateCause_eq s s0) :)
@[simp] theorem stateCause_col (s0 : State) : (stateCause s0 s).col = s.col := (congrArg State.col (stateCause_eq s s0) :)
@[simp] theorem stateCause_links (s0 : State) : (stateCause s0 s).links = s.links := (congrArg State.links (stateCause_eq s s0) :)
@[simp] theorem stateCause_rxLanes (s0 : State) : (stateCause s0 s).rxLanes = s.rxLanes := (congrArg State.rxLanes (stateCause_eq s s0) :)
@[simp] theorem stateCause_dmcs (s0 : State) : (stateCause s0 s).dmcs = s.dmcs := (congrArg State.dmcs (stateCause_eq s s0) :)
@[simp] theorem stateCause_dram (s0 : State) : (stateCause s0 s).dram = s.dram := (congrArg State.dram (stateCause_eq s s0) :)
@[simp] theorem stateCause_dramUe (s0 : State) : (stateCause s0 s).dramUe = s.dramUe := (congrArg State.dramUe (stateCause_eq s s0) :)
@[simp] theorem stateCause_dramCe (s0 : State) : (stateCause s0 s).dramCe = s.dramCe := (congrArg State.dramCe (stateCause_eq s s0) :)
@[simp] theorem stateCause_dramOwn (s0 : State) : (stateCause s0 s).dramOwn = s.dramOwn := (congrArg State.dramOwn (stateCause_eq s s0) :)
@[simp] theorem stateCause_dramSystem (s0 : State) : (stateCause s0 s).dramSystem = s.dramSystem := (congrArg State.dramSystem (stateCause_eq s s0) :)
@[simp] theorem stateCause_interleave (s0 : State) : (stateCause s0 s).interleave = s.interleave := (congrArg State.interleave (stateCause_eq s s0) :)
@[simp] theorem stateCause_ctxBase (s0 : State) : (stateCause s0 s).ctxBase = s.ctxBase := (congrArg State.ctxBase (stateCause_eq s s0) :)
@[simp] theorem stateCause_ageLimit (s0 : State) : (stateCause s0 s).ageLimit = s.ageLimit := (congrArg State.ageLimit (stateCause_eq s s0) :)
@[simp] theorem stateCause_minMargin (s0 : State) : (stateCause s0 s).minMargin = s.minMargin := (congrArg State.minMargin (stateCause_eq s s0) :)
@[simp] theorem stateCause_trackH (s0 : State) : (stateCause s0 s).trackH = s.trackH := (congrArg State.trackH (stateCause_eq s s0) :)
@[simp] theorem stateCause_ceLimit (s0 : State) : (stateCause s0 s).ceLimit = s.ceLimit := (congrArg State.ceLimit (stateCause_eq s s0) :)
@[simp] theorem stateCause_scrubOn (s0 : State) : (stateCause s0 s).scrubOn = s.scrubOn := (congrArg State.scrubOn (stateCause_eq s s0) :)
@[simp] theorem stateCause_scrubPeriod (s0 : State) : (stateCause s0 s).scrubPeriod = s.scrubPeriod := (congrArg State.scrubPeriod (stateCause_eq s s0) :)
@[simp] theorem stateCause_auxs (s0 : State) : (stateCause s0 s).auxs = s.auxs := (congrArg State.auxs (stateCause_eq s s0) :)
@[simp] theorem stateCause_auxClrN (s0 : State) : (stateCause s0 s).auxClrN = s.auxClrN := (congrArg State.auxClrN (stateCause_eq s s0) :)
@[simp] theorem stateCause_jnl (s0 : State) : (stateCause s0 s).jnl = s.jnl := (congrArg State.jnl (stateCause_eq s s0) :)
@[simp] theorem stateCause_rpl (s0 : State) : (stateCause s0 s).rpl = s.rpl := (congrArg State.rpl (stateCause_eq s s0) :)
@[simp] theorem stateCause_bus (s0 : State) : (stateCause s0 s).bus = s.bus := (congrArg State.bus (stateCause_eq s s0) :)
@[simp] theorem stateCause_bulk (s0 : State) : (stateCause s0 s).bulk = s.bulk := (congrArg State.bulk (stateCause_eq s s0) :)
@[simp] theorem stateCause_free (s0 : State) : (stateCause s0 s).free = s.free := (congrArg State.free (stateCause_eq s s0) :)
@[simp] theorem stateCause_pending (s0 : State) : (stateCause s0 s).pending = s.pending := (congrArg State.pending (stateCause_eq s s0) :)

@[simp] theorem settle_dev (s0 : State) : (settle s0 s).dev = s.dev := by simp [settle]
@[simp] theorem settle_time (s0 : State) : (settle s0 s).time = s.time := by simp [settle]
@[simp] theorem settle_pace (s0 : State) : (settle s0 s).pace = s.pace := by simp [settle]
@[simp] theorem settle_svc (s0 : State) : (settle s0 s).svc = s.svc := by simp [settle]
@[simp] theorem settle_grave (s0 : State) : (settle s0 s).grave = s.grave := by simp [settle]
@[simp] theorem settle_faults (s0 : State) : (settle s0 s).faults = s.faults := by simp [settle]
@[simp] theorem settle_mailboxes (s0 : State) : (settle s0 s).mailboxes = s.mailboxes := by simp [settle]
@[simp] theorem settle_msixOpen (s0 : State) : (settle s0 s).msixOpen = s.msixOpen := by simp [settle]
@[simp] theorem settle_msixTable (s0 : State) : (settle s0 s).msixTable = s.msixTable := by simp [settle]
@[simp] theorem settle_held (s0 : State) : (settle s0 s).held = s.held := by simp [settle]
@[simp] theorem settle_works (s0 : State) : (settle s0 s).works = s.works := by simp [settle]
@[simp] theorem settle_cells (s0 : State) : (settle s0 s).cells = s.cells := by simp [settle]
@[simp] theorem settle_cellOwn (s0 : State) : (settle s0 s).cellOwn = s.cellOwn := by simp [settle]
@[simp] theorem settle_hives (s0 : State) : (settle s0 s).hives = s.hives := by simp [settle]
@[simp] theorem settle_comb (s0 : State) : (settle s0 s).comb = s.comb := by simp [settle]
@[simp] theorem settle_scratch (s0 : State) : (settle s0 s).scratch = s.scratch := by simp [settle]
@[simp] theorem settle_inner (s0 : State) : (settle s0 s).inner = s.inner := by simp [settle]
@[simp] theorem settle_combUe (s0 : State) : (settle s0 s).combUe = s.combUe := by simp [settle]
@[simp] theorem settle_combCe (s0 : State) : (settle s0 s).combCe = s.combCe := by simp [settle]
@[simp] theorem settle_active (s0 : State) : (settle s0 s).active = s.active := by simp [settle]
@[simp] theorem settle_combOwn (s0 : State) : (settle s0 s).combOwn = s.combOwn := by simp [settle]
@[simp] theorem settle_queues (s0 : State) : (settle s0 s).queues = s.queues := by simp [settle]
@[simp] theorem settle_doorbells (s0 : State) : (settle s0 s).doorbells = s.doorbells := by simp [settle]
@[simp] theorem settle_caps (s0 : State) : (settle s0 s).caps = s.caps := by simp [settle]
@[simp] theorem settle_chans (s0 : State) : (settle s0 s).chans = s.chans := by simp [settle]
@[simp] theorem settle_tasks (s0 : State) : (settle s0 s).tasks = s.tasks := by simp [settle]
@[simp] theorem settle_counters (s0 : State) : (settle s0 s).counters = s.counters := by simp [settle]
@[simp] theorem settle_timers (s0 : State) : (settle s0 s).timers = s.timers := by simp [settle]
@[simp] theorem settle_pins (s0 : State) : (settle s0 s).pins = s.pins := by simp [settle]
@[simp] theorem settle_hops (s0 : State) : (settle s0 s).hops = s.hops := by simp [settle]
@[simp] theorem settle_wagEpoch (s0 : State) : (settle s0 s).wagEpoch = s.wagEpoch := by simp [settle]
@[simp] theorem settle_domains (s0 : State) : (settle s0 s).domains = s.domains := by simp [settle]
@[simp] theorem settle_links (s0 : State) : (settle s0 s).links = s.links := by simp [settle]
@[simp] theorem settle_rxLanes (s0 : State) : (settle s0 s).rxLanes = s.rxLanes := by simp [settle]
@[simp] theorem settle_dmcs (s0 : State) : (settle s0 s).dmcs = s.dmcs := by simp [settle]
@[simp] theorem settle_dram (s0 : State) : (settle s0 s).dram = s.dram := by simp [settle]
@[simp] theorem settle_dramUe (s0 : State) : (settle s0 s).dramUe = s.dramUe := by simp [settle]
@[simp] theorem settle_dramCe (s0 : State) : (settle s0 s).dramCe = s.dramCe := by simp [settle]
@[simp] theorem settle_dramOwn (s0 : State) : (settle s0 s).dramOwn = s.dramOwn := by simp [settle]
@[simp] theorem settle_dramSystem (s0 : State) : (settle s0 s).dramSystem = s.dramSystem := by simp [settle]
@[simp] theorem settle_interleave (s0 : State) : (settle s0 s).interleave = s.interleave := by simp [settle]
@[simp] theorem settle_ctxBase (s0 : State) : (settle s0 s).ctxBase = s.ctxBase := by simp [settle]
@[simp] theorem settle_ageLimit (s0 : State) : (settle s0 s).ageLimit = s.ageLimit := by simp [settle]
@[simp] theorem settle_minMargin (s0 : State) : (settle s0 s).minMargin = s.minMargin := by simp [settle]
@[simp] theorem settle_trackH (s0 : State) : (settle s0 s).trackH = s.trackH := by simp [settle]
@[simp] theorem settle_ceLimit (s0 : State) : (settle s0 s).ceLimit = s.ceLimit := by simp [settle]
@[simp] theorem settle_scrubOn (s0 : State) : (settle s0 s).scrubOn = s.scrubOn := by simp [settle]
@[simp] theorem settle_scrubPeriod (s0 : State) : (settle s0 s).scrubPeriod = s.scrubPeriod := by simp [settle]
@[simp] theorem settle_auxs (s0 : State) : (settle s0 s).auxs = s.auxs := by simp [settle]
@[simp] theorem settle_auxClrN (s0 : State) : (settle s0 s).auxClrN = s.auxClrN := by simp [settle]
@[simp] theorem settle_jnl (s0 : State) : (settle s0 s).jnl = s.jnl := by simp [settle]
@[simp] theorem settle_rpl (s0 : State) : (settle s0 s).rpl = s.rpl := by simp [settle]
@[simp] theorem settle_bus (s0 : State) : (settle s0 s).bus = s.bus := by simp [settle]
@[simp] theorem settle_bulk (s0 : State) : (settle s0 s).bulk = s.bulk := by simp [settle]
@[simp] theorem settle_free (s0 : State) : (settle s0 s).free = s.free := by simp [settle]

end Sys2Proof.Laws
end

