-- ==== Sys2Proof/Laws/Frames.lean ====
section
/-! SUPPORT. Frames: how they compose, what settling after a step leaves, how a step runs, how a decision runs. -/

namespace Sys2Proof.Safety

open Sys2Proof Sys2Proof.Machine

variable {s t u : State} {l m : List Part}

/-- A frame says the same of a longer list of excepted parts. -/
theorem SameBut.mono (h : SameBut l s t) (hl : ∀ p ∈ l, p ∈ m) : SameBut m s t :=
  ⟨fun p hp => h.same p fun hq => hp (hl p hq)⟩

/-- Each part is the same in a state as in itself. -/
theorem Part.same_refl (p : Part) (s : State) : p.Same s s := by cases p <;> simp [Part.Same]

/-- Sameness of a part composes. -/
theorem Part.same_trans {p : Part} (h : p.Same s t) (h' : p.Same t u) : p.Same s u := by
  cases p <;> simp only [Part.Same] at * <;> first
    | exact h'.trans h
    | (rw [h', h])
    | exact ⟨h'.1.trans h.1, h'.2.trans h.2⟩
    | exact ⟨h'.1.trans h.1, fun k => by rw [h'.2 k, h.2 k]⟩
    | (obtain ⟨a1, a2, a3, a4, a5, a6, a7, a8, a9⟩ := h
       obtain ⟨b1, b2, b3, b4, b5, b6, b7, b8, b9⟩ := h'
       exact ⟨b1.trans a1, b2.trans a2, b3.trans a3, b4.trans a4, b5.trans a5, b6.trans a6, b7.trans a7, b8.trans a8,
         b9.trans a9⟩)

theorem SameBut.refl (l : List Part) (s : State) : SameBut l s s := ⟨fun p _ => Part.same_refl p s⟩

/-- Frames compose. -/
theorem SameBut.trans (h : SameBut l s t) (h' : SameBut l t u) : SameBut l s u :=
  ⟨fun p hp => Part.same_trans (h.same p hp) (h'.same p hp)⟩

end Sys2Proof.Safety

namespace Sys2Proof.Laws

open Sys2Proof Sys2Proof.Machine Sys2Proof.Safety

variable {s t u : State} {l m : List Part}

/-! ### Contexts under interrupts -/

/-- An interrupt cause sets a bit of `CTX_IRQ_STATUS` of one context; its other settings stay. -/
theorem ctxAt_irq (s : State) (k j : Nat) {b : Nat} (hb : b < 32) :
    ctxAt (irq s k b) j = { ctxAt s j with irqStatus := (ctxAt (irq s k b) j).irqStatus } := by
  have e : (irq s k b).contexts = s.contexts ∨
      (irq s k b).contexts =
        tset {} s.contexts k { ctxAt s k with irqStatus := (ctxAt s k).irqStatus ||| BitVec.ofNat 32 (2 ^ b) } := by
    unfold irq; dsimp only; (repeat' split) <;> simp
  rcases e with e | e
  · simp [ctxAt, e]
  · by_cases hj : j = k
    · subst hj
      have hne : ({ ctxAt s j with irqStatus := (ctxAt s j).irqStatus ||| BitVec.ofNat 32 (2 ^ b) } : Context) ≠ {} := by
        intro h
        have h1 : (ctxAt s j).irqStatus ||| BitVec.ofNat 32 (2 ^ b) = 0#32 := congrArg Context.irqStatus h
        have h2 : (BitVec.ofNat 32 (2 ^ b)).getLsbD b = true := by
          rw [BitVec.getLsbD_ofNat]; simp [hb, Nat.testBit_two_pow_self]
        have h3 := congrArg (fun w => w.getLsbD b) h1
        simp only [BitVec.getLsbD_or, h2, Bool.or_true] at h3
        simp at h3
      have h4 := tget_tset_ne s.contexts j hne
      rw [← e] at h4
      rw [show ctxAt (irq s j b) j = _ from h4]
    · simp [ctxAt, e, tget_tset_other _ _ hj]

theorem ctxAt_irqState (s : State) (j : Nat) :
    ctxAt (irqState s) j = { ctxAt s j with irqStatus := (ctxAt (irqState s) j).irqStatus } := by
  unfold irqState
  apply forUp_keeps (P := fun x => ctxAt x j = { ctxAt s j with irqStatus := (ctxAt x j).irqStatus })
  · intro i x h
    rw [ctxAt_irq x i j (by omega), h]
  · rfl

theorem settle_md (s0 s : State) : (settle s0 s).md = { s.md with epoch := (settle s0 s).md.epoch } := by
  have h : (settle s0 s).md = (modeSettle s0 s).md := by simp [settle]
  rw [h]; unfold modeSettle; split <;> rfl

theorem settle_kpr (s0 s : State) :
    (settle s0 s).kpr = { s.kpr with readyEpoch := (settle s0 s).kpr.readyEpoch, epoch := (settle s0 s).kpr.epoch } := by
  have h : (settle s0 s).kpr = (keeperSettle s0 (readySettle s0 (modeSettle s0 s))).kpr := by simp [settle]
  rw [h]; unfold keeperSettle readySettle modeSettle; dsimp only; (repeat' split) <;> rfl

theorem settle_col (s0 s : State) : (settle s0 s).col = { s.col with epoch := (settle s0 s).col.epoch } := by
  have h : (settle s0 s).col = (colSettle s0 (keeperSettle s0 (readySettle s0 (modeSettle s0 s)))).col := by simp [settle]
  rw [h]; unfold colSettle; split <;> simp

theorem settle_sec (s0 s : State) :
    (settle s0 s).sec = { s.sec with epoch := (settle s0 s).sec.epoch, pwrEpoch := (settle s0 s).sec.pwrEpoch } := by
  have h : (settle s0 s).sec = (secSettle s0 (colSettle s0 (keeperSettle s0 (readySettle s0 (modeSettle s0 s))))).sec := by
    simp [settle]
  rw [h]; unfold secSettle; dsimp only; split <;> split <;> simp

theorem ctxAt_settle (s0 s : State) (j : Nat) :
    ctxAt (settle s0 s) j = { ctxAt s j with irqStatus := (ctxAt (settle s0 s) j).irqStatus } := by
  have h : ∀ u : State, ctxAt (stateCause s0 u) j = { ctxAt u j with irqStatus := (ctxAt (stateCause s0 u) j).irqStatus } := by
    intro u; unfold stateCause; split
    · rfl
    · exact ctxAt_irqState u j
  have e : ctxAt (secSettle s0 (colSettle s0 (keeperSettle s0 (readySettle s0 (modeSettle s0 s))))) j = ctxAt s j := by
    simp [ctxAt]
  have g : ctxAt (settle s0 s) j =
      ctxAt (stateCause s0 (secSettle s0 (colSettle s0 (keeperSettle s0 (readySettle s0 (modeSettle s0 s)))))) j := by
    simp only [settle, ctxAt]
  rw [g, h, e]

@[simp] theorem settle_pending (s0 s : State) : (settle s0 s).pending = s0.pending := by simp only [settle]

/-- Settling after a step counts epochs and raises STATE; nothing else changes. -/
theorem settle_same (s0 s : State) : SameBut [] s (settle s0 s) where
  same p _ := match p with
  | .dev => settle_dev ..
  | .md => settle_md ..
  | .time => settle_time ..
  | .pace => settle_pace ..
  | .kpr => settle_kpr ..
  | .svc => settle_svc ..
  | .sec => settle_sec ..
  | .grave => settle_grave ..
  | .faults => settle_faults ..
  | .mailboxes => settle_mailboxes ..
  | .contexts => ⟨settle_msixOpen .., ctxAt_settle s0 s⟩
  | .msixTable => settle_msixTable ..
  | .held => settle_held ..
  | .works => settle_works ..
  | .cells => settle_cells ..
  | .cellOwn => settle_cellOwn ..
  | .hives => settle_hives ..
  | .comb => settle_comb ..
  | .scratch => settle_scratch ..
  | .inner => settle_inner ..
  | .combMarks => ⟨settle_combUe .., settle_combCe ..⟩
  | .active => settle_active ..
  | .combOwn => settle_combOwn ..
  | .queues => settle_queues ..
  | .doorbells => settle_doorbells ..
  | .caps => settle_caps ..
  | .chans => settle_chans ..
  | .tasks => settle_tasks ..
  | .counters => settle_counters ..
  | .timers => settle_timers ..
  | .pins => settle_pins ..
  | .hops => settle_hops ..
  | .wagEpoch => settle_wagEpoch ..
  | .domains => settle_domains ..
  | .col => settle_col ..
  | .links => settle_links ..
  | .rxLanes => settle_rxLanes ..
  | .dmcs => settle_dmcs ..
  | .dram => settle_dram ..
  | .dramMarks => ⟨settle_dramUe .., settle_dramCe ..⟩
  | .dramOwn => settle_dramOwn ..
  | .dramSettings => ⟨settle_dramSystem .., settle_interleave .., settle_ctxBase .., settle_ageLimit .., settle_minMargin .., settle_trackH ..,
      settle_ceLimit .., settle_scrubOn .., settle_scrubPeriod ..⟩
  | .auxs => settle_auxs ..
  | .auxClrN => settle_auxClrN ..
  | .jnl => settle_jnl ..
  | .rpl => settle_rpl ..
  | .bus => settle_bus ..
  | .bulk => settle_bulk ..
  | .free => settle_free ..

end Sys2Proof.Laws

namespace Sys2Proof.Safety

open Sys2Proof Sys2Proof.Machine

variable {s t : State} {l : List Part}

/-- A frame of the effect is a frame of the settled effect. -/
theorem SameBut.settled (h : SameBut l s t) (s0 : State) : SameBut l s (settle s0 t) :=
  h.trans ((Laws.settle_same s0 t).mono (by simp))

/-- A command whose meaning is `act` of `f` completes with the settled effect of `f`. -/
theorem Completes.of_act {c : Instr} {f : State → State} {P : State → Prop} (h : alive s = true)
    (hc : exec c s = act s f) (hp : P (settle s (f s))) : Completes c s P :=
  ⟨_, by rw [hc]; simp [act, h], hp⟩

end Sys2Proof.Safety

namespace Sys2Proof.Laws

open Sys2Proof Sys2Proof.Machine Sys2Proof.Safety

/-! ### Steps -/

theorem act_alive {s : State} (h : alive s = true) (f : State → State) : act s f = .next (Machine.settle s (f s)) := by
  simp [act, h]

/-- The decision of a command that no cell waits for. -/
theorem decide_step {s : State} {x : Held} {c : Instr} (h : Decides s x c) (hn : ∀ g k, c ≠ .capTrigger g k) :
    exec .commandDecision s = .next (Machine.settle s (decideCmd x (skipCells x (released s x)))) := by
  have hx := h.cmd
  have h1 : commandDecision s = decideHeld x s := by
    unfold commandDecision
    simp [h.first, h.ready, Nat.not_lt.mpr h.due]
  have h2 : decideHeld x s = decideCmd x (skipCells x (released s x)) := by
    unfold decideHeld
    split
    · rename_i g k hk
      exact absurd (hx.symm.trans hk) (hn g k)
    · rfl
  show execCommandDecision s = _
  rw [execCommandDecision, act_alive h.alive, h1, h2]

/-- A command that acts on no cell moves none. -/
theorem skipCells_id {x : Held} (h : ∀ s c, actsOnCell s c x.cmd = false) (s : State) : skipCells x s = s := by
  unfold skipCells
  exact foldl_keeps (P := fun u => u = s) (fun u p hu => by simp [h, hu]) s.cells rfl

/-- The decision of a command that acts on no cell. -/
theorem decide_plain {s : State} {x : Held} {c : Instr} (h : Decides s x c) (hn : ∀ g k, c ≠ .capTrigger g k)
    (hc : ∀ s k, actsOnCell s k c = false) :
    exec .commandDecision s = .next (settle s (decideCmd x (released s x))) := by
  rw [decide_step h hn, skipCells_id]
  intro s k; rw [h.cmd]; exact hc s k

/-- The oldest work of a kind is found, and taken off the list. -/
theorem findWork_oldest {s : State} {p : Instr → Prop} {q : Instr → Bool} {x : Held} {r : List Held}
    (h : Oldest s p x r) (hq : ∀ c, q c = true ↔ p c) : findWork s q = some x ∧ endWork s x = { s with works := r } := by
  obtain ⟨-, v, w, e, hp, hv, rfl⟩ := h
  have hx : x ∉ v := fun hm => hv x hm hp
  constructor
  · unfold findWork
    rw [e, List.find?_append, List.find?_eq_none.mpr fun y hy => by rw [hq]; exact hv y hy]
    simp [(hq _).mpr hp]
  · unfold endWork
    rw [e, List.erase_append_right _ hx]
    simp

end Sys2Proof.Laws
end

