-- ==== Sys2Proof/Laws/Replies.lean ====
section
/-! SUPPORT. What a reply does (R332): the frame of `answer` and `finish`, and the mailbox they leave. -/

namespace Sys2Proof.Laws

open Sys2Proof Sys2Proof.Machine Sys2Proof.Safety

variable {l : List Part} {s t u : State}

theorem modMb_same (s : State) (c m : Nat) (f : Mailbox → Mailbox) : SameBut [.mailboxes] s (modMb s c m f) := by
  refine ⟨fun p hp => ?_⟩
  cases p <;> first | (exfalso; revert hp; decide) | simp [Part.Same, ctxAt]

theorem irq_same (s : State) (k : Nat) {b : Nat} (hb : b < 32) : SameBut [] s (irq s k b) := by
  refine ⟨fun p _ => ?_⟩
  cases p <;> simp only [Part.Same] <;> first | (simp only [irq_msixOpen, true_and]; exact fun j => ctxAt_irq s k j hb) | simp

theorem modPort_same (s : State) (k : Nat) (f : Port → Port) : SameBut [.col] s (modPort s k f) := by
  refine ⟨fun p hp => ?_⟩
  cases p <;> first | (exfalso; revert hp; decide) | simp [Part.Same, ctxAt]

/-- A reply written changes its mailbox, or a colony port where the command came over one. -/
theorem writeReply_same (s : State) {c m : Nat} (hm : m ≤ 4) (r : Reply) : SameBut [.mailboxes, .col] s (writeReply s c m r) := by
  unfold writeReply
  split
  · exact ((modMb_same ..).mono (by simp)).trans ((modPort_same ..).mono (by simp))
  · exact ((modMb_same ..).mono (by simp)).trans ((irq_same _ _ (by omega)).mono (by simp))

theorem answer_same (s : State) {c m : Nat} (hm : m ≤ 4) (op seq : Nat) (st : Err) (un : Option (Nat × Nat)) (d : Nat)
    (r : List Byte) : SameBut [.mailboxes, .col] s (answer s c m op seq st un d r) := writeReply_same s hm _

/-- The frame of `finish`. -/
theorem finish_same (s : State) {x : Held} (hx : x.mb ≤ 4) (op : Nat) (un : Option (Nat × Nat)) (st : Err) (r : List Byte) :
    SameBut [.mailboxes, .col] s (finish s x op un st r) := by
  unfold finish; split
  · exact ((modMb_same ..).mono (by simp)).trans (answer_same _ hx ..)
  · exact SameBut.refl ..

/-- A record of a mailbox that shows a reply is not the power-on record. -/
theorem mailbox_ne {m : Mailbox} (h : m.replyValid = true) : m ≠ {} := by rintro rfl; simp at h

/-- Reading back a mailbox after a change of it. -/
theorem mbAt_modMb {s : State} (h : twf {} s.mailboxes = true) (c m : Nat) (f : Mailbox → Mailbox) :
    mbAt (modMb s c m f) c m = f (mbAt s c m) := tget_tmod_same h _ f

/-- Every other mailbox is as it was. -/
theorem mbAt_modMb_other (s : State) {c m c' m' : Nat} (h : 4 * c' + m' ≠ 4 * c + m) (f : Mailbox → Mailbox) :
    mbAt (modMb s c m f) c' m' = mbAt s c' m' := tget_tmod_other _ _ h f

theorem mbAt_irq (s : State) (k b c m : Nat) : mbAt (irq s k b) c m = mbAt s c m := by simp [mbAt]

/-- What `finish` leaves in the mailbox. -/
theorem finish_replied {s u : State} {x : Held} {op : Nat} {un : Option (Nat × Nat)} {st : Err} {r : List Byte}
    (hc : twf {} u.mailboxes = true) (hm : mbAt u x.ctx x.mb = mbAt s x.ctx x.mb) (ht : u.time.tick = s.time.tick) :
    Replied s (finish u x op un st r) x op st r := by
  intro hr htun
  have h1 := mbAt_modMb hc x.ctx x.mb fun m => { m with lastStatus := st }
  have hw : twf {} (modMb u x.ctx x.mb fun m => { m with lastStatus := st }).mailboxes = true := by
    have := twf_tmod hc (4 * x.ctx + x.mb) fun m => { m with lastStatus := st }
    simpa only [modMb] using this
  have htun1 : (mbAt (modMb u x.ctx x.mb fun m => { m with lastStatus := st }) x.ctx x.mb).tunnel = none := by
    rw [h1]; simpa [hm] using htun
  simp only [finish, hr, if_true, answer, writeReply, htun1, mbAt_irq, mbAt_modMb hw]
  exact ⟨trivial, _, rfl, rfl, rfl, rfl, rfl, ht, rfl⟩

/-- Settling keeps what a reply left. -/
theorem Replied.settled {s t : State} {x : Held} {op : Nat} {st : Err} {r : List Byte} (h : Replied s t x op st r)
    (s0 : State) : Replied s (settle s0 t) x op st r := by
  intro hr ht
  simpa [mbAt] using h hr ht

end Sys2Proof.Laws
end

