-- ==== Sys2Proof/Laws/Steps.lean ====
section
/-! SUPPORT. What running a command can answer: the one inversion of `exec`, and what follows for the queue and for a block that
is off. -/

set_option Elab.async false

namespace Sys2Proof.Laws

open Sys2Proof Sys2Proof.Machine Sys2Proof.Safety

/-- What `act` and `actOn` can answer of a state: nothing done by a block that is off, else an effect, settled; or the fault of an
absent unit. -/
def ActShape (s : State) (o : Host.Outcome State Fault Refusal) : Prop :=
  o = .fault .absentUnit ∨ (alive s = false ∧ o = .next s) ∨ (alive s = true ∧ ∃ u, o = .next (settle s u))

theorem actShape_act (s : State) (f : State → State) : ActShape s (act s f) := by
  unfold act
  split
  · exact .inr (.inr ⟨‹_›, f s, rfl⟩)
  · exact .inr (.inl ⟨Bool.not_eq_true _ |>.mp ‹_›, rfl⟩)

theorem actShape_actOn (b : Bool) (s : State) (f : State → State) : ActShape s (actOn b s f) := by
  unfold actOn
  split
  · exact actShape_act s f
  · exact .inl rfl

theorem timePllLock_shape (s : State) : ActShape s (exec (.timePllLock) s) := by
  unfold exec execTimePllLock; exact actShape_act _ _
theorem timeUnlock_shape (s : State) : ActShape s (exec (.timeUnlock) s) := by
  unfold exec execTimeUnlock; exact actShape_act _ _
theorem combBankCleared_shape (s : State) {a0 a1} : ActShape s (exec (.combBankCleared a0 a1) s) := by
  unfold exec execCombBankCleared; exact actShape_actOn _ _ _
theorem flashReady_shape (s : State) : ActShape s (exec (.flashReady) s) := by
  unfold exec execFlashReady; exact actShape_act _ _
theorem keeperStart_shape (s : State) : ActShape s (exec (.keeperStart) s) := by
  unfold exec execKeeperStart; exact actShape_act _ _
theorem calLoadDone_shape (s : State) : ActShape s (exec (.calLoadDone) s) := by
  unfold exec execCalLoadDone; exact actShape_act _ _
theorem pciePerst_shape (s : State) : ActShape s (exec (.pciePerst) s) := by
  unfold exec execPciePerst; exact actShape_act _ _
theorem pcieDown_shape (s : State) : ActShape s (exec (.pcieDown) s) := by
  unfold exec execPcieDown; exact actShape_act _ _
theorem post_shape (s : State) {a0 a1} : ActShape s (exec (.post a0 a1) s) := by
  unfold exec execPost; exact actShape_actOn _ _ _
theorem ack_shape (s : State) {a0 a1} : ActShape s (exec (.ack a0 a1) s) := by
  unfold exec execAck; exact actShape_actOn _ _ _
theorem mbReset_shape (s : State) {a0 a1} : ActShape s (exec (.mbReset a0 a1) s) := by
  unfold exec execMbReset; exact actShape_actOn _ _ _
theorem frameTimeout_shape (s : State) {a0 a1} : ActShape s (exec (.frameTimeout a0 a1) s) := by
  unfold exec execFrameTimeout; exact actShape_actOn _ _ _
theorem ctxIrqStatusRead_shape (s : State) {a0} : ActShape s (exec (.ctxIrqStatusRead a0) s) := by
  unfold exec execCtxIrqStatusRead; exact actShape_actOn _ _ _
theorem devtimeLatchRead_shape (s : State) : ActShape s (exec (.devtimeLatchRead) s) := by
  unfold exec execDevtimeLatchRead; exact actShape_act _ _
theorem windowWrite_shape (s : State) {a0 a1} : ActShape s (exec (.windowWrite a0 a1) s) := by
  unfold exec execWindowWrite; exact actShape_act _ _
theorem bulkApertureWrite_shape (s : State) {a0 a1} : ActShape s (exec (.bulkApertureWrite a0 a1) s) := by
  unfold exec execBulkApertureWrite; exact actShape_actOn _ _ _
theorem bulkApertureRead_shape (s : State) {a0 a1} : ActShape s (exec (.bulkApertureRead a0 a1) s) := by
  unfold exec execBulkApertureRead; exact actShape_actOn _ _ _
theorem pcieAtomicOp_shape (s : State) {a0} : ActShape s (exec (.pcieAtomicOp a0) s) := by
  unfold exec execPcieAtomicOp; exact actShape_act _ _
theorem doorbellWrite_shape (s : State) {a0 a1 a2 a3} : ActShape s (exec (.doorbellWrite a0 a1 a2 a3) s) := by
  unfold exec execDoorbellWrite; exact actShape_actOn _ _ _
theorem doorbellApply_shape (s : State) : ActShape s (exec (.doorbellApply) s) := by
  unfold exec execDoorbellApply; exact actShape_act _ _
theorem spiWrite_shape (s : State) {a0 a1 a2} : ActShape s (exec (.spiWrite a0 a1 a2) s) := by
  unfold exec execSpiWrite; exact actShape_act _ _
theorem spiRead_shape (s : State) {a0 a1} : ActShape s (exec (.spiRead a0 a1) s) := by
  unfold exec execSpiRead; exact actShape_act _ _
theorem spiIrqRead_shape (s : State) : ActShape s (exec (.spiIrqRead) s) := by
  unfold exec execSpiIrqRead; exact actShape_act _ _
theorem spiId_shape (s : State) : ActShape s (exec (.spiId) s) := by
  unfold exec execSpiId; exact actShape_act _ _
theorem registerWrite_shape (s : State) {a0 a1} : ActShape s (exec (.registerWrite a0 a1) s) := by
  unfold exec execRegisterWrite; exact actShape_act _ _
theorem commandDecision_shape (s : State) : ActShape s (exec (.commandDecision) s) := by
  unfold exec execCommandDecision; exact actShape_act _ _
theorem nop_shape (s : State) {a0 a1} : ActShape s (exec (.nop a0 a1) s) := by
  unfold exec execNop berza; exact actShape_actOn _ _ _
theorem deviceInfo_shape (s : State) {a0} : ActShape s (exec (.deviceInfo a0) s) := by
  unfold exec execDeviceInfo berza; exact actShape_actOn _ _ _
theorem readyRead_shape (s : State) {a0} : ActShape s (exec (.readyRead a0) s) := by
  unfold exec execReadyRead berza; exact actShape_actOn _ _ _
theorem windowRead_shape (s : State) {a0 a1 a2} : ActShape s (exec (.windowRead a0 a1 a2) s) := by
  unfold exec execWindowRead berza; exact actShape_actOn _ _ _
theorem modeSet_shape (s : State) {a0 a1 a2 a3 a4 a5 a6} : ActShape s (exec (.modeSet a0 a1 a2 a3 a4 a5 a6) s) := by
  unfold exec execModeSet berza; exact actShape_actOn _ _ _
theorem warmReset_shape (s : State) {a0} : ActShape s (exec (.warmReset a0) s) := by
  unfold exec execWarmReset berza; exact actShape_actOn _ _ _
theorem keeperRestart_shape (s : State) {a0 a1} : ActShape s (exec (.keeperRestart a0 a1) s) := by
  unfold exec execKeeperRestart berza; exact actShape_actOn _ _ _
theorem hostSet_shape (s : State) {a0 a1 a2 a3} : ActShape s (exec (.hostSet a0 a1 a2 a3) s) := by
  unfold exec execHostSet berza; exact actShape_actOn _ _ _
theorem bulkWindowSet_shape (s : State) {a0 a1} : ActShape s (exec (.bulkWindowSet a0 a1) s) := by
  unfold exec execBulkWindowSet berza; exact actShape_actOn _ _ _
theorem fwInfo_shape (s : State) {a0} : ActShape s (exec (.fwInfo a0) s) := by
  unfold exec execFwInfo berza; exact actShape_actOn _ _ _
theorem fwStage_shape (s : State) {a0 a1 a2} : ActShape s (exec (.fwStage a0 a1 a2) s) := by
  unfold exec execFwStage berza; exact actShape_actOn _ _ _
theorem flashEraseDone_shape (s : State) {a0} : ActShape s (exec (.flashEraseDone a0) s) := by
  unfold exec execFlashEraseDone; exact actShape_act _ _
theorem fwData_shape (s : State) {a0 a1 a2 a3 a4} : ActShape s (exec (.fwData a0 a1 a2 a3 a4) s) := by
  unfold exec execFwData berza; exact actShape_actOn _ _ _
theorem fwVerify_shape (s : State) {a0 a1} : ActShape s (exec (.fwVerify a0 a1) s) := by
  unfold exec execFwVerify berza; exact actShape_actOn _ _ _
theorem fwSelect_shape (s : State) {a0 a1} : ActShape s (exec (.fwSelect a0 a1) s) := by
  unfold exec execFwSelect berza; exact actShape_actOn _ _ _
theorem fwCommit_shape (s : State) {a0} : ActShape s (exec (.fwCommit a0) s) := by
  unfold exec execFwCommit berza; exact actShape_actOn _ _ _
theorem segLoad_shape (s : State) {a0 a1 a2 a3} : ActShape s (exec (.segLoad a0 a1 a2 a3) s) := by
  unfold exec execSegLoad berza; exact actShape_actOn _ _ _
theorem combRead_shape (s : State) {a0 a1 a2} : ActShape s (exec (.combRead a0 a1 a2) s) := by
  unfold exec execCombRead berza; exact actShape_actOn _ _ _
theorem combFill_shape (s : State) {a0 a1 a2 a3} : ActShape s (exec (.combFill a0 a1 a2 a3) s) := by
  unfold exec execCombFill berza; exact actShape_actOn _ _ _
theorem combAtomic_shape (s : State) {a0 a1 a2 a3} : ActShape s (exec (.combAtomic a0 a1 a2 a3) s) := by
  unfold exec execCombAtomic berza; exact actShape_actOn _ _ _
theorem combRegionSet_shape (s : State) {a0 a1 a2 a3 a4 a5} : ActShape s (exec (.combRegionSet a0 a1 a2 a3 a4 a5) s) := by
  unfold exec execCombRegionSet berza; exact actShape_actOn _ _ _
theorem combActiveRead_shape (s : State) {a0 a1 a2 a3 a4} : ActShape s (exec (.combActiveRead a0 a1 a2 a3 a4) s) := by
  unfold exec execCombActiveRead berza; exact actShape_actOn _ _ _
theorem srcTableSet_shape (s : State) {a0 a1 a2} : ActShape s (exec (.srcTableSet a0 a1 a2) s) := by
  unfold exec execSrcTableSet berza; exact actShape_actOn _ _ _
theorem srcDescSet_shape (s : State) {a0 a1 a2 a3} : ActShape s (exec (.srcDescSet a0 a1 a2 a3) s) := by
  unfold exec execSrcDescSet berza; exact actShape_actOn _ _ _
theorem curveAreaSet_shape (s : State) {a0 a1 a2 a3} : ActShape s (exec (.curveAreaSet a0 a1 a2 a3) s) := by
  unfold exec execCurveAreaSet berza; exact actShape_actOn _ _ _
theorem domainSet_shape (s : State) {a0 a1 a2 a3 a4 a5 a6 a7} : ActShape s (exec (.domainSet a0 a1 a2 a3 a4 a5 a6 a7) s) := by
  unfold exec execDomainSet berza; exact actShape_actOn _ _ _
theorem domainOff_shape (s : State) {a0 a1} : ActShape s (exec (.domainOff a0 a1) s) := by
  unfold exec execDomainOff berza; exact actShape_actOn _ _ _
theorem syncConfig_shape (s : State) {a0 a1 a2 a3 a4} : ActShape s (exec (.syncConfig a0 a1 a2 a3 a4) s) := by
  unfold exec execSyncConfig berza; exact actShape_actOn _ _ _
theorem sysrefSet_shape (s : State) {a0 a1 a2 a3 a4 a5 a6} : ActShape s (exec (.sysrefSet a0 a1 a2 a3 a4 a5 a6) s) := by
  unfold exec execSysrefSet berza; exact actShape_actOn _ _ _
theorem timeHorizonSet_shape (s : State) {a0 a1} : ActShape s (exec (.timeHorizonSet a0 a1) s) := by
  unfold exec execTimeHorizonSet berza; exact actShape_actOn _ _ _
theorem timePpsSet_shape (s : State) {a0 a1} : ActShape s (exec (.timePpsSet a0 a1) s) := by
  unfold exec execTimePpsSet berza; exact actShape_actOn _ _ _
theorem paceConfig_shape (s : State) {a0 a1 a2 a3 a4 a5 a6 a7 a8} : ActShape s (exec (.paceConfig a0 a1 a2 a3 a4 a5 a6 a7 a8) s) := by
  unfold exec execPaceConfig berza; exact actShape_actOn _ _ _
theorem cellBind_shape (s : State) {a0 a1 a2 a3 a4 a5 a6 a7} : ActShape s (exec (.cellBind a0 a1 a2 a3 a4 a5 a6 a7) s) := by
  unfold exec execCellBind berza; exact actShape_actOn _ _ _
theorem cellArm_shape (s : State) {a0 a1 a2 a3 a4 a5 a6} : ActShape s (exec (.cellArm a0 a1 a2 a3 a4 a5 a6) s) := by
  unfold exec execCellArm berza; exact actShape_actOn _ _ _
theorem cellStart_shape (s : State) {a0 a1} : ActShape s (exec (.cellStart a0 a1) s) := by
  unfold exec execCellStart berza; exact actShape_actOn _ _ _
theorem cellStop_shape (s : State) {a0 a1} : ActShape s (exec (.cellStop a0 a1) s) := by
  unfold exec execCellStop berza; exact actShape_actOn _ _ _
theorem cellPause_shape (s : State) {a0 a1} : ActShape s (exec (.cellPause a0 a1) s) := by
  unfold exec execCellPause berza; exact actShape_actOn _ _ _
theorem cellResume_shape (s : State) {a0 a1} : ActShape s (exec (.cellResume a0 a1) s) := by
  unfold exec execCellResume berza; exact actShape_actOn _ _ _
theorem cellRateSet_shape (s : State) {a0 a1 a2} : ActShape s (exec (.cellRateSet a0 a1 a2) s) := by
  unfold exec execCellRateSet berza; exact actShape_actOn _ _ _
theorem cellUnbind_shape (s : State) {a0 a1} : ActShape s (exec (.cellUnbind a0 a1) s) := by
  unfold exec execCellUnbind berza; exact actShape_actOn _ _ _
theorem groupSet_shape (s : State) {a0 a1 a2} : ActShape s (exec (.groupSet a0 a1 a2) s) := by
  unfold exec execGroupSet berza; exact actShape_actOn _ _ _
theorem cellClear_shape (s : State) {a0 a1 a2} : ActShape s (exec (.cellClear a0 a1 a2) s) := by
  unfold exec execCellClear berza; exact actShape_actOn _ _ _
theorem cellReset_shape (s : State) {a0 a1} : ActShape s (exec (.cellReset a0 a1) s) := by
  unfold exec execCellReset berza; exact actShape_actOn _ _ _
theorem synConfig_shape (s : State) {a0 a1 a2 a3 a4 a5 a6} : ActShape s (exec (.synConfig a0 a1 a2 a3 a4 a5 a6) s) := by
  unfold exec execSynConfig berza; exact actShape_actOn _ _ _
theorem synGainSet_shape (s : State) {a0 a1 a2 a3} : ActShape s (exec (.synGainSet a0 a1 a2 a3) s) := by
  unfold exec execSynGainSet berza; exact actShape_actOn _ _ _
theorem formatSet_shape (s : State) {a0 a1 a2 a3} : ActShape s (exec (.formatSet a0 a1 a2 a3) s) := by
  unfold exec execFormatSet berza; exact actShape_actOn _ _ _
theorem synClear_shape (s : State) {a0 a1 a2} : ActShape s (exec (.synClear a0 a1 a2) s) := by
  unfold exec execSynClear berza; exact actShape_actOn _ _ _
theorem synCoefRead_shape (s : State) {a0 a1} : ActShape s (exec (.synCoefRead a0 a1) s) := by
  unfold exec execSynCoefRead berza; exact actShape_actOn _ _ _
theorem synCalApply_shape (s : State) {a0 a1 a2 a3} : ActShape s (exec (.synCalApply a0 a1 a2 a3) s) := by
  unfold exec execSynCalApply berza; exact actShape_actOn _ _ _
theorem queueOpen_shape (s : State) {a0 a1 a2 a3 a4 a5 a6 a7 a8} : ActShape s (exec (.queueOpen a0 a1 a2 a3 a4 a5 a6 a7 a8) s) := by
  unfold exec execQueueOpen berza; exact actShape_actOn _ _ _
theorem queueClose_shape (s : State) {a0 a1 a2} : ActShape s (exec (.queueClose a0 a1 a2) s) := by
  unfold exec execQueueClose berza; exact actShape_actOn _ _ _
theorem queueStatus_shape (s : State) {a0 a1 a2} : ActShape s (exec (.queueStatus a0 a1 a2) s) := by
  unfold exec execQueueStatus berza; exact actShape_actOn _ _ _
theorem queueFlush_shape (s : State) {a0 a1 a2} : ActShape s (exec (.queueFlush a0 a1 a2) s) := by
  unfold exec execQueueFlush berza; exact actShape_actOn _ _ _
theorem capBind_shape (s : State) {a0 a1 a2 a3 a4 a5 a6 a7} : ActShape s (exec (.capBind a0 a1 a2 a3 a4 a5 a6 a7) s) := by
  unfold exec execCapBind berza; exact actShape_actOn _ _ _
theorem capArm_shape (s : State) {a0 a1 a2} : ActShape s (exec (.capArm a0 a1 a2) s) := by
  unfold exec execCapArm berza; exact actShape_actOn _ _ _
theorem capArmFillDone_shape (s : State) {a0} : ActShape s (exec (.capArmFillDone a0) s) := by
  unfold exec execCapArmFillDone; exact actShape_actOn _ _ _
theorem capDisarm_shape (s : State) {a0 a1} : ActShape s (exec (.capDisarm a0 a1) s) := by
  unfold exec execCapDisarm berza; exact actShape_actOn _ _ _
theorem capTrigger_shape (s : State) {a0 a1} : ActShape s (exec (.capTrigger a0 a1) s) := by
  unfold exec execCapTrigger berza; exact actShape_actOn _ _ _
theorem capRelease_shape (s : State) {a0 a1 a2} : ActShape s (exec (.capRelease a0 a1 a2) s) := by
  unfold exec execCapRelease berza; exact actShape_actOn _ _ _
theorem capTrigSet_shape (s : State) {a0 a1 a2 a3 a4 a5} : ActShape s (exec (.capTrigSet a0 a1 a2 a3 a4 a5) s) := by
  unfold exec execCapTrigSet berza; exact actShape_actOn _ _ _
theorem capUnbind_shape (s : State) {a0 a1} : ActShape s (exec (.capUnbind a0 a1) s) := by
  unfold exec execCapUnbind berza; exact actShape_actOn _ _ _
theorem capClear_shape (s : State) {a0 a1 a2} : ActShape s (exec (.capClear a0 a1 a2) s) := by
  unfold exec execCapClear berza; exact actShape_actOn _ _ _
theorem wagChanSet_shape (s : State) {a0 a1 a2} : ActShape s (exec (.wagChanSet a0 a1 a2) s) := by
  unfold exec execWagChanSet berza; exact actShape_actOn _ _ _
theorem wagTaskSet_shape (s : State) {a0 a1 a2 a3} : ActShape s (exec (.wagTaskSet a0 a1 a2 a3) s) := by
  unfold exec execWagTaskSet berza; exact actShape_actOn _ _ _
theorem wagRaise_shape (s : State) {a0 a1 a2} : ActShape s (exec (.wagRaise a0 a1 a2) s) := by
  unfold exec execWagRaise berza; exact actShape_actOn _ _ _
theorem wagTimerSet_shape (s : State) {a0 a1 a2 a3 a4 a5} : ActShape s (exec (.wagTimerSet a0 a1 a2 a3 a4 a5) s) := by
  unfold exec execWagTimerSet berza; exact actShape_actOn _ _ _
theorem wagCounterSet_shape (s : State) {a0 a1 a2 a3 a4} : ActShape s (exec (.wagCounterSet a0 a1 a2 a3 a4) s) := by
  unfold exec execWagCounterSet berza; exact actShape_actOn _ _ _
theorem wagPinSet_shape (s : State) {a0 a1 a2 a3 a4 a5} : ActShape s (exec (.wagPinSet a0 a1 a2 a3 a4 a5) s) := by
  unfold exec execWagPinSet berza; exact actShape_actOn _ _ _
theorem wagWatchRead_shape (s : State) {a0} : ActShape s (exec (.wagWatchRead a0) s) := by
  unfold exec execWagWatchRead berza; exact actShape_actOn _ _ _
theorem wagClear_shape (s : State) {a0 a1 a2 a3} : ActShape s (exec (.wagClear a0 a1 a2 a3) s) := by
  unfold exec execWagClear berza; exact actShape_actOn _ _ _
theorem wagOwnerSet_shape (s : State) {a0 a1 a2 a3 a4} : ActShape s (exec (.wagOwnerSet a0 a1 a2 a3 a4) s) := by
  unfold exec execWagOwnerSet berza; exact actShape_actOn _ _ _
theorem linkSet_shape (s : State) {a0 a1 a2} : ActShape s (exec (.linkSet a0 a1 a2) s) := by
  unfold exec execLinkSet berza; exact actShape_actOn _ _ _
theorem linkEnable_shape (s : State) {a0 a1} : ActShape s (exec (.linkEnable a0 a1) s) := by
  unfold exec execLinkEnable berza; exact actShape_actOn _ _ _
theorem linkDisable_shape (s : State) {a0 a1} : ActShape s (exec (.linkDisable a0 a1) s) := by
  unfold exec execLinkDisable berza; exact actShape_actOn _ _ _
theorem linkRetrain_shape (s : State) {a0 a1} : ActShape s (exec (.linkRetrain a0 a1) s) := by
  unfold exec execLinkRetrain berza; exact actShape_actOn _ _ _
theorem linkSlotSet_shape (s : State) {a0 a1 a2 a3} : ActShape s (exec (.linkSlotSet a0 a1 a2 a3) s) := by
  unfold exec execLinkSlotSet berza; exact actShape_actOn _ _ _
theorem linkEyeRead_shape (s : State) {a0 a1} : ActShape s (exec (.linkEyeRead a0 a1) s) := by
  unfold exec execLinkEyeRead berza; exact actShape_actOn _ _ _
theorem linkClear_shape (s : State) {a0 a1 a2} : ActShape s (exec (.linkClear a0 a1 a2) s) := by
  unfold exec execLinkClear berza; exact actShape_actOn _ _ _
theorem dmcConfig_shape (s : State) {a0 a1 a2 a3 a4 a5 a6 a7} : ActShape s (exec (.dmcConfig a0 a1 a2 a3 a4 a5 a6 a7) s) := by
  unfold exec execDmcConfig berza; exact actShape_actOn _ _ _
theorem dramRegionSet_shape (s : State) {a0 a1 a2 a3 a4} : ActShape s (exec (.dramRegionSet a0 a1 a2 a3 a4) s) := by
  unfold exec execDramRegionSet berza; exact actShape_actOn _ _ _
theorem dramRegionRead_shape (s : State) {a0 a1 a2} : ActShape s (exec (.dramRegionRead a0 a1 a2) s) := by
  unfold exec execDramRegionRead berza; exact actShape_actOn _ _ _
theorem dmcRetrain_shape (s : State) {a0 a1 a2} : ActShape s (exec (.dmcRetrain a0 a1 a2) s) := by
  unfold exec execDmcRetrain berza; exact actShape_actOn _ _ _
theorem dmcScrubSet_shape (s : State) {a0 a1 a2} : ActShape s (exec (.dmcScrubSet a0 a1 a2) s) := by
  unfold exec execDmcScrubSet berza; exact actShape_actOn _ _ _
theorem dramWrite_shape (s : State) {a0 a1 a2 a3} : ActShape s (exec (.dramWrite a0 a1 a2 a3) s) := by
  unfold exec execDramWrite berza; exact actShape_actOn _ _ _
theorem dramRead_shape (s : State) {a0 a1 a2} : ActShape s (exec (.dramRead a0 a1 a2) s) := by
  unfold exec execDramRead berza; exact actShape_actOn _ _ _
theorem dmcClear_shape (s : State) {a0 a1 a2 a3} : ActShape s (exec (.dmcClear a0 a1 a2 a3) s) := by
  unfold exec execDmcClear berza; exact actShape_actOn _ _ _
theorem auxConfig_shape (s : State) {a0 a1 a2 a3 a4 a5} : ActShape s (exec (.auxConfig a0 a1 a2 a3 a4 a5) s) := by
  unfold exec execAuxConfig berza; exact actShape_actOn _ _ _
theorem auxWrite_shape (s : State) {a0 a1 a2 a3} : ActShape s (exec (.auxWrite a0 a1 a2 a3) s) := by
  unfold exec execAuxWrite berza; exact actShape_actOn _ _ _
theorem auxReadback_shape (s : State) {a0 a1} : ActShape s (exec (.auxReadback a0 a1) s) := by
  unfold exec execAuxReadback berza; exact actShape_actOn _ _ _
theorem auxReadbackDone_shape (s : State) {a0 a1} : ActShape s (exec (.auxReadbackDone a0 a1) s) := by
  unfold exec execAuxReadbackDone; exact actShape_actOn _ _ _
theorem auxClear_shape (s : State) {a0 a1 a2} : ActShape s (exec (.auxClear a0 a1 a2) s) := by
  unfold exec execAuxClear berza; exact actShape_actOn _ _ _
theorem colConfig_shape (s : State) {a0 a1 a2} : ActShape s (exec (.colConfig a0 a1 a2) s) := by
  unfold exec execColConfig berza; exact actShape_actOn _ _ _
theorem colSkewCal_shape (s : State) {a0 a1 a2} : ActShape s (exec (.colSkewCal a0 a1 a2) s) := by
  unfold exec execColSkewCal berza; exact actShape_actOn _ _ _
theorem colTunnel_shape (s : State) {a0 a1 a2 a3} : ActShape s (exec (.colTunnel a0 a1 a2 a3) s) := by
  unfold exec execColTunnel berza; exact actShape_actOn _ _ _
theorem colClear_shape (s : State) {a0 a1} : ActShape s (exec (.colClear a0 a1) s) := by
  unfold exec execColClear berza; exact actShape_actOn _ _ _
theorem colWake_shape (s : State) {a0 a1 a2} : ActShape s (exec (.colWake a0 a1 a2) s) := by
  unfold exec execColWake berza; exact actShape_actOn _ _ _
theorem ctxSet_shape (s : State) {a0 a1 a2 a3} : ActShape s (exec (.ctxSet a0 a1 a2 a3) s) := by
  unfold exec execCtxSet berza; exact actShape_actOn _ _ _
theorem ownSet_shape (s : State) {a0 a1 a2 a3 a4 a5} : ActShape s (exec (.ownSet a0 a1 a2 a3 a4 a5) s) := by
  unfold exec execOwnSet berza; exact actShape_actOn _ _ _
theorem ownRead_shape (s : State) {a0 a1 a2 a3} : ActShape s (exec (.ownRead a0 a1 a2 a3) s) := by
  unfold exec execOwnRead berza; exact actShape_actOn _ _ _
theorem wakeSet_shape (s : State) {a0 a1 a2 a3 a4} : ActShape s (exec (.wakeSet a0 a1 a2 a3 a4) s) := by
  unfold exec execWakeSet berza; exact actShape_actOn _ _ _
theorem lcAdvance_shape (s : State) {a0 a1 a2} : ActShape s (exec (.lcAdvance a0 a1 a2) s) := by
  unfold exec execLcAdvance berza; exact actShape_actOn _ _ _
theorem dbgOpen_shape (s : State) {a0 a1} : ActShape s (exec (.dbgOpen a0 a1) s) := by
  unfold exec execDbgOpen berza; exact actShape_actOn _ _ _
theorem dbgResponse_shape (s : State) {a0 a1 a2} : ActShape s (exec (.dbgResponse a0 a1 a2) s) := by
  unfold exec execDbgResponse berza; exact actShape_actOn _ _ _
theorem dbgClose_shape (s : State) {a0} : ActShape s (exec (.dbgClose a0) s) := by
  unfold exec execDbgClose berza; exact actShape_actOn _ _ _
theorem dbgTraceRead_shape (s : State) {a0 a1 a2} : ActShape s (exec (.dbgTraceRead a0 a1 a2) s) := by
  unfold exec execDbgTraceRead berza; exact actShape_actOn _ _ _
theorem calRead_shape (s : State) {a0 a1 a2 a3} : ActShape s (exec (.calRead a0 a1 a2 a3) s) := by
  unfold exec execCalRead berza; exact actShape_actOn _ _ _
theorem calWrite_shape (s : State) {a0 a1 a2 a3 a4} : ActShape s (exec (.calWrite a0 a1 a2 a3 a4) s) := by
  unfold exec execCalWrite berza; exact actShape_actOn _ _ _
theorem calRecordProgrammed_shape (s : State) {a0} : ActShape s (exec (.calRecordProgrammed a0) s) := by
  unfold exec execCalRecordProgrammed; exact actShape_act _ _
theorem calErase_shape (s : State) {a0 a1 a2 a3} : ActShape s (exec (.calErase a0 a1 a2 a3) s) := by
  unfold exec execCalErase berza; exact actShape_actOn _ _ _
theorem bgsSet_shape (s : State) {a0 a1 a2 a3 a4} : ActShape s (exec (.bgsSet a0 a1 a2 a3 a4) s) := by
  unfold exec execBgsSet berza; exact actShape_actOn _ _ _
theorem telemRead_shape (s : State) {a0 a1 a2} : ActShape s (exec (.telemRead a0 a1 a2) s) := by
  unfold exec execTelemRead berza; exact actShape_actOn _ _ _
theorem calStart_shape (s : State) {a0 a1 a2 a3 a4} : ActShape s (exec (.calStart a0 a1 a2 a3 a4) s) := by
  unfold exec execCalStart berza; exact actShape_actOn _ _ _
theorem calRunComplete_shape (s : State) {a0} : ActShape s (exec (.calRunComplete a0) s) := by
  unfold exec execCalRunComplete; exact actShape_act _ _
theorem faultClear_shape (s : State) {a0 a1 a2 a3} : ActShape s (exec (.faultClear a0 a1 a2 a3) s) := by
  unfold exec execFaultClear berza; exact actShape_actOn _ _ _
theorem faultMaskSet_shape (s : State) {a0 a1 a2} : ActShape s (exec (.faultMaskSet a0 a1 a2) s) := by
  unfold exec execFaultMaskSet berza; exact actShape_actOn _ _ _
theorem faultEscSet_shape (s : State) {a0 a1 a2 a3} : ActShape s (exec (.faultEscSet a0 a1 a2 a3) s) := by
  unfold exec execFaultEscSet berza; exact actShape_actOn _ _ _
theorem faultInject_shape (s : State) {a0 a1 a2 a3 a4 a5 a6} : ActShape s (exec (.faultInject a0 a1 a2 a3 a4 a5 a6) s) := by
  unfold exec execFaultInject berza; exact actShape_actOn _ _ _
theorem restoreClear_shape (s : State) {a0 a1} : ActShape s (exec (.restoreClear a0 a1) s) := by
  unfold exec execRestoreClear berza; exact actShape_actOn _ _ _
theorem jnlConfig_shape (s : State) {a0 a1 a2 a3 a4 a5 a6} : ActShape s (exec (.jnlConfig a0 a1 a2 a3 a4 a5 a6) s) := by
  unfold exec execJnlConfig berza; exact actShape_actOn _ _ _
theorem jnlStop_shape (s : State) {a0} : ActShape s (exec (.jnlStop a0) s) := by
  unfold exec execJnlStop berza; exact actShape_actOn _ _ _
theorem jnlCkpt_shape (s : State) {a0} : ActShape s (exec (.jnlCkpt a0) s) := by
  unfold exec execJnlCkpt berza; exact actShape_actOn _ _ _
theorem jnlExport_shape (s : State) {a0 a1 a2 a3} : ActShape s (exec (.jnlExport a0 a1 a2 a3) s) := by
  unfold exec execJnlExport berza; exact actShape_actOn _ _ _
theorem jnlImport_shape (s : State) {a0 a1} : ActShape s (exec (.jnlImport a0 a1) s) := by
  unfold exec execJnlImport berza; exact actShape_actOn _ _ _
theorem keeperRestartDone_shape (s : State) : ActShape s (exec (.keeperRestartDone) s) := by
  unfold exec execKeeperRestartDone; exact actShape_act _ _
theorem wdog_shape (s : State) : ActShape s (exec (.wdog) s) := by
  unfold exec execWdog; exact actShape_act _ _
theorem firmwareErrorRestart_shape (s : State) : ActShape s (exec (.firmwareErrorRestart) s) := by
  unfold exec execFirmwareErrorRestart; exact actShape_act _ _
theorem shadowAudit_shape (s : State) {a0} : ActShape s (exec (.shadowAudit a0) s) := by
  unfold exec execShadowAudit; exact actShape_act _ _
theorem paceWindowClose_shape (s : State) {a0 a1 a2} : ActShape s (exec (.paceWindowClose a0 a1 a2) s) := by
  unfold exec execPaceWindowClose; exact actShape_act _ _
theorem fillAlarm_shape (s : State) {a0} : ActShape s (exec (.fillAlarm a0) s) := by
  unfold exec execFillAlarm; exact actShape_actOn _ _ _
theorem telemetrySample_shape (s : State) {a0 a1} : ActShape s (exec (.telemetrySample a0 a1) s) := by
  unfold exec execTelemetrySample; exact actShape_actOn _ _ _
theorem groomGranule_shape (s : State) {a0 a1 a2 a3 a4} : ActShape s (exec (.groomGranule a0 a1 a2 a3 a4) s) := by
  unfold exec execGroomGranule; exact actShape_actOn _ _ _
theorem eyeCheck_shape (s : State) {a0} : ActShape s (exec (.eyeCheck a0) s) := by
  unfold exec execEyeCheck; exact actShape_actOn _ _ _
theorem skewCheck_shape (s : State) {a0} : ActShape s (exec (.skewCheck a0) s) := by
  unfold exec execSkewCheck; exact actShape_act _ _
theorem flashCompaction_shape (s : State) {a0 a1 a2} : ActShape s (exec (.flashCompaction a0 a1 a2) s) := by
  unfold exec execFlashCompaction; exact actShape_actOn _ _ _
theorem regParityCheck_shape (s : State) {a0} : ActShape s (exec (.regParityCheck a0) s) := by
  unfold exec execRegParityCheck; exact actShape_actOn _ _ _
theorem escalationDeadline_shape (s : State) {a0} : ActShape s (exec (.escalationDeadline a0) s) := by
  unfold exec execEscalationDeadline; exact actShape_actOn _ _ _
theorem evpEdge_shape (s : State) {a0 a1} : ActShape s (exec (.evpEdge a0 a1) s) := by
  unfold exec execEvpEdge; exact actShape_actOn _ _ _
theorem swlEdge_shape (s : State) {a0 a1 a2} : ActShape s (exec (.swlEdge a0 a1 a2) s) := by
  unfold exec execSwlEdge; exact actShape_actOn _ _ _
theorem swarmReportTimeout_shape (s : State) {a0} : ActShape s (exec (.swarmReportTimeout a0) s) := by
  unfold exec execSwarmReportTimeout; exact actShape_actOn _ _ _
theorem ppsEdge_shape (s : State) {a0} : ActShape s (exec (.ppsEdge a0) s) := by
  unfold exec execPpsEdge; exact actShape_act _ _
theorem ppsMissing_shape (s : State) : ActShape s (exec (.ppsMissing) s) := by
  unfold exec execPpsMissing; exact actShape_act _ _
theorem syncOutPulse_shape (s : State) : ActShape s (exec (.syncOutPulse) s) := by
  unfold exec execSyncOutPulse; exact actShape_act _ _
theorem syncInEdge_shape (s : State) : ActShape s (exec (.syncInEdge) s) := by
  unfold exec execSyncInEdge; exact actShape_act _ _
theorem syncMiss_shape (s : State) : ActShape s (exec (.syncMiss) s) := by
  unfold exec execSyncMiss; exact actShape_act _ _
theorem frameSlot_shape (s : State) {a0} : ActShape s (exec (.frameSlot a0) s) := by
  unfold exec execFrameSlot; exact actShape_actOn _ _ _
theorem idleFrame_shape (s : State) {a0 a1} : ActShape s (exec (.idleFrame a0 a1) s) := by
  unfold exec execIdleFrame; exact actShape_actOn _ _ _
theorem timeFrame_shape (s : State) {a0 a1} : ActShape s (exec (.timeFrame a0 a1) s) := by
  unfold exec execTimeFrame; exact actShape_actOn _ _ _
theorem eventFrame_shape (s : State) {a0 a1} : ActShape s (exec (.eventFrame a0 a1) s) := by
  unfold exec execEventFrame; exact actShape_actOn _ _ _
theorem swarmFrame_shape (s : State) {a0 a1} : ActShape s (exec (.swarmFrame a0 a1) s) := by
  unfold exec execSwarmFrame; exact actShape_actOn _ _ _
theorem delayRequest_shape (s : State) {a0 a1 a2} : ActShape s (exec (.delayRequest a0 a1 a2) s) := by
  unfold exec execDelayRequest; exact actShape_actOn _ _ _
theorem delayResponse_shape (s : State) {a0 a1 a2} : ActShape s (exec (.delayResponse a0 a1 a2) s) := by
  unfold exec execDelayResponse; exact actShape_actOn _ _ _
theorem statusFrame_shape (s : State) {a0 a1} : ActShape s (exec (.statusFrame a0 a1) s) := by
  unfold exec execStatusFrame; exact actShape_actOn _ _ _
theorem join_shape (s : State) {a0 a1} : ActShape s (exec (.join a0 a1) s) := by
  unfold exec execJoin; exact actShape_actOn _ _ _
theorem horizonFrame_shape (s : State) {a0 a1} : ActShape s (exec (.horizonFrame a0 a1) s) := by
  unfold exec execHorizonFrame; exact actShape_actOn _ _ _
theorem correct_shape (s : State) {a0 a1} : ActShape s (exec (.correct a0 a1) s) := by
  unfold exec execCorrect; exact actShape_actOn _ _ _
theorem swarmCal_shape (s : State) {a0 a1 a2} : ActShape s (exec (.swarmCal a0 a1 a2) s) := by
  unfold exec execSwarmCal; exact actShape_actOn _ _ _
theorem wakeFrame_shape (s : State) {a0 a1} : ActShape s (exec (.wakeFrame a0 a1) s) := by
  unfold exec execWakeFrame; exact actShape_actOn _ _ _
theorem tunnelFrame_shape (s : State) {a0 a1} : ActShape s (exec (.tunnelFrame a0 a1) s) := by
  unfold exec execTunnelFrame; exact actShape_actOn _ _ _
theorem chainFrame_shape (s : State) {a0 a1} : ActShape s (exec (.chainFrame a0 a1) s) := by
  unfold exec execChainFrame; exact actShape_actOn _ _ _
theorem portUp_shape (s : State) {a0} : ActShape s (exec (.portUp a0) s) := by
  unfold exec execPortUp; exact actShape_actOn _ _ _
theorem portDown_shape (s : State) {a0} : ActShape s (exec (.portDown a0) s) := by
  unfold exec execPortDown; exact actShape_actOn _ _ _
theorem correctionSlewStep_shape (s : State) : ActShape s (exec (.correctionSlewStep) s) := by
  unfold exec execCorrectionSlewStep; exact actShape_act _ _
theorem tunnelTimeout_shape (s : State) : ActShape s (exec (.tunnelTimeout) s) := by
  unfold exec execTunnelTimeout; exact actShape_act _ _
theorem domainLock_shape (s : State) {a0} : ActShape s (exec (.domainLock a0) s) := by
  unfold exec execDomainLock; exact actShape_actOn _ _ _
theorem domUnlock_shape (s : State) {a0} : ActShape s (exec (.domUnlock a0) s) := by
  unfold exec execDomUnlock; exact actShape_actOn _ _ _
theorem guardTrip_shape (s : State) {a0} : ActShape s (exec (.guardTrip a0) s) := by
  unfold exec execGuardTrip; exact actShape_actOn _ _ _
theorem sysrefPulse_shape (s : State) {a0} : ActShape s (exec (.sysrefPulse a0) s) := by
  unfold exec execSysrefPulse; exact actShape_actOn _ _ _
theorem trainingComplete_shape (s : State) {a0 a1} : ActShape s (exec (.trainingComplete a0 a1) s) := by
  unfold exec execTrainingComplete; exact actShape_actOn _ _ _
theorem presetDwellEnd_shape (s : State) {a0 a1} : ActShape s (exec (.presetDwellEnd a0 a1) s) := by
  unfold exec execPresetDwellEnd; exact actShape_actOn _ _ _
theorem noSysref_shape (s : State) {a0} : ActShape s (exec (.noSysref a0) s) := by
  unfold exec execNoSysref; exact actShape_actOn _ _ _
theorem retryTimer_shape (s : State) {a0} : ActShape s (exec (.retryTimer a0) s) := by
  unfold exec execRetryTimer; exact actShape_actOn _ _ _
theorem laneLock_shape (s : State) {a0} : ActShape s (exec (.laneLock a0) s) := by
  unfold exec execLaneLock; exact actShape_actOn _ _ _
theorem crcLimit_shape (s : State) {a0 a1} : ActShape s (exec (.crcLimit a0 a1) s) := by
  unfold exec execCrcLimit; exact actShape_actOn _ _ _
theorem rxLate_shape (s : State) {a0} : ActShape s (exec (.rxLate a0) s) := by
  unfold exec execRxLate; exact actShape_actOn _ _ _
theorem statusPin_shape (s : State) {a0} : ActShape s (exec (.statusPin a0) s) := by
  unfold exec execStatusPin; exact actShape_actOn _ _ _
theorem sampleEmission_shape (s : State) {a0 a1} : ActShape s (exec (.sampleEmission a0 a1) s) := by
  unfold exec execSampleEmission; exact actShape_actOn _ _ _
theorem refillIssue_shape (s : State) {a0} : ActShape s (exec (.refillIssue a0) s) := by
  unfold exec execRefillIssue; exact actShape_actOn _ _ _
theorem blockResident_shape (s : State) {a0 a1 a2} : ActShape s (exec (.blockResident a0 a1 a2) s) := by
  unfold exec execBlockResident; exact actShape_actOn _ _ _
theorem captureSample_shape (s : State) {a0 a1} : ActShape s (exec (.captureSample a0 a1) s) := by
  unfold exec execCaptureSample; exact actShape_actOn _ _ _
theorem rearmTick_shape (s : State) {a0} : ActShape s (exec (.rearmTick a0) s) := by
  unfold exec execRearmTick; exact actShape_actOn _ _ _
theorem streamChunk_shape (s : State) {a0 a1} : ActShape s (exec (.streamChunk a0 a1) s) := by
  unfold exec execStreamChunk; exact actShape_actOn _ _ _
theorem recordCommit_shape (s : State) {a0} : ActShape s (exec (.recordCommit a0) s) := by
  unfold exec execRecordCommit; exact actShape_actOn _ _ _
theorem eventHop_shape (s : State) : ActShape s (exec (.eventHop) s) := by
  unfold exec execEventHop; exact actShape_act _ _
theorem taskDecision_shape (s : State) {a0} : ActShape s (exec (.taskDecision a0) s) := by
  unfold exec execTaskDecision; exact actShape_actOn _ _ _
theorem tickTimerExpiry_shape (s : State) {a0} : ActShape s (exec (.tickTimerExpiry a0) s) := by
  unfold exec execTickTimerExpiry; exact actShape_actOn _ _ _
theorem pinPulseEnd_shape (s : State) {a0} : ActShape s (exec (.pinPulseEnd a0) s) := by
  unfold exec execPinPulseEnd; exact actShape_actOn _ _ _
theorem swarmDriveLaunch_shape (s : State) {a0} : ActShape s (exec (.swarmDriveLaunch a0) s) := by
  unfold exec execSwarmDriveLaunch; exact actShape_actOn _ _ _
theorem swarmDriveRelease_shape (s : State) {a0} : ActShape s (exec (.swarmDriveRelease a0) s) := by
  unfold exec execSwarmDriveRelease; exact actShape_actOn _ _ _
theorem dramCommandSlot_shape (s : State) {a0} : ActShape s (exec (.dramCommandSlot a0) s) := by
  unfold exec execDramCommandSlot; exact actShape_actOn _ _ _
theorem dramEntryDone_shape (s : State) {a0 a1} : ActShape s (exec (.dramEntryDone a0 a1) s) := by
  unfold exec execDramEntryDone; exact actShape_actOn _ _ _
theorem refreshDue_shape (s : State) {a0 a1} : ActShape s (exec (.refreshDue a0 a1) s) := by
  unfold exec execRefreshDue; exact actShape_actOn _ _ _
theorem pageIdleClose_shape (s : State) {a0 a1 a2} : ActShape s (exec (.pageIdleClose a0 a1 a2) s) := by
  unfold exec execPageIdleClose; exact actShape_actOn _ _ _
theorem powerDownEntry_shape (s : State) {a0 a1} : ActShape s (exec (.powerDownEntry a0 a1) s) := by
  unfold exec execPowerDownEntry; exact actShape_actOn _ _ _
theorem dramTrainingDone_shape (s : State) {a0 a1 a2} : ActShape s (exec (.dramTrainingDone a0 a1 a2) s) := by
  unfold exec execDramTrainingDone; exact actShape_actOn _ _ _
theorem dramClearDone_shape (s : State) {a0} : ActShape s (exec (.dramClearDone a0) s) := by
  unfold exec execDramClearDone; exact actShape_actOn _ _ _
theorem trackDone_shape (s : State) {a0 a1 a2} : ActShape s (exec (.trackDone a0 a1 a2) s) := by
  unfold exec execTrackDone; exact actShape_actOn _ _ _
theorem tjMoveTrigger_shape (s : State) {a0} : ActShape s (exec (.tjMoveTrigger a0) s) := by
  unfold exec execTjMoveTrigger; exact actShape_actOn _ _ _
theorem trackTimer_shape (s : State) {a0} : ActShape s (exec (.trackTimer a0) s) := by
  unfold exec execTrackTimer; exact actShape_actOn _ _ _
theorem ceLimit_shape (s : State) {a0} : ActShape s (exec (.ceLimit a0) s) := by
  unfold exec execCeLimit; exact actShape_actOn _ _ _
theorem caParity_shape (s : State) {a0} : ActShape s (exec (.caParity a0) s) := by
  unfold exec execCaParity; exact actShape_actOn _ _ _
theorem patrolScrubBurst_shape (s : State) {a0} : ActShape s (exec (.patrolScrubBurst a0) s) := by
  unfold exec execPatrolScrubBurst; exact actShape_actOn _ _ _
theorem retainLoss_shape (s : State) : ActShape s (exec (.retainLoss) s) := by
  unfold exec execRetainLoss; exact actShape_act _ _
theorem standbyEntryDone_shape (s : State) : ActShape s (exec (.standbyEntryDone) s) := by
  unfold exec execStandbyEntryDone; exact actShape_act _ _
theorem pwrEntry_shape (s : State) : ActShape s (exec (.pwrEntry) s) := by
  unfold exec execPwrEntry; exact actShape_act _ _
theorem wakeTick_shape (s : State) : ActShape s (exec (.wakeTick) s) := by
  unfold exec execWakeTick; exact actShape_act _ _
theorem wakeComplete_shape (s : State) : ActShape s (exec (.wakeComplete) s) := by
  unfold exec execWakeComplete; exact actShape_act _ _
theorem auxClrAssert_shape (s : State) : ActShape s (exec (.auxClrAssert) s) := by
  unfold exec execAuxClrAssert; exact actShape_act _ _
theorem auxClrRelease_shape (s : State) : ActShape s (exec (.auxClrRelease) s) := by
  unfold exec execAuxClrRelease; exact actShape_act _ _
theorem auxSlewStep_shape (s : State) {a0} : ActShape s (exec (.auxSlewStep a0) s) := by
  unfold exec execAuxSlewStep; exact actShape_actOn _ _ _
theorem deglitchHoldEnd_shape (s : State) {a0} : ActShape s (exec (.deglitchHoldEnd a0) s) := by
  unfold exec execDeglitchHoldEnd; exact actShape_actOn _ _ _
theorem auxShort_shape (s : State) {a0 a1} : ActShape s (exec (.auxShort a0 a1) s) := by
  unfold exec execAuxShort; exact actShape_actOn _ _ _
theorem debugHalt_shape (s : State) : ActShape s (exec (.debugHalt) s) := by
  unfold exec execDebugHalt; exact actShape_act _ _
theorem debugResume_shape (s : State) : ActShape s (exec (.debugResume) s) := by
  unfold exec execDebugResume; exact actShape_act _ _
theorem dbgWrite_shape (s : State) {a0 a1 a2} : ActShape s (exec (.dbgWrite a0 a1 a2) s) := by
  unfold exec execDbgWrite; exact actShape_actOn _ _ _
theorem jtagInstructionLoad_shape (s : State) {a0} : ActShape s (exec (.jtagInstructionLoad a0) s) := by
  unfold exec execJtagInstructionLoad; exact actShape_act _ _
theorem tapReset_shape (s : State) : ActShape s (exec (.tapReset) s) := by
  unfold exec execTapReset; exact actShape_act _ _
theorem sessionExpiry_shape (s : State) : ActShape s (exec (.sessionExpiry) s) := by
  unfold exec execSessionExpiry; exact actShape_act _ _
theorem nonceExpiry_shape (s : State) : ActShape s (exec (.nonceExpiry) s) := by
  unfold exec execNonceExpiry; exact actShape_act _ _
theorem authLockExpiry_shape (s : State) : ActShape s (exec (.authLockExpiry) s) := by
  unfold exec execAuthLockExpiry; exact actShape_act _ _
theorem checkpoint_shape (s : State) : ActShape s (exec (.checkpoint) s) := by
  unfold exec execCheckpoint; exact actShape_act _ _
theorem replayStart_shape (s : State) : ActShape s (exec (.replayStart) s) := by
  unfold exec execReplayStart; exact actShape_act _ _
theorem replayEntry_shape (s : State) : ActShape s (exec (.replayEntry) s) := by
  unfold exec execReplayEntry; exact actShape_act _ _
theorem replayEnd_shape (s : State) : ActShape s (exec (.replayEnd) s) := by
  unfold exec execReplayEnd; exact actShape_act _ _
theorem multiblockLockAcquired_shape (s : State) {a0 a1} : ActShape s (exec (.multiblockLockAcquired a0 a1) s) := by
  unfold exec execMultiblockLockAcquired; exact actShape_actOn _ _ _
theorem pcieLinkUp_shape (s : State) : ActShape s (exec (.pcieLinkUp) s) := by
  unfold exec execPcieLinkUp; exact actShape_act _ _
theorem regulatorConfirm_shape (s : State) {a0} : ActShape s (exec (.regulatorConfirm a0) s) := by
  unfold exec execRegulatorConfirm; exact actShape_act _ _
theorem combWriteDone_shape (s : State) : ActShape s (exec (.combWriteDone) s) := by
  unfold exec execCombWriteDone; exact actShape_act _ _
theorem fwProgramDone_shape (s : State) {a0} : ActShape s (exec (.fwProgramDone a0) s) := by
  unfold exec execFwProgramDone; exact actShape_act _ _
theorem fwVerifyDone_shape (s : State) {a0} : ActShape s (exec (.fwVerifyDone a0) s) := by
  unfold exec execFwVerifyDone; exact actShape_act _ _
theorem fwCommitDone_shape (s : State) {a0} : ActShape s (exec (.fwCommitDone a0) s) := by
  unfold exec execFwCommitDone; exact actShape_act _ _
theorem lcAdvanceDone_shape (s : State) : ActShape s (exec (.lcAdvanceDone) s) := by
  unfold exec execLcAdvanceDone; exact actShape_act _ _
theorem jnlExportDone_shape (s : State) {a0} : ActShape s (exec (.jnlExportDone a0) s) := by
  unfold exec execJnlExportDone; exact actShape_act _ _
theorem jnlImportDone_shape (s : State) {a0} : ActShape s (exec (.jnlImportDone a0) s) := by
  unfold exec execJnlImportDone; exact actShape_act _ _
theorem colSkewCalDone_shape (s : State) {a0} : ActShape s (exec (.colSkewCalDone a0) s) := by
  unfold exec execColSkewCalDone; exact actShape_act _ _

/-- The inversion of `exec`, for every command but those of the supplies and RESET_N. -/
theorem exec_shape (s : State) : (c : Instr) → powerRow c = false → ActShape s (exec c s)
  | .powerOn, h => nomatch h
  | .powerOff, h => nomatch h
  | .resetNAssert, h => nomatch h
  | .resetNRelease _ _ _, h => nomatch h
  | .timePllLock, _ => timePllLock_shape s
  | .timeUnlock, _ => timeUnlock_shape s
  | .combBankCleared _ _, _ => combBankCleared_shape s
  | .flashReady, _ => flashReady_shape s
  | .keeperStart, _ => keeperStart_shape s
  | .calLoadDone, _ => calLoadDone_shape s
  | .pciePerst, _ => pciePerst_shape s
  | .pcieDown, _ => pcieDown_shape s
  | .post _ _, _ => post_shape s
  | .ack _ _, _ => ack_shape s
  | .mbReset _ _, _ => mbReset_shape s
  | .frameTimeout _ _, _ => frameTimeout_shape s
  | .ctxIrqStatusRead _, _ => ctxIrqStatusRead_shape s
  | .devtimeLatchRead, _ => devtimeLatchRead_shape s
  | .windowWrite _ _, _ => windowWrite_shape s
  | .bulkApertureWrite _ _, _ => bulkApertureWrite_shape s
  | .bulkApertureRead _ _, _ => bulkApertureRead_shape s
  | .pcieAtomicOp _, _ => pcieAtomicOp_shape s
  | .doorbellWrite _ _ _ _, _ => doorbellWrite_shape s
  | .doorbellApply, _ => doorbellApply_shape s
  | .spiWrite _ _ _, _ => spiWrite_shape s
  | .spiRead _ _, _ => spiRead_shape s
  | .spiIrqRead, _ => spiIrqRead_shape s
  | .spiId, _ => spiId_shape s
  | .registerWrite _ _, _ => registerWrite_shape s
  | .commandDecision, _ => commandDecision_shape s
  | .nop _ _, _ => nop_shape s
  | .deviceInfo _, _ => deviceInfo_shape s
  | .readyRead _, _ => readyRead_shape s
  | .windowRead _ _ _, _ => windowRead_shape s
  | .modeSet _ _ _ _ _ _ _, _ => modeSet_shape s
  | .warmReset _, _ => warmReset_shape s
  | .keeperRestart _ _, _ => keeperRestart_shape s
  | .hostSet _ _ _ _, _ => hostSet_shape s
  | .bulkWindowSet _ _, _ => bulkWindowSet_shape s
  | .fwInfo _, _ => fwInfo_shape s
  | .fwStage _ _ _, _ => fwStage_shape s
  | .flashEraseDone _, _ => flashEraseDone_shape s
  | .fwData _ _ _ _ _, _ => fwData_shape s
  | .fwVerify _ _, _ => fwVerify_shape s
  | .fwSelect _ _, _ => fwSelect_shape s
  | .fwCommit _, _ => fwCommit_shape s
  | .segLoad _ _ _ _, _ => segLoad_shape s
  | .combRead _ _ _, _ => combRead_shape s
  | .combFill _ _ _ _, _ => combFill_shape s
  | .combAtomic _ _ _ _, _ => combAtomic_shape s
  | .combRegionSet _ _ _ _ _ _, _ => combRegionSet_shape s
  | .combActiveRead _ _ _ _ _, _ => combActiveRead_shape s
  | .srcTableSet _ _ _, _ => srcTableSet_shape s
  | .srcDescSet _ _ _ _, _ => srcDescSet_shape s
  | .curveAreaSet _ _ _ _, _ => curveAreaSet_shape s
  | .domainSet _ _ _ _ _ _ _ _, _ => domainSet_shape s
  | .domainOff _ _, _ => domainOff_shape s
  | .syncConfig _ _ _ _ _, _ => syncConfig_shape s
  | .sysrefSet _ _ _ _ _ _ _, _ => sysrefSet_shape s
  | .timeHorizonSet _ _, _ => timeHorizonSet_shape s
  | .timePpsSet _ _, _ => timePpsSet_shape s
  | .paceConfig _ _ _ _ _ _ _ _ _, _ => paceConfig_shape s
  | .cellBind _ _ _ _ _ _ _ _, _ => cellBind_shape s
  | .cellArm _ _ _ _ _ _ _, _ => cellArm_shape s
  | .cellStart _ _, _ => cellStart_shape s
  | .cellStop _ _, _ => cellStop_shape s
  | .cellPause _ _, _ => cellPause_shape s
  | .cellResume _ _, _ => cellResume_shape s
  | .cellRateSet _ _ _, _ => cellRateSet_shape s
  | .cellUnbind _ _, _ => cellUnbind_shape s
  | .groupSet _ _ _, _ => groupSet_shape s
  | .cellClear _ _ _, _ => cellClear_shape s
  | .cellReset _ _, _ => cellReset_shape s
  | .synConfig _ _ _ _ _ _ _, _ => synConfig_shape s
  | .synGainSet _ _ _ _, _ => synGainSet_shape s
  | .formatSet _ _ _ _, _ => formatSet_shape s
  | .synClear _ _ _, _ => synClear_shape s
  | .synCoefRead _ _, _ => synCoefRead_shape s
  | .synCalApply _ _ _ _, _ => synCalApply_shape s
  | .queueOpen _ _ _ _ _ _ _ _ _, _ => queueOpen_shape s
  | .queueClose _ _ _, _ => queueClose_shape s
  | .queueStatus _ _ _, _ => queueStatus_shape s
  | .queueFlush _ _ _, _ => queueFlush_shape s
  | .capBind _ _ _ _ _ _ _ _, _ => capBind_shape s
  | .capArm _ _ _, _ => capArm_shape s
  | .capArmFillDone _, _ => capArmFillDone_shape s
  | .capDisarm _ _, _ => capDisarm_shape s
  | .capTrigger _ _, _ => capTrigger_shape s
  | .capRelease _ _ _, _ => capRelease_shape s
  | .capTrigSet _ _ _ _ _ _, _ => capTrigSet_shape s
  | .capUnbind _ _, _ => capUnbind_shape s
  | .capClear _ _ _, _ => capClear_shape s
  | .wagChanSet _ _ _, _ => wagChanSet_shape s
  | .wagTaskSet _ _ _ _, _ => wagTaskSet_shape s
  | .wagRaise _ _ _, _ => wagRaise_shape s
  | .wagTimerSet _ _ _ _ _ _, _ => wagTimerSet_shape s
  | .wagCounterSet _ _ _ _ _, _ => wagCounterSet_shape s
  | .wagPinSet _ _ _ _ _ _, _ => wagPinSet_shape s
  | .wagWatchRead _, _ => wagWatchRead_shape s
  | .wagClear _ _ _ _, _ => wagClear_shape s
  | .wagOwnerSet _ _ _ _ _, _ => wagOwnerSet_shape s
  | .linkSet _ _ _, _ => linkSet_shape s
  | .linkEnable _ _, _ => linkEnable_shape s
  | .linkDisable _ _, _ => linkDisable_shape s
  | .linkRetrain _ _, _ => linkRetrain_shape s
  | .linkSlotSet _ _ _ _, _ => linkSlotSet_shape s
  | .linkEyeRead _ _, _ => linkEyeRead_shape s
  | .linkClear _ _ _, _ => linkClear_shape s
  | .dmcConfig _ _ _ _ _ _ _ _, _ => dmcConfig_shape s
  | .dramRegionSet _ _ _ _ _, _ => dramRegionSet_shape s
  | .dramRegionRead _ _ _, _ => dramRegionRead_shape s
  | .dmcRetrain _ _ _, _ => dmcRetrain_shape s
  | .dmcScrubSet _ _ _, _ => dmcScrubSet_shape s
  | .dramWrite _ _ _ _, _ => dramWrite_shape s
  | .dramRead _ _ _, _ => dramRead_shape s
  | .dmcClear _ _ _ _, _ => dmcClear_shape s
  | .auxConfig _ _ _ _ _ _, _ => auxConfig_shape s
  | .auxWrite _ _ _ _, _ => auxWrite_shape s
  | .auxReadback _ _, _ => auxReadback_shape s
  | .auxReadbackDone _ _, _ => auxReadbackDone_shape s
  | .auxClear _ _ _, _ => auxClear_shape s
  | .colConfig _ _ _, _ => colConfig_shape s
  | .colSkewCal _ _ _, _ => colSkewCal_shape s
  | .colTunnel _ _ _ _, _ => colTunnel_shape s
  | .colClear _ _, _ => colClear_shape s
  | .colWake _ _ _, _ => colWake_shape s
  | .ctxSet _ _ _ _, _ => ctxSet_shape s
  | .ownSet _ _ _ _ _ _, _ => ownSet_shape s
  | .ownRead _ _ _ _, _ => ownRead_shape s
  | .wakeSet _ _ _ _ _, _ => wakeSet_shape s
  | .lcAdvance _ _ _, _ => lcAdvance_shape s
  | .dbgOpen _ _, _ => dbgOpen_shape s
  | .dbgResponse _ _ _, _ => dbgResponse_shape s
  | .dbgClose _, _ => dbgClose_shape s
  | .dbgTraceRead _ _ _, _ => dbgTraceRead_shape s
  | .calRead _ _ _ _, _ => calRead_shape s
  | .calWrite _ _ _ _ _, _ => calWrite_shape s
  | .calRecordProgrammed _, _ => calRecordProgrammed_shape s
  | .calErase _ _ _ _, _ => calErase_shape s
  | .bgsSet _ _ _ _ _, _ => bgsSet_shape s
  | .telemRead _ _ _, _ => telemRead_shape s
  | .calStart _ _ _ _ _, _ => calStart_shape s
  | .calRunComplete _, _ => calRunComplete_shape s
  | .faultClear _ _ _ _, _ => faultClear_shape s
  | .faultMaskSet _ _ _, _ => faultMaskSet_shape s
  | .faultEscSet _ _ _ _, _ => faultEscSet_shape s
  | .faultInject _ _ _ _ _ _ _, _ => faultInject_shape s
  | .restoreClear _ _, _ => restoreClear_shape s
  | .jnlConfig _ _ _ _ _ _ _, _ => jnlConfig_shape s
  | .jnlStop _, _ => jnlStop_shape s
  | .jnlCkpt _, _ => jnlCkpt_shape s
  | .jnlExport _ _ _ _, _ => jnlExport_shape s
  | .jnlImport _ _, _ => jnlImport_shape s
  | .keeperRestartDone, _ => keeperRestartDone_shape s
  | .wdog, _ => wdog_shape s
  | .firmwareErrorRestart, _ => firmwareErrorRestart_shape s
  | .shadowAudit _, _ => shadowAudit_shape s
  | .paceWindowClose _ _ _, _ => paceWindowClose_shape s
  | .fillAlarm _, _ => fillAlarm_shape s
  | .telemetrySample _ _, _ => telemetrySample_shape s
  | .groomGranule _ _ _ _ _, _ => groomGranule_shape s
  | .eyeCheck _, _ => eyeCheck_shape s
  | .skewCheck _, _ => skewCheck_shape s
  | .flashCompaction _ _ _, _ => flashCompaction_shape s
  | .regParityCheck _, _ => regParityCheck_shape s
  | .escalationDeadline _, _ => escalationDeadline_shape s
  | .evpEdge _ _, _ => evpEdge_shape s
  | .swlEdge _ _ _, _ => swlEdge_shape s
  | .swarmReportTimeout _, _ => swarmReportTimeout_shape s
  | .ppsEdge _, _ => ppsEdge_shape s
  | .ppsMissing, _ => ppsMissing_shape s
  | .syncOutPulse, _ => syncOutPulse_shape s
  | .syncInEdge, _ => syncInEdge_shape s
  | .syncMiss, _ => syncMiss_shape s
  | .frameSlot _, _ => frameSlot_shape s
  | .idleFrame _ _, _ => idleFrame_shape s
  | .timeFrame _ _, _ => timeFrame_shape s
  | .eventFrame _ _, _ => eventFrame_shape s
  | .swarmFrame _ _, _ => swarmFrame_shape s
  | .delayRequest _ _ _, _ => delayRequest_shape s
  | .delayResponse _ _ _, _ => delayResponse_shape s
  | .statusFrame _ _, _ => statusFrame_shape s
  | .join _ _, _ => join_shape s
  | .horizonFrame _ _, _ => horizonFrame_shape s
  | .correct _ _, _ => correct_shape s
  | .swarmCal _ _ _, _ => swarmCal_shape s
  | .wakeFrame _ _, _ => wakeFrame_shape s
  | .tunnelFrame _ _, _ => tunnelFrame_shape s
  | .chainFrame _ _, _ => chainFrame_shape s
  | .portUp _, _ => portUp_shape s
  | .portDown _, _ => portDown_shape s
  | .correctionSlewStep, _ => correctionSlewStep_shape s
  | .tunnelTimeout, _ => tunnelTimeout_shape s
  | .domainLock _, _ => domainLock_shape s
  | .domUnlock _, _ => domUnlock_shape s
  | .guardTrip _, _ => guardTrip_shape s
  | .sysrefPulse _, _ => sysrefPulse_shape s
  | .trainingComplete _ _, _ => trainingComplete_shape s
  | .presetDwellEnd _ _, _ => presetDwellEnd_shape s
  | .noSysref _, _ => noSysref_shape s
  | .retryTimer _, _ => retryTimer_shape s
  | .laneLock _, _ => laneLock_shape s
  | .crcLimit _ _, _ => crcLimit_shape s
  | .rxLate _, _ => rxLate_shape s
  | .statusPin _, _ => statusPin_shape s
  | .sampleEmission _ _, _ => sampleEmission_shape s
  | .refillIssue _, _ => refillIssue_shape s
  | .blockResident _ _ _, _ => blockResident_shape s
  | .captureSample _ _, _ => captureSample_shape s
  | .rearmTick _, _ => rearmTick_shape s
  | .streamChunk _ _, _ => streamChunk_shape s
  | .recordCommit _, _ => recordCommit_shape s
  | .eventHop, _ => eventHop_shape s
  | .taskDecision _, _ => taskDecision_shape s
  | .tickTimerExpiry _, _ => tickTimerExpiry_shape s
  | .pinPulseEnd _, _ => pinPulseEnd_shape s
  | .swarmDriveLaunch _, _ => swarmDriveLaunch_shape s
  | .swarmDriveRelease _, _ => swarmDriveRelease_shape s
  | .dramCommandSlot _, _ => dramCommandSlot_shape s
  | .dramEntryDone _ _, _ => dramEntryDone_shape s
  | .refreshDue _ _, _ => refreshDue_shape s
  | .pageIdleClose _ _ _, _ => pageIdleClose_shape s
  | .powerDownEntry _ _, _ => powerDownEntry_shape s
  | .dramTrainingDone _ _ _, _ => dramTrainingDone_shape s
  | .dramClearDone _, _ => dramClearDone_shape s
  | .trackDone _ _ _, _ => trackDone_shape s
  | .tjMoveTrigger _, _ => tjMoveTrigger_shape s
  | .trackTimer _, _ => trackTimer_shape s
  | .ceLimit _, _ => ceLimit_shape s
  | .caParity _, _ => caParity_shape s
  | .patrolScrubBurst _, _ => patrolScrubBurst_shape s
  | .retainLoss, _ => retainLoss_shape s
  | .standbyEntryDone, _ => standbyEntryDone_shape s
  | .pwrEntry, _ => pwrEntry_shape s
  | .wakeTick, _ => wakeTick_shape s
  | .wakeComplete, _ => wakeComplete_shape s
  | .auxClrAssert, _ => auxClrAssert_shape s
  | .auxClrRelease, _ => auxClrRelease_shape s
  | .auxSlewStep _, _ => auxSlewStep_shape s
  | .deglitchHoldEnd _, _ => deglitchHoldEnd_shape s
  | .auxShort _ _, _ => auxShort_shape s
  | .debugHalt, _ => debugHalt_shape s
  | .debugResume, _ => debugResume_shape s
  | .dbgWrite _ _ _, _ => dbgWrite_shape s
  | .jtagInstructionLoad _, _ => jtagInstructionLoad_shape s
  | .tapReset, _ => tapReset_shape s
  | .sessionExpiry, _ => sessionExpiry_shape s
  | .nonceExpiry, _ => nonceExpiry_shape s
  | .authLockExpiry, _ => authLockExpiry_shape s
  | .checkpoint, _ => checkpoint_shape s
  | .replayStart, _ => replayStart_shape s
  | .replayEntry, _ => replayEntry_shape s
  | .replayEnd, _ => replayEnd_shape s
  | .multiblockLockAcquired _ _, _ => multiblockLockAcquired_shape s
  | .pcieLinkUp, _ => pcieLinkUp_shape s
  | .regulatorConfirm _, _ => regulatorConfirm_shape s
  | .combWriteDone, _ => combWriteDone_shape s
  | .fwProgramDone _, _ => fwProgramDone_shape s
  | .fwVerifyDone _, _ => fwVerifyDone_shape s
  | .fwCommitDone _, _ => fwCommitDone_shape s
  | .lcAdvanceDone, _ => lcAdvanceDone_shape s
  | .jnlExportDone _, _ => jnlExportDone_shape s
  | .jnlImportDone _, _ => jnlImportDone_shape s
  | .colSkewCalDone _, _ => colSkewCalDone_shape s

/-- A command leaves the queue as it is, whatever it answers. -/
theorem ActShape.pending {s t : State} {o : Host.Outcome State Fault Refusal} (h : ActShape s o) (ht : o = .next t) :
    t.pending = s.pending := by
  subst ht
  rcases h with h | ⟨-, h⟩ | ⟨-, u, h⟩ <;> cases h
  · rfl
  · exact settle_pending s u

/-! ### The Berza commands -/

theorem nop_berza {s : State} {a0 a1 h p} (hs : specOf (.nop a0 a1) s = some (h, p)) : exec (.nop a0 a1) s = berza h (.nop a0 a1) p s := by
  cases hs; rfl
theorem deviceInfo_berza {s : State} {a0 h p} (hs : specOf (.deviceInfo a0) s = some (h, p)) : exec (.deviceInfo a0) s = berza h (.deviceInfo a0) p s := by
  cases hs; rfl
theorem readyRead_berza {s : State} {a0 h p} (hs : specOf (.readyRead a0) s = some (h, p)) : exec (.readyRead a0) s = berza h (.readyRead a0) p s := by
  cases hs; rfl
theorem windowRead_berza {s : State} {a0 a1 a2 h p} (hs : specOf (.windowRead a0 a1 a2) s = some (h, p)) : exec (.windowRead a0 a1 a2) s = berza h (.windowRead a0 a1 a2) p s := by
  cases hs; rfl
theorem modeSet_berza {s : State} {a0 a1 a2 a3 a4 a5 a6 h p} (hs : specOf (.modeSet a0 a1 a2 a3 a4 a5 a6) s = some (h, p)) : exec (.modeSet a0 a1 a2 a3 a4 a5 a6) s = berza h (.modeSet a0 a1 a2 a3 a4 a5 a6) p s := by
  cases hs; rfl
theorem warmReset_berza {s : State} {a0 h p} (hs : specOf (.warmReset a0) s = some (h, p)) : exec (.warmReset a0) s = berza h (.warmReset a0) p s := by
  cases hs; rfl
theorem keeperRestart_berza {s : State} {a0 a1 h p} (hs : specOf (.keeperRestart a0 a1) s = some (h, p)) : exec (.keeperRestart a0 a1) s = berza h (.keeperRestart a0 a1) p s := by
  cases hs; rfl
theorem hostSet_berza {s : State} {a0 a1 a2 a3 h p} (hs : specOf (.hostSet a0 a1 a2 a3) s = some (h, p)) : exec (.hostSet a0 a1 a2 a3) s = berza h (.hostSet a0 a1 a2 a3) p s := by
  cases hs; rfl
theorem bulkWindowSet_berza {s : State} {a0 a1 h p} (hs : specOf (.bulkWindowSet a0 a1) s = some (h, p)) : exec (.bulkWindowSet a0 a1) s = berza h (.bulkWindowSet a0 a1) p s := by
  cases hs; rfl
theorem fwInfo_berza {s : State} {a0 h p} (hs : specOf (.fwInfo a0) s = some (h, p)) : exec (.fwInfo a0) s = berza h (.fwInfo a0) p s := by
  cases hs; rfl
theorem fwStage_berza {s : State} {a0 a1 a2 h p} (hs : specOf (.fwStage a0 a1 a2) s = some (h, p)) : exec (.fwStage a0 a1 a2) s = berza h (.fwStage a0 a1 a2) p s := by
  cases hs; rfl
theorem fwData_berza {s : State} {a0 a1 a2 a3 a4 h p} (hs : specOf (.fwData a0 a1 a2 a3 a4) s = some (h, p)) : exec (.fwData a0 a1 a2 a3 a4) s = berza h (.fwData a0 a1 a2 a3 a4) p s := by
  cases hs; rfl
theorem fwVerify_berza {s : State} {a0 a1 h p} (hs : specOf (.fwVerify a0 a1) s = some (h, p)) : exec (.fwVerify a0 a1) s = berza h (.fwVerify a0 a1) p s := by
  cases hs; rfl
theorem fwSelect_berza {s : State} {a0 a1 h p} (hs : specOf (.fwSelect a0 a1) s = some (h, p)) : exec (.fwSelect a0 a1) s = berza h (.fwSelect a0 a1) p s := by
  cases hs; rfl
theorem fwCommit_berza {s : State} {a0 h p} (hs : specOf (.fwCommit a0) s = some (h, p)) : exec (.fwCommit a0) s = berza h (.fwCommit a0) p s := by
  cases hs; rfl
theorem segLoad_berza {s : State} {a0 a1 a2 a3 h p} (hs : specOf (.segLoad a0 a1 a2 a3) s = some (h, p)) : exec (.segLoad a0 a1 a2 a3) s = berza h (.segLoad a0 a1 a2 a3) p s := by
  cases hs; rfl
theorem combRead_berza {s : State} {a0 a1 a2 h p} (hs : specOf (.combRead a0 a1 a2) s = some (h, p)) : exec (.combRead a0 a1 a2) s = berza h (.combRead a0 a1 a2) p s := by
  cases hs; rfl
theorem combFill_berza {s : State} {a0 a1 a2 a3 h p} (hs : specOf (.combFill a0 a1 a2 a3) s = some (h, p)) : exec (.combFill a0 a1 a2 a3) s = berza h (.combFill a0 a1 a2 a3) p s := by
  cases hs; rfl
theorem combAtomic_berza {s : State} {a0 a1 a2 a3 h p} (hs : specOf (.combAtomic a0 a1 a2 a3) s = some (h, p)) : exec (.combAtomic a0 a1 a2 a3) s = berza h (.combAtomic a0 a1 a2 a3) p s := by
  cases hs; rfl
theorem combRegionSet_berza {s : State} {a0 a1 a2 a3 a4 a5 h p} (hs : specOf (.combRegionSet a0 a1 a2 a3 a4 a5) s = some (h, p)) : exec (.combRegionSet a0 a1 a2 a3 a4 a5) s = berza h (.combRegionSet a0 a1 a2 a3 a4 a5) p s := by
  cases hs; rfl
theorem combActiveRead_berza {s : State} {a0 a1 a2 a3 a4 h p} (hs : specOf (.combActiveRead a0 a1 a2 a3 a4) s = some (h, p)) : exec (.combActiveRead a0 a1 a2 a3 a4) s = berza h (.combActiveRead a0 a1 a2 a3 a4) p s := by
  cases hs; rfl
theorem srcTableSet_berza {s : State} {a0 a1 a2 h p} (hs : specOf (.srcTableSet a0 a1 a2) s = some (h, p)) : exec (.srcTableSet a0 a1 a2) s = berza h (.srcTableSet a0 a1 a2) p s := by
  cases hs; rfl
theorem srcDescSet_berza {s : State} {a0 a1 a2 a3 h p} (hs : specOf (.srcDescSet a0 a1 a2 a3) s = some (h, p)) : exec (.srcDescSet a0 a1 a2 a3) s = berza h (.srcDescSet a0 a1 a2 a3) p s := by
  cases hs; rfl
theorem curveAreaSet_berza {s : State} {a0 a1 a2 a3 h p} (hs : specOf (.curveAreaSet a0 a1 a2 a3) s = some (h, p)) : exec (.curveAreaSet a0 a1 a2 a3) s = berza h (.curveAreaSet a0 a1 a2 a3) p s := by
  cases hs; rfl
theorem domainSet_berza {s : State} {a0 a1 a2 a3 a4 a5 a6 a7 h p} (hs : specOf (.domainSet a0 a1 a2 a3 a4 a5 a6 a7) s = some (h, p)) : exec (.domainSet a0 a1 a2 a3 a4 a5 a6 a7) s = berza h (.domainSet a0 a1 a2 a3 a4 a5 a6 a7) p s := by
  cases hs; rfl
theorem domainOff_berza {s : State} {a0 a1 h p} (hs : specOf (.domainOff a0 a1) s = some (h, p)) : exec (.domainOff a0 a1) s = berza h (.domainOff a0 a1) p s := by
  cases hs; rfl
theorem syncConfig_berza {s : State} {a0 a1 a2 a3 a4 h p} (hs : specOf (.syncConfig a0 a1 a2 a3 a4) s = some (h, p)) : exec (.syncConfig a0 a1 a2 a3 a4) s = berza h (.syncConfig a0 a1 a2 a3 a4) p s := by
  cases hs; rfl
theorem sysrefSet_berza {s : State} {a0 a1 a2 a3 a4 a5 a6 h p} (hs : specOf (.sysrefSet a0 a1 a2 a3 a4 a5 a6) s = some (h, p)) : exec (.sysrefSet a0 a1 a2 a3 a4 a5 a6) s = berza h (.sysrefSet a0 a1 a2 a3 a4 a5 a6) p s := by
  cases hs; rfl
theorem timeHorizonSet_berza {s : State} {a0 a1 h p} (hs : specOf (.timeHorizonSet a0 a1) s = some (h, p)) : exec (.timeHorizonSet a0 a1) s = berza h (.timeHorizonSet a0 a1) p s := by
  cases hs; rfl
theorem timePpsSet_berza {s : State} {a0 a1 h p} (hs : specOf (.timePpsSet a0 a1) s = some (h, p)) : exec (.timePpsSet a0 a1) s = berza h (.timePpsSet a0 a1) p s := by
  cases hs; rfl
theorem paceConfig_berza {s : State} {a0 a1 a2 a3 a4 a5 a6 a7 a8 h p} (hs : specOf (.paceConfig a0 a1 a2 a3 a4 a5 a6 a7 a8) s = some (h, p)) : exec (.paceConfig a0 a1 a2 a3 a4 a5 a6 a7 a8) s = berza h (.paceConfig a0 a1 a2 a3 a4 a5 a6 a7 a8) p s := by
  cases hs; rfl
theorem cellBind_berza {s : State} {a0 a1 a2 a3 a4 a5 a6 a7 h p} (hs : specOf (.cellBind a0 a1 a2 a3 a4 a5 a6 a7) s = some (h, p)) : exec (.cellBind a0 a1 a2 a3 a4 a5 a6 a7) s = berza h (.cellBind a0 a1 a2 a3 a4 a5 a6 a7) p s := by
  cases hs; rfl
theorem cellArm_berza {s : State} {a0 a1 a2 a3 a4 a5 a6 h p} (hs : specOf (.cellArm a0 a1 a2 a3 a4 a5 a6) s = some (h, p)) : exec (.cellArm a0 a1 a2 a3 a4 a5 a6) s = berza h (.cellArm a0 a1 a2 a3 a4 a5 a6) p s := by
  cases hs; rfl
theorem cellStart_berza {s : State} {a0 a1 h p} (hs : specOf (.cellStart a0 a1) s = some (h, p)) : exec (.cellStart a0 a1) s = berza h (.cellStart a0 a1) p s := by
  cases hs; rfl
theorem cellStop_berza {s : State} {a0 a1 h p} (hs : specOf (.cellStop a0 a1) s = some (h, p)) : exec (.cellStop a0 a1) s = berza h (.cellStop a0 a1) p s := by
  cases hs; rfl
theorem cellPause_berza {s : State} {a0 a1 h p} (hs : specOf (.cellPause a0 a1) s = some (h, p)) : exec (.cellPause a0 a1) s = berza h (.cellPause a0 a1) p s := by
  cases hs; rfl
theorem cellResume_berza {s : State} {a0 a1 h p} (hs : specOf (.cellResume a0 a1) s = some (h, p)) : exec (.cellResume a0 a1) s = berza h (.cellResume a0 a1) p s := by
  cases hs; rfl
theorem cellRateSet_berza {s : State} {a0 a1 a2 h p} (hs : specOf (.cellRateSet a0 a1 a2) s = some (h, p)) : exec (.cellRateSet a0 a1 a2) s = berza h (.cellRateSet a0 a1 a2) p s := by
  cases hs; rfl
theorem cellUnbind_berza {s : State} {a0 a1 h p} (hs : specOf (.cellUnbind a0 a1) s = some (h, p)) : exec (.cellUnbind a0 a1) s = berza h (.cellUnbind a0 a1) p s := by
  cases hs; rfl
theorem groupSet_berza {s : State} {a0 a1 a2 h p} (hs : specOf (.groupSet a0 a1 a2) s = some (h, p)) : exec (.groupSet a0 a1 a2) s = berza h (.groupSet a0 a1 a2) p s := by
  cases hs; rfl
theorem cellClear_berza {s : State} {a0 a1 a2 h p} (hs : specOf (.cellClear a0 a1 a2) s = some (h, p)) : exec (.cellClear a0 a1 a2) s = berza h (.cellClear a0 a1 a2) p s := by
  cases hs; rfl
theorem cellReset_berza {s : State} {a0 a1 h p} (hs : specOf (.cellReset a0 a1) s = some (h, p)) : exec (.cellReset a0 a1) s = berza h (.cellReset a0 a1) p s := by
  cases hs; rfl
theorem synConfig_berza {s : State} {a0 a1 a2 a3 a4 a5 a6 h p} (hs : specOf (.synConfig a0 a1 a2 a3 a4 a5 a6) s = some (h, p)) : exec (.synConfig a0 a1 a2 a3 a4 a5 a6) s = berza h (.synConfig a0 a1 a2 a3 a4 a5 a6) p s := by
  cases hs; rfl
theorem synGainSet_berza {s : State} {a0 a1 a2 a3 h p} (hs : specOf (.synGainSet a0 a1 a2 a3) s = some (h, p)) : exec (.synGainSet a0 a1 a2 a3) s = berza h (.synGainSet a0 a1 a2 a3) p s := by
  cases hs; rfl
theorem formatSet_berza {s : State} {a0 a1 a2 a3 h p} (hs : specOf (.formatSet a0 a1 a2 a3) s = some (h, p)) : exec (.formatSet a0 a1 a2 a3) s = berza h (.formatSet a0 a1 a2 a3) p s := by
  cases hs; rfl
theorem synClear_berza {s : State} {a0 a1 a2 h p} (hs : specOf (.synClear a0 a1 a2) s = some (h, p)) : exec (.synClear a0 a1 a2) s = berza h (.synClear a0 a1 a2) p s := by
  cases hs; rfl
theorem synCoefRead_berza {s : State} {a0 a1 h p} (hs : specOf (.synCoefRead a0 a1) s = some (h, p)) : exec (.synCoefRead a0 a1) s = berza h (.synCoefRead a0 a1) p s := by
  cases hs; rfl
theorem synCalApply_berza {s : State} {a0 a1 a2 a3 h p} (hs : specOf (.synCalApply a0 a1 a2 a3) s = some (h, p)) : exec (.synCalApply a0 a1 a2 a3) s = berza h (.synCalApply a0 a1 a2 a3) p s := by
  cases hs; rfl
theorem queueOpen_berza {s : State} {a0 a1 a2 a3 a4 a5 a6 a7 a8 h p} (hs : specOf (.queueOpen a0 a1 a2 a3 a4 a5 a6 a7 a8) s = some (h, p)) : exec (.queueOpen a0 a1 a2 a3 a4 a5 a6 a7 a8) s = berza h (.queueOpen a0 a1 a2 a3 a4 a5 a6 a7 a8) p s := by
  cases hs; rfl
theorem queueClose_berza {s : State} {a0 a1 a2 h p} (hs : specOf (.queueClose a0 a1 a2) s = some (h, p)) : exec (.queueClose a0 a1 a2) s = berza h (.queueClose a0 a1 a2) p s := by
  cases hs; rfl
theorem queueStatus_berza {s : State} {a0 a1 a2 h p} (hs : specOf (.queueStatus a0 a1 a2) s = some (h, p)) : exec (.queueStatus a0 a1 a2) s = berza h (.queueStatus a0 a1 a2) p s := by
  cases hs; rfl
theorem queueFlush_berza {s : State} {a0 a1 a2 h p} (hs : specOf (.queueFlush a0 a1 a2) s = some (h, p)) : exec (.queueFlush a0 a1 a2) s = berza h (.queueFlush a0 a1 a2) p s := by
  cases hs; rfl
theorem capBind_berza {s : State} {a0 a1 a2 a3 a4 a5 a6 a7 h p} (hs : specOf (.capBind a0 a1 a2 a3 a4 a5 a6 a7) s = some (h, p)) : exec (.capBind a0 a1 a2 a3 a4 a5 a6 a7) s = berza h (.capBind a0 a1 a2 a3 a4 a5 a6 a7) p s := by
  cases hs; rfl
theorem capArm_berza {s : State} {a0 a1 a2 h p} (hs : specOf (.capArm a0 a1 a2) s = some (h, p)) : exec (.capArm a0 a1 a2) s = berza h (.capArm a0 a1 a2) p s := by
  cases hs; rfl
theorem capDisarm_berza {s : State} {a0 a1 h p} (hs : specOf (.capDisarm a0 a1) s = some (h, p)) : exec (.capDisarm a0 a1) s = berza h (.capDisarm a0 a1) p s := by
  cases hs; rfl
theorem capTrigger_berza {s : State} {a0 a1 h p} (hs : specOf (.capTrigger a0 a1) s = some (h, p)) : exec (.capTrigger a0 a1) s = berza h (.capTrigger a0 a1) p s := by
  cases hs; rfl
theorem capRelease_berza {s : State} {a0 a1 a2 h p} (hs : specOf (.capRelease a0 a1 a2) s = some (h, p)) : exec (.capRelease a0 a1 a2) s = berza h (.capRelease a0 a1 a2) p s := by
  cases hs; rfl
theorem capTrigSet_berza {s : State} {a0 a1 a2 a3 a4 a5 h p} (hs : specOf (.capTrigSet a0 a1 a2 a3 a4 a5) s = some (h, p)) : exec (.capTrigSet a0 a1 a2 a3 a4 a5) s = berza h (.capTrigSet a0 a1 a2 a3 a4 a5) p s := by
  cases hs; rfl
theorem capUnbind_berza {s : State} {a0 a1 h p} (hs : specOf (.capUnbind a0 a1) s = some (h, p)) : exec (.capUnbind a0 a1) s = berza h (.capUnbind a0 a1) p s := by
  cases hs; rfl
theorem capClear_berza {s : State} {a0 a1 a2 h p} (hs : specOf (.capClear a0 a1 a2) s = some (h, p)) : exec (.capClear a0 a1 a2) s = berza h (.capClear a0 a1 a2) p s := by
  cases hs; rfl
theorem wagChanSet_berza {s : State} {a0 a1 a2 h p} (hs : specOf (.wagChanSet a0 a1 a2) s = some (h, p)) : exec (.wagChanSet a0 a1 a2) s = berza h (.wagChanSet a0 a1 a2) p s := by
  cases hs; rfl
theorem wagTaskSet_berza {s : State} {a0 a1 a2 a3 h p} (hs : specOf (.wagTaskSet a0 a1 a2 a3) s = some (h, p)) : exec (.wagTaskSet a0 a1 a2 a3) s = berza h (.wagTaskSet a0 a1 a2 a3) p s := by
  cases hs; rfl
theorem wagRaise_berza {s : State} {a0 a1 a2 h p} (hs : specOf (.wagRaise a0 a1 a2) s = some (h, p)) : exec (.wagRaise a0 a1 a2) s = berza h (.wagRaise a0 a1 a2) p s := by
  cases hs; rfl
theorem wagTimerSet_berza {s : State} {a0 a1 a2 a3 a4 a5 h p} (hs : specOf (.wagTimerSet a0 a1 a2 a3 a4 a5) s = some (h, p)) : exec (.wagTimerSet a0 a1 a2 a3 a4 a5) s = berza h (.wagTimerSet a0 a1 a2 a3 a4 a5) p s := by
  cases hs; rfl
theorem wagCounterSet_berza {s : State} {a0 a1 a2 a3 a4 h p} (hs : specOf (.wagCounterSet a0 a1 a2 a3 a4) s = some (h, p)) : exec (.wagCounterSet a0 a1 a2 a3 a4) s = berza h (.wagCounterSet a0 a1 a2 a3 a4) p s := by
  cases hs; rfl
theorem wagPinSet_berza {s : State} {a0 a1 a2 a3 a4 a5 h p} (hs : specOf (.wagPinSet a0 a1 a2 a3 a4 a5) s = some (h, p)) : exec (.wagPinSet a0 a1 a2 a3 a4 a5) s = berza h (.wagPinSet a0 a1 a2 a3 a4 a5) p s := by
  cases hs; rfl
theorem wagWatchRead_berza {s : State} {a0 h p} (hs : specOf (.wagWatchRead a0) s = some (h, p)) : exec (.wagWatchRead a0) s = berza h (.wagWatchRead a0) p s := by
  cases hs; rfl
theorem wagClear_berza {s : State} {a0 a1 a2 a3 h p} (hs : specOf (.wagClear a0 a1 a2 a3) s = some (h, p)) : exec (.wagClear a0 a1 a2 a3) s = berza h (.wagClear a0 a1 a2 a3) p s := by
  cases hs; rfl
theorem wagOwnerSet_berza {s : State} {a0 a1 a2 a3 a4 h p} (hs : specOf (.wagOwnerSet a0 a1 a2 a3 a4) s = some (h, p)) : exec (.wagOwnerSet a0 a1 a2 a3 a4) s = berza h (.wagOwnerSet a0 a1 a2 a3 a4) p s := by
  cases hs; rfl
theorem linkSet_berza {s : State} {a0 a1 a2 h p} (hs : specOf (.linkSet a0 a1 a2) s = some (h, p)) : exec (.linkSet a0 a1 a2) s = berza h (.linkSet a0 a1 a2) p s := by
  cases hs; rfl
theorem linkEnable_berza {s : State} {a0 a1 h p} (hs : specOf (.linkEnable a0 a1) s = some (h, p)) : exec (.linkEnable a0 a1) s = berza h (.linkEnable a0 a1) p s := by
  cases hs; rfl
theorem linkDisable_berza {s : State} {a0 a1 h p} (hs : specOf (.linkDisable a0 a1) s = some (h, p)) : exec (.linkDisable a0 a1) s = berza h (.linkDisable a0 a1) p s := by
  cases hs; rfl
theorem linkRetrain_berza {s : State} {a0 a1 h p} (hs : specOf (.linkRetrain a0 a1) s = some (h, p)) : exec (.linkRetrain a0 a1) s = berza h (.linkRetrain a0 a1) p s := by
  cases hs; rfl
theorem linkSlotSet_berza {s : State} {a0 a1 a2 a3 h p} (hs : specOf (.linkSlotSet a0 a1 a2 a3) s = some (h, p)) : exec (.linkSlotSet a0 a1 a2 a3) s = berza h (.linkSlotSet a0 a1 a2 a3) p s := by
  cases hs; rfl
theorem linkEyeRead_berza {s : State} {a0 a1 h p} (hs : specOf (.linkEyeRead a0 a1) s = some (h, p)) : exec (.linkEyeRead a0 a1) s = berza h (.linkEyeRead a0 a1) p s := by
  cases hs; rfl
theorem linkClear_berza {s : State} {a0 a1 a2 h p} (hs : specOf (.linkClear a0 a1 a2) s = some (h, p)) : exec (.linkClear a0 a1 a2) s = berza h (.linkClear a0 a1 a2) p s := by
  cases hs; rfl
theorem dmcConfig_berza {s : State} {a0 a1 a2 a3 a4 a5 a6 a7 h p} (hs : specOf (.dmcConfig a0 a1 a2 a3 a4 a5 a6 a7) s = some (h, p)) : exec (.dmcConfig a0 a1 a2 a3 a4 a5 a6 a7) s = berza h (.dmcConfig a0 a1 a2 a3 a4 a5 a6 a7) p s := by
  cases hs; rfl
theorem dramRegionSet_berza {s : State} {a0 a1 a2 a3 a4 h p} (hs : specOf (.dramRegionSet a0 a1 a2 a3 a4) s = some (h, p)) : exec (.dramRegionSet a0 a1 a2 a3 a4) s = berza h (.dramRegionSet a0 a1 a2 a3 a4) p s := by
  cases hs; rfl
theorem dramRegionRead_berza {s : State} {a0 a1 a2 h p} (hs : specOf (.dramRegionRead a0 a1 a2) s = some (h, p)) : exec (.dramRegionRead a0 a1 a2) s = berza h (.dramRegionRead a0 a1 a2) p s := by
  cases hs; rfl
theorem dmcRetrain_berza {s : State} {a0 a1 a2 h p} (hs : specOf (.dmcRetrain a0 a1 a2) s = some (h, p)) : exec (.dmcRetrain a0 a1 a2) s = berza h (.dmcRetrain a0 a1 a2) p s := by
  cases hs; rfl
theorem dmcScrubSet_berza {s : State} {a0 a1 a2 h p} (hs : specOf (.dmcScrubSet a0 a1 a2) s = some (h, p)) : exec (.dmcScrubSet a0 a1 a2) s = berza h (.dmcScrubSet a0 a1 a2) p s := by
  cases hs; rfl
theorem dramWrite_berza {s : State} {a0 a1 a2 a3 h p} (hs : specOf (.dramWrite a0 a1 a2 a3) s = some (h, p)) : exec (.dramWrite a0 a1 a2 a3) s = berza h (.dramWrite a0 a1 a2 a3) p s := by
  cases hs; rfl
theorem dramRead_berza {s : State} {a0 a1 a2 h p} (hs : specOf (.dramRead a0 a1 a2) s = some (h, p)) : exec (.dramRead a0 a1 a2) s = berza h (.dramRead a0 a1 a2) p s := by
  cases hs; rfl
theorem dmcClear_berza {s : State} {a0 a1 a2 a3 h p} (hs : specOf (.dmcClear a0 a1 a2 a3) s = some (h, p)) : exec (.dmcClear a0 a1 a2 a3) s = berza h (.dmcClear a0 a1 a2 a3) p s := by
  cases hs; rfl
theorem auxConfig_berza {s : State} {a0 a1 a2 a3 a4 a5 h p} (hs : specOf (.auxConfig a0 a1 a2 a3 a4 a5) s = some (h, p)) : exec (.auxConfig a0 a1 a2 a3 a4 a5) s = berza h (.auxConfig a0 a1 a2 a3 a4 a5) p s := by
  cases hs; rfl
theorem auxWrite_berza {s : State} {a0 a1 a2 a3 h p} (hs : specOf (.auxWrite a0 a1 a2 a3) s = some (h, p)) : exec (.auxWrite a0 a1 a2 a3) s = berza h (.auxWrite a0 a1 a2 a3) p s := by
  cases hs; rfl
theorem auxReadback_berza {s : State} {a0 a1 h p} (hs : specOf (.auxReadback a0 a1) s = some (h, p)) : exec (.auxReadback a0 a1) s = berza h (.auxReadback a0 a1) p s := by
  cases hs; rfl
theorem auxClear_berza {s : State} {a0 a1 a2 h p} (hs : specOf (.auxClear a0 a1 a2) s = some (h, p)) : exec (.auxClear a0 a1 a2) s = berza h (.auxClear a0 a1 a2) p s := by
  cases hs; rfl
theorem colConfig_berza {s : State} {a0 a1 a2 h p} (hs : specOf (.colConfig a0 a1 a2) s = some (h, p)) : exec (.colConfig a0 a1 a2) s = berza h (.colConfig a0 a1 a2) p s := by
  cases hs; rfl
theorem colSkewCal_berza {s : State} {a0 a1 a2 h p} (hs : specOf (.colSkewCal a0 a1 a2) s = some (h, p)) : exec (.colSkewCal a0 a1 a2) s = berza h (.colSkewCal a0 a1 a2) p s := by
  cases hs; rfl
theorem colTunnel_berza {s : State} {a0 a1 a2 a3 h p} (hs : specOf (.colTunnel a0 a1 a2 a3) s = some (h, p)) : exec (.colTunnel a0 a1 a2 a3) s = berza h (.colTunnel a0 a1 a2 a3) p s := by
  cases hs; rfl
theorem colClear_berza {s : State} {a0 a1 h p} (hs : specOf (.colClear a0 a1) s = some (h, p)) : exec (.colClear a0 a1) s = berza h (.colClear a0 a1) p s := by
  cases hs; rfl
theorem colWake_berza {s : State} {a0 a1 a2 h p} (hs : specOf (.colWake a0 a1 a2) s = some (h, p)) : exec (.colWake a0 a1 a2) s = berza h (.colWake a0 a1 a2) p s := by
  cases hs; rfl
theorem ctxSet_berza {s : State} {a0 a1 a2 a3 h p} (hs : specOf (.ctxSet a0 a1 a2 a3) s = some (h, p)) : exec (.ctxSet a0 a1 a2 a3) s = berza h (.ctxSet a0 a1 a2 a3) p s := by
  cases hs; rfl
theorem ownSet_berza {s : State} {a0 a1 a2 a3 a4 a5 h p} (hs : specOf (.ownSet a0 a1 a2 a3 a4 a5) s = some (h, p)) : exec (.ownSet a0 a1 a2 a3 a4 a5) s = berza h (.ownSet a0 a1 a2 a3 a4 a5) p s := by
  cases hs; rfl
theorem ownRead_berza {s : State} {a0 a1 a2 a3 h p} (hs : specOf (.ownRead a0 a1 a2 a3) s = some (h, p)) : exec (.ownRead a0 a1 a2 a3) s = berza h (.ownRead a0 a1 a2 a3) p s := by
  cases hs; rfl
theorem wakeSet_berza {s : State} {a0 a1 a2 a3 a4 h p} (hs : specOf (.wakeSet a0 a1 a2 a3 a4) s = some (h, p)) : exec (.wakeSet a0 a1 a2 a3 a4) s = berza h (.wakeSet a0 a1 a2 a3 a4) p s := by
  cases hs; rfl
theorem lcAdvance_berza {s : State} {a0 a1 a2 h p} (hs : specOf (.lcAdvance a0 a1 a2) s = some (h, p)) : exec (.lcAdvance a0 a1 a2) s = berza h (.lcAdvance a0 a1 a2) p s := by
  cases hs; rfl
theorem dbgOpen_berza {s : State} {a0 a1 h p} (hs : specOf (.dbgOpen a0 a1) s = some (h, p)) : exec (.dbgOpen a0 a1) s = berza h (.dbgOpen a0 a1) p s := by
  cases hs; rfl
theorem dbgResponse_berza {s : State} {a0 a1 a2 h p} (hs : specOf (.dbgResponse a0 a1 a2) s = some (h, p)) : exec (.dbgResponse a0 a1 a2) s = berza h (.dbgResponse a0 a1 a2) p s := by
  cases hs; rfl
theorem dbgClose_berza {s : State} {a0 h p} (hs : specOf (.dbgClose a0) s = some (h, p)) : exec (.dbgClose a0) s = berza h (.dbgClose a0) p s := by
  cases hs; rfl
theorem dbgTraceRead_berza {s : State} {a0 a1 a2 h p} (hs : specOf (.dbgTraceRead a0 a1 a2) s = some (h, p)) : exec (.dbgTraceRead a0 a1 a2) s = berza h (.dbgTraceRead a0 a1 a2) p s := by
  cases hs; rfl
theorem calRead_berza {s : State} {a0 a1 a2 a3 h p} (hs : specOf (.calRead a0 a1 a2 a3) s = some (h, p)) : exec (.calRead a0 a1 a2 a3) s = berza h (.calRead a0 a1 a2 a3) p s := by
  cases hs; rfl
theorem calWrite_berza {s : State} {a0 a1 a2 a3 a4 h p} (hs : specOf (.calWrite a0 a1 a2 a3 a4) s = some (h, p)) : exec (.calWrite a0 a1 a2 a3 a4) s = berza h (.calWrite a0 a1 a2 a3 a4) p s := by
  cases hs; rfl
theorem calErase_berza {s : State} {a0 a1 a2 a3 h p} (hs : specOf (.calErase a0 a1 a2 a3) s = some (h, p)) : exec (.calErase a0 a1 a2 a3) s = berza h (.calErase a0 a1 a2 a3) p s := by
  cases hs; rfl
theorem bgsSet_berza {s : State} {a0 a1 a2 a3 a4 h p} (hs : specOf (.bgsSet a0 a1 a2 a3 a4) s = some (h, p)) : exec (.bgsSet a0 a1 a2 a3 a4) s = berza h (.bgsSet a0 a1 a2 a3 a4) p s := by
  cases hs; rfl
theorem telemRead_berza {s : State} {a0 a1 a2 h p} (hs : specOf (.telemRead a0 a1 a2) s = some (h, p)) : exec (.telemRead a0 a1 a2) s = berza h (.telemRead a0 a1 a2) p s := by
  cases hs; rfl
theorem calStart_berza {s : State} {a0 a1 a2 a3 a4 h p} (hs : specOf (.calStart a0 a1 a2 a3 a4) s = some (h, p)) : exec (.calStart a0 a1 a2 a3 a4) s = berza h (.calStart a0 a1 a2 a3 a4) p s := by
  cases hs; rfl
theorem faultClear_berza {s : State} {a0 a1 a2 a3 h p} (hs : specOf (.faultClear a0 a1 a2 a3) s = some (h, p)) : exec (.faultClear a0 a1 a2 a3) s = berza h (.faultClear a0 a1 a2 a3) p s := by
  cases hs; rfl
theorem faultMaskSet_berza {s : State} {a0 a1 a2 h p} (hs : specOf (.faultMaskSet a0 a1 a2) s = some (h, p)) : exec (.faultMaskSet a0 a1 a2) s = berza h (.faultMaskSet a0 a1 a2) p s := by
  cases hs; rfl
theorem faultEscSet_berza {s : State} {a0 a1 a2 a3 h p} (hs : specOf (.faultEscSet a0 a1 a2 a3) s = some (h, p)) : exec (.faultEscSet a0 a1 a2 a3) s = berza h (.faultEscSet a0 a1 a2 a3) p s := by
  cases hs; rfl
theorem faultInject_berza {s : State} {a0 a1 a2 a3 a4 a5 a6 h p} (hs : specOf (.faultInject a0 a1 a2 a3 a4 a5 a6) s = some (h, p)) : exec (.faultInject a0 a1 a2 a3 a4 a5 a6) s = berza h (.faultInject a0 a1 a2 a3 a4 a5 a6) p s := by
  cases hs; rfl
theorem restoreClear_berza {s : State} {a0 a1 h p} (hs : specOf (.restoreClear a0 a1) s = some (h, p)) : exec (.restoreClear a0 a1) s = berza h (.restoreClear a0 a1) p s := by
  cases hs; rfl
theorem jnlConfig_berza {s : State} {a0 a1 a2 a3 a4 a5 a6 h p} (hs : specOf (.jnlConfig a0 a1 a2 a3 a4 a5 a6) s = some (h, p)) : exec (.jnlConfig a0 a1 a2 a3 a4 a5 a6) s = berza h (.jnlConfig a0 a1 a2 a3 a4 a5 a6) p s := by
  cases hs; rfl
theorem jnlStop_berza {s : State} {a0 h p} (hs : specOf (.jnlStop a0) s = some (h, p)) : exec (.jnlStop a0) s = berza h (.jnlStop a0) p s := by
  cases hs; rfl
theorem jnlCkpt_berza {s : State} {a0 h p} (hs : specOf (.jnlCkpt a0) s = some (h, p)) : exec (.jnlCkpt a0) s = berza h (.jnlCkpt a0) p s := by
  cases hs; rfl
theorem jnlExport_berza {s : State} {a0 a1 a2 a3 h p} (hs : specOf (.jnlExport a0 a1 a2 a3) s = some (h, p)) : exec (.jnlExport a0 a1 a2 a3) s = berza h (.jnlExport a0 a1 a2 a3) p s := by
  cases hs; rfl
theorem jnlImport_berza {s : State} {a0 a1 h p} (hs : specOf (.jnlImport a0 a1) s = some (h, p)) : exec (.jnlImport a0 a1) s = berza h (.jnlImport a0 a1) p s := by
  cases hs; rfl

/-- A Berza command is its frame posted, judged by what `specOf` reads. -/
theorem exec_berza {s : State} {h : Hdr} {p : CSpec} : (c : Instr) → specOf c s = some (h, p) → exec c s = berza h c p s
  | .powerOn, hs => nomatch hs
  | .powerOff, hs => nomatch hs
  | .resetNAssert, hs => nomatch hs
  | .resetNRelease _ _ _, hs => nomatch hs
  | .timePllLock, hs => nomatch hs
  | .timeUnlock, hs => nomatch hs
  | .combBankCleared _ _, hs => nomatch hs
  | .flashReady, hs => nomatch hs
  | .keeperStart, hs => nomatch hs
  | .calLoadDone, hs => nomatch hs
  | .pciePerst, hs => nomatch hs
  | .pcieDown, hs => nomatch hs
  | .post _ _, hs => nomatch hs
  | .ack _ _, hs => nomatch hs
  | .mbReset _ _, hs => nomatch hs
  | .frameTimeout _ _, hs => nomatch hs
  | .ctxIrqStatusRead _, hs => nomatch hs
  | .devtimeLatchRead, hs => nomatch hs
  | .windowWrite _ _, hs => nomatch hs
  | .bulkApertureWrite _ _, hs => nomatch hs
  | .bulkApertureRead _ _, hs => nomatch hs
  | .pcieAtomicOp _, hs => nomatch hs
  | .doorbellWrite _ _ _ _, hs => nomatch hs
  | .doorbellApply, hs => nomatch hs
  | .spiWrite _ _ _, hs => nomatch hs
  | .spiRead _ _, hs => nomatch hs
  | .spiIrqRead, hs => nomatch hs
  | .spiId, hs => nomatch hs
  | .registerWrite _ _, hs => nomatch hs
  | .commandDecision, hs => nomatch hs
  | .nop _ _, hs => nop_berza hs
  | .deviceInfo _, hs => deviceInfo_berza hs
  | .readyRead _, hs => readyRead_berza hs
  | .windowRead _ _ _, hs => windowRead_berza hs
  | .modeSet _ _ _ _ _ _ _, hs => modeSet_berza hs
  | .warmReset _, hs => warmReset_berza hs
  | .keeperRestart _ _, hs => keeperRestart_berza hs
  | .hostSet _ _ _ _, hs => hostSet_berza hs
  | .bulkWindowSet _ _, hs => bulkWindowSet_berza hs
  | .fwInfo _, hs => fwInfo_berza hs
  | .fwStage _ _ _, hs => fwStage_berza hs
  | .flashEraseDone _, hs => nomatch hs
  | .fwData _ _ _ _ _, hs => fwData_berza hs
  | .fwVerify _ _, hs => fwVerify_berza hs
  | .fwSelect _ _, hs => fwSelect_berza hs
  | .fwCommit _, hs => fwCommit_berza hs
  | .segLoad _ _ _ _, hs => segLoad_berza hs
  | .combRead _ _ _, hs => combRead_berza hs
  | .combFill _ _ _ _, hs => combFill_berza hs
  | .combAtomic _ _ _ _, hs => combAtomic_berza hs
  | .combRegionSet _ _ _ _ _ _, hs => combRegionSet_berza hs
  | .combActiveRead _ _ _ _ _, hs => combActiveRead_berza hs
  | .srcTableSet _ _ _, hs => srcTableSet_berza hs
  | .srcDescSet _ _ _ _, hs => srcDescSet_berza hs
  | .curveAreaSet _ _ _ _, hs => curveAreaSet_berza hs
  | .domainSet _ _ _ _ _ _ _ _, hs => domainSet_berza hs
  | .domainOff _ _, hs => domainOff_berza hs
  | .syncConfig _ _ _ _ _, hs => syncConfig_berza hs
  | .sysrefSet _ _ _ _ _ _ _, hs => sysrefSet_berza hs
  | .timeHorizonSet _ _, hs => timeHorizonSet_berza hs
  | .timePpsSet _ _, hs => timePpsSet_berza hs
  | .paceConfig _ _ _ _ _ _ _ _ _, hs => paceConfig_berza hs
  | .cellBind _ _ _ _ _ _ _ _, hs => cellBind_berza hs
  | .cellArm _ _ _ _ _ _ _, hs => cellArm_berza hs
  | .cellStart _ _, hs => cellStart_berza hs
  | .cellStop _ _, hs => cellStop_berza hs
  | .cellPause _ _, hs => cellPause_berza hs
  | .cellResume _ _, hs => cellResume_berza hs
  | .cellRateSet _ _ _, hs => cellRateSet_berza hs
  | .cellUnbind _ _, hs => cellUnbind_berza hs
  | .groupSet _ _ _, hs => groupSet_berza hs
  | .cellClear _ _ _, hs => cellClear_berza hs
  | .cellReset _ _, hs => cellReset_berza hs
  | .synConfig _ _ _ _ _ _ _, hs => synConfig_berza hs
  | .synGainSet _ _ _ _, hs => synGainSet_berza hs
  | .formatSet _ _ _ _, hs => formatSet_berza hs
  | .synClear _ _ _, hs => synClear_berza hs
  | .synCoefRead _ _, hs => synCoefRead_berza hs
  | .synCalApply _ _ _ _, hs => synCalApply_berza hs
  | .queueOpen _ _ _ _ _ _ _ _ _, hs => queueOpen_berza hs
  | .queueClose _ _ _, hs => queueClose_berza hs
  | .queueStatus _ _ _, hs => queueStatus_berza hs
  | .queueFlush _ _ _, hs => queueFlush_berza hs
  | .capBind _ _ _ _ _ _ _ _, hs => capBind_berza hs
  | .capArm _ _ _, hs => capArm_berza hs
  | .capArmFillDone _, hs => nomatch hs
  | .capDisarm _ _, hs => capDisarm_berza hs
  | .capTrigger _ _, hs => capTrigger_berza hs
  | .capRelease _ _ _, hs => capRelease_berza hs
  | .capTrigSet _ _ _ _ _ _, hs => capTrigSet_berza hs
  | .capUnbind _ _, hs => capUnbind_berza hs
  | .capClear _ _ _, hs => capClear_berza hs
  | .wagChanSet _ _ _, hs => wagChanSet_berza hs
  | .wagTaskSet _ _ _ _, hs => wagTaskSet_berza hs
  | .wagRaise _ _ _, hs => wagRaise_berza hs
  | .wagTimerSet _ _ _ _ _ _, hs => wagTimerSet_berza hs
  | .wagCounterSet _ _ _ _ _, hs => wagCounterSet_berza hs
  | .wagPinSet _ _ _ _ _ _, hs => wagPinSet_berza hs
  | .wagWatchRead _, hs => wagWatchRead_berza hs
  | .wagClear _ _ _ _, hs => wagClear_berza hs
  | .wagOwnerSet _ _ _ _ _, hs => wagOwnerSet_berza hs
  | .linkSet _ _ _, hs => linkSet_berza hs
  | .linkEnable _ _, hs => linkEnable_berza hs
  | .linkDisable _ _, hs => linkDisable_berza hs
  | .linkRetrain _ _, hs => linkRetrain_berza hs
  | .linkSlotSet _ _ _ _, hs => linkSlotSet_berza hs
  | .linkEyeRead _ _, hs => linkEyeRead_berza hs
  | .linkClear _ _ _, hs => linkClear_berza hs
  | .dmcConfig _ _ _ _ _ _ _ _, hs => dmcConfig_berza hs
  | .dramRegionSet _ _ _ _ _, hs => dramRegionSet_berza hs
  | .dramRegionRead _ _ _, hs => dramRegionRead_berza hs
  | .dmcRetrain _ _ _, hs => dmcRetrain_berza hs
  | .dmcScrubSet _ _ _, hs => dmcScrubSet_berza hs
  | .dramWrite _ _ _ _, hs => dramWrite_berza hs
  | .dramRead _ _ _, hs => dramRead_berza hs
  | .dmcClear _ _ _ _, hs => dmcClear_berza hs
  | .auxConfig _ _ _ _ _ _, hs => auxConfig_berza hs
  | .auxWrite _ _ _ _, hs => auxWrite_berza hs
  | .auxReadback _ _, hs => auxReadback_berza hs
  | .auxReadbackDone _ _, hs => nomatch hs
  | .auxClear _ _ _, hs => auxClear_berza hs
  | .colConfig _ _ _, hs => colConfig_berza hs
  | .colSkewCal _ _ _, hs => colSkewCal_berza hs
  | .colTunnel _ _ _ _, hs => colTunnel_berza hs
  | .colClear _ _, hs => colClear_berza hs
  | .colWake _ _ _, hs => colWake_berza hs
  | .ctxSet _ _ _ _, hs => ctxSet_berza hs
  | .ownSet _ _ _ _ _ _, hs => ownSet_berza hs
  | .ownRead _ _ _ _, hs => ownRead_berza hs
  | .wakeSet _ _ _ _ _, hs => wakeSet_berza hs
  | .lcAdvance _ _ _, hs => lcAdvance_berza hs
  | .dbgOpen _ _, hs => dbgOpen_berza hs
  | .dbgResponse _ _ _, hs => dbgResponse_berza hs
  | .dbgClose _, hs => dbgClose_berza hs
  | .dbgTraceRead _ _ _, hs => dbgTraceRead_berza hs
  | .calRead _ _ _ _, hs => calRead_berza hs
  | .calWrite _ _ _ _ _, hs => calWrite_berza hs
  | .calRecordProgrammed _, hs => nomatch hs
  | .calErase _ _ _ _, hs => calErase_berza hs
  | .bgsSet _ _ _ _ _, hs => bgsSet_berza hs
  | .telemRead _ _ _, hs => telemRead_berza hs
  | .calStart _ _ _ _ _, hs => calStart_berza hs
  | .calRunComplete _, hs => nomatch hs
  | .faultClear _ _ _ _, hs => faultClear_berza hs
  | .faultMaskSet _ _ _, hs => faultMaskSet_berza hs
  | .faultEscSet _ _ _ _, hs => faultEscSet_berza hs
  | .faultInject _ _ _ _ _ _ _, hs => faultInject_berza hs
  | .restoreClear _ _, hs => restoreClear_berza hs
  | .jnlConfig _ _ _ _ _ _ _, hs => jnlConfig_berza hs
  | .jnlStop _, hs => jnlStop_berza hs
  | .jnlCkpt _, hs => jnlCkpt_berza hs
  | .jnlExport _ _ _ _, hs => jnlExport_berza hs
  | .jnlImport _ _, hs => jnlImport_berza hs
  | .keeperRestartDone, hs => nomatch hs
  | .wdog, hs => nomatch hs
  | .firmwareErrorRestart, hs => nomatch hs
  | .shadowAudit _, hs => nomatch hs
  | .paceWindowClose _ _ _, hs => nomatch hs
  | .fillAlarm _, hs => nomatch hs
  | .telemetrySample _ _, hs => nomatch hs
  | .groomGranule _ _ _ _ _, hs => nomatch hs
  | .eyeCheck _, hs => nomatch hs
  | .skewCheck _, hs => nomatch hs
  | .flashCompaction _ _ _, hs => nomatch hs
  | .regParityCheck _, hs => nomatch hs
  | .escalationDeadline _, hs => nomatch hs
  | .evpEdge _ _, hs => nomatch hs
  | .swlEdge _ _ _, hs => nomatch hs
  | .swarmReportTimeout _, hs => nomatch hs
  | .ppsEdge _, hs => nomatch hs
  | .ppsMissing, hs => nomatch hs
  | .syncOutPulse, hs => nomatch hs
  | .syncInEdge, hs => nomatch hs
  | .syncMiss, hs => nomatch hs
  | .frameSlot _, hs => nomatch hs
  | .idleFrame _ _, hs => nomatch hs
  | .timeFrame _ _, hs => nomatch hs
  | .eventFrame _ _, hs => nomatch hs
  | .swarmFrame _ _, hs => nomatch hs
  | .delayRequest _ _ _, hs => nomatch hs
  | .delayResponse _ _ _, hs => nomatch hs
  | .statusFrame _ _, hs => nomatch hs
  | .join _ _, hs => nomatch hs
  | .horizonFrame _ _, hs => nomatch hs
  | .correct _ _, hs => nomatch hs
  | .swarmCal _ _ _, hs => nomatch hs
  | .wakeFrame _ _, hs => nomatch hs
  | .tunnelFrame _ _, hs => nomatch hs
  | .chainFrame _ _, hs => nomatch hs
  | .portUp _, hs => nomatch hs
  | .portDown _, hs => nomatch hs
  | .correctionSlewStep, hs => nomatch hs
  | .tunnelTimeout, hs => nomatch hs
  | .domainLock _, hs => nomatch hs
  | .domUnlock _, hs => nomatch hs
  | .guardTrip _, hs => nomatch hs
  | .sysrefPulse _, hs => nomatch hs
  | .trainingComplete _ _, hs => nomatch hs
  | .presetDwellEnd _ _, hs => nomatch hs
  | .noSysref _, hs => nomatch hs
  | .retryTimer _, hs => nomatch hs
  | .laneLock _, hs => nomatch hs
  | .crcLimit _ _, hs => nomatch hs
  | .rxLate _, hs => nomatch hs
  | .statusPin _, hs => nomatch hs
  | .sampleEmission _ _, hs => nomatch hs
  | .refillIssue _, hs => nomatch hs
  | .blockResident _ _ _, hs => nomatch hs
  | .captureSample _ _, hs => nomatch hs
  | .rearmTick _, hs => nomatch hs
  | .streamChunk _ _, hs => nomatch hs
  | .recordCommit _, hs => nomatch hs
  | .eventHop, hs => nomatch hs
  | .taskDecision _, hs => nomatch hs
  | .tickTimerExpiry _, hs => nomatch hs
  | .pinPulseEnd _, hs => nomatch hs
  | .swarmDriveLaunch _, hs => nomatch hs
  | .swarmDriveRelease _, hs => nomatch hs
  | .dramCommandSlot _, hs => nomatch hs
  | .dramEntryDone _ _, hs => nomatch hs
  | .refreshDue _ _, hs => nomatch hs
  | .pageIdleClose _ _ _, hs => nomatch hs
  | .powerDownEntry _ _, hs => nomatch hs
  | .dramTrainingDone _ _ _, hs => nomatch hs
  | .dramClearDone _, hs => nomatch hs
  | .trackDone _ _ _, hs => nomatch hs
  | .tjMoveTrigger _, hs => nomatch hs
  | .trackTimer _, hs => nomatch hs
  | .ceLimit _, hs => nomatch hs
  | .caParity _, hs => nomatch hs
  | .patrolScrubBurst _, hs => nomatch hs
  | .retainLoss, hs => nomatch hs
  | .standbyEntryDone, hs => nomatch hs
  | .pwrEntry, hs => nomatch hs
  | .wakeTick, hs => nomatch hs
  | .wakeComplete, hs => nomatch hs
  | .auxClrAssert, hs => nomatch hs
  | .auxClrRelease, hs => nomatch hs
  | .auxSlewStep _, hs => nomatch hs
  | .deglitchHoldEnd _, hs => nomatch hs
  | .auxShort _ _, hs => nomatch hs
  | .debugHalt, hs => nomatch hs
  | .debugResume, hs => nomatch hs
  | .dbgWrite _ _ _, hs => nomatch hs
  | .jtagInstructionLoad _, hs => nomatch hs
  | .tapReset, hs => nomatch hs
  | .sessionExpiry, hs => nomatch hs
  | .nonceExpiry, hs => nomatch hs
  | .authLockExpiry, hs => nomatch hs
  | .checkpoint, hs => nomatch hs
  | .replayStart, hs => nomatch hs
  | .replayEntry, hs => nomatch hs
  | .replayEnd, hs => nomatch hs
  | .multiblockLockAcquired _ _, hs => nomatch hs
  | .pcieLinkUp, hs => nomatch hs
  | .regulatorConfirm _, hs => nomatch hs
  | .combWriteDone, hs => nomatch hs
  | .fwProgramDone _, hs => nomatch hs
  | .fwVerifyDone _, hs => nomatch hs
  | .fwCommitDone _, hs => nomatch hs
  | .lcAdvanceDone, hs => nomatch hs
  | .jnlExportDone _, hs => nomatch hs
  | .jnlImportDone _, hs => nomatch hs
  | .colSkewCalDone _, hs => nomatch hs

end Sys2Proof.Laws
end

