-- ==== Sys2Proof/WellFormed.lean ====
section
/-! DEFINITION. Well-formed commands: terms the outside can produce. A Berza command's numbers fit the fields that carry
them in its frame (R330, R331); an event names a unit that a ZW1024-A has. A term that is not well formed stands for
nothing that can happen; `exec` still has an answer for it. -/

namespace Sys2Proof

/-- A number fits an argument field of `k` bytes. -/
def fits (k n : Nat) : Bool := decide (n < 2 ^ (8 * k))

/-- A signed number fits an argument field of 4 bytes. -/
def fitsInt (i : Int) : Bool := decide (-(2 ^ 31) ≤ i) && decide (i < 2 ^ 31)

/-- A list of cells that a 1,024-bit mask spells. -/
def cellsOk (l : List Nat) : Bool := l.all fun c => c < 1024

/-- The widths in bits that a write to a doorbell can have. -/
def widthOk (w : Nat) : Bool := w = 8 || w = 16 || w = 32 || w = 64

/-- A header fits its frame fields and names a mailbox. -/
def Hdr.wf (h : Hdr) : Bool := decide (h.ctx < 16) && decide (h.mb < 4) && decide (h.seq < 2 ^ 16) && decide (h.eff < 2 ^ 60)

/-- A kind and number fit the 4-byte argument that carries them. -/
def Sel.wf (x : Sel) : Bool := decide (x.kind < 16) && decide (x.num < 2 ^ 28)

/-- The arguments of `CAP_ARM` fit their fields. -/
def CapArmArgs.wf (a : CapArmArgs) : Bool :=
  fits 4 a.ringBase && fits 4 a.ringLen && fits 1 a.rearm && fits 4 a.count && fits 4 a.preLen && fits 4 a.postLen &&
    fits 4 a.accBase && fits 4 a.l && fits 4 a.delay && fits 1 a.clear && fits 1 a.dump

/-- The arguments of `LINK_SET` fit their fields. -/
def LinkArgs.wf (a : LinkArgs) : Bool :=
  fits 1 a.domain && fits 1 a.firstLane && fits 1 a.l && fits 2 a.m && fits 1 a.s && fits 1 a.e &&
    decide (a.laneMap.length = 8) && a.laneMap.all (fits 1) && fits 1 a.presets && fits 1 a.statusPin && fits 1 a.cap24 &&
    fits 2 a.rxLat && fits 2 a.crcLimit && fits 1 a.eyeWMin && fits 1 a.eyeHMin && fits 2 a.retryS && fits 1 a.safeLink

/-- The per-channel settings of `DMC_CONFIG` fit their fields. -/
def DmcChan.wf (c : DmcChan) : Bool :=
  fits 1 c.speed && fits 1 c.ranks && fits 1 c.density && fits 1 c.map && fits 1 c.ref2x && fits 1 c.pageIdle && fits 1 c.pdIdle

/-- A well-formed command. -/
def Instr.wf : Instr → Bool
  | .powerOn => true
  | .powerOff => true
  | .resetNAssert => true
  | .resetNRelease _ _ _ => true
  | .timePllLock => true
  | .timeUnlock => true
  | .combBankCleared hive _ => decide (hive < 64)
  | .flashReady => true
  | .keeperStart => true
  | .calLoadDone => true
  | .pciePerst => true
  | .pcieDown => true
  | .post ctx mb => decide (ctx < 16) && decide (mb < 4)
  | .ack ctx mb => decide (ctx < 16) && decide (mb < 4)
  | .mbReset ctx mb => decide (ctx < 16) && decide (mb < 4)
  | .frameTimeout ctx mb => decide (ctx < 16) && decide (mb < 4)
  | .ctxIrqStatusRead ctx => decide (ctx < 16)
  | .devtimeLatchRead => true
  | .windowWrite offset data => decide (offset + data.length ≤ 2 ^ 20)
  | .bulkApertureWrite offset data => decide (offset + data.length ≤ 2 ^ 32)
  | .bulkApertureRead offset len => decide (offset + len ≤ 2 ^ 32)
  | .pcieAtomicOp _ => true
  | .doorbellWrite ctx offset width _ => decide (ctx < 16) && decide (offset < 0x1000) && widthOk width
  | .doorbellApply => true
  | .spiWrite instr addr _ => decide (instr < 256) && decide (addr < 2 ^ 16)
  | .spiRead addr _ => decide (addr < 2 ^ 16)
  | .spiIrqRead => true
  | .spiId => true
  | .registerWrite _ _ => true
  | .commandDecision => true
  | .nop h args => h.wf && decide (args.length ≤ 42)
  | .deviceInfo h => h.wf
  | .readyRead h => h.wf
  | .windowRead h offset count => h.wf && fits 4 offset && fits 1 count
  | .modeSet h mode power stopOnMismatch k e _ => h.wf && fits 1 mode && fits 1 power && fits 1 stopOnMismatch &&
      fits 8 k && fits 8 e
  | .warmReset h => h.wf
  | .keeperRestart h image => h.wf && fits 1 image
  | .hostSet h spiMask noticeCh restartCh => h.wf && fits 8 spiMask && fits 2 noticeCh && fits 2 restartCh
  | .bulkWindowSet h base => h.wf && fits 8 base
  | .fwInfo h => h.wf
  | .fwStage h image size => h.wf && fits 1 image && fits 4 size
  | .flashEraseDone _ => true
  | .fwData h image offset count data => h.wf && fits 1 image && fits 4 offset && fits 2 count &&
      decide (data.length = count)
  | .fwVerify h image => h.wf && fits 1 image
  | .fwSelect h image => h.wf && fits 1 image
  | .fwCommit h => h.wf
  | .segLoad h ca count data => h.wf && fits 4 ca && fits 2 count && decide (data.length = count)
  | .combRead h ca count => h.wf && fits 4 ca && fits 1 count
  | .combFill h ca length _ => h.wf && fits 4 ca && fits 4 length
  | .combAtomic h ca op _ => h.wf && fits 4 ca && fits 1 op
  | .combRegionSet h hive bank region owner secure => h.wf && fits 1 hive && fits 1 bank && fits 1 region &&
      fits 1 owner && fits 1 secure
  | .combActiveRead h hive bank first count => h.wf && fits 1 hive && fits 1 bank && fits 2 first && fits 2 count
  | .srcTableSet h hive srcCount => h.wf && fits 1 hive && fits 2 srcCount
  | .srcDescSet h hive index _ => h.wf && fits 1 hive && fits 2 index
  | .curveAreaSet h hive base envCount => h.wf && fits 1 hive && fits 4 base && fits 1 envCount
  | .domainSet h domain num den div ldiv lockN guard => h.wf && fits 1 domain && fits 4 num && fits 2 den &&
      fits 2 div && fits 1 ldiv && fits 2 lockN && fits 2 guard
  | .domainOff h domain => h.wf && fits 1 domain
  | .syncConfig h syncLog2 syncLat drive check => h.wf && fits 1 syncLog2 && fits 1 syncLat && fits 1 drive &&
      fits 1 check
  | .sysrefSet h domain mode period count width delay => h.wf && fits 1 domain && fits 1 mode && fits 4 period &&
      fits 1 count && fits 1 width && fits 1 delay
  | .timeHorizonSet h hor => h.wf && fits 2 hor
  | .timePpsSet h sec => h.wf && fits 8 sec
  | .paceConfig h window margin fillGuard fillAlarmArg floor ceiling stepUp stepDown => h.wf && fits 4 window &&
      fits 1 margin && fits 1 fillGuard && fits 1 fillAlarmArg && fits 2 floor && fits 2 ceiling &&
      fits 1 stepUp && fits 1 stepDown
  | .cellBind h cell domain ratio target bridge park slip => h.wf && fits 2 cell && fits 1 domain &&
      fits 8 ratio && target.wf && fits 1 bridge && fitsInt park && fits 1 slip
  | .cellArm h cell stepBase stepCount jmapBase jmapCount firstStep => h.wf && fits 2 cell && fits 4 stepBase &&
      fits 2 stepCount && fits 4 jmapBase && fits 1 jmapCount && fits 2 firstStep
  | .cellStart h unit => h.wf && unit.wf
  | .cellStop h unit => h.wf && unit.wf
  | .cellPause h unit => h.wf && unit.wf
  | .cellResume h unit => h.wf && unit.wf
  | .cellRateSet h cell ratio => h.wf && fits 2 cell && fits 8 ratio
  | .cellUnbind h cell => h.wf && fits 2 cell
  | .groupSet h group cells => h.wf && fits 1 group && cellsOk cells
  | .cellClear h cell _ => h.wf && fits 2 cell
  | .cellReset h cell => h.wf && fits 2 cell
  | .synConfig h cell format pdEn pdAddr gU oU => h.wf && fits 2 cell && fits 1 format && fits 1 pdEn &&
      fits 4 pdAddr && fitsInt gU && fitsInt oU
  | .synGainSet h unit gU oU => h.wf && unit.wf && fitsInt gU && fitsInt oU
  | .formatSet h link entry _ => h.wf && fits 1 link && fits 1 entry
  | .synClear h cell _ => h.wf && fits 2 cell
  | .synCoefRead h phase => h.wf && fits 1 phase
  | .synCalApply h cell gC oC => h.wf && fits 2 cell && fitsInt gC && fitsInt oC
  | .queueOpen h cell q ringBase sizeLog2 mode tail bufBase bufCount => h.wf && fits 2 cell && fits 2 q &&
      fits 8 ringBase && fits 1 sizeLog2 && fits 1 mode && fits 2 tail && fits 4 bufBase && fits 1 bufCount
  | .queueClose h cell q => h.wf && fits 2 cell && fits 2 q
  | .queueStatus h cell q => h.wf && fits 2 cell && fits 2 q
  | .queueFlush h cell q => h.wf && fits 2 cell && fits 2 q
  | .capBind h channel domain k slot recBase recLog2 mode => h.wf && fits 2 channel && fits 1 domain &&
      fits 1 k && fits 2 slot && fits 8 recBase && fits 1 recLog2 && fits 1 mode
  | .capArm h channel a => h.wf && fits 2 channel && a.wf
  | .capArmFillDone channel => decide (channel < 1024)
  | .capDisarm h unit => h.wf && unit.wf
  | .capTrigger h channel => h.wf && fits 2 channel
  | .capRelease h channel rd => h.wf && fits 2 channel && fits 4 rd
  | .capTrigSet h channel enable thr hyst edge => h.wf && fits 2 channel && fits 1 enable && fitsInt thr &&
      fits 4 hyst && fits 1 edge
  | .capUnbind h channel => h.wf && fits 2 channel
  | .capClear h channel _ => h.wf && fits 2 channel
  | .wagChanSet h channel _ => h.wf && fits 2 channel
  | .wagTaskSet h task slots scope => h.wf && fits 2 task && decide (slots.length = 4) && fits 1 scope
  | .wagRaise h channel level => h.wf && fits 2 channel && fits 1 level
  | .wagTimerSet h timer first period count delay => h.wf && fits 1 timer && fits 8 first && fits 4 period &&
      fits 4 count && fits 4 delay
  | .wagCounterSet h counter value terminal reload => h.wf && fits 1 counter && fits 4 value &&
      fits 4 terminal && fits 1 reload
  | .wagPinSet h pin dir idle action width => h.wf && fits 1 pin && fits 1 dir && fits 1 idle && fits 1 action &&
      fits 2 width
  | .wagWatchRead h => h.wf
  | .wagClear h unit _ level => h.wf && unit.wf && fits 1 level
  | .wagOwnerSet h kind index owner secure => h.wf && fits 1 kind && fits 2 index && fits 1 owner && fits 1 secure
  | .linkSet h link a => h.wf && fits 1 link && a.wf
  | .linkEnable h link => h.wf && fits 1 link
  | .linkDisable h link => h.wf && fits 1 link
  | .linkRetrain h link => h.wf && fits 1 link
  | .linkSlotSet h link slot format => h.wf && fits 1 link && fits 1 slot && fits 1 format
  | .linkEyeRead h lane => h.wf && fits 1 lane
  | .linkClear h link _ => h.wf && fits 1 link
  | .dmcConfig h chans interleave ctxBase ageLimit minMargin trackH ceLimitArg => h.wf &&
      decide (chans.length = 4) && chans.all DmcChan.wf && fits 1 interleave && fits 8 ctxBase &&
      fits 1 ageLimit && fits 1 minMargin && fits 1 trackH && fits 2 ceLimitArg
  | .dramRegionSet h first count owner secure => h.wf && fits 2 first && fits 2 count && fits 1 owner && fits 1 secure
  | .dramRegionRead h first count => h.wf && fits 2 first && fits 1 count
  | .dmcRetrain h channel kind => h.wf && fits 1 channel && fits 1 kind
  | .dmcScrubSet h enable periodH => h.wf && fits 1 enable && fits 1 periodH
  | .dramWrite h addr count data => h.wf && fits 8 addr && fits 2 count && decide (data.length = count)
  | .dramRead h addr count => h.wf && fits 8 addr && fits 1 count
  | .dmcClear h channel _ unfreeze => h.wf && fits 1 channel && fits 1 unfreeze
  | .auxConfig h channel shape stepSize rate clearCode => h.wf && fits 1 channel && fits 1 shape &&
      fits 2 stepSize && fits 2 rate && fits 2 clearCode
  | .auxWrite h channel code raw => h.wf && fits 1 channel && fits 2 code && fits 1 raw
  | .auxReadback h channel => h.wf && fits 1 channel
  | .auxReadbackDone channel meas => decide (channel < 64) && decide (meas < 2 ^ 16)
  | .auxClear h channel _ => h.wf && fits 1 channel
  | .colConfig h _ swlLead => h.wf && fits 1 swlLead
  | .colSkewCal h exchanges swlMask => h.wf && fits 2 exchanges && fits 8 swlMask
  | .colTunnel h device path frame => h.wf && fits 1 device && fits 1 path && decide (frame.length = 64)
  | .colClear h _ => h.wf
  | .colWake h _ wakeTickArg => h.wf && fits 8 wakeTickArg
  | .ctxSet h context enable secure => h.wf && fits 1 context && fits 1 enable && fits 1 secure
  | .ownSet h kind first count owner secure => h.wf && fits 1 kind && fits 2 first && fits 2 count &&
      fits 1 owner && fits 1 secure
  | .ownRead h kind first count => h.wf && fits 1 kind && fits 2 first && fits 1 count
  | .wakeSet h _ _ colony wakeTickArg => h.wf && fits 1 colony && fits 8 wakeTickArg
  | .lcAdvance h target confirm => h.wf && fits 1 target && fits 4 confirm
  | .dbgOpen h level => h.wf && fits 1 level
  | .dbgResponse h _ sessionMin => h.wf && fits 2 sessionMin
  | .dbgClose h => h.wf
  | .dbgTraceRead h offset count => h.wf && fits 2 offset && fits 1 count
  | .calRead h kind index source => h.wf && fits 1 kind && fits 2 index && fits 1 source
  | .calWrite h kind index apply payload => h.wf && fits 1 kind && fits 2 index && fits 1 apply &&
      decide (payload.length = if kind = 3 then 32 else 8)
  | .calRecordProgrammed _ => true
  | .calErase h kind index apply => h.wf && fits 1 kind && fits 2 index && fits 1 apply
  | .bgsSet h groomRate eyePeriod skewPeriod endurance => h.wf && fits 2 groomRate && fits 2 eyePeriod &&
      fits 4 skewPeriod && fits 4 endurance
  | .telemRead h first count => h.wf && fits 1 first && fits 1 count
  | .calStart h items cells _ _ => h.wf && fits 8 items && cellsOk cells
  | .calRunComplete r => r.status.all (· < 3)
  | .faultClear h block _ rearm => h.wf && fits 1 block && fits 1 rearm
  | .faultMaskSet h block _ => h.wf && fits 1 block
  | .faultEscSet h block window reaction => h.wf && fits 1 block && fits 4 window && fits 1 reaction
  | .faultInject h kind block bit cls object count => h.wf && fits 1 kind && fits 1 block && fits 1 bit &&
      fits 1 cls && fits 8 object && fits 4 count
  | .restoreClear h _ => h.wf
  | .jnlConfig h base size mode ckptPeriod _ sigEn => h.wf && fits 8 base && fits 8 size && fits 1 mode &&
      fits 4 ckptPeriod && fits 1 sigEn
  | .jnlStop h => h.wf
  | .jnlCkpt h => h.wf
  | .jnlExport h first last dest => h.wf && fits 8 first && fits 8 last && decide (dest.kind < 256) &&
      decide (dest.num < 2 ^ 64)
  | .jnlImport h source => h.wf && decide (source.kind < 256) && decide (source.num < 2 ^ 64)
  | .keeperRestartDone => true
  | .wdog => true
  | .firmwareErrorRestart => true
  | .shadowAudit diverged => diverged.all fun u => u.kind < 16
  | .paceWindowClose readVout _ hives => decide (readVout < 1024) && hives.all fun m => m.hive < 64
  | .fillAlarm hive => decide (hive < 64)
  | .telemetrySample chan _ => decide (chan < 28)
  | .groomGranule hive bank granule _ _ => decide (hive < if bank < 2 then 64 else 1) && decide (bank < 4) &&
      decide (granule < if bank = 0 then 6144 else if bank = 1 then 2048 else if bank = 2 then 8192 else 16384)
  | .eyeCheck m => decide (m.lane < 32)
  | .skewCheck exchanges => decide (1 ≤ exchanges) && decide (exchanges ≤ 4096)
  | .flashCompaction store _ _ => decide (store < 2)
  | .regParityCheck block => decide (block % 16 < 13) && decide (block < 32)
  | .escalationDeadline block => decide (block < 13)
  | .evpEdge pin _ => decide (pin < 32)
  | .swlEdge line _ sub => decide (line < 16) && decide (sub < 1024)
  | .swarmReportTimeout line => decide (line < 16)
  | .ppsEdge sub => decide (sub < 16)
  | .ppsMissing => true
  | .syncOutPulse => true
  | .syncInEdge => true
  | .syncMiss => true
  | .frameSlot port => decide (port < 66)
  | .idleFrame port _ => decide (port < 66)
  | .timeFrame port _ => decide (port < 64)
  | .eventFrame port _ => decide (port < 64)
  | .swarmFrame port _ => decide (port < 64)
  | .delayRequest port _ _ => decide (port < 64)
  | .delayResponse port _ _ => decide (port < 64)
  | .statusFrame port _ => decide (port < 64)
  | .join port _ => decide (port < 64)
  | .horizonFrame port _ => decide (port < 64)
  | .correct port _ => decide (port < 64)
  | .swarmCal port _ _ => decide (port < 64)
  | .wakeFrame port _ => decide (port < 64)
  | .tunnelFrame port _ => decide (port < 64)
  | .chainFrame port _ => decide (64 ≤ port) && decide (port < 66)
  | .portUp port => decide (port < 66)
  | .portDown port => decide (port < 66)
  | .correctionSlewStep => true
  | .tunnelTimeout => true
  | .domainLock domain => decide (domain < 4)
  | .domUnlock domain => decide (domain < 4)
  | .guardTrip domain => decide (domain < 4)
  | .sysrefPulse domain => decide (domain < 4)
  | .trainingComplete link _ => decide (link < 32)
  | .presetDwellEnd link preset => decide (link < 16) && decide (preset < 8)
  | .noSysref link => decide (link < 32)
  | .retryTimer link => decide (link < 32)
  | .laneLock lane => decide (lane < 32)
  | .crcLimit lane _ => decide (lane < 32)
  | .rxLate link => decide (16 ≤ link) && decide (link < 32)
  | .statusPin link => decide (link < 16)
  | .sampleEmission cell _ => decide (cell < 1024)
  | .refillIssue hive => decide (hive < 64)
  | .blockResident cell q _ => decide (cell < 1024) && decide (q < 1024)
  | .captureSample channel _ => decide (channel < 1024)
  | .rearmTick channel => decide (channel < 1024)
  | .streamChunk hive _ => decide (hive < 64)
  | .recordCommit channel => decide (channel < 1024)
  | .eventHop => true
  | .taskDecision task => decide (task < 2 ^ 16)
  | .tickTimerExpiry timer => decide (timer < 64)
  | .pinPulseEnd pin => decide (pin < 32)
  | .swarmDriveLaunch line => decide (line < 16)
  | .swarmDriveRelease line => decide (line < 16)
  | .dramCommandSlot channel => decide (channel < 4)
  | .dramEntryDone channel _ => decide (channel < 4)
  | .refreshDue channel rank => decide (channel < 4) && decide (rank < 2)
  | .pageIdleClose channel rank bank => decide (channel < 4) && decide (rank < 2) && decide (bank < 16)
  | .powerDownEntry channel rank => decide (channel < 4) && decide (rank < 2)
  | .dramTrainingDone channel _ _ => decide (channel < 4)
  | .dramClearDone channel => decide (channel < 4)
  | .trackDone channel _ _ => decide (channel < 4)
  | .tjMoveTrigger channel => decide (channel < 4)
  | .trackTimer channel => decide (channel < 4)
  | .ceLimit channel => decide (channel < 4)
  | .caParity channel => decide (channel < 4)
  | .patrolScrubBurst channel => decide (channel < 4)
  | .retainLoss => true
  | .standbyEntryDone => true
  | .pwrEntry => true
  | .wakeTick => true
  | .wakeComplete => true
  | .auxClrAssert => true
  | .auxClrRelease => true
  | .auxSlewStep channel => decide (channel < 64)
  | .deglitchHoldEnd channel => decide (channel < 64)
  | .auxShort channel _ => decide (channel < 64)
  | .debugHalt => true
  | .debugResume => true
  | .dbgWrite space _ _ => decide (space < 3)
  | .jtagInstructionLoad _ => true
  | .tapReset => true
  | .sessionExpiry => true
  | .nonceExpiry => true
  | .authLockExpiry => true
  | .checkpoint => true
  | .replayStart => true
  | .replayEntry => true
  | .replayEnd => true
  | .multiblockLockAcquired link _ => decide (16 ≤ link) && decide (link < 32)
  | .pcieLinkUp => true
  | .regulatorConfirm readVout => decide (readVout < 1024)
  | .combWriteDone => true
  | .fwProgramDone _ => true
  | .fwVerifyDone _ => true
  | .fwCommitDone _ => true
  | .lcAdvanceDone => true
  | .jnlExportDone _ => true
  | .jnlImportDone _ => true
  | .colSkewCalDone _ => true

end Sys2Proof
end

