-- ==== Sys2Proof/Tests/Slice0.lean ====
section
/-! SUPPORT. Tests. The checks of `WellFormed` on ill-formed terms; small runs of one step; and, for every clause of the
statements, a state and operands that meet all its hypotheses together (`met_<statement>_<clause>`). The expected
results come from the chapters cited. -/

set_option Elab.async false

namespace Sys2Proof.Tests

open Sys2Proof Sys2Proof.Machine Sys2Proof.Safety

/-- The canonical form, decided. -/
def canonB (s : State) : Bool :=
  Memory.wf s.comb && Memory.wf s.scratch && twf {} s.inner.lines && Memory.wf s.dram && Memory.wf s.msixTable && twf {} s.faults &&
    twf {} s.mailboxes && twf {} s.contexts && twf {} s.cells && twf {} s.cellOwn && twf {} s.hives && twf 0 s.active &&
    twf {} s.combOwn && twf {} s.queues && twf {} s.caps && twf {} s.chans && twf {} s.tasks && twf {} s.counters &&
    twf {} s.timers && twf {} s.pins && twf {} s.domains && twf {} s.col.ports && twf {} s.links && twf {} s.rxLanes &&
    twf {} s.dmcs && twf {} s.dramOwn && twf {} s.auxs

theorem canon_of {s : State} (h : canonB s = true) : Canon s := by
  simp only [canonB, Bool.and_eq_true] at h
  constructor <;> simp only [h]

theorem live_of {s : State} (h : (alive s && canonB s) = true) : Live s := by
  simp only [Bool.and_eq_true] at h
  exact ⟨h.1, canon_of h.2⟩

/-- The conditions of `Decides`, decided. -/
def decidesB (s : State) (x : Held) (c : Instr) : Bool :=
  alive s && canonB s && decide (x.cmd = c) && decide (x.mb ≤ 4) && decide (firstHeld s.held = some x) &&
    decide (x.dec ≤ s.time.tick) && !mustWait s x

theorem decides_of {s : State} {x : Held} {c : Instr} (h : decidesB s x c = true) : Decides s x c := by
  simp only [decidesB, Bool.and_eq_true, decide_eq_true_eq, Bool.not_eq_true'] at h
  obtain ⟨⟨⟨⟨⟨⟨a, b⟩, c⟩, d⟩, e⟩, f⟩, g⟩ := h
  exact ⟨⟨a, canon_of b⟩, c, d, e, f, g⟩

/-- The conditions of `Accepts`, decided. -/
def acceptsB (s : State) (h : Hdr) (p : CSpec) : Bool :=
  alive s && canonB s && decide (h.ctx < 16) && decide (h.mb < 4) && !refusesPost s h.ctx h.mb &&
    (mbAt s h.ctx h.mb).asm.isNone && (seqErr s h.ctx h.mb h.seq).isNone && (judgeErr s h p).isNone

theorem accepts_of {s : State} {h : Hdr} {p : CSpec} (e : acceptsB s h p = true) : Accepts s h p := by
  simp only [acceptsB, Bool.and_eq_true, decide_eq_true_eq, Bool.not_eq_true', Option.isNone_iff_eq_none] at e
  obtain ⟨⟨⟨⟨⟨⟨⟨a, b⟩, c⟩, d⟩, f⟩, g⟩, i⟩, j⟩ := e
  exact ⟨⟨a, canon_of b⟩, c, d, f, g, i, j⟩

theorem oldest_head {s : State} {p : Instr → Prop} {x : Held} {w : List Held} (hw : s.works = x :: w) (hx : x.mb ≤ 4)
    (hp : p x.cmd) : Oldest s p x w := ⟨hx, [], w, hw, hp, by simp, rfl⟩

/-- A ZW1024-A in RUN at tick 1,000,000: keeper, device time, combs of hives 0 and 1 and calibration ready; domain 0 at
100 MHz with its guard open. -/
def b0 : State :=
  { md := { mode := .run },
    time := { tick := 1000000, pllLock := true, ready := true },
    kpr := { ready := true, flash := true, cal := true, aux := true, pmbus := true, pcieUp := true, st := 2 },
    svc := { otpOk := true, storeOk := true },
    col := { timeOk := true },
    hives := [(0, { playReady := true, catchReady := true, power := 0 }), (1, { playReady := true, catchReady := true, power := 0 })],
    domains := [(0, { on := true, locked := true, guardOpen := true, num := 1, den := 1, div := 1, ldiv := 1 })] }

/-- The header of the commands posted. -/
def h0 : Hdr := { ctx := 0, mb := 0, seq := 1 }

/-- A command that its unit holds for this tick, its reply owed. -/
def hd (c : Instr) : Held := ⟨1000000, 999900, 0, 0, 1, 0, true, c⟩

/-- A DRAM channel in service. -/
def dm : Dmc := { st := .inService, capGib := 32 }

/-- A checkpoint of tick 999,000. -/
def snap : Snap := ⟨999000, .idle, .idle, [], 48, [], [], [], [], [], [], [], [], b0.domains, [], []⟩

/-- A journal that has one checkpoint. -/
def jn (st : Nat) : Journal :=
  { st := st, size := 2 ^ 26, written := 64, count := 1, ckpts := [(0, 64, snap)], entries := [⟨999000, 0, 0, 64, .ckpt 0⟩] }

/-- A colony frame with the CRC of its bytes. -/
def fr (hdr : Byte) (p : BitVec 128) : ColFrame := ⟨hdr, p, BitVec.ofNat 16 (crc16 (hdr :: le 16 p.toNat))⟩

/-- The arguments of a `LINK_SET` of one lane and one slot. -/
def la : LinkArgs := ⟨0, 0, 1, 1, 1, 1, [0, 0, 0, 0, 0, 0, 0, 0], 1, 0xFF, 0, 1, 1, 0, 0, 0, 0⟩

/-- A command frame with the CRC of its bytes. -/
def frm (l : List Byte) : List Byte := fit 62 l ++ le 2 (crc16 (fit 62 l))

/-- The first frame of a `SEG_LOAD` of one byte at comb address 0, and the frame that continues it. -/
def seg0 : List Byte := frm [0x10, 1, 0, 1, 1, 0, 0, 0, 0, 0, 0, 0, 0, 0, 0, 0, 0, 0, 0, 0, 0, 0, 0, 0, 1, 0]

def seg1 : List Byte := frm [0x10, 1, 0, 0x81, 1, 0, 7]

/-- A reply of one frame, and of two. -/
def rep (n : Nat) : Reply := ⟨1, 1, .ok, 0, 0, 0, false, List.replicate n 0, []⟩

/-- Comb of hive 0: step 0 plays source 0 with no jump map; source 0 is a 16-bit segment of 16 samples at 0x1000, the first 0x1234. -/
def tables : List Host.Cell :=
  [(12, 0xFF), (0x1000, 0x34), (0x1001, 0x12), (0x17FFE0, 1), (0x17FFE1, 0xFF), (0x17FFE4, 16), (0x17FFE9, 0x10)]

/-- A cell that plays those tables from tick 1,000,000 on. -/
def cl (st : CellSt) : Cell :=
  { st := st, ratio := 2 ^ 40, mRef := 1000000, format := 0, arm := some ⟨0, 1, 0, 0, 0, [], []⟩ }

/-- The hive with one source. -/
def hv : Hive := { playReady := true, catchReady := true, power := 0, srcCount := 1 }


/-! ### The checks of `WellFormed`, each on a term that only it refuses -/

/-- Every term of the list is refused. -/
def refusesAll (l : List Instr) : Bool := l.all fun c => !c.wf

/-- A header that names context 16. -/
def hx : Hdr := { h0 with ctx := 16 }

theorem ill_formed_resetAndBringUp : refusesAll [
    .combBankCleared 64 false] = true := by decide +kernel

theorem ill_formed_hostInterface : refusesAll [
    .post 16 0, .post 0 4, .ack 16 0, .ack 0 4, .mbReset 16 0, .mbReset 0 4, .frameTimeout 16 0, .frameTimeout 0 4,
    .ctxIrqStatusRead 16, .windowWrite (2 ^ 20) [0], .bulkApertureWrite (2 ^ 32) [0], .bulkApertureRead (2 ^ 32) 1,
    .doorbellWrite 16 0 8 0, .doorbellWrite 0 0x1000 8 0, .doorbellWrite 0 0 24 0, .spiWrite 256 0 [],
    .spiWrite 0 (2 ^ 16) [], .spiRead (2 ^ 16) 0] = true := by decide +kernel

theorem ill_formed_keeperModeFirmware : refusesAll [
    .nop { h0 with ctx := 16 } [], .nop { h0 with mb := 4 } [], .nop { h0 with seq := 2 ^ 16 } [],
    .nop { h0 with eff := 2 ^ 60 } [], .nop h0 (List.replicate 43 0), .deviceInfo hx, .readyRead hx,
    .windowRead hx 0 0, .windowRead h0 (2 ^ 32) 0, .windowRead h0 0 (2 ^ 8), .modeSet hx 0 0 0 0 0 0,
    .modeSet h0 (2 ^ 8) 0 0 0 0 0, .modeSet h0 0 (2 ^ 8) 0 0 0 0, .modeSet h0 0 0 (2 ^ 8) 0 0 0,
    .modeSet h0 0 0 0 (2 ^ 64) 0 0, .modeSet h0 0 0 0 0 (2 ^ 64) 0, .warmReset hx, .keeperRestart hx 0,
    .keeperRestart h0 (2 ^ 8), .hostSet hx 0 0 0, .hostSet h0 (2 ^ 64) 0 0, .hostSet h0 0 (2 ^ 16) 0,
    .hostSet h0 0 0 (2 ^ 16), .bulkWindowSet hx 0, .bulkWindowSet h0 (2 ^ 64), .fwInfo hx, .fwStage hx 0 0,
    .fwStage h0 (2 ^ 8) 0, .fwStage h0 0 (2 ^ 32), .fwData hx 0 0 0 [], .fwData h0 (2 ^ 8) 0 0 [],
    .fwData h0 0 (2 ^ 32) 0 [], .fwData h0 0 0 (2 ^ 16) [], .fwData h0 0 0 0 [0], .fwVerify hx 0,
    .fwVerify h0 (2 ^ 8), .fwSelect hx 0, .fwSelect h0 (2 ^ 8), .fwCommit hx] = true := by decide +kernel

theorem ill_formed_combAndTables : refusesAll [
    .segLoad hx 0 0 [], .segLoad h0 (2 ^ 32) 0 [], .segLoad h0 0 (2 ^ 16) [], .segLoad h0 0 0 [0], .combRead hx 0 0,
    .combRead h0 (2 ^ 32) 0, .combRead h0 0 (2 ^ 8), .combFill hx 0 0 0, .combFill h0 (2 ^ 32) 0 0,
    .combFill h0 0 (2 ^ 32) 0, .combAtomic hx 0 0 0, .combAtomic h0 (2 ^ 32) 0 0, .combAtomic h0 0 (2 ^ 8) 0,
    .combRegionSet hx 0 0 0 0 0, .combRegionSet h0 (2 ^ 8) 0 0 0 0, .combRegionSet h0 0 (2 ^ 8) 0 0 0,
    .combRegionSet h0 0 0 (2 ^ 8) 0 0, .combRegionSet h0 0 0 0 (2 ^ 8) 0, .combRegionSet h0 0 0 0 0 (2 ^ 8),
    .combActiveRead hx 0 0 0 0, .combActiveRead h0 (2 ^ 8) 0 0 0, .combActiveRead h0 0 (2 ^ 8) 0 0,
    .combActiveRead h0 0 0 (2 ^ 16) 0, .combActiveRead h0 0 0 0 (2 ^ 16), .srcTableSet hx 0 0,
    .srcTableSet h0 (2 ^ 8) 0, .srcTableSet h0 0 (2 ^ 16), .srcDescSet hx 0 0 0, .srcDescSet h0 (2 ^ 8) 0 0,
    .srcDescSet h0 0 (2 ^ 16) 0, .curveAreaSet hx 0 0 0, .curveAreaSet h0 (2 ^ 8) 0 0, .curveAreaSet h0 0 (2 ^ 32) 0,
    .curveAreaSet h0 0 0 (2 ^ 8)] = true := by decide +kernel

theorem ill_formed_clocks : refusesAll [
    .domainSet hx 0 0 0 0 0 0 0, .domainSet h0 (2 ^ 8) 0 0 0 0 0 0, .domainSet h0 0 (2 ^ 32) 0 0 0 0 0,
    .domainSet h0 0 0 (2 ^ 16) 0 0 0 0, .domainSet h0 0 0 0 (2 ^ 16) 0 0 0, .domainSet h0 0 0 0 0 (2 ^ 8) 0 0,
    .domainSet h0 0 0 0 0 0 (2 ^ 16) 0, .domainSet h0 0 0 0 0 0 0 (2 ^ 16), .domainOff hx 0, .domainOff h0 (2 ^ 8),
    .syncConfig hx 0 0 0 0, .syncConfig h0 (2 ^ 8) 0 0 0, .syncConfig h0 0 (2 ^ 8) 0 0, .syncConfig h0 0 0 (2 ^ 8) 0,
    .syncConfig h0 0 0 0 (2 ^ 8), .sysrefSet hx 0 0 0 0 0 0, .sysrefSet h0 (2 ^ 8) 0 0 0 0 0,
    .sysrefSet h0 0 (2 ^ 8) 0 0 0 0, .sysrefSet h0 0 0 (2 ^ 32) 0 0 0, .sysrefSet h0 0 0 0 (2 ^ 8) 0 0,
    .sysrefSet h0 0 0 0 0 (2 ^ 8) 0, .sysrefSet h0 0 0 0 0 0 (2 ^ 8), .timeHorizonSet hx 0,
    .timeHorizonSet h0 (2 ^ 16), .timePpsSet hx 0, .timePpsSet h0 (2 ^ 64), .paceConfig hx 0 0 0 0 0 0 0 0,
    .paceConfig h0 (2 ^ 32) 0 0 0 0 0 0 0, .paceConfig h0 0 (2 ^ 8) 0 0 0 0 0 0, .paceConfig h0 0 0 (2 ^ 8) 0 0 0 0 0,
    .paceConfig h0 0 0 0 (2 ^ 8) 0 0 0 0, .paceConfig h0 0 0 0 0 (2 ^ 16) 0 0 0,
    .paceConfig h0 0 0 0 0 0 (2 ^ 16) 0 0, .paceConfig h0 0 0 0 0 0 0 (2 ^ 8) 0, .paceConfig h0 0 0 0 0 0 0 0 (2 ^ 8)] = true := by decide +kernel

theorem ill_formed_cells_1 : refusesAll [
    .cellBind hx 0 0 0 ⟨0, 0⟩ 0 0 0, .cellBind h0 (2 ^ 16) 0 0 ⟨0, 0⟩ 0 0 0, .cellBind h0 0 (2 ^ 8) 0 ⟨0, 0⟩ 0 0 0,
    .cellBind h0 0 0 (2 ^ 64) ⟨0, 0⟩ 0 0 0, .cellBind h0 0 0 0 ⟨16, 0⟩ 0 0 0, .cellBind h0 0 0 0 ⟨0, 2 ^ 28⟩ 0 0 0,
    .cellBind h0 0 0 0 ⟨0, 0⟩ (2 ^ 8) 0 0, .cellBind h0 0 0 0 ⟨0, 0⟩ 0 (2 ^ 31) 0,
    .cellBind h0 0 0 0 ⟨0, 0⟩ 0 (-2 ^ 31 - 1) 0, .cellBind h0 0 0 0 ⟨0, 0⟩ 0 0 (2 ^ 8), .cellArm hx 0 0 0 0 0 0,
    .cellArm h0 (2 ^ 16) 0 0 0 0 0, .cellArm h0 0 (2 ^ 32) 0 0 0 0, .cellArm h0 0 0 (2 ^ 16) 0 0 0,
    .cellArm h0 0 0 0 (2 ^ 32) 0 0, .cellArm h0 0 0 0 0 (2 ^ 8) 0, .cellArm h0 0 0 0 0 0 (2 ^ 16),
    .cellStart hx ⟨0, 0⟩, .cellStart h0 ⟨16, 0⟩, .cellStart h0 ⟨0, 2 ^ 28⟩, .cellStop hx ⟨0, 0⟩, .cellStop h0 ⟨16, 0⟩,
    .cellStop h0 ⟨0, 2 ^ 28⟩, .cellPause hx ⟨0, 0⟩, .cellPause h0 ⟨16, 0⟩, .cellPause h0 ⟨0, 2 ^ 28⟩,
    .cellResume hx ⟨0, 0⟩, .cellResume h0 ⟨16, 0⟩, .cellResume h0 ⟨0, 2 ^ 28⟩, .cellRateSet hx 0 0,
    .cellRateSet h0 (2 ^ 16) 0, .cellRateSet h0 0 (2 ^ 64), .cellUnbind hx 0, .cellUnbind h0 (2 ^ 16),
    .groupSet hx 0 [], .groupSet h0 (2 ^ 8) [], .groupSet h0 0 [1024], .cellClear hx 0 0, .cellClear h0 (2 ^ 16) 0,
    .cellReset hx 0] = true := by decide +kernel

theorem ill_formed_cells_2 : refusesAll [
    .cellReset h0 (2 ^ 16)] = true := by decide +kernel

theorem ill_formed_synthesis : refusesAll [
    .synConfig hx 0 0 0 0 0 0, .synConfig h0 (2 ^ 16) 0 0 0 0 0, .synConfig h0 0 (2 ^ 8) 0 0 0 0,
    .synConfig h0 0 0 (2 ^ 8) 0 0 0, .synConfig h0 0 0 0 (2 ^ 32) 0 0, .synConfig h0 0 0 0 0 (2 ^ 31) 0,
    .synConfig h0 0 0 0 0 (-2 ^ 31 - 1) 0, .synConfig h0 0 0 0 0 0 (2 ^ 31), .synConfig h0 0 0 0 0 0 (-2 ^ 31 - 1),
    .synGainSet hx ⟨0, 0⟩ 0 0, .synGainSet h0 ⟨16, 0⟩ 0 0, .synGainSet h0 ⟨0, 2 ^ 28⟩ 0 0,
    .synGainSet h0 ⟨0, 0⟩ (2 ^ 31) 0, .synGainSet h0 ⟨0, 0⟩ (-2 ^ 31 - 1) 0, .synGainSet h0 ⟨0, 0⟩ 0 (2 ^ 31),
    .synGainSet h0 ⟨0, 0⟩ 0 (-2 ^ 31 - 1), .formatSet hx 0 0 0, .formatSet h0 (2 ^ 8) 0 0, .formatSet h0 0 (2 ^ 8) 0,
    .synClear hx 0 0, .synClear h0 (2 ^ 16) 0, .synCoefRead hx 0, .synCoefRead h0 (2 ^ 8), .synCalApply hx 0 0 0,
    .synCalApply h0 (2 ^ 16) 0 0, .synCalApply h0 0 (2 ^ 31) 0, .synCalApply h0 0 (-2 ^ 31 - 1) 0,
    .synCalApply h0 0 0 (2 ^ 31), .synCalApply h0 0 0 (-2 ^ 31 - 1)] = true := by decide +kernel

theorem ill_formed_playQueues : refusesAll [
    .queueOpen hx 0 0 0 0 0 0 0 0, .queueOpen h0 (2 ^ 16) 0 0 0 0 0 0 0, .queueOpen h0 0 (2 ^ 16) 0 0 0 0 0 0,
    .queueOpen h0 0 0 (2 ^ 64) 0 0 0 0 0, .queueOpen h0 0 0 0 (2 ^ 8) 0 0 0 0, .queueOpen h0 0 0 0 0 (2 ^ 8) 0 0 0,
    .queueOpen h0 0 0 0 0 0 (2 ^ 16) 0 0, .queueOpen h0 0 0 0 0 0 0 (2 ^ 32) 0, .queueOpen h0 0 0 0 0 0 0 0 (2 ^ 8),
    .queueClose hx 0 0, .queueClose h0 (2 ^ 16) 0, .queueClose h0 0 (2 ^ 16), .queueStatus hx 0 0,
    .queueStatus h0 (2 ^ 16) 0, .queueStatus h0 0 (2 ^ 16), .queueFlush hx 0 0, .queueFlush h0 (2 ^ 16) 0,
    .queueFlush h0 0 (2 ^ 16)] = true := by decide +kernel

theorem ill_formed_capture_1 : refusesAll [
    .capBind hx 0 0 0 0 0 0 0, .capBind h0 (2 ^ 16) 0 0 0 0 0 0, .capBind h0 0 (2 ^ 8) 0 0 0 0 0,
    .capBind h0 0 0 (2 ^ 8) 0 0 0 0, .capBind h0 0 0 0 (2 ^ 16) 0 0 0, .capBind h0 0 0 0 0 (2 ^ 64) 0 0,
    .capBind h0 0 0 0 0 0 (2 ^ 8) 0, .capBind h0 0 0 0 0 0 0 (2 ^ 8), .capArm hx 0 ⟨0, 0, 0, 0, 0, 0, 0, 0, 0, 0, 0⟩,
    .capArm h0 (2 ^ 16) ⟨0, 0, 0, 0, 0, 0, 0, 0, 0, 0, 0⟩, .capArm h0 0 ⟨2 ^ 32, 0, 0, 0, 0, 0, 0, 0, 0, 0, 0⟩,
    .capArm h0 0 ⟨0, 2 ^ 32, 0, 0, 0, 0, 0, 0, 0, 0, 0⟩, .capArm h0 0 ⟨0, 0, 2 ^ 8, 0, 0, 0, 0, 0, 0, 0, 0⟩,
    .capArm h0 0 ⟨0, 0, 0, 2 ^ 32, 0, 0, 0, 0, 0, 0, 0⟩, .capArm h0 0 ⟨0, 0, 0, 0, 2 ^ 32, 0, 0, 0, 0, 0, 0⟩,
    .capArm h0 0 ⟨0, 0, 0, 0, 0, 2 ^ 32, 0, 0, 0, 0, 0⟩, .capArm h0 0 ⟨0, 0, 0, 0, 0, 0, 2 ^ 32, 0, 0, 0, 0⟩,
    .capArm h0 0 ⟨0, 0, 0, 0, 0, 0, 0, 2 ^ 32, 0, 0, 0⟩, .capArm h0 0 ⟨0, 0, 0, 0, 0, 0, 0, 0, 2 ^ 32, 0, 0⟩,
    .capArm h0 0 ⟨0, 0, 0, 0, 0, 0, 0, 0, 0, 2 ^ 8, 0⟩, .capArm h0 0 ⟨0, 0, 0, 0, 0, 0, 0, 0, 0, 0, 2 ^ 8⟩,
    .capArmFillDone 1024, .capDisarm hx ⟨0, 0⟩, .capDisarm h0 ⟨16, 0⟩, .capDisarm h0 ⟨0, 2 ^ 28⟩, .capTrigger hx 0,
    .capTrigger h0 (2 ^ 16), .capRelease hx 0 0, .capRelease h0 (2 ^ 16) 0, .capRelease h0 0 (2 ^ 32),
    .capTrigSet hx 0 0 0 0 0, .capTrigSet h0 (2 ^ 16) 0 0 0 0, .capTrigSet h0 0 (2 ^ 8) 0 0 0,
    .capTrigSet h0 0 0 (2 ^ 31) 0 0, .capTrigSet h0 0 0 (-2 ^ 31 - 1) 0 0, .capTrigSet h0 0 0 0 (2 ^ 32) 0,
    .capTrigSet h0 0 0 0 0 (2 ^ 8), .capUnbind hx 0, .capUnbind h0 (2 ^ 16), .capClear hx 0 0] = true := by decide +kernel

theorem ill_formed_capture_2 : refusesAll [
    .capClear h0 (2 ^ 16) 0] = true := by decide +kernel

theorem ill_formed_waggle : refusesAll [
    .wagChanSet hx 0 0, .wagChanSet h0 (2 ^ 16) 0, .wagTaskSet hx 0 [0, 0, 0, 0] 0,
    .wagTaskSet h0 (2 ^ 16) [0, 0, 0, 0] 0, .wagTaskSet h0 0 [] 0, .wagTaskSet h0 0 [0, 0, 0, 0] (2 ^ 8),
    .wagRaise hx 0 0, .wagRaise h0 (2 ^ 16) 0, .wagRaise h0 0 (2 ^ 8), .wagTimerSet hx 0 0 0 0 0,
    .wagTimerSet h0 (2 ^ 8) 0 0 0 0, .wagTimerSet h0 0 (2 ^ 64) 0 0 0, .wagTimerSet h0 0 0 (2 ^ 32) 0 0,
    .wagTimerSet h0 0 0 0 (2 ^ 32) 0, .wagTimerSet h0 0 0 0 0 (2 ^ 32), .wagCounterSet hx 0 0 0 0,
    .wagCounterSet h0 (2 ^ 8) 0 0 0, .wagCounterSet h0 0 (2 ^ 32) 0 0, .wagCounterSet h0 0 0 (2 ^ 32) 0,
    .wagCounterSet h0 0 0 0 (2 ^ 8), .wagPinSet hx 0 0 0 0 0, .wagPinSet h0 (2 ^ 8) 0 0 0 0,
    .wagPinSet h0 0 (2 ^ 8) 0 0 0, .wagPinSet h0 0 0 (2 ^ 8) 0 0, .wagPinSet h0 0 0 0 (2 ^ 8) 0,
    .wagPinSet h0 0 0 0 0 (2 ^ 16), .wagWatchRead hx, .wagClear hx ⟨0, 0⟩ 0 0, .wagClear h0 ⟨16, 0⟩ 0 0,
    .wagClear h0 ⟨0, 2 ^ 28⟩ 0 0, .wagClear h0 ⟨0, 0⟩ 0 (2 ^ 8), .wagOwnerSet hx 0 0 0 0,
    .wagOwnerSet h0 (2 ^ 8) 0 0 0, .wagOwnerSet h0 0 (2 ^ 16) 0 0, .wagOwnerSet h0 0 0 (2 ^ 8) 0,
    .wagOwnerSet h0 0 0 0 (2 ^ 8)] = true := by decide +kernel

theorem ill_formed_links : refusesAll [
    .linkSet hx 0 la, .linkSet h0 (2 ^ 8) la, .linkSet h0 0 { la with domain := 2 ^ 8 },
    .linkSet h0 0 { la with firstLane := 2 ^ 8 }, .linkSet h0 0 { la with l := 2 ^ 8 },
    .linkSet h0 0 { la with m := 2 ^ 16 }, .linkSet h0 0 { la with s := 2 ^ 8 }, .linkSet h0 0 { la with e := 2 ^ 8 },
    .linkSet h0 0 { la with presets := 2 ^ 8 }, .linkSet h0 0 { la with statusPin := 2 ^ 8 },
    .linkSet h0 0 { la with cap24 := 2 ^ 8 }, .linkSet h0 0 { la with rxLat := 2 ^ 16 },
    .linkSet h0 0 { la with crcLimit := 2 ^ 16 }, .linkSet h0 0 { la with eyeWMin := 2 ^ 8 },
    .linkSet h0 0 { la with eyeHMin := 2 ^ 8 }, .linkSet h0 0 { la with retryS := 2 ^ 16 },
    .linkSet h0 0 { la with safeLink := 2 ^ 8 }, .linkSet h0 0 { la with laneMap := [] },
    .linkSet h0 0 { la with laneMap := List.replicate 8 256 }, .linkEnable hx 0, .linkEnable h0 (2 ^ 8),
    .linkDisable hx 0, .linkDisable h0 (2 ^ 8), .linkRetrain hx 0, .linkRetrain h0 (2 ^ 8), .linkSlotSet hx 0 0 0,
    .linkSlotSet h0 (2 ^ 8) 0 0, .linkSlotSet h0 0 (2 ^ 8) 0, .linkSlotSet h0 0 0 (2 ^ 8), .linkEyeRead hx 0,
    .linkEyeRead h0 (2 ^ 8), .linkClear hx 0 0, .linkClear h0 (2 ^ 8) 0] = true := by decide +kernel

theorem ill_formed_dram : refusesAll [
    .dmcConfig hx (List.replicate 4 ⟨0, 0, 0, 0, 0, 0, 0⟩) 0 0 0 0 0 0, .dmcConfig h0 [] 0 0 0 0 0 0,
    .dmcConfig h0 (List.replicate 4 ⟨2 ^ 8, 0, 0, 0, 0, 0, 0⟩) 0 0 0 0 0 0,
    .dmcConfig h0 (List.replicate 4 ⟨0, 2 ^ 8, 0, 0, 0, 0, 0⟩) 0 0 0 0 0 0,
    .dmcConfig h0 (List.replicate 4 ⟨0, 0, 2 ^ 8, 0, 0, 0, 0⟩) 0 0 0 0 0 0,
    .dmcConfig h0 (List.replicate 4 ⟨0, 0, 0, 2 ^ 8, 0, 0, 0⟩) 0 0 0 0 0 0,
    .dmcConfig h0 (List.replicate 4 ⟨0, 0, 0, 0, 2 ^ 8, 0, 0⟩) 0 0 0 0 0 0,
    .dmcConfig h0 (List.replicate 4 ⟨0, 0, 0, 0, 0, 2 ^ 8, 0⟩) 0 0 0 0 0 0,
    .dmcConfig h0 (List.replicate 4 ⟨0, 0, 0, 0, 0, 0, 2 ^ 8⟩) 0 0 0 0 0 0,
    .dmcConfig h0 (List.replicate 4 ⟨0, 0, 0, 0, 0, 0, 0⟩) (2 ^ 8) 0 0 0 0 0,
    .dmcConfig h0 (List.replicate 4 ⟨0, 0, 0, 0, 0, 0, 0⟩) 0 (2 ^ 64) 0 0 0 0,
    .dmcConfig h0 (List.replicate 4 ⟨0, 0, 0, 0, 0, 0, 0⟩) 0 0 (2 ^ 8) 0 0 0,
    .dmcConfig h0 (List.replicate 4 ⟨0, 0, 0, 0, 0, 0, 0⟩) 0 0 0 (2 ^ 8) 0 0,
    .dmcConfig h0 (List.replicate 4 ⟨0, 0, 0, 0, 0, 0, 0⟩) 0 0 0 0 (2 ^ 8) 0,
    .dmcConfig h0 (List.replicate 4 ⟨0, 0, 0, 0, 0, 0, 0⟩) 0 0 0 0 0 (2 ^ 16), .dramRegionSet hx 0 0 0 0,
    .dramRegionSet h0 (2 ^ 16) 0 0 0, .dramRegionSet h0 0 (2 ^ 16) 0 0, .dramRegionSet h0 0 0 (2 ^ 8) 0,
    .dramRegionSet h0 0 0 0 (2 ^ 8), .dramRegionRead hx 0 0, .dramRegionRead h0 (2 ^ 16) 0,
    .dramRegionRead h0 0 (2 ^ 8), .dmcRetrain hx 0 0, .dmcRetrain h0 (2 ^ 8) 0, .dmcRetrain h0 0 (2 ^ 8),
    .dmcScrubSet hx 0 0, .dmcScrubSet h0 (2 ^ 8) 0, .dmcScrubSet h0 0 (2 ^ 8), .dramWrite hx 0 0 [],
    .dramWrite h0 (2 ^ 64) 0 [], .dramWrite h0 0 (2 ^ 16) [], .dramWrite h0 0 0 [0], .dramRead hx 0 0,
    .dramRead h0 (2 ^ 64) 0, .dramRead h0 0 (2 ^ 8), .dmcClear hx 0 0 0, .dmcClear h0 (2 ^ 8) 0 0,
    .dmcClear h0 0 0 (2 ^ 8)] = true := by decide +kernel

theorem ill_formed_auxiliaryOutputs : refusesAll [
    .auxConfig hx 0 0 0 0 0, .auxConfig h0 (2 ^ 8) 0 0 0 0, .auxConfig h0 0 (2 ^ 8) 0 0 0,
    .auxConfig h0 0 0 (2 ^ 16) 0 0, .auxConfig h0 0 0 0 (2 ^ 16) 0, .auxConfig h0 0 0 0 0 (2 ^ 16),
    .auxWrite hx 0 0 0, .auxWrite h0 (2 ^ 8) 0 0, .auxWrite h0 0 (2 ^ 16) 0, .auxWrite h0 0 0 (2 ^ 8),
    .auxReadback hx 0, .auxReadback h0 (2 ^ 8), .auxReadbackDone 64 0, .auxReadbackDone 0 (2 ^ 16), .auxClear hx 0 0,
    .auxClear h0 (2 ^ 8) 0, .auxSlewStep 64, .deglitchHoldEnd 64, .auxShort 64 false] = true := by decide +kernel

theorem ill_formed_colony : refusesAll [
    .colConfig hx 0 0, .colConfig h0 0 (2 ^ 8), .colSkewCal hx 0 0, .colSkewCal h0 (2 ^ 16) 0,
    .colSkewCal h0 0 (2 ^ 64), .colTunnel hx 0 0 (frm []), .colTunnel h0 (2 ^ 8) 0 (frm []),
    .colTunnel h0 0 (2 ^ 8) (frm []), .colTunnel h0 0 0 [], .colClear hx 0, .colWake hx 0 0, .colWake h0 0 (2 ^ 64)] = true := by decide +kernel

theorem ill_formed_securityPowerDebug : refusesAll [
    .ctxSet hx 0 0 0, .ctxSet h0 (2 ^ 8) 0 0, .ctxSet h0 0 (2 ^ 8) 0, .ctxSet h0 0 0 (2 ^ 8), .ownSet hx 0 0 0 0 0,
    .ownSet h0 (2 ^ 8) 0 0 0 0, .ownSet h0 0 (2 ^ 16) 0 0 0, .ownSet h0 0 0 (2 ^ 16) 0 0, .ownSet h0 0 0 0 (2 ^ 8) 0,
    .ownSet h0 0 0 0 0 (2 ^ 8), .ownRead hx 0 0 0, .ownRead h0 (2 ^ 8) 0 0, .ownRead h0 0 (2 ^ 16) 0,
    .ownRead h0 0 0 (2 ^ 8), .wakeSet hx 0 0 0 0, .wakeSet h0 0 0 (2 ^ 8) 0, .wakeSet h0 0 0 0 (2 ^ 64),
    .lcAdvance hx 0 0, .lcAdvance h0 (2 ^ 8) 0, .lcAdvance h0 0 (2 ^ 32), .dbgOpen hx 0, .dbgOpen h0 (2 ^ 8),
    .dbgResponse hx 0 0, .dbgResponse h0 0 (2 ^ 16), .dbgClose hx, .dbgTraceRead hx 0 0, .dbgTraceRead h0 (2 ^ 16) 0,
    .dbgTraceRead h0 0 (2 ^ 8)] = true := by decide +kernel

theorem ill_formed_calibrationAndServices : refusesAll [
    .calRead hx 0 0 0, .calRead h0 (2 ^ 8) 0 0, .calRead h0 0 (2 ^ 16) 0, .calRead h0 0 0 (2 ^ 8),
    .calWrite hx 0 0 0 (List.replicate 8 0), .calWrite h0 (2 ^ 8) 0 0 (List.replicate 8 0),
    .calWrite h0 0 (2 ^ 16) 0 (List.replicate 8 0), .calWrite h0 0 0 (2 ^ 8) (List.replicate 8 0),
    .calWrite h0 0 0 0 [], .calErase hx 0 0 0, .calErase h0 (2 ^ 8) 0 0, .calErase h0 0 (2 ^ 16) 0,
    .calErase h0 0 0 (2 ^ 8), .bgsSet hx 0 0 0 0, .bgsSet h0 (2 ^ 16) 0 0 0, .bgsSet h0 0 (2 ^ 16) 0 0,
    .bgsSet h0 0 0 (2 ^ 32) 0, .bgsSet h0 0 0 0 (2 ^ 32), .telemRead hx 0 0, .telemRead h0 (2 ^ 8) 0,
    .telemRead h0 0 (2 ^ 8), .calStart hx 0 [] 0 0, .calStart h0 (2 ^ 64) [] 0 0, .calStart h0 0 [1024] 0 0,
    .calRunComplete ⟨[3], 0, 0, 0, [], 0, 0, [], 0, 0, [], []⟩] = true := by decide +kernel

theorem ill_formed_faultsAndResets : refusesAll [
    .faultClear hx 0 0 0, .faultClear h0 (2 ^ 8) 0 0, .faultClear h0 0 0 (2 ^ 8), .faultMaskSet hx 0 0,
    .faultMaskSet h0 (2 ^ 8) 0, .faultEscSet hx 0 0 0, .faultEscSet h0 (2 ^ 8) 0 0, .faultEscSet h0 0 (2 ^ 32) 0,
    .faultEscSet h0 0 0 (2 ^ 8), .faultInject hx 0 0 0 0 0 0, .faultInject h0 (2 ^ 8) 0 0 0 0 0,
    .faultInject h0 0 (2 ^ 8) 0 0 0 0, .faultInject h0 0 0 (2 ^ 8) 0 0 0, .faultInject h0 0 0 0 (2 ^ 8) 0 0,
    .faultInject h0 0 0 0 0 (2 ^ 64) 0, .faultInject h0 0 0 0 0 0 (2 ^ 32), .restoreClear hx 0] = true := by decide +kernel

theorem ill_formed_journal : refusesAll [
    .jnlConfig hx 0 0 0 0 0 0, .jnlConfig h0 (2 ^ 64) 0 0 0 0 0, .jnlConfig h0 0 (2 ^ 64) 0 0 0 0,
    .jnlConfig h0 0 0 (2 ^ 8) 0 0 0, .jnlConfig h0 0 0 0 (2 ^ 32) 0 0, .jnlConfig h0 0 0 0 0 0 (2 ^ 8), .jnlStop hx,
    .jnlCkpt hx, .jnlExport hx 0 0 ⟨0, 0⟩, .jnlExport h0 (2 ^ 64) 0 ⟨0, 0⟩, .jnlExport h0 0 (2 ^ 64) ⟨0, 0⟩,
    .jnlExport h0 0 0 ⟨256, 0⟩, .jnlExport h0 0 0 ⟨0, 2 ^ 64⟩, .jnlImport hx ⟨0, 0⟩, .jnlImport h0 ⟨256, 0⟩,
    .jnlImport h0 ⟨0, 2 ^ 64⟩] = true := by decide +kernel

theorem ill_formed_eventsOfTheKeeperAndTheServices : refusesAll [
    .shadowAudit [⟨16, 0⟩], .paceWindowClose 1024 false [], .paceWindowClose 0 false [⟨64, 0, 0, 0, false⟩],
    .fillAlarm 64, .telemetrySample 28 0, .groomGranule 64 0 0 false false, .groomGranule 1 2 0 false false, .groomGranule 0 4 0 false false,
    .groomGranule 0 0 6144 false false, .groomGranule 0 1 2048 false false, .groomGranule 0 2 8192 false false,
    .groomGranule 0 3 16384 false false, .eyeCheck ⟨32, 0, 0, 0⟩, .skewCheck 0, .skewCheck 4097, .flashCompaction 2 false 0, .regParityCheck 13, .regParityCheck 32,
    .escalationDeadline 13] = true := by decide +kernel

theorem ill_formed_eventsOfPinsAndTime : refusesAll [
    .evpEdge 32 false, .swlEdge 16 false 0, .swlEdge 0 false 1024, .swarmReportTimeout 16, .ppsEdge 16] = true := by decide +kernel

theorem ill_formed_colonyLinks : refusesAll [
    .frameSlot 66, .idleFrame 66 (fr 0 0), .timeFrame 64 (fr 0 0), .eventFrame 64 (fr 0 0), .swarmFrame 64 (fr 0 0),
    .delayRequest 64 (fr 0 0) 0, .delayResponse 64 (fr 0 0) 0, .statusFrame 64 (fr 0 0), .join 64 (fr 0 0),
    .horizonFrame 64 (fr 0 0), .correct 64 (fr 0 0), .swarmCal 64 (fr 0 0) false, .wakeFrame 64 (fr 0 0),
    .tunnelFrame 64 (fr 0 0), .chainFrame 63 (fr 0 0), .chainFrame 66 (fr 0 0), .portUp 66, .portDown 66] = true := by decide +kernel

theorem ill_formed_domainsAndLinks : refusesAll [
    .domainLock 4, .domUnlock 4, .guardTrip 4, .sysrefPulse 4, .trainingComplete 32 [], .presetDwellEnd 16 0, .presetDwellEnd 0 8,
    .noSysref 32, .retryTimer 32, .laneLock 32, .crcLimit 32 0, .rxLate 15, .rxLate 32, .statusPin 16] = true := by decide +kernel

theorem ill_formed_samplesRefillCapture : refusesAll [
    .sampleEmission 1024 false, .refillIssue 64, .blockResident 1024 0 0, .blockResident 0 1024 0,
    .captureSample 1024 0, .rearmTick 1024, .streamChunk 64 0, .recordCommit 1024] = true := by decide +kernel

theorem ill_formed_waggleEvents : refusesAll [
    .taskDecision (2 ^ 16), .tickTimerExpiry 64, .pinPulseEnd 32, .swarmDriveLaunch 16, .swarmDriveRelease 16] = true := by decide +kernel

theorem ill_formed_dramEvents : refusesAll [
    .dramCommandSlot 4, .dramEntryDone 4 0, .refreshDue 4 0, .refreshDue 0 2, .pageIdleClose 4 0 0,
    .pageIdleClose 0 2 0, .pageIdleClose 0 0 16, .powerDownEntry 4 0, .powerDownEntry 0 2,
    .dramTrainingDone 4 false 0, .dramClearDone 4, .trackDone 4 false 0, .tjMoveTrigger 4, .trackTimer 4, .ceLimit 4,
    .caParity 4, .patrolScrubBurst 4] = true := by decide +kernel

theorem ill_formed_debug : refusesAll [
    .dbgWrite 3 0 []] = true := by decide +kernel

theorem ill_formed_completions : refusesAll [
    .multiblockLockAcquired 15 [], .multiblockLockAcquired 32 [], .regulatorConfirm 1024] = true := by decide +kernel

/-! ### Every Berza command is accepted somewhere -/

/-- The command is well formed, and the state accepts it. -/
def Accepted (s : State) (c : Instr) : Prop := c.wf = true ∧ ∃ h p, specOf c s = some (h, p) ∧ Accepts s h p

def acceptedB (s : State) (c : Instr) : Bool :=
  c.wf && match specOf c s with
    | some (h, p) => acceptsB s h p
    | none => false

theorem accepted_of {s : State} {c : Instr} (e : acceptedB s c = true) : Accepted s c := by
  simp only [acceptedB, Bool.and_eq_true] at e
  refine ⟨e.1, ?_⟩
  cases h : specOf c s with
  | none => simp [h] at e
  | some q => exact ⟨q.1, q.2, rfl, accepts_of (by simpa [h] using e.2)⟩

theorem accepted_nop : Accepted b0 (.nop h0 []) :=
  accepted_of (by decide +kernel)

theorem accepted_deviceInfo : Accepted b0 (.deviceInfo h0) :=
  accepted_of (by decide +kernel)

theorem accepted_readyRead : Accepted b0 (.readyRead h0) :=
  accepted_of (by decide +kernel)

theorem accepted_windowRead : Accepted b0 (.windowRead h0 0 8) :=
  accepted_of (by decide +kernel)

theorem accepted_modeSet : Accepted b0 (.modeSet h0 6 0 0 0 0 0) :=
  accepted_of (by decide +kernel)

theorem accepted_warmReset : Accepted b0 (.warmReset h0) :=
  accepted_of (by decide +kernel)

theorem accepted_keeperRestart : Accepted b0 (.keeperRestart h0 0) :=
  accepted_of (by decide +kernel)

theorem accepted_hostSet : Accepted b0 (.hostSet h0 0 0xFFFF 0xFFFF) :=
  accepted_of (by decide +kernel)

theorem accepted_bulkWindowSet : Accepted b0 (.bulkWindowSet h0 0) :=
  accepted_of (by decide +kernel)

theorem accepted_fwInfo : Accepted b0 (.fwInfo h0) :=
  accepted_of (by decide +kernel)

theorem accepted_fwStage : Accepted b0 (.fwStage h0 2 8) :=
  accepted_of (by decide +kernel)

theorem accepted_fwData : Accepted { b0 with dev.imgB := { staged := 8, erased := true } } (.fwData h0 2 0 1 [0]) :=
  accepted_of (by decide +kernel)

theorem accepted_fwVerify : Accepted { b0 with dev.imgB := { staged := 8, written := 8, erased := true } } (.fwVerify h0 2) :=
  accepted_of (by decide +kernel)

theorem accepted_fwSelect : Accepted { b0 with dev.imgB := { info := some ⟨0x0100, 0, 1536⟩ } } (.fwSelect h0 2) :=
  accepted_of (by decide +kernel)

theorem accepted_fwCommit : Accepted b0 (.fwCommit h0) :=
  accepted_of (by decide +kernel)

theorem accepted_segLoad : Accepted b0 (.segLoad h0 0 1 [7]) :=
  accepted_of (by decide +kernel)

theorem accepted_combRead : Accepted b0 (.combRead h0 0 1) :=
  accepted_of (by decide +kernel)

theorem accepted_combFill : Accepted b0 (.combFill h0 0 64 0) :=
  accepted_of (by decide +kernel)

theorem accepted_combAtomic : Accepted b0 (.combAtomic h0 0x180000 0 1) :=
  accepted_of (by decide +kernel)

theorem accepted_combRegionSet : Accepted b0 (.combRegionSet h0 0 0 0 0 0) :=
  accepted_of (by decide +kernel)

theorem accepted_combActiveRead : Accepted b0 (.combActiveRead h0 0 0 0 1) :=
  accepted_of (by decide +kernel)

theorem accepted_srcTableSet : Accepted b0 (.srcTableSet h0 0 1) :=
  accepted_of (by decide +kernel)

theorem accepted_srcDescSet : Accepted { b0 with hives := [(0, hv)] } (.srcDescSet h0 0 0 (1 + 16 * 2 ^ 64 + 0x1000 * 2 ^ 32)) :=
  accepted_of (by decide +kernel)

theorem accepted_curveAreaSet : Accepted b0 (.curveAreaSet h0 0 0 1) :=
  accepted_of (by decide +kernel)

theorem accepted_domainSet : Accepted b0 (.domainSet h0 1 40 1 10 0 0 0) :=
  accepted_of (by decide +kernel)

theorem accepted_domainOff : Accepted b0 (.domainOff h0 0) :=
  accepted_of (by decide +kernel)

theorem accepted_syncConfig : Accepted { b0 with md.mode := .idle } (.syncConfig h0 0 0 0 0) :=
  accepted_of (by decide +kernel)

theorem accepted_sysrefSet : Accepted b0 (.sysrefSet h0 0 0 4 1 1 0) :=
  accepted_of (by decide +kernel)

theorem accepted_timeHorizonSet : Accepted { b0 with md.mode := .idle } (.timeHorizonSet h0 48) :=
  accepted_of (by decide +kernel)

theorem accepted_timePpsSet : Accepted b0 (.timePpsSet h0 0) :=
  accepted_of (by decide +kernel)

theorem accepted_paceConfig : Accepted b0 (.paceConfig h0 1000000 10 10 10 775 825 5 5) :=
  accepted_of (by decide +kernel)

theorem accepted_cellBind : Accepted b0 (.cellBind h0 0 0 0 ⟨2, 0⟩ 0 0 0) :=
  accepted_of (by decide +kernel)

theorem accepted_cellArm : Accepted { b0 with comb := tables, hives := [(0, hv)], cells := [(0, cl .bound)] } (.cellArm h0 0 0 1 0 0 0) :=
  accepted_of (by decide +kernel)

theorem accepted_cellStart : Accepted { b0 with cells := [(0, cl .armed)] } (.cellStart h0 ⟨0, 0⟩) :=
  accepted_of (by decide +kernel)

theorem accepted_cellStop : Accepted { b0 with cells := [(0, cl .running)] } (.cellStop h0 ⟨0, 0⟩) :=
  accepted_of (by decide +kernel)

theorem accepted_cellPause : Accepted { b0 with cells := [(0, cl .running)] } (.cellPause h0 ⟨0, 0⟩) :=
  accepted_of (by decide +kernel)

theorem accepted_cellResume : Accepted { b0 with cells := [(0, cl .paused)] } (.cellResume h0 ⟨0, 0⟩) :=
  accepted_of (by decide +kernel)

theorem accepted_cellRateSet : Accepted { b0 with cells := [(0, cl .running)] } (.cellRateSet h0 0 0) :=
  accepted_of (by decide +kernel)

theorem accepted_cellUnbind : Accepted { b0 with cells := [(0, cl .bound)] } (.cellUnbind h0 0) :=
  accepted_of (by decide +kernel)

theorem accepted_groupSet : Accepted b0 (.groupSet h0 0 [0]) :=
  accepted_of (by decide +kernel)

theorem accepted_cellClear : Accepted b0 (.cellClear h0 0 0) :=
  accepted_of (by decide +kernel)

theorem accepted_cellReset : Accepted b0 (.cellReset h0 0) :=
  accepted_of (by decide +kernel)

theorem accepted_synConfig : Accepted b0 (.synConfig h0 0 0 0 0 0 0) :=
  accepted_of (by decide +kernel)

theorem accepted_synGainSet : Accepted { b0 with cells := [(0, cl .bound)] } (.synGainSet h0 ⟨0, 0⟩ 0 0) :=
  accepted_of (by decide +kernel)

theorem accepted_formatSet : Accepted b0 (.formatSet h0 0 0 0x100) :=
  accepted_of (by decide +kernel)

theorem accepted_synClear : Accepted b0 (.synClear h0 0 0) :=
  accepted_of (by decide +kernel)

theorem accepted_synCoefRead : Accepted b0 (.synCoefRead h0 0) :=
  accepted_of (by decide +kernel)

theorem accepted_synCalApply : Accepted { b0 with cells := [(0, cl .bound)] } (.synCalApply h0 0 0 0) :=
  accepted_of (by decide +kernel)

theorem accepted_queueOpen : Accepted { b0 with dmcs := [(0, dm)] } (.queueOpen h0 0 0 0 4 0 0 0 4) :=
  accepted_of (by decide +kernel)

theorem accepted_queueClose : Accepted { b0 with dmcs := [(0, dm)] } (.queueClose h0 0 0) :=
  accepted_of (by decide +kernel)

theorem accepted_queueStatus : Accepted { b0 with dmcs := [(0, dm)] } (.queueStatus h0 0 0) :=
  accepted_of (by decide +kernel)

theorem accepted_queueFlush : Accepted { b0 with dmcs := [(0, dm)], queues := [(0, { st := .opened, sizeLog2 := 4 })] } (.queueFlush h0 0 0) :=
  accepted_of (by decide +kernel)

theorem accepted_capBind : Accepted { b0 with links := [(16, { st := .data, l := 1, m := 1 })] } (.capBind h0 0 0 1 4096 0 0 1) :=
  accepted_of (by decide +kernel)

theorem accepted_capArm : Accepted { b0 with dmcs := [(0, dm)], caps := [(0, { st := .bound, k := 1, recLog2 := 16 })] } (.capArm h0 0 ⟨0, 1280, 0, 0, 0, 16, 0, 0, 0, 0, 0⟩) :=
  accepted_of (by decide +kernel)

theorem accepted_capDisarm : Accepted b0 (.capDisarm h0 ⟨0, 0⟩) :=
  accepted_of (by decide +kernel)

theorem accepted_capTrigger : Accepted b0 (.capTrigger h0 0) :=
  accepted_of (by decide +kernel)

theorem accepted_capRelease : Accepted { b0 with caps := [(0, { st := .bound, k := 1, recLog2 := 16 })] } (.capRelease h0 0 0) :=
  accepted_of (by decide +kernel)

theorem accepted_capTrigSet : Accepted { b0 with caps := [(0, { st := .bound, k := 1, recLog2 := 16 })] } (.capTrigSet h0 0 0 0 0 1) :=
  accepted_of (by decide +kernel)

theorem accepted_capUnbind : Accepted { b0 with caps := [(0, { st := .bound, k := 1, recLog2 := 16 })] } (.capUnbind h0 0) :=
  accepted_of (by decide +kernel)

theorem accepted_capClear : Accepted b0 (.capClear h0 0 0) :=
  accepted_of (by decide +kernel)

theorem accepted_wagChanSet : Accepted b0 (.wagChanSet h0 0 0) :=
  accepted_of (by decide +kernel)

theorem accepted_wagTaskSet : Accepted b0 (.wagTaskSet h0 0 [0, 0, 0, 0] 0x7F) :=
  accepted_of (by decide +kernel)

theorem accepted_wagRaise : Accepted { b0 with chans := [(0, { entry := 0xA000 })] } (.wagRaise h0 0 0) :=
  accepted_of (by decide +kernel)

theorem accepted_wagTimerSet : Accepted b0 (.wagTimerSet h0 0 0 1 1 0) :=
  accepted_of (by decide +kernel)

theorem accepted_wagCounterSet : Accepted b0 (.wagCounterSet h0 0 0 1 0) :=
  accepted_of (by decide +kernel)

theorem accepted_wagPinSet : Accepted b0 (.wagPinSet h0 0 0 0 0 1) :=
  accepted_of (by decide +kernel)

theorem accepted_wagWatchRead : Accepted b0 (.wagWatchRead h0) :=
  accepted_of (by decide +kernel)

theorem accepted_wagClear : Accepted b0 (.wagClear h0 ⟨0, 0⟩ 0 0) :=
  accepted_of (by decide +kernel)

theorem accepted_wagOwnerSet : Accepted b0 (.wagOwnerSet h0 0 0 0 0) :=
  accepted_of (by decide +kernel)

theorem accepted_linkSet : Accepted { b0 with md.mode := .idle } (.linkSet h0 0 la) :=
  accepted_of (by decide +kernel)

theorem accepted_linkEnable : Accepted { b0 with domains := [(0, { on := true, locked := true, guardOpen := true, num := 1, den := 1, div := 1, ldiv := 1, srMode := 1, srPeriod := 1024 })], links := [(0, { st := .configured, l := 1, m := 1, e := 1 })] } (.linkEnable h0 0) :=
  accepted_of (by decide +kernel)

theorem accepted_linkDisable : Accepted { b0 with links := [(0, { st := .data, l := 1, m := 1 })] } (.linkDisable h0 0) :=
  accepted_of (by decide +kernel)

theorem accepted_linkRetrain : Accepted { b0 with links := [(0, { st := .data, l := 1, m := 1 })] } (.linkRetrain h0 0) :=
  accepted_of (by decide +kernel)

theorem accepted_linkSlotSet : Accepted { b0 with links := [(16, { st := .data, l := 1, m := 1 })] } (.linkSlotSet h0 16 0 0) :=
  accepted_of (by decide +kernel)

theorem accepted_linkEyeRead : Accepted { b0 with links := [(16, { st := .data, l := 1, m := 1 })] } (.linkEyeRead h0 0) :=
  accepted_of (by decide +kernel)

theorem accepted_linkClear : Accepted b0 (.linkClear h0 0 0) :=
  accepted_of (by decide +kernel)

theorem accepted_dmcConfig : Accepted { b0 with md.mode := .bringUp } (.dmcConfig h0 [⟨6, 0, 0, 0, 1, 10, 20⟩, ⟨6, 0, 0, 0, 1, 10, 20⟩, ⟨6, 0, 0, 0, 1, 10, 20⟩, ⟨6, 0, 0, 0, 1, 10, 20⟩] 0 0 0 0 0 0) :=
  accepted_of (by decide +kernel)

theorem accepted_dramRegionSet : Accepted b0 (.dramRegionSet h0 0 1 0 0) :=
  accepted_of (by decide +kernel)

theorem accepted_dramRegionRead : Accepted b0 (.dramRegionRead h0 0 1) :=
  accepted_of (by decide +kernel)

theorem accepted_dmcRetrain : Accepted { b0 with dmcs := [(0, dm)] } (.dmcRetrain h0 0 0) :=
  accepted_of (by decide +kernel)

theorem accepted_dmcScrubSet : Accepted b0 (.dmcScrubSet h0 0 1) :=
  accepted_of (by decide +kernel)

theorem accepted_dramWrite : Accepted { b0 with dmcs := [(0, dm)] } (.dramWrite h0 0 1 [7]) :=
  accepted_of (by decide +kernel)

theorem accepted_dramRead : Accepted { b0 with dmcs := [(0, dm)] } (.dramRead h0 0 1) :=
  accepted_of (by decide +kernel)

theorem accepted_dmcClear : Accepted b0 (.dmcClear h0 0 0 0) :=
  accepted_of (by decide +kernel)

theorem accepted_auxConfig : Accepted b0 (.auxConfig h0 0 0 1 1 0) :=
  accepted_of (by decide +kernel)

theorem accepted_auxWrite : Accepted b0 (.auxWrite h0 0 0 0) :=
  accepted_of (by decide +kernel)

theorem accepted_auxReadback : Accepted b0 (.auxReadback h0 0) :=
  accepted_of (by decide +kernel)

theorem accepted_auxClear : Accepted b0 (.auxClear h0 0 0) :=
  accepted_of (by decide +kernel)

theorem accepted_colConfig : Accepted { b0 with md.mode := .bringUp, col.role := 1 } (.colConfig h0 1 0) :=
  accepted_of (by decide +kernel)

theorem accepted_colSkewCal : Accepted { b0 with md.mode := .idle, col.role := 1 } (.colSkewCal h0 64 0) :=
  accepted_of (by decide +kernel)

theorem accepted_colTunnel : Accepted { b0 with col.role := 1, col.starMask := 1, col.ports := [(1, { st := 3 })] } (.colTunnel h0 1 0 (frm [])) :=
  accepted_of (by decide +kernel)

theorem accepted_colClear : Accepted b0 (.colClear h0 0) :=
  accepted_of (by decide +kernel)

theorem accepted_colWake : Accepted { b0 with col.role := 1, col.starMask := 1, col.ports := [(1, { st := 3 })] } (.colWake h0 1 2000000) :=
  accepted_of (by decide +kernel)

theorem accepted_ctxSet : Accepted b0 (.ctxSet h0 1 1 0) :=
  accepted_of (by decide +kernel)

theorem accepted_ownSet : Accepted b0 (.ownSet h0 0 0 1 0 0) :=
  accepted_of (by decide +kernel)

theorem accepted_ownRead : Accepted b0 (.ownRead h0 0 0 1) :=
  accepted_of (by decide +kernel)

theorem accepted_wakeSet : Accepted b0 (.wakeSet h0 0 0 0 0) :=
  accepted_of (by decide +kernel)

theorem accepted_lcAdvance : Accepted { b0 with md.mode := .idle, dev.lifecycle := 1, dev.serial := 1, sec.dbg := 2 } (.lcAdvance h0 3 1) :=
  accepted_of (by decide +kernel)

theorem accepted_dbgOpen : Accepted b0 (.dbgOpen h0 1) :=
  accepted_of (by decide +kernel)

theorem accepted_dbgResponse : Accepted { b0 with sec.nonce := some (5, 2000000) } (.dbgResponse h0 0 1) :=
  accepted_of (by decide +kernel)

theorem accepted_dbgClose : Accepted b0 (.dbgClose h0) :=
  accepted_of (by decide +kernel)

theorem accepted_dbgTraceRead : Accepted { b0 with sec.dbg := 1 } (.dbgTraceRead h0 0 1) :=
  accepted_of (by decide +kernel)

theorem accepted_calRead : Accepted { b0 with dev.otp := [⟨1, 0, 0, [0, 0, 0, 0, 0, 0, 0, 0], false⟩] } (.calRead h0 1 0 0) :=
  accepted_of (by decide +kernel)

theorem accepted_calWrite : Accepted b0 (.calWrite h0 1 0 1 [0, 0, 0, 0, 0, 0, 0, 0]) :=
  accepted_of (by decide +kernel)

theorem accepted_calErase : Accepted b0 (.calErase h0 1 0 1) :=
  accepted_of (by decide +kernel)

theorem accepted_bgsSet : Accepted b0 (.bgsSet h0 0 0 0 0) :=
  accepted_of (by decide +kernel)

theorem accepted_telemRead : Accepted b0 (.telemRead h0 0 1) :=
  accepted_of (by decide +kernel)

theorem accepted_calStart : Accepted b0 (.calStart h0 1 [] 0 0) :=
  accepted_of (by decide +kernel)

theorem accepted_faultClear : Accepted b0 (.faultClear h0 0 0 0) :=
  accepted_of (by decide +kernel)

theorem accepted_faultMaskSet : Accepted b0 (.faultMaskSet h0 0 0) :=
  accepted_of (by decide +kernel)

theorem accepted_faultEscSet : Accepted b0 (.faultEscSet h0 0 0 0) :=
  accepted_of (by decide +kernel)

theorem accepted_faultInject : Accepted { b0 with md.mode := .factory } (.faultInject h0 0 0 0 1 0 1) :=
  accepted_of (by decide +kernel)

theorem accepted_restoreClear : Accepted b0 (.restoreClear h0 0) :=
  accepted_of (by decide +kernel)

theorem accepted_jnlConfig : Accepted { b0 with md.mode := .idle, dmcs := [(0, dm)] } (.jnlConfig h0 0x4000000 0x4000000 0 0 0 0) :=
  accepted_of (by decide +kernel)

theorem accepted_jnlStop : Accepted b0 (.jnlStop h0) :=
  accepted_of (by decide +kernel)

theorem accepted_jnlCkpt : Accepted { b0 with jnl := jn 1 } (.jnlCkpt h0) :=
  accepted_of (by decide +kernel)

theorem accepted_jnlExport : Accepted { b0 with jnl := jn 1 } (.jnlExport h0 999000 999000 ⟨0, 0⟩) :=
  accepted_of (by decide +kernel)

theorem accepted_jnlImport : Accepted { b0 with md.mode := .idle, jnl := jn 0 } (.jnlImport h0 ⟨0, 0⟩) :=
  accepted_of (by decide +kernel)


/-! ### Values the chapters give -/

/-- The ASCII string "123456789". -/
def digits : List Byte := [0x31, 0x32, 0x33, 0x34, 0x35, 0x36, 0x37, 0x38, 0x39]

/-- R329. -/
theorem test_crc16_check_value : crc16 digits = 0x29B1 := by decide +kernel

/-- R329. -/
theorem test_crc32_check_value : crc32 digits = 0xCBF43926 := by decide +kernel

/-- Chapter 08: `EVP9` is 0x4009. -/
theorem test_src_id_pin : srcIdOf 2 0 9 = 0x4009 := by decide +kernel

/-- Chapter 08: tick timer 12 is 0x600C. -/
theorem test_src_id_timer : srcIdOf 3 0 12 = 0x600C := by decide +kernel

/-- Chapter 08: counter 5 is 0x8005. -/
theorem test_src_id_counter : srcIdOf 4 0 5 = 0x8005 := by decide +kernel

/-- Chapter 08: LOOP_END of cell 644 is 0x0684. -/
theorem test_src_id_loop_end : srcIdOf 0 1 644 = 0x0684 := by decide +kernel

/-- R43: at ratio 1/4 sample 3 leaves twelve base edges after the first. -/
theorem test_sample_edge : sampleEdge 5 3 (2 ^ 38) = 17 := by decide +kernel

/-- R43: at a ratio that does not divide, the edge is the next one. -/
theorem test_sample_edge_rounds_up : sampleEdge 0 1 (3 * 2 ^ 38) = 2 := by decide +kernel

/-- Chapter 11, "Decoding one address": MAP 1, two ranks of 16 Gb. -/
theorem test_dram_loc :
    dramLoc { ranks := 1, density := 1, map := 1 } 0x29320DA40 = { rank := 0, bg := 2, ba := 1, row := 42184, col := 89 } := by
  decide +kernel

/-- The same line's DDR4 column. -/
theorem test_ddr_column : ddrColumn (dramLoc { ranks := 1, density := 1, map := 1 } 0x29320DA40) = 712 := by decide +kernel

/-- R330, R331: opcode 0x0110 with CA 0 and COUNT 1 spells a `SEG_LOAD` of one byte. -/
theorem test_frame_seg_load :
    readCommand (parseFrame seg0) false [7] = some (.segLoad (hdrOf (parseFrame seg0) false) 0 1 [7], false) := by decide +kernel

/-- A step takes the command in front and leaves the one behind it. -/
theorem test_step_takes_front :
    (match step { b0 with pending := [.flashReady, .spiId] } with
      | .next t => decide (t.pending = [.spiId])
      | _ => false) = true := by decide +kernel

/-- An empty queue lets one tick pass. -/
theorem test_idle_step : (match step b0 with
      | .next t => decide (t.time.tick = 1000001)
      | _ => false) = true := by decide +kernel

/-- The ZW0256-A has no hive 16 (R3). -/
theorem test_absent_hive :
    (match exec (.fillAlarm 16) { b0 with dev.variant := .zw0256 } with
      | .fault f => decide (f = .absentUnit)
      | _ => false) = true := by decide +kernel

/-! ### KeeperDecisions -/

theorem met_KeeperDecisions_1 : ∃ (s : State) (x : Held) (h : Hdr), Decides s x (.readyRead h) :=
  ⟨{ b0 with held := [hd (.readyRead h0)] }, hd (.readyRead h0), h0, decides_of (by decide +kernel)⟩

theorem met_KeeperDecisions_2 : ∃ (s : State) (x : Held) (h : Hdr) (o n : Nat), Decides s x (.windowRead h o n) :=
  ⟨{ b0 with held := [hd (.windowRead h0 0x7FF8 10)] }, hd (.windowRead h0 0x7FF8 10), h0, 0x7FF8, 10, decides_of (by decide +kernel)⟩

theorem met_KeeperDecisions_3 : ∃ (s : State) (x : Held) (h : Hdr) (i : Nat), Decides s x (.keeperRestart h i) ∧ ((i = 0 ∨
    (imgBoots s (i - 1)).isSome = true)) :=
  ⟨{ b0 with dev.imgB := { info := some ⟨0x0101, 1, 1792⟩ }, held := [hd (.keeperRestart h0 2)] }, hd (.keeperRestart h0 2), h0, 2,
    decides_of (by decide +kernel), by decide +kernel⟩

theorem met_KeeperDecisions_4 : ∃ (s : State) (x : Held) (h : Hdr) (m n r : Nat), Decides s x (.hostSet h m n r) :=
  ⟨{ b0 with held := [hd (.hostSet h0 0xFFFF 1023 0xFFFF)] }, hd (.hostSet h0 0xFFFF 1023 0xFFFF), h0, 0xFFFF, 1023, 0xFFFF,
    decides_of (by decide +kernel)⟩

theorem met_KeeperDecisions_5 : ∃ (s : State) (x : Held) (h : Hdr) (b : Nat), Decides s x (.bulkWindowSet h b) :=
  ⟨{ b0 with held := [hd (.bulkWindowSet h0 (2 ^ 40 - 2 ^ 28))] }, hd (.bulkWindowSet h0 (2 ^ 40 - 2 ^ 28)), h0, (2 ^ 40 - 2 ^ 28),
    decides_of (by decide +kernel)⟩

/-! ### FirmwareDecisions -/

theorem met_FirmwareDecisions_1 : ∃ (s : State) (x : Held) (h : Hdr) (i n : Nat), Decides s x (.fwStage h i n) ∧ imgRuns s (i - 1) = false :=
  ⟨{ b0 with held := [hd (.fwStage h0 2 1)] }, hd (.fwStage h0 2 1), h0, 2, 1, decides_of (by decide +kernel), by decide +kernel⟩

theorem met_FirmwareDecisions_2 : ∃ (s : State) (x : Held) (h : Hdr) (i n : Nat), Decides s x (.fwStage h i n) ∧ imgRuns s (i - 1) = true :=
  ⟨{ b0 with held := [hd (.fwStage h0 1 1)] }, hd (.fwStage h0 1 1), h0, 1, 1, decides_of (by decide +kernel), by decide +kernel⟩

theorem met_FirmwareDecisions_3 : ∃ (s : State) (x : Held) (h : Hdr) (i o n : Nat) (d : List Byte), Decides s x (.fwData h i o n d) ∧
    fwDataErr s i o n = none :=
  ⟨{ b0 with dev.imgB := { staged := 4096, erased := true }, held := [hd (.fwData h0 2 0 4096 [])] }, hd (.fwData h0 2 0 4096 []), h0, 2, 0, 4096, [],
    decides_of (by decide +kernel), by decide +kernel⟩

theorem met_FirmwareDecisions_4 : ∃ (s : State) (x : Held) (h : Hdr) (i : Nat), Decides s x (.fwVerify h i) ∧ fwWhole s i = true :=
  ⟨{ b0 with dev.imgB := { staged := 64, written := 64, upto := 64, erased := true }, held := [hd (.fwVerify h0 2)] }, hd (.fwVerify h0 2), h0, 2,
    decides_of (by decide +kernel), by decide +kernel⟩

theorem met_FirmwareDecisions_5 : ∃ (s : State) (x : Held) (h : Hdr) (i : Nat), Decides s x (.fwSelect h i) ∧ (imgBoots s (i - 1)).isSome = true :=
  ⟨{ b0 with dev.imgB := { info := some ⟨0x0101, 1, 1792⟩ }, held := [hd (.fwSelect h0 2)] }, hd (.fwSelect h0 2), h0, 2,
    decides_of (by decide +kernel), by decide +kernel⟩

theorem met_FirmwareDecisions_6 : ∃ (s : State) (x : Held) (h : Hdr), Decides s x (.fwCommit h) :=
  ⟨{ b0 with held := [hd (.fwCommit h0)] }, hd (.fwCommit h0), h0, decides_of (by decide +kernel)⟩

theorem met_FirmwareDecisions_7 : ∃ (s : State) (x : Held) (h : Hdr) (i n : Nat) (w : List Held), Live s ∧ (Oldest s (fun c => ∃ h i n,
    c = .fwStage h i n) x w) ∧ x.cmd = .fwStage h i n :=
  ⟨{ b0 with works := [hd (.fwStage h0 2 1)] }, hd (.fwStage h0 2 1), h0, 2, 1, [], live_of (by decide +kernel),
    oldest_head rfl (by decide +kernel) (by simp [hd]), rfl⟩

theorem met_FirmwareDecisions_8 : ∃ (s : State) (x : Held) (h : Hdr) (i o n : Nat) (d : List Byte) (w : List Held), Live s ∧
    (Oldest s (fun c => ∃ h i o n d, c = .fwData h i o n d) x w) ∧ x.cmd = .fwData h i o n d :=
  ⟨{ b0 with works := [hd (.fwData h0 2 0 1 [7])] }, hd (.fwData h0 2 0 1 [7]), h0, 2, 0, 1, [7], [], live_of (by decide +kernel),
    oldest_head rfl (by decide +kernel) (by simp [hd]), rfl⟩

theorem met_FirmwareDecisions_9 : ∃ (s : State) (x : Held) (h : Hdr) (i n : Nat) (w : List Held), Live s ∧ (Oldest s (fun c => ∃ h i n,
    c = .fwStage h i n) x w) ∧ x.cmd = .fwStage h i n :=
  ⟨{ b0 with works := [hd (.fwStage h0 1 1)] }, hd (.fwStage h0 1 1), h0, 1, 1, [], live_of (by decide +kernel),
    oldest_head rfl (by decide +kernel) (by simp [hd]), rfl⟩

theorem met_FirmwareDecisions_10 : ∃ (s : State) (x : Held) (h : Hdr) (i : Nat) (w : List Held), Live s ∧ (Oldest s (fun c => ∃ h i,
    c = .fwVerify h i) x w) ∧ x.cmd = .fwVerify h i :=
  ⟨{ b0 with works := [hd (.fwVerify h0 2)] }, hd (.fwVerify h0 2), h0, 2, [], live_of (by decide +kernel),
    oldest_head rfl (by decide +kernel) (by simp [hd]), rfl⟩

theorem met_FirmwareDecisions_11 : ∃ (s : State) (x : Held) (h : Hdr) (w : List Held), Live s ∧ (Oldest s (fun c => ∃ h, c = .fwCommit h) x w) ∧
    x.cmd = .fwCommit h :=
  ⟨{ b0 with works := [hd (.fwCommit h0)] }, hd (.fwCommit h0), h0, [], live_of (by decide +kernel),
    oldest_head rfl (by decide +kernel) (by simp [hd]), rfl⟩

/-! ### CombWrites -/

theorem met_CombWrites_1 : ∃ (s : State) (x : Held) (h : Hdr) (ca n : Nat) (d : List Byte), Decides s x (.segLoad h ca n d) ∧
    combReadyAt s ca d.length = true ∧ combOwned s x.ctx ca d.length = true ∧ firstHeldGranule s ca d.length = none ∧ rmwUe s ca d.length = none :=
  ⟨{ b0 with held := [hd (.segLoad h0 0x1FFFFF 1 [0xFF])] }, hd (.segLoad h0 0x1FFFFF 1 [0xFF]), h0, 0x1FFFFF, 1, [0xFF],
    decides_of (by decide +kernel), by decide +kernel⟩

theorem met_CombWrites_2 : ∃ (s : State) (x : Held) (h : Hdr) (ca n : Nat) (p : DWord), Decides s x (.combFill h ca n p) ∧
    combReadyAt s ca (8 * (n / 8)) = true ∧ combOwned s x.ctx ca (8 * (n / 8)) = true ∧ firstHeldGranule s ca (8 * (n / 8)) = none ∧ ca % 8 = 0 :=
  ⟨{ b0 with held := [hd (.combFill h0 8 8 0x0123456789ABCDEF)] }, hd (.combFill h0 8 8 0x0123456789ABCDEF), h0, 8, 8, 0x0123456789ABCDEF,
    decides_of (by decide +kernel), by decide +kernel⟩

theorem met_CombWrites_3 : ∃ (s : State) (x : Held) (h : Hdr) (ca op : Nat) (v : DWord), Decides s x (.combAtomic h ca op v) ∧
    combReadyAt s ca 8 = true ∧ combOwned s x.ctx ca 8 = true ∧ firstHeldGranule s ca 8 = none ∧ spanUe s ca 8 = false :=
  ⟨{ b0 with held := [hd (.combAtomic h0 0x1FFFF8 1 1)] }, hd (.combAtomic h0 0x1FFFF8 1 1), h0, 0x1FFFF8, 1, 1, decides_of (by decide +kernel),
    by decide +kernel⟩

theorem met_CombWrites_4 : ∃ (s : State) (x : Held) (h : Hdr) (hive n : Nat), Decides s x (.srcTableSet h hive n) ∧ tableBusy s hive = false ∧
    firstHeldGranule s (tableAt hive n) (32 * n) = none ∧ combOwned s x.ctx (tableAt hive n) (32 * n) = true ∧
    combReadyAt s (combAddr hive 0 0) 1 = true :=
  ⟨{ b0 with held := [hd (.srcTableSet h0 1 4096)] }, hd (.srcTableSet h0 1 4096), h0, 1, 4096, decides_of (by decide +kernel), by decide +kernel⟩

theorem met_CombWrites_5 : ∃ (s : State) (x : Held) (h : Hdr) (hive i : Nat) (d : BitVec 256), let ca := combAddr hive 0 (tableOff s hive + 32 * i);
    Decides s x (.srcDescSet h hive i d) ∧ tableBusy s hive = false ∧ i < (hiveAt s hive).srcCount ∧ combReadyAt s ca 32 = true ∧
    combOwned s x.ctx ca 32 = true ∧ firstHeldGranule s ca 32 = none ∧ rmwUe s ca 32 = none :=
  ⟨{ b0 with hives := [(0, { playReady := true, catchReady := true, power := 0, srcCount := 1 })], held := [hd (.srcDescSet h0 0 0 5)] },
    hd (.srcDescSet h0 0 0 5), h0, 0, 0, 5, decides_of (by decide +kernel), by decide +kernel⟩

/-! ### CombReads -/

theorem met_CombReads_1 : ∃ (s : State) (x : Held) (h : Hdr) (ca n : Nat), Decides s x (.combRead h ca n) ∧ combReadyAt s ca (8 * n) = true ∧
    combOwned s x.ctx ca (8 * n) = true ∧ spanUe s ca (8 * n) = false ∧ spanActive s ca (8 * n) = false :=
  ⟨{ b0 with held := [hd (.combRead h0 0 1)] }, hd (.combRead h0 0 1), h0, 0, 1, decides_of (by decide +kernel), by decide +kernel⟩

theorem met_CombReads_2 : ∃ (s : State) (x : Held) (h : Hdr) (ca n : Nat), Decides s x (.combRead h ca n) ∧ combReadyAt s ca (8 * n) = true ∧
    combOwned s x.ctx ca (8 * n) = true ∧ spanUe s ca (8 * n) = false :=
  ⟨{ b0 with active := [(6144, 1)], held := [hd (.combRead h0 0x180000 2)] }, hd (.combRead h0 0x180000 2), h0, 0x180000, 2,
    decides_of (by decide +kernel), by decide +kernel⟩

theorem met_CombReads_3 : ∃ (s : State) (x : Held) (h : Hdr) (ca n : Nat), Decides s x (.combRead h ca n) ∧ combReadyAt s ca (8 * n) = true ∧
    combOwned s x.ctx ca (8 * n) = true ∧ spanUe s ca (8 * n) = true :=
  ⟨{ b0 with combUe := [1], held := [hd (.combRead h0 8 1)] }, hd (.combRead h0 8 1), h0, 8, 1, decides_of (by decide +kernel), by decide +kernel⟩

theorem met_CombReads_4 : ∃ (s : State) (x : Held) (h : Hdr) (hive bank first n : Nat), Decides s x (.combActiveRead h hive bank first n) ∧
    combReadyAt s (combAddr hive bank 0) 1 = true :=
  ⟨{ b0 with held := [hd (.combActiveRead h0 0 1 0 1024)] }, hd (.combActiveRead h0 0 1 0 1024), h0, 0, 1, 0, 1024, decides_of (by decide +kernel),
    by decide +kernel⟩

theorem met_CombReads_5 : ∃ (s : State) (x : Held) (h : Hdr) (hive bank r k secure : Nat), let ca := combAddr hive bank (r * 0x10000);
    Decides s x (.combRegionSet h hive bank r k secure) ∧ spanActive s ca 0x10000 = false ∧ combReadyAt s ca 1 = true :=
  ⟨{ b0 with held := [hd (.combRegionSet h0 0 1 7 15 1)] }, hd (.combRegionSet h0 0 1 7 15 1), h0, 0, 1, 7, 15, 1, decides_of (by decide +kernel),
    by decide +kernel⟩

theorem met_CombReads_6 : ∃ (s : State) (x : Held) (h : Hdr) (ca n : Nat) (d : List Byte) (w : List Held), Live s ∧ (Oldest s (fun c => (∃ h ca n d,
    c = .segLoad h ca n d) ∨ ∃ h ca n p, c = .combFill h ca n p) x w) ∧ x.cmd = .segLoad h ca n d :=
  ⟨{ b0 with works := [hd (.segLoad h0 0 1 [1])] }, hd (.segLoad h0 0 1 [1]), h0, 0, 1, [1], [], live_of (by decide +kernel),
    oldest_head rfl (by decide +kernel) (by simp [hd]), rfl⟩

theorem met_CombReads_7 : ∃ (s : State) (x : Held) (h : Hdr) (ca n : Nat) (p : DWord) (w : List Held), Live s ∧ (Oldest s (fun c => (∃ h ca n d,
    c = .segLoad h ca n d) ∨ ∃ h ca n p, c = .combFill h ca n p) x w) ∧ x.cmd = .combFill h ca n p :=
  ⟨{ b0 with works := [hd (.combFill h0 0 8 0)] }, hd (.combFill h0 0 8 0), h0, 0, 8, 0, [], live_of (by decide +kernel),
    oldest_head rfl (by decide +kernel) (by simp [hd]), rfl⟩

/-! ### ClockDecisions -/

theorem met_ClockDecisions_1 : ∃ (s : State) (x : Held) (h : Hdr) (g l d c : Nat), Decides s x (.syncConfig h g l d c) :=
  ⟨{ b0 with held := [hd (.syncConfig h0 0 0 1 1)] }, hd (.syncConfig h0 0 0 1 1), h0, 0, 0, 1, 1, decides_of (by decide +kernel)⟩

theorem met_ClockDecisions_2 : ∃ (s : State) (x : Held) (h : Hdr) (hor : Nat), Decides s x (.timeHorizonSet h hor) ∧ (s.md.mode = .bringUp ∨
    s.md.mode = .idle) :=
  ⟨{ b0 with md.mode := .idle, held := [hd (.timeHorizonSet h0 4095)] }, hd (.timeHorizonSet h0 4095), h0, 4095, decides_of (by decide +kernel),
    by decide +kernel⟩

theorem met_ClockDecisions_3 : ∃ (s : State) (x : Held) (h : Hdr) (sec : Nat), Decides s x (.timePpsSet h sec) :=
  ⟨{ b0 with held := [hd (.timePpsSet h0 (2 ^ 64 - 1))] }, hd (.timePpsSet h0 (2 ^ 64 - 1)), h0, (2 ^ 64 - 1), decides_of (by decide +kernel)⟩

theorem met_ClockDecisions_4 : ∃ (s : State) (x : Held) (h : Hdr) (w m fg fa lo hi up dn : Nat), Decides s x (.paceConfig h w m fg fa lo hi up dn) :=
  ⟨{ b0 with held := [hd (.paceConfig h0 0 0 0 0 0 0 0 0)] }, hd (.paceConfig h0 0 0 0 0 0 0 0 0), h0, 0, 0, 0, 0, 0, 0, 0, 0,
    decides_of (by decide +kernel)⟩

theorem met_ClockDecisions_5 : ∃ (s : State) (x : Held) (h : Hdr) (d m p n w dl : Nat), Decides s x (.sysrefSet h d m p n w dl) ∧
    domLinkData s d = false :=
  ⟨{ b0 with held := [hd (.sysrefSet h0 0 2 8 1 1 0)] }, hd (.sysrefSet h0 0 2 8 1 1 0), h0, 0, 2, 8, 1, 1, 0, decides_of (by decide +kernel),
    by decide +kernel⟩

theorem met_ClockDecisions_6 : ∃ (s : State) (x : Held) (h : Hdr) (d num den div ldiv ln g : Nat),
    Decides s x (.domainSet h d num den div ldiv ln g) ∧ domFree (reached s x) d = true :=
  ⟨{ b0 with held := [hd (.domainSet h0 3 1 16 1 1 0 0)] }, hd (.domainSet h0 3 1 16 1 1 0 0), h0, 3, 1, 16, 1, 1, 0, 0,
    decides_of (by decide +kernel), by decide +kernel⟩

theorem met_ClockDecisions_7 : ∃ (s : State) (x : Held) (h : Hdr) (d num den div ldiv ln g : Nat),
    Decides s x (.domainSet h d num den div ldiv ln g) ∧ domFree (reached s x) d = false :=
  ⟨{ b0 with cells := [(0, { st := .running, mRef := 1000000, arm := some ⟨0, 1, 0, 0, 0, [], []⟩ })], held := [hd (.domainSet h0 0 1 16 1 1 0 0)] },
    hd (.domainSet h0 0 1 16 1 1 0 0), h0, 0, 1, 16, 1, 1, 0, 0, decides_of (by decide +kernel), by decide +kernel⟩

theorem met_ClockDecisions_8 : ∃ (s : State) (x : Held) (h : Hdr) (d : Nat), Decides s x (.domainOff h d) ∧ domUsed s d = false :=
  ⟨{ b0 with held := [hd (.domainOff h0 0)] }, hd (.domainOff h0 0), h0, 0, decides_of (by decide +kernel), by decide +kernel⟩

/-! ### TimeEvents -/

theorem met_TimeEvents_1 : ∃ s : State, Live s ∧ s.col.role ≠ 2 :=
  ⟨{ b0 with time := {} }, live_of (by decide +kernel), by decide +kernel⟩

theorem met_TimeEvents_2 : ∃ s : State, Live s ∧ s.col.role = 2 :=
  ⟨{ b0 with time := {}, col.role := 2 }, live_of (by decide +kernel), by decide +kernel⟩

theorem met_TimeEvents_3 : ∃ s : State, Live s ∧ inRetain s = false :=
  ⟨b0, live_of (by decide +kernel), by decide +kernel⟩

theorem met_TimeEvents_4 : ∃ (s : State) (sec : Nat), Live s ∧ s.time.ppsArmed = some sec ∧ s.time.ready = true :=
  ⟨{ b0 with time.ppsArmed := some 7 }, 7, live_of (by decide +kernel), rfl, by decide +kernel⟩

theorem met_TimeEvents_5 : ∃ (s : State) (sub l n : Nat), Live s ∧ s.time.ppsLast = some l ∧ ppsCount l (16 * s.time.tick + sub % 16) = some n ∧
    s.time.ready = true ∧ s.time.ppsArmed = none :=
  ⟨{ b0 with time.tick := 100000000, time.ppsLast := some 0 }, 0, 0, 1, live_of (by decide +kernel), rfl, rfl, by decide +kernel⟩

theorem met_TimeEvents_6 : ∃ (s : State) (sub l : Nat), Live s ∧ s.time.ppsLast = some l ∧ s.time.ready = true ∧ s.time.ppsArmed = none ∧
    ppsCount l (16 * s.time.tick + sub % 16) = none :=
  ⟨{ b0 with time.tick := 1000000, time.ppsLast := some 0 }, 0, 0, live_of (by decide +kernel), rfl, by decide +kernel⟩

theorem met_TimeEvents_7 : ∃ (s : State) (l : Nat), Live s ∧ s.time.ppsLast = some l :=
  ⟨{ b0 with time.ppsLast := some 0 }, 0, live_of (by decide +kernel), rfl⟩

theorem met_TimeEvents_8 : ∃ s : State, Live s ∧ syncDriving s = true ∧ s.time.ready = true ∧ s.time.tick % 2 ^ s.col.syncLog2 = 0 :=
  ⟨{ b0 with time.tick := 2 ^ 20, col.drive := true }, live_of (by decide +kernel), by decide +kernel⟩

theorem met_TimeEvents_9 : ∃ s : State, Live s ∧ syncIgnored s = false ∧ s.time.ready = true ∧ s.time.tick % 2 ^ s.col.syncLog2 = s.col.syncLat :=
  ⟨{ b0 with time.tick := 2 ^ 20 + 2, col.check := true }, live_of (by decide +kernel), by decide +kernel⟩

theorem met_TimeEvents_10 : ∃ s : State, Live s ∧ syncIgnored s = false ∧ s.time.ready = true ∧ s.time.tick % 2 ^ s.col.syncLog2 ≠ s.col.syncLat :=
  ⟨{ b0 with time.tick := 2 ^ 20 + 3, col.check := true }, live_of (by decide +kernel), by decide +kernel⟩

theorem met_TimeEvents_11 : ∃ s : State, Live s ∧ syncIgnored s = false ∧ s.time.ready = true ∧
    s.col.lastSync + 2 ^ s.col.syncLog2 + 4 ≤ s.time.tick :=
  ⟨{ b0 with time.tick := 2 ^ 20 + 4, col.check := true }, live_of (by decide +kernel), by decide +kernel⟩

/-! ### PaceAndDomainEvents -/

theorem met_PaceAndDomainEvents_1 : ∃ s : State, Live s :=
  ⟨b0, live_of (by decide +kernel)⟩

theorem met_PaceAndDomainEvents_2 : ∃ (s : State) (h : Nat), Live s ∧ h < nHives s ∧ paceOn s = true :=
  ⟨b0, 63, live_of (by decide +kernel), by decide +kernel⟩

theorem met_PaceAndDomainEvents_3 : ∃ (s : State) (h : Nat), Live s ∧ h < nHives s ∧ paceOn s = false :=
  ⟨{ b0 with md.mode := .bringUp }, 63, live_of (by decide +kernel), by decide +kernel⟩

theorem met_PaceAndDomainEvents_4 : ∃ (s : State) (v : Nat), Live s ∧ s.kpr.ready = true ∧ within5 v s.pace.vset = true :=
  ⟨b0, 850, live_of (by decide +kernel), by decide +kernel⟩

theorem met_PaceAndDomainEvents_5 : ∃ (s : State) (v : Nat), Live s ∧ s.kpr.ready = true ∧ within5 v s.pace.vset = false :=
  ⟨b0, 0, live_of (by decide +kernel), by decide +kernel⟩

theorem met_PaceAndDomainEvents_6 : ∃ (s : State) (d : Nat), Live s ∧ d < 4 ∧ (domAt s d).on = true ∧ (domAt s d).guardOpen = false :=
  ⟨{ b0 with domains := [(3, { on := true, locked := false, guardOpen := false, num := 1, den := 1, div := 1, srMode := 1, srPeriod := 8 })] }, 3,
    live_of (by decide +kernel), by decide +kernel⟩

theorem met_PaceAndDomainEvents_7 : ∃ (s : State) (d : Nat), Live s ∧ d < 4 ∧ (domAt s d).locked = true ∧ lossWaits s d = false ∧
    (fltAt s .tim).mask.getLsbD (1 + d) = false :=
  ⟨{ b0 with domains := [(3, { on := true, locked := true, guardOpen := false, num := 1, den := 1, div := 1, srMode := 1, srPeriod := 8 })] }, 3,
    live_of (by decide +kernel), by decide +kernel⟩

theorem met_PaceAndDomainEvents_8 : ∃ (s : State) (d : Nat), Live s ∧ d < 4 ∧ (domAt s d).guardOpen = true ∧ lossWaits s d = false :=
  ⟨{ b0 with domains := [(3, { on := true, locked := true, guardOpen := true, num := 1, den := 1, div := 1, srMode := 1, srPeriod := 8 })] }, 3,
    live_of (by decide +kernel), by decide +kernel⟩

theorem met_PaceAndDomainEvents_9 : ∃ (s : State) (d : Nat), Live s ∧ d < 4 ∧ s.time.ready = true ∧ (domAt s d).srMode = 1 ∧
    (domAt s d).guardOpen = true ∧ sysrefTick (domAt s d) (domAt s d).srNext ≤ s.time.tick :=
  ⟨{ b0 with domains := [(3, { on := true, locked := true, guardOpen := true, num := 1, den := 1, div := 1, srMode := 1, srPeriod := 8 })] }, 3,
    live_of (by decide +kernel), by decide +kernel⟩

theorem met_PaceAndDomainEvents_10 : ∃ (s : State) (d : Nat), Live s ∧ d < 4 ∧ s.time.ready = true ∧ (domAt s d).srMode = 1 ∧
    (domAt s d).guardOpen = false ∧ sysrefTick (domAt s d) (domAt s d).srNext ≤ s.time.tick :=
  ⟨{ b0 with domains := [(3, { on := true, locked := true, guardOpen := false, num := 1, den := 1, div := 1, srMode := 1, srPeriod := 8 })] }, 3,
    live_of (by decide +kernel), by decide +kernel⟩

/-! ### CellTransitions -/

theorem met_CellTransitions_1 : ∃ (s : State) (x : Held) (h : Hdr) (u : Sel), Decides s x (.cellStart h u) :=
  ⟨{ b0 with held := [hd (.cellStart h0 ⟨0, 1023⟩)] }, hd (.cellStart h0 ⟨0, 1023⟩), h0, ⟨0, 1023⟩, decides_of (by decide +kernel)⟩

theorem met_CellTransitions_2 : ∃ (s : State) (x : Held) (h : Hdr) (u : Sel), Decides s x (.cellStop h u) :=
  ⟨{ b0 with held := [hd (.cellStop h0 ⟨1, 62⟩)] }, hd (.cellStop h0 ⟨1, 62⟩), h0, ⟨1, 62⟩, decides_of (by decide +kernel)⟩

theorem met_CellTransitions_3 : ∃ (s : State) (x : Held) (h : Hdr) (u : Sel), Decides s x (.cellPause h u) :=
  ⟨{ b0 with held := [hd (.cellPause h0 ⟨0, 0⟩)] }, hd (.cellPause h0 ⟨0, 0⟩), h0, ⟨0, 0⟩, decides_of (by decide +kernel)⟩

theorem met_CellTransitions_4 : ∃ (s : State) (x : Held) (h : Hdr) (u : Sel), Decides s x (.cellResume h u) :=
  ⟨{ b0 with held := [hd (.cellResume h0 ⟨0, 0⟩)] }, hd (.cellResume h0 ⟨0, 0⟩), h0, ⟨0, 0⟩, decides_of (by decide +kernel)⟩

theorem met_CellTransitions_5 : ∃ (s : State) (x : Held) (h : Hdr) (c r : Nat), Decides s x (.cellRateSet h c r) ∧
    (cellAt (reached s x) c).st = .running :=
  ⟨{ b0 with cells := [(0, { st := .running, ratio := 2 ^ 40, arm := some ⟨0, 1, 0, 0, 0, [], []⟩, mRef := 10 ^ 6, n := 1 })], held := [hd (.cellRateSet h0 0 (2 ^ 39))] },
    hd (.cellRateSet h0 0 (2 ^ 39)), h0, 0, (2 ^ 39), decides_of (by decide +kernel), by decide +kernel⟩

theorem met_CellTransitions_6 : ∃ (s : State) (x : Held) (h : Hdr) (c b n jb jn f k : Nat) (i : ArmInfo), Decides s x (.cellArm h c b n jb jn f) ∧
    (cellAt (reached s x) c).st = .bound ∧ (cellAt (reached s x) c).arms.find? (fun p => p.1 = x.serial) = some (k, i) :=
  ⟨{ b0 with cells := [(0, { st := .bound, arms := [(0, ⟨0, 1, 0, 0, 0, [], []⟩)] })], held := [hd (.cellArm h0 0 0 1 0 0 0)] },
    hd (.cellArm h0 0 0 1 0 0 0), h0, 0, 0, 1, 0, 0, 0, 0, ⟨0, 1, 0, 0, 0, [], []⟩, decides_of (by decide +kernel), by decide +kernel⟩

/-! ### CellSettings -/

theorem met_CellSettings_1 : ∃ (s : State) (x : Held) (h : Hdr) (c d r : Nat) (g : Sel) (b : Nat) (p : Int) (sl : Nat),
    Decides s x (.cellBind h c d r g b p sl) ∧ atRest (reached s x) c = true ∧ g.kind ≠ 1 :=
  ⟨{ b0 with held := [hd (.cellBind h0 1023 0 (2 ^ 40) ⟨0, 255⟩ 0 (-32768) 0)] }, hd (.cellBind h0 1023 0 (2 ^ 40) ⟨0, 255⟩ 0 (-32768) 0), h0, 1023,
    0, (2 ^ 40), ⟨0, 255⟩, 0, (-32768), 0, decides_of (by decide +kernel), by decide +kernel⟩

theorem met_CellSettings_2 : ∃ (s : State) (x : Held) (h : Hdr) (c d r a b : Nat) (p : Int) (sl : Nat), Decides s x (.cellBind h c d r ⟨1,
    a⟩ b p sl) ∧ atRest (reached s x) c = true :=
  ⟨{ b0 with held := [hd (.cellBind h0 1 0 (2 ^ 40) ⟨1, 63⟩ 0 0 0)] }, hd (.cellBind h0 1 0 (2 ^ 40) ⟨1, 63⟩ 0 0 0), h0, 1, 0, (2 ^ 40), 63, 0, 0, 0,
    decides_of (by decide +kernel), by decide +kernel⟩

theorem met_CellSettings_3 : ∃ (s : State) (x : Held) (h : Hdr) (c : Nat), Decides s x (.cellUnbind h c) ∧ (cellAt (reached s x) c).st = .bound :=
  ⟨{ b0 with cells := [(1023, { st := .bound })], held := [hd (.cellUnbind h0 1023)] }, hd (.cellUnbind h0 1023), h0, 1023,
    decides_of (by decide +kernel), by decide +kernel⟩

theorem met_CellSettings_4 : ∃ (s : State) (x : Held) (h : Hdr) (c : Nat), Decides s x (.cellUnbind h c) ∧ (cellAt (reached s x) c).st ≠ .bound :=
  ⟨{ b0 with held := [hd (.cellUnbind h0 0)] }, hd (.cellUnbind h0 0), h0, 0, decides_of (by decide +kernel), by decide +kernel⟩

theorem met_CellSettings_5 : ∃ (s : State) (x : Held) (h : Hdr) (c : Nat), Decides s x (.cellReset h c) :=
  ⟨{ b0 with held := [hd (.cellReset h0 1023)] }, hd (.cellReset h0 1023), h0, 1023, decides_of (by decide +kernel)⟩

theorem met_CellSettings_6 : ∃ (s : State) (x : Held) (h : Hdr) (g : Nat) (l : List Nat), Decides s x (.groupSet h g l) ∧
    ((l ++ if g = 63 then [] else selCells (reached s x) ⟨1, g⟩).all (atRest (reached s x))) = true ∧
    (l.any fun c => (cellAt (reached s x) c).slip) = false :=
  ⟨{ b0 with held := [hd (.groupSet h0 62 [0, 1023])] }, hd (.groupSet h0 62 [0, 1023]), h0, 62, [0, 1023], decides_of (by decide +kernel),
    by decide +kernel⟩

theorem met_CellSettings_7 : ∃ (s : State) (x : Held) (h : Hdr) (g : Nat) (l : List Nat), Decides s x (.groupSet h g l) ∧
    (((l ++ if g = 63 then [] else selCells (reached s x) ⟨1, g⟩).all (atRest (reached s x))) = false ∨
    (l.any fun c => (cellAt (reached s x) c).slip) = true) :=
  ⟨{ b0 with cells := [(0, { st := .bound, slip := true })], held := [hd (.groupSet h0 3 [0, 5])] }, hd (.groupSet h0 3 [0, 5]), h0, 3, [0, 5],
    decides_of (by decide +kernel), by decide +kernel⟩

theorem met_CellSettings_8 : ∃ (s : State) (x : Held) (h : Hdr) (c : Nat) (m : DWord), Decides s x (.cellClear h c m) :=
  ⟨{ b0 with held := [hd (.cellClear h0 0 0x1F000006FF)] }, hd (.cellClear h0 0 0x1F000006FF), h0, 0, 0x1F000006FF, decides_of (by decide +kernel)⟩

theorem met_CellSettings_9 : ∃ (s : State) (x : Held) (h : Hdr) (c f e a : Nat) (g o : Int), Decides s x (.synConfig h c f e a g o) ∧
    atRest (reached s x) c = true :=
  ⟨{ b0 with held := [hd (.synConfig h0 0 3 0 0 0x10000000 0)] }, hd (.synConfig h0 0 3 0 0 0x10000000 0), h0, 0, 3, 0, 0, 0x10000000, 0,
    decides_of (by decide +kernel), by decide +kernel⟩

theorem met_CellSettings_10 : ∃ (s : State) (x : Held) (h : Hdr) (u : Sel) (g o : Int), Decides s x (.synGainSet h u g o) :=
  ⟨{ b0 with held := [hd (.synGainSet h0 ⟨0, 0⟩ (-0x40000000) 1)] }, hd (.synGainSet h0 ⟨0, 0⟩ (-0x40000000) 1), h0, ⟨0, 0⟩, (-0x40000000), 1,
    decides_of (by decide +kernel)⟩

theorem met_CellSettings_11 : ∃ (s : State) (x : Held) (h : Hdr) (c : Nat) (g o : Int), Decides s x (.synCalApply h c g o) ∧
    (cellAt (reached s x) c).st ≠ .off :=
  ⟨{ b0 with cells := [(0, { st := .bound })], held := [hd (.synCalApply h0 0 0x10000000 0)] }, hd (.synCalApply h0 0 0x10000000 0), h0, 0,
    0x10000000, 0, decides_of (by decide +kernel), by decide +kernel⟩

theorem met_CellSettings_12 : ∃ (s : State) (x : Held) (h : Hdr) (c : Nat) (m : DWord), Decides s x (.synClear h c m) :=
  ⟨{ b0 with held := [hd (.synClear h0 0 3)] }, hd (.synClear h0 0 3), h0, 0, 3, decides_of (by decide +kernel)⟩

theorem met_CellSettings_13 : ∃ (s : State) (x : Held) (h : Hdr) (i e : Nat) (w : Word), Decides s x (.formatSet h i e w) ∧
    formatUsed s i e = false :=
  ⟨{ b0 with held := [hd (.formatSet h0 15 15 1)] }, hd (.formatSet h0 15 15 1), h0, 15, 15, 1, decides_of (by decide +kernel), by decide +kernel⟩

theorem met_CellSettings_14 : ∃ (s : State) (x : Held) (h : Hdr) (p : Nat), Decides s x (.synCoefRead h p) :=
  ⟨{ b0 with held := [hd (.synCoefRead h0 63)] }, hd (.synCoefRead h0 63), h0, 63, decides_of (by decide +kernel)⟩

theorem met_CellSettings_15 : ∃ (s : State) (x : Held) (h : Hdr) (v b n : Nat), Decides s x (.curveAreaSet h v b n) ∧ curvesBusy s v = false :=
  ⟨{ b0 with held := [hd (.curveAreaSet h0 63 0 1)] }, hd (.curveAreaSet h0 63 0 1), h0, 63, 0, 1, decides_of (by decide +kernel), by decide +kernel⟩

/-! ### ModeChanges -/

theorem met_ModeChanges_1 : ∃ (s : State) (x : Held) (h : Hdr) (m p st k e : Nat) (tx : DWord), Decides s x (.modeSet h m p st k e tx) ∧ x.mb < 4 ∧
    transition s.md.mode m = false :=
  ⟨{ b0 with md.mode := .idle, held := [hd (.modeSet h0 0 0 0 0 0 0)] }, hd (.modeSet h0 0 0 0 0 0 0), h0, 0, 0, 0, 0, 0, 0,
    decides_of (by decide +kernel), by decide +kernel⟩

theorem met_ModeChanges_2 : ∃ (s : State) (x : Held) (h : Hdr) (m p st k e : Nat) (tx : DWord) (r : Err), Decides s x (.modeSet h m p st k e tx) ∧
    modeCondition (reached s x) m k e = some r ∧ x.mb < 4 ∧ transition s.md.mode m = true :=
  ⟨{ b0 with md.mode := .idle, held := [hd (.modeSet h0 5 2 0 0 0 0)] }, hd (.modeSet h0 5 2 0 0 0 0), h0, 5, 2, 0, 0, 0, 0, .badArg,
    decides_of (by decide +kernel), rfl, by decide +kernel⟩

theorem met_ModeChanges_3 : ∃ (s : State) (x : Held) (h : Hdr) (p st k e : Nat) (tx : DWord), Decides s x (.modeSet h 1 p st k e tx) ∧ x.mb < 4 ∧
    s.md.mode = .bringUp ∧ s.kpr.ready = true ∧ s.time.ready = true ∧ s.md.safeHeld = false :=
  ⟨{ b0 with md.mode := .bringUp, held := [hd (.modeSet h0 1 0 0 0 0 0)] }, hd (.modeSet h0 1 0 0 0 0 0), h0, 0, 0, 0, 0, 0,
    decides_of (by decide +kernel), by decide +kernel⟩

theorem met_ModeChanges_4 : ∃ (s : State) (x : Held) (h : Hdr) (p st k e : Nat) (tx : DWord), Decides s x (.modeSet h 7 p st k e tx) ∧ x.mb < 4 ∧
    s.md.mode = .bringUp ∧ lcOpen s = true ∧ s.md.safeHeld = false :=
  ⟨{ b0 with md.mode := .bringUp, dev.lifecycle := 0, held := [hd (.modeSet h0 7 0 0 0 0 0)] }, hd (.modeSet h0 7 0 0 0 0 0), h0, 0, 0, 0, 0, 0,
    decides_of (by decide +kernel), by decide +kernel⟩

theorem met_ModeChanges_5 : ∃ (s : State) (x : Held) (h : Hdr) (p st k e : Nat) (tx : DWord), Decides s x (.modeSet h 6 p st k e tx) ∧ x.mb < 4 ∧
    s.md.mode = .bringUp :=
  ⟨{ b0 with md.mode := .bringUp, held := [hd (.modeSet h0 6 0 0 0 0 0)] }, hd (.modeSet h0 6 0 0 0 0 0), h0, 0, 0, 0, 0, 0,
    decides_of (by decide +kernel), by decide +kernel⟩

theorem met_ModeChanges_6 : ∃ (s : State) (x : Held) (h : Hdr) (p st k e : Nat) (tx : DWord), Decides s x (.modeSet h 2 p st k e tx) ∧ x.mb < 4 ∧
    s.md.mode = .idle :=
  ⟨{ b0 with md.mode := .idle, held := [hd (.modeSet h0 2 0 0 0 0 0)] }, hd (.modeSet h0 2 0 0 0 0 0), h0, 0, 0, 0, 0, 0,
    decides_of (by decide +kernel), by decide +kernel⟩

theorem met_ModeChanges_7 : ∃ (s : State) (x : Held) (h : Hdr) (p st k e : Nat) (tx : DWord), Decides s x (.modeSet h 1 p st k e tx) ∧ x.mb < 4 ∧
    s.md.mode = .run :=
  ⟨{ b0 with md.mode := .run, held := [hd (.modeSet h0 1 0 0 0 0 0)] }, hd (.modeSet h0 1 0 0 0 0 0), h0, 0, 0, 0, 0, 0,
    decides_of (by decide +kernel), by decide +kernel⟩

theorem met_ModeChanges_8 : ∃ (s : State) (x : Held) (h : Hdr) (p st k e : Nat) (tx : DWord), Decides s x (.modeSet h 1 p st k e tx) ∧ x.mb < 4 ∧
    s.md.mode = .safe ∧ class2Held (reached s x) = false ∧ s.md.resetOnly = false :=
  ⟨{ b0 with md.mode := .safe, held := [hd (.modeSet h0 1 0 0 0 0 0)] }, hd (.modeSet h0 1 0 0 0 0 0), h0, 0, 0, 0, 0, 0,
    decides_of (by decide +kernel), by decide +kernel⟩

theorem met_ModeChanges_9 : ∃ (s : State) (x : Held) (h : Hdr) (p st k e : Nat) (tx : DWord), Decides s x (.modeSet h 6 p st k e tx) ∧ x.mb < 4 ∧
    s.md.mode = .safe :=
  ⟨{ b0 with md.mode := .safe, held := [hd (.modeSet h0 6 0 0 0 0 0)] }, hd (.modeSet h0 6 0 0 0 0 0), h0, 0, 0, 0, 0, 0,
    decides_of (by decide +kernel), by decide +kernel⟩

/-! ### ModeEntries -/

theorem met_ModeEntries_1 : ∃ (s : State) (x : Held) (h : Hdr) (p st k e : Nat) (tx : DWord), Decides s x (.modeSet h 6 p st k e tx) ∧ x.mb < 4 ∧
    (s.md.mode = .idle ∨ s.md.mode = .run ∨ s.md.mode = .factory) :=
  ⟨{ b0 with md.mode := .factory, held := [hd (.modeSet h0 6 0 0 0 0 0)] }, hd (.modeSet h0 6 0 0 0 0 0), h0, 0, 0, 0, 0, 0,
    decides_of (by decide +kernel), by decide +kernel⟩

theorem met_ModeEntries_2 : ∃ (s : State) (x : Held) (h : Hdr) (p st k e : Nat) (tx : DWord), Decides s x (.modeSet h 5 p st k e tx) ∧ x.mb < 4 ∧
    s.md.mode = .idle ∧ modeCondition (reached s x) 5 k e = none :=
  ⟨{ b0 with md.mode := .idle, sec.wakeEvp := 1, held := [hd (.modeSet h0 5 2 0 0 0 0)] }, hd (.modeSet h0 5 2 0 0 0 0), h0, 2, 0, 0, 0, 0,
    decides_of (by decide +kernel), by decide +kernel⟩

theorem met_ModeEntries_3 : ∃ (s : State) (x : Held) (h : Hdr) (p st k e : Nat) (tx : DWord), Decides s x (.modeSet h 1 p st k e tx) ∧ x.mb < 4 ∧
    s.md.mode = .standby ∧ s.sec.entering = false ∧ s.sec.waking = false :=
  ⟨{ b0 with md.mode := .standby, held := [hd (.modeSet h0 1 0 0 0 0 0)] }, hd (.modeSet h0 1 0 0 0 0 0), h0, 0, 0, 0, 0, 0,
    decides_of (by decide +kernel), by decide +kernel⟩

theorem met_ModeEntries_4 : ∃ (s : State) (x : Held) (h : Hdr) (p st k e : Nat) (tx : DWord), Decides s x (.modeSet h 6 p st k e tx) ∧ x.mb < 4 ∧
    s.md.mode = .standby ∧ s.sec.entering = false ∧ s.sec.waking = false :=
  ⟨{ b0 with md.mode := .standby, held := [hd (.modeSet h0 6 0 0 0 0 0)] }, hd (.modeSet h0 6 0 0 0 0 0), h0, 0, 0, 0, 0, 0,
    decides_of (by decide +kernel), by decide +kernel⟩

theorem met_ModeEntries_5 : ∃ (s : State) (x : Held) (h : Hdr) (p st k e : Nat) (tx : DWord), Decides s x (.modeSet h 3 p st k e tx) ∧ x.mb < 4 ∧
    s.md.mode = .idle ∧ modeCondition (reached s x) 3 k e = none :=
  ⟨{ b0 with md.mode := .idle, jnl := jn 0, dmcs := [(0, dm)], held := [hd (.modeSet h0 3 0 0 999000 999000 0)] },
    hd (.modeSet h0 3 0 0 999000 999000 0), h0, 0, 0, 999000, 999000, 0, decides_of (by decide +kernel), by decide +kernel⟩

theorem met_ModeEntries_6 : ∃ (s : State) (x : Held) (h : Hdr) (p st k e : Nat) (tx : DWord), Decides s x (.modeSet h 1 p st k e tx) ∧ x.mb < 4 ∧
    s.md.mode = .replay :=
  ⟨{ b0 with md.mode := .replay, held := [hd (.modeSet h0 1 0 0 0 0 0)] }, hd (.modeSet h0 1 0 0 0 0 0), h0, 0, 0, 0, 0, 0,
    decides_of (by decide +kernel), by decide +kernel⟩

theorem met_ModeEntries_7 : ∃ (s : State) (x : Held) (h : Hdr), Decides s x (.warmReset h) ∧ x.mb < 4 ∧ warmBlocked (reached s x) = true :=
  ⟨{ b0 with grave.held := true, held := [hd (.warmReset h0)] }, hd (.warmReset h0), h0, decides_of (by decide +kernel), by decide +kernel⟩

theorem met_ModeEntries_8 : ∃ (s : State) (x : Held) (h : Hdr), Decides s x (.warmReset h) ∧ x.mb < 4 ∧ warmBlocked (reached s x) = false :=
  ⟨{ b0 with held := [hd (.warmReset h0)] }, hd (.warmReset h0), h0, decides_of (by decide +kernel), by decide +kernel⟩

/-! ### QueueDecisions -/

theorem met_QueueDecisions_1 : ∃ (s : State) (x : Held) (h : Hdr) (c q rb sl m tl bb bc : Nat), Decides s x (.queueOpen h c q rb sl m tl bb bc) ∧
    (queueAt s (queueNum c q)).st = .closed ∧ firstHeldGranule s (combAddr (hiveOf c) 0 bb) (4096 * bc) = none :=
  ⟨{ b0 with held := [hd (.queueOpen h0 0 0 0 4 0 0 0 1)] }, hd (.queueOpen h0 0 0 0 4 0 0 0 1), h0, 0, 0, 0, 4, 0, 0, 0, 1,
    decides_of (by decide +kernel), by decide +kernel⟩

theorem met_QueueDecisions_2 : ∃ (s : State) (x : Held) (h : Hdr) (c q : Nat), Decides s x (.queueStatus h c q) :=
  ⟨{ b0 with held := [hd (.queueStatus h0 0 0)] }, hd (.queueStatus h0 0 0), h0, 0, 0, decides_of (by decide +kernel)⟩

theorem met_QueueDecisions_3 : ∃ (s : State) (x : Held) (h : Hdr) (c q : Nat), Decides s x (.queueClose h c q) ∧
    qLive (queueAt s (queueNum c q)) = true :=
  ⟨{ b0 with queues := [(0, { st := .streaming, sizeLog2 := 4, live := 1 })], held := [hd (.queueClose h0 0 0)] }, hd (.queueClose h0 0 0), h0, 0, 0,
    decides_of (by decide +kernel), by decide +kernel⟩

theorem met_QueueDecisions_4 : ∃ (s : State) (x : Held) (h : Hdr) (c q : Nat), let u := ctxTouch (queueNum c q) (released s x);
    Decides s x (.queueClose h c q) ∧ qLive (queueAt s (queueNum c q)) = false ∧ (queueAt u (queueNum c q)).st = .closed :=
  ⟨{ b0 with held := [hd (.queueClose h0 0 0)] }, hd (.queueClose h0 0 0), h0, 0, 0, decides_of (by decide +kernel), by decide +kernel⟩

theorem met_QueueDecisions_5 : ∃ (s : State) (x : Held) (h : Hdr) (c q : Nat), let u := ctxTouch (queueNum c q) (released s x);
    Decides s x (.queueClose h c q) ∧ ((∀ y ∈ s.works, ∀ g a b, queueNum a b = queueNum c q → y.cmd ≠ .queueClose g a b ∧
    y.cmd ≠ .queueFlush g a b)) ∧ qLive (queueAt s (queueNum c q)) = false ∧ (queueAt u (queueNum c q)).st ≠ .closed ∧
    qInflight (queueAt s (queueNum c q)) = 0 :=
  ⟨{ b0 with queues := [(0, { st := .opened, sizeLog2 := 4 })], held := [hd (.queueClose h0 0 0)] }, hd (.queueClose h0 0 0), h0, 0, 0,
    decides_of (by decide +kernel), (by intro y hy; cases hy), by decide +kernel⟩

theorem met_QueueDecisions_6 : ∃ (s : State) (x : Held) (h : Hdr) (c q : Nat), let u := ctxTouch (queueNum c q) (released s x);
    Decides s x (.queueClose h c q) ∧ qLive (queueAt s (queueNum c q)) = false ∧ (queueAt u (queueNum c q)).st ≠ .closed ∧
    0 < qInflight (queueAt s (queueNum c q)) :=
  ⟨{ b0 with queues := [(0, { st := .opened, bufCount := 2, blocks := [⟨0, 64, 0, 0, 0, none, false, true, false, false, []⟩] })], held := [hd (.queueClose h0 0 0)] },
    hd (.queueClose h0 0 0), h0, 0, 0, decides_of (by decide +kernel), by decide +kernel⟩

theorem met_QueueDecisions_7 : ∃ (s : State) (x : Held) (h : Hdr) (c q : Nat), Decides s x (.queueFlush h c q) ∧
    qLive (queueAt s (queueNum c q)) = true :=
  ⟨{ b0 with queues := [(0, { st := .streaming, sizeLog2 := 4, live := 1 })], held := [hd (.queueFlush h0 0 0)] }, hd (.queueFlush h0 0 0), h0, 0, 0,
    decides_of (by decide +kernel), by decide +kernel⟩

theorem met_QueueDecisions_8 : ∃ (s : State) (x : Held) (h : Hdr) (c q : Nat), let u := ctxTouch (queueNum c q) (released s x);
    Decides s x (.queueFlush h c q) ∧ ((∀ y ∈ s.works, ∀ g a b, queueNum a b = queueNum c q → y.cmd ≠ .queueClose g a b ∧
    y.cmd ≠ .queueFlush g a b)) ∧ qLive (queueAt s (queueNum c q)) = false ∧ ((queueAt u (queueNum c q)).st = .opened ∨
    (queueAt u (queueNum c q)).st = .failed) ∧ qInflight (queueAt s (queueNum c q)) = 0 :=
  ⟨{ b0 with queues := [(0, { st := .opened, sizeLog2 := 4 })], held := [hd (.queueFlush h0 0 0)] }, hd (.queueFlush h0 0 0), h0, 0, 0,
    decides_of (by decide +kernel), (by intro y hy; cases hy), by decide +kernel⟩

/-! ### QueueEvents -/

theorem met_QueueEvents_1 : ∃ (s : State) (k off : Nat), Live s ∧ k < 16 ∧ s.doorbells.length < 512 ∧ off % 8 = 0 :=
  ⟨b0, 15, 0xFF8, live_of (by decide +kernel), by decide +kernel⟩

theorem met_QueueEvents_2 : ∃ (s : State) (k : Nat), Live s ∧ k < 16 ∧ 512 ≤ s.doorbells.length ∧ (fltAt s .pqm).mask.getLsbD 1 = false :=
  ⟨{ b0 with doorbells := List.replicate 512 ⟨0, 64, 0, []⟩ }, 15, live_of (by decide +kernel), by decide +kernel⟩

theorem met_QueueEvents_3 : ∃ (s : State) (d : Doorbell) (r : List Doorbell), Live s ∧ s.doorbells = d :: r ∧
    (s.bulk.ops.any fun o => d.after.contains o.id) = true :=
  ⟨{ b0 with bulk := ⟨8, [⟨7, false, 0, 0, 8, [1, 2, 3, 4, 5, 6, 7, 8]⟩]⟩, doorbells := [⟨0, 64, 0, [7]⟩] }, ⟨0, 64, 0, [7]⟩, [],
    live_of (by decide +kernel), by decide +kernel⟩

theorem met_QueueEvents_4 : ∃ (s : State) (d : Doorbell) (r : List Doorbell), let i := bits d.value.toNat 0 20;
    let u := if i / 1024 < nCells s then ctxTouch i { s with doorbells := r } else { s with doorbells := r }; Live s ∧ s.doorbells = d :: r ∧
    (s.bulk.ops.any fun o => d.after.contains o.id) = false ∧ doorbellBad u d = true :=
  ⟨{ b0 with doorbells := [⟨0, 64, 0, [7]⟩] }, ⟨0, 64, 0, [7]⟩, [], live_of (by decide +kernel), by decide +kernel⟩

theorem met_QueueEvents_5 : ∃ (s : State) (d : Doorbell) (r : List Doorbell), let i := bits d.value.toNat 0 20;
    let u := ctxTouch i { s with doorbells := r }; Live s ∧ s.doorbells = d :: r ∧ (s.bulk.ops.any fun o => d.after.contains o.id) = false ∧
    i / 1024 < nCells s ∧ doorbellBad u d = false :=
  ⟨{ b0 with doorbells := [⟨0, 64, 0x100000, []⟩], queues := [(0, { st := .opened, sizeLog2 := 4 })] }, ⟨0, 64, 0x100000, []⟩, [],
    live_of (by decide +kernel), by decide +kernel⟩

theorem met_QueueEvents_6 : ∃ (s : State) (h : Nat), Live s ∧ h < nHives s ∧ (hiveAt (placeWaiting s) h).credits = 0 :=
  ⟨{ b0 with hives := [(0, { playReady := true, catchReady := true, power := 0, credits := 0 })] }, 0, live_of (by decide +kernel), by decide +kernel⟩

theorem met_QueueEvents_7 : ∃ (s : State) (h i : Nat), Live s ∧ pickRefill s h = some i ∧ h < nHives s ∧ placeWaiting s = s ∧
    (hiveAt s h).credits ≠ 0 ∧ hiveOf (i / 1024) = h ∧ dramQuiet s ((queueAt s i).ringBase + 32 * (queueAt s i).head) 32 = true ∧
    descFails s i = none ∧ (nextBlock s (queueAt s i)).1 + (nextBlock s (queueAt s i)).2.1 > (queueAt s i).pos * fmtBytes (queueAt s i).fmt ∧
    refillable (queueAt s i) = true :=
  ⟨{ b0 with queues := [(0, { st := .streaming, sizeLog2 := 4, tail := 1, bufCount := 1 })], dmcs := [(0, dm)], dram := [(9, 16)] }, 0, 0,
    live_of (by decide +kernel), rfl, by decide +kernel⟩

theorem met_QueueEvents_8 : ∃ (s : State) (c q b : Nat), Live s ∧ c < nCells s ∧ q < 1024 ∧
    (queueAt s (queueNum c q)).blocks.find? (fun k => k.buf = b && k.resident.isNone && k.read) = none :=
  ⟨b0, 1023, 1023, 0, live_of (by decide +kernel), by decide +kernel⟩

theorem met_QueueEvents_9 : ∃ (s : State) (c q u : Nat) (b : Blk),
    let ca := combAddr (hiveOf c) 0 (((queueAt s (queueNum c q)).bufBase + b.buf) * 4096); Live s ∧
    (queueAt s (queueNum c q)).blocks.find? (fun k => k.buf = u && k.resident.isNone && k.read) = some b ∧ c < nCells s ∧ q < 1024 ∧
    b.discard = false ∧ ((wordsOf ca b.len).any fun w => granuleBad s (w / 32)) = false :=
  ⟨{ b0 with queues := [(0, { st := .streaming, blocks := [⟨0, 64, 0, 3, 0, none, false, true, true, false, [(0, 7)]⟩] })] }, 0, 0, 3, ⟨0, 64, 0, 3,
    0, none, false, true, true, false, [(0, 7)]⟩, live_of (by decide +kernel), rfl, by decide +kernel⟩

theorem met_QueueEvents_10 : ∃ (s : State) (c q u : Nat) (b : Blk), Live s ∧
    (queueAt s (queueNum c q)).blocks.find? (fun k => k.buf = u && k.resident.isNone && k.read) = some b ∧ c < nCells s ∧ q < 1024 ∧
    b.discard = true :=
  ⟨{ b0 with queues := [(0, { st := .streaming, blocks := [⟨0, 64, 0, 3, 0, none, true, true, true, false, []⟩] })] }, 0, 0, 3, ⟨0, 64, 0, 3, 0, none,
    true, true, true, false, []⟩, live_of (by decide +kernel), rfl, by decide +kernel⟩

/-! ### CaptureDecisions -/

theorem met_CaptureDecisions_1 : ∃ (s : State) (x : Held) (h : Hdr) (c d k sl rb rl m : Nat), Decides s x (.capBind h c d k sl rb rl m) ∧
    ((capAt s c).st = .off ∨ (capAt s c).st = .bound) :=
  ⟨{ b0 with held := [hd (.capBind h0 1023 0 3 0 0 12 0)] }, hd (.capBind h0 1023 0 3 0 0 12 0), h0, 1023, 0, 3, 0, 0, 12, 0,
    decides_of (by decide +kernel), by decide +kernel⟩

theorem met_CaptureDecisions_2 : ∃ (s : State) (x : Held) (h : Hdr) (c d k sl rb rl m : Nat), Decides s x (.capBind h c d k sl rb rl m) ∧
    (capAt s c).st ≠ .off ∧ (capAt s c).st ≠ .bound :=
  ⟨{ b0 with caps := [(0, { st := .armed, mA := 2000000 })], held := [hd (.capBind h0 0 0 0 0 0 0 0)] }, hd (.capBind h0 0 0 0 0 0 0 0), h0, 0, 0, 0,
    0, 0, 0, 0, decides_of (by decide +kernel), by decide +kernel⟩

theorem met_CaptureDecisions_3 : ∃ (s : State) (x : Held) (h : Hdr) (c : Nat) (a : CapArmArgs), Decides s x (.capArm h c a) ∧
    (capAt s c).st = .bound ∧ (pendOf (capAt s c) x.serial).any (·.fill) = false :=
  ⟨{ b0 with caps := [(0, { st := .bound, arms := [⟨3, [(8, 1)], false⟩] })], held := [{ hd (.capArm h0 0 ⟨0, 8, 0, 1, 0, 1, 0, 1, 0, 0, 0⟩) with serial := 3 }] },
    { hd (.capArm h0 0 ⟨0, 8, 0, 1, 0, 1, 0, 1, 0, 0, 0⟩) with serial := 3 }, h0, 0, ⟨0, 8, 0, 1, 0, 1, 0, 1, 0, 0, 0⟩,
    decides_of (by decide +kernel), by decide +kernel⟩

theorem met_CaptureDecisions_4 : ∃ (s : State) (x : Held) (h : Hdr) (c : Nat) (a : CapArmArgs), Decides s x (.capArm h c a) ∧
    (capAt s c).st = .bound ∧ (pendOf (capAt s c) x.serial).any (·.fill) = true ∧
    ((wordsOf (combAddr (hiveOf c) 1 a.accBase) (8 * a.l)).any fun w => granuleBad s (w / 32)) = false :=
  ⟨{ b0 with caps := [(0, { st := .bound, arms := [⟨3, [(8, 1)], true⟩] })], held := [{ hd (.capArm h0 0 ⟨0, 8, 0, 1, 0, 1, 0, 1, 0, 1, 0⟩) with serial := 3 }] },
    { hd (.capArm h0 0 ⟨0, 8, 0, 1, 0, 1, 0, 1, 0, 1, 0⟩) with serial := 3 }, h0, 0, ⟨0, 8, 0, 1, 0, 1, 0, 1, 0, 1, 0⟩,
    decides_of (by decide +kernel), by decide +kernel⟩

theorem met_CaptureDecisions_5 : ∃ (s : State) (x : Held) (h : Hdr) (u : Sel), Decides s x (.capDisarm h u) :=
  ⟨{ b0 with held := [hd (.capDisarm h0 ⟨0, 1023⟩)] }, hd (.capDisarm h0 ⟨0, 1023⟩), h0, ⟨0, 1023⟩, decides_of (by decide +kernel)⟩

theorem met_CaptureDecisions_6 : ∃ (s : State) (x : Held) (h : Hdr) (c n : Nat), Decides s x (.capTrigger h c) ∧
    capSampleAt (domAt s (capAt s c).domain) (capAt s c) (x.dec - s.time.horizon) = some n ∧ wagActs s c = true ∧
    eventsAt s (0x2000 + 2 * c) x.dec = [] ∧ (capAt s c).st = .armed ∧ stateAt (capAt s c) n = .armed ∧
    (capAt s c).n ≤ (if (capAt s c).mode = 1 then n + (capAt s c).delay + (capAt s c).l - 1 else n + (capAt s c).postLen - 1) :=
  ⟨{ b0 with caps := [(0, { st := .armed, states := [(0, .armed)], mA := 999952, n := 48, postLen := 49 })], held := [hd (.capTrigger h0 0)] },
    hd (.capTrigger h0 0), h0, 0, 0, decides_of (by decide +kernel), rfl, by decide +kernel⟩

theorem met_CaptureDecisions_7 : ∃ (s : State) (x : Held) (h : Hdr) (c : Nat), Decides s x (.capTrigger h c) ∧ wagActs s c = true ∧
    ((capAt s c).st = .off ∨ (capAt s c).st = .bound) :=
  ⟨{ b0 with held := [hd (.capTrigger h0 1023)] }, hd (.capTrigger h0 1023), h0, 1023, decides_of (by decide +kernel), by decide +kernel⟩

theorem met_CaptureDecisions_8 : ∃ (s : State) (x : Held) (h : Hdr) (c r : Nat), Decides s x (.capRelease h c r) ∧
    newRd (capAt s c) r ≤ (capAt s c).wr :=
  ⟨{ b0 with caps := [(0, { st := .bound, recLog2 := 12, wr := 64 })], held := [hd (.capRelease h0 0 64)] }, hd (.capRelease h0 0 64), h0, 0, 64,
    decides_of (by decide +kernel), by decide +kernel⟩

theorem met_CaptureDecisions_9 : ∃ (s : State) (x : Held) (h : Hdr) (c e : Nat) (th : Int) (hy ed : Nat), Decides s x (.capTrigSet h c e th hy ed) ∧
    (capAt s c).st ≠ .off :=
  ⟨{ b0 with caps := [(0, { st := .bound })], held := [hd (.capTrigSet h0 0 1 5 0 1)] }, hd (.capTrigSet h0 0 1 5 0 1), h0, 0, 1, 5, 0, 1,
    decides_of (by decide +kernel), by decide +kernel⟩

theorem met_CaptureDecisions_10 : ∃ (s : State) (x : Held) (h : Hdr) (c : Nat), Decides s x (.capUnbind h c) ∧ (capAt s c).st = .bound :=
  ⟨{ b0 with caps := [(0, { st := .bound })], held := [hd (.capUnbind h0 0)] }, hd (.capUnbind h0 0), h0, 0, decides_of (by decide +kernel),
    by decide +kernel⟩

theorem met_CaptureDecisions_11 : ∃ (s : State) (x : Held) (h : Hdr) (c : Nat) (m : DWord), Decides s x (.capClear h c m) :=
  ⟨{ b0 with held := [hd (.capClear h0 0 3)] }, hd (.capClear h0 0 3), h0, 0, 3, decides_of (by decide +kernel)⟩

/-! ### CaptureEvents -/

theorem met_CaptureEvents_1 : ∃ (s : State) (x : Held) (h : Hdr) (c : Nat) (a : CapArmArgs) (v w : List Held), Live s ∧ x.cmd = .capArm h c a ∧
    ((∀ y ∈ v, ∀ g b, y.cmd = .capArm g c b → (pendOf (capAt s c) y.serial).any (·.fill) = false)) ∧ c < nCells s ∧ s.held = v ++ x :: w ∧ x.mb ≤ 4 ∧
    (pendOf (capAt s c) x.serial).any (·.fill) = true ∧
    ((wordsOf (combAddr (hiveOf c) 1 a.accBase) (8 * a.l)).any fun w => granuleBad s (w / 32)) = false :=
  ⟨{ b0 with caps := [(1023, { st := .bound, arms := [⟨3, [(8, 1)], true⟩] })], held := [{ hd (.capArm h0 1023 ⟨0, 8, 0, 1, 0, 1, 0, 1, 0, 1, 0⟩) with serial := 3 }] },
    { hd (.capArm h0 1023 ⟨0, 8, 0, 1, 0, 1, 0, 1, 0, 1, 0⟩) with serial := 3 }, h0, 1023, ⟨0, 8, 0, 1, 0, 1, 0, 1, 0, 1, 0⟩, [], [],
    live_of (by decide +kernel), rfl, (by intro y hy; cases hy), by decide +kernel⟩

theorem met_CaptureEvents_2 : ∃ (s : State) (c : Nat), Live s ∧ c < nCells s ∧ (capAt s c).st = .armed ∧ (capAt s c).trigEn = false ∧
    (capAt s c).mode = 0 ∧ wagActs s c = true ∧
    capEdge (capAt s c) (capAt s c).n * (domAt s (capAt s c).domain).den * (domAt s (capAt s c).domain).div ≤ s.time.tick * (domAt s (capAt s c).domain).num ∧
    capDecisionBefore s c (capEdge (capAt s c) (capAt s c).n) = false ∧
    ((wordsOf (ringAddr s c (capAt s c) (capAt s c).n) (capBps s (capAt s c))).any fun w => granuleBad s (w / 32)) = false :=
  ⟨{ b0 with caps := [(0, { st := .armed })] }, 0, live_of (by decide +kernel), by decide +kernel⟩

theorem met_CaptureEvents_3 : ∃ (s : State) (c : Nat), Live s ∧ c < nCells s ∧ (capAt s c).st ≠ .off ∧ (capAt s c).st ≠ .bound ∧
    ringWritten s c = false ∧ capEdge (capAt s c) (capAt s c).n * (domAt s (capAt s c).domain).den * (domAt s (capAt s c).domain).div ≤ s.time.tick * (domAt s (capAt s c).domain).num ∧
    capDecisionBefore s c (capEdge (capAt s c) (capAt s c).n) = false :=
  ⟨{ b0 with caps := [(0, { st := .draining })] }, 0, live_of (by decide +kernel), by decide +kernel⟩

theorem met_CaptureEvents_4 : ∃ (s : State) (c r n : Nat), Live s ∧ (capAt s c).tR = some r ∧
    capSampleAt (domAt s (capAt s c).domain) (capAt s c) r = some n ∧ c < nCells s ∧ (capAt s c).st = .rearm ∧ (capAt s c).rearm = 1 ∧
    r ≤ s.time.tick :=
  ⟨{ b0 with caps := [(0, { st := .rearm, rearm := 1, tR := some 1000000 })] }, 0, 1000000, 1000000, live_of (by decide +kernel), rfl, rfl,
    by decide +kernel⟩

theorem met_CaptureEvents_5 : ∃ (s : State) (h : Nat), Live s ∧ h < nHives s ∧ nextStream s h = none :=
  ⟨b0, 63, live_of (by decide +kernel), by decide +kernel⟩

theorem met_CaptureEvents_6 : ∃ (s : State) (h c : Nat) (r : CapRec), Live s ∧ h < nHives s ∧ nextStream s h = some (c, r) ∧
    ringOffline s (capAt s c) = true :=
  ⟨{ b0 with caps := [(0, { st := .window, recLog2 := 12, recs := [{ kind := 1, off := 0, bytes := 128, seq := 0, count := 4 }], n := 4 })], dmcs := [(0, { st := .offline })] },
    0, 0, ({ kind := 1, off := 0, bytes := 128, seq := 0, count := 4 } : CapRec), live_of (by decide +kernel), by decide +kernel⟩

theorem met_CaptureEvents_7 : ∃ (s : State) (h n c : Nat) (r : CapRec), let b := capBps s (capAt s c);
    let k := min n (min r.count ((capAt s c).n - r.firstN) - r.streamed); let a := recAddr (capAt s c) (r.off + 64 + b * r.streamed); Live s ∧
    h < nHives s ∧ nextStream s h = some (c, r) ∧ (capAt s c).recs = [r] ∧ ringOffline s (capAt s c) = false ∧ r.kind = 1 ∧ r.lostRun = 0 ∧ 0 < k ∧
    creditsFor s (entryPieces a (b * k)) = true ∧ ((chunkRead s c (capAt s c) r k).2.any fun p => spanUe s p.1 p.2) = false :=
  ⟨{ b0 with caps := [(0, { st := .window, recLog2 := 12, recs := [{ kind := 1, off := 0, bytes := 128, seq := 0, count := 4 }], n := 4 })], dmcs := [(0, dm)] },
    0, 64, 0, { kind := 1, off := 0, bytes := 128, seq := 0, count := 4 }, live_of (by decide +kernel), by decide +kernel⟩

theorem met_CaptureEvents_8 : ∃ (s : State) (h n c : Nat) (r : CapRec), let b := if r.kind = 4 then 8 else capBps s (capAt s c);
    let k := min n ((if r.kind = 4 then r.count else min r.count ((capAt s c).n - r.firstN)) - r.streamed); Live s ∧ h < nHives s ∧
    nextStream s h = some (c, r) ∧ ringOffline s (capAt s c) = false ∧ r.lostRun = 0 ∧ (capAt s c).recs = [r] ∧
    creditsFor s (entryPieces (recAddr (capAt s c) (r.off + 64 + b * r.streamed)) (b * k)) = false :=
  ⟨{ b0 with caps := [(0, { st := .window, recLog2 := 12, recs := [{ kind := 1, off := 0, bytes := 128, seq := 0, count := 4 }], n := 4 })], dmcs := [(0, { dm with queue := List.replicate 24 ⟨5, 2, true, 8192, 64, 0, 0, true, 0, [], [], none, 0⟩ })] },
    0, 64, 0, ({ kind := 1, off := 0, bytes := 128, seq := 0, count := 4 } : CapRec), live_of (by decide +kernel), by decide +kernel⟩

theorem met_CaptureEvents_9 : ∃ (s : State) (c : Nat) (r : CapRec), Live s ∧ c < nCells s ∧ (capAt s c).recs = [r] ∧
    commitReady s c (capAt s c) r = true ∧ r.lostRun = 0 ∧ (capAt s c).st = .window :=
  ⟨{ b0 with caps := [(0, { st := .window, recLog2 := 12, recs := [{ kind := 1, off := 0, bytes := 128, seq := 0, count := 4, streamed := 4 }], n := 4 })] },
    0, ({ kind := 1, off := 0, bytes := 128, seq := 0, count := 4, streamed := 4 } : CapRec), live_of (by decide +kernel), by decide +kernel⟩

/-! ### WaggleDecisions -/

theorem met_WaggleDecisions_1 : ∃ (s : State) (x : Held) (h : Hdr) (w : Nat) (e : DWord), Decides s x (.wagChanSet h w e) :=
  ⟨{ b0 with held := [hd (.wagChanSet h0 511 0)] }, hd (.wagChanSet h0 511 0), h0, 511, 0, decides_of (by decide +kernel)⟩

theorem met_WaggleDecisions_2 : ∃ (s : State) (x : Held) (h : Hdr) (k : Nat) (sl : List Word) (sc : Nat), Decides s x (.wagTaskSet h k sl sc) :=
  ⟨{ b0 with held := [hd (.wagTaskSet h0 0 [0, 0, 0, 0] 127)] }, hd (.wagTaskSet h0 0 [0, 0, 0, 0] 127), h0, 0, [0, 0, 0, 0], 127,
    decides_of (by decide +kernel)⟩

theorem met_WaggleDecisions_3 : ∃ (s : State) (x : Held) (h : Hdr) (w l : Nat), Decides s x (.wagRaise h w l) ∧ keeperChan (chanAt s w) = true :=
  ⟨{ b0 with chans := [(511, { entry := 0x1A000 })], held := [hd (.wagRaise h0 511 0)] }, hd (.wagRaise h0 511 0), h0, 511, 0,
    decides_of (by decide +kernel), by decide +kernel⟩

theorem met_WaggleDecisions_4 : ∃ (s : State) (x : Held) (h : Hdr) (w l : Nat), Decides s x (.wagRaise h w l) ∧ keeperChan (chanAt s w) = false :=
  ⟨{ b0 with held := [hd (.wagRaise h0 0 0)] }, hd (.wagRaise h0 0 0), h0, 0, 0, decides_of (by decide +kernel), by decide +kernel⟩

theorem met_WaggleDecisions_5 : ∃ (s : State) (x : Held) (h : Hdr) (i f p n d : Nat), Decides s x (.wagTimerSet h i f p n d) :=
  ⟨{ b0 with held := [hd (.wagTimerSet h0 63 2000000 8 1 0)] }, hd (.wagTimerSet h0 63 2000000 8 1 0), h0, 63, 2000000, 8, 1, 0,
    decides_of (by decide +kernel)⟩

theorem met_WaggleDecisions_6 : ∃ (s : State) (x : Held) (h : Hdr) (i v n r : Nat), Decides s x (.wagCounterSet h i v n r) :=
  ⟨{ b0 with held := [hd (.wagCounterSet h0 63 1 2 0)] }, hd (.wagCounterSet h0 63 1 2 0), h0, 63, 1, 2, 0, decides_of (by decide +kernel)⟩

theorem met_WaggleDecisions_7 : ∃ (s : State) (x : Held) (h : Hdr) (p d i a w : Nat), Decides s x (.wagPinSet h p d i a w) ∧ p < 32 :=
  ⟨{ b0 with held := [hd (.wagPinSet h0 31 1 0 0 0)] }, hd (.wagPinSet h0 31 1 0 0 0), h0, 31, 1, 0, 0, 0, decides_of (by decide +kernel),
    by decide +kernel⟩

theorem met_WaggleDecisions_8 : ∃ (s : State) (x : Held) (h : Hdr) (p d i a w : Nat), Decides s x (.wagPinSet h p d i a w) ∧ 32 ≤ p :=
  ⟨{ b0 with held := [hd (.wagPinSet h0 47 1 0 0 0)] }, hd (.wagPinSet h0 47 1 0 0 0), h0, 47, 1, 0, 0, 0, decides_of (by decide +kernel),
    by decide +kernel⟩

theorem met_WaggleDecisions_9 : ∃ (s : State) (x : Held) (h : Hdr), Decides s x (.wagWatchRead h) :=
  ⟨{ b0 with held := [hd (.wagWatchRead h0)] }, hd (.wagWatchRead h0), h0, decides_of (by decide +kernel)⟩

theorem met_WaggleDecisions_10 : ∃ (s : State) (x : Held) (h : Hdr) (w : Nat) (m : DWord) (l : Nat), Decides s x (.wagClear h ⟨0, w⟩ m l) :=
  ⟨{ b0 with held := [hd (.wagClear h0 ⟨0, 0⟩ 1 0)] }, hd (.wagClear h0 ⟨0, 0⟩ 1 0), h0, 0, 1, 0, decides_of (by decide +kernel)⟩

theorem met_WaggleDecisions_11 : ∃ (s : State) (x : Held) (h : Hdr) (k n : Nat) (m : DWord) (l : Nat), Decides s x (.wagClear h ⟨k, n⟩ m l) ∧ k ≠ 0 :=
  ⟨{ b0 with held := [hd (.wagClear h0 ⟨1, 0⟩ 1 0)] }, hd (.wagClear h0 ⟨1, 0⟩ 1 0), h0, 1, 0, 1, 0, decides_of (by decide +kernel),
    by decide +kernel⟩

theorem met_WaggleDecisions_12 : ∃ (s : State) (x : Held) (h : Hdr) (k i o b : Nat), Decides s x (.wagOwnerSet h k i o b) ∧ wagUsed s k i = false :=
  ⟨{ b0 with held := [hd (.wagOwnerSet h0 0 0 15 0)] }, hd (.wagOwnerSet h0 0 0 15 0), h0, 0, 0, 15, 0, decides_of (by decide +kernel),
    by decide +kernel⟩

theorem met_WaggleDecisions_13 : ∃ (s : State) (x : Held) (h : Hdr) (k i o b : Nat), Decides s x (.wagOwnerSet h k i o b) ∧ wagUsed s k i = true :=
  ⟨{ b0 with chans := [(0, { entry := 0x10000 })], held := [hd (.wagOwnerSet h0 0 0 0 0)] }, hd (.wagOwnerSet h0 0 0 0 0), h0, 0, 0, 0, 0,
    decides_of (by decide +kernel), by decide +kernel⟩

/-! ### LinkDecisions -/

theorem met_LinkDecisions_1 : ∃ (s : State) (x : Held) (h : Hdr) (i : Nat) (a : LinkArgs), Decides s x (.linkSet h i a) ∧ ((linkAt s i).st = .off ∨
    (linkAt s i).st = .configured) ∧ linkBound (released s x) i = false ∧ linkArgsOk (released s x) i a = true :=
  ⟨{ b0 with held := [hd (.linkSet h0 15 la)] }, hd (.linkSet h0 15 la), h0, 15, la, decides_of (by decide +kernel), by decide +kernel⟩

theorem met_LinkDecisions_2 : ∃ (s : State) (x : Held) (h : Hdr) (i : Nat), Decides s x (.linkEnable h i) ∧ (linkAt s i).st = .configured :=
  ⟨{ b0 with links := [(0, { st := .configured, l := 1, m := 1 })], held := [hd (.linkEnable h0 0)] }, hd (.linkEnable h0 0), h0, 0,
    decides_of (by decide +kernel), by decide +kernel⟩

theorem met_LinkDecisions_3 : ∃ (s : State) (x : Held) (h : Hdr) (i : Nat), Decides s x (.linkDisable h i) ∧ (linkAt s i).st ≠ .off :=
  ⟨{ b0 with links := [(31, { st := .data, l := 1, m := 1 })], held := [hd (.linkDisable h0 31)] }, hd (.linkDisable h0 31), h0, 31,
    decides_of (by decide +kernel), by decide +kernel⟩

theorem met_LinkDecisions_4 : ∃ (s : State) (x : Held) (h : Hdr) (i : Nat), Decides s x (.linkRetrain h i) ∧ (linkAt s i).st = .data ∧
    linkRuns s i = true ∧ isRx i = true :=
  ⟨{ b0 with links := [(16, { st := .data, l := 1, m := 1 })], held := [hd (.linkRetrain h0 16)] }, hd (.linkRetrain h0 16), h0, 16,
    decides_of (by decide +kernel), by decide +kernel⟩

theorem met_LinkDecisions_5 : ∃ (s : State) (x : Held) (h : Hdr) (i : Nat), Decides s x (.linkRetrain h i) ∧ (linkAt s i).st = .down ∧
    linkRuns s i = true ∧ isRx i = true :=
  ⟨{ b0 with links := [(16, { st := .down, l := 1, m := 1 })], held := [hd (.linkRetrain h0 16)] }, hd (.linkRetrain h0 16), h0, 16,
    decides_of (by decide +kernel), by decide +kernel⟩

theorem met_LinkDecisions_6 : ∃ (s : State) (x : Held) (h : Hdr) (i sl f : Nat), Decides s x (.linkSlotSet h i sl f) ∧ slotArmed s i sl = false :=
  ⟨{ b0 with held := [hd (.linkSlotSet h0 31 255 15)] }, hd (.linkSlotSet h0 31 255 15), h0, 31, 255, 15, decides_of (by decide +kernel),
    by decide +kernel⟩

theorem met_LinkDecisions_7 : ∃ (s : State) (x : Held) (h : Hdr) (i sl f : Nat), Decides s x (.linkSlotSet h i sl f) ∧ slotArmed s i sl = true :=
  ⟨{ b0 with caps := [(0, { st := .armed, slot := 4096, mA := 2000000 })], held := [hd (.linkSlotSet h0 16 0 0)] }, hd (.linkSlotSet h0 16 0 0), h0,
    16, 0, 0, decides_of (by decide +kernel), by decide +kernel⟩

theorem met_LinkDecisions_8 : ∃ (s : State) (x : Held) (h : Hdr) (n l : Nat), Decides s x (.linkEyeRead h n) ∧ laneLink s true n = some l ∧
    (linkAt s l).st = .data :=
  ⟨{ b0 with links := [(16, { st := .data, l := 1, m := 1 })], held := [hd (.linkEyeRead h0 0)] }, hd (.linkEyeRead h0 0), h0, 0, 16,
    decides_of (by decide +kernel), rfl, by decide +kernel⟩

theorem met_LinkDecisions_9 : ∃ (s : State) (x : Held) (h : Hdr) (n : Nat), Decides s x (.linkEyeRead h n) ∧ ((∀ l,
    laneLink s true n = some l → (linkAt s l).st ≠ .data)) :=
  ⟨{ b0 with held := [hd (.linkEyeRead h0 31)] }, hd (.linkEyeRead h0 31), h0, 31, decides_of (by decide +kernel), by decide +kernel⟩

theorem met_LinkDecisions_10 : ∃ (s : State) (x : Held) (h : Hdr) (i : Nat) (m : DWord), Decides s x (.linkClear h i m) :=
  ⟨{ b0 with held := [hd (.linkClear h0 0 1)] }, hd (.linkClear h0 0 1), h0, 0, 1, decides_of (by decide +kernel)⟩

/-! ### LinkEvents -/

theorem met_LinkEvents_1 : ∃ (s : State) (i : Nat) (eyes : List EyeMeas) (k : Nat) (ms : List EyeMeas), Live s ∧
    settingEyes (linkAt s i) eyes k = some ms ∧ i < 32 ∧ (linkAt s i).st = .training ∧ isRx i = true ∧ k < 16 :=
  ⟨{ b0 with links := [(31, { st := .training, l := 1, m := 1 })] }, 31, ([⟨0, 77, 30, 0⟩] : List EyeMeas), 0, ([⟨0, 77, 30, 0⟩] : List EyeMeas),
    live_of (by decide +kernel), rfl, by decide +kernel⟩

theorem met_LinkEvents_2 : ∃ (s : State) (i : Nat) (eyes : List EyeMeas), Live s ∧ i < 32 ∧ (linkAt s i).st = .training ∧ isRx i = true ∧ ((∀ k,
    k < 16 → settingEyes (linkAt s i) eyes k = none)) :=
  ⟨{ b0 with links := [(16, { st := .training, l := 1, m := 1 })] }, 16, ([⟨0, 76, 30, 0⟩] : List EyeMeas), live_of (by decide +kernel),
    by decide +kernel⟩

theorem met_LinkEvents_3 : ∃ (s : State) (i : Nat), Live s ∧ i < 16 ∧ (linkAt s i).st = .training ∧ (linkAt s i).statusPin ≠ 0xFF ∧
    (linkAt s i).since + 100000 ≤ s.time.tick :=
  ⟨{ b0 with links := [(15, { st := .training, l := 1, m := 1, statusPin := 31, since := 900000 })] }, 15, live_of (by decide +kernel),
    by decide +kernel⟩

theorem met_LinkEvents_4 : ∃ (s : State) (i : Nat), Live s ∧ i < 32 ∧ (linkAt s i).st = .aligning ∧ (linkAt s i).aligned = false ∧
    (linkAt s i).since + 10000000 ≤ s.time.tick :=
  ⟨{ b0 with time.tick := 10000000, links := [(31, { st := .aligning, l := 1, m := 1 })] }, 31, live_of (by decide +kernel), by decide +kernel⟩

theorem met_LinkEvents_5 : ∃ (s : State) (i : Nat), Live s ∧ i < 32 ∧ (linkAt s i).st = .down ∧ (linkAt s i).retryS ≠ 0 ∧
    (linkAt s i).since + 100000000 * (linkAt s i).retryS ≤ s.time.tick ∧ linkRuns s i = true ∧ isRx i = true :=
  ⟨{ b0 with time.tick := 1000000000, links := [(16, { st := .down, l := 1, m := 1 })] }, 16, live_of (by decide +kernel), by decide +kernel⟩

theorem met_LinkEvents_6 : ∃ (s : State) (i : Nat), Live s ∧ i < 32 ∧ (linkAt s i).retryS = 0 :=
  ⟨{ b0 with links := [(31, { st := .data, l := 1, m := 1, retryS := 0 })] }, 31, live_of (by decide +kernel), by decide +kernel⟩

theorem met_LinkEvents_7 : ∃ (s : State) (i : Nat) (l : List Nat), let m := max (linkAt s i).arrivalMax (min 65535 (largest l)); Live s ∧
    isRx i = true ∧ i < 32 ∧ linkLanes (linkAt s i) ≠ [] ∧ l.length = (linkLanes (linkAt s i)).length ∧ (linkAt s i).st = .aligning ∧
    s.md.mode ≠ .standby ∧ m + 2 ^ (linkAt s i).j ≤ (linkAt s i).rxLat * 2 ^ (linkAt s i).j :=
  ⟨{ b0 with links := [(31, { st := .aligning, l := 1, m := 1, rxLat := 1, j := 4 })] }, 31, [0], live_of (by decide +kernel), by decide +kernel⟩

theorem met_LinkEvents_8 : ∃ (s : State) (n i : Nat), Live s ∧ laneLink s true n = some i ∧ n < nLanes s ∧ (linkAt s i).st = .data ∧
    linkRuns s i = true ∧ isRx i = true :=
  ⟨{ b0 with links := [(16, { st := .data, l := 1, m := 1 })] }, 0, 16, live_of (by decide +kernel), rfl, by decide +kernel⟩

theorem met_LinkEvents_9 : ∃ (s : State) (k i n : Nat), let recent := (linkAt s i).crcRecent.filter fun p => decide (s.time.tick < p.1 + 100000000);
    Live s ∧ laneLink s true k = some i ∧ k < nLanes s ∧ (linkAt s i).st = .data ∧ 0 < n ∧ n + crcSum recent < (linkAt s i).crcLimit :=
  ⟨{ b0 with links := [(31, { st := .data, l := 1, m := 1 })] }, 0, 31, 15, live_of (by decide +kernel), rfl, by decide +kernel⟩

theorem met_LinkEvents_10 : ∃ (s : State) (k i n : Nat), Live s ∧ laneLink s true k = some i ∧ k < nLanes s ∧ (linkAt s i).st = .data ∧ 0 < n ∧
    (linkAt s i).crcLimit ≤ n + crcSum ((linkAt s i).crcRecent.filter fun p => decide (s.time.tick < p.1 + 100000000)) ∧ linkRuns s i = true ∧
    isRx i = true :=
  ⟨{ b0 with links := [(31, { st := .data, l := 1, m := 1, crcRecent := [(999000, 15)] })] }, 0, 31, 1, live_of (by decide +kernel), rfl,
    by decide +kernel⟩

theorem met_LinkEvents_11 : ∃ (s : State) (i : Nat), Live s ∧ isRx i = true ∧ i < 32 ∧ (linkAt s i).st = .data ∧ linkRuns s i = true :=
  ⟨{ b0 with links := [(31, { st := .data, l := 1, m := 1 })] }, 31, live_of (by decide +kernel), by decide +kernel⟩

theorem met_LinkEvents_12 : ∃ (s : State) (i : Nat), Live s ∧ i < 16 ∧ (linkAt s i).st = .data ∧ (linkAt s i).statusPin ≠ 0xFF ∧
    pinLowFor s (linkAt s i).statusPin 100 = true ∧ linkRuns s i = true :=
  ⟨{ b0 with links := [(15, { st := .data, l := 1, m := 1, statusPin := 31 })] }, 15, live_of (by decide +kernel), by decide +kernel⟩

theorem met_LinkEvents_13 : ∃ (s : State) (i : Nat), Live s ∧ i < 16 ∧ pinLowFor s (linkAt s i).statusPin 100 = false :=
  ⟨{ b0 with pins := [(3, { hist := [(999950, true)] })], links := [(15, { st := .data, l := 1, m := 1, statusPin := 3 })] }, 15,
    live_of (by decide +kernel), by decide +kernel⟩

/-! ### DramDecisions -/

theorem met_DramDecisions_1 : ∃ (s : State) (x : Held) (h : Hdr) (cs : List DmcChan) (il cb ag mm th ce : Nat),
    Decides s x (.dmcConfig h cs il cb ag mm th ce) ∧ unitMode s = .bringUp ∧ dmcUnconfigured s = true ∧ cs.length = 4 :=
  ⟨{ b0 with md.mode := .bringUp, held := [hd (.dmcConfig h0 [⟨6, 0, 0, 0, 1, 10, 20⟩, ⟨6, 0, 0, 0, 1, 10, 20⟩, ⟨6, 0, 0, 0, 1, 10, 20⟩, ⟨6, 0, 0, 0, 1, 10, 20⟩] 0 0 0 0 0 0)] },
    hd (.dmcConfig h0 [⟨6, 0, 0, 0, 1, 10, 20⟩, ⟨6, 0, 0, 0, 1, 10, 20⟩, ⟨6, 0, 0, 0, 1, 10, 20⟩, ⟨6, 0, 0, 0, 1, 10, 20⟩] 0 0 0 0 0 0), h0, [⟨6, 0,
    0, 0, 1, 10, 20⟩, ⟨6, 0, 0, 0, 1, 10, 20⟩, ⟨6, 0, 0, 0, 1, 10, 20⟩, ⟨6, 0, 0, 0, 1, 10, 20⟩], 0, 0, 0, 0, 0, 0, decides_of (by decide +kernel),
    by decide +kernel⟩

theorem met_DramDecisions_2 : ∃ (s : State) (x : Held) (h : Hdr) (cs : List DmcChan) (il cb ag mm th ce : Nat),
    Decides s x (.dmcConfig h cs il cb ag mm th ce) ∧ unitMode s ≠ .bringUp :=
  ⟨{ b0 with held := [hd (.dmcConfig h0 [] 0 0 0 0 0 0)] }, hd (.dmcConfig h0 [] 0 0 0 0 0 0), h0, [], 0, 0, 0, 0, 0, 0,
    decides_of (by decide +kernel), by decide +kernel⟩

theorem met_DramDecisions_3 : ∃ (s : State) (x : Held) (h : Hdr) (cs : List DmcChan) (il cb ag mm th ce : Nat),
    Decides s x (.dmcConfig h cs il cb ag mm th ce) ∧ unitMode s = .bringUp ∧ dmcUnconfigured s = false :=
  ⟨{ b0 with md.mode := .bringUp, dmcs := [(0, dm)], held := [hd (.dmcConfig h0 [] 0 0 0 0 0 0)] }, hd (.dmcConfig h0 [] 0 0 0 0 0 0), h0, [], 0, 0,
    0, 0, 0, 0, decides_of (by decide +kernel), by decide +kernel⟩

theorem met_DramDecisions_4 : ∃ (s : State) (x : Held) (h : Hdr) (f n o b : Nat), Decides s x (.dramRegionSet h f n o b) ∧
    regionsUsed s f n o = false ∧ (upFrom n f).any s.dramSystem.contains = false :=
  ⟨{ b0 with held := [hd (.dramRegionSet h0 8191 1 15 0)] }, hd (.dramRegionSet h0 8191 1 15 0), h0, 8191, 1, 15, 0, decides_of (by decide +kernel),
    by decide +kernel⟩

theorem met_DramDecisions_5 : ∃ (s : State) (x : Held) (h : Hdr) (f n o b : Nat), Decides s x (.dramRegionSet h f n o b) ∧
    regionsUsed s f n o = true :=
  ⟨{ b0 with dramOwn := [(0, ⟨1, false⟩)], queues := [(0, { st := .streaming, sizeLog2 := 4 })], held := [hd (.dramRegionSet h0 0 1 2 0)] },
    hd (.dramRegionSet h0 0 1 2 0), h0, 0, 1, 2, 0, decides_of (by decide +kernel), by decide +kernel⟩

theorem met_DramDecisions_6 : ∃ (s : State) (x : Held) (h : Hdr) (f n : Nat), Decides s x (.dramRegionRead h f n) :=
  ⟨{ b0 with held := [hd (.dramRegionRead h0 0 1)] }, hd (.dramRegionRead h0 0 1), h0, 0, 1, decides_of (by decide +kernel)⟩

theorem met_DramDecisions_7 : ∃ (s : State) (x : Held) (h : Hdr) (c k : Nat), Decides s x (.dmcRetrain h c k) ∧ (dmcAt s c).st = .inService ∧
    (dmcAt s c).tracking = false ∧ (k = 0 ∨ k = 1) :=
  ⟨{ b0 with dmcs := [(3, { st := .inService, capGib := 32 })], held := [hd (.dmcRetrain h0 3 1)] }, hd (.dmcRetrain h0 3 1), h0, 3, 1,
    decides_of (by decide +kernel), by decide +kernel⟩

theorem met_DramDecisions_8 : ∃ (s : State) (x : Held) (h : Hdr) (c k : Nat), Decides s x (.dmcRetrain h c k) ∧ (dmcAt s c).st = .inService ∧
    (dmcAt s c).tracking = true :=
  ⟨{ b0 with dmcs := [(3, { st := .inService, capGib := 32, tracking := true })], held := [hd (.dmcRetrain h0 3 0)] }, hd (.dmcRetrain h0 3 0), h0, 3,
    0, decides_of (by decide +kernel), by decide +kernel⟩

theorem met_DramDecisions_9 : ∃ (s : State) (x : Held) (h : Hdr) (c k : Nat), Decides s x (.dmcRetrain h c k) ∧ mayRetrain s c k = false ∧
    (dmcAt s c).st ≠ .inService :=
  ⟨{ b0 with held := [hd (.dmcRetrain h0 3 0)] }, hd (.dmcRetrain h0 3 0), h0, 3, 0, decides_of (by decide +kernel), by decide +kernel⟩

theorem met_DramDecisions_10 : ∃ (s : State) (x : Held) (h : Hdr) (e p : Nat), Decides s x (.dmcScrubSet h e p) :=
  ⟨{ b0 with held := [hd (.dmcScrubSet h0 1 1)] }, hd (.dmcScrubSet h0 1 1), h0, 1, 1, decides_of (by decide +kernel)⟩

theorem met_DramDecisions_11 : ∃ (s : State) (x : Held) (h : Hdr) (a n : Nat) (d : List Byte), Decides s x (.dramWrite h a n d) ∧
    dramDecErr s x.ctx a d.length = none ∧ waitingCmds s = [] ∧ waitingBulk s = [] ∧ entryQueued s 8 x.serial = false ∧
    roomFor s (entryPieces a d.length) = true :=
  ⟨{ b0 with dmcs := [(0, dm)], held := [hd (.dramWrite h0 0 64 (List.replicate 64 0))] }, hd (.dramWrite h0 0 64 (List.replicate 64 0)), h0, 0, 64,
    (List.replicate 64 0), decides_of (by decide +kernel), by decide +kernel⟩

theorem met_DramDecisions_12 : ∃ (s : State) (x : Held) (h : Hdr) (a n : Nat) (d : List Byte), Decides s x (.dramWrite h a n d) ∧
    dramDecErr s x.ctx a d.length = none ∧ waitingCmds s = [] ∧ waitingBulk s = [] ∧ entryQueued s 8 x.serial = false ∧
    roomFor s (entryPieces a d.length) = false :=
  ⟨{ b0 with dmcs := [(0, { dm with queue := List.replicate 72 ⟨5, 1, true, 8192, 64, 0, 0, false, 0, [], [], none, 0⟩ })], held := [hd (.dramWrite h0 0 64 (List.replicate 64 0))] },
    hd (.dramWrite h0 0 64 (List.replicate 64 0)), h0, 0, 64, (List.replicate 64 0), decides_of (by decide +kernel), by decide +kernel⟩

theorem met_DramDecisions_13 : ∃ (s : State) (x : Held) (h : Hdr) (a n : Nat) (d : List Byte) (e : Err), Decides s x (.dramWrite h a n d) ∧
    dramDecErr s x.ctx a d.length = some e :=
  ⟨{ b0 with held := [hd (.dramWrite h0 0 1 [0])] }, hd (.dramWrite h0 0 1 [0]), h0, 0, 1, [0], .notReady, decides_of (by decide +kernel), rfl⟩

theorem met_DramDecisions_14 : ∃ (s : State) (x : Held) (h : Hdr) (a n : Nat), Decides s x (.dramRead h a n) ∧ dramDecErr s x.ctx a (8 * n) = none ∧
    waitingCmds s = [] ∧ waitingBulk s = [] ∧ entryQueued s 8 x.serial = false ∧ roomFor s (entryPieces a (8 * n)) = true :=
  ⟨{ b0 with dmcs := [(0, dm)], held := [hd (.dramRead h0 0 1)] }, hd (.dramRead h0 0 1), h0, 0, 1, decides_of (by decide +kernel), by decide +kernel⟩

theorem met_DramDecisions_15 : ∃ (s : State) (x : Held) (h : Hdr) (a n : Nat) (e : Err), Decides s x (.dramRead h a n) ∧
    dramDecErr s x.ctx a (8 * n) = some e :=
  ⟨{ b0 with held := [hd (.dramRead h0 0 1)] }, hd (.dramRead h0 0 1), h0, 0, 1, .notReady, decides_of (by decide +kernel), rfl⟩

theorem met_DramDecisions_16 : ∃ (s : State) (x : Held) (h : Hdr) (c : Nat) (m : DWord) (u : Nat), Decides s x (.dmcClear h c m u) :=
  ⟨{ b0 with held := [hd (.dmcClear h0 3 1 1)] }, hd (.dmcClear h0 3 1 1), h0, 3, 1, 1, decides_of (by decide +kernel)⟩

/-! ### DramEvents -/

theorem met_DramEvents_1 : ∃ (s : State) (c m : Nat), Live s ∧ c < nDmc s ∧ (dmcAt s c).st = .training ∧ s.minMargin ≤ m :=
  ⟨{ b0 with dmcs := [(3, { st := .training, capGib := 32 })] }, 3, 6, live_of (by decide +kernel), by decide +kernel⟩

theorem met_DramEvents_2 : ∃ (s : State) (c : Nat) (b : Bool) (m : Nat), Live s ∧ c < nDmc s ∧ (dmcAt s c).st = .training ∧
    ((b = true → m < s.minMargin)) :=
  ⟨{ b0 with dmcs := [(0, { st := .training, capGib := 32 })] }, 0, true, 5, live_of (by decide +kernel), by decide +kernel⟩

theorem met_DramEvents_3 : ∃ (s : State) (c : Nat), Live s ∧ c < nDmc s ∧ (dmcAt s c).st = .clearing :=
  ⟨{ b0 with dmcs := [(3, { st := .clearing, capGib := 32 })] }, 3, live_of (by decide +kernel), by decide +kernel⟩

theorem met_DramEvents_4 : ∃ (s : State) (c m : Nat), Live s ∧ c < nDmc s ∧ (dmcAt s c).st = .inService ∧ (dmcAt s c).tracking = true ∧
    (dmcAt s c).trackPending = false ∧ s.minMargin ≤ m :=
  ⟨{ b0 with dmcs := [(3, { st := .inService, capGib := 32, tracking := true })] }, 3, 6, live_of (by decide +kernel), by decide +kernel⟩

theorem met_DramEvents_5 : ∃ (s : State) (c : Nat) (b : Bool) (m : Nat), Live s ∧ c < nDmc s ∧ (dmcAt s c).st = .inService ∧
    (dmcAt s c).tracking = true ∧ ((b = true → m < s.minMargin)) :=
  ⟨{ b0 with dmcs := [(3, { st := .inService, capGib := 32, tracking := true })] }, 3, true, 5, live_of (by decide +kernel), by decide +kernel⟩

theorem met_DramEvents_6 : ∃ (s : State) (c : Nat), Live s ∧ c < nDmc s ∧ (dmcAt s c).st = .inService ∧ (dmcAt s c).tracking = false ∧
    15 * 64 ≤ (dieTj s - (dmcAt s c).trainTj).natAbs :=
  ⟨{ b0 with dmcs := [(3, { st := .inService, capGib := 32, trainTj := 4096 })] }, 3, live_of (by decide +kernel), by decide +kernel⟩

theorem met_DramEvents_7 : ∃ (s : State) (c : Nat), Live s ∧ c < nDmc s ∧ (dmcAt s c).st = .inService ∧ (dmcAt s c).tracking = false ∧
    s.ceLimit ≤ ((dmcAt s c).ceTicks.filter fun t => decide (s.time.tick < t + minuteTicks)).length :=
  ⟨{ b0 with ceLimit := 2, dmcs := [(3, { st := .inService, capGib := 32, ceTicks := [999999, 999998] })] }, 3, live_of (by decide +kernel),
    by decide +kernel⟩

theorem met_DramEvents_8 : ∃ (s : State) (c : Nat), Live s ∧ c < nDmc s ∧ (dmcAt s c).st = .inService ∧ (dmcAt s c).tracking = false ∧
    (dmcAt s c).lastTrain + s.trackH * 360000000000 ≤ s.time.tick :=
  ⟨{ b0 with time.tick := 360000000000000, dmcs := [(3, { st := .inService, capGib := 32 })] }, 3, live_of (by decide +kernel), by decide +kernel⟩

theorem met_DramEvents_9 : ∃ (s : State) (c : Nat), Live s ∧ c < nDmc s ∧ (dmcAt s c).caTick = none :=
  ⟨b0, 3, live_of (by decide +kernel), by decide +kernel⟩

theorem met_DramEvents_10 : ∃ (s : State) (c k : Nat), Live s ∧ (dmcAt s c).caTick = some k ∧ c < nDmc s ∧ s.time.tick ≤ k + 100000 ∧
    (dmcAt s c).st = .inService ∧ (dmcAt s c).tracking = false :=
  ⟨{ b0 with dmcs := [(3, { st := .inService, capGib := 32, caTick := some 900000 })] }, 3, 900000, live_of (by decide +kernel), rfl,
    by decide +kernel⟩

theorem met_DramEvents_11 : ∃ (s : State) (c r : Nat), Live s ∧ c < nDmc s ∧ r ≤ (dmcAt s c).ranks ∧ r < 2 ∧ (dmcAt s c).st = .inService ∧
    tget 0 (dmcAt s c).postponed r < 8 ∧ tget 0 (dmcAt s c).refNext r ≤ s.time.tick :=
  ⟨{ b0 with dmcs := [(3, { st := .inService, capGib := 32, ranks := 1, postponed := [(1, 7)] })] }, 3, 1, live_of (by decide +kernel),
    by decide +kernel⟩

theorem met_DramEvents_12 : ∃ (s : State) (c r b : Nat), Live s ∧ c < nDmc s ∧ r < 2 ∧ b < 16 :=
  ⟨b0, 3, 1, 15, live_of (by decide +kernel), by decide +kernel⟩

theorem met_DramEvents_13 : ∃ (s : State) (c r : Nat), Live s ∧ c < nDmc s ∧ r < 2 ∧ r ≤ (dmcAt s c).ranks ∧ (dmcAt s c).st = .inService ∧
    (dmcAt s c).pdIdle ≠ 0 ∧ (dmcAt s c).queue = [] ∧ r ∉ (dmcAt s c).pd ∧ rankBlocked s (dmcAt s c) r = false ∧
    tget 0 (dmcAt s c).idleFrom r + (dmcAt s c).pdIdle ≤ s.time.tick :=
  ⟨{ b0 with dmcs := [(3, { st := .inService, capGib := 32, ranks := 1, pdIdle := 5 })] }, 3, 1, live_of (by decide +kernel), by decide +kernel⟩

theorem met_DramEvents_14 : ∃ (s : State) (c : Nat), Live s ∧ c < nDmc s ∧ s.scrubOn = true ∧ (dmcAt s c).st = .inService ∧ (dmcAt s c).capGib ≠ 0 ∧
    scrubDue s (dmcAt s c) = true ∧ dramQuiet s (dramDevAddr s c (dmcAt s c).scrubPos) 64 = true ∧ s.dramUe = [] :=
  ⟨{ b0 with dmcs := [(0, { st := .inService, capGib := 32 })] }, 0, live_of (by decide +kernel), by decide +kernel⟩

theorem met_DramEvents_15 : ∃ (s : State) (c : Nat) (e : DEntry), Live s ∧ ((∀ r, tget 0 (dmcAt s c).postponed r < 8)) ∧ c < nDmc s ∧
    (dmcAt s c).queue = [e] ∧ (dmcAt s c).st = .inService ∧ (dmcAt s c).tracking = false ∧ 64 * e.served < e.len ∧ s.jnl.staged = 0 ∧
    rankBlocked s (dmcAt s c) (nextRow s (dmcAt s c) e).1 = false :=
  ⟨{ b0 with dmcs := [(0, { st := .inService, capGib := 32, queue := [⟨0, 8, true, 0, 64, 0, 0, false, 0, [], [], none, 0⟩] })] }, 0, ⟨0, 8, true, 0,
    64, 0, 0, false, 0, [], [], none, 0⟩, live_of (by decide +kernel), by intro r; simp [dmcAt, tget], by decide +kernel⟩

theorem met_DramEvents_16 : ∃ (s : State) (c : Nat), Live s ∧ c < nDmc s ∧ ((dmcAt s c).st ≠ .inService ∨ (dmcAt s c).tracking = true) :=
  ⟨{ b0 with dmcs := [(3, { st := .offline, capGib := 32 })] }, 3, live_of (by decide +kernel), by decide +kernel⟩

theorem met_DramEvents_17 : ∃ (s : State) (c i : Nat) (e : DEntry), Live s ∧ (dmcAt s c).queue[i]? = some e ∧ c < nDmc s ∧ 64 * e.served < e.len :=
  ⟨{ b0 with dmcs := [(0, { st := .inService, capGib := 32, queue := [⟨0, 1, true, 0, 64, 0, 0, false, 0, [], [], none, 0⟩] })] }, 0, 0, (⟨0, 1, true,
    0, 64, 0, 0, false, 0, [], [], none, 0⟩ : DEntry), live_of (by decide +kernel), rfl, by decide +kernel⟩

theorem met_DramEvents_18 : ∃ (s : State) (c i : Nat) (e : DEntry), Live s ∧ (dmcAt s c).queue[i]? = some e ∧ c < nDmc s ∧ e.len ≤ 64 * e.served ∧
    e.master = 2 ∧ ((∀ q ∈ s.queues, ∀ b ∈ q.2.blocks, b.queued = true ∨ b.resident.isSome = true)) ∧ waitingCmds s = [] ∧ waitingBulk s = [] :=
  ⟨{ b0 with dmcs := [(0, { st := .inService, capGib := 32, queue := [⟨0, 2, true, 64, 64, 1, 0, true, 65, [7, 8], [], none, 0⟩] })] }, 0, 0, (⟨0, 2,
    true, 64, 64, 1, 0, true, 65, [7, 8], [], none, 0⟩ : DEntry), live_of (by decide +kernel), rfl, by decide +kernel⟩

theorem met_DramEvents_19 : ∃ (s : State) (c i : Nat) (e : DEntry), Live s ∧ (dmcAt s c).queue[i]? = some e ∧ c < nDmc s ∧ e.len ≤ 64 * e.served ∧
    e.master = 6 ∧ ((∀ q ∈ s.queues, ∀ b ∈ q.2.blocks, b.queued = true ∨ b.resident.isSome = true)) ∧ waitingCmds s = [] ∧ waitingBulk s = [] :=
  ⟨{ b0 with jnl.staged := 64, dmcs := [(0, { st := .inService, capGib := 32, queue := [⟨40, 6, true, 64, 64, 1, 0, false, 65, [], [], none, 0⟩] })] },
    0, 0, (⟨40, 6, true, 64, 64, 1, 0, false, 65, [], [], none, 0⟩ : DEntry), live_of (by decide +kernel), rfl, by decide +kernel⟩

theorem met_DramEvents_20 : ∃ (s : State) (c i : Nat) (e : DEntry) (v : List Held) (x : Held) (w : List Held) (h : Hdr) (a n : Nat) (d : List Byte),
    Live s ∧ (dmcAt s c).queue[i]? = some e ∧ x.cmd = .dramWrite h a n d ∧ ((∀ y ∈ v ++ w, y.serial ≠ e.id)) ∧ c < nDmc s ∧ e.len ≤ 64 * e.served ∧
    e.master = 8 ∧ ((∀ q ∈ s.queues, ∀ b ∈ q.2.blocks, b.queued = true ∨ b.resident.isSome = true)) ∧ waitingCmds s = [] ∧ waitingBulk s = [] ∧
    entryQueued { s with dmcs := tmod {} s.dmcs c fun q => { q with queue := q.queue.eraseIdx i } } 8 e.id = false ∧ s.works = v ++ x :: w ∧
    x.serial = e.id ∧ x.mb ≤ 4 ∧ e.write = true ∧ e.err = none ∧ ((partialLines e.pos e.data.length).any fun l => s.dramUe.contains l) = false :=
  ⟨{ b0 with works := [hd (.dramWrite h0 65 2 [7, 8])], dmcs := [(0, { st := .inService, capGib := 32, queue := [⟨0, 8, true, 64, 64, 1, 0, false, 65, [7, 8], [], none, 0⟩] })] },
    0, 0, (⟨0, 8, true, 64, 64, 1, 0, false, 65, [7, 8], [], none, 0⟩ : DEntry), [], hd (.dramWrite h0 65 2 [7, 8]), [], h0, 65, 2, [7, 8],
    live_of (by decide +kernel), rfl, rfl, (by intro y hy; cases hy), by decide +kernel⟩

theorem met_DramEvents_21 : ∃ (s : State) (c i : Nat) (e : DEntry) (v : List Held) (x : Held) (w : List Held) (h : Hdr) (a n : Nat), Live s ∧
    (dmcAt s c).queue[i]? = some e ∧ x.cmd = .dramRead h a n ∧ ((∀ y ∈ v ++ w, y.serial ≠ e.id)) ∧ c < nDmc s ∧ e.len ≤ 64 * e.served ∧ e.master = 8 ∧
    ((∀ q ∈ s.queues, ∀ b ∈ q.2.blocks, b.queued = true ∨ b.resident.isSome = true)) ∧ waitingCmds s = [] ∧ waitingBulk s = [] ∧
    entryQueued { s with dmcs := tmod {} s.dmcs c fun q => { q with queue := q.queue.eraseIdx i } } 8 e.id = false ∧ s.works = v ++ x :: w ∧
    x.serial = e.id ∧ x.mb ≤ 4 ∧ e.write = false ∧ e.err = none ∧ e.img = [] ∧ e.addr ≤ a ∧ a + 8 * n ≤ e.addr + e.len :=
  ⟨{ b0 with works := [hd (.dramRead h0 64 1)], dmcs := [(0, { st := .inService, capGib := 32, queue := [⟨0, 8, false, 64, 64, 1, 0, false, 64, [], [], none, 0⟩] })] },
    0, 0, (⟨0, 8, false, 64, 64, 1, 0, false, 64, [], [], none, 0⟩ : DEntry), [], hd (.dramRead h0 64 1), [], h0, 64, 1, live_of (by decide +kernel),
    rfl, rfl, (by intro y hy; cases hy), by decide +kernel⟩

/-! ### AuxOutputs -/

theorem met_AuxOutputs_1 : ∃ (s : State) (x : Held) (h : Hdr) (a sh st r cl : Nat), Decides s x (.auxConfig h a sh st r cl) ∧
    (auxAt s a).bound = none :=
  ⟨{ b0 with held := [hd (.auxConfig h0 63 2 1 1 0)] }, hd (.auxConfig h0 63 2 1 1 0), h0, 63, 2, 1, 1, 0, decides_of (by decide +kernel),
    by decide +kernel⟩

theorem met_AuxOutputs_2 : ∃ (s : State) (x : Held) (h : Hdr) (a sh st r cl : Nat), Decides s x (.auxConfig h a sh st r cl) ∧
    (auxAt s a).bound ≠ none :=
  ⟨{ b0 with auxs := [(0, { bound := some 0 })], held := [hd (.auxConfig h0 0 0 0 0 0)] }, hd (.auxConfig h0 0 0 0 0 0), h0, 0, 0, 0, 0, 0,
    decides_of (by decide +kernel), by decide +kernel⟩

theorem met_AuxOutputs_3 : ∃ (s : State) (x : Held) (h : Hdr) (a v w : Nat), Decides s x (.auxWrite h a v w) ∧ (auxAt s a).bound = none ∧
    auxDrives s = true ∧ (auxAt s a).shape = 0 :=
  ⟨{ b0 with auxs := [(63, { code := 1 })], held := [hd (.auxWrite h0 63 65535 0)] }, hd (.auxWrite h0 63 65535 0), h0, 63, 65535, 0,
    decides_of (by decide +kernel), by decide +kernel⟩

theorem met_AuxOutputs_4 : ∃ (s : State) (x : Held) (h : Hdr) (a v w : Nat), Decides s x (.auxWrite h a v w) ∧ (auxAt s a).bound = none ∧
    auxDrives s = true ∧ (auxAt s a).shape = 2 :=
  ⟨{ b0 with auxs := [(0, { shape := 2 })], held := [hd (.auxWrite h0 0 5 0)] }, hd (.auxWrite h0 0 5 0), h0, 0, 5, 0, decides_of (by decide +kernel),
    by decide +kernel⟩

theorem met_AuxOutputs_5 : ∃ (s : State) (x : Held) (h : Hdr) (a v w : Nat), Decides s x (.auxWrite h a v w) ∧ (auxAt s a).bound = none ∧
    auxDrives s = false :=
  ⟨{ b0 with auxClrN := false, held := [hd (.auxWrite h0 0 0 0)] }, hd (.auxWrite h0 0 0 0), h0, 0, 0, 0, decides_of (by decide +kernel),
    by decide +kernel⟩

theorem met_AuxOutputs_6 : ∃ (s : State) (x : Held) (h : Hdr) (a : Nat), Decides s x (.auxReadback h a) :=
  ⟨{ b0 with held := [hd (.auxReadback h0 63)] }, hd (.auxReadback h0 63), h0, 63, decides_of (by decide +kernel)⟩

theorem met_AuxOutputs_7 : ∃ (s : State) (x : Held) (h : Hdr) (a : Nat) (w : List Held), Live s ∧ (Oldest s (fun c => ∃ h,
    c = .auxReadback h a) x w) ∧ x.cmd = .auxReadback h a ∧ a < 64 :=
  ⟨{ b0 with works := [hd (.auxReadback h0 63)] }, hd (.auxReadback h0 63), h0, 63, [], live_of (by decide +kernel),
    oldest_head rfl (by decide +kernel) (by simp [hd]), rfl, by decide +kernel⟩

theorem met_AuxOutputs_8 : ∃ (s : State) (x : Held) (h : Hdr) (a : Nat) (m : DWord), Decides s x (.auxClear h a m) :=
  ⟨{ b0 with held := [hd (.auxClear h0 0 1)] }, hd (.auxClear h0 0 1), h0, 0, 1, decides_of (by decide +kernel)⟩

theorem met_AuxOutputs_9 : ∃ s : State, Live s ∧ s.auxClrN = true :=
  ⟨b0, live_of (by decide +kernel), by decide +kernel⟩

theorem met_AuxOutputs_10 : ∃ s : State, Live s ∧ s.auxClrN = false :=
  ⟨{ b0 with auxClrN := false }, live_of (by decide +kernel), by decide +kernel⟩

theorem met_AuxOutputs_11 : ∃ (s : State) (a n : Nat), Live s ∧ (auxAt s a).slewNext = some n ∧ a < 64 ∧ n ≤ s.time.tick :=
  ⟨{ b0 with auxs := [(63, { slewNext := some 1000000 })] }, 63, 1000000, live_of (by decide +kernel), rfl, by decide +kernel⟩

theorem met_AuxOutputs_12 : ∃ (s : State) (a n : Nat), Live s ∧ (auxAt s a).holdEnd = some n ∧ a < 64 ∧ n ≤ s.time.tick :=
  ⟨{ b0 with auxs := [(63, { holdEnd := some 1000000 })] }, 63, 1000000, live_of (by decide +kernel), rfl, by decide +kernel⟩

theorem met_AuxOutputs_13 : ∃ (s : State) (a : Nat), Live s ∧ a < 64 ∧ (fltAt s .aux).mask.getLsbD 0 = false :=
  ⟨b0, 63, live_of (by decide +kernel), by decide +kernel⟩

theorem met_AuxOutputs_14 : ∃ (s : State) (a : Nat), Live s ∧ a < 64 :=
  ⟨b0, 63, live_of (by decide +kernel), by decide +kernel⟩

/-! ### ColonyDecisions -/

theorem met_ColonyDecisions_1 : ∃ (s : State) (x : Held) (h : Hdr) (m : DWord) (l : Nat), Decides s x (.colConfig h m l) ∧ unitMode s = .bringUp ∧
    s.col.role = 1 :=
  ⟨{ b0 with md.mode := .bringUp, col.role := 1, held := [hd (.colConfig h0 (2 ^ 63 - 1) 2)] }, hd (.colConfig h0 (2 ^ 63 - 1) 2), h0, (2 ^ 63 - 1),
    2, decides_of (by decide +kernel), by decide +kernel⟩

theorem met_ColonyDecisions_2 : ∃ (s : State) (x : Held) (h : Hdr) (m : DWord) (l : Nat), Decides s x (.colConfig h m l) ∧ unitMode s ≠ .bringUp :=
  ⟨{ b0 with held := [hd (.colConfig h0 1 0)] }, hd (.colConfig h0 1 0), h0, 1, 0, decides_of (by decide +kernel), by decide +kernel⟩

theorem met_ColonyDecisions_3 : ∃ (s : State) (x : Held) (h : Hdr) (e m : Nat), Decides s x (.colSkewCal h e m) ∧ (unitMode s = .bringUp ∨
    unitMode s = .idle) ∧ workersQuiet s = true ∧ joinedPorts s ≠ [] :=
  ⟨{ b0 with md.mode := .bringUp, col.role := 1, col.starMask := 2 ^ 62, col.ports := [(63, { st := 3, stMode := 1 })], held := [hd (.colSkewCal h0 0 1)] },
    hd (.colSkewCal h0 0 1), h0, 0, 1, decides_of (by decide +kernel), by decide +kernel⟩

theorem met_ColonyDecisions_4 : ∃ (s : State) (x : Held) (h : Hdr) (e m : Nat), Decides s x (.colSkewCal h e m) ∧ (¬ ((unitMode s = .bringUp ∨
    unitMode s = .idle) ∧ workersQuiet s = true)) :=
  ⟨{ b0 with col.role := 1, held := [hd (.colSkewCal h0 0 0)] }, hd (.colSkewCal h0 0 0), h0, 0, 0, decides_of (by decide +kernel), by decide +kernel⟩

theorem met_ColonyDecisions_5 : ∃ (s : State) (x : Held) (h : Hdr) (d : Nat) (f : List Byte), Decides s x (.colTunnel h d 0 f) ∧
    pathDown s d 0 = false :=
  ⟨{ b0 with col.role := 1, col.starMask := 1, col.ports := [(1, { st := 3 })], held := [hd (.colTunnel h0 1 0 [])] }, hd (.colTunnel h0 1 0 []), h0,
    1, [], decides_of (by decide +kernel), by decide +kernel⟩

theorem met_ColonyDecisions_6 : ∃ (s : State) (x : Held) (h : Hdr) (d : Nat) (f : List Byte), Decides s x (.colTunnel h d 1 f) ∧
    pathDown s d 1 = false :=
  ⟨{ b0 with col.role := 1, col.dnState := 2, held := [hd (.colTunnel h0 1 1 [])] }, hd (.colTunnel h0 1 1 []), h0, 1, [],
    decides_of (by decide +kernel), by decide +kernel⟩

theorem met_ColonyDecisions_7 : ∃ (s : State) (x : Held) (h : Hdr) (d p : Nat) (f : List Byte), Decides s x (.colTunnel h d p f) ∧
    pathDown s d p = true :=
  ⟨{ b0 with held := [hd (.colTunnel h0 1 0 [])] }, hd (.colTunnel h0 1 0 []), h0, 1, 0, [], decides_of (by decide +kernel), by decide +kernel⟩

theorem met_ColonyDecisions_8 : ∃ (s : State) (x : Held) (h : Hdr) (m : DWord), Decides s x (.colClear h m) :=
  ⟨{ b0 with held := [hd (.colClear h0 1)] }, hd (.colClear h0 1), h0, 1, decides_of (by decide +kernel)⟩

theorem met_ColonyDecisions_9 : ∃ (s : State) (x : Held) (h : Hdr) (m : DWord) (w : Nat), Decides s x (.colWake h m w) :=
  ⟨{ b0 with held := [hd (.colWake h0 1 0)] }, hd (.colWake h0 1 0), h0, 1, 0, decides_of (by decide +kernel)⟩

/-! ### ColonyFrames -/

theorem met_ColonyFrames_1 : ∃ (s : State) (k : Nat) (f : ColFrame) (c : Instr), Live s ∧ k < 64 ∧ (starPort s k = false ∨ inRetain s = true) ∧
    (c = .idleFrame k f ∨ c = .timeFrame k f ∨ c = .eventFrame k f ∨ c = .swarmFrame k f ∨ c = .statusFrame k f ∨ c = .join k f ∨
    c = .horizonFrame k f ∨ c = .correct k f ∨ c = .wakeFrame k f ∨ c = .tunnelFrame k f ∨ c = .swarmCal k f true ∨ c = .swarmCal k f false) :=
  ⟨b0, 63, (fr 0 0), (.idleFrame 63 (fr 0 0)), live_of (by decide +kernel), by decide +kernel⟩

theorem met_ColonyFrames_2 : ∃ (s : State) (k : Nat) (f : ColFrame) (c : Instr), Live s ∧ k < 64 ∧ starPort s k = true ∧ inRetain s = false ∧
    (portAt s k).st < 2 ∧ frameCrcOk f = true ∧ (c = .idleFrame k f ∨ c = .timeFrame k f ∨ c = .eventFrame k f ∨ c = .swarmFrame k f ∨
    c = .statusFrame k f ∨ c = .join k f ∨ c = .horizonFrame k f ∨ c = .correct k f ∨ c = .wakeFrame k f ∨ c = .tunnelFrame k f ∨
    c = .swarmCal k f true ∨ c = .swarmCal k f false) :=
  ⟨{ b0 with col.role := 2, col.ports := [(0, { good := 64 })] }, 0, (fr 0 0), (.idleFrame 0 (fr 0 0)), live_of (by decide +kernel),
    by decide +kernel⟩

theorem met_ColonyFrames_3 : ∃ (s : State) (k : Nat) (f : ColFrame) (c : Instr), Live s ∧ k < 64 ∧ starPort s k = true ∧ inRetain s = false ∧
    frameCrcOk f = false ∧ (portAt s k).bad < 7 ∧ (c = .idleFrame k f ∨ c = .timeFrame k f ∨ c = .eventFrame k f ∨ c = .swarmFrame k f ∨
    c = .statusFrame k f ∨ c = .join k f ∨ c = .horizonFrame k f ∨ c = .correct k f ∨ c = .wakeFrame k f ∨ c = .tunnelFrame k f ∨
    c = .swarmCal k f true ∨ c = .swarmCal k f false) :=
  ⟨{ b0 with col.role := 2, col.ports := [(0, { st := 2 })] }, 0, ⟨0, 0, 1⟩, (.idleFrame 0 ⟨0, 0, 1⟩), live_of (by decide +kernel), by decide +kernel⟩

theorem met_ColonyFrames_4 : ∃ (s : State) (k : Nat) (f : ColFrame), Live s ∧ k < 64 ∧ starPort s k = true ∧ inRetain s = false ∧
    2 ≤ (portAt s k).st ∧ frameCrcOk f = true ∧ plain f 0 [(0, 128)] = true :=
  ⟨{ b0 with col.role := 1, col.starMask := 2 ^ 62, col.ports := [(63, { st := 3 })] }, 63, (fr 0 0), live_of (by decide +kernel), by decide +kernel⟩

theorem met_ColonyFrames_5 : ∃ (s : State) (k : Nat) (f : ColFrame), Live s ∧ k < 64 ∧ starPort s k = true ∧ inRetain s = false ∧
    2 ≤ (portAt s k).st ∧ frameCrcOk f = true ∧ plain f 1 [(96, 32)] = true ∧ s.col.role = 2 ∧ s.time.ready = false :=
  ⟨{ b0 with time := {}, col.role := 2, col.ports := [(0, { st := 2 })] }, 0, (fr 1 0), live_of (by decide +kernel), by decide +kernel⟩

theorem met_ColonyFrames_6 : ∃ (s : State) (k : Nat) (f : ColFrame), Live s ∧ k < 64 ∧ starPort s k = true ∧ inRetain s = false ∧
    2 ≤ (portAt s k).st ∧ frameCrcOk f = true ∧ plain f 1 [(96, 32)] = true ∧ s.col.role = 2 ∧ s.time.ready = true ∧ ownSlot s ≠ pay f 0 60 ∧
    (fltAt s .col).mask.getLsbD 4 = false :=
  ⟨{ b0 with col.role := 2, col.ports := [(0, { st := 2 })] }, 0, (fr 1 0), live_of (by decide +kernel), by decide +kernel⟩

theorem met_ColonyFrames_7 : ∃ (s : State) (k : Nat) (f : ColFrame), Live s ∧ k < 64 ∧ starPort s k = true ∧ inRetain s = false ∧
    2 ≤ (portAt s k).st ∧ frameCrcOk f = true ∧ plain f 0x06 [(6, 122)] = true ∧ s.col.role = 2 :=
  ⟨{ b0 with col.role := 2, col.ports := [(0, { st := 2 })] }, 0, (fr 6 0), live_of (by decide +kernel), by decide +kernel⟩

theorem met_ColonyFrames_8 : ∃ (s : State) (k : Nat) (f : ColFrame), Live s ∧ k < 64 ∧ starPort s k = true ∧ inRetain s = false ∧
    2 ≤ (portAt s k).st ∧ frameCrcOk f = true ∧ plain f 0x16 [(12, 4), (76, 52)] = true ∧ s.col.role = 2 :=
  ⟨{ b0 with col.role := 2, col.ports := [(0, { st := 2 })] }, 0, (fr 0x16 40), live_of (by decide +kernel), by decide +kernel⟩

theorem met_ColonyFrames_9 : ∃ (s : State) (k : Nat) (f : ColFrame), Live s ∧ k < 64 ∧ starPort s k = true ∧ inRetain s = false ∧
    2 ≤ (portAt s k).st ∧ frameCrcOk f = true ∧ plain f 0x26 [(32, 96)] = true ∧ s.col.role = 2 ∧ s.time.ready = false :=
  ⟨{ b0 with time := {}, col.role := 2, col.ports := [(0, { st := 2 })] }, 0, (fr 0x26 5), live_of (by decide +kernel), by decide +kernel⟩

theorem met_ColonyFrames_10 : ∃ (s : State) (k : Nat) (f : ColFrame), Live s ∧ k < 64 ∧ starPort s k = true ∧ inRetain s = false ∧
    2 ≤ (portAt s k).st ∧ frameCrcOk f = true ∧ plain f 0x26 [(32, 96)] = true ∧ s.col.role = 2 ∧ s.time.ready = true :=
  ⟨{ b0 with col.role := 2, col.ports := [(0, { st := 2 })] }, 0, (fr 0x26 5), live_of (by decide +kernel), by decide +kernel⟩

theorem met_ColonyFrames_11 : ∃ (s : State) (k : Nat) (f : ColFrame), Live s ∧ k < 64 ∧ starPort s k = true ∧ inRetain s = false ∧
    2 ≤ (portAt s k).st ∧ frameCrcOk f = true ∧ plain f 5 [(9, 7), (27, 5), (92, 36)] = true ∧ s.col.role = 1 :=
  ⟨{ b0 with col.role := 1, col.starMask := 2 ^ 62, col.ports := [(63, { st := 3 })] }, 63, (fr 5 0), live_of (by decide +kernel), by decide +kernel⟩

theorem met_ColonyFrames_12 : ∃ (s : State) (k : Nat) (f : ColFrame), Live s ∧ k < 64 ∧ starPort s k = true ∧ inRetain s = false ∧
    2 ≤ (portAt s k).st ∧ frameCrcOk f = true ∧ plain f 0x04 [(60, 68)] = true ∧ s.col.role = 2 :=
  ⟨{ b0 with col.role := 2, col.ports := [(0, { st := 2 })] }, 0, (fr 4 0), live_of (by decide +kernel), by decide +kernel⟩

theorem met_ColonyFrames_13 : ∃ (s : State) (k : Nat) (f : ColFrame), Live s ∧ k < 64 ∧ starPort s k = true ∧ inRetain s = false ∧
    2 ≤ (portAt s k).st ∧ frameCrcOk f = true ∧ plain f 0x14 [(60, 4), (108, 20)] = true ∧ s.col.role = 1 ∧ (portAt s k).acquiring = false ∧
    s.col.run = none :=
  ⟨{ b0 with col.role := 1, col.starMask := 2 ^ 62, col.ports := [(63, { st := 3 })] }, 63, (fr 0x14 0), live_of (by decide +kernel),
    by decide +kernel⟩

theorem met_ColonyFrames_14 : ∃ (s : State) (k : Nat) (f : ColFrame), Live s ∧ k < 64 ∧ starPort s k = true ∧ inRetain s = false ∧
    2 ≤ (portAt s k).st ∧ frameCrcOk f = true ∧ plain f 0x14 [(60, 4), (108, 20)] = true ∧ s.col.role = 1 ∧ (portAt s k).acquiring = true ∧
    (portAt s k).answers = 63 :=
  ⟨{ b0 with col.role := 1, col.starMask := 2 ^ 62, col.ports := [(63, { st := 3, acquiring := true, answers := 63 })] }, 63, (fr 0x14 0),
    live_of (by decide +kernel), by decide +kernel⟩

theorem met_ColonyFrames_15 : ∃ (s : State) (k : Nat) (f : ColFrame), Live s ∧ k < 64 ∧ starPort s k = true ∧ inRetain s = false ∧
    2 ≤ (portAt s k).st ∧ frameCrcOk f = true ∧ plain f 0x36 [(64, 64)] = true ∧ s.col.role = 2 :=
  ⟨{ b0 with col.role := 2, col.ports := [(0, { st := 2 })] }, 0, (fr 0x36 0), live_of (by decide +kernel), by decide +kernel⟩

theorem met_ColonyFrames_16 : ∃ (s : State) (k : Nat) (f : ColFrame), Live s ∧ k < 64 ∧ starPort s k = true ∧ inRetain s = false ∧
    2 ≤ (portAt s k).st ∧ frameCrcOk f = true ∧ plain f 2 [(60, 4), (77, 3), (102, 26)] = true ∧ s.time.ready = true ∧ wagCarries s = true ∧
    s.md.mode ≠ .replay ∧ s.col.suspended = false ∧ s.col.role = 2 ∧ pay f 96 6 ≠ s.col.devnum ∧ chanFwd (chanAt s (pay f 64 9)) = true ∧
    chanEnabled (chanAt s (pay f 64 9)) = true :=
  ⟨{ b0 with col.role := 2, chans := [(0, { entry := 0x210000 })], col.ports := [(0, { st := 2 })] }, 0, (fr 2 (1 <<< 96)),
    live_of (by decide +kernel), by decide +kernel⟩

theorem met_ColonyFrames_17 : ∃ (s : State) (k : Nat) (f : ColFrame), Live s ∧ k < 64 ∧ starPort s k = true ∧ inRetain s = false ∧
    2 ≤ (portAt s k).st ∧ frameCrcOk f = true ∧ plain f 2 [(60, 4), (77, 3), (102, 26)] = true ∧ pay f 96 6 = s.col.devnum :=
  ⟨{ b0 with col.role := 2, col.ports := [(0, { st := 2 })] }, 0, (fr 2 0), live_of (by decide +kernel), by decide +kernel⟩

theorem met_ColonyFrames_18 : ∃ (s : State) (k : Nat) (f : ColFrame), Live s ∧ k < 64 ∧ starPort s k = true ∧ inRetain s = false ∧
    2 ≤ (portAt s k).st ∧ frameCrcOk f = true ∧ plain f 3 [(124, 4)] = true ∧ s.col.role ≠ 2 :=
  ⟨{ b0 with col.role := 1, col.starMask := 2 ^ 62, col.ports := [(63, { st := 3 })] }, 63, (fr 3 0), live_of (by decide +kernel), by decide +kernel⟩

theorem met_ColonyFrames_19 : ∃ (s : State) (k : Nat) (f : ColFrame), Live s ∧ k < 64 ∧ starPort s k = true ∧ inRetain s = false ∧
    2 ≤ (portAt s k).st ∧ frameCrcOk f = true ∧ plain f 0x46 [(60, 68)] = true ∧ s.col.role = 2 ∧ s.md.mode = .standby ∧ s.md.power = 2 ∧
    s.sec.wakeColony = true ∧ s.sec.waking = false :=
  ⟨{ b0 with md.mode := .standby, md.power := 2, sec.wakeColony := true, col.role := 2, col.ports := [(0, { st := 2 })] }, 0, (fr 0x46 0),
    live_of (by decide +kernel), by decide +kernel⟩

theorem met_ColonyFrames_20 : ∃ (s : State) (k : Nat) (f : ColFrame), Live s ∧ k < 64 ∧ starPort s k = true ∧ inRetain s = false ∧
    2 ≤ (portAt s k).st ∧ frameCrcOk f = true ∧ bits f.hdr.toNat 0 4 = 7 ∧ bitOf f.hdr.toNat 7 = false ∧ bits f.hdr.toNat 4 2 = 0 :=
  ⟨{ b0 with col.role := 1, col.starMask := 2 ^ 62, col.ports := [(63, { st := 3 })] }, 63, (fr 7 0), live_of (by decide +kernel), by decide +kernel⟩

theorem met_ColonyFrames_21 : ∃ (s : State) (f : ColFrame), Live s ∧ inRetain s = false ∧ 2 ≤ s.col.upState ∧ frameCrcOk f = true ∧
    bits f.hdr.toNat 0 4 = 8 ∧ bits f.hdr.toNat 4 3 = 6 ∧ pay f 12 20 = 0 ∧ pay f 32 96 = 0 :=
  ⟨{ b0 with col.upState := 2 }, (fr 0x68 0), live_of (by decide +kernel), by decide +kernel⟩

/-! ### ColonyEvents -/

theorem met_ColonyEvents_1 : ∃ (s : State) (k : Nat), Live s ∧ k < 64 ∧ starPort s k = true ∧ (portAt s k).st < 2 ∧ 64 ≤ (portAt s k).good ∧
    s.col.role = 2 :=
  ⟨{ b0 with col.role := 2, col.ports := [(0, { good := 64 })] }, 0, live_of (by decide +kernel), by decide +kernel⟩

theorem met_ColonyEvents_2 : ∃ (s : State) (k : Nat), Live s ∧ k < 64 ∧ starPort s k = true ∧ (portAt s k).st < 2 ∧ 64 ≤ (portAt s k).good ∧
    s.col.role = 1 :=
  ⟨{ b0 with col.role := 1, col.starMask := 2 ^ 62, col.ports := [(63, { good := 64 })] }, 63, live_of (by decide +kernel), by decide +kernel⟩

theorem met_ColonyEvents_3 : ∃ (s : State) (k : Nat), Live s ∧ k < 66 ∧ portState s k < 2 ∧ (portAt s k).good < 64 :=
  ⟨b0, 65, live_of (by decide +kernel), by decide +kernel⟩

theorem met_ColonyEvents_4 : ∃ (s : State) (k : Nat) (f : ColFrame) (c : Instr), Live s ∧ k < 64 ∧ starPort s k = true ∧ inRetain s = false ∧
    frameCrcOk f = false ∧ (portAt s k).bad = 7 ∧ 2 ≤ (portAt s k).st ∧ (fltAt s .col).mask.getLsbD 0 = false ∧ (c = .idleFrame k f ∨
    c = .timeFrame k f ∨ c = .eventFrame k f ∨ c = .swarmFrame k f ∨ c = .statusFrame k f) :=
  ⟨{ b0 with col.role := 2, col.ports := [(0, { st := 2, bad := 7 })] }, 0, ⟨0, 0, 1⟩, (.idleFrame 0 ⟨0, 0, 1⟩), live_of (by decide +kernel),
    by decide +kernel⟩

theorem met_ColonyEvents_5 : ∃ (s : State) (k : Nat), Live s ∧ k < 64 ∧ 2 ≤ (portAt s k).st ∧ (fltAt s .col).mask.getLsbD 0 = false :=
  ⟨{ b0 with col.ports := [(63, { st := 2, bad := 3 })] }, 63, live_of (by decide +kernel), by decide +kernel⟩

theorem met_ColonyEvents_6 : ∃ (s : State) (k : Nat), Live s ∧ k < 66 ∧ s.time.tick % 8 = 0 ∧ inRetain s = false ∧ portState s k < 2 :=
  ⟨b0, 65, live_of (by decide +kernel), by decide +kernel⟩

theorem met_ColonyEvents_7 : ∃ (s : State) (k : Nat), Live s ∧ k < 66 ∧ (s.time.tick % 8 ≠ 0 ∨ inRetain s = true) :=
  ⟨{ b0 with time.tick := 1000001 }, 65, live_of (by decide +kernel), by decide +kernel⟩

theorem met_ColonyEvents_8 : ∃ (s : State) (f : DueFrame), Live s ∧ s.time.tick % 8 = 0 ∧ inRetain s = false ∧ s.col.role = 2 ∧ (portAt s 0).st = 2 ∧
    (portAt s 0).due = [f] ∧ f.since ≤ s.time.tick ∧ f.hdr ≠ 2 ∧ f.frees = none :=
  ⟨{ b0 with col.role := 2, col.ports := [(0, { st := 2, due := [⟨3, 3, 0, 0, 0, 0, none⟩] })] }, ⟨3, 3, 0, 0, 0, 0, none⟩,
    live_of (by decide +kernel), by decide +kernel⟩

theorem met_ColonyEvents_9 : ∃ s : State, Live s ∧ s.col.slew ≠ 0 ∧ s.time.ready = true ∧ s.col.lastSlew + 1024 ≤ s.time.tick ∧
    (s.col.corr + (if 0 < s.col.slew then 1 else -1)).natAbs ≤ 128 :=
  ⟨{ b0 with col.slew := -1, col.corr := -127 }, live_of (by decide +kernel), by decide +kernel⟩

theorem met_ColonyEvents_10 : ∃ (s : State) (x : Held) (h : Hdr) (d p : Nat) (f : List Byte) (w : List Held), Live s ∧ (Oldest s (fun c => ∃ h d p f,
    c = .colTunnel h d p f) x w) ∧ x.cmd = .colTunnel h d p f ∧ x.dec + 1000000 ≤ s.time.tick :=
  ⟨{ b0 with time.tick := 2000000, works := [hd (.colTunnel h0 1 0 [])] }, hd (.colTunnel h0 1 0 []), h0, 1, 0, [], [], live_of (by decide +kernel),
    oldest_head rfl (by decide +kernel) (by simp [hd]), rfl, by decide +kernel⟩

theorem met_ColonyEvents_11 : ∃ (s : State) (x : Held) (h : Hdr) (e m : Nat) (w : List Held) (r : SkewRun), Live s ∧ (Oldest s (fun c => ∃ h e m,
    c = .colSkewCal h e m) x w) ∧ x.cmd = .colSkewCal h e m ∧ s.col.run = some r ∧ r.service = false ∧ linesDone r = true ∧ compTooLong s r = false :=
  ⟨{ b0 with col.role := 1, col.run := some ⟨3, 256, [], [], [], false⟩, works := [hd (.colSkewCal h0 0 0)] }, hd (.colSkewCal h0 0 0), h0, 0, 0, [],
    ⟨3, 256, [], [], [], false⟩, live_of (by decide +kernel), oldest_head rfl (by decide +kernel) (by simp [hd]), rfl, rfl, by decide +kernel⟩

theorem met_ColonyEvents_12 : ∃ (s : State) (x : Held) (h : Hdr) (e m : Nat) (w : List Held) (r : SkewRun) (b : Bool), Live s ∧
    (Oldest s (fun c => ∃ h e m, c = .colSkewCal h e m) x w) ∧ x.cmd = .colSkewCal h e m ∧ s.col.run = some r ∧ r.service = false ∧ (r.phase = 5 ∨
    skewStuck s b r = true) :=
  ⟨{ b0 with col.role := 1, col.run := some ⟨1, 256, [63], [], [], false⟩, col.ports := [(63, { st := 3 })], works := [hd (.colSkewCal h0 0 0)] },
    hd (.colSkewCal h0 0 0), h0, 0, 0, [], ⟨1, 256, [63], [], [], false⟩, true, live_of (by decide +kernel),
    oldest_head rfl (by decide +kernel) (by simp [hd]), rfl, rfl, by decide +kernel⟩

theorem met_ColonyEvents_13 : ∃ (s : State) (l : Nat) (e : HeldEdge), Live s ∧ l < 16 ∧ s.col.heldEdges = [e] ∧ e.line = l ∧ e.kept = false ∧
    edgeWindow e + 19 + s.col.dMax ≤ s.time.tick :=
  ⟨{ b0 with col.heldEdges := [⟨15, true, 900000, 14399999, false⟩] }, 15, ⟨15, true, 900000, 14399999, false⟩, live_of (by decide +kernel),
    by decide +kernel⟩

/-! ### SecurityDecisions -/

theorem met_SecurityDecisions_1 : ∃ (s : State) (x : Held) (h : Hdr) (k en se : Nat), Decides s x (.ctxSet h k en se) ∧ 0 < k ∧ k < 16 ∧
    ctxHolds s k en se = false :=
  ⟨{ b0 with held := [hd (.ctxSet h0 15 1 1)] }, hd (.ctxSet h0 15 1 1), h0, 15, 1, 1, decides_of (by decide +kernel), by decide +kernel⟩

theorem met_SecurityDecisions_2 : ∃ (s : State) (x : Held) (h : Hdr) (k en se : Nat), Decides s x (.ctxSet h k en se) ∧ ctxHolds s k en se = true :=
  ⟨{ b0 with cellOwn := [(0, ⟨1, false⟩)], held := [hd (.ctxSet h0 1 0 0)] }, hd (.ctxSet h0 1 0 0), h0, 1, 0, 0, decides_of (by decide +kernel),
    by decide +kernel⟩

theorem met_SecurityDecisions_3 : ∃ (s : State) (x : Held) (h : Hdr) (f n o se : Nat), Decides s x (.ownSet h 0 f n o se) ∧
    (upFrom n f).any (ownUsed s 0) = false :=
  ⟨{ b0 with held := [hd (.ownSet h0 0 1023 1 15 0)] }, hd (.ownSet h0 0 1023 1 15 0), h0, 1023, 1, 15, 0, decides_of (by decide +kernel),
    by decide +kernel⟩

theorem met_SecurityDecisions_4 : ∃ (s : State) (x : Held) (h : Hdr) (f n o se : Nat), Decides s x (.ownSet h 1 f n o se) ∧
    (upFrom n f).any (ownUsed s 1) = false :=
  ⟨{ b0 with held := [hd (.ownSet h0 1 63 1 15 0)] }, hd (.ownSet h0 1 63 1 15 0), h0, 63, 1, 15, 0, decides_of (by decide +kernel),
    by decide +kernel⟩

theorem met_SecurityDecisions_5 : ∃ (s : State) (x : Held) (h : Hdr) (k f n o se : Nat), Decides s x (.ownSet h k f n o se) ∧
    (upFrom n f).any (ownUsed s k) = true :=
  ⟨{ b0 with cells := [(5, { st := .bound })], held := [hd (.ownSet h0 0 5 1 1 0)] }, hd (.ownSet h0 0 5 1 1 0), h0, 0, 5, 1, 1, 0,
    decides_of (by decide +kernel), by decide +kernel⟩

theorem met_SecurityDecisions_6 : ∃ (s : State) (x : Held) (h : Hdr) (f n : Nat), Decides s x (.ownRead h 0 f n) :=
  ⟨{ b0 with held := [hd (.ownRead h0 0 0 256)] }, hd (.ownRead h0 0 0 256), h0, 0, 256, decides_of (by decide +kernel)⟩

theorem met_SecurityDecisions_7 : ∃ (s : State) (x : Held) (h : Hdr) (f n : Nat), Decides s x (.ownRead h 1 f n) :=
  ⟨{ b0 with held := [hd (.ownRead h0 1 63 1)] }, hd (.ownRead h0 1 63 1), h0, 63, 1, decides_of (by decide +kernel)⟩

theorem met_SecurityDecisions_8 : ∃ (s : State) (x : Held) (h : Hdr) (e : Word) (l : BitVec 16) (c w : Nat), Decides s x (.wakeSet h e l c w) ∧
    s.md.mode ≠ .standby :=
  ⟨{ b0 with held := [hd (.wakeSet h0 1 1 1 0)] }, hd (.wakeSet h0 1 1 1 0), h0, 1, 1, 1, 0, decides_of (by decide +kernel), by decide +kernel⟩

theorem met_SecurityDecisions_9 : ∃ (s : State) (x : Held) (h : Hdr) (e : Word) (l : BitVec 16) (c w : Nat), Decides s x (.wakeSet h e l c w) ∧
    s.md.mode = .standby :=
  ⟨{ b0 with md.mode := .standby, held := [hd (.wakeSet h0 1 0 0 0)] }, hd (.wakeSet h0 1 0 0 0), h0, 1, 0, 0, 0, decides_of (by decide +kernel),
    by decide +kernel⟩

/-! ### LifecycleDecisions -/

theorem met_LifecycleDecisions_1 : ∃ (s : State) (x : Held) (h : Hdr) (n c : Nat), Decides s x (.lcAdvance h n c) ∧ (s.md.mode = .bringUp ∨
    s.md.mode = .idle) ∧ lcErr s n c = none :=
  ⟨{ b0 with md.mode := .idle, dev.lifecycle := 1, held := [hd (.lcAdvance h0 2 0)] }, hd (.lcAdvance h0 2 0), h0, 2, 0,
    decides_of (by decide +kernel), by decide +kernel⟩

theorem met_LifecycleDecisions_2 : ∃ (s : State) (x : Held) (h : Hdr) (n c : Nat) (e : Err), Decides s x (.lcAdvance h n c) ∧ lcErr s n c = some e ∧
    (s.md.mode = .bringUp ∨ s.md.mode = .idle) :=
  ⟨{ b0 with md.mode := .idle, held := [hd (.lcAdvance h0 3 0)] }, hd (.lcAdvance h0 3 0), h0, 3, 0, .auth, decides_of (by decide +kernel), rfl,
    by decide +kernel⟩

theorem met_LifecycleDecisions_3 : ∃ (s : State) (x : Held) (h : Hdr) (l : Nat), Decides s x (.dbgOpen h l) ∧ needsAuth s l = false ∧
    inRetain s = false :=
  ⟨{ b0 with held := [hd (.dbgOpen h0 1)] }, hd (.dbgOpen h0 1), h0, 1, decides_of (by decide +kernel), by decide +kernel⟩

theorem met_LifecycleDecisions_4 : ∃ (s : State) (x : Held) (h : Hdr) (l : Nat), Decides s x (.dbgOpen h l) ∧ needsAuth s l = true :=
  ⟨{ b0 with held := [hd (.dbgOpen h0 2)] }, hd (.dbgOpen h0 2), h0, 2, decides_of (by decide +kernel), by decide +kernel⟩

theorem met_LifecycleDecisions_5 : ∃ (s : State) (x : Held) (h : Hdr) (r : BitVec 256) (m : Nat) (n : BitVec 128) (e : Nat),
    Decides s x (.dbgResponse h r m) ∧ r = Config.hmac n s.dev.serial m ∧ s.sec.nonce = some (n, e) ∧ s.dev.keyLocked = false :=
  ⟨{ b0 with sec.nonce := some (5, 7), held := [hd (.dbgResponse h0 (Config.hmac 5 0 1440) 1440)] }, hd (.dbgResponse h0 (Config.hmac 5 0 1440) 1440),
    h0, (Config.hmac 5 0 1440), 1440, 5, 7, ⟨live_of (by decide +kernel), rfl, by decide, rfl, by decide +kernel, by decide +kernel⟩, rfl,
    by decide +kernel⟩

theorem met_LifecycleDecisions_6 : ∃ (s : State) (x : Held) (h : Hdr) (r : BitVec 256) (m : Nat) (n : BitVec 128) (e : Nat),
    Decides s x (.dbgResponse h r m) ∧ s.sec.nonce = some (n, e) ∧ (s.dev.keyLocked = true ∨ r ≠ Config.hmac n s.dev.serial m) ∧
    s.sec.authFails < 2 :=
  ⟨{ b0 with dev.keyLocked := true, sec.authFails := 1, sec.nonce := some (5, 7), held := [hd (.dbgResponse h0 0 1)] }, hd (.dbgResponse h0 0 1), h0,
    0, 1, 5, 7, decides_of (by decide +kernel), by decide +kernel⟩

theorem met_LifecycleDecisions_7 : ∃ (s : State) (x : Held) (h : Hdr) (r : BitVec 256) (m : Nat) (n : BitVec 128) (e : Nat),
    Decides s x (.dbgResponse h r m) ∧ s.sec.nonce = some (n, e) ∧ (s.dev.keyLocked = true ∨ r ≠ Config.hmac n s.dev.serial m) ∧
    2 ≤ s.sec.authFails :=
  ⟨{ b0 with dev.keyLocked := true, sec.authFails := 2, sec.nonce := some (5, 7), held := [hd (.dbgResponse h0 0 1)] }, hd (.dbgResponse h0 0 1), h0,
    0, 1, 5, 7, decides_of (by decide +kernel), by decide +kernel⟩

theorem met_LifecycleDecisions_8 : ∃ (s : State) (x : Held) (h : Hdr), Decides s x (.dbgClose h) :=
  ⟨{ b0 with held := [hd (.dbgClose h0)] }, hd (.dbgClose h0), h0, decides_of (by decide +kernel)⟩

theorem met_LifecycleDecisions_9 : ∃ (s : State) (x : Held) (h : Hdr) (o n : Nat), Decides s x (.dbgTraceRead h o n) ∧ s.sec.dbg ≠ 0 :=
  ⟨{ b0 with sec.dbg := 1, held := [hd (.dbgTraceRead h0 0 1)] }, hd (.dbgTraceRead h0 0 1), h0, 0, 1, decides_of (by decide +kernel),
    by decide +kernel⟩

theorem met_LifecycleDecisions_10 : ∃ (s : State) (x : Held) (h : Hdr) (o n : Nat), Decides s x (.dbgTraceRead h o n) ∧ s.sec.dbg = 0 :=
  ⟨{ b0 with held := [hd (.dbgTraceRead h0 0 1)] }, hd (.dbgTraceRead h0 0 1), h0, 0, 1, decides_of (by decide +kernel), by decide +kernel⟩

/-! ### ServiceDecisions -/

theorem met_ServiceDecisions_1 : ∃ (s : State) (x : Held) (h : Hdr) (k i a : Nat) (p : List Byte), Decides s x (.calWrite h k i a p) ∧
    s.svc.storeFull = false :=
  ⟨{ b0 with held := [hd (.calWrite h0 3 127 0 [])] }, hd (.calWrite h0 3 127 0 []), h0, 3, 127, 0, [], decides_of (by decide +kernel),
    by decide +kernel⟩

theorem met_ServiceDecisions_2 : ∃ (s : State) (x : Held) (h : Hdr) (k i a : Nat) (p : List Byte), Decides s x (.calWrite h k i a p) ∧
    s.svc.storeFull = true :=
  ⟨{ b0 with svc.storeFull := true, held := [hd (.calWrite h0 1 0 0 [])] }, hd (.calWrite h0 1 0 0 []), h0, 1, 0, 0, [],
    decides_of (by decide +kernel), by decide +kernel⟩

theorem met_ServiceDecisions_3 : ∃ (s : State) (x : Held) (h : Hdr) (k i a : Nat), Decides s x (.calErase h k i a) ∧ s.svc.storeFull = false :=
  ⟨{ b0 with held := [hd (.calErase h0 3 0 0)] }, hd (.calErase h0 3 0 0), h0, 3, 0, 0, decides_of (by decide +kernel), by decide +kernel⟩

theorem met_ServiceDecisions_4 : ∃ (s : State) (x : Held) (h : Hdr) (k i a : Nat), Decides s x (.calErase h k i a) ∧ s.svc.storeFull = true :=
  ⟨{ b0 with svc.storeFull := true, held := [hd (.calErase h0 3 0 0)] }, hd (.calErase h0 3 0 0), h0, 3, 0, 0, decides_of (by decide +kernel),
    by decide +kernel⟩

theorem met_ServiceDecisions_5 : ∃ (s : State) (x : Held) (h : Hdr) (g e k n : Nat), Decides s x (.bgsSet h g e k n) ∧
    4 * dflt 100000 n ≤ 5 * s.svc.maxErase ∧ s.svc.wearWarn = false :=
  ⟨{ b0 with svc.maxErase := 80000, held := [hd (.bgsSet h0 0 0 0 0)] }, hd (.bgsSet h0 0 0 0 0), h0, 0, 0, 0, 0, decides_of (by decide +kernel),
    by decide +kernel⟩

theorem met_ServiceDecisions_6 : ∃ (s : State) (x : Held) (h : Hdr) (g e k n : Nat), Decides s x (.bgsSet h g e k n) ∧
    (5 * s.svc.maxErase < 4 * dflt 100000 n ∨ s.svc.wearWarn = true) :=
  ⟨{ b0 with held := [hd (.bgsSet h0 20000 3600 86400 0)] }, hd (.bgsSet h0 20000 3600 86400 0), h0, 20000, 3600, 86400, 0,
    decides_of (by decide +kernel), by decide +kernel⟩

theorem met_ServiceDecisions_7 : ∃ (s : State) (x : Held) (h : Hdr) (f n : Nat), Decides s x (.telemRead h f n) :=
  ⟨{ b0 with held := [hd (.telemRead h0 27 1)] }, hd (.telemRead h0 27 1), h0, 27, 1, decides_of (by decide +kernel)⟩

theorem met_ServiceDecisions_8 : ∃ (s : State) (x : Held) (h : Hdr) (i : Nat) (c : List Nat) (l : Word) (a : DWord),
    Decides s x (.calStart h i c l a) ∧ (s.md.mode = .idle ∨ s.md.mode = .run) ∧
    (c.all (ownsCell (reached s x) x.ctx) && (maskAux a).all fun k => owns (reached s x) x.ctx (auxAt (reached s x) k).own) = true ∧
    calBusy (reached s x) c = false :=
  ⟨{ b0 with md.mode := .idle, held := [hd (.calStart h0 31 [1023] 0 0)] }, hd (.calStart h0 31 [1023] 0 0), h0, 31, [1023], 0, 0,
    decides_of (by decide +kernel), by decide +kernel⟩

theorem met_ServiceDecisions_9 : ∃ (s : State) (x : Held) (h : Hdr) (i : Nat) (c : List Nat) (l : Word) (a : DWord),
    Decides s x (.calStart h i c l a) ∧ (s.md.mode = .idle ∨ s.md.mode = .run) ∧
    (c.all (ownsCell (reached s x) x.ctx) && (maskAux a).all fun k => owns (reached s x) x.ctx (auxAt (reached s x) k).own) = false :=
  ⟨{ b0 with cellOwn := [(0, ⟨2, false⟩)], held := [{ hd (.calStart { h0 with ctx := 1 } 0 [0] 0 0) with ctx := 1 }] },
    { hd (.calStart { h0 with ctx := 1 } 0 [0] 0 0) with ctx := 1 }, { h0 with ctx := 1 }, 0, [0], 0, 0, decides_of (by decide +kernel),
    by decide +kernel⟩

theorem met_ServiceDecisions_10 : ∃ (s : State) (x : Held) (h : Hdr) (i : Nat) (c : List Nat) (l : Word) (a : DWord),
    Decides s x (.calStart h i c l a) ∧ s.md.mode ≠ .idle ∧ s.md.mode ≠ .run :=
  ⟨{ b0 with md.mode := .bringUp, held := [hd (.calStart h0 0 [] 0 0)] }, hd (.calStart h0 0 [] 0 0), h0, 0, [], 0, 0, decides_of (by decide +kernel),
    by decide +kernel⟩

theorem met_ServiceDecisions_11 : ∃ (s : State) (x : Held) (h : Hdr) (i : Nat) (c : List Nat) (l : Word) (a : DWord),
    Decides s x (.calStart h i c l a) ∧ (s.md.mode = .idle ∨ s.md.mode = .run) ∧
    (c.all (ownsCell (reached s x) x.ctx) && (maskAux a).all fun k => owns (reached s x) x.ctx (auxAt (reached s x) k).own) = true ∧
    calBusy (reached s x) c = true :=
  ⟨{ b0 with cells := [(0, { st := .armed, mRef := 2000000 })], held := [hd (.calStart h0 0 [0] 0 0)] }, hd (.calStart h0 0 [0] 0 0), h0, 0, [0], 0,
    0, decides_of (by decide +kernel), by decide +kernel⟩

/-! ### FaultDecisions -/

theorem met_FaultDecisions_1 : ∃ (s : State) (x : Held) (h : Hdr) (b : Nat) (k : Block) (m : Word) (r : Nat), Decides s x (.faultClear h b m r) ∧
    blockOf b = some k ∧ namesGrave (fltAt s k) m = false :=
  ⟨{ b0 with held := [hd (.faultClear h0 12 1 1)] }, hd (.faultClear h0 12 1 1), h0, 12, .spd, 1, 1, decides_of (by decide +kernel), rfl,
    by decide +kernel⟩

theorem met_FaultDecisions_2 : ∃ (s : State) (x : Held) (h : Hdr) (b : Nat) (k : Block) (m : Word) (r : Nat), Decides s x (.faultClear h b m r) ∧
    blockOf b = some k ∧ namesGrave (fltAt s k) m = true :=
  ⟨{ b0 with faults := [(7, { status := 1, classes := [(0, 3)] })], held := [hd (.faultClear h0 7 1 0)] }, hd (.faultClear h0 7 1 0), h0, 7, .tim, 1,
    0, decides_of (by decide +kernel), rfl, by decide +kernel⟩

theorem met_FaultDecisions_3 : ∃ (s : State) (x : Held) (h : Hdr) (b : Nat) (k : Block) (m : Word), Decides s x (.faultMaskSet h b m) ∧
    blockOf b = some k :=
  ⟨{ b0 with held := [hd (.faultMaskSet h0 0 1)] }, hd (.faultMaskSet h0 0 1), h0, 0, .cel, 1, decides_of (by decide +kernel), rfl⟩

theorem met_FaultDecisions_4 : ∃ (s : State) (x : Held) (h : Hdr) (b : Nat) (k : Block) (w r : Nat), Decides s x (.faultEscSet h b w r) ∧
    blockOf b = some k ∧ (fltAt s k).running = false :=
  ⟨{ b0 with held := [hd (.faultEscSet h0 12 0 1)] }, hd (.faultEscSet h0 12 0 1), h0, 12, .spd, 0, 1, decides_of (by decide +kernel), rfl,
    by decide +kernel⟩

theorem met_FaultDecisions_5 : ∃ (s : State) (x : Held) (h : Hdr) (b : Nat) (k : Block) (w r : Nat), Decides s x (.faultEscSet h b w r) ∧
    blockOf b = some k ∧ (fltAt s k).running = true :=
  ⟨{ b0 with faults := [(6, { running := true })], held := [hd (.faultEscSet h0 6 1 0)] }, hd (.faultEscSet h0 6 1 0), h0, 6, .lnk, 1, 0,
    decides_of (by decide +kernel), rfl, by decide +kernel⟩

theorem met_FaultDecisions_6 : ∃ (s : State) (x : Held) (h : Hdr) (m : Word), Decides s x (.restoreClear h m) :=
  ⟨{ b0 with held := [hd (.restoreClear h0 1)] }, hd (.restoreClear h0 1), h0, 1, decides_of (by decide +kernel)⟩

theorem met_FaultDecisions_7 : ∃ (s : State) (x : Held) (h : Hdr) (k b bit c o n : Nat), Decides s x (.faultInject h k b bit c o n) ∧
    s.md.mode ≠ .factory :=
  ⟨{ b0 with held := [hd (.faultInject h0 0 0 0 0 0 0)] }, hd (.faultInject h0 0 0 0 0 0 0), h0, 0, 0, 0, 0, 0, 0, decides_of (by decide +kernel),
    by decide +kernel⟩

theorem met_FaultDecisions_8 : ∃ (s : State) (x : Held) (h : Hdr) (b : Nat) (k : Block) (bit c o n : Nat),
    Decides s x (.faultInject h 0 b bit c o n) ∧ blockOf b = some k ∧ s.md.mode = .factory ∧ c < 3 ∧ bit < 32 ∧
    (((fltAt s k).mask.getLsbD bit = false ∨ c = 2)) :=
  ⟨{ b0 with md.mode := .factory, held := [hd (.faultInject h0 0 12 31 2 0 0)] }, hd (.faultInject h0 0 12 31 2 0 0), h0, 12, .spd, 31, 2, 0, 0,
    decides_of (by decide +kernel), rfl, by decide +kernel⟩

theorem met_FaultDecisions_9 : ∃ (s : State) (x : Held) (h : Hdr) (b : Nat) (k : Block) (bit o n : Nat), Decides s x (.faultInject h 0 b bit 3 o n) ∧
    blockOf b = some k ∧ s.md.mode = .factory ∧ bit < 32 ∧ s.grave.held = false :=
  ⟨{ b0 with md.mode := .factory, held := [hd (.faultInject h0 0 0 31 3 0 0)] }, hd (.faultInject h0 0 0 31 3 0 0), h0, 0, .cel, 31, 0, 0,
    decides_of (by decide +kernel), rfl, by decide +kernel⟩

theorem met_FaultDecisions_10 : ∃ (s : State) (x : Held) (h : Hdr) (b bit c o n : Nat), Decides s x (.faultInject h 1 b bit c o n) ∧
    s.md.mode = .factory :=
  ⟨{ b0 with md.mode := .factory, held := [hd (.faultInject h0 1 0 0 0 0 1)] }, hd (.faultInject h0 1 0 0 0 0 1), h0, 0, 0, 0, 0, 1,
    decides_of (by decide +kernel), by decide +kernel⟩

theorem met_FaultDecisions_11 : ∃ (s : State) (x : Held) (h : Hdr) (b bit c o n : Nat), Decides s x (.faultInject h 2 b bit c o n) ∧
    s.md.mode = .factory :=
  ⟨{ b0 with md.mode := .factory, held := [hd (.faultInject h0 2 0 0 0 0 1)] }, hd (.faultInject h0 2 0 0 0 0 1), h0, 0, 0, 0, 0, 1,
    decides_of (by decide +kernel), by decide +kernel⟩

theorem met_FaultDecisions_12 : ∃ (s : State) (x : Held) (h : Hdr) (b bit c o n : Nat), Decides s x (.faultInject h 3 b bit c o n) ∧
    s.md.mode = .factory :=
  ⟨{ b0 with md.mode := .factory, held := [hd (.faultInject h0 3 0 0 0 0 1)] }, hd (.faultInject h0 3 0 0 0 0 1), h0, 0, 0, 0, 0, 1,
    decides_of (by decide +kernel), by decide +kernel⟩

theorem met_FaultDecisions_13 : ∃ (s : State) (x : Held) (h : Hdr) (b bit c o n : Nat), Decides s x (.faultInject h 4 b bit c o n) ∧
    s.md.mode = .factory :=
  ⟨{ b0 with md.mode := .factory, held := [hd (.faultInject h0 4 0 0 0 0 1)] }, hd (.faultInject h0 4 0 0 0 0 1), h0, 0, 0, 0, 0, 1,
    decides_of (by decide +kernel), by decide +kernel⟩

/-! ### JournalDecisions -/

theorem met_JournalDecisions_1 : ∃ (s : State) (x : Held) (h : Hdr) (b n m p : Nat) (r : Word) (g : Nat), Decides s x (.jnlConfig h b n m p r g) ∧
    s.jnl.st = 0 ∧ spanReady s b n = true ∧ (s.md.mode = .bringUp ∨ s.md.mode = .idle) :=
  ⟨{ b0 with md.mode := .idle, dmcs := [(0, dm)], held := [hd (.jnlConfig h0 0 (2 ^ 26) 0 0 0 0)] }, hd (.jnlConfig h0 0 (2 ^ 26) 0 0 0 0), h0, 0,
    (2 ^ 26), 0, 0, 0, 0, decides_of (by decide +kernel), by decide +kernel⟩

theorem met_JournalDecisions_2 : ∃ (s : State) (x : Held) (h : Hdr) (b n m p : Nat) (r : Word) (g : Nat), Decides s x (.jnlConfig h b n m p r g) ∧
    s.jnl.st ≠ 0 :=
  ⟨{ b0 with jnl := jn 1, held := [hd (.jnlConfig h0 0 0 0 0 0 0)] }, hd (.jnlConfig h0 0 0 0 0 0 0), h0, 0, 0, 0, 0, 0, 0,
    decides_of (by decide +kernel), by decide +kernel⟩

theorem met_JournalDecisions_3 : ∃ (s : State) (x : Held) (h : Hdr), Decides s x (.jnlStop h) :=
  ⟨{ b0 with jnl := jn 1, held := [hd (.jnlStop h0)] }, hd (.jnlStop h0), h0, decides_of (by decide +kernel)⟩

theorem met_JournalDecisions_4 : ∃ (s : State) (x : Held) (h : Hdr), Decides s x (.jnlCkpt h) ∧ s.jnl.st = 1 :=
  ⟨{ b0 with jnl := jn 1, held := [hd (.jnlCkpt h0)] }, hd (.jnlCkpt h0), h0, decides_of (by decide +kernel), by decide +kernel⟩

theorem met_JournalDecisions_5 : ∃ (s : State) (x : Held) (h : Hdr), Decides s x (.jnlCkpt h) ∧ s.jnl.st ≠ 1 :=
  ⟨{ b0 with held := [hd (.jnlCkpt h0)] }, hd (.jnlCkpt h0), h0, decides_of (by decide +kernel), by decide +kernel⟩

theorem met_JournalDecisions_6 : ∃ (s : State) (x : Held) (h : Hdr) (f l : Nat) (d : Sel), Decides s x (.jnlExport h f l d) ∧
    exportErr s x.ctx f l d = none :=
  ⟨{ b0 with jnl := jn 1, held := [hd (.jnlExport h0 999000 999000 ⟨0, 0⟩)] }, hd (.jnlExport h0 999000 999000 ⟨0, 0⟩), h0, 999000, 999000, ⟨0, 0⟩,
    decides_of (by decide +kernel), by decide +kernel⟩

theorem met_JournalDecisions_7 : ∃ (s : State) (x : Held) (h : Hdr) (f l : Nat) (d : Sel) (e : Err), Decides s x (.jnlExport h f l d) ∧
    exportErr s x.ctx f l d = some e :=
  ⟨{ b0 with held := [hd (.jnlExport h0 0 0 ⟨0, 0⟩)] }, hd (.jnlExport h0 0 0 ⟨0, 0⟩), h0, 0, 0, ⟨0, 0⟩, .badArg, decides_of (by decide +kernel), rfl⟩

theorem met_JournalDecisions_8 : ∃ (s : State) (x : Held) (h : Hdr) (d : Sel), Decides s x (.jnlImport h d) ∧ s.jnl.st = 0 ∧ s.jnl.size ≠ 0 ∧
    s.md.mode = .idle :=
  ⟨{ b0 with jnl := jn 0, md.mode := .idle, held := [hd (.jnlImport h0 ⟨0, 0⟩)] }, hd (.jnlImport h0 ⟨0, 0⟩), h0, ⟨0, 0⟩,
    decides_of (by decide +kernel), by decide +kernel⟩

theorem met_JournalDecisions_9 : ∃ (s : State) (x : Held) (h : Hdr) (d : Sel), Decides s x (.jnlImport h d) ∧ (s.jnl.st ≠ 0 ∨ s.jnl.size = 0) :=
  ⟨{ b0 with jnl := jn 1, held := [hd (.jnlImport h0 ⟨0, 0⟩)] }, hd (.jnlImport h0 ⟨0, 0⟩), h0, ⟨0, 0⟩, decides_of (by decide +kernel),
    by decide +kernel⟩

/-! ### PowerEvents -/

theorem met_PowerEvents_1 : ∃ s : State, s.dev.powered = false :=
  ⟨{ b0 with dev.powered := false }, by decide +kernel⟩

theorem met_PowerEvents_2 : ∃ s : State, s.dev.powered = true :=
  ⟨b0, by decide +kernel⟩

theorem met_PowerEvents_3 : ∃ s : State, s.dev.powered = true ∧ s.dev.resetN = true :=
  ⟨b0, by decide +kernel⟩

theorem met_PowerEvents_4 : ∃ s : State, Canon s ∧ s.dev.powered = true ∧ s.dev.resetN = true :=
  ⟨b0, canon_of (by decide +kernel), by decide +kernel⟩

theorem met_PowerEvents_5 : ∃ (s : State) (r1 r0 : Bool), s.dev.powered = true ∧ s.dev.resetN = false ∧ s.dev.fresh = true ∧ (r1 && r0) = false :=
  ⟨{ b0 with dev.resetN := false, dev.fresh := true }, true, false, by decide +kernel⟩

theorem met_PowerEvents_6 : ∃ (s : State) (r1 r0 : Bool), s.dev.powered = true ∧ s.dev.resetN = false ∧ s.dev.fresh = false ∧ (r1 && r0) = false :=
  ⟨{ b0 with dev.resetN := false }, false, true, by decide +kernel⟩

theorem met_PowerEvents_7 : ∃ s : State, s.dev.powered = true ∧ s.dev.resetN = false ∧ (fltAt s .col).mask.getLsbD 10 = false ∧
    twf {} s.faults = true :=
  ⟨{ b0 with dev.resetN := false }, by decide +kernel⟩

/-! ### BringUpEvents -/

theorem met_BringUpEvents_1 : ∃ (s : State) (h : Nat), Live s ∧ h < nHives s ∧ (hiveAt s h).power = 2 ∧ (hiveAt s h).playReady = false :=
  ⟨{ b0 with hives := [(63, { power := 2, credits := 63 })] }, 63, live_of (by decide +kernel), by decide +kernel⟩

theorem met_BringUpEvents_2 : ∃ (s : State) (h : Nat), Live s ∧ h < nHives s ∧ (hiveAt s h).power = 2 ∧ (hiveAt s h).catchReady = false :=
  ⟨{ b0 with hives := [(63, { power := 2, playReady := true })] }, 63, live_of (by decide +kernel), by decide +kernel⟩

theorem met_BringUpEvents_3 : ∃ s : State, Live s :=
  ⟨b0, live_of (by decide +kernel)⟩

theorem met_BringUpEvents_4 : ∃ (s : State) (i : Nat) (v : ImgInfo), Live s ∧ s.kpr.ready = false ∧ s.kpr.st ≤ 1 ∧ bootImage s = some (i, v) :=
  ⟨{ b0 with kpr := { flash := true } }, 0, ⟨0x0100, 0, 1536⟩, live_of (by decide +kernel), by decide +kernel⟩

theorem met_BringUpEvents_5 : ∃ s : State, Live s ∧ s.kpr.ready = false ∧ s.kpr.st ≤ 1 ∧ bootImage s = none :=
  ⟨{ b0 with kpr := {} }, live_of (by decide +kernel), by decide +kernel⟩

theorem met_BringUpEvents_6 : ∃ s : State, Live s ∧ s.kpr.ready = true ∧ s.kpr.cal = false ∧ s.kpr.flash = true :=
  ⟨{ b0 with kpr.cal := false }, live_of (by decide +kernel), by decide +kernel⟩

theorem met_BringUpEvents_7 : ∃ s : State, Live s ∧ s.kpr.ready = true ∧ s.kpr.cal = false ∧ s.kpr.flash = false :=
  ⟨{ b0 with kpr.cal := false, kpr.flash := false }, live_of (by decide +kernel), by decide +kernel⟩

theorem met_BringUpEvents_8 : ∃ s : State, Live s :=
  ⟨b0, live_of (by decide +kernel)⟩

/-! ### PostedFrames -/

theorem met_PostedFrames_1 : ∃ (s : State) (c m : Nat), Live s ∧ c < 16 ∧ m < 4 ∧ refusesPost s c m = true :=
  ⟨{ b0 with mailboxes := [(63, { replyValid := true })] }, 15, 3, live_of (by decide +kernel), by decide +kernel⟩

theorem met_PostedFrames_2 : ∃ (s : State) (c m : Nat) (f : Frame), Live s ∧ f = parseFrame (fit 64 (mbAt s c m).cmd) ∧ c < 16 ∧ m < 4 ∧
    refusesPost s c m = false ∧ (mbAt s c m).asm = none ∧ f.crcOk = false :=
  ⟨b0, 15, 3, (parseFrame (fit 64 [])), live_of (by decide +kernel), rfl, by decide +kernel⟩

theorem met_PostedFrames_3 : ∃ (s : State) (c m : Nat) (f : Frame) (n : Nat), Live s ∧ f = parseFrame (fit 64 (mbAt s c m).cmd) ∧
    (formOf f.opcode f.args).map (framesNeeded f.opcode · f.args) = some n ∧ c < 16 ∧ m < 4 ∧ refusesPost s c m = false ∧ (mbAt s c m).asm = none ∧
    f.crcOk = true ∧ f.reservedOk = true ∧ f.cont = false ∧ f.ctx = c ∧ f.mb = m ∧ seqErr s c m f.seq = none ∧ f.opcode ≠ 0 ∧ f.frames = n ∧ n ≠ 0 :=
  ⟨{ b0 with mailboxes := [(0, { cmd := seg0 })] }, 0, 0, (parseFrame (fit 64 seg0)), 1, live_of (by decide +kernel), rfl, rfl, by decide +kernel⟩

theorem met_PostedFrames_4 : ∃ (s : State) (c m : Nat) (f : Frame) (i : Instr) (h : Hdr) (p : CSpec) (u : State), Live s ∧
    f = parseFrame (fit 64 (mbAt s c m).cmd) ∧ readCommand f (Config.shadowStale s.free) [] = some (i, false) ∧
    u = { (modMb s c m fun y => { y with refused := false }) with free := s.free + 1 } ∧ specOf i u = some (h, p) ∧
    h = hdrOf f (Config.shadowStale s.free) ∧ c < 16 ∧ m < 4 ∧ refusesPost s c m = false ∧ (mbAt s c m).asm = none ∧ f.crcOk = true ∧
    f.reservedOk = true ∧ f.cont = false ∧ f.ctx = c ∧ f.mb = m ∧ seqErr s c m f.seq = none ∧ f.frames = 0 ∧ ((f.opcode = 0 ∨
    (formOf f.opcode f.args).map (framesNeeded f.opcode · f.args) = some 0)) ∧ judgeErr u h p = none :=
  ⟨{ b0 with mailboxes := [(0, { cmd := frm [0, 0, 0, 0, 1, 0] })] }, 0, 0, (parseFrame (fit 64 (frm [0, 0, 0, 0, 1, 0]))),
    (.nop { h0 with stale := Config.shadowStale 0 } (List.replicate 42 0)), { h0 with stale := Config.shadowStale 0 }, _, _,
    live_of (by decide +kernel), rfl, rfl, rfl, rfl, rfl, by decide +kernel⟩

theorem met_PostedFrames_5 : ∃ (s : State) (c m : Nat) (a : Asm) (f g : Frame) (i : Instr) (h : Hdr) (p : CSpec) (u : State), Live s ∧
    (mbAt s c m).asm = some a ∧ f = parseFrame a.first ∧ g = parseFrame (fit 64 (mbAt s c m).cmd) ∧
    readCommand f (Config.shadowStale s.free) (a.data ++ g.data) = some (i, false) ∧
    u = { (modMb (modMb s c m fun y => { y with refused := false }) c m fun y => { y with asm := none, multi := false }) with free := s.free + 1 } ∧
    specOf i u = some (h, p) ∧ h = hdrOf f (Config.shadowStale s.free) ∧ c < 16 ∧ m < 4 ∧ refusesPost s c m = false ∧ g.crcOk = true ∧
    f.opcode ≠ 0x0B02 ∧ continues f g a.got = true ∧ f.frames = a.got + 1 ∧ f.ctx = c ∧ f.mb = m ∧ seqErr s c m f.seq = none ∧
    judgeErr u h p = none :=
  ⟨{ b0 with mailboxes := [(0, { cmd := seg1, asm := some ⟨seg0, [], 0, 900000⟩ })] }, 0, 0, ⟨seg0, [], 0, 900000⟩, (parseFrame seg0),
    (parseFrame (fit 64 seg1)), (.segLoad { h0 with stale := Config.shadowStale 0 } 0 1 [7]), { h0 with stale := Config.shadowStale 0 }, _, _,
    live_of (by decide +kernel), rfl, rfl, rfl, rfl, rfl, rfl, rfl, by decide +kernel⟩

theorem met_PostedFrames_6 : ∃ (f : Frame) (b : Bool) (d : List Byte) (i : Instr) (z : Bool) (h : Hdr) (p : CSpec) (s : State),
    readCommand f b d = some (i, z) ∧ specOf i s = some (h, p) :=
  ⟨(parseFrame seg0), false, [7], (.segLoad h0 0 1 [7]), false, h0, _, b0, rfl, rfl⟩

theorem met_PostedFrames_7 : ∃ (s : State) (c m : Nat) (a : Asm), Live s ∧ (mbAt s c m).asm = some a ∧ c < 16 ∧ m < 4 ∧ s.kpr.ready = true ∧
    a.tick + 1000000 ≤ s.time.tick :=
  ⟨{ b0 with mailboxes := [(63, { asm := some ⟨seg0, [], 0, 0⟩ })] }, 15, 3, ⟨seg0, [], 0, 0⟩, live_of (by decide +kernel), rfl, by decide +kernel⟩

theorem met_PostedFrames_8 : ∃ (s : State) (c m : Nat) (r : Reply), Live s ∧ (mbAt s c m).reply = some r ∧ c < 16 ∧ m < 4 ∧
    (mbAt s c m).replyValid = true ∧ replyFrames r ≤ (mbAt s c m).shown + 1 :=
  ⟨{ b0 with mailboxes := [(63, { reply := some (rep 34), replyValid := true })] }, 15, 3, (rep 34), live_of (by decide +kernel), rfl,
    by decide +kernel⟩

theorem met_PostedFrames_9 : ∃ (s : State) (c m : Nat) (r : Reply), Live s ∧ (mbAt s c m).reply = some r ∧ c < 16 ∧ m < 4 ∧
    (mbAt s c m).replyValid = true ∧ s.kpr.ready = true ∧ (mbAt s c m).shown + 1 < replyFrames r :=
  ⟨{ b0 with mailboxes := [(0, { reply := some (rep 35), replyValid := true })] }, 0, 0, (rep 35), live_of (by decide +kernel), rfl,
    by decide +kernel⟩

/-! ### RegisterEvents -/

theorem met_RegisterEvents_1 : ∃ (s : State) (k m o : Nat) (d : List Byte), Live s ∧ k < 16 ∧ m < 4 ∧ o + d.length ≤ 64 ∧ (mbAt s k m).busy = false :=
  ⟨b0, 15, 3, 63, [1], live_of (by decide +kernel), by decide +kernel⟩

theorem met_RegisterEvents_2 : ∃ (s : State) (k m : Nat), Live s ∧ k < 16 ∧ m < 4 :=
  ⟨b0, 15, 3, live_of (by decide +kernel), by decide +kernel⟩

theorem met_RegisterEvents_3 : ∃ (s : State) (k m : Nat), Live s ∧ k < 16 ∧ m < 4 :=
  ⟨b0, 15, 3, live_of (by decide +kernel), by decide +kernel⟩

theorem met_RegisterEvents_4 : ∃ (s : State) (k m : Nat), Live s ∧ k < 16 ∧ m < 4 :=
  ⟨b0, 15, 3, live_of (by decide +kernel), by decide +kernel⟩

theorem met_RegisterEvents_5 : ∃ (s : State) (k : Nat), Live s ∧ k < 16 :=
  ⟨b0, 15, live_of (by decide +kernel), by decide +kernel⟩

theorem met_RegisterEvents_6 : ∃ (s : State) (v o : Nat), Live s ∧ v < 64 ∧ o < 12 :=
  ⟨b0, 63, 11, live_of (by decide +kernel), by decide +kernel⟩

theorem met_RegisterEvents_7 : ∃ (s : State) (v : Nat), Live s ∧ v < 64 :=
  ⟨b0, 63, live_of (by decide +kernel), by decide +kernel⟩

theorem met_RegisterEvents_8 : ∃ (s : State) (v : Nat), Live s ∧ v < 64 ∧ s.msixOpen.Nodup :=
  ⟨b0, 63, live_of (by decide +kernel), by decide +kernel⟩

theorem met_RegisterEvents_9 : ∃ (s : State) (o : Nat), Live s ∧ 0x10000 ≤ o ∧ (o < 0x20000 ∨ 0x20400 ≤ o) :=
  ⟨b0, 0x1FFFF, live_of (by decide +kernel), by decide +kernel⟩

theorem met_RegisterEvents_10 : ∃ (s : State) (k : Nat), Live s ∧ k < 16 :=
  ⟨b0, 15, live_of (by decide +kernel), by decide +kernel⟩

theorem met_RegisterEvents_11 : ∃ s : State, Live s ∧ (fltAt s .kpr).mask.getLsbD 8 = false :=
  ⟨b0, live_of (by decide +kernel), by decide +kernel⟩

theorem met_RegisterEvents_12 : ∃ s : State, Live s :=
  ⟨b0, live_of (by decide +kernel)⟩

/-! ### ApertureEvents -/

theorem met_ApertureEvents_1 : ∃ (s : State) (o : Nat) (d : List Byte), Live s ∧ o + d.length ≤ 2 ^ 32 ∧
    bulkTarget s (o / 0x10000000) (o % 0x10000000) = none :=
  ⟨b0, (2 ^ 32 - 1), [1], live_of (by decide +kernel), by decide +kernel⟩

theorem met_ApertureEvents_2 : ∃ (s : State) (o n : Nat), Live s ∧ o + n ≤ 2 ^ 32 ∧ bulkTarget s (o / 0x10000000) (o % 0x10000000) = none :=
  ⟨b0, (2 ^ 32 - 1), 1, live_of (by decide +kernel), by decide +kernel⟩

theorem met_ApertureEvents_3 : ∃ (s : State) (o : Nat) (d : List Byte) (ca : Nat), Live s ∧ o + d.length ≤ 2 ^ 32 ∧
    bulkTarget s (o / 0x10000000) (o % 0x10000000) = some (2 ^ 40 + ca) ∧ combPresent s ca d.length = true ∧
    combOwned s (o / 0x10000000) ca d.length = true ∧ combReadyAt s ca d.length = true ∧ firstHeldGranule s ca d.length = none ∧
    rmwUe s ca d.length = none :=
  ⟨{ b0 with contexts := [(0, { window := some (2 ^ 40) })] }, 16, [1], 16, live_of (by decide +kernel), by decide +kernel⟩

theorem met_ApertureEvents_4 : ∃ (s : State) (o : Nat) (d : List Byte) (ca : Nat), Live s ∧ o + d.length ≤ 2 ^ 32 ∧
    bulkTarget s (o / 0x10000000) (o % 0x10000000) = some (2 ^ 40 + ca) ∧ (combPresent s ca d.length = false ∨
    combOwned s (o / 0x10000000) ca d.length = false) :=
  ⟨{ b0 with contexts := [(0, { window := some (2 ^ 40) })] }, 0x8000000, [1], 0x8000000, live_of (by decide +kernel), by decide +kernel⟩

theorem met_ApertureEvents_5 : ∃ (s : State) (o n ca : Nat), Live s ∧ o + n ≤ 2 ^ 32 ∧
    bulkTarget s (o / 0x10000000) (o % 0x10000000) = some (2 ^ 40 + ca) ∧ combPresent s ca n = true ∧ combOwned s (o / 0x10000000) ca n = true ∧
    combReadyAt s ca n = true ∧ spanUe s ca n = false ∧ spanActive s ca n = false :=
  ⟨{ b0 with contexts := [(0, { window := some (2 ^ 40) })] }, 8, 8, 8, live_of (by decide +kernel), by decide +kernel⟩

theorem met_ApertureEvents_6 : ∃ (s : State) (o n ca : Nat), Live s ∧ o + n ≤ 2 ^ 32 ∧
    bulkTarget s (o / 0x10000000) (o % 0x10000000) = some (2 ^ 40 + ca) ∧ combPresent s ca n = true ∧ combOwned s (o / 0x10000000) ca n = true ∧
    combReadyAt s ca n = true :=
  ⟨{ b0 with contexts := [(0, { window := some (2 ^ 40) })], active := [(6144, 1)] }, 0x180000, 8, 0x180000, live_of (by decide +kernel),
    by decide +kernel⟩

theorem met_ApertureEvents_7 : ∃ (s : State) (o n ca : Nat), Live s ∧ o + n ≤ 2 ^ 32 ∧
    bulkTarget s (o / 0x10000000) (o % 0x10000000) = some (2 ^ 40 + ca) ∧ (combPresent s ca n = false ∨ combOwned s (o / 0x10000000) ca n = false) :=
  ⟨{ b0 with contexts := [(15, { window := some (2 ^ 40) })] }, 0xF0000000, 1, 0, live_of (by decide +kernel), by decide +kernel⟩

theorem met_ApertureEvents_8 : ∃ (s : State) (o : Nat) (d : List Byte) (a : Nat), Live s ∧ bulkTarget s (o / 0x10000000) (o % 0x10000000) = some a ∧
    o + d.length ≤ 2 ^ 32 ∧ a < 2 ^ 40 :=
  ⟨{ b0 with contexts := [(0, { window := some 0 })] }, 0, [1], 0, live_of (by decide +kernel), rfl, by decide +kernel⟩

theorem met_ApertureEvents_9 : ∃ (s : State) (o n a : Nat), Live s ∧ bulkTarget s (o / 0x10000000) (o % 0x10000000) = some a ∧ o + n ≤ 2 ^ 32 ∧
    a < 2 ^ 40 ∧ spanPresent s a n = true ∧ dramOwned s (o / 0x10000000) a n = true ∧ spanReady s a n = true ∧ 0 < n ∧ s.md.mode ≠ .standby ∧
    waitingCmds s = [] ∧ waitingBulk s = [] ∧ roomFor s (entryPieces a n) = true :=
  ⟨{ b0 with contexts := [(0, { window := some 0 })], dmcs := [(0, dm)] }, 0, 64, 0, live_of (by decide +kernel), rfl, by decide +kernel⟩

theorem met_ApertureEvents_10 : ∃ (s : State) (o : Nat) (d : List Byte) (a : Nat), Live s ∧ bulkTarget s (o / 0x10000000) (o % 0x10000000) = some a ∧
    o + d.length ≤ 2 ^ 32 ∧ a < 2 ^ 40 ∧ spanPresent s a d.length = true ∧ dramOwned s (o / 0x10000000) a d.length = true ∧
    spanReady s a d.length = true ∧ 0 < d.length ∧ s.md.mode ≠ .standby ∧ waitingCmds s = [] ∧ waitingBulk s = [] ∧
    roomFor s (entryPieces a d.length) = true :=
  ⟨{ b0 with contexts := [(0, { window := some 0 })], dmcs := [(0, dm)] }, 3, [1, 2], 3, live_of (by decide +kernel), rfl, by decide +kernel⟩

theorem met_ApertureEvents_11 : ∃ (s : State) (i a : Nat) (d : List Byte), Live s ∧ (i ≠ 2 ∨ 0x10000 ≤ a ∨ spiFits (a % 0x1000) d.length = false) ∧
    (fltAt s .kpr).mask.getLsbD 7 = false :=
  ⟨b0, 3, 0, [1], live_of (by decide +kernel), by decide +kernel⟩

theorem met_ApertureEvents_12 : ∃ (s : State) (a : Nat) (d : List Byte), Live s ∧ a < 0x10000 ∧ spiFits (a % 0x1000) d.length = true ∧
    spiReaches s (a / 0x1000) = false :=
  ⟨b0, 0xF000, [1], live_of (by decide +kernel), by decide +kernel⟩

theorem met_ApertureEvents_13 : ∃ (s : State) (k m o : Nat) (d : List Byte), Live s ∧ k < 16 ∧ m < 4 ∧ o + d.length ≤ 64 ∧ 0 < d.length ∧
    spiReaches s k = true ∧ (mbAt s k m).busy = false :=
  ⟨b0, 0, 3, 63, [1], live_of (by decide +kernel), by decide +kernel⟩

theorem met_ApertureEvents_14 : ∃ s : State, Live s :=
  ⟨b0, live_of (by decide +kernel)⟩

theorem met_ApertureEvents_15 : ∃ s : State, Live s :=
  ⟨b0, live_of (by decide +kernel)⟩

theorem met_ApertureEvents_16 : ∃ s : State, Live s :=
  ⟨b0, live_of (by decide +kernel)⟩

/-! ### PinEvents -/

theorem met_PinEvents_1 : ∃ (s : State) (p : Nat) (l : Bool), Live s ∧ p < 32 ∧ s.time.ready = true ∧ pinLevelAt s p s.time.tick ≠ l ∧
    (pinAt s p).output = false ∧ ((pinAt s p).hist.head?.any fun q => decide (s.time.tick ≤ q.1)) = false ∧ s.md.mode ≠ .replay ∧
    s.md.mode ≠ .standby :=
  ⟨b0, 31, true, live_of (by decide +kernel), by decide +kernel⟩

theorem met_PinEvents_2 : ∃ (s : State) (p : Nat) (l : Bool), Live s ∧ p < 32 ∧ s.time.ready = true ∧ pinLevelAt s p s.time.tick ≠ l ∧
    (pinAt s p).output = false ∧ ((pinAt s p).hist.head?.any fun q => decide (s.time.tick ≤ q.1)) = false ∧ s.md.mode = .standby ∧
    s.sec.waking = false :=
  ⟨{ b0 with md.mode := .standby }, 31, true, live_of (by decide +kernel), by decide +kernel⟩

theorem met_PinEvents_3 : ∃ (s : State) (l : Nat) (v : Bool) (k : Nat), let c := (1024 * s.time.tick + k % 1024 - tget 0 s.col.swlComp l) / 64;
    Live s ∧ l < 16 ∧ s.time.ready = true ∧ swlLast s l ≠ v ∧ s.md.mode ≠ .replay ∧ s.md.mode ≠ .standby ∧ (v = true ∨ tget 0 s.col.calLines l = 0) ∧
    s.col.role = 2 ∧ (addEdge s.col.heldEdges ⟨l, v, c / 16 + 1, c, false⟩).2 = false :=
  ⟨{ b0 with col.role := 2 }, 15, false, 1023, live_of (by decide +kernel), by decide +kernel⟩

theorem met_PinEvents_4 : ∃ (s : State) (l : Nat) (v : Bool) (k : Nat), let c := (1024 * s.time.tick + k % 1024 - tget 0 s.col.swlComp l) / 64;
    Live s ∧ l < 16 ∧ s.time.ready = true ∧ swlLast s l ≠ v ∧ s.md.mode ≠ .replay ∧ s.md.mode ≠ .standby ∧ (v = true ∨ tget 0 s.col.calLines l = 0) ∧
    s.col.role = 0 ∧ (s.col.windowEdges.any fun o => o.line = l && edgeWindow o = (c / 16 + 1) / 8 * 8) = false :=
  ⟨b0, 15, false, 0, live_of (by decide +kernel), by decide +kernel⟩

theorem met_PinEvents_5 : ∃ (s : State) (l : Nat) (v : Bool) (k : Nat), let c := (1024 * s.time.tick + k % 1024 - tget 0 s.col.swlComp l) / 64;
    Live s ∧ l < 16 ∧ s.time.ready = true ∧ swlLast s l ≠ v ∧ s.md.mode ≠ .replay ∧ s.md.mode ≠ .standby ∧ (v = true ∨ tget 0 s.col.calLines l = 0) ∧
    s.col.role = 1 ∧ (addEdge s.col.windowEdges ⟨l, v, c / 16 + 1, c, false⟩).2 = false :=
  ⟨{ b0 with col.role := 1 }, 0, false, 1023, live_of (by decide +kernel), by decide +kernel⟩

theorem met_PinEvents_6 : ∃ (s : State) (l : Nat) (v : Bool) (k : Nat), let c := (1024 * s.time.tick + k % 1024 - tget 0 s.col.swlComp l) / 64;
    Live s ∧ l < 16 ∧ s.time.ready = true ∧ swlLast s l ≠ v ∧ s.md.mode ≠ .replay ∧ s.md.mode ≠ .standby ∧ (v = true ∨ tget 0 s.col.calLines l = 0) ∧
    s.col.role ≠ 2 ∧ (fltAt s .col).mask.getLsbD 7 = false ∧
    (s.col.windowEdges.any fun o => o.line = l && edgeWindow o = (c / 16 + 1) / 8 * 8) = true :=
  ⟨{ b0 with col.windowEdges := [⟨15, true, 1000001, 16000000, false⟩] }, 15, false, 1023, live_of (by decide +kernel), by decide +kernel⟩

theorem met_PinEvents_7 : ∃ (s : State) (p e : Nat), Live s ∧ (pinAt s p).pulseEnd = some e ∧ p < 32 ∧ e ≤ s.time.tick :=
  ⟨{ b0 with pins := [(31, { pulseEnd := some 1000000 })] }, 31, 1000000, live_of (by decide +kernel), rfl, by decide +kernel⟩

theorem met_PinEvents_8 : ∃ (s : State) (l : Nat), Live s ∧ l < 16 ∧ tget 0 s.col.drives l ≠ 0 ∧ tget 0 s.col.drives l < 1024 * (s.time.tick + 1) :=
  ⟨{ b0 with col.drives := [(15, 1024)] }, 15, live_of (by decide +kernel), by decide +kernel⟩

theorem met_PinEvents_9 : ∃ (s : State) (l : Nat), Live s ∧ l < 16 ∧ tget 0 s.col.asserted l ≠ 0 ∧
    tget 0 s.col.asserted l < 1024 * (s.time.tick + 1) :=
  ⟨{ b0 with col.asserted := [(15, 1024)] }, 15, live_of (by decide +kernel), by decide +kernel⟩

/-! ### HopEvents -/

theorem met_HopEvents_1 : ∃ (s : State) (h : Hop), Live s ∧ firstHop s.hops = some h ∧ h.due ≤ s.time.tick ∧
    (s.held.any fun x => routeCmd x.cmd && decide (x.dec ≤ h.due)) = false ∧ wagCarries s = false :=
  ⟨{ b0 with hops := [⟨1000000, ⟨999998, 0, true, 0, 0, false⟩, .producer, false⟩], md.mode := .standby }, ⟨1000000, ⟨999998, 0, true, 0, 0, false⟩,
    .producer, false⟩, live_of (by decide +kernel), rfl, by decide +kernel⟩

theorem met_HopEvents_2 : ∃ (s : State) (h : Hop) (w : Nat), Live s ∧ firstHop s.hops = some h ∧ h.due ≤ s.time.tick ∧
    (s.held.any fun x => routeCmd x.cmd && decide (x.dec ≤ h.due)) = false ∧ wagCarries s = true ∧ h.src = .onto w ∧ h.ev.gen < 8 ∧
    chanEnabled (chanAt s w) = true ∧ edgePasses (chanEdge (chanAt s w)) h.ev.level = true :=
  ⟨{ b0 with hops := [⟨1000000, ⟨999998, 0, true, 7, 0, false⟩, .onto 511, false⟩], chans := [(511, { entry := 0x10000 })] }, ⟨1000000, ⟨999998, 0,
    true, 7, 0, false⟩, .onto 511, false⟩, 511, live_of (by decide +kernel), rfl, by decide +kernel⟩

theorem met_HopEvents_3 : ∃ (s : State) (h : Hop) (w : Nat), Live s ∧ firstHop s.hops = some h ∧ h.due ≤ s.time.tick ∧
    (s.held.any fun x => routeCmd x.cmd && decide (x.dec ≤ h.due)) = false ∧ wagCarries s = true ∧ h.src = .onto w ∧ 8 ≤ h.ev.gen ∧
    chanEnabled (chanAt s w) = true ∧ edgePasses (chanEdge (chanAt s w)) h.ev.level = true :=
  ⟨{ b0 with hops := [⟨1000000, ⟨999998, 0, true, 8, 0, false⟩, .onto 511, false⟩], chans := [(511, { entry := 0x10000 })] }, ⟨1000000, ⟨999998, 0,
    true, 8, 0, false⟩, .onto 511, false⟩, 511, live_of (by decide +kernel), rfl, by decide +kernel⟩

theorem met_HopEvents_4 : ∃ (s : State) (h : Hop) (w : Nat), Live s ∧ firstHop s.hops = some h ∧ h.due ≤ s.time.tick ∧
    (s.held.any fun x => routeCmd x.cmd && decide (x.dec ≤ h.due)) = false ∧ wagCarries s = true ∧ h.src = .leave w ∧ h.ev.channel = w :=
  ⟨{ b0 with hops := [⟨1000000, ⟨999998, 511, true, 0, 0, false⟩, .leave 511, false⟩], tasks := [(4, { slots := [0x3FF, 0, 0, 0] }), (0x281F, { slots := [0x7FF, 0, 0, 0] })] },
    ⟨1000000, ⟨999998, 511, true, 0, 0, false⟩, .leave 511, false⟩, 511, live_of (by decide +kernel), rfl, by decide +kernel⟩

theorem met_HopEvents_5 : ∃ (s : State) (h : Hop), Live s ∧ firstHop s.hops = some h ∧ h.due ≤ s.time.tick ∧
    (s.held.any fun x => routeCmd x.cmd && decide (x.dec ≤ h.due)) = false ∧ wagCarries s = true ∧ h.src = .producer :=
  ⟨{ b0 with hops := [⟨1000000, ⟨999998, 0, true, 0, 0, false⟩, .producer, false⟩] }, ⟨1000000, ⟨999998, 0, true, 0, 0, false⟩, .producer, false⟩,
    live_of (by decide +kernel), rfl, by decide +kernel⟩

theorem met_HopEvents_6 : ∃ (s : State) (i : Nat), Live s ∧ i < 64 ∧ (tmrAt s i).running = true ∧ (tmrAt s i).next ≤ s.time.tick ∧
    wagCounts s = true ∧ ((taskAt s (0x2901 + 2 * i)).held.any fun e => decide (e.1 ≤ (tmrAt s i).next)) = false ∧
    (s.held.any fun x => tickTimerExpiry.setsTimer i x.cmd && decide (x.dec ≤ (tmrAt s i).next)) = false ∧
    (tmrAt s i).raised ≠ some (tmrAt s i).next :=
  ⟨{ b0 with timers := [(63, { running := true, next := 1000000 })] }, 63, live_of (by decide +kernel), by decide +kernel⟩

/-! ### TaskDecisions -/

theorem met_TaskDecisions_1 : ∃ (s : State) (k p d : Nat), Live s ∧ nextDecision s k = some d ∧ taskKind k = some (.pin p) ∧ d ≤ s.time.tick ∧
    eventsAt s k d ≠ [] ∧ (pinAt s p).output = true ∧ wagPins s = true :=
  ⟨{ b0 with tasks := [(0x281F, { held := [(1000000, ⟨⟨999952, 0, true, 0, 0, false⟩, [(0, 0)], 0x7F⟩)] })], pins := [(31, { output := true })] },
    0x281F, 31, 1000000, live_of (by decide +kernel), rfl, by decide +kernel⟩

theorem met_TaskDecisions_2 : ∃ (s : State) (k l d : Nat), Live s ∧ nextDecision s k = some d ∧ taskKind k = some (.swarm l) ∧ d ≤ s.time.tick ∧
    eventsAt s k d ≠ [] ∧ wagSwarm s = true ∧ tget 0 s.col.drives l = 0 ∧ tget 0 s.col.asserted l ≤ 1024 * d :=
  ⟨{ b0 with tasks := [(0x282F, { held := [(1000000, ⟨⟨999952, 0, true, 0, 0, false⟩, [(0, 0)], 0x7F⟩)] })] }, 0x282F, 15, 1000000,
    live_of (by decide +kernel), rfl, by decide +kernel⟩

theorem met_TaskDecisions_3 : ∃ (s : State) (i d : Nat), Live s ∧ nextDecision s (0x2840 + 2 * i) = some d ∧ i < 64 ∧ d ≤ s.time.tick ∧
    eventsAt s (0x2840 + 2 * i) d ≠ [] ∧ wagCounts s = true ∧ eventsAt s (0x2841 + 2 * i) d = [] ∧ (ctrAt s i).held = false :=
  ⟨{ b0 with tasks := [(0x28BE, { held := [(1000000, ⟨⟨999952, 0, true, 0, 0, false⟩, [(0, 0)], 0x7F⟩)] })] }, 63, 1000000,
    live_of (by decide +kernel), rfl, by decide +kernel⟩

theorem met_TaskDecisions_4 : ∃ (s : State) (i d : Nat), Live s ∧ nextDecision s (0x2841 + 2 * i) = some d ∧ i < 64 ∧ d ≤ s.time.tick ∧
    eventsAt s (0x2841 + 2 * i) d ≠ [] ∧ wagCounts s = true :=
  ⟨{ b0 with tasks := [(0x28BF, { held := [(1000000, ⟨⟨999952, 0, true, 0, 0, false⟩, [(0, 0)], 0x7F⟩)] })] }, 63, 1000000,
    live_of (by decide +kernel), rfl, by decide +kernel⟩

theorem met_TaskDecisions_5 : ∃ (s : State) (i d : Nat), Live s ∧ nextDecision s (0x2900 + 2 * i) = some d ∧ i < 64 ∧ d ≤ s.time.tick ∧
    eventsAt s (0x2900 + 2 * i) d ≠ [] ∧ wagCounts s = true ∧ (tmrAt s i).programmed = true ∧ (tmrAt s i).running = false ∧
    eventsAt s (0x2901 + 2 * i) d = [] :=
  ⟨{ b0 with tasks := [(0x297E, { held := [(1000000, ⟨⟨999952, 0, true, 0, 0, false⟩, [(0, 0)], 0x7F⟩)] })], timers := [(63, { programmed := true })] },
    63, 1000000, live_of (by decide +kernel), rfl, by decide +kernel⟩

theorem met_TaskDecisions_6 : ∃ (s : State) (i d : Nat), Live s ∧ nextDecision s (0x2901 + 2 * i) = some d ∧ i < 64 ∧ d ≤ s.time.tick ∧
    eventsAt s (0x2901 + 2 * i) d ≠ [] ∧ wagCounts s = true ∧ (tmrAt s i).programmed = true ∧ (((tmrAt s i).running = false ∨
    d ≤ (tmrAt s i).next)) :=
  ⟨{ b0 with tasks := [(0x297F, { held := [(1000000, ⟨⟨999952, 0, true, 0, 0, false⟩, [(0, 0)], 0x7F⟩)] })], timers := [(63, { programmed := true })] },
    63, 1000000, live_of (by decide +kernel), rfl, by decide +kernel⟩

theorem met_TaskDecisions_7 : ∃ (s : State) (c d : Nat), Live s ∧ nextDecision s (8 * c + 4) = some d ∧ c < 1024 ∧ d ≤ s.time.tick ∧
    eventsAt s (8 * c + 4) d ≠ [] ∧ scopeAt s (8 * c + 4) d = 0x7F ∧ cellReadyFor s d 5 c = true ∧ wagActs s c = true ∧ (cellAt s c).st = .armed ∧
    (cellAt s c).next = none ∧ (cellAt s c).arm ≠ none ∧ (domAt s (cellAt s c).domain).guardOpen = true :=
  ⟨{ b0 with tasks := [(4, { held := [(1000000, ⟨⟨999952, 0, true, 0, 0, false⟩, [(0, 0)], 0x7F⟩)] })], cells := [(0, { st := .armed, ratio := 2 ^ 40, mRef := 1000000, arm := some ⟨0, 1, 0, 0, 0, [], []⟩ })] },
    0, 1000000, live_of (by decide +kernel), rfl, by decide +kernel⟩

theorem met_TaskDecisions_8 : ∃ (s : State) (c d : Nat), Live s ∧ nextDecision s (8 * c + 5) = some d ∧ c < 1024 ∧ d ≤ s.time.tick ∧
    eventsAt s (8 * c + 5) d ≠ [] ∧ scopeAt s (8 * c + 5) d = 0x7F ∧ cellReadyFor s d 2 c = true ∧ wagActs s c = true ∧ (cellAt s c).st = .running ∧
    (cellAt s c).next = none :=
  ⟨{ b0 with tasks := [(5, { held := [(1000000, ⟨⟨999952, 0, true, 0, 0, false⟩, [(0, 0)], 0x7F⟩)] })], cells := [(0, { st := .running, ratio := 2 ^ 40, mRef := 1000000, arm := some ⟨0, 1, 0, 0, 0, [], []⟩ })] },
    0, 1000000, live_of (by decide +kernel), rfl, by decide +kernel⟩

theorem met_TaskDecisions_9 : ∃ (s : State) (c d : Nat), Live s ∧ nextDecision s (8 * c + 6) = some d ∧ c < 1024 ∧ d ≤ s.time.tick ∧
    eventsAt s (8 * c + 6) d ≠ [] ∧ scopeAt s (8 * c + 6) d = 0x7F ∧ cellReadyFor s d 4 c = true ∧ wagActs s c = true ∧ (cellAt s c).st = .running ∧
    (cellAt s c).next = none ∧ ((cellAt s c).entering = false ∨ (cellAt s c).pos = 0) :=
  ⟨{ b0 with tasks := [(6, { held := [(1000000, ⟨⟨999952, 0, true, 0, 0, false⟩, [(0, 0)], 0x7F⟩)] })], cells := [(0, { st := .running, ratio := 2 ^ 40, mRef := 1000000, arm := some ⟨0, 1, 0, 0, 0, [], []⟩ })] },
    0, 1000000, live_of (by decide +kernel), rfl, by decide +kernel⟩

theorem met_TaskDecisions_10 : ∃ (s : State) (c d : Nat) (j : JumpRow), Live s ∧ nextDecision s (8 * c) = some d ∧ c < 1024 ∧ d ≤ s.time.tick ∧
    eventsAt s (8 * c) d ≠ [] ∧ cellReadyFor s d 7 c = true ∧ wagActs s c = true ∧ (cellAt s c).st = .running ∧ (cellAt s c).next = none ∧
    (cellAt s c).haltAt ≠ some (cellAt s c).n ∧ ((∀ k, k ∈ [1, 2, 3] → eventsAt s (8 * c + k) d = [])) ∧ ((∀ e,
    (eventsAt s (8 * c) d).head? = some e → jumpEntry s c 0 e.origin = some j)) :=
  ⟨{ b0 with tasks := [(0, { held := [(1000000, ⟨⟨999952, 0, true, 0, 0, false⟩, [(0, 0)], 0x7F⟩)] })], comb := [(0x100, 1)], cells := [(0, { cl .running with arm := some ⟨0, 1, 0x100, 1, 0, [], []⟩ })] },
    0, 1000000, ⟨true, 0, 0, 0, 0, 0, 0⟩, live_of (by decide +kernel), rfl, by decide +kernel⟩

theorem met_TaskDecisions_11 : ∃ (s : State) (c d : Nat), Live s ∧ nextDecision s (0x2000 + 2 * c) = some d ∧ c < 1024 ∧ d ≤ s.time.tick ∧
    eventsAt s (0x2000 + 2 * c) d ≠ [] ∧ capCaughtUp s c d = true ∧ capEarlier s c d 1 = false ∧ wagActs s c = true ∧ (capAt s c).st = .bound :=
  ⟨{ b0 with tasks := [(0x27FE, { held := [(1000000, ⟨⟨999952, 0, true, 0, 0, false⟩, [(0, 0)], 0x7F⟩)] })], caps := [(1023, { st := .bound })] },
    1023, 1000000, live_of (by decide +kernel), rfl, by decide +kernel⟩

theorem met_TaskDecisions_12 : ∃ (s : State) (k p d : Nat), Live s ∧ nextDecision s k = some d ∧ taskKind k = some (.pin p) ∧ d ≤ s.time.tick ∧
    eventsAt s k d = [] :=
  ⟨{ b0 with tasks := [(0x281F, { held := [(1000000, ⟨⟨999952, 0, true, 0, 0, false⟩, [(2, 559)], 0x7F⟩)] })], pins := [(31, { output := true })] },
    0x281F, 31, 1000000, live_of (by decide +kernel), rfl, by decide +kernel⟩

/-! ### SampleEmissions -/

theorem met_SampleEmissions_1 : ∃ (s : State) (c : Nat), Live s ∧ c < nCells s ∧ (domAt s (cellAt s c).domain).guardOpen = false :=
  ⟨{ b0 with comb := tables, hives := [(0, hv)], cells := [(1023, { cl .running with domain := 3 })] }, 1023, live_of (by decide +kernel),
    by decide +kernel⟩

theorem met_SampleEmissions_2 : ∃ (s : State) (c : Nat) (x : Cell) (d : Domain), Live s ∧ x = cellAt s c ∧ d = domAt s x.domain ∧ c < nCells s ∧
    d.guardOpen = true ∧ (x.st = .bound ∨ x.st = .armed ∨ x.st = .paused) ∧ x.next = none ∧ nextEdge x * d.den * d.div ≤ s.time.tick * d.num ∧
    decisionBefore s c (nextEdge x) = false :=
  ⟨{ b0 with comb := tables, hives := [(0, hv)], cells := [(0, cl .armed)] }, 0, _, _, live_of (by decide +kernel), rfl, rfl, by decide +kernel⟩

theorem met_SampleEmissions_3 : ∃ (s : State) (c : Nat) (x : Cell) (d : Domain), Live s ∧ x = cellAt s c ∧ d = domAt s x.domain ∧ c < nCells s ∧
    d.guardOpen = true ∧ x.st = .running ∧ 0 < x.dead ∧ x.next = none ∧ nextEdge x * d.den * d.div ≤ s.time.tick * d.num ∧
    decisionBefore s c (nextEdge x) = false :=
  ⟨{ b0 with comb := tables, hives := [(0, hv)], cells := [(0, { cl .running with dead := 1 })] }, 0, _, _, live_of (by decide +kernel), rfl, rfl,
    by decide +kernel⟩

theorem met_SampleEmissions_4 : ∃ (s : State) (c : Nat) (x : Cell) (d : Domain) (p : Play) (a b : Int) (m : Nat), Live s ∧ x = cellAt s c ∧
    d = domAt s x.domain ∧ p = playAt s c x [] (edgeTick d (nextEdge x) - 32) ∧ a = gainOut x.gU x.oU p.v ∧ b = gainOut x.gC x.oC (clip1 a) ∧
    m = markersAt (stepAt s c x x.step) x.pos p.len p.mark p.dds ∧ c < nCells s ∧ d.guardOpen = true ∧ x.st = .running ∧ x.dead = 0 ∧ x.next = none ∧
    x.lateInject = 0 ∧ s.md.mode ≠ .replay ∧ nextEdge x * d.den * d.div ≤ s.time.tick * d.num ∧ decisionBefore s c (nextEdge x) = false ∧
    rsActive x.ratio = false ∧ x.pdEn = false ∧ p.missing = false ∧ (p.spans.all fun r => !spanUe s r.1 r.2) = true :=
  ⟨{ b0 with comb := tables, hives := [(0, hv)], cells := [(0, cl .running)] }, 0, _, _, _, _, _, _, live_of (by decide +kernel), rfl, rfl, rfl, rfl,
    rfl, rfl, by decide +kernel⟩

theorem met_SampleEmissions_5 : ∃ (s : State) (c : Nat) (x : Cell) (d : Domain) (p : Play), Live s ∧ x = cellAt s c ∧ d = domAt s x.domain ∧
    p = playAt s c x [] (edgeTick d (nextEdge x) - 32) ∧ c < nCells s ∧ d.guardOpen = true ∧ x.st = .running ∧ x.dead = 0 ∧ x.next = none ∧
    s.md.mode ≠ .replay ∧ nextEdge x * d.den * d.div ≤ s.time.tick * d.num ∧ decisionBefore s c (nextEdge x) = false ∧ rsActive x.ratio = false ∧
    x.pdEn = false ∧ p.missing = true ∧ (p.spans.all fun r => !spanUe s r.1 r.2) = true :=
  ⟨{ b0 with comb := [(12, 0xFF), (0x17FFE0, 2), (0x17FFE1, 0xFF), (0x17FFE4, 16)], hives := [(0, hv)], cells := [(0, cl .running)] }, 0, _, _, _,
    live_of (by decide +kernel), rfl, rfl, rfl, by decide +kernel⟩

theorem met_SampleEmissions_6 : ∃ (s : State) (c : Nat) (x : Cell) (d : Domain) (p : Play), Live s ∧ x = cellAt s c ∧ d = domAt s x.domain ∧
    p = playAt s c x [] (edgeTick d (nextEdge x) - 32) ∧ c < nCells s ∧ d.guardOpen = true ∧ x.st = .running ∧ x.dead = 0 ∧ x.next = none ∧
    s.md.mode ≠ .replay ∧ nextEdge x * d.den * d.div ≤ s.time.tick * d.num ∧ decisionBefore s c (nextEdge x) = false ∧ rsActive x.ratio = false ∧
    x.pdEn = false ∧ p.missing = false ∧ (p.spans.all fun r => !spanUe s r.1 r.2) = true :=
  ⟨{ b0 with comb := tables, hives := [(0, hv)], cells := [(0, cl .running)] }, 0, _, _, _, live_of (by decide +kernel), rfl, rfl, rfl,
    by decide +kernel⟩

theorem met_SampleEmissions_7 : ∃ (s : State) (c : Nat) (x : Cell) (d : Domain) (p : Play) (r : Nat × Nat), Live s ∧ x = cellAt s c ∧
    d = domAt s x.domain ∧ p = playAt s c x [] (edgeTick d (nextEdge x) - 32) ∧ c < nCells s ∧ d.guardOpen = true ∧ x.st = .running ∧ x.dead = 0 ∧
    x.next = none ∧ nextEdge x * d.den * d.div ≤ s.time.tick * d.num ∧ decisionBefore s c (nextEdge x) = false ∧ r ∈ p.spans ∧
    spanUe s r.1 r.2 = true :=
  ⟨{ b0 with comb := tables, hives := [(0, hv)], cells := [(0, cl .running)], combUe := [0] }, 0, _, _, _, (0, 16), live_of (by decide +kernel), rfl,
    rfl, rfl, by decide +kernel⟩

theorem met_SampleEmissions_8 : ∃ (s : State) (c : Nat) (x : Cell) (d : Domain) (q : NextPos), Live s ∧ x = cellAt s c ∧ d = domAt s x.domain ∧
    x.next = some q ∧ c < nCells s ∧ d.guardOpen = true ∧ x.st = .running ∧ q.stop = 1 ∧ nextEdge x * d.den * d.div ≤ s.time.tick * d.num ∧
    decisionBefore s c (nextEdge x) = false :=
  ⟨{ b0 with comb := tables, hives := [(0, hv)], cells := [(0, { cl .running with next := some { stop := 1 } })] }, 0, _, _, { stop := 1 },
    live_of (by decide +kernel), rfl, rfl, rfl, by decide +kernel⟩

/-! ### StandbyEvents -/

theorem met_StandbyEvents_1 : ∃ s : State, Live s ∧ s.md.mode = .standby ∧ s.sec.entering = true ∧
    (s.sec.wakeAt.any fun w => decide (w.1 ≤ s.time.tick)) = false ∧ s.sec.entryTarget = 2 :=
  ⟨{ b0 with md.mode := .standby, sec.entering := true, sec.entryTarget := 2 }, live_of (by decide +kernel), by decide +kernel⟩

theorem met_StandbyEvents_2 : ∃ s : State, Live s ∧ s.md.mode = .standby ∧ s.sec.entering = true ∧
    (s.sec.wakeAt.any fun w => decide (w.1 ≤ s.time.tick)) = false ∧ s.sec.entryTarget = 3 :=
  ⟨{ b0 with md.mode := .standby, sec.entering := true, sec.entryTarget := 3 }, live_of (by decide +kernel), by decide +kernel⟩

theorem met_StandbyEvents_3 : ∃ s : State, Live s ∧ s.sec.entering = true ∧
    s.sec.entryTick + (if s.sec.entryTarget = 3 then 300000 else 100000) < s.time.tick ∧ (fltAt s .spd).mask.getLsbD 3 = false :=
  ⟨{ b0 with sec.entering := true, sec.entryTarget := 3, sec.entryTick := 699999 }, live_of (by decide +kernel), by decide +kernel⟩

theorem met_StandbyEvents_4 : ∃ s : State, Live s ∧ s.sec.entering = false :=
  ⟨b0, live_of (by decide +kernel), by decide +kernel⟩

theorem met_StandbyEvents_5 : ∃ s : State, Live s ∧ s.md.mode = .standby ∧ s.sec.entering = false ∧ s.sec.waking = false ∧
    (s.sec.wakeAt.any fun w => decide (w.1 ≤ s.time.tick)) = false ∧ s.sec.wakeTick ≠ 0 ∧ s.sec.entryTick ≤ s.sec.wakeTick ∧
    s.sec.wakeTick ≤ s.time.tick :=
  ⟨{ b0 with md.mode := .standby, sec.wakeTick := 1000000, sec.entryTick := 1000000 }, live_of (by decide +kernel), by decide +kernel⟩

theorem met_StandbyEvents_6 : ∃ (s : State) (c i w : Nat), Live s ∧ s.md.mode = .standby ∧ s.sec.entering = false ∧ s.sec.waking = false ∧
    firstWake (s.sec.wakeAt.filter fun w => decide (w.1 ≤ s.time.tick)) = some (w, c, i) ∧ s.sec.wakeTick = 0 :=
  ⟨{ b0 with md.mode := .standby, sec.wakeAt := [(1000000, 4, 2), (1000000, 3, 31)] }, 3, 31, 1000000, live_of (by decide +kernel), by decide +kernel⟩

theorem met_StandbyEvents_7 : ∃ s : State, Live s ∧ s.md.mode = .standby ∧ s.sec.waking = true ∧ s.sec.safeAfterWake = none ∧
    ((∀ f ∈ s.sec.readyBefore, f ∈ readyFunctions (banksBack s) ∧ ¬(4 ≤ f ∧ f < 8 ∧ (dmcAt s (f - 4)).tracking = true))) :=
  ⟨{ b0 with md.mode := .standby, sec.waking := true, sec.readyBefore := [0, 8] }, live_of (by decide +kernel), by decide +kernel⟩

theorem met_StandbyEvents_8 : ∃ (s : State) (n : Nat), Live s ∧ s.sec.safeAfterWake = some n ∧ s.md.mode = .standby ∧ s.sec.waking = true ∧
    ((∀ f ∈ s.sec.readyBefore, f ∈ readyFunctions (banksBack s) ∧ ¬(4 ≤ f ∧ f < 8 ∧ (dmcAt s (f - 4)).tracking = true))) :=
  ⟨{ b0 with md.mode := .standby, sec.waking := true, sec.readyBefore := [0, 8], sec.safeAfterWake := some 6 }, 6, live_of (by decide +kernel), rfl,
    by decide +kernel⟩

theorem met_StandbyEvents_9 : ∃ (s : State) (f : Nat), Live s ∧ s.md.mode = .standby ∧ s.sec.waking = true ∧ f ∈ s.sec.readyBefore ∧
    f ∉ readyFunctions (banksBack s) :=
  ⟨{ b0 with md.mode := .standby, sec.waking := true, sec.readyBefore := [1] }, 1, live_of (by decide +kernel), by decide +kernel⟩

theorem met_StandbyEvents_10 : ∃ (s : State) (k : Nat), Live s ∧ s.md.mode = .standby ∧ ((hiveAt s k).power = 1 ∨ (hiveAt s k).power = 3) ∧
    (fltAt s .cmb).mask.getLsbD 10 = false :=
  ⟨{ b0 with md.mode := .standby, hives := [(63, { power := 3 })] }, 63, live_of (by decide +kernel), by decide +kernel⟩

/-! ### DebugEvents -/

theorem met_DebugEvents_1 : ∃ (s : State) (e : Nat), Live s ∧ s.sec.sessionEnd = some e ∧ e ≤ s.time.tick :=
  ⟨{ b0 with sec.sessionEnd := some 1000000, sec.halted := true, kpr.ready := false }, 1000000, live_of (by decide +kernel), rfl, by decide +kernel⟩

theorem met_DebugEvents_2 : ∃ (s : State) (n : BitVec 128) (e : Nat), Live s ∧ s.sec.nonce = some (n, e) ∧ e ≤ s.time.tick :=
  ⟨{ b0 with sec.nonce := some (5, 1000000) }, 5, 1000000, live_of (by decide +kernel), by decide +kernel⟩

theorem met_DebugEvents_3 : ∃ (s : State) (e : Nat), Live s ∧ s.sec.authLock = some e ∧ e ≤ s.time.tick :=
  ⟨{ b0 with sec.authLock := some 1000000 }, 1000000, live_of (by decide +kernel), rfl, by decide +kernel⟩

theorem met_DebugEvents_4 : ∃ (s : State) (e : Nat), Live s ∧ s.sec.sessionEnd = some e ∧ s.time.tick < e :=
  ⟨{ b0 with sec.sessionEnd := some 1000001 }, 1000001, live_of (by decide +kernel), rfl, by decide +kernel⟩

theorem met_DebugEvents_5 : ∃ s : State, Live s ∧ fullAccess s = true ∧ s.kpr.ready = true :=
  ⟨{ b0 with sec.dbg := 2 }, live_of (by decide +kernel), by decide +kernel⟩

theorem met_DebugEvents_6 : ∃ s : State, Live s ∧ fullAccess s = false :=
  ⟨b0, live_of (by decide +kernel), by decide +kernel⟩

theorem met_DebugEvents_7 : ∃ s : State, Live s ∧ s.sec.halted = true :=
  ⟨{ b0 with sec.halted := true }, live_of (by decide +kernel), by decide +kernel⟩

theorem met_DebugEvents_8 : ∃ (s : State) (sp : Nat), Live s ∧ sp < 3 ∧ fullAccess s = false :=
  ⟨b0, 2, live_of (by decide +kernel), by decide +kernel⟩

theorem met_DebugEvents_9 : ∃ (s : State) (a : Nat) (d : List Byte), Live s ∧ fullAccess s = true ∧ d ≠ [] ∧ a + d.length ≤ 0x200000 ∧
    ((partialWords a d.length).any (innerUe s true)) = false :=
  ⟨{ b0 with sec.dbg := 2 }, 0x1FFFFF, [1], live_of (by decide +kernel), by decide +kernel⟩

theorem met_DebugEvents_10 : ∃ (s : State) (a : Nat) (d : List Byte), Live s ∧ fullAccess s = true ∧ d ≠ [] ∧ combPresent s a d.length = true ∧
    combOwned s 0 a d.length = true ∧ combReadyAt s a d.length = true ∧ firstHeldGranule s a d.length = none ∧ rmwUe s a d.length = none :=
  ⟨{ b0 with sec.dbg := 2 }, 16, [1], live_of (by decide +kernel), by decide +kernel⟩

theorem met_DebugEvents_11 : ∃ (s : State) (a : Nat) (d : List Byte), Live s ∧ fullAccess s = true ∧ d ≠ [] ∧ s.md.mode ≠ .standby ∧
    spanPresent s a d.length = true ∧ dramOwned s 0 a d.length = true ∧ spanReady s a d.length = true ∧
    ((partialLines a d.length).any fun l => s.dramUe.contains l) = false ∧ dramQuiet s a d.length = true :=
  ⟨{ b0 with sec.dbg := 2, dmcs := [(0, dm)] }, 0, [1], live_of (by decide +kernel), by decide +kernel⟩

theorem met_DebugEvents_12 : ∃ s : State, Live s :=
  ⟨b0, live_of (by decide +kernel)⟩

theorem met_DebugEvents_13 : ∃ s : State, Live s :=
  ⟨b0, live_of (by decide +kernel)⟩

theorem met_DebugEvents_14 : ∃ s : State, Live s :=
  ⟨b0, live_of (by decide +kernel)⟩

theorem met_DebugEvents_15 : ∃ (s : State) (i : JtagInstr), Live s ∧ (i = .extest ∨ i = .extestPulse ∨ i = .extestTrain) ∧ extestOk s = true :=
  ⟨{ b0 with md.mode := .idle, sec.dbg := 2 }, .extest, live_of (by decide +kernel), by decide +kernel⟩

theorem met_DebugEvents_16 : ∃ (s : State) (i : JtagInstr), Live s ∧ (i = .extest ∨ i = .extestPulse ∨ i = .extestTrain) ∧ extestOk s = false ∧
    (fltAt s .spd).mask.getLsbD 5 = false :=
  ⟨b0, .extestTrain, live_of (by decide +kernel), by decide +kernel⟩

theorem met_DebugEvents_17 : ∃ s : State, Live s :=
  ⟨b0, live_of (by decide +kernel)⟩

/-! ### RestartEvents -/

theorem met_RestartEvents_1 : ∃ s : State, Live s ∧ s.kpr.ready = true ∧ s.sec.halted = false ∧ inRetain s = false ∧
    (fltAt s .kpr).mask.getLsbD 0 = false :=
  ⟨b0, live_of (by decide +kernel), by decide +kernel⟩

theorem met_RestartEvents_2 : ∃ s : State, Live s ∧ s.kpr.ready = true ∧ s.sec.halted = false ∧ inRetain s = false :=
  ⟨b0, live_of (by decide +kernel), by decide +kernel⟩

theorem met_RestartEvents_3 : ∃ s : State, Live s ∧ s.sec.halted = true :=
  ⟨{ b0 with sec.halted := true }, live_of (by decide +kernel), by decide +kernel⟩

theorem met_RestartEvents_4 : ∃ (s : State) (i : Nat) (v : ImgInfo), Live s ∧ s.kpr.st = 3 ∧ bootImage s = some (i, v) :=
  ⟨{ b0 with kpr.st := 3 }, 0, ⟨0x0100, 0, 1536⟩, live_of (by decide +kernel), by decide +kernel⟩

theorem met_RestartEvents_5 : ∃ s : State, Live s ∧ s.kpr.st = 3 ∧ bootImage s = none :=
  ⟨{ b0 with kpr.st := 3, kpr.flash := false }, live_of (by decide +kernel), by decide +kernel⟩

theorem met_RestartEvents_6 : ∃ s : State, Live s ∧ serviceRuns s = true ∧ scratchBad s = false :=
  ⟨b0, live_of (by decide +kernel), by decide +kernel⟩

theorem met_RestartEvents_7 : ∃ s : State, Live s ∧ serviceRuns s = true ∧ scratchBad s = false ∧ (fltAt s .kpr).mask.getLsbD 3 = false :=
  ⟨b0, live_of (by decide +kernel), by decide +kernel⟩

theorem met_RestartEvents_8 : ∃ s : State, Live s ∧ serviceRuns s = true ∧ scratchBad s = true ∧ s.grave.held = false :=
  ⟨{ b0 with inner.scratch := { ue := [5] } }, live_of (by decide +kernel), by decide +kernel⟩

/-! ### ServiceEvents -/

theorem met_ServiceEvents_1 : ∃ (s : State) (i : Nat), Live s ∧ i < 28 ∧ serviceRuns s = false :=
  ⟨{ b0 with md.mode := .factory }, 27, live_of (by decide +kernel), by decide +kernel⟩

theorem met_ServiceEvents_2 : ∃ (s : State) (i : Nat), Live s ∧ i < 16 ∧ serviceRuns s = true :=
  ⟨b0, 15, live_of (by decide +kernel), by decide +kernel⟩

theorem met_ServiceEvents_3 : ∃ (s : State) (i : Nat), Live s ∧ i ∈ [17, 18] ∧ serviceRuns s = true :=
  ⟨b0, 18, live_of (by decide +kernel), by decide +kernel⟩

theorem met_ServiceEvents_4 : ∃ (s : State) (i : Nat) (v : BitVec 16) (lo hi : Nat), Live s ∧ i < 28 ∧ i ≠ 16 ∧ serviceRuns s = true ∧
    supplyRange i = some (lo, hi) ∧ lo ≤ v.toNat ∧ v.toNat ≤ hi :=
  ⟨b0, 26, 3465, 3135, 3465, live_of (by decide +kernel), by decide +kernel⟩

theorem met_ServiceEvents_5 : ∃ (s : State) (i : Nat) (v : BitVec 16) (lo hi : Nat), Live s ∧ i < 28 ∧ i ≠ 16 ∧ serviceRuns s = true ∧
    supplyRange i = some (lo, hi) ∧ (v.toNat < lo ∨ hi < v.toNat) ∧ (fltAt s .bgs).mask.getLsbD 5 = false :=
  ⟨b0, 20, 775, 776, 824, live_of (by decide +kernel), by decide +kernel⟩

theorem met_ServiceEvents_6 : ∃ (s : State) (v : BitVec 16), Live s ∧ serviceRuns s = true ∧ 650 ≤ v.toNat ∧ v.toNat ≤ 850 :=
  ⟨b0, 650, live_of (by decide +kernel), by decide +kernel⟩

theorem met_ServiceEvents_7 : ∃ (s : State) (v : BitVec 16), Live s ∧ serviceRuns s = true ∧ v &&& 0xFF7F = 0 :=
  ⟨b0, 0x0080, live_of (by decide +kernel), by decide +kernel⟩

theorem met_ServiceEvents_8 : ∃ (s : State) (v : BitVec 16), Live s ∧ serviceRuns s = true ∧ v &&& 0xFF7F ≠ 0 :=
  ⟨b0, 0x0100, live_of (by decide +kernel), by decide +kernel⟩

theorem met_ServiceEvents_9 : ∃ (s : State) (h b g : Nat), Live s ∧ h < nHives s ∧ b < 2 ∧ g < bankGranules b ∧ groomRuns s = true ∧
    (if b = 0 then (hiveAt s h).playReady else (hiveAt s h).catchReady) = true ∧
    ((wordsOf (combAddr h b (256 * g)) 256).any fun w => wordUe s w || s.combCe.contains w) = false :=
  ⟨b0, 1, 1, 2047, live_of (by decide +kernel), by decide +kernel⟩

theorem met_ServiceEvents_10 : ∃ (s : State) (h b g : Nat), Live s ∧ h < nHives s ∧ b < 2 ∧ g < bankGranules b ∧ groomRuns s = true ∧
    (if b = 0 then (hiveAt s h).playReady else (hiveAt s h).catchReady) = true :=
  ⟨{ b0 with combUe := [512], combCe := [513, 9] }, 0, 0, 16, live_of (by decide +kernel), by decide +kernel⟩

theorem met_ServiceEvents_11 : ∃ (s : State) (h b g : Nat), Live s ∧ h < nHives s ∧ b < 2 ∧ g < bankGranules b ∧ groomRuns s = true ∧
    (if b = 0 then (hiveAt s h).playReady else (hiveAt s h).catchReady) = true ∧ (b, g) ∉ (hiveAt s h).bad ∧ (sparesOf s (2 * h + b)).length < 16 ∧
    (fltAt s .cmb).mask.getLsbD 8 = false :=
  ⟨b0, 0, 0, 0, live_of (by decide +kernel), by decide +kernel⟩

theorem met_ServiceEvents_12 : ∃ (s : State) (h b g : Nat), Live s ∧ h < nHives s ∧ b < 2 ∧ g < bankGranules b ∧ groomRuns s = true ∧
    (if b = 0 then (hiveAt s h).playReady else (hiveAt s h).catchReady) = true ∧ (b, g) ∉ (hiveAt s h).bad ∧ 16 ≤ (sparesOf s (2 * h + b)).length :=
  ⟨{ b0 with hives := [(0, { playReady := true, catchReady := true, power := 0, sparesPlay := List.replicate 16 5 })] }, 0, 0, 0,
    live_of (by decide +kernel), by decide +kernel⟩

theorem met_ServiceEvents_13 : ∃ (s : State) (b g : Nat), Live s ∧ (b = 2 ∨ b = 3) ∧ g < groomSize b ∧ groomRuns s = true :=
  ⟨{ b0 with inner.scratch := { ce := [262143], ue := [5] } }, 2, 8191, live_of (by decide +kernel), by decide +kernel⟩

theorem met_ServiceEvents_14 : ∃ (s : State) (b g : Nat), Live s ∧ (b = 2 ∨ b = 3) ∧ g < groomSize b ∧ groomRuns s = true ∧
    g ∉ (innerMem s (decide (b = 2))).bad ∧ (innerMem s (decide (b = 2))).spares.length < 16 ∧ (fltAt s .cmb).mask.getLsbD 8 = false :=
  ⟨b0, 3, 16383, live_of (by decide +kernel), by decide +kernel⟩

theorem met_ServiceEvents_15 : ∃ (s : State) (m : EyeMeas), Live s ∧ m.lane < nLanes s ∧ serviceRuns s = true ∧ s.svc.eyePeriod ≠ 0 ∧
    (s.md.mode = .idle ∨ s.md.mode = .run ∨ s.md.mode = .safe) ∧ laneInData s m.lane = true ∧ ((∀ l,
    laneLink s true m.lane = some l → eyeOk (linkAt s l) m = true)) :=
  ⟨{ b0 with links := [(16, { st := .data, l := 1, m := 1 })] }, ⟨0, 77, 30, 0⟩, live_of (by decide +kernel), by decide +kernel⟩

theorem met_ServiceEvents_16 : ∃ (s : State) (m : EyeMeas) (l : Nat), Live s ∧ laneLink s true m.lane = some l ∧ m.lane < nLanes s ∧
    serviceRuns s = true ∧ s.svc.eyePeriod ≠ 0 ∧ (s.md.mode = .idle ∨ s.md.mode = .run ∨ s.md.mode = .safe) ∧ laneInData s m.lane = true ∧
    eyeOk (linkAt s l) m = false :=
  ⟨{ b0 with links := [(16, { st := .data, l := 1, m := 1 })] }, ⟨0, 76, 30, 0⟩, 16, live_of (by decide +kernel), rfl, by decide +kernel⟩

theorem met_ServiceEvents_17 : ∃ (s : State) (k n : Nat), Live s ∧ serviceRuns s = true ∧ s.svc.skewPeriod ≠ 0 ∧ s.col.role = 1 ∧ (s.md.mode = .idle ∨
    s.md.mode = .run) ∧ s.col.run = none ∧ k ∈ joinedPorts s ∧ 0 < n :=
  ⟨{ b0 with col.role := 1, col.ports := [(63, { st := 3 })] }, 63, 4096, live_of (by decide +kernel), by decide +kernel⟩

theorem met_ServiceEvents_18 : ∃ (s : State) (r : SkewRun), Live s ∧ s.col.run = some r ∧ serviceRuns s = true ∧ s.svc.skewPeriod ≠ 0 ∧
    s.col.role = 1 ∧ (s.md.mode = .idle ∨ s.md.mode = .run) ∧ r.service = false :=
  ⟨{ b0 with col.role := 1, col.ports := [(63, { st := 3 })], col.run := some ⟨3, 256, [63], [], [], false⟩ }, ⟨3, 256, [63], [], [], false⟩,
    live_of (by decide +kernel), rfl, by decide +kernel⟩

theorem met_ServiceEvents_19 : ∃ (s : State) (r : SkewRun) (k n : Nat), Live s ∧ s.col.run = some r ∧ serviceRuns s = true ∧ s.svc.skewPeriod ≠ 0 ∧
    s.col.role = 1 ∧ (s.md.mode = .idle ∨ s.md.mode = .run) ∧ r.service = true ∧ r.phase ≤ 2 ∧ k ∈ joinedPorts s ∧ 0 < n ∧
    (fltAt s .col).mask.getLsbD 8 = false :=
  ⟨{ b0 with col.role := 1, col.ports := [(63, { st := 3 })], col.run := some ⟨2, 256, [63], [], [], true⟩ }, ⟨2, 256, [63], [], [], true⟩, 63, 1,
    live_of (by decide +kernel), rfl, by decide +kernel⟩

theorem met_ServiceEvents_20 : ∃ s : State, Live s ∧ serviceRuns s = true ∧ s.kpr.flash = true ∧ storeDue s = true :=
  ⟨{ b0 with dev.storeUsed := 0x180000 }, live_of (by decide +kernel), by decide +kernel⟩

theorem met_ServiceEvents_21 : ∃ s : State, Live s ∧ serviceRuns s = true ∧ s.kpr.flash = true ∧ storeDue s = true ∧
    (fltAt s .bgs).mask.getLsbD 7 = false :=
  ⟨{ b0 with dev.storeUsed := 0x180000 }, live_of (by decide +kernel), by decide +kernel⟩

theorem met_ServiceEvents_22 : ∃ s : State, Live s ∧ serviceRuns s = true ∧ s.kpr.flash = true :=
  ⟨b0, live_of (by decide +kernel), by decide +kernel⟩

/-! ### FaultEvents -/

theorem met_FaultEvents_1 : ∃ s : State, Live s ∧ s.time.ready = false :=
  ⟨{ b0 with time := {} }, live_of (by decide +kernel), by decide +kernel⟩

theorem met_FaultEvents_2 : ∃ s : State, Live s ∧ s.time.ready = true ∧ s.grave.held = false :=
  ⟨b0, live_of (by decide +kernel), by decide +kernel⟩

theorem met_FaultEvents_3 : ∃ (s : State) (b : Nat), Live s ∧ b < 13 ∧ b ∈ s.grave.parityBad ∧ s.grave.held = false :=
  ⟨{ b0 with grave.parityBad := [12] }, 12, live_of (by decide +kernel), by decide +kernel⟩

theorem met_FaultEvents_4 : ∃ (s : State) (b : Nat), Live s ∧ b < 13 ∧ s.grave.held = false :=
  ⟨b0, 12, live_of (by decide +kernel), by decide +kernel⟩

theorem met_FaultEvents_5 : ∃ (s : State) (b : Nat), Live s ∧ b < 13 ∧ b ∉ s.grave.parityBad :=
  ⟨b0, 0, live_of (by decide +kernel), by decide +kernel⟩

theorem met_FaultEvents_6 : ∃ (s : State) (b : Nat) (k : Block), Live s ∧ blockOf b = some k ∧ (fltAt s k).running = true ∧
    s.time.tick < (fltAt s k).deadline :=
  ⟨{ b0 with faults := [(6, { running := true, deadline := 1000001 })] }, 6, .lnk, live_of (by decide +kernel), rfl, by decide +kernel⟩

theorem met_FaultEvents_7 : ∃ (s : State) (b : Nat) (k : Block), Live s ∧ blockOf b = some k ∧ (fltAt s k).running = true ∧
    s.time.tick = (fltAt s k).deadline ∧ clearFirst s b (fltAt s k).deadline = false ∧ reactionSafe k (fltAt s k) = true :=
  ⟨{ b0 with faults := [(6, { running := true, deadline := 1000000 })] }, 6, .lnk, live_of (by decide +kernel), rfl, by decide +kernel⟩

theorem met_FaultEvents_8 : ∃ (s : State) (b : Nat) (k : Block), Live s ∧ blockOf b = some k ∧ (fltAt s k).running = true ∧
    (fltAt s k).deadline ≤ s.time.tick ∧ clearFirst s b (fltAt s k).deadline = false ∧ reactionSafe k (fltAt s k) = false ∧
    reactionWaits s k (fltAt s k) = false :=
  ⟨{ b0 with faults := [(0, { running := true, deadline := 1000000 })] }, 0, .cel, live_of (by decide +kernel), rfl, by decide +kernel⟩

/-! ### WorkEvents -/

theorem met_WorkEvents_1 : ∃ (s : State) (x : Held) (w : List Held) (op k i a : Nat) (p : List Byte), Live s ∧
    Oldest s (fun c => (calPut c).isSome = true) x w ∧ calPut x.cmd = some (op, k, i, a, p) ∧ putWaits s x = false ∧ storeRoom s p = true :=
  ⟨{ b0 with works := [hd (.calWrite h0 1 0 1 [0, 0, 0, 0, 0, 0, 0, 0])] }, hd (.calWrite h0 1 0 1 [0, 0, 0, 0, 0, 0, 0, 0]), [], 0x0D01, 1, 0, 1, [0,
    0, 0, 0, 0, 0, 0, 0], live_of (by decide +kernel), oldest_head rfl (by decide +kernel) (by simp [hd, calPut]), by decide +kernel⟩

theorem met_WorkEvents_2 : ∃ (s : State) (b : Bool) (x : Held) (w : List Held) (op k i a : Nat) (p : List Byte), Live s ∧
    Oldest s (fun c => (calPut c).isSome = true) x w ∧ calPut x.cmd = some (op, k, i, a, p) ∧ putWaits s x = false ∧ (b = false ∨
    storeRoom s p = false) :=
  ⟨{ b0 with works := [hd (.calWrite h0 1 0 1 [0, 0, 0, 0, 0, 0, 0, 0])] }, false, hd (.calWrite h0 1 0 1 [0, 0, 0, 0, 0, 0, 0, 0]), [], 0x0D01, 1, 0,
    1, [0, 0, 0, 0, 0, 0, 0, 0], live_of (by decide +kernel), oldest_head rfl (by decide +kernel) (by simp [hd, calPut]), by decide +kernel⟩

theorem met_WorkEvents_3 : ∃ (s : State) (x : Held) (w : List Held), Live s ∧ (Oldest s (fun c => ∃ h i l m n, c = .calStart h i l m n) x w) ∧
    s.md.mode = .calibrate :=
  ⟨{ b0 with md.mode := .calibrate, md.origin := .idle, md.calItems := 31, md.calCells := [1, 5], md.calLanes := 3, md.calAux := 3, works := [hd (.calStart h0 31 [1, 5] 0 0)] },
    hd (.calStart h0 31 [1, 5] 0 0), [], live_of (by decide +kernel), oldest_head rfl (by decide +kernel) (by simp [hd]), by decide +kernel⟩

theorem met_WorkEvents_4 : ∃ (s : State) (x : Held) (w : List Held), Live s ∧ (Oldest s (fun c => ∃ h i l m n, c = .calStart h i l m n) x w) ∧
    s.md.mode = .calibrate ∧ bitOf s.md.calItems 1 = false ∧ bitOf s.md.calItems 2 = false :=
  ⟨{ b0 with md.mode := .calibrate, md.origin := .run, md.calItems := 25, md.calCells := [1, 5], md.calAux := 3, works := [hd (.calStart h0 31 [1, 5] 0 0)] },
    hd (.calStart h0 31 [1, 5] 0 0), [], live_of (by decide +kernel), oldest_head rfl (by decide +kernel) (by simp [hd]), by decide +kernel⟩

theorem met_WorkEvents_5 : ∃ (s : State) (n : Nat), Live s ∧ s.md.leave = some n ∧ s.md.mode = .calibrate ∧ s.md.origin = .run ∧ n ≤ s.time.tick :=
  ⟨{ b0 with md.mode := .calibrate, md.origin := .run, md.leave := some 1000000, md.calCells := [1] }, 1000000, live_of (by decide +kernel), rfl,
    by decide +kernel⟩

theorem met_WorkEvents_6 : ∃ (s : State) (n : Nat), Live s ∧ s.md.leave = some n ∧ s.md.mode = .calibrate ∧ s.md.origin = .idle ∧ n ≤ s.time.tick :=
  ⟨{ b0 with md.mode := .calibrate, md.origin := .idle, md.leave := some 1000000, md.calCells := [1] }, 1000000, live_of (by decide +kernel), rfl,
    by decide +kernel⟩

theorem met_WorkEvents_7 : ∃ (s : State) (x : Held) (w : List Held), Live s ∧ (Oldest s (fun c => ∃ h n k, c = .lcAdvance h n k) x w) ∧
    s.dev.lifecycle ≠ 3 :=
  ⟨{ b0 with works := [hd (.lcAdvance h0 3 0)] }, hd (.lcAdvance h0 3 0), [], live_of (by decide +kernel),
    oldest_head rfl (by decide +kernel) (by simp [hd]), by decide +kernel⟩

theorem met_WorkEvents_8 : ∃ (s : State) (x : Held) (w : List Held), Live s ∧ (Oldest s (fun c => ∃ h n k, c = .lcAdvance h n k) x w) ∧
    s.dev.lifecycle = 3 :=
  ⟨{ b0 with dev.lifecycle := 3, works := [hd (.lcAdvance h0 3 0)] }, hd (.lcAdvance h0 3 0), [], live_of (by decide +kernel),
    oldest_head rfl (by decide +kernel) (by simp [hd]), by decide +kernel⟩

/-! ### JournalEvents -/

theorem met_JournalEvents_1 : ∃ s : State, Live s ∧ s.jnl.st = 1 ∧ s.jnl.period ≠ 0 ∧ ((∀ n,
    newestCkpt s.jnl = some n → n + s.jnl.period ≤ s.time.tick)) :=
  ⟨{ b0 with jnl := { jn 1 with period := 1000 } }, live_of (by decide +kernel), by decide +kernel⟩

theorem met_JournalEvents_2 : ∃ (s : State) (n : Nat), Live s ∧ newestCkpt s.jnl = some n ∧ s.time.tick < n + s.jnl.period :=
  ⟨{ b0 with jnl := { jn 1 with period := 1001 } }, 999000, live_of (by decide +kernel), rfl, by decide +kernel⟩

theorem met_JournalEvents_3 : ∃ s : State, Live s ∧ s.jnl.period = 0 :=
  ⟨{ b0 with jnl := jn 1 }, live_of (by decide +kernel), by decide +kernel⟩

theorem met_JournalEvents_4 : ∃ (s : State) (x : Held) (w : List Held) (h : Hdr) (f l n o k : Nat), Live s ∧ (Oldest s (fun c => ∃ h f l d,
    c = .jnlExport h f l d) x w) ∧ x.cmd = .jnlExport h f l ⟨0, n⟩ ∧ ckptBefore s.jnl f = some (o, k) :=
  ⟨{ b0 with jnl := jn 1, works := [hd (.jnlExport h0 999000 999000 ⟨0, 0⟩)] }, hd (.jnlExport h0 999000 999000 ⟨0, 0⟩), [], h0, 999000, 999000, 0, 0,
    999000, live_of (by decide +kernel), oldest_head rfl (by decide +kernel) (by simp [hd]), rfl, by decide +kernel⟩

theorem met_JournalEvents_5 : ∃ (s : State) (x : Held) (w : List Held) (h : Hdr) (f l n o k : Nat), Live s ∧ (Oldest s (fun c => ∃ h f l d,
    c = .jnlExport h f l d) x w) ∧ x.cmd = .jnlExport h f l ⟨1, n⟩ ∧ ckptBefore s.jnl f = some (o, k) ∧
    spanReady s n (copyBytes (stretch s.jnl o l)) = true :=
  ⟨{ b0 with dmcs := [(0, dm)], jnl := jn 1, works := [hd (.jnlExport h0 999000 999000 ⟨1, 64⟩)] }, hd (.jnlExport h0 999000 999000 ⟨1, 64⟩), [], h0,
    999000, 999000, 64, 0, 999000, live_of (by decide +kernel), oldest_head rfl (by decide +kernel) (by simp [hd]), rfl, by decide +kernel⟩

theorem met_JournalEvents_6 : ∃ (s : State) (x : Held) (w : List Held) (h : Hdr) (f l : Nat) (d : Sel) (o k : Nat) (b : Bool), Live s ∧
    (Oldest s (fun c => ∃ h f l d, c = .jnlExport h f l d) x w) ∧ x.cmd = .jnlExport h f l d ∧ ckptBefore s.jnl f = some (o, k) ∧ (b = false ∨
    (d.kind = 1 ∧ spanReady s d.num (copyBytes (stretch s.jnl o l)) = false)) :=
  ⟨{ b0 with jnl := jn 1, works := [hd (.jnlExport h0 999000 999000 ⟨1, 0⟩)] }, hd (.jnlExport h0 999000 999000 ⟨1, 0⟩), [], h0, 999000, 999000, ⟨1,
    0⟩, 0, 999000, true, live_of (by decide +kernel), oldest_head rfl (by decide +kernel) (by simp [hd]), rfl, by decide +kernel⟩

theorem met_JournalEvents_7 : ∃ (s : State) (x : Held) (w : List Held) (h : Hdr) (d : Sel) (c : Export), Live s ∧ (Oldest s (fun c => ∃ h d,
    c = .jnlImport h d) x w) ∧ x.cmd = .jnlImport h d ∧ copyAt s d = some c :=
  ⟨{ b0 with dev.exports := [⟨true, 0, 0, .zw1024, 0x0100, 999000, 999000, 128, [], []⟩], works := [hd (.jnlImport h0 ⟨0, 0⟩)] },
    hd (.jnlImport h0 ⟨0, 0⟩), [], h0, ⟨0, 0⟩, ⟨true, 0, 0, .zw1024, 0x0100, 999000, 999000, 128, [], []⟩, live_of (by decide +kernel),
    oldest_head rfl (by decide +kernel) (by simp [hd]), rfl, rfl⟩

theorem met_JournalEvents_8 : ∃ (s : State) (x : Held) (w : List Held) (h : Hdr) (d : Sel), Live s ∧ (Oldest s (fun c => ∃ h d,
    c = .jnlImport h d) x w) ∧ x.cmd = .jnlImport h d :=
  ⟨{ b0 with works := [hd (.jnlImport h0 ⟨0, 0⟩)] }, hd (.jnlImport h0 ⟨0, 0⟩), [], h0, ⟨0, 0⟩, live_of (by decide +kernel),
    oldest_head rfl (by decide +kernel) (by simp [hd]), rfl⟩

/-! ### ReplayEvents -/

theorem met_ReplayEvents_1 : ∃ s : State, Live s ∧ s.rpl.st = 1 ∧ s.rpl.startAt ≤ s.time.tick :=
  ⟨{ b0 with rpl := { st := 1, startAt := 1000000 } }, live_of (by decide +kernel), by decide +kernel⟩

theorem met_ReplayEvents_2 : ∃ s : State, Live s ∧ s.rpl.st = 1 ∧ s.time.tick < s.rpl.startAt :=
  ⟨{ b0 with rpl := { st := 1, startAt := 1000001 } }, live_of (by decide +kernel), by decide +kernel⟩

theorem met_ReplayEvents_3 : ∃ s : State, Live s ∧ s.md.mode = .replay ∧ s.rpl.st = 2 ∧ dueEntry s = none :=
  ⟨{ b0 with md.mode := .replay, rpl := { st := 2 } }, live_of (by decide +kernel), by decide +kernel⟩

theorem met_ReplayEvents_4 : ∃ (s : State) (e : JEntry) (d c m : Nat) (i : Instr) (h : Hdr) (p : CSpec), Live s ∧ dueEntry s = some e ∧
    specOf i { s with rpl := { s.rpl with todo := s.rpl.todo.erase e } } = some (h, p) ∧ s.md.mode = .replay ∧ s.rpl.st = 2 ∧ e.pay = .cmd d c m i ∧
    replaySkips p.op = true :=
  ⟨{ b0 with md.mode := .replay, rpl := { st := 2, delta := 1, e := 1000000, todo := [⟨999999, 0, 0, 64, .cmd 999999 0 0 (.nop h0 [])⟩] } }, ⟨999999,
    0, 0, 64, .cmd 999999 0 0 (.nop h0 [])⟩, 999999, 0, 0, (.nop h0 []), h0, _, live_of (by decide +kernel), rfl, rfl, by decide +kernel⟩

theorem met_ReplayEvents_5 : ∃ (s : State) (e : JEntry) (d c m : Nat) (h : Hdr) (u : Sel), Live s ∧ dueEntry s = some e ∧ s.md.mode = .replay ∧
    s.rpl.st = 2 ∧ e.pay = .cmd d c m (.cellStart h u) :=
  ⟨{ b0 with md.mode := .replay, rpl := { st := 2, delta := 1, e := 1000000, todo := [⟨999999, 0, 0, 64, .cmd 999999 0 0 (.cellStart h0 ⟨0, 0⟩)⟩] } },
    ⟨999999, 0, 0, 64, .cmd 999999 0 0 (.cellStart h0 ⟨0, 0⟩)⟩, 999999, 0, 0, h0, ⟨0, 0⟩, live_of (by decide +kernel), rfl, by decide +kernel⟩

theorem met_ReplayEvents_6 : ∃ (s : State) (e : JEntry) (d c m : Nat) (h : Hdr) (a b k f g : Nat) (i : DWord) (x : Held), Live s ∧
    dueEntry s = some e ∧ x = (⟨d + s.rpl.delta, s.time.tick, c, 4, h.seq, s.kpr.nextSerial, false, .modeSet h a b k f g i⟩ : Held) ∧
    s.md.mode = .replay ∧ s.rpl.st = 2 ∧ e.pay = .cmd d c m (.modeSet h a b k f g i) :=
  ⟨{ b0 with md.mode := .replay, rpl := { st := 2, delta := 1, e := 1000000, todo := [⟨999999, 0, 0, 64, .cmd 999999 0 0 (.modeSet h0 6 0 0 0 0 0)⟩] } },
    ⟨999999, 0, 0, 64, .cmd 999999 0 0 (.modeSet h0 6 0 0 0 0 0)⟩, 999999, 0, 0, h0, 6, 0, 0, 0, 0, 0, _, live_of (by decide +kernel), rfl, rfl,
    by decide +kernel⟩

theorem met_ReplayEvents_7 : ∃ (s : State) (e : JEntry) (v : Event), Live s ∧ dueEntry s = some e ∧ s.md.mode = .replay ∧ s.rpl.st = 2 ∧
    e.pay = .event v false ∧ wagCarries s = true :=
  ⟨{ b0 with md.mode := .replay, rpl := { st := 2, delta := 1, e := 1000000, todo := [⟨999999, 0, 0, 64, .event ⟨999951, 3, true, 0, 0, false⟩ false⟩] } },
    ⟨999999, 0, 0, 64, .event ⟨999951, 3, true, 0, 0, false⟩ false⟩, ⟨999951, 3, true, 0, 0, false⟩, live_of (by decide +kernel), rfl,
    by decide +kernel⟩

theorem met_ReplayEvents_8 : ∃ (s : State) (e : JEntry) (v : Event), Live s ∧ dueEntry s = some e ∧ s.md.mode = .replay ∧ s.rpl.st = 2 ∧
    e.pay = .event v true ∧ wagCarries s = true :=
  ⟨{ b0 with md.mode := .replay, rpl := { st := 2, delta := 1, e := 1000000, todo := [⟨999999, 0, 0, 64, .event ⟨999951, 3, true, 0, 0, false⟩ true⟩] } },
    ⟨999999, 0, 0, 64, .event ⟨999951, 3, true, 0, 0, false⟩ true⟩, ⟨999951, 3, true, 0, 0, false⟩, live_of (by decide +kernel), rfl,
    by decide +kernel⟩

theorem met_ReplayEvents_9 : ∃ (s : State) (e : JEntry) (c n u : Nat), Live s ∧ dueEntry s = some e ∧ s.md.mode = .replay ∧ s.rpl.st = 2 ∧
    e.pay = .state 1 c n u ∧ (cellAt s c).st = .running :=
  ⟨{ b0 with md.mode := .replay, rpl := { st := 2, delta := 1, e := 1000000, todo := [⟨999999, 0, 0, 64, .state 1 0 0 0⟩] }, cells := [(0, cl .running)] },
    ⟨999999, 0, 0, 64, .state 1 0 0 0⟩, 0, 0, 0, live_of (by decide +kernel), rfl, by decide +kernel⟩

theorem met_ReplayEvents_10 : ∃ s : State, Live s ∧ s.md.mode = .replay ∧ s.rpl.st = 2 ∧ s.rpl.stopAt = none ∧ regionOver s = false :=
  ⟨{ b0 with md.mode := .replay, rpl := { st := 2, e := 1000001 } }, live_of (by decide +kernel), by decide +kernel⟩

theorem met_ReplayEvents_11 : ∃ (s : State) (n : Nat), Live s ∧ s.rpl.stopAt = some n ∧ s.md.mode = .replay ∧ s.rpl.st = 2 ∧ s.time.tick ≤ n :=
  ⟨{ b0 with md.mode := .replay, rpl := { st := 2, e := 1000001, stopAt := some 1000000 } }, 1000000, live_of (by decide +kernel), rfl,
    by decide +kernel⟩

theorem met_ReplayEvents_12 : ∃ (s : State) (n : Nat), Live s ∧ s.rpl.stopAt = some n ∧ s.md.mode = .replay ∧ s.rpl.st = 2 ∧ n < s.time.tick :=
  ⟨{ b0 with md.mode := .replay, rpl := { st := 2, e := 1000001, stopAt := some 999999 } }, 999999, live_of (by decide +kernel), rfl,
    by decide +kernel⟩

theorem met_ReplayEvents_13 : ∃ s : State, Live s ∧ s.md.mode = .replay ∧ s.rpl.st = 2 ∧ s.rpl.stopAt = none ∧ regionOver s = true :=
  ⟨{ b0 with md.mode := .replay, rpl := { st := 2, e := 999999 } }, live_of (by decide +kernel), by decide +kernel⟩

/-! ### StepRunsFrontCommand -/

theorem met_StepRunsFrontCommand_1 : ∃ (s : State) (c : Instr) (r : List Instr), s.pending = c :: r :=
  ⟨{ b0 with pending := [.powerOn] }, .powerOn, [], by decide +kernel⟩

/-! ### IdleStepTicks -/

theorem met_IdleStepTicks_1 : ∃ s : State, s.pending = [] ∧ alive s = false :=
  ⟨{ b0 with dev.resetN := false }, by decide +kernel⟩

theorem met_IdleStepTicks_2 : ∃ s : State, s.pending = [] ∧ alive s = true ∧ ((∀ d ∈ s.grave.due, s.time.tick + 1 < d.1)) ∧ ((∀ r,
    s.kpr.restartAt = some r → s.time.tick + 1 < r)) ∧ ((∀ r, s.kpr.resetAt = some r → s.time.tick + 1 < r)) ∧ ((∀ n,
    s.md.leave = some n → s.time.tick + 1 < n)) :=
  ⟨b0, by decide +kernel⟩

theorem met_IdleStepTicks_3 : ∃ (s : State) (r : Nat), s.kpr.restartAt = some r ∧ s.pending = [] ∧ alive s = true ∧ ((∀ d ∈ s.grave.due,
    s.time.tick + 1 < d.1)) ∧ r ≤ s.time.tick + 1 ∧ s.kpr.resetAt = none :=
  ⟨{ b0 with kpr.restartAt := some 1000001 }, 1000001, rfl, by decide +kernel⟩

theorem met_IdleStepTicks_4 : ∃ (s : State) (r : Nat), s.kpr.resetAt = some r ∧ s.pending = [] ∧ alive s = true ∧ ((∀ d ∈ s.grave.due,
    s.time.tick + 1 < d.1)) ∧ s.kpr.restartAt = none ∧ r ≤ s.time.tick + 1 :=
  ⟨{ b0 with kpr.resetAt := some 1000001 }, 1000001, rfl, by decide +kernel⟩

theorem met_IdleStepTicks_5 : ∃ (s : State) (n : Nat), s.md.leave = some n ∧ s.pending = [] ∧ alive s = true ∧ ((∀ d ∈ s.grave.due,
    s.time.tick + 1 < d.1)) ∧ s.kpr.restartAt = none ∧ s.kpr.resetAt = none ∧ s.md.mode = .calibrate ∧ n ≤ s.time.tick + 1 :=
  ⟨{ b0 with md.mode := .calibrate, md.origin := .run, md.leave := some 1000001 }, 1000001, rfl, by decide +kernel⟩

/-! ### QueueRunsDry -/

theorem met_QueueRunsDry_1 : ∃ (s : State) (c : Instr) (t : State), exec c s = .next t :=
  ⟨b0, .flashReady, _, rfl⟩

theorem met_QueueRunsDry_2 : ∃ (cs ds : List Instr) (s : State), s.pending = cs ++ ds :=
  ⟨[.flashReady], [.spiId], { b0 with pending := [.flashReady, .spiId] }, by decide +kernel⟩

/-! ### Outcomes -/

theorem met_Outcomes_1 : ∃ (s : State) (c : Instr), unitHere s c = true :=
  ⟨{ b0 with dev.variant := .zw0256 }, .fillAlarm 15, by decide +kernel⟩

theorem met_Outcomes_2 : ∃ (s : State) (c : Instr), unitHere s c = false :=
  ⟨{ b0 with dev.variant := .zw0256 }, .fillAlarm 16, by decide +kernel⟩

theorem met_Outcomes_9 : ∃ s : State, s.dev.variant = .zw1024 :=
  ⟨b0, by decide +kernel⟩

theorem met_Outcomes_10 : ∃ s : State, s.dev.variant = .zw0256 :=
  ⟨{ b0 with dev.variant := .zw0256 }, by decide +kernel⟩

theorem met_Outcomes_11 : ∃ (s : State) (c : Instr) (t : State), exec c s = .next t ∧ alive s = false ∧ powerRow c = false :=
  ⟨{ b0 with dev.resetN := false }, .flashReady, _, rfl, by decide +kernel⟩

/-! ### EpochsCount -/

theorem met_EpochsCount_1 : ∃ (s : State) (c : Instr) (t : State), exec c s = .next t ∧ alive s = true ∧ powerRow c = false :=
  ⟨b0, .flashReady, _, rfl, by decide +kernel⟩

/-! ### StepKeepsCanon -/

theorem met_StepKeepsCanon_1 : ∃ s t : State, Canon s ∧ step s = .next t :=
  ⟨{ b0 with pending := [.flashReady] }, _, canon_of (by decide +kernel), rfl⟩

/-! ### DeviceTimeNeverSteps -/

theorem met_DeviceTimeNeverSteps_1 : ∃ (s : State) (c : Instr) (t : State), exec c s = .next t ∧ s.time.ready = true ∧ powerRow c = false :=
  ⟨b0, .flashReady, _, rfl, by decide +kernel⟩

theorem met_DeviceTimeNeverSteps_2 : ∃ s t : State, step s = .next t ∧ s.time.ready = true ∧ alive s = true ∧ s.pending = [] :=
  ⟨b0, _, rfl, by decide +kernel⟩

/-! ### OwnersKept -/

theorem met_OwnersKept_1 : ∃ (s : State) (c : Instr) (t : State), exec c s = .next t ∧ powerRow c = false ∧ c ≠ .commandDecision :=
  ⟨b0, .flashReady, _, rfl, by decide +kernel⟩

/-! ### Acceptance -/

theorem met_Acceptance_1 : ∃ (s : State) (c : Instr) (h : Hdr) (p : CSpec), specOf c s = some (h, p) ∧ Accepts s h p :=
  ⟨b0, (.cellReset h0 1023), h0, _, rfl, accepts_of (by decide +kernel)⟩

theorem met_Acceptance_2 : ∃ (s : State) (c : Instr) (h : Hdr) (p : CSpec), specOf c s = some (h, p) ∧ Accepts s h p ∧ h.stale = false ∧
    p.op ≠ 0x0020 :=
  ⟨b0, (.cellReset h0 1023), h0, _, rfl, accepts_of (by decide +kernel), by decide +kernel⟩

theorem met_Acceptance_3 : ∃ (s : State) (h : Hdr) (a : List Byte) (p : CSpec), specOf (.nop h a) s = some (h, p) ∧ Accepts s h p ∧ h.stale = false :=
  ⟨b0, h0, [1], _, rfl, accepts_of (by decide +kernel), by decide +kernel⟩

theorem met_Acceptance_4 : ∃ (s : State) (h : Hdr) (p : CSpec), specOf (.deviceInfo h) s = some (h, p) ∧ Accepts s h p ∧ h.stale = false :=
  ⟨b0, h0, _, rfl, accepts_of (by decide +kernel), by decide +kernel⟩

theorem met_Acceptance_5 : ∃ (s : State) (h : Hdr) (p : CSpec), specOf (.fwInfo h) s = some (h, p) ∧ Accepts s h p ∧ h.stale = false :=
  ⟨b0, h0, _, rfl, accepts_of (by decide +kernel), by decide +kernel⟩

theorem met_Acceptance_6 : ∃ (s : State) (h : Hdr) (n : Nat) (p : CSpec), specOf (.synCoefRead h n) s = some (h, p) ∧ Accepts s h p ∧
    h.stale = false :=
  ⟨b0, h0, 63, _, rfl, accepts_of (by decide +kernel), by decide +kernel⟩

theorem met_Acceptance_7 : ∃ (s : State) (h : Hdr) (k i o : Nat) (p : CSpec) (b : List Byte), specOf (.calRead h k i o) s = some (h, p) ∧
    Accepts s h p ∧ calReadBytes s k i o = some b ∧ h.stale = false :=
  ⟨{ b0 with dev.otp := [⟨1, 0, 0, [0, 0, 0, 0, 0, 0, 0, 0], false⟩] }, h0, 1, 0, 0, _, _, rfl, accepts_of (by decide +kernel), rfl,
    by decide +kernel⟩

/-! ### Rejections -/

theorem met_Rejections_1 : ∃ (s : State) (c : Instr) (h : Hdr) (p : CSpec), specOf c s = some (h, p) ∧ Live s ∧ h.ctx < 16 ∧ h.mb < 4 ∧
    refusesPost s h.ctx h.mb = true :=
  ⟨{ b0 with kpr.ready := false }, (.cellReset h0 0), h0, _, rfl, live_of (by decide +kernel), by decide +kernel⟩

theorem met_Rejections_2 : ∃ (s : State) (c : Instr) (h : Hdr) (p : CSpec), specOf c s = some (h, p) ∧ Live s ∧ h.ctx < 16 ∧ h.mb < 4 ∧
    refusesPost s h.ctx h.mb = false ∧ (mbAt s h.ctx h.mb).asm.isSome = true :=
  ⟨{ b0 with mailboxes := [(0, { asm := some ⟨seg0, [], 0, 900000⟩ })] }, (.cellReset h0 0), h0, _, rfl, live_of (by decide +kernel),
    by decide +kernel⟩

theorem met_Rejections_3 : ∃ (s : State) (c : Instr) (h : Hdr) (p : CSpec) (e : Err) (r : List Byte), specOf c s = some (h, p) ∧ Live s ∧
    seqErr s h.ctx h.mb h.seq = some (e, r) ∧ h.ctx < 16 ∧ h.mb < 4 ∧ refusesPost s h.ctx h.mb = false ∧ (mbAt s h.ctx h.mb).asm = none :=
  ⟨{ b0 with mailboxes := [(0, { seqFree := false, lastSeq := 5 })] }, (.cellReset h0 0), h0, _, _, _, rfl, live_of (by decide +kernel), rfl,
    by decide +kernel⟩

theorem met_Rejections_4 : ∃ (s : State) (c : Instr) (h : Hdr) (p : CSpec) (e : Err), specOf c s = some (h, p) ∧ Live s ∧ judgeErr s h p = some e ∧
    h.ctx < 16 ∧ h.mb < 4 ∧ refusesPost s h.ctx h.mb = false ∧ (mbAt s h.ctx h.mb).asm = none ∧ seqErr s h.ctx h.mb h.seq = none :=
  ⟨{ b0 with md.mode := .replay }, (.cellReset h0 0), h0, _, _, rfl, live_of (by decide +kernel), rfl, by decide +kernel⟩

theorem met_Rejections_5 : ∃ (s : State) (c m q : Nat), q = (mbAt s c m).lastSeq ∧ (mbAt s c m).seqFree = false :=
  ⟨{ b0 with mailboxes := [(63, { seqFree := false, lastSeq := 65535 })] }, 15, 3, 65535, rfl, by decide +kernel⟩

theorem met_Rejections_6 : ∃ (s : State) (c m q : Nat), (mbAt s c m).seqFree = false ∧ q ≠ (mbAt s c m).lastSeq ∧
    q ≠ ((mbAt s c m).lastSeq + 1) % 65536 :=
  ⟨{ b0 with mailboxes := [(63, { seqFree := false, lastSeq := 65535 })] }, 15, 3, 1, by decide +kernel⟩

theorem met_Rejections_7 : ∃ (s : State) (h : Hdr) (p : CSpec), (p.permitted = false ∨ ctxEnabled s h.ctx = false) :=
  ⟨b0, h0, { op := 1, permitted := false }, by decide +kernel⟩

theorem met_Rejections_8 : ∃ (s : State) (h : Hdr) (p : CSpec), p.permitted = true ∧ ctxEnabled s h.ctx = true ∧ ((p.noTime = false ∧
    s.time.ready = false) ∨ p.ready = false ∨ (s.kpr.st = 4 ∧ recoveryOp p.op = false)) :=
  ⟨b0, h0, { op := 1, ready := false }, by decide +kernel⟩

theorem met_Rejections_9 : ∃ (s : State) (h : Hdr) (p : CSpec), judgeErr s h p = none ∧ s.md.mode = .replay :=
  ⟨{ b0 with md.mode := .replay }, h0, { op := 1 }, by decide +kernel⟩

theorem met_Rejections_10 : ∃ (s : State) (h : Hdr) (p : CSpec), judgeErr s h p = none :=
  ⟨b0, h0, { op := 1 }, by decide +kernel⟩

theorem met_Rejections_11 : ∃ (s : State) (h : Hdr) (p : CSpec), judgeErr s h p = none ∧ h.chk = true :=
  ⟨b0, { h0 with chk := true }, { op := 1, unit := some (0, 0) }, by decide +kernel⟩

/-! ### DecisionOrder -/

theorem met_DecisionOrder_1 : ∃ (l : List Held) (x : Held), firstHeld l = some x :=
  ⟨[hd (.cellReset h0 0)], (hd (.cellReset h0 0)), rfl⟩

theorem met_DecisionOrder_2 : ∃ (l : List Held) (x : Held), x ∈ l :=
  ⟨[hd (.cellReset h0 0)], (hd (.cellReset h0 0)), by decide +kernel⟩

theorem met_DecisionOrder_3 : ∃ s : State, Live s ∧ firstHeld s.held = none :=
  ⟨b0, live_of (by decide +kernel), by decide +kernel⟩

theorem met_DecisionOrder_4 : ∃ (s : State) (x : Held), Live s ∧ firstHeld s.held = some x ∧ s.time.tick < x.dec :=
  ⟨{ b0 with held := [{ hd (.cellReset h0 0) with dec := 1000001 }] }, { hd (.cellReset h0 0) with dec := 1000001 }, live_of (by decide +kernel), rfl,
    by decide +kernel⟩

theorem met_DecisionOrder_5 : ∃ (s : State) (x : Held), Live s ∧ firstHeld s.held = some x ∧ mustWait s x = true :=
  ⟨{ b0 with faults := [(0, { running := true, deadline := 999999 })], held := [hd (.faultClear h0 0 1 0)] }, (hd (.faultClear h0 0 1 0)),
    live_of (by decide +kernel), rfl, by decide +kernel⟩

theorem met_DecisionOrder_6 : ∃ a b : Held, a.dec < b.dec :=
  ⟨{ hd (.cellReset h0 0) with dec := 999999 }, (hd (.cellReset h0 0)), by decide +kernel⟩

theorem met_DecisionOrder_7 : ∃ (a b : Held) (h : Hdr) (c : Sel), ((∃ g k, b.cmd = .cellStart g k)) ∧ a.dec = b.dec ∧ a.cmd = .cellStop h c :=
  ⟨(hd (.cellStop h0 ⟨0, 0⟩)), (hd (.cellStart h0 ⟨0, 0⟩)), h0, ⟨0, 0⟩, ⟨_, _, rfl⟩, by decide +kernel⟩

/-! ### MailboxReset -/

theorem met_MailboxReset_1 : ∃ (s : State) (c m : Nat), Live s ∧ c < 16 ∧ m < 4 ∧ (mbAt s c m).pending = false :=
  ⟨b0, 15, 3, live_of (by decide +kernel), by decide +kernel⟩

theorem met_MailboxReset_2 : ∃ (s : State) (c m : Nat), Live s ∧ c < 16 ∧ m < 4 ∧ (mbAt s c m).pending = true :=
  ⟨{ b0 with mailboxes := [(63, { pending := true })] }, 15, 3, live_of (by decide +kernel), by decide +kernel⟩

theorem met_MailboxReset_3 : ∃ s : State, s.dev.powered = false :=
  ⟨{ b0 with dev.powered := false }, by decide +kernel⟩

theorem met_MailboxReset_4 : ∃ (s : State) (x : Held) (h : Hdr), Decides s x (.warmReset h) ∧ x.mb < 4 ∧ warmBlocked (reached s x) = false :=
  ⟨{ b0 with held := [hd (.warmReset h0)] }, hd (.warmReset h0), h0, decides_of (by decide +kernel), by decide +kernel⟩

theorem met_MailboxReset_5 : ∃ s : State, Live s ∧ s.kpr.ready = true ∧ s.sec.halted = false ∧ s.md.mode ≠ .standby :=
  ⟨b0, live_of (by decide +kernel), by decide +kernel⟩

theorem met_MailboxReset_6 : ∃ s : State, Live s ∧ s.kpr.ready = true ∧ s.sec.halted = false ∧ s.md.mode ≠ .standby :=
  ⟨b0, live_of (by decide +kernel), by decide +kernel⟩

/-! ### EndpointReset -/

theorem met_EndpointReset_1 : ∃ s : State, Live s :=
  ⟨b0, live_of (by decide +kernel)⟩

theorem met_EndpointReset_2 : ∃ s : State, Live s ∧ s.kpr.pcieUp = true ∧ (fltAt s .kpr).mask.getLsbD 5 = false :=
  ⟨b0, live_of (by decide +kernel), by decide +kernel⟩

theorem met_EndpointReset_3 : ∃ s : State, Live s ∧ s.kpr.pcieUp = true ∧ (fltAt s .kpr).mask.getLsbD 5 = true :=
  ⟨{ b0 with faults := [(9, { mask := 32 })] }, live_of (by decide +kernel), by decide +kernel⟩

end Sys2Proof.Tests
end

/-! Proofs about scope: where a command answers and where it stops (R2, R3, R19, R426). -/

namespace Sys2Proof.Scope

open Sys2Proof Sys2Proof.Machine Sys2Proof.Safety Sys2Proof.Laws

/-- Every arm of `exec` but the four of the supplies and RESET_N is an effect under exactly the guard that `unitHere` reads off the
operands. -/
theorem exec_eq_actOn (s : State) (c : Instr) (hp : powerRow c = false) :
    ∃ f, exec c s = actOn (unitHere s c) s f := by
  cases c
  case powerOn | powerOff | resetNAssert | resetNRelease => cases hp
  all_goals exact ⟨_, rfl⟩

/-- The rows of the supplies and RESET_N name no unit and answer a next state even of a block that is off. -/
theorem exec_powerRow (s : State) (c : Instr) (hp : powerRow c = true) :
    unitHere s c = true ∧ ∃ t, exec c s = .next t := by
  cases c
  case powerOn | powerOff | resetNAssert | resetNRelease => exact ⟨rfl, _, rfl⟩
  all_goals cases hp

theorem act_next (s : State) (f : State → State) : ∃ t, act s f = .next t := by
  unfold act
  split <;> exact ⟨_, rfl⟩

/-- A command answers a next state where its unit is there. -/
theorem exec_next_of_unitHere {s : State} {c : Instr} (h : unitHere s c = true) : ∃ t, exec c s = .next t := by
  cases hp : powerRow c with
  | true => exact (exec_powerRow s c hp).2
  | false =>
    obtain ⟨f, hf⟩ := exec_eq_actOn s c hp
    rw [hf, h]
    exact act_next s f

/-- A command stops where its unit is not there. -/
theorem exec_fault_of_not_unitHere {s : State} {c : Instr} (h : unitHere s c = false) : exec c s = .fault .absentUnit := by
  cases hp : powerRow c with
  | true => simp [(exec_powerRow s c hp).1] at h
  | false =>
    obtain ⟨f, hf⟩ := exec_eq_actOn s c hp
    rw [hf, h]
    rfl

theorem exec_fault_iff (s : State) (c : Instr) : exec c s = .fault .absentUnit ↔ unitHere s c = false := by
  refine ⟨fun hx => ?_, exec_fault_of_not_unitHere⟩
  by_contra h
  obtain ⟨t, ht⟩ := exec_next_of_unitHere (Bool.not_eq_false _ ▸ h)
  cases hx.symm.trans ht

theorem exec_next_or_fault (s : State) (c : Instr) : (∃ t, exec c s = .next t) ∨ exec c s = .fault .absentUnit := by
  cases h : unitHere s c with
  | true => exact .inl (exec_next_of_unitHere h)
  | false => exact .inr (exec_fault_of_not_unitHere h)

/-- A block that is off, or held in reset, is left as it is. -/
theorem exec_off {s t : State} {c : Instr} (ha : alive s = false) (hp : powerRow c = false) (h : exec c s = .next t) : t = s := by
  rcases exec_shape s c hp with hf | ⟨-, hn⟩ | ⟨ha', -⟩
  · cases h.symm.trans hf
  · cases h.symm.trans hn
    rfl
  · simp [ha] at ha'

/-- Settles O50: each arm of `exec` acts under the guard of `unitHere`, and a block that is off takes only the supplies' rows. -/
theorem outcomes : Obligations.Outcomes := by
  unfold Obligations.Outcomes
  refine ⟨fun _ _ => exec_next_of_unitHere, fun _ _ => exec_fault_of_not_unitHere, exec_next_or_fault, ?_, ?_, ?_, ?_, ?_, ?_, ?_,
    fun _ _ _ => exec_off⟩
  · intro s c l
    simp [exec_fault_iff, unitHere, specOf]
  · intro s h b
    simp [exec_fault_iff, unitHere, specOf]
  · intro s c
    simp [exec_fault_iff, unitHere, specOf]
  · intro s p l
    simp [exec_fault_iff, unitHere, specOf]
  · intro s c m
    simp only [exec_fault_iff, unitHere, specOf, Bool.and_eq_false_iff, decide_eq_false_iff_not, Nat.not_lt]
  · intro s hv
    simp [nCells, nHives, nDmc, hv]
  · intro s hv
    simp [nCells, nHives, nDmc, hv]

end Sys2Proof.Scope

/-! What a recorded fault, a rejection and a found disagreement leave (R327, R333, R344, R412). -/

namespace Sys2Proof.Scope

open Sys2Proof Sys2Proof.Machine Sys2Proof.Safety Sys2Proof.Laws

/-! ### Faults recorded -/

/-- A recorded fault raises causes and leaves every other setting of a context. -/
theorem ctxAt_raise (s : State) (o : Occ) (j : Nat) :
    ctxAt (raise s o) j = { ctxAt s j with irqStatus := (ctxAt (raise s o) j).irqStatus } := by
  have hflt (x : FaultBlk) : ctxAt (irq (modFlt s o.block fun _ => x) 0 5) j =
      { ctxAt s j with irqStatus := (ctxAt (irq (modFlt s o.block fun _ => x) 0 5) j).irqStatus } :=
    ctxAt_irq _ 0 j (by omega)
  unfold raise
  dsimp only
  split
  · rfl
  · split
    · rw [ctxAt_irq _ _ j (by omega : 5 < 32), hflt]
    · exact hflt _

/-- A recorded fault changes the fault registers alone. -/
theorem raise_same (s : State) (o : Occ) : SameBut [.faults] s (raise s o) := by
  refine ⟨fun p hp => ?_⟩
  cases p with
  | faults => simp at hp
  | contexts => exact ⟨raise_msixOpen .., ctxAt_raise s o⟩
  | _ => simp [Part.Same]

theorem mbAt_raise (s : State) (o : Occ) (c m : Nat) : mbAt (raise s o) c m = mbAt s c m := by simp [mbAt]

/-! ### Rejections -/

theorem mbAt_modPort (s : State) (k : Nat) (f : Port → Port) (c m : Nat) : mbAt (modPort s k f) c m = mbAt s c m := rfl

theorem mbAt_settle (s0 s : State) (c m : Nat) : mbAt (settle s0 s) c m = mbAt s c m := by simp [mbAt]

theorem modMb_twf {s : State} (hw : twf {} s.mailboxes = true) (c m : Nat) (f : Mailbox → Mailbox) :
    twf {} (modMb s c m f).mailboxes = true := by
  show twf {} (tmod {} s.mailboxes (4 * c + m) f) = true
  exact twf_tmod hw ..

/-- What a mailbox keeps of the frames it has taken: LAST_SEQ, SEQ_FREE and the command being assembled. -/
structure TakenSame (x y : Mailbox) : Prop where
  lastSeq : y.lastSeq = x.lastSeq
  seqFree : y.seqFree = x.seqFree
  asm : y.asm = x.asm

theorem TakenSame.trans {x y z : Mailbox} (h : TakenSame x y) (h' : TakenSame y z) : TakenSame x z :=
  ⟨h'.lastSeq.trans h.lastSeq, h'.seqFree.trans h.seqFree, h'.asm.trans h.asm⟩

/-- A reply leaves what its mailbox keeps of the frames taken. -/
theorem writeReply_taken {s : State} (hw : twf {} s.mailboxes = true) (c m : Nat) (r : Reply) :
    TakenSame (mbAt s c m) (mbAt (writeReply s c m r) c m) := by
  unfold writeReply
  dsimp only
  split
  · simp only [tunnelOut, mbAt_modPort, mbAt_modMb hw]
    exact ⟨rfl, rfl, rfl⟩
  · simp only [mbAt_irq, mbAt_modMb hw]
    exact ⟨rfl, rfl, rfl⟩

theorem mbAt_reject (s : State) (c m op seq : Nat) (e : Err) (un : Option (Nat × Nat)) (r : List Byte) :
    mbAt (reject s c m op seq e un r) c m = mbAt (answer s c m op seq e un 0 r) c m := by
  unfold reject
  dsimp only
  split
  · rw [mbAt_raise]
  · rfl

/-- A rejection leaves what its mailbox keeps of the frames taken. -/
theorem reject_taken {s : State} (hw : twf {} s.mailboxes = true) (c m op seq : Nat) (e : Err) (un : Option (Nat × Nat))
    (r : List Byte) : TakenSame (mbAt s c m) (mbAt (reject s c m op seq e un r) c m) := by
  rw [mbAt_reject]
  exact writeReply_taken hw c m _

/-- A rejection leaves its reply in the mailbox. -/
theorem reject_rejected {s u : State} {c m op seq : Nat} {e : Err} {un : Option (Nat × Nat)} {r : List Byte}
    (hw : twf {} u.mailboxes = true) (hm : (mbAt u c m).tunnel = (mbAt s c m).tunnel) (ht : u.time.tick = s.time.tick) :
    Rejected s (reject u c m op seq e un r) c m op seq e r := by
  intro htun
  rw [mbAt_reject]
  simp only [answer, writeReply, hm, htun, mbAt_irq, mbAt_modMb hw]
  exact ⟨trivial, _, rfl, rfl, rfl, rfl, rfl, ht, rfl⟩

/-- Settling keeps what a rejection left. -/
theorem rejected_settled {s t : State} {c m op seq : Nat} {e : Err} {r : List Byte} (h : Rejected s t c m op seq e r)
    (s0 : State) : Rejected s (settle s0 t) c m op seq e r := by
  intro ht
  simpa only [mbAt_settle] using h ht

/-- A rejection for another error than that of a damaged frame records no fault. -/
theorem reject_same_quiet (s : State) {c m : Nat} (hm : m ≤ 4) (op seq : Nat) {e : Err} (un : Option (Nat × Nat))
    (r : List Byte) (hc : e ≠ .badCrc) (hf : e ≠ .badFrame) : SameBut [.mailboxes, .col] s (reject s c m op seq e un r) := by
  simp only [reject, hc, hf, or_self, if_false]
  exact answer_same s hm ..

/-- A rejection changes its mailbox, a colony port that the frame came over, and FRAME_ERR. -/
theorem reject_same (s : State) {c m : Nat} (hm : m ≤ 4) (op seq : Nat) (e : Err) (un : Option (Nat × Nat)) (r : List Byte) :
    SameBut [.mailboxes, .col, .faults] s (reject s c m op seq e un r) := by
  have ha : SameBut [.mailboxes, .col, .faults] s (answer s c m op seq e un 0 r) := (answer_same s hm ..).mono (by simp)
  unfold reject
  dsimp only
  split
  · exact ha.trans ((raise_same ..).mono (by simp))
  · exact ha

/-! ### A disagreement found (R344) -/

/-- `t` is `s` but for fault registers, causes, the commands held with their numbering, the journal and the keeper's count of
disagreements: all that finding one can change (R217, R344). -/
def FindingOf (s t : State) : Prop :=
  ∃ faults contexts msix msixPba held jnl count last serial,
    t = { s with
      faults := faults, contexts := contexts, msix := msix, msixPba := msixPba, held := held, jnl := jnl,
      kpr := { s.kpr with divergedCount := count, lastDiverged := last, nextSerial := serial } }

theorem FindingOf.trans {s t u : State} : FindingOf s t → FindingOf t u → FindingOf s u := by
  rintro ⟨_, _, _, _, _, _, _, _, _, rfl⟩ ⟨_, _, _, _, _, _, _, _, _, rfl⟩
  exact ⟨_, _, _, _, _, _, _, _, _, rfl⟩

theorem irq_finding (s : State) (k b : Nat) : FindingOf s (irq s k b) := ⟨_, _, _, _, _, _, _, _, _, irq_eq s k b⟩

theorem raise_finding (s : State) (o : Occ) : FindingOf s (raise s o) := ⟨_, _, _, _, _, _, _, _, _, raise_eq s o⟩

theorem firmwareRaise_finding (w : Nat) (s : State) : FindingOf s (firmwareRaise w s) := by
  unfold firmwareRaise
  dsimp only
  split
  · exact ⟨_, _, _, _, _, _, _, _, _, rfl⟩
  · rw [jput_eq]
    exact ⟨_, _, _, _, _, _, _, _, _, rfl⟩

theorem diverge_finding (u : Sel) (s : State) : FindingOf s (diverge u s) := by
  have hcount (n : Nat) (w : Word) : FindingOf s { s with kpr := { s.kpr with divergedCount := n, lastDiverged := w } } :=
    ⟨_, _, _, _, _, _, _, _, _, rfl⟩
  exact (hcount _ _).trans <| (raise_finding _ _).trans <| (irq_finding _ _ _).trans <| (irq_finding _ _ _).trans <|
    firmwareRaise_finding _ _

theorem FindingOf.time {s t : State} : FindingOf s t → t.time = s.time := by
  rintro ⟨_, _, _, _, _, _, _, _, _, rfl⟩
  rfl

theorem FindingOf.mailboxes {s t : State} : FindingOf s t → t.mailboxes = s.mailboxes := by
  rintro ⟨_, _, _, _, _, _, _, _, _, rfl⟩
  rfl

theorem ctxAt_firmwareRaise (w : Nat) (s : State) (k : Nat) : ctxAt (firmwareRaise w s) k = ctxAt s k := by
  unfold firmwareRaise
  dsimp only
  split
  · rfl
  · rw [jput_eq]
    rfl

/-- A disagreement found raises causes and leaves every context enabled as it was. -/
theorem ctxEnabled_diverge (u : Sel) (s : State) (k : Nat) : ctxEnabled (diverge u s) k = ctxEnabled s k := by
  have h : (ctxAt (diverge u s) k).enabled = (ctxAt s k).enabled := by
    unfold diverge
    dsimp only
    rw [ctxAt_firmwareRaise, ctxAt_irq _ _ k (by omega : 7 < 32), ctxAt_irq _ _ k (by omega : 7 < 32), ctxAt_raise]
    rfl
  simp only [ctxEnabled, h]

/-- What a judgement reads beside the context is nothing that finding a disagreement changes. -/
theorem FindingOf.judgeErr {s t : State} {h : Hdr} (hf : FindingOf s t) (hc : ctxEnabled t h.ctx = ctxEnabled s h.ctx)
    (p : CSpec) : judgeErr t h p = judgeErr s h p := by
  obtain ⟨_, _, _, _, _, _, _, _, _, rfl⟩ := hf
  simp only [Machine.judgeErr, hc]
  rfl

/-- A command is judged against hardware: a disagreement found on the way changes no judgement. -/
theorem judgeErr_diverge (u : Sel) (s : State) (h : Hdr) (p : CSpec) : judgeErr (diverge u s) h p = judgeErr s h p :=
  (diverge_finding u s).judgeErr (ctxEnabled_diverge u s h.ctx) p

theorem judgeErr_modMb (s : State) (c m : Nat) (f : Mailbox → Mailbox) (h : Hdr) (p : CSpec) :
    judgeErr (modMb s c m f) h p = judgeErr s h p := rfl

theorem findStale_fresh {h : Hdr} (hs : h.stale = false) (p : CSpec) (s : State) : findStale h p s = s := by
  unfold findStale
  split <;> simp [hs]

/-- What `findStale` can answer: nothing found, or the disagreement recorded and marked in the mailbox. -/
theorem findStale_cases (h : Hdr) (p : CSpec) (s : State) :
    findStale h p s = s ∨ ∃ u, findStale h p s = modMb (diverge u s) h.ctx h.mb fun m => { m with found := true } := by
  unfold findStale
  split
  · split
    · exact .inr ⟨_, rfl⟩
    · exact .inl rfl
  · exact .inl rfl

theorem judgeErr_findStale (h : Hdr) (p : CSpec) (s : State) : judgeErr (findStale h p s) h p = judgeErr s h p := by
  rcases findStale_cases h p s with e | ⟨u, e⟩ <;> rw [e]
  rw [judgeErr_modMb, judgeErr_diverge]

theorem findStale_time (h : Hdr) (p : CSpec) (s : State) : (findStale h p s).time = s.time := by
  rcases findStale_cases h p s with e | ⟨u, e⟩ <;> rw [e]
  exact (diverge_finding u s).time

theorem findStale_twf {h : Hdr} {p : CSpec} {s : State} (hw : twf {} s.mailboxes = true) :
    twf {} (findStale h p s).mailboxes = true := by
  rcases findStale_cases h p s with e | ⟨u, e⟩ <;> rw [e]
  · exact hw
  · exact modMb_twf ((diverge_finding u s).mailboxes ▸ hw) ..

/-- A disagreement found is marked in the command's mailbox and changes nothing else there. -/
theorem findStale_mailbox {h : Hdr} {p : CSpec} {s : State} (hw : twf {} s.mailboxes = true) :
    ∃ b, mbAt (findStale h p s) h.ctx h.mb = { mbAt s h.ctx h.mb with found := b } := by
  rcases findStale_cases h p s with e | ⟨u, e⟩ <;> rw [e]
  · exact ⟨_, rfl⟩
  · have hm := (diverge_finding u s).mailboxes
    rw [mbAt_modMb (hm.symm ▸ hw), mbAt, hm]
    exact ⟨true, rfl⟩


/-! ### What a rejection for a command's own check does beside the reply -/

/-- An effect that leaves the mailboxes, device time and the commands held. -/
structure LeavesPosting (f : State → State) : Prop where
  mailboxes : ∀ s, (f s).mailboxes = s.mailboxes
  time : ∀ s, (f s).time = s.time
  held : ∀ s, (f s).held = s.held

theorem leavesPosting_id : LeavesPosting id := ⟨fun _ => rfl, fun _ => rfl, fun _ => rfl⟩

theorem LeavesPosting.ite {f g : State → State} (hf : LeavesPosting f) (hg : LeavesPosting g) (p : Prop) [Decidable p] :
    LeavesPosting (if p then f else g) := by
  split
  · exact hf
  · exact hg

theorem LeavesPosting.iteAt {f g : State → State} (hf : LeavesPosting f) (hg : LeavesPosting g) (p : State → Prop)
    [DecidablePred p] : LeavesPosting fun s => if p s then f s else g s := by
  constructor <;> intro s <;> split
  exacts [hf.mailboxes s, hg.mailboxes s, hf.time s, hg.time s, hf.held s, hg.held s]

theorem leavesPosting_spdFault (bit cls obj : Nat) : LeavesPosting (spdFault bit cls obj) :=
  ⟨fun s => raise_mailboxes s _, fun s => raise_time s _, fun s => raise_held s _⟩

theorem leavesPosting_armUe (c : Nat) (a : ArmArgs) : LeavesPosting (armUe c a) := by
  constructor <;> intro s <;> simp only [armUe, ueData, combFault] <;> (repeat' split) <;> simp

theorem leavesPosting_authFail (ctx : Nat) : LeavesPosting (authFail ctx) := by
  constructor <;> intro s <;> simp only [authFail, spdFault] <;> split <;> simp

theorem leavesPosting_freezeLine (master acc line : Nat) : LeavesPosting (freezeLine master acc line) := by
  constructor <;> intro s <;> simp only [freezeLine, dmcFault] <;> (repeat' split) <;> simp

theorem leavesPosting_touchLine (master acc line : Nat) : LeavesPosting (touchLine master acc line) := by
  have hz := leavesPosting_freezeLine master acc line
  constructor <;> intro s <;> simp only [touchLine, dmcFault] <;> (repeat' split) <;>
    simp [hz.mailboxes, hz.time, hz.held]

theorem leavesPosting_touchLines (master acc a len : Nat) : LeavesPosting (touchLines master acc a len) := by
  have h := leavesPosting_touchLine master acc
  exact ⟨foldl_view State.mailboxes (fun u l => (h l).mailboxes u) _, foldl_view State.time (fun u l => (h l).time u) _,
    foldl_view State.held (fun u l => (h l).held u) _⟩

/-- What a rejection does beside the reply leaves the mailboxes, device time and the commands held, whatever the command: it is
nothing, but for an arm or a queue that met uncorrectable data and for a failed authentication. -/
theorem specOf_onReject {s : State} {c : Instr} {h : Hdr} {p : CSpec} (hs : specOf c s = some (h, p)) :
    LeavesPosting p.onReject := by
  cases c
  case cellArm => cases hs; exact (leavesPosting_armUe ..).ite leavesPosting_id _
  case queueOpen => cases hs; exact (leavesPosting_touchLines ..).ite leavesPosting_id _
  case dbgOpen => cases hs; exact (leavesPosting_spdFault ..).iteAt leavesPosting_id _
  case dbgResponse => cases hs; exact (leavesPosting_authFail _).iteAt leavesPosting_id _
  case wagClear => cases hs; unfold specWagClear; dsimp only; split <;> exact leavesPosting_id
  all_goals
    cases hs
  all_goals exact leavesPosting_id

end Sys2Proof.Scope

/-! Frames that are not accepted (R327). -/

namespace Sys2Proof.Scope

open Sys2Proof Sys2Proof.Machine Sys2Proof.Safety Sys2Proof.Laws

/-! ### Posting a command -/

/-- A Berza command completes with what posting its frame leaves, settled. -/
theorem completes_of_submit {s : State} {c : Instr} {h : Hdr} {p : CSpec} {P : State → Prop} (hs : specOf c s = some (h, p))
    (hl : Live s) (hctx : h.ctx < 16) (hmb : h.mb < 4) (hp : P (settle s (submit h c p s))) : Completes c s P :=
  Completes.of_act hl.alive (f := submit h c p) (by rw [exec_berza c hs]; simp [berza, actOn, hctx, hmb]) hp

/-- The state in which a mailbox takes a frame: REFUSED is cleared. -/
def taking (s : State) (h : Hdr) : State := modMb s h.ctx h.mb fun m => { m with refused := false }

theorem taking_twf {s : State} (hl : Live s) (h : Hdr) : twf {} (taking s h).mailboxes = true :=
  modMb_twf hl.canon.mailboxes ..

theorem mbAt_taking {s : State} (hl : Live s) (h : Hdr) :
    mbAt (taking s h) h.ctx h.mb = { mbAt s h.ctx h.mb with refused := false } := mbAt_modMb hl.canon.mailboxes ..

theorem taking_taken {s : State} (hl : Live s) (h : Hdr) :
    TakenSame (mbAt s h.ctx h.mb) (mbAt (taking s h) h.ctx h.mb) := by
  rw [mbAt_taking hl]
  exact ⟨rfl, rfl, rfl⟩

theorem seqErr_taking {s : State} (hl : Live s) (h : Hdr) (q : Nat) :
    seqErr (taking s h) h.ctx h.mb q = seqErr s h.ctx h.mb q := by
  simp only [seqErr, mbAt_taking hl]

variable {s : State} {h : Hdr} {c : Instr} {p : CSpec}

theorem submit_refused (hr : refusesPost s h.ctx h.mb = true) : submit h c p s = refusePost s h.ctx h.mb := by
  simp [submit, hr]

theorem submit_assembling (hr : refusesPost s h.ctx h.mb = false) (ha : (mbAt s h.ctx h.mb).asm.isSome = true) :
    submit h c p s = reject (dropAsm (taking s h) h.ctx h.mb) h.ctx h.mb p.op h.seq .badFrame := by
  simp [submit, hr, ha, taking]

theorem submit_judged (hr : refusesPost s h.ctx h.mb = false) (ha : (mbAt s h.ctx h.mb).asm = none) :
    submit h c p s = judge (taking s h) h c p := by
  simp [submit, hr, ha, taking]

theorem judge_of_seqErr {e : Err} {r : List Byte} (hq : seqErr s h.ctx h.mb h.seq = some (e, r)) :
    judge s h c p = reject s h.ctx h.mb p.op h.seq e none r := by
  simp only [judge, hq]

/-- The state in which the reply of a rejection by order 9 to 14 is written. -/
def judgedState (s : State) (h : Hdr) (p : CSpec) (e : Err) : State :=
  if p.err = some e then p.onReject (findStale h p s) else findStale h p s

theorem judge_of_judgeErr {e : Err} (hq : seqErr s h.ctx h.mb h.seq = none) (he : judgeErr s h p = some e) :
    judge s h c p =
      reject (judgedState s h p e) h.ctx h.mb p.op h.seq e p.unit (if p.err = some e then p.errData else []) := by
  simp only [judge, hq, judgeErr_findStale, he, judgedState]
  split <;> rfl

/-! ### SEQ (R327, orders 5 and 6) -/

/-- A SEQ is rejected as repeated or as out of order, and for nothing else. -/
theorem seqErr_cases {c m q : Nat} {e : Err} {r : List Byte} (hq : seqErr s c m q = some (e, r)) :
    e = .duplicate ∨ e = .badSeq := by
  simp only [seqErr] at hq
  split at hq
  · cases hq
  · split at hq
    · cases hq
      exact .inl rfl
    · split at hq <;> cases hq
      exact .inr rfl

theorem seqErr_repeated {c m q : Nat} (hf : (mbAt s c m).seqFree = false) (hq : q = (mbAt s c m).lastSeq) :
    (seqErr s c m q).map (·.1) = some .duplicate := by
  simp [seqErr, hf, hq]

theorem seqErr_outOfOrder {c m q : Nat} (hf : (mbAt s c m).seqFree = false) (hl : q ≠ (mbAt s c m).lastSeq)
    (hn : q ≠ ((mbAt s c m).lastSeq + 1) % 65536) : seqErr s c m q = some (.badSeq, []) := by
  simp [seqErr, hf, hl, hn]

/-! ### Orders 9 to 14 of R327 -/

theorem judgeErr_denied (hd : p.permitted = false ∨ ctxEnabled s h.ctx = false) : judgeErr s h p = some .denied := by
  rcases hd with hd | hd <;> simp [judgeErr, hd]

theorem judgeErr_notReady (hp : p.permitted = true) (hc : ctxEnabled s h.ctx = true)
    (hr : (p.noTime = false ∧ s.time.ready = false) ∨ p.ready = false ∨ (s.kpr.st = 4 ∧ recoveryOp p.op = false)) :
    judgeErr s h p = some .notReady := by
  have hnd : ¬ (!p.permitted || !ctxEnabled s h.ctx) = true := by simp [hp, hc]
  unfold judgeErr
  rw [if_neg hnd, if_pos]
  rcases hr with ⟨hn, ht⟩ | hr | ⟨hst, hop⟩
  · simp [hn, ht]
  · simp [hr]
  · simp [hst, hop]

theorem firstErr_eq_none {b : Prop} [Decidable b] {e : Err} {o : Option Err} :
    (if b then some e else o) = none ↔ ¬ b ∧ o = none := by
  split <;> simp [*]

/-- What a command that passes orders 9 to 14 satisfies. -/
structure Judged (s : State) (h : Hdr) (p : CSpec) : Prop where
  mode : s.md.mode = .replay → replayOp p.op = true
  eff : h.eff = 0 ∨ (s.time.tick + s.time.horizon ≤ h.eff ∧ h.eff ≤ s.time.tick + 2 ^ 40)
  epoch : h.chk = true → h.epoch = epochOf s p.unit

theorem judged_of_judgeErr_none (hj : judgeErr s h p = none) : Judged s h p := by
  simp only [judgeErr, firstErr_eq_none] at hj
  obtain ⟨-, -, hmode, hearly, hfar, -, hepoch, -⟩ := hj
  refine ⟨?_, by omega, by simpa using hepoch⟩
  simp only [Bool.or_eq_true, not_or] at hmode
  simpa using hmode.2

/-! ### The clauses -/

/-- A rejection by order 9 to 14 finds the mailbox as the frame did, but for REFUSED and a disagreement found. -/
theorem judgedState_mailbox (hl : Live s) (hs : specOf c s = some (h, p)) (e : Err) :
    ∃ b, mbAt (judgedState (taking s h) h p e) h.ctx h.mb = { mbAt s h.ctx h.mb with refused := false, found := b } := by
  obtain ⟨b, hb⟩ := findStale_mailbox (h := h) (p := p) (taking_twf hl h)
  refine ⟨b, ?_⟩
  rw [mbAt_taking hl] at hb
  rw [← hb]
  unfold judgedState
  split
  · simp only [mbAt, (specOf_onReject hs).mailboxes]
  · rfl

theorem judgedState_twf (hl : Live s) (hs : specOf c s = some (h, p)) (e : Err) :
    twf {} (judgedState (taking s h) h p e).mailboxes = true := by
  have hw : twf {} (findStale h p (taking s h)).mailboxes = true := findStale_twf (taking_twf hl h)
  unfold judgedState
  split
  · rwa [(specOf_onReject hs).mailboxes]
  · exact hw

theorem judgedState_time (hs : specOf c s = some (h, p)) (e : Err) : (judgedState (taking s h) h p e).time = s.time := by
  have ht : (findStale h p (taking s h)).time = s.time := findStale_time h p _
  unfold judgedState
  split
  · rw [(specOf_onReject hs).time, ht]
  · exact ht

theorem judgedState_held (hs : specOf c s = some (h, p)) (hf : h.stale = false) (e : Err) :
    (judgedState (taking s h) h p e).held = s.held := by
  unfold judgedState
  rw [findStale_fresh hf]
  split
  · rw [(specOf_onReject hs).held, taking, modMb_held]
  · rfl

/-- A frame refused sets REFUSED and nothing else. -/
theorem completes_refused (hs : specOf c s = some (h, p)) (hl : Live s) (hctx : h.ctx < 16) (hmb : h.mb < 4)
    (hr : refusesPost s h.ctx h.mb = true) :
    Completes c s (SameBut [] (modMb s h.ctx h.mb fun m => { m with refused := true })) := by
  refine completes_of_submit hs hl hctx hmb ?_
  rw [submit_refused hr]
  exact (SameBut.refl _ _).settled s

/-- A whole frame where another was to be continued is a bad frame, and abandons the command being assembled. -/
theorem completes_assembling (hs : specOf c s = some (h, p)) (hl : Live s) (hctx : h.ctx < 16) (hmb : h.mb < 4)
    (hr : refusesPost s h.ctx h.mb = false) (ha : (mbAt s h.ctx h.mb).asm.isSome = true) :
    Completes c s fun t => Rejected s t h.ctx h.mb p.op h.seq .badFrame [] ∧ (mbAt t h.ctx h.mb).asm = none ∧
      SameBut [.mailboxes, .col, .faults] s t := by
  have hw : twf {} (dropAsm (taking s h) h.ctx h.mb).mailboxes = true := modMb_twf (taking_twf hl h) ..
  have hm : mbAt (dropAsm (taking s h) h.ctx h.mb) h.ctx h.mb =
      { mbAt s h.ctx h.mb with refused := false, asm := none, multi := false } := by
    rw [dropAsm, mbAt_modMb (taking_twf hl h), mbAt_taking hl]
  have hd : SameBut [.mailboxes] s (dropAsm (taking s h) h.ctx h.mb) := (modMb_same ..).trans (modMb_same ..)
  refine completes_of_submit hs hl hctx hmb ?_
  rw [submit_assembling hr ha]
  refine ⟨rejected_settled (s := s) (reject_rejected hw (by rw [hm]) rfl) s, ?_, ?_⟩
  · rw [mbAt_settle, (reject_taken hw ..).asm, hm]
  · exact ((hd.mono (by simp)).trans (reject_same _ (by omega) ..)).settled s

/-- A SEQ repeated or out of order is answered and taken for nothing else. -/
theorem completes_seqErr {e : Err} {r : List Byte} (hs : specOf c s = some (h, p)) (hl : Live s) (hctx : h.ctx < 16)
    (hmb : h.mb < 4) (hr : refusesPost s h.ctx h.mb = false) (ha : (mbAt s h.ctx h.mb).asm = none)
    (hq : seqErr s h.ctx h.mb h.seq = some (e, r)) :
    Completes c s fun t => Rejected s t h.ctx h.mb p.op h.seq e r ∧
      (mbAt t h.ctx h.mb).lastSeq = (mbAt s h.ctx h.mb).lastSeq ∧ SameBut [.mailboxes, .col] s t := by
  have hw := taking_twf hl h
  have he : e ≠ .badCrc ∧ e ≠ .badFrame := by
    rcases seqErr_cases hq with rfl | rfl <;> decide
  refine completes_of_submit hs hl hctx hmb ?_
  rw [submit_judged hr ha, judge_of_seqErr ((seqErr_taking hl h h.seq).trans hq)]
  refine ⟨rejected_settled (s := s) (reject_rejected hw (by rw [mbAt_taking hl]) rfl) s, ?_, ?_⟩
  · rw [mbAt_settle, ((taking_taken hl h).trans (reject_taken hw ..)).lastSeq]
  · have hk : SameBut [.mailboxes] s (taking s h) := modMb_same ..
    exact ((hk.mono (by simp)).trans (reject_same_quiet _ (by omega) _ _ _ _ he.1 he.2)).settled s

/-- A command rejected by order 9 to 14 is answered with the first error, and no unit holds it. -/
theorem completes_judgeErr {e : Err} (hs : specOf c s = some (h, p)) (hl : Live s) (hctx : h.ctx < 16) (hmb : h.mb < 4)
    (hr : refusesPost s h.ctx h.mb = false) (ha : (mbAt s h.ctx h.mb).asm = none)
    (hq : seqErr s h.ctx h.mb h.seq = none) (hj : judgeErr s h p = some e) :
    Completes c s fun t => Rejected s t h.ctx h.mb p.op h.seq e (if p.err = some e then p.errData else []) ∧
      (mbAt t h.ctx h.mb).lastSeq = (mbAt s h.ctx h.mb).lastSeq ∧ (mbAt t h.ctx h.mb).seqFree = (mbAt s h.ctx h.mb).seqFree ∧
      (h.stale = false → t.held = s.held ∧ (p.err ≠ some e → SameBut [.mailboxes, .col, .faults] s t)) := by
  have hw := judgedState_twf hl hs e
  obtain ⟨b, hm⟩ := judgedState_mailbox hl hs e
  have hrej := reject_same (c := h.ctx) (judgedState (taking s h) h p e) (by omega : h.mb ≤ 4) p.op h.seq e p.unit
    (if p.err = some e then p.errData else [])
  refine completes_of_submit hs hl hctx hmb ?_
  rw [submit_judged hr ha, judge_of_judgeErr ((seqErr_taking hl h h.seq).trans hq) hj]
  refine ⟨rejected_settled (s := s) (reject_rejected hw (by rw [hm]) (by rw [judgedState_time hs])) s, ?_, ?_, fun hf => ⟨?_, fun hne => ?_⟩⟩
  · rw [mbAt_settle, (reject_taken hw ..).lastSeq, hm]
  · rw [mbAt_settle, (reject_taken hw ..).seqFree, hm]
  · rw [settle_held, ← judgedState_held hs hf e]
    exact hrej.same .held (by simp)
  · have hk : SameBut [.mailboxes] s (judgedState (taking s h) h p e) := by
      rw [judgedState, if_neg hne, findStale_fresh hf]
      exact modMb_same ..
    exact ((hk.mono (by simp)).trans hrej).settled s

/-- Settles O57: one rejection lemma for each way R327 turns a frame away, and what each order judges. -/
theorem rejections : Obligations.Rejections := by
  unfold Obligations.Rejections
  exact ⟨fun _ _ _ _ => completes_refused, fun _ _ _ _ => completes_assembling, fun _ _ _ _ _ _ => completes_seqErr,
    fun _ _ _ _ _ => completes_judgeErr, fun _ _ _ _ => seqErr_repeated, fun _ _ _ _ => seqErr_outOfOrder,
    fun _ _ _ => judgeErr_denied, fun _ _ _ => judgeErr_notReady, fun _ _ _ hj => (judged_of_judgeErr_none hj).mode,
    fun _ _ _ hj => (judged_of_judgeErr_none hj).eff, fun _ _ _ hj => (judged_of_judgeErr_none hj).epoch⟩

end Sys2Proof.Scope

/-! Registers, window and atomics of PCIe (R9, R11, R128, R318, R320 to R322, R338). -/

namespace Sys2Proof.Scope

open Sys2Proof Sys2Proof.Machine Sys2Proof.Safety Sys2Proof.Laws

variable {s t u : State}

/-! ### Settling what no epoch watches -/

/-- Everything that the epochs and the STATE cause watch is the same in `u` as in `s`, and so is the queue of waiting commands. -/
structure WatchedSame (s u : State) : Prop where
  mode : modeState u = modeState s
  ready : (ready0 s, ready1 s, ready2 s, ready3 s) = (ready0 u, ready1 u, ready2 u, ready3 u)
  keeper : (s.kpr.st, s.kpr.activeImg, s.dev.prefImg) = (u.kpr.st, u.kpr.activeImg, u.dev.prefImg)
  colony : colKey s = colKey u
  power : pwrKey s = pwrKey u
  level : s.dev.lifecycle = u.dev.lifecycle ∧ s.sec.dbg = u.sec.dbg
  pending : u.pending = s.pending

/-- Settling adds nothing to a change that nothing watches. -/
theorem WatchedSame.settle_eq (h : WatchedSame s u) : settle s u = u := by
  have hmode : modeSettle s u = u := if_pos (.inl h.mode)
  have hready : readySettle s u = u := if_pos (.inl h.ready)
  have hkeeper : keeperSettle s u = u := if_pos (.inl h.keeper)
  have hcolony : colSettle s u = u := if_pos (.inl h.colony)
  have hsec : secSettle s u = u := by
    simp only [secSettle, h.power, h.level, true_or, and_self, if_true]
  have hcause : stateCause s u = u := by
    have hr := h.ready
    simp only [Prod.mk.injEq] at hr
    obtain ⟨h0, h1, h2, h3⟩ := hr
    have hst : s.kpr.st = u.kpr.st := congrArg Prod.fst h.keeper
    exact if_pos (by rw [h.mode, h0, h1, h2, h3, hst])
  simp only [settle, hmode, hready, hkeeper, hcolony, hsec, hcause]
  rw [← h.pending]

/-- Contexts, vectors and the bytes last read are watched by nothing. -/
theorem watchedSame_host (s : State) (contexts : Tab Context) (msix msixOpen msixPba : List Nat) (bus : List Byte) :
    WatchedSame s { s with contexts := contexts, msix := msix, msixOpen := msixOpen, msixPba := msixPba, bus := bus } :=
  ⟨rfl, rfl, rfl, rfl, rfl, ⟨rfl, rfl⟩, rfl⟩

/-! ### The pages of BAR0 -/

theorem registerWrite_page {k r : Nat} (hk : k < 16) (hr : r < 0x1000) (d : List Byte) (s : State) :
    registerWrite (0x1000 * k + r) d s = pageWrite k 9 r d false s := by
  rw [registerWrite, if_pos (by omega), show (0x1000 * k + r) / 0x1000 = k by omega, show (0x1000 * k + r) % 0x1000 = r by omega]

theorem registerWrite_discarded {o : Nat} (ho : 0x10000 ≤ o) (hout : o < 0x20000 ∨ 0x20400 ≤ o) (d : List Byte) (s : State) :
    registerWrite o d s = s := by
  rw [registerWrite, if_neg (by omega)]
  split
  · have hd : d.length = 0 := by omega
    rw [hd]
    rfl
  · rfl

theorem mem_upFrom {n i a : Nat} : a ∈ upFrom n i ↔ i ≤ a ∧ a < i + n := by
  induction n generalizing i with
  | zero => simp [upFrom]
  | succ n ih => simp only [upFrom, List.mem_cons, ih]; omega

/-- A register that no byte of a write reaches takes no value. -/
theorem regValue_outside {reg off : Nat} {d : List Byte} (whole : Bool) (h : off + d.length ≤ reg ∨ reg + 4 ≤ off) :
    regValue reg off d whole = none := by
  have hits : ((upFrom 4 reg).filter fun a => decide (off ≤ a) && decide (a < off + d.length)) = [] := by
    rw [List.filter_eq_nil_iff]
    intro a ha
    rw [mem_upFrom] at ha
    simp only [Bool.and_eq_true, decide_eq_true_eq]
    omega
  simp only [regValue, hits, List.isEmpty_nil, true_or, if_true]

/-- A write that reaches no `MB_CTRL` writes its bytes alone. -/
theorem pageWrite_bytes {off : Nat} {d : List Byte} (k master : Nat) (whole : Bool) (s : State)
    (h : ∀ m, m < 4 → off + d.length ≤ 0x100 * m + 0x80 ∨ 0x100 * m + 0x84 ≤ off) :
    pageWrite k master off d whole s =
      (upFrom d.length 0).foldl (fun s i => pageByteWrite k master (off + i) (d.getD i 0) s) s := by
  have hnone (m : Nat) (hm : m < 4) : regValue (0x100 * m + 0x80) off d whole = none :=
    regValue_outside whole (by have := h m hm; omega)
  simp only [pageWrite, upFrom, List.foldl_cons, List.foldl_nil, hnone 0, hnone 1, hnone 2, hnone 3, Nat.reduceAdd,
    Nat.reduceLT]

/-- A register written whole takes the value its four bytes spell. -/
theorem regValue_word (reg : Nat) (a b c d : Byte) (whole : Bool) :
    regValue reg reg [a, b, c, d] whole = some (ofLe [a, b, c, d]) := by
  simp [regValue, upFrom, Nat.add_assoc]

/-- The bytes of a mailbox beyond its command frame are not written. -/
theorem pageByteWrite_beyond {r : Nat} (hr : r < 0x400) (ho : 0x40 ≤ r % 0x100) (k master : Nat) (b : Byte) (s : State) :
    pageByteWrite k master r b s = s := by
  simp only [pageByteWrite]
  rw [if_neg (by omega), if_neg (by omega), if_neg (by omega)]

/-- A whole write of `MB_CTRL` does what its value says and no more. -/
theorem pageWrite_mbCtrl {m : Nat} (hm : m < 4) (k master : Nat) (b : Byte) (whole : Bool) (s : State) :
    pageWrite k master (0x100 * m + 0x80) [b, 0, 0, 0] whole s = mbCtrl k m b.toNat master s := by
  have hbyte (i : Nat) (hi : i < 4) (x : Byte) (u : State) : pageByteWrite k master (0x100 * m + 0x80 + i) x u = u :=
    pageByteWrite_beyond (by omega) (by omega) k master x u
  have hself := regValue_word (0x100 * m + 0x80) b 0 0 0 whole
  have hother (n : Nat) (hn : n < 4) (hne : n ≠ m) :
      regValue (0x100 * n + 0x80) (0x100 * m + 0x80) [b, 0, 0, 0] whole = none :=
    regValue_outside whole (by simp only [List.length_cons, List.length_nil]; omega)
  have hval : ofLe [b, 0, 0, 0] = b.toNat := by simp [ofLe]
  rw [hval] at hself
  simp only [pageWrite, upFrom, List.length_cons, List.length_nil, List.foldl_cons, List.foldl_nil, Nat.reduceAdd, hbyte,
    Nat.reduceLT]
  interval_cases m <;>
    simp only [hself, hother 0, hother 1, hother 2, hother 3, Nat.reduceLT, ne_eq, Nat.reduceEqDiff, not_false_eq_true]

theorem mbCtrl_post (k m master : Nat) (s : State) : mbCtrl k m 1 master s = post k m s := by simp [mbCtrl, bitOf]
theorem mbCtrl_ack (k m master : Nat) (s : State) : mbCtrl k m 2 master s = ack k m s := by simp [mbCtrl, bitOf]
theorem mbCtrl_mbReset (k m master : Nat) (s : State) : mbCtrl k m 4 master s = mbReset k m s := by simp [mbCtrl, bitOf]

/-! ### The bytes of a command frame -/

theorem length_fit (n : Nat) (l : List Byte) : (fit n l).length = n := by simp [fit]; omega

theorem fit_of_length {n : Nat} {l : List Byte} (h : l.length = n) : fit n l = l := by simp [fit, ← h]

/-- Bytes `lo` to `lo + n - 1` of the command frame of mailbox (k, m) are written as `b` says; the rest of the frame, the mailbox
and the state is as it was. -/
structure CmdWritten (k m lo n : Nat) (b : Nat → Byte) (s t : State) : Prop where
  wf : twf {} t.mailboxes = true
  bytes : ∀ i, i < 64 → (fit 64 (mbAt t k m).cmd).getD i 0 =
    if lo ≤ i ∧ i < lo + n then b i else (fit 64 (mbAt s k m).cmd).getD i 0
  here : mbAt t k m = { mbAt s k m with cmd := (mbAt t k m).cmd }
  others : ∀ e j, 4 * e + j ≠ 4 * k + m → mbAt t e j = mbAt s e j
  same : SameBut [.mailboxes] s t

theorem CmdWritten.nothing {k m lo : Nat} {b : Nat → Byte} (hw : twf {} s.mailboxes = true) : CmdWritten k m lo 0 b s s where
  wf := hw
  bytes i _ := by rw [if_neg (by omega)]
  here := rfl
  others _ _ _ := rfl
  same := SameBut.refl ..

/-- A byte written, then the bytes behind it. -/
theorem CmdWritten.cons {k m lo n : Nat} {b : Nat → Byte} (h : CmdWritten k m lo 1 b s t)
    (h' : CmdWritten k m (lo + 1) n b t u) : CmdWritten k m lo (n + 1) b s u where
  wf := h'.wf
  bytes i hi := by
    rw [h'.bytes i hi, h.bytes i hi]
    by_cases hrest : lo + 1 ≤ i ∧ i < lo + 1 + n
    · rw [if_pos hrest, if_pos (by omega)]
    · rw [if_neg hrest]
      by_cases hfirst : lo ≤ i ∧ i < lo + 1
      · rw [if_pos hfirst, if_pos (by omega)]
      · rw [if_neg hfirst, if_neg (by omega)]
  here := by
    rw [h'.here, h.here]
  others e j hne := (h'.others e j hne).trans (h.others e j hne)
  same := h.same.trans h'.same

theorem pageByteWrite_cmd {k m o : Nat} (hm : m < 4) (ho : o < 64) (master : Nat) {b : Nat → Byte}
    (hw : twf {} s.mailboxes = true) (hb : (mbAt s k m).busy = false) :
    CmdWritten k m o 1 b s (pageByteWrite k master (0x100 * m + o) (b o) s) := by
  have hwrite : pageByteWrite k master (0x100 * m + o) (b o) s =
      modMb s k m fun x => { x with cmd := (fit 64 x.cmd).set o (b o) } := by
    simp only [pageByteWrite]
    rw [if_pos (by omega), show (0x100 * m + o) / 0x100 = m by omega, show (0x100 * m + o) % 0x100 = o by omega, hb]
    rfl
  have hat := mbAt_modMb hw k m fun x => { x with cmd := (fit 64 x.cmd).set o (b o) }
  rw [hwrite]
  refine ⟨modMb_twf hw .., fun i hi => ?_, by rw [hat], fun e j hne => mbAt_modMb_other s hne _, modMb_same ..⟩
  rw [hat]
  dsimp only
  rw [fit_of_length (by simp [length_fit])]
  by_cases hio : i = o
  · subst hio
    simp [length_fit, hi]
  · rw [if_neg (by omega)]
    simp [List.getElem?_set_ne (Ne.symm hio)]

/-- Bytes written one after another into the command frame of a mailbox that is not BUSY. -/
theorem foldl_cmdWritten {k m o n j : Nat} (hm : m < 4) (master : Nat) (d : List Byte) (hn : o + j + n ≤ 64)
    (hw : twf {} s.mailboxes = true) (hb : (mbAt s k m).busy = false) :
    CmdWritten k m (o + j) n (fun i => d.getD (i - o) 0) s
      ((upFrom n j).foldl (fun s i => pageByteWrite k master (0x100 * m + o + i) (d.getD i 0) s) s) := by
  induction n generalizing s j with
  | zero => exact .nothing hw
  | succ n ih =>
    have h1 := pageByteWrite_cmd hm (show o + j < 64 by omega) master (b := fun i => d.getD (i - o) 0) hw hb
    rw [Nat.add_sub_cancel_left, ← Nat.add_assoc] at h1
    have hb1 : (mbAt (pageByteWrite k master (0x100 * m + o + j) (d.getD j 0) s) k m).busy = false := by
      rw [h1.here]
      exact hb
    exact h1.cons (ih (j := j + 1) (by omega) h1.wf hb1)


/-! ### Interrupt registers -/

theorem pageWrite_irqMask (k master : Nat) (b : Byte) (s : State) :
    pageWrite k master 0x404 [b] false s =
      { s with contexts := tmod {} s.contexts k fun c => { c with irqMask := BitVec.ofNat 32 b.toNat } } := by
  rw [pageWrite_bytes k master false s fun m hm => by simp only [List.length_cons, List.length_nil]; omega]
  rfl

theorem ctxIrqStatusRead_contexts (k : Nat) (s : State) :
    (ctxIrqStatusRead k s).contexts = tmod {} s.contexts k fun c => { c with irqStatus := 0 } := rfl

theorem registerWrite_msixByte {a : Nat} (ha : a < 0x400) (b : Byte) (s : State) :
    registerWrite (0x20000 + a) [b] s = msixByte a b s := by
  rw [registerWrite, if_neg (by omega), if_pos ⟨by omega, by simp only [List.length_cons, List.length_nil]; omega⟩,
    Nat.add_sub_cancel_left]
  rfl

theorem msixByte_table {v o : Nat} (ho : o < 12) (b : Byte) (s : State) :
    msixByte (16 * v + o) b s = { s with msixTable := memPut s.msixTable (16 * v + o) b } := by
  rw [msixByte, if_pos (by omega)]

/-- Byte 12 of a vector's entry holds its mask bit. -/
theorem msixByte_mask (v : Nat) (b : Byte) (s : State) :
    msixByte (16 * v + 12) b s =
      if b.getLsbD 0 then { s with msixOpen := s.msixOpen.erase v } else unmask v s := by
  rw [msixByte, if_neg (by omega), if_pos (by omega), show (16 * v + 12) / 16 = v by omega]

theorem unmask_eq (v : Nat) (s : State) :
    unmask v s = { s with msixOpen := (unmask v s).msixOpen, msixPba := (unmask v s).msixPba, msix := (unmask v s).msix } := by
  unfold unmask
  dsimp only
  split <;> rfl

theorem mem_unmask_msixOpen (v : Nat) (s : State) : v ∈ (unmask v s).msixOpen := by
  have h : (unmask v s).msixOpen = if s.msixOpen.contains v then s.msixOpen else v :: s.msixOpen := by
    unfold unmask
    dsimp only
    split <;> rfl
  rw [h]
  split
  · simpa using ‹s.msixOpen.contains v = true›
  · exact List.mem_cons_self

/-- A pending vector that is unmasked is signalled. -/
theorem unmask_pending {v : Nat} (h : v ∈ s.msixPba) :
    (unmask v s).msixPba = s.msixPba.erase v ∧ (unmask v s).msix = s.msix ++ [v] := by
  simp [unmask, h]

/-- A change of contexts and vectors is one of no other part. -/
theorem same_host (s : State) (contexts : Tab Context) (msix msixOpen msixPba : List Nat) :
    SameBut [.contexts] s
      { s with contexts := contexts, msix := msix, msixOpen := msixOpen, msixPba := msixPba } := by
  refine ⟨fun p hp => ?_⟩
  cases p with
  | contexts => simp at hp
  | _ => simp [Part.Same]

/-! ### Status bits -/

theorem standIn_status (tick : Nat) (f : FaultBlk) (o : Recorded) :
    (standIn tick f o).status = f.status ||| BitVec.ofNat 32 (2 ^ o.bit) := by
  simp only [standIn]
  (repeat' split) <;> rfl

theorem getLsbD_ofNat_two_pow {b : Nat} (hb : b < 32) : (BitVec.ofNat 32 (2 ^ b)).getLsbD b = true := by
  rw [BitVec.getLsbD_ofNat]
  simp [hb, Nat.testBit_two_pow_self]

/-- An occurrence that is not masked stands in its block's status. -/
theorem raise_status {o : Occ} (hw : twf {} s.faults = true) (hb : o.bit < 32)
    (hm : (fltAt s o.block).mask.getLsbD o.bit = false) : (fltAt (raise s o) o.block).status.getLsbD o.bit = true := by
  have hf : (raise s o).faults = tmod {} s.faults (blockNum o.block) fun _ => recordIn s o := by
    simp only [raise, hm, Bool.false_and, Bool.false_eq_true, if_false]
    split <;> simp [modFlt]
  have hr : fltAt (raise s o) o.block = recordIn s o := by
    rw [fltAt, hf, tget_tmod_same hw]
  rw [hr]
  simp only [recordIn, standIn_status, BitVec.getLsbD_or, getLsbD_ofNat_two_pow hb, Bool.or_true]

/-! ### The clauses -/

/-- Bytes written to a command frame of a mailbox that is not BUSY stand in it (R321). -/
theorem completes_cmdWrite {k m o : Nat} {d : List Byte} (hl : Live s) (hk : k < 16) (hm : m < 4) (ho : o + d.length ≤ 64)
    (hb : (mbAt s k m).busy = false) :
    Completes (.registerWrite (0x1000 * k + 0x100 * m + o) d) s fun t =>
      (∀ i, i < 64 → (fit 64 (mbAt t k m).cmd).getD i 0 =
        if o ≤ i ∧ i < o + d.length then d.getD (i - o) 0 else (fit 64 (mbAt s k m).cmd).getD i 0) ∧
      mbAt t k m = { mbAt s k m with cmd := (mbAt t k m).cmd } ∧
      (∀ e n, 4 * e + n ≠ 4 * k + m → mbAt t e n = mbAt s e n) ∧ SameBut [.mailboxes] s t := by
  have hw := foldl_cmdWritten (j := 0) hm 9 d ho hl.canon.mailboxes hb
  refine .of_act (f := registerWrite _ d) hl.alive rfl ?_
  rw [Nat.add_assoc, registerWrite_page hk (by omega), pageWrite_bytes k 9 false s fun n hn => by omega]
  simp only [mbAt_settle]
  exact ⟨hw.bytes, hw.here, hw.others, hw.same.settled s⟩

/-- A whole write of `MB_CTRL` completes with what its value says. -/
theorem completes_mbCtrl {k m : Nat} {b : Byte} {f : State → State} (hl : Live s) (hk : k < 16) (hm : m < 4)
    (hf : mbCtrl k m b.toNat 9 s = f s) :
    Completes (.registerWrite (0x1000 * k + 0x100 * m + 0x80) [b, 0, 0, 0]) s (SameBut [] (f s)) := by
  refine .of_act (f := registerWrite _ [b, 0, 0, 0]) hl.alive rfl ?_
  rw [Nat.add_assoc, registerWrite_page hk (by omega), pageWrite_mbCtrl hm, hf]
  exact settle_same s (f s)

theorem completes_irqMaskWrite {k : Nat} {b : Byte} (hl : Live s) (hk : k < 16) :
    Completes (.registerWrite (0x1000 * k + 0x404) [b]) s fun t =>
      (ctxAt t k).irqMask = BitVec.ofNat 32 b.toNat ∧ ctxEnabled t k = ctxEnabled s k ∧
      (∀ j, j ≠ k → (ctxAt t j).irqMask = (ctxAt s j).irqMask) ∧ SameBut [.contexts] s t := by
  have hat := tget_tmod_same hl.canon.contexts k fun c => { c with irqMask := BitVec.ofNat 32 b.toNat }
  refine .of_act (f := registerWrite _ [b]) hl.alive rfl ?_
  rw [registerWrite_page hk (by omega), pageWrite_irqMask, (watchedSame_host s _ _ _ _ _).settle_eq]
  refine ⟨?_, ?_, fun j hj => ?_, same_host ..⟩
  · rw [ctxAt, hat]
  · rw [ctxEnabled, ctxAt, hat]
    rfl
  · rw [ctxAt, tget_tmod_other _ _ hj]
    rfl

theorem completes_msixTableWrite {v o : Nat} {b : Byte} (hl : Live s) (hv : v < 64) (ho : o < 12) :
    Completes (.registerWrite (0x20000 + 16 * v + o) [b]) s fun t =>
      memByte t.msixTable (16 * v + o) = b ∧ (∀ a, a ≠ 16 * v + o → memByte t.msixTable a = memByte s.msixTable a) ∧
      SameBut [.msixTable] s t := by
  refine .of_act (f := registerWrite _ [b]) hl.alive rfl ?_
  rw [Nat.add_assoc, registerWrite_msixByte (by omega), msixByte_table ho]
  refine ⟨?_, fun a ha => ?_, SameBut.settled ⟨fun p hp => ?_⟩ s⟩
  · rw [settle_msixTable, memByte_memPut_same hl.canon.msixTable]
  · rw [settle_msixTable, memByte_memPut_other _ ha]
  · cases p with
    | msixTable => simp at hp
    | contexts => exact ⟨rfl, fun _ => rfl⟩
    | _ => simp [Part.Same]

theorem completes_unmask {v : Nat} (hl : Live s) (hv : v < 64) :
    Completes (.registerWrite (0x20000 + 16 * v + 12) [0]) s fun t =>
      v ∈ t.msixOpen ∧ (v ∈ s.msixPba → s.msixPba.Nodup → v ∉ t.msixPba ∧ t.msix = s.msix ++ [v]) ∧ SameBut [.contexts] s t := by
  refine .of_act (f := registerWrite _ [0]) hl.alive rfl ?_
  have hsettle : settle s (unmask v s) = unmask v s := by
    rw [unmask_eq]
    exact (watchedSame_host s _ _ _ _ _).settle_eq
  rw [Nat.add_assoc, registerWrite_msixByte (by omega), msixByte_mask, if_neg (by decide), hsettle]
  refine ⟨mem_unmask_msixOpen v s, fun hp hn => ?_, ?_⟩
  · obtain ⟨hpba, hmsix⟩ := unmask_pending hp
    exact ⟨hpba ▸ hn.not_mem_erase, hmsix⟩
  · rw [unmask_eq]
    exact same_host ..

theorem completes_mask {v : Nat} (hl : Live s) (hv : v < 64) (hn : s.msixOpen.Nodup) :
    Completes (.registerWrite (0x20000 + 16 * v + 12) [1]) s fun t => v ∉ t.msixOpen ∧ SameBut [.contexts] s t := by
  refine .of_act (f := registerWrite _ [1]) hl.alive rfl ?_
  rw [Nat.add_assoc, registerWrite_msixByte (by omega), msixByte_mask, if_pos (by decide)]
  refine ⟨?_, (same_host ..).settled s⟩
  rw [settle_msixOpen]
  exact hn.not_mem_erase

theorem completes_writeDiscarded {o : Nat} {d : List Byte} (hl : Live s) (ho : 0x10000 ≤ o) (hout : o < 0x20000 ∨ 0x20400 ≤ o) :
    Completes (.registerWrite o d) s (SameBut [] s) := by
  refine .of_act (f := registerWrite o d) hl.alive rfl ?_
  rw [registerWrite_discarded ho hout]
  exact settle_same s s

theorem completes_irqStatusRead {k : Nat} (hl : Live s) (hk : k < 16) :
    Completes (.ctxIrqStatusRead k) s fun t =>
      t.bus = le 4 (ctxAt s k).irqStatus.toNat ∧ (ctxAt t k).irqStatus = 0 ∧
      (∀ j, j ≠ k → ctxAt t j = ctxAt s j) ∧ SameBut [.bus] s t := by
  have hself : ctxAt (ctxIrqStatusRead k s) k = { ctxAt s k with irqStatus := 0 } := by
    rw [ctxAt, ctxIrqStatusRead_contexts, tget_tmod_same hl.canon.contexts]
    rfl
  have hother (j : Nat) (hj : j ≠ k) : ctxAt (ctxIrqStatusRead k s) j = ctxAt s j := by
    rw [ctxAt, ctxIrqStatusRead_contexts, tget_tmod_other _ _ hj]
    rfl
  have hsettle : settle s (ctxIrqStatusRead k s) = ctxIrqStatusRead k s := (watchedSame_host s _ _ _ _ _).settle_eq
  refine .of_act (f := ctxIrqStatusRead k) hl.alive ?_ ?_
  · show actOn (decide (k < 16)) s _ = _
    simp [actOn, hk]
  · rw [hsettle, hself]
    refine ⟨rfl, rfl, hother, ⟨fun p hp => ?_⟩⟩
    cases p with
    | bus => simp at hp
    | contexts =>
      refine ⟨rfl, fun j => ?_⟩
      by_cases hj : j = k
      · rw [hj, hself]
      · rw [hother j hj]
    | _ => simp [Part.Same, ctxIrqStatusRead, clearIrq]

theorem completes_windowWrite {o : Nat} {d : List Byte} (hl : Live s) (hm : (fltAt s .kpr).mask.getLsbD 8 = false) :
    Completes (.windowWrite o d) s fun t => (fltAt t .kpr).status.getLsbD 8 = true ∧ SameBut [.faults] s t := by
  refine .of_act (f := hostFault 8 0 64 9 1) hl.alive rfl ⟨?_, (raise_same ..).settled s⟩
  rw [fltAt, settle_faults]
  exact raise_status (o := { block := .kpr, bit := 8, cls := 0, obj := 64, master := 9, acc := 1 }) hl.canon.faults
    (by decide) hm

theorem completes_pcieAtomicOp {o : Nat} (hl : Live s) : Completes (.pcieAtomicOp o) s (SameBut [] s) :=
  .of_act (f := id) hl.alive rfl (settle_same s s)

/-- Settles O33: one completion lemma for each register, the window and the atomics. -/
theorem registerEvents : Obligations.RegisterEvents := by
  unfold Obligations.RegisterEvents
  exact ⟨fun _ _ _ _ _ => completes_cmdWrite,
    fun _ k m hl hk hm => completes_mbCtrl (b := 1) hl hk hm (mbCtrl_post k m 9 _),
    fun _ k m hl hk hm => completes_mbCtrl (b := 2) hl hk hm (mbCtrl_ack k m 9 _),
    fun _ k m hl hk hm => completes_mbCtrl (b := 4) hl hk hm (mbCtrl_mbReset k m 9 _),
    fun _ _ _ => completes_irqMaskWrite, fun _ _ _ _ => completes_msixTableWrite, fun _ _ => completes_unmask,
    fun _ _ => completes_mask, fun _ _ _ => completes_writeDiscarded, fun _ _ => completes_irqStatusRead,
    fun _ _ _ => completes_windowWrite, fun _ _ => completes_pcieAtomicOp⟩

end Sys2Proof.Scope

/-! How frames compose, and the frames of the operations that the mode unit shares with others. -/

namespace Sys2Proof.Safety

open Sys2Proof Sys2Proof.Machine Sys2Proof.Laws

variable {s t u : State} {l m : List Part}

/-- What two effects in turn can change is what one of them can. -/
theorem SameBut.andThen (h : SameBut l s t) (h' : SameBut m t u) : SameBut (l ++ m) s u :=
  (h.mono fun _ => List.mem_append_left m).trans (h'.mono fun _ => List.mem_append_right l)

theorem SameBut.foldl {β : Type} {f : State → β → State} (hf : ∀ s b, SameBut l s (f s b)) (xs : List β) (s : State) :
    SameBut l s (xs.foldl f s) :=
  foldl_keeps (P := SameBut l s) (fun u b h => h.trans (hf u b)) xs (SameBut.refl l s)

theorem SameBut.forUp {f : Nat → State → State} (hf : ∀ i s, SameBut l s (f i s)) (n i : Nat) (s : State) :
    SameBut l s (forUp f n i s) :=
  forUp_keeps (P := SameBut l s) (fun k u h => h.trans (hf k u)) n i (SameBut.refl l s)

/-- An effect that happens under a condition. -/
theorem SameBut.ite {p : Prop} [Decidable p] (h : p → SameBut l s t) (h' : ¬ p → SameBut l s u) :
    SameBut l s (if p then t else u) := by
  split
  · exact h ‹_›
  · exact h' ‹_›

end Sys2Proof.Safety

namespace Sys2Proof.Arch

open Sys2Proof Sys2Proof.Machine Sys2Proof.Safety Sys2Proof.Laws Sys2Proof.Scope

/-! ### Parts written

A state that differs from another in one field is that other but for the field's part. -/

theorem set_md_same (s : State) (x : ModeUnit) : SameBut [.md] s { s with md := x } :=
  ⟨fun p hp => by cases p <;> simp_all [Part.Same, ctxAt]⟩

theorem set_pace_same (s : State) (x : Pace) : SameBut [.pace] s { s with pace := x } :=
  ⟨fun p hp => by cases p <;> simp_all [Part.Same, ctxAt]⟩

theorem set_grave_same (s : State) (x : Grave) : SameBut [.grave] s { s with grave := x } :=
  ⟨fun p hp => by cases p <;> simp_all [Part.Same, ctxAt]⟩

theorem set_held_same (s : State) (x : List Held) : SameBut [.held] s { s with held := x } :=
  ⟨fun p hp => by cases p <;> simp_all [Part.Same, ctxAt]⟩

theorem set_works_same (s : State) (x : List Held) : SameBut [.works] s { s with works := x } :=
  ⟨fun p hp => by cases p <;> simp_all [Part.Same, ctxAt]⟩

theorem set_hives_same (s : State) (x : Tab Hive) : SameBut [.hives] s { s with hives := x } :=
  ⟨fun p hp => by cases p <;> simp_all [Part.Same, ctxAt]⟩

theorem set_inner_same (s : State) (x : Inner) : SameBut [.inner] s { s with inner := x } :=
  ⟨fun p hp => by cases p <;> simp_all [Part.Same, ctxAt]⟩

theorem set_active_same (s : State) (x : Tab Nat) : SameBut [.active] s { s with active := x } :=
  ⟨fun p hp => by cases p <;> simp_all [Part.Same, ctxAt]⟩

theorem set_caps_same (s : State) (x : Tab Cap) : SameBut [.caps] s { s with caps := x } :=
  ⟨fun p hp => by cases p <;> simp_all [Part.Same, ctxAt]⟩

theorem set_col_same (s : State) (x : Colony) : SameBut [.col] s { s with col := x } :=
  ⟨fun p hp => by cases p <;> simp_all [Part.Same, ctxAt]⟩

theorem set_dramCe_same (s : State) (x : List Nat) : SameBut [.dramMarks] s { s with dramCe := x } :=
  ⟨fun p hp => by cases p <;> simp_all [Part.Same, ctxAt]⟩

theorem set_free_same (s : State) (x : Nat) : SameBut [.free] s { s with free := x } :=
  ⟨fun p hp => by cases p <;> simp_all [Part.Same, ctxAt]⟩

theorem set_free_sec_same (s : State) (n : Nat) (x : Security) : SameBut [.free, .sec] s { s with free := n, sec := x } :=
  ⟨fun p hp => by cases p <;> simp_all [Part.Same, ctxAt]⟩

theorem set_cells_same (s : State) (x : Tab Cell) : SameBut [.cells] s { s with cells := x } :=
  ⟨fun p hp => by cases p <;> simp_all [Part.Same, ctxAt]⟩

theorem set_rpl_same (s : State) (x : Replay) : SameBut [.rpl] s { s with rpl := x } :=
  ⟨fun p hp => by cases p <;> simp_all [Part.Same, ctxAt]⟩

theorem set_dram_same (s : State) (x : List Host.Cell) : SameBut [.dram] s { s with dram := x } :=
  ⟨fun p hp => by cases p <;> simp_all [Part.Same, ctxAt]⟩

theorem set_dramMarks_same (s : State) (x y : List Nat) : SameBut [.dramMarks] s { s with dramUe := x, dramCe := y } :=
  ⟨fun p hp => by cases p <;> simp_all [Part.Same, ctxAt]⟩

theorem set_dramUe_same (s : State) (x : List Nat) : SameBut [.dramMarks] s { s with dramUe := x } :=
  ⟨fun p hp => by cases p <;> simp_all [Part.Same, ctxAt]⟩

theorem set_auxs_same (s : State) (x : Tab Aux) : SameBut [.auxs] s { s with auxs := x } :=
  ⟨fun p hp => by cases p <;> simp_all [Part.Same, ctxAt]⟩

theorem set_pins_same (s : State) (x : Tab Pin) : SameBut [.pins] s { s with pins := x } :=
  ⟨fun p hp => by cases p <;> simp_all [Part.Same, ctxAt]⟩

theorem set_jnl_same (s : State) (x : Journal) : SameBut [.jnl] s { s with jnl := x } :=
  ⟨fun p hp => by cases p <;> simp_all [Part.Same, ctxAt]⟩

theorem set_rxLanes_same (s : State) (x : Tab RxLane) : SameBut [.rxLanes] s { s with rxLanes := x } :=
  ⟨fun p hp => by cases p <;> simp_all [Part.Same, ctxAt]⟩

/-! ### Tables of units -/

theorem modCell_same (s : State) (i : Nat) (f : Cell → Cell) : SameBut [.cells] s (modCell s i f) :=
  ⟨fun p hp => by cases p <;> simp_all [Part.Same, ctxAt]⟩

theorem modHive_same (s : State) (i : Nat) (f : Hive → Hive) : SameBut [.hives] s (modHive s i f) :=
  ⟨fun p hp => by cases p <;> simp_all [Part.Same, ctxAt]⟩

theorem modQueue_same (s : State) (i : Nat) (f : Queue → Queue) : SameBut [.queues, .hives] s (modQueue s i f) :=
  ⟨fun p hp => by cases p <;> simp_all [Part.Same, ctxAt]⟩

theorem modDmc_same (s : State) (i : Nat) (f : Dmc → Dmc) : SameBut [.dmcs, .jnl] s (modDmc s i f) :=
  ⟨fun p hp => by cases p <;> simp_all [Part.Same, ctxAt]⟩

theorem modCap_same (s : State) (i : Nat) (f : Cap → Cap) : SameBut [.caps] s (modCap s i f) :=
  ⟨fun p hp => by cases p <;> simp_all [Part.Same, ctxAt]⟩

theorem modLink_same (s : State) (i : Nat) (f : Link → Link) : SameBut [.links, .jnl] s (modLink s i f) :=
  ⟨fun p hp => by cases p <;> simp_all [Part.Same, ctxAt]⟩

theorem putCap_same (s : State) (i : Nat) (x : Cap) : SameBut [.caps] s (putCap s i x) :=
  ⟨fun p hp => by cases p <;> simp_all [Part.Same, ctxAt]⟩

theorem jput_same (s : State) (tick : Nat) (p : JPay) : SameBut [.jnl] s (jput s tick p) :=
  ⟨fun p hp => by cases p <;> simp_all [Part.Same, ctxAt]⟩

/-! ### Comb activation and the queue-context cache -/

theorem bumpComb_same (s : State) (hs : List Nat) : SameBut [.hives] s (bumpComb s hs) :=
  .foldl (fun s _ => set_hives_same s _) hs s

theorem activate_same (s : State) (areas : List (Nat × Nat)) : SameBut [.active, .hives, .jnl] s (activate s areas) :=
  (((set_active_same s _).andThen (bumpComb_same _ _)).andThen (.foldl (fun u _ => jput_same u _ _) areas _)).mono (by decide)

theorem touchInner_same (scr : Bool) (master w : Nat) (s : State) : SameBut [.inner, .faults] s (touchInner scr master w s) :=
  .ite (fun _ => (set_inner_same s _).andThen (raise_same _ _)) (fun _ => .refl _ s)

theorem offlineQueue_same (i : Nat) (s : State) : SameBut [.queues, .hives, .faults] s (offlineQueue i s) :=
  (modQueue_same s i _).andThen (raise_same _ _)

theorem freezeLine_same (master acc line : Nat) (s : State) : SameBut [.dmcs, .jnl, .faults] s (freezeLine master acc line s) := by
  unfold freezeLine
  dsimp only
  have hlog : SameBut [.dmcs, .jnl] s (if (dmcAt s (dramChannel s (64 * line))).ueFrozen then s
      else modDmc s (dramChannel s (64 * line)) fun x =>
        { x with ueFrozen := true, logAddr := 64 * line, logType := acc, logMaster := master, logTime := devtime s }) :=
    .ite (fun _ => .refl _ s) (fun _ => modDmc_same ..)
  split
  · exact hlog.mono (by decide)
  · split
    · exact (hlog.andThen (modDmc_same ..)).mono (by decide)
    · exact hlog.andThen (raise_same ..)

theorem touchLine_same (master acc line : Nat) (s : State) :
    SameBut [.dmcs, .jnl, .faults, .dramMarks] s (touchLine master acc line s) := by
  unfold touchLine
  dsimp only
  split
  · exact (((modDmc_same ..).andThen (freezeLine_same ..)).andThen (raise_same ..)).mono (by decide)
  · split
    · exact (((set_dramCe_same ..).andThen (modDmc_same ..)).andThen (raise_same ..)).mono (by decide)
    · exact .refl ..

theorem touchLines_same (master acc a len : Nat) (s : State) :
    SameBut [.dmcs, .jnl, .faults, .dramMarks] s (touchLines master acc a len s) :=
  .foldl (fun u l => touchLine_same master acc l u) _ s

/-- Parts that the cache of queue contexts changes: its lines and what a DRAM access can (R138, R151). -/
def ctxParts : List Part := [.inner, .queues, .hives, .dmcs, .jnl, .faults, .dramMarks, .free]

theorem ctxFill_same (i : Nat) (s : State) : SameBut ctxParts s (ctxFill i s) := by
  have hread := touchLines_same 3 0 (s.ctxBase + 32 * i) 32 s
  unfold ctxFill
  dsimp only
  split
  · exact (hread.andThen (offlineQueue_same ..)).mono (by decide)
  · split
    · exact (((hread.andThen (set_free_same ..)).andThen (set_inner_same ..)).andThen (set_inner_same ..)).mono (by decide)
    · exact hread.mono (by decide)

theorem ctxTouch_same (i : Nat) (s : State) : SameBut ctxParts s (ctxTouch i s) := by
  unfold ctxTouch
  split
  · exact ctxFill_same i s
  · split
    · have hlost := fun k o => (set_inner_same s (modLine k (fun _ => {}) s).inner).andThen (raise_same _ o)
      dsimp only
      split
      · exact ((hlost _ _).andThen (offlineQueue_same ..)).mono (by decide)
      · exact ((hlost _ _).andThen (ctxFill_same ..)).mono (by decide)
    · exact (SameBut.foldl (fun u w => touchInner_same false 3 w u) _ s).mono (by decide)

theorem ctxLock_same (i : Nat) (s : State) : SameBut ctxParts s (ctxLock i s) := by
  unfold ctxLock
  dsimp only
  split
  · exact ((ctxTouch_same i s).andThen (set_inner_same ..)).mono (by decide)
  · exact ctxTouch_same i s

theorem queueLive_same (q fmt : Nat) (s : State) : SameBut ctxParts s (queueLive q fmt s) := by
  have hlock : SameBut ctxParts s (if (queueAt s q).live = 0 then ctxLock q s else s) :=
    .ite (fun _ => ctxLock_same q s) (fun _ => .refl _ s)
  exact (hlock.andThen (modQueue_same ..)).mono (by decide)

end Sys2Proof.Arch

/-! What raised causes leave standing (R321). -/

namespace Sys2Proof.Arch

open Sys2Proof Sys2Proof.Machine Sys2Proof.Safety Sys2Proof.Laws Sys2Proof.Scope

/-! ### Interrupt causes -/

/-- CTX_IRQ_STATUS of a context has cause `b`. -/
def causeStands (s : State) (k b : Nat) : Bool := (ctxAt s k).irqStatus.getLsbD b

theorem getLsbD_two_pow_or (w : Word) {b : Nat} (hb : b < 32) : (w ||| BitVec.ofNat 32 (2 ^ b)).getLsbD b = true := by
  rw [BitVec.getLsbD_or, getLsbD_ofNat_two_pow hb, Bool.or_true]

theorem ctxAt_irq_other (s : State) {k j : Nat} (hj : j ≠ k) (b : Nat) : ctxAt (irq s k b) j = ctxAt s j := by
  unfold irq
  dsimp only
  (repeat' split) <;> simp [ctxAt, tget_tset_other _ _ hj]

/-- A cause that does not stand yet is added to its context's. -/
theorem ctxAt_irq_same {s : State} {k b : Nat} (hb : b < 32) (h : causeStands s k b = false) :
    ctxAt (irq s k b) k = { ctxAt s k with irqStatus := (ctxAt s k).irqStatus ||| BitVec.ofNat 32 (2 ^ b) } := by
  have hne : ({ ctxAt s k with irqStatus := (ctxAt s k).irqStatus ||| BitVec.ofNat 32 (2 ^ b) } : Context) ≠ {} := by
    intro he
    have hbit := getLsbD_two_pow_or (ctxAt s k).irqStatus hb
    rw [show (ctxAt s k).irqStatus ||| BitVec.ofNat 32 (2 ^ b) = 0 from congrArg Context.irqStatus he] at hbit
    simp at hbit
  have hget := tget_tset_ne s.contexts k hne
  unfold causeStands at h
  simp only [irq, h]
  (repeat' split) <;> first | contradiction | exact hget

/-- A raised cause stands in its context. -/
theorem causeStands_irq (s : State) (k : Nat) {b : Nat} (hb : b < 32) : causeStands (irq s k b) k b = true := by
  cases h : causeStands s k b with
  | true =>
    have he : irq s k b = s := by
      unfold causeStands at h
      simp only [irq, h, if_true]
    rw [he, h]
  | false =>
    rw [causeStands, ctxAt_irq_same hb h]
    exact getLsbD_two_pow_or _ hb

/-- A cause that stands is not taken back by another. -/
theorem causeStands_irq_mono {s : State} {j i : Nat} (h : causeStands s j i = true) (k : Nat) {b : Nat} (hb : b < 32) :
    causeStands (irq s k b) j i = true := by
  by_cases hj : j = k
  · subst hj
    cases hs : causeStands s j b with
    | true =>
      unfold causeStands at hs
      simpa only [irq, hs, if_true] using h
    | false =>
      rw [causeStands, ctxAt_irq_same hb hs]
      unfold causeStands at h
      simp [h]
  · rwa [causeStands, ctxAt_irq_other s hj]

theorem causeStands_irqState_mono {s : State} {j i : Nat} (h : causeStands s j i = true) : causeStands (irqState s) j i = true :=
  forUp_keeps (P := fun u => causeStands u j i = true) (fun k _ hu => causeStands_irq_mono hu k (by decide)) 16 0 h

theorem causeStands_forUp_irq {b : Nat} (hb : b < 32) (n : Nat) {k i : Nat} (s : State) (hi : i ≤ k) (hk : k < i + n) :
    causeStands (forUp (fun k u => irq u k b) n i s) k b = true := by
  induction n generalizing i s with
  | zero => omega
  | succ n ih =>
    by_cases hik : i = k
    · subst hik
      exact forUp_keeps (P := fun u => causeStands u i b = true) (fun k _ hu => causeStands_irq_mono hu k hb) n (i + 1)
        (causeStands_irq s i hb)
    · exact ih (irq s i b) (by omega) (by omega)

/-- STATE raised in every context stands in each. -/
theorem causeStands_irqState (s : State) {k : Nat} (hk : k < 16) : causeStands (irqState s) k 6 = true :=
  causeStands_forUp_irq (by decide) 16 s (Nat.zero_le k) (by omega)

theorem causeStands_settle {s : State} {j i : Nat} (h : causeStands s j i = true) (s0 : State) :
    causeStands (settle s0 s) j i = true := by
  have hc : causeStands (secSettle s0 (colSettle s0 (keeperSettle s0 (readySettle s0 (modeSettle s0 s))))) j i = true := by
    simpa [causeStands, ctxAt] using h
  have he : causeStands (settle s0 s) j i =
      causeStands (stateCause s0 (secSettle s0 (colSettle s0 (keeperSettle s0 (readySettle s0 (modeSettle s0 s)))))) j i := by
    simp only [settle, causeStands, ctxAt]
  rw [he]
  unfold stateCause
  split
  · exact hc
  · exact causeStands_irqState_mono hc

end Sys2Proof.Arch

/-! Acceptance of a Berza command (R327, order 15, R333). -/

namespace Sys2Proof.Arch

open Sys2Proof Sys2Proof.Machine Sys2Proof.Safety Sys2Proof.Laws Sys2Proof.Scope

/-! ### What a command does at its acceptance beside its reply and its hold -/

/-- Parts that a command can change at its acceptance, but for `MODE_SET`: it activates comb (R131), makes queues live (R147), joins
an arm to its cell or capture cell, tells the workers of a new horizon (R255) or draws a nonce (R406). -/
def acceptParts : List Part := ctxParts ++ [.active, .cells, .caps, .col, .sec]

theorem armAccept_same (c : Nat) (a : ArmArgs) (s : State) : SameBut acceptParts s (armAccept c a s) := by
  unfold armAccept
  extract_lets h i qs s1 s2 s3
  have h1 : SameBut [.active, .hives, .jnl] s s1 := activate_same s _
  have h2 : SameBut [.hives] s1 s2 := .ite (fun _ => .refl _ s1) (fun _ => modHive_same s1 h _)
  have h3 : SameBut ctxParts s2 s3 := .foldl (fun u q => queueLive_same q.1 q.2 u) qs s2
  exact (((h1.andThen h2).andThen h3).andThen (modCell_same s3 c _)).mono (by decide)

theorem capAccept_same (c : Nat) (a : CapArmArgs) (s : State) : SameBut acceptParts s (capAccept c a s) :=
  ((activate_same s _).andThen (set_caps_same _ _)).mono (by decide)

theorem colDue_same (s : State) (k : Nat) (f : DueFrame) : SameBut [.col] s (colDue s k f) := modPort_same s k _

variable {s t u : State} {h : Hdr} {c : Instr} {p : CSpec}

theorem specOf_onAccept (hs : specOf c s = some (h, p)) (ho : p.op ≠ 0x0020) (u : State) :
    SameBut acceptParts u (p.onAccept u) := by
  cases c
  case modeSet => cases hs; exact absurd rfl ho
  case cellArm => cases hs; exact armAccept_same _ _ u
  case capArm => cases hs; exact capAccept_same _ _ u
  case timeHorizonSet =>
    cases hs
    refine .ite (fun _ => ?_) (fun _ => .refl _ u)
    exact SameBut.mono (l := [.col]) (.foldl (fun v k => colDue_same v k _) _ u) (by decide)
  case dbgOpen =>
    cases hs
    exact SameBut.mono (l := [.free, .sec]) (set_free_sec_same u _ _) (by decide)
  case wagClear => cases hs; unfold specWagClear; dsimp only; split <;> exact .refl _ u
  all_goals
    cases hs
  all_goals exact .refl _ u

/-! ### The state an accepted command is stored in -/

/-- The mailbox of a command that has just been accepted. -/
def acceptedBox (s : State) (h : Hdr) (p : CSpec) (m : Mailbox) : Mailbox :=
  { m with lastSeq := h.seq, seqFree := false, pending := true, owed := some ⟨p.op, h.seq, false, decTick s h p⟩ }

/-- The record under which a unit holds an accepted command. -/
def heldRecord (s : State) (h : Hdr) (c : Instr) (p : CSpec) : Held :=
  ⟨decTick s h p, s.time.tick, h.ctx, h.mb, h.seq, s.kpr.nextSerial, decide (p.cls ≠ .a), c⟩

/-- An accepted command is journaled and its mailbox taken. -/
def journaled (s : State) (h : Hdr) (c : Instr) (p : CSpec) : State :=
  modMb (jput s s.time.tick (.cmd (decTick s h p) h.ctx h.mb c)) h.ctx h.mb (acceptedBox s h p)

/-- An accepted command is held by its unit, where one holds it. -/
def stored (s : State) (h : Hdr) (c : Instr) (p : CSpec) : State :=
  if p.hold then holdCmd (journaled s h c p) (heldRecord s h c p) else journaled s h c p

theorem accept_eq (s : State) (h : Hdr) (c : Instr) (p : CSpec) : accept s h c p =
    if p.cls = .a then
      answer (modMb (p.onAccept (stored s h c p)) h.ctx h.mb fun m => { m with lastStatus := .ok }) h.ctx h.mb p.op h.seq .ok
        p.unit (decTick s h p) p.result
    else p.onAccept (stored s h c p) := by
  unfold stored heldRecord
  rw [show s.kpr.nextSerial = (journaled s h c p).kpr.nextSerial by simp [journaled]]
  rfl

theorem journaled_same (s : State) (h : Hdr) (c : Instr) (p : CSpec) : SameBut [.jnl, .mailboxes] s (journaled s h c p) :=
  (jput_same ..).andThen (modMb_same ..)

theorem mbAt_stored (hw : twf {} s.mailboxes = true) :
    mbAt (stored s h c p) h.ctx h.mb = acceptedBox s h p (mbAt s h.ctx h.mb) := by
  have hj : mbAt (journaled s h c p) h.ctx h.mb = acceptedBox s h p (mbAt s h.ctx h.mb) := by
    rw [journaled, mbAt_modMb (by simpa using hw)]
    simp [mbAt]
  unfold stored
  split
  · exact hj
  · exact hj

theorem stored_twf (hw : twf {} s.mailboxes = true) : twf {} (stored s h c p).mailboxes = true := by
  have hj : twf {} (journaled s h c p).mailboxes = true := modMb_twf (by simpa using hw) ..
  unfold stored
  split
  · exact hj
  · exact hj

theorem stored_time : (stored s h c p).time = s.time := by
  unfold stored holdCmd
  split <;> simp [journaled]

theorem stored_of_hold (hh : p.hold = true) :
    (stored s h c p).held = s.held ++ [heldRecord s h c p] ∧ (stored s h c p).kpr.nextSerial = s.kpr.nextSerial + 1 := by
  simp [stored, hh, holdCmd, journaled]

theorem stored_of_not_hold (hh : p.hold = false) : stored s h c p = journaled s h c p := by
  simp [stored, hh]

/-! ### What an accepted command leaves -/

/-- Acceptance changes what the command stores, what it does at once, and, where it is answered, its mailbox or a colony port. -/
theorem accept_stored_same (hs : specOf c u = some (h, p)) (ho : p.op ≠ 0x0020) (hm : h.mb ≤ 4) :
    SameBut (.mailboxes :: acceptParts) (stored s h c p) (accept s h c p) := by
  have ha := specOf_onAccept hs ho (stored s h c p)
  rw [accept_eq]
  split
  · exact ((ha.andThen (modMb_same ..)).andThen (answer_same _ hm ..)).mono (by decide)
  · exact ha.mono (by decide)

/-- A reply leaves REFUSED as it is. -/
theorem writeReply_refused (hw : twf {} s.mailboxes = true) (k m : Nat) (r : Reply) :
    (mbAt (writeReply s k m r) k m).refused = (mbAt s k m).refused := by
  unfold writeReply
  dsimp only
  split
  · simp only [tunnelOut, mbAt_modPort, mbAt_modMb hw]
  · simp only [mbAt_irq, mbAt_modMb hw]

/-- A reply at acceptance, or none, leaves LAST_SEQ, SEQ_FREE and REFUSED as the acceptance set them. -/
theorem mbAt_accept (hs : specOf c u = some (h, p)) (ho : p.op ≠ 0x0020) (hw : twf {} s.mailboxes = true) :
    (mbAt (accept s h c p) h.ctx h.mb).lastSeq = h.seq ∧ (mbAt (accept s h c p) h.ctx h.mb).seqFree = false ∧
      (mbAt (accept s h c p) h.ctx h.mb).refused = (mbAt s h.ctx h.mb).refused := by
  have hmb : (p.onAccept (stored s h c p)).mailboxes = (stored s h c p).mailboxes :=
    (specOf_onAccept hs ho (stored s h c p)).same .mailboxes (by decide)
  have hat : mbAt (p.onAccept (stored s h c p)) h.ctx h.mb = acceptedBox s h p (mbAt s h.ctx h.mb) := by
    rw [← mbAt_stored hw, mbAt, hmb]
    rfl
  rw [accept_eq]
  split
  · have hw' : twf {} (p.onAccept (stored s h c p)).mailboxes = true := hmb ▸ stored_twf hw
    have htaken := writeReply_taken (modMb_twf hw' h.ctx h.mb fun m => { m with lastStatus := .ok }) h.ctx h.mb
    rw [answer, (htaken _).lastSeq, (htaken _).seqFree, writeReply_refused (modMb_twf hw' ..), mbAt_modMb hw', hat]
    exact ⟨rfl, rfl, rfl⟩
  · rw [hat]
    exact ⟨rfl, rfl, rfl⟩

/-- What a reply at its acceptance carries. -/
structure AnsweredAtOnce (s t : State) (h : Hdr) (p : CSpec) : Prop where
  valid : (mbAt t h.ctx h.mb).replyValid = true
  cause : causeStands t h.ctx h.mb = true
  reply : ∃ r, (mbAt t h.ctx h.mb).reply = some r ∧ r.opcode = p.op ∧ r.seq = h.seq ∧ r.status = .ok ∧
    r.decTick = decTick s h p ∧ r.sampleTick = s.time.tick ∧ r.result = p.result

/-- A command answered at its acceptance has its reply in its mailbox, where that serves no colony path. -/
theorem accept_answered (hs : specOf c u = some (h, p)) (ho : p.op ≠ 0x0020) (hw : twf {} s.mailboxes = true) (hm : h.mb < 4)
    (hc : p.cls = .a) (htun : (mbAt s h.ctx h.mb).tunnel = none) : AnsweredAtOnce s (accept s h c p) h p := by
  have ha := specOf_onAccept hs ho (stored s h c p)
  have hmb : (p.onAccept (stored s h c p)).mailboxes = (stored s h c p).mailboxes := ha.same .mailboxes (by decide)
  have ht : (p.onAccept (stored s h c p)).time = s.time := (ha.same .time (by decide)).trans stored_time
  have hat : mbAt (p.onAccept (stored s h c p)) h.ctx h.mb = acceptedBox s h p (mbAt s h.ctx h.mb) := by
    rw [← mbAt_stored hw, mbAt, hmb]
    rfl
  have hw' : twf {} (p.onAccept (stored s h c p)).mailboxes = true := hmb ▸ stored_twf hw
  rw [accept_eq, if_pos hc]
  generalize p.onAccept (stored s h c p) = v at hat hw' ht
  have hbox := mbAt_modMb hw' h.ctx h.mb fun m => { m with lastStatus := .ok }
  have hbw := modMb_twf hw' h.ctx h.mb fun m => { m with lastStatus := .ok }
  have htun' : (mbAt (modMb v h.ctx h.mb fun m => { m with lastStatus := .ok }) h.ctx h.mb).tunnel = none := by
    rw [hbox, hat]
    exact htun
  simp only [answer, writeReply, htun']
  refine ⟨?_, causeStands_irq _ _ (by omega), ?_⟩
  · simp only [mbAt_irq, mbAt_modMb hbw]
  · simp only [mbAt_irq, mbAt_modMb hbw]
    exact ⟨_, rfl, rfl, rfl, rfl, rfl, congrArg TimeUnit.tick ht, rfl⟩

/-- A command that is not answered at its acceptance has its reply slot reserved. -/
theorem mbAt_accept_reserved (hs : specOf c u = some (h, p)) (ho : p.op ≠ 0x0020) (hw : twf {} s.mailboxes = true)
    (hc : p.cls ≠ .a) : mbAt (accept s h c p) h.ctx h.mb = acceptedBox s h p (mbAt s h.ctx h.mb) := by
  have hmb : (p.onAccept (stored s h c p)).mailboxes = (stored s h c p).mailboxes :=
    (specOf_onAccept hs ho (stored s h c p)).same .mailboxes (by decide)
  rw [accept_eq, if_neg hc, ← mbAt_stored hw, mbAt, hmb]
  rfl

end Sys2Proof.Arch

/-! Acceptance of a Berza command, for all of them (R15, R38, R47, R57, R316, R327, R333). -/

namespace Sys2Proof.Arch

open Sys2Proof Sys2Proof.Machine Sys2Proof.Safety Sys2Proof.Laws Sys2Proof.Scope

variable {s : State} {h : Hdr} {c : Instr} {p : CSpec}

/-- A command that is accepted completes with what acceptance leaves, settled. -/
theorem completes_of_accept {P : State → Prop} (hs : specOf c s = some (h, p)) (ha : Accepts s h p)
    (hp : P (settle s (accept (findStale h p (taking s h)) h c p))) : Completes c s P := by
  have hseq : seqErr (taking s h) h.ctx h.mb h.seq = none := (seqErr_taking ha.toLive h h.seq).trans ha.seq
  have hjudge : judgeErr (findStale h p (taking s h)) h p = none := (judgeErr_findStale h p _).trans ha.judged
  refine completes_of_submit hs ha.toLive ha.ctx ha.mb ?_
  rw [submit_judged ha.takes ha.idle]
  simpa only [judge, hseq, hjudge] using hp

/-- The same where the keeper's shadow agrees with hardware. -/
theorem completes_of_accept_fresh {P : State → Prop} (hs : specOf c s = some (h, p)) (ha : Accepts s h p) (hf : h.stale = false)
    (hp : P (settle s (accept (taking s h) h c p))) : Completes c s P :=
  completes_of_accept hs ha (by rwa [findStale_fresh hf])

theorem tunnel_taking (hl : Live s) (h : Hdr) : (mbAt (taking s h) h.ctx h.mb).tunnel = (mbAt s h.ctx h.mb).tunnel := by
  rw [mbAt_taking hl]

/-- An answer given at acceptance, settled, is one to the command as it was posted. -/
theorem answeredAtOnce_settle (hs : specOf c s = some (h, p)) (ha : Accepts s h p) (ho : p.op ≠ 0x0020) (hc : p.cls = .a)
    (htun : (mbAt s h.ctx h.mb).tunnel = none) : AnsweredAtOnce s (settle s (accept (taking s h) h c p)) h p := by
  obtain ⟨hvalid, hcause, hreply⟩ :=
    accept_answered hs ho (taking_twf ha.toLive h) ha.mb hc ((tunnel_taking ha.toLive h).trans htun)
  exact ⟨by rwa [mbAt_settle], causeStands_settle hcause s, by rwa [mbAt_settle]⟩

/-- What acceptance leaves held, with its numbering, is what the command stores. -/
theorem held_settle_accept (hs : specOf c s = some (h, p)) (ha : Accepts s h p) (ho : p.op ≠ 0x0020) :
    (settle s (accept (taking s h) h c p)).held = (stored (taking s h) h c p).held ∧
      (settle s (accept (taking s h) h c p)).kpr.nextSerial = (stored (taking s h) h c p).kpr.nextSerial := by
  have hmb := ha.mb
  have hsame : SameBut (.mailboxes :: acceptParts) (stored (taking s h) h c p) (settle s (accept (taking s h) h c p)) :=
    (accept_stored_same hs ho (by omega)).settled s
  generalize settle s (accept (taking s h) h c p) = t at hsame ⊢
  have hkpr : t.kpr = { (stored (taking s h) h c p).kpr with readyEpoch := t.kpr.readyEpoch, epoch := t.kpr.epoch } :=
    hsame.same .kpr (by decide)
  exact ⟨hsame.same .held (by decide), by rw [hkpr]⟩

/-- An accepted command that no unit holds and that is answered at once changes its mailbox, a colony port that it came over, and
the journal. -/
theorem accept_same_of_answered (hm : h.mb ≤ 4) (hh : p.hold = false) (hon : p.onAccept = id) :
    SameBut [.mailboxes, .col, .jnl] s (accept (taking s h) h c p) := by
  have htaken : SameBut [.mailboxes] s (taking s h) := modMb_same ..
  have hstored : SameBut [.mailboxes, .jnl] s (stored (taking s h) h c p) := by
    rw [stored_of_not_hold hh]
    exact (htaken.andThen (journaled_same ..)).mono (by decide)
  rw [accept_eq, hon]
  split
  · exact ((hstored.andThen (modMb_same ..)).andThen (answer_same _ hm ..)).mono (by decide)
  · exact hstored.mono (by decide)

/-- Clauses of the commands that are answered at once and held by no unit. -/
theorem completes_answered (hs : specOf c s = some (h, p)) (ha : Accepts s h p) (hf : h.stale = false) (ho : p.op ≠ 0x0020)
    (hc : p.cls = .a) (hh : p.hold = false) (hon : p.onAccept = id) : Completes c s fun t =>
      SameBut [.mailboxes, .col, .jnl] s t ∧
      ((mbAt s h.ctx h.mb).tunnel = none → ∃ r, (mbAt t h.ctx h.mb).reply = some r ∧ r.status = .ok ∧ r.result = p.result) := by
  have hmb := ha.mb
  refine completes_of_accept_fresh hs ha hf ⟨(accept_same_of_answered (by omega) hh hon).settled s, fun htun => ?_⟩
  obtain ⟨r, hr, -, -, hok, -, -, hres⟩ := (answeredAtOnce_settle hs ha ho hc htun).reply
  exact ⟨r, hr, hok, hres⟩

/-- Clauses of the commands that are answered at once and held until their tick. -/
theorem completes_result (hs : specOf c s = some (h, p)) (ha : Accepts s h p) (hf : h.stale = false) (ho : p.op ≠ 0x0020)
    (hc : p.cls = .a) : Completes c s fun t => (mbAt s h.ctx h.mb).tunnel = none →
      ∃ r, (mbAt t h.ctx h.mb).reply = some r ∧ r.status = .ok ∧ r.result = p.result := by
  refine completes_of_accept_fresh hs ha hf fun htun => ?_
  obtain ⟨r, hr, -, -, hok, -, -, hres⟩ := (answeredAtOnce_settle hs ha ho hc htun).reply
  exact ⟨r, hr, hok, hres⟩

/-- The second clause: what an accepted command leaves in its mailbox and in its unit's store. -/
theorem completes_accepted (hs : specOf c s = some (h, p)) (ha : Accepts s h p) (hf : h.stale = false) (ho : p.op ≠ 0x0020) :
    Completes c s fun t =>
      (mbAt t h.ctx h.mb).lastSeq = h.seq ∧ (mbAt t h.ctx h.mb).seqFree = false ∧ (mbAt t h.ctx h.mb).refused = false ∧
      (p.cls ≠ .a → (mbAt t h.ctx h.mb).pending = true ∧
        (mbAt t h.ctx h.mb).owed = some ⟨p.op, h.seq, false, decTick s h p⟩) ∧
      (p.cls = .a → (mbAt s h.ctx h.mb).tunnel = none → (mbAt t h.ctx h.mb).replyValid = true ∧
        (ctxAt t h.ctx).irqStatus.getLsbD h.mb = true ∧
        ∃ r, (mbAt t h.ctx h.mb).reply = some r ∧ r.opcode = p.op ∧ r.seq = h.seq ∧ r.status = .ok ∧
          r.decTick = decTick s h p ∧ r.sampleTick = s.time.tick ∧ r.result = p.result) ∧
      (p.hold = true → t.held = s.held ++ [heldRecord s h c p] ∧ t.kpr.nextSerial = s.kpr.nextSerial + 1) ∧
      (p.hold = false → t.held = s.held) := by
  have hw := taking_twf ha.toLive h
  obtain ⟨hlast, hfree, href⟩ := mbAt_accept hs ho hw
  obtain ⟨hheld, hserial⟩ := held_settle_accept hs ha ho
  refine completes_of_accept_fresh hs ha hf ⟨?_, ?_, ?_, fun hc => ?_, fun hc htun => ?_, fun hh => ?_, fun hh => ?_⟩
  · rw [mbAt_settle, hlast]
  · rw [mbAt_settle, hfree]
  · rw [mbAt_settle, href, mbAt_taking ha.toLive]
  · rw [mbAt_settle, mbAt_accept_reserved hs ho hw hc]
    exact ⟨rfl, rfl⟩
  · obtain ⟨hvalid, hcause, hreply⟩ := answeredAtOnce_settle hs ha ho hc htun
    exact ⟨hvalid, hcause, hreply⟩
  · rw [hheld, hserial, (stored_of_hold hh).1, (stored_of_hold hh).2]
    exact ⟨rfl, rfl⟩
  · rw [hheld, stored_of_not_hold hh]
    simp [journaled, taking]

theorem specCalRead_result {k i o : Nat} {b : List Byte} (hb : calReadBytes s k i o = some b) :
    (specCalRead k i o s).result = b := by
  simp only [specCalRead, hb]

/-- Settles O56: order 15 of R327 once for all commands, the five that are answered with what they name from it. -/
theorem acceptance : Obligations.Acceptance := by
  unfold Obligations.Acceptance
  refine ⟨fun s c h p hs ha => completes_of_accept hs ha (settle_same s _), fun s c h p hs ha hf ho =>
    completes_accepted hs ha hf ho, ?_, ?_, ?_, ?_, ?_⟩
  · intro s h a p hs ha hf
    obtain rfl : specNop a = p := by simpa [specOf] using hs
    exact completes_answered hs ha hf (by simp [specNop]) rfl rfl rfl
  · intro s h p hs ha hf
    obtain rfl : specDeviceInfo s = p := by simpa [specOf] using hs
    exact completes_answered hs ha hf (by simp [specDeviceInfo]) rfl rfl rfl
  · intro s h p hs ha hf
    obtain rfl : specFwInfo s = p := by simpa [specOf] using hs
    exact completes_answered hs ha hf (by simp [specFwInfo]) rfl rfl rfl
  · intro s h n p hs ha hf
    obtain rfl : specSynCoefRead n = p := by simpa [specOf] using hs
    exact completes_result hs ha hf (by simp [specSynCoefRead]) rfl
  · intro s h k i o p b hs ha hf hb
    obtain rfl : specCalRead k i o s = p := by simpa [specOf] using hs
    have hres := completes_result hs ha hf (by simp [specCalRead]) rfl
    rwa [specCalRead_result hb] at hres

end Sys2Proof.Arch

/-! Epochs and the STATE cause follow every change (R28, R259, R321, R340, R341, R406). -/

namespace Sys2Proof.Arch

open Sys2Proof Sys2Proof.Machine Sys2Proof.Safety Sys2Proof.Laws Sys2Proof.Scope

/-! ### Settling changes nothing that is watched -/

/-- All that the epochs and the STATE cause watch. -/
def watched (s : State) : Nat × (Nat × Nat × Nat × Nat) × (Nat × Nat × Nat) × List Nat × List Nat × Nat × Nat :=
  (modeState s, (ready0 s, ready1 s, ready2 s, ready3 s), (s.kpr.st, s.kpr.activeImg, s.dev.prefImg), colKey s, pwrKey s,
    s.dev.lifecycle, s.sec.dbg)

variable (s u : State)

theorem watched_modeSettle : watched (modeSettle s u) = watched u := by
  unfold modeSettle
  split <;> rfl

theorem watched_readySettle : watched (readySettle s u) = watched u := by
  unfold readySettle
  split <;> rfl

theorem watched_keeperSettle : watched (keeperSettle s u) = watched u := by
  unfold keeperSettle
  split <;> rfl

theorem watched_colSettle : watched (colSettle s u) = watched u := by
  unfold colSettle
  split <;> rfl

theorem watched_secSettle : watched (secSettle s u) = watched u := by
  unfold secSettle
  dsimp only
  split <;> split <;> rfl

theorem watched_irqState : watched (irqState u) = watched u := by
  rw [irqState_eq]
  rfl

theorem watched_stateCause : watched (stateCause s u) = watched u := by
  unfold stateCause
  split
  · rfl
  · exact watched_irqState u

/-- The state of which the STATE cause is raised: every epoch has counted. -/
def counted : State := secSettle s (colSettle s (keeperSettle s (readySettle s (modeSettle s u))))

theorem watched_counted : watched (counted s u) = watched u := by
  rw [counted, watched_secSettle, watched_colSettle, watched_keeperSettle, watched_readySettle, watched_modeSettle]

theorem settle_eq_counted : settle s u = { stateCause s (counted s u) with pending := s.pending } := rfl

theorem watched_pending (l : List Instr) : watched { u with pending := l } = watched u := rfl

theorem watched_settle : watched (settle s u) = watched u := by
  rw [settle_eq_counted, watched_pending, watched_stateCause, watched_counted]

/-! ### What one epoch counts -/

variable {s u}

/-- An epoch that takes one more where it has not moved yet has moved. -/
theorem moves_of_counts {epoch : State → Word} {key : Prop} {v w : State} {a : Word} [Decidable (key ∨ epoch v ≠ a)]
    (hkey : ¬ key) (hw : epoch w = epoch v + 1) : epoch (if key ∨ epoch v ≠ a then v else w) ≠ a := by
  by_cases h : epoch v = a
  · rw [if_neg (by simp [hkey, h]), hw, h]
    simp
  · rwa [if_pos (.inr h)]

theorem modeSettle_moves (h : modeState u ≠ modeState s) : (modeSettle s u).md.epoch ≠ s.md.epoch :=
  moves_of_counts (epoch := fun v => v.md.epoch) h rfl

theorem readySettle_moves (h : (ready0 s, ready1 s, ready2 s, ready3 s) ≠ (ready0 u, ready1 u, ready2 u, ready3 u)) :
    (readySettle s u).kpr.readyEpoch ≠ s.kpr.readyEpoch := by
  unfold readySettle
  exact moves_of_counts (epoch := fun v => v.kpr.readyEpoch) h rfl

theorem keeperSettle_moves (h : (s.kpr.st, s.kpr.activeImg, s.dev.prefImg) ≠ (u.kpr.st, u.kpr.activeImg, u.dev.prefImg)) :
    (keeperSettle s u).kpr.epoch ≠ s.kpr.epoch :=
  moves_of_counts (epoch := fun v => v.kpr.epoch) h rfl

theorem colSettle_moves (h : colKey s ≠ colKey u) : (colSettle s u).col.epoch ≠ s.col.epoch :=
  moves_of_counts (epoch := fun v => v.col.epoch) h rfl

theorem secSettle_moves_power (h : pwrKey s ≠ pwrKey u) : (secSettle s u).sec.pwrEpoch ≠ s.sec.pwrEpoch := by
  have hp := moves_of_counts (epoch := fun v => v.sec.pwrEpoch) (v := u) (a := s.sec.pwrEpoch)
    (w := { u with sec := { u.sec with pwrEpoch := u.sec.pwrEpoch + 1 } }) h rfl
  unfold secSettle
  dsimp only at hp ⊢
  split
  · exact hp
  · exact hp

/-- The power registers' turn, which leaves the other epoch alone. -/
theorem secSettle_moves_level (h : ¬ (s.dev.lifecycle = u.dev.lifecycle ∧ s.sec.dbg = u.sec.dbg)) :
    (secSettle s u).sec.epoch ≠ s.sec.epoch := by
  have hl (v : State) (hv : v.sec.epoch = u.sec.epoch) :
      (if (s.dev.lifecycle = u.dev.lifecycle ∧ s.sec.dbg = u.sec.dbg) ∨ u.sec.epoch ≠ s.sec.epoch then v
        else { v with sec := { v.sec with epoch := v.sec.epoch + 1 } }).sec.epoch ≠ s.sec.epoch := by
    rw [← hv]
    exact moves_of_counts (epoch := fun v => v.sec.epoch) h rfl
  unfold secSettle
  dsimp only
  refine hl _ ?_
  split <;> rfl

/-! ### What settling leaves of each epoch -/

variable (s u)

theorem keeperSettle_readyEpoch : (keeperSettle s u).kpr.readyEpoch = u.kpr.readyEpoch := by
  unfold keeperSettle
  split <;> rfl

theorem settle_readyEpoch : (settle s u).kpr.readyEpoch = (readySettle s (modeSettle s u)).kpr.readyEpoch := by
  have h : (settle s u).kpr = (keeperSettle s (readySettle s (modeSettle s u))).kpr := by simp [settle]
  rw [h, keeperSettle_readyEpoch]

theorem settle_modeEpoch : (settle s u).md.epoch = (modeSettle s u).md.epoch := by
  have h : (settle s u).md = (modeSettle s u).md := by simp [settle]
  rw [h]

theorem settle_keeperEpoch : (settle s u).kpr.epoch = (keeperSettle s (readySettle s (modeSettle s u))).kpr.epoch := by
  simp [settle]

theorem settle_colEpoch : (settle s u).col.epoch =
    (colSettle s (keeperSettle s (readySettle s (modeSettle s u)))).col.epoch := by simp [settle]

theorem settle_sec_eq : (settle s u).sec = (counted s u).sec := by simp [settle, counted]

/-! ### The STATE cause -/

variable {s u}

/-- STATE stands in every context once something that it reports differs. -/
theorem stateCause_stands (h : (modeState s, ready0 s, ready1 s, ready2 s, ready3 s, s.kpr.st) ≠
    (modeState u, ready0 u, ready1 u, ready2 u, ready3 u, u.kpr.st)) {k : Nat} (hk : k < 16) :
    causeStands (stateCause s u) k 6 = true := by
  rw [stateCause, if_neg h]
  exact causeStands_irqState u hk

theorem causeStands_pending (l : List Instr) (k b : Nat) : causeStands { u with pending := l } k b = causeStands u k b := rfl

/-- Settling a change of what MODE_STATE, READY0 to READY3 or `KEEPER_STATE`.STATE report leaves STATE in every context. -/
theorem settle_stands (h : (modeState s, ready0 s, ready1 s, ready2 s, ready3 s, s.kpr.st) ≠
    (modeState u, ready0 u, ready1 u, ready2 u, ready3 u, u.kpr.st)) {k : Nat} (hk : k < 16) :
    (ctxAt (settle s u) k).irqStatus.getLsbD 6 = true := by
  have hw := watched_counted s u
  simp only [watched, Prod.mk.injEq] at hw
  obtain ⟨hm, ⟨h0, h1, h2, h3⟩, ⟨hst, -⟩, -⟩ := hw
  have hstands : causeStands (stateCause s (counted s u)) k 6 = true :=
    stateCause_stands (by rwa [hm, h0, h1, h2, h3, hst]) hk
  rwa [← causeStands_pending s.pending, ← settle_eq_counted] at hstands

/-! ### The obligation -/

/-- What each epoch has counted once a change is settled. -/
theorem settle_counts (s u : State) :
    (modeState u ≠ modeState s → (settle s u).md.epoch ≠ s.md.epoch) ∧
    ((ready0 s, ready1 s, ready2 s, ready3 s) ≠ (ready0 u, ready1 u, ready2 u, ready3 u) →
      (settle s u).kpr.readyEpoch ≠ s.kpr.readyEpoch) ∧
    ((s.kpr.st, s.kpr.activeImg, s.dev.prefImg) ≠ (u.kpr.st, u.kpr.activeImg, u.dev.prefImg) →
      (settle s u).kpr.epoch ≠ s.kpr.epoch) ∧
    (colKey s ≠ colKey u → (settle s u).col.epoch ≠ s.col.epoch) ∧
    (pwrKey s ≠ pwrKey u → (settle s u).sec.pwrEpoch ≠ s.sec.pwrEpoch) ∧
    ((s.dev.lifecycle, s.sec.dbg) ≠ (u.dev.lifecycle, u.sec.dbg) → (settle s u).sec.epoch ≠ s.sec.epoch) := by
  have h1 := watched_modeSettle s u
  have h2 := (watched_readySettle s _).trans h1
  have h3 := (watched_keeperSettle s _).trans h2
  have h4 := (watched_colSettle s _).trans h3
  simp only [watched, Prod.mk.injEq] at h1 h2 h3 h4
  obtain ⟨-, ⟨hr0, hr1, hr2, hr3⟩, -⟩ := h1
  obtain ⟨-, -, ⟨hst, himg, hpref⟩, -⟩ := h2
  obtain ⟨-, -, -, hcol, -⟩ := h3
  obtain ⟨-, -, -, -, hpwr, hlc, hdbg⟩ := h4
  rw [settle_modeEpoch, settle_readyEpoch, settle_keeperEpoch, settle_colEpoch, settle_sec_eq]
  refine ⟨modeSettle_moves, fun h => readySettle_moves ?_, fun h => keeperSettle_moves ?_, fun h => colSettle_moves ?_,
    fun h => secSettle_moves_power ?_, fun h => secSettle_moves_level ?_⟩
  · rwa [hr0, hr1, hr2, hr3]
  · rwa [hst, himg, hpref]
  · rwa [hcol]
  · rwa [hpwr]
  · rw [hlc, hdbg]
    simpa using h

/-- Settles O51: every command's effect is settled, and settling changes nothing that is watched, so each epoch has counted what
differs. -/
theorem epochsCount : Obligations.EpochsCount := by
  unfold Obligations.EpochsCount
  intro s c t ha hp hx
  obtain ⟨u, rfl⟩ : ∃ u, t = settle s u := by
    rcases exec_shape s c hp with hf | ⟨hoff, -⟩ | ⟨-, u, hu⟩
    · cases hx.symm.trans hf
    · simp [ha] at hoff
    · exact ⟨u, by cases hx.symm.trans hu; rfl⟩
  obtain ⟨hmode, hready, hkeeper, hcol, hpwr, hlevel⟩ := settle_counts s u
  have hw := watched_settle s u
  simp only [watched, Prod.mk.injEq] at hw
  obtain ⟨em, ⟨e0, e1, e2, e3⟩, ⟨est, eimg, epref⟩, ecol, epwr, elc, edbg⟩ := hw
  rw [em, e0, e1, e2, e3, est, eimg, epref, ecol, epwr, elc, edbg]
  refine ⟨hmode, fun h => hready fun he => ?_, fun h => hkeeper fun he => ?_, fun h => hcol h.symm, fun h => hpwr h.symm,
    fun h => hlevel fun he => ?_, fun h k hk => settle_stands (fun he => ?_) hk⟩
  all_goals
    simp only [Prod.mk.injEq] at he
    simp [he] at h

end Sys2Proof.Arch

/-! What a decided command finds at its cells: the frames of stopping a cell and of reaching its first affected sample (R41, R44, R60). -/

namespace Sys2Proof.Arch

open Sys2Proof Sys2Proof.Machine Sys2Proof.Safety Sys2Proof.Laws Sys2Proof.Scope

theorem deactivate_same (s : State) (areas : List (Nat × Nat)) : SameBut [.active, .hives] s (deactivate s areas) :=
  (set_active_same s _).andThen (bumpComb_same _ _)

/-- Parts that a cell which stops can change: itself, its signature and journal entries, what its arm had activated, the hive's
source table and the queues it played from. -/
def cellParts : List Part := [.cells, .jnl, .rpl, .active, .hives, .queues, .inner]

theorem replayMismatch_same (c : Nat) (g : SigAcc) (pieces other : List Nat) (s : State) :
    SameBut [.rpl] s (replayMismatch c g pieces other s) := set_rpl_same s _

theorem sigClose_same (c : Nat) (s : State) : SameBut cellParts s (sigClose c s) := by
  unfold sigClose
  extract_lets x g pieces crc s1
  have h1 : SameBut [.cells] s s1 := set_cells_same s _
  split
  · exact .refl _ s
  · split
    · split
      · exact h1.mono (by decide)
      · extract_lets s2
        have h2 : SameBut [.cells, .rpl] s s2 := h1.andThen (set_rpl_same s1 _)
        split
        · split
          · exact h2.mono (by decide)
          · exact (h2.andThen (replayMismatch_same ..)).mono (by decide)
        · exact h2.mono (by decide)
    · exact (h1.andThen (jput_same ..)).mono (by decide)

theorem endGap_same (c : Nat) (s : State) : SameBut [.cells, .jnl] s (endGap c s) :=
  .ite (fun _ => .refl _ s) (fun _ => (set_cells_same s _).andThen (jput_same ..))

theorem endLate_same (c : Nat) (s : State) : SameBut [.cells, .jnl] s (endLate c s) :=
  .ite (fun _ => .refl _ s) (fun _ => (set_cells_same s _).andThen (jput_same ..))

theorem ctxUnlock_same (i : Nat) (s : State) : SameBut [.inner] s (ctxUnlock i s) := by
  unfold ctxUnlock
  split
  · exact set_inner_same s _
  · exact .refl _ s

theorem queueRelease_same (q : Nat) (s : State) : SameBut [.queues, .hives, .inner] s (queueRelease q s) := by
  unfold queueRelease
  dsimp only
  split
  · exact (modQueue_same s q _).andThen (ctxUnlock_same ..)
  · exact (modQueue_same s q _).mono (by decide)

theorem releaseAreas_same (a : ArmInfo) (s : State) : SameBut [.active, .hives, .queues, .inner] s (releaseAreas a s) :=
  ((deactivate_same s a.areas).andThen (.foldl (fun u q => queueRelease_same q u) a.queues _)).mono (by decide)

theorem releaseArm_same (c : Nat) (s : State) : SameBut cellParts s (releaseArm c s) := by
  unfold releaseArm
  dsimp only
  split
  · exact .refl _ s
  · exact ((set_cells_same s _).andThen (releaseAreas_same ..)).mono (by decide)

theorem releaseTable_same (hive : Nat) (s : State) : SameBut [.hives, .active] s (releaseTable hive s) := by
  unfold releaseTable
  dsimp only
  split
  · exact ((set_hives_same s _).andThen (deactivate_same ..)).mono (by decide)
  · exact .refl _ s

theorem toBound_same (c : Nat) (st : CellSt) (s : State) : SameBut cellParts s (toBound c st s) := by
  have h1 := (endGap_same c s).andThen (endLate_same c _)
  have h2 := ((h1.andThen (sigClose_same c _)).andThen (releaseArm_same c _))
  exact ((h2.andThen (modCell_same _ c _)).andThen (releaseTable_same ..)).mono (by decide)

/-- Parts that a decision which reaches a cell can change: those of a cell that stops, and the fault of a missing LOOP_END. -/
def skipParts : List Part := .faults :: cellParts

theorem takeNext_same (c : Nat) (s : State) : SameBut skipParts s (takeNext c s) := by
  unfold takeNext
  dsimp only
  split
  · exact .refl _ s
  · have hstop (x : Tab Cell) (f : Cell → Cell) :=
      ((set_cells_same s x).andThen (modCell_same _ c f)).andThen (toBound_same c .bound _)
    split
    · exact (hstop _ _).mono (by decide)
    · split
      · exact ((hstop _ _).andThen (raise_same ..)).mono (by decide)
      · exact (set_cells_same s _).mono (by decide)

theorem noteActed_same (c dec : Nat) (s : State) : SameBut [.cells] s (noteActed c dec s) :=
  .ite (fun _ => .refl _ s) (fun _ => set_cells_same s _)

theorem skipCells_same (x : Held) (s : State) : SameBut skipParts s (skipCells x s) := by
  refine .foldl (fun u p => .ite (fun _ => ?_) (fun _ => .refl _ u)) s.cells s
  exact (((takeNext_same p.1 u).andThen (set_cells_same _ _)).andThen (noteActed_same p.1 x.dec _)).mono (by decide)

theorem released_same (s : State) (x : Held) : SameBut [.held] s (released s x) := set_held_same s _

theorem reached_same (s : State) (x : Held) : SameBut (.held :: skipParts) s (reached s x) :=
  ((released_same s x).andThen (skipCells_same x _)).mono (by decide)

end Sys2Proof.Arch

/-! What entering a mode can change (R18, R51, R216, R274, R356, R431). -/

namespace Sys2Proof.Arch

open Sys2Proof Sys2Proof.Machine Sys2Proof.Safety Sys2Proof.Laws Sys2Proof.Scope

theorem bumpWag_same (s : State) : SameBut [.wagEpoch] s (bumpWag s) :=
  ⟨fun p hp => by cases p <;> simp_all [Part.Same, ctxAt, bumpWag]⟩

/-! ### Capture channels that a mode disarms -/

theorem markLine_same (line : Nat) (s : State) : SameBut [.dramMarks, .dmcs, .jnl, .grave] s (markLine line s) := by
  unfold markLine
  extract_lets s1 c s2
  have h1 : SameBut [.dramMarks] s s1 := set_dramMarks_same s _ _
  have h2 : SameBut [.dmcs, .jnl] s1 s2 := .ite (fun _ => modDmc_same s1 c _) (fun _ => .refl _ s1)
  split
  · exact (h1.andThen h2).mono (by decide)
  · have hg (g : Grave) := (h1.andThen h2).andThen (set_grave_same s2 g)
    split
    · exact ((hg _).andThen (set_dramCe_same _ _)).mono (by decide)
    · exact ((hg _).andThen (set_dramUe_same _ _)).mono (by decide)

theorem dramStore_same (s : State) (a : Nat) (data : List Byte) :
    SameBut [.dram, .dramMarks, .dmcs, .jnl, .grave] s (dramStore s a data) :=
  (set_dram_same s _).andThen (.foldl (fun u l => markLine_same l u) _ _)

/-- Parts that an entry of a record ring can change (R188, R189). -/
def ringParts : List Part := [.caps, .dram, .dramMarks, .dmcs, .jnl, .grave]

theorem writeHeader_same (c : Nat) (r : CapRec) (crc : Nat) (s : State) : SameBut ringParts s (writeHeader c r crc s) :=
  (dramStore_same ..).mono (by decide)

theorem advanceWr_same (c : Nat) (s : State) : SameBut [.caps] s (advanceWr c s) := set_caps_same s _

theorem reserve_same {c bytes : Nat} {r : CapRec} {s t : State} (h : reserve c bytes r s = some t) : SameBut ringParts s t := by
  unfold reserve at h
  extract_lets x size room pad p e s1 s2 at h
  have h1 : SameBut [.caps] s s1 := set_caps_same s _
  have h2 : SameBut ringParts s1 s2 := .ite (fun _ => .refl _ s1) (fun _ => writeHeader_same ..)
  have h3 : SameBut ringParts s2 (if e.committed then writeHeader c e 0 s2 else s2) :=
    .ite (fun _ => writeHeader_same ..) (fun _ => .refl _ s2)
  split at h
  · cases h
  · cases h
    exact (((h1.andThen h2).andThen h3).andThen (advanceWr_same ..)).mono (by decide)

/-- Parts that a capture channel's records can change: its ring and the faults it meets. -/
def recordParts : List Part := .faults :: ringParts

theorem capIgnored_same (c : Nat) (s : State) : SameBut [.caps] s (capIgnored c s) :=
  modCap_same s c fun x => { x with flags := x.flags ||| 0x1000 }

theorem capFault_same (s : State) (bit cls c addr master acc : Nat) : SameBut [.faults] s (capFault s bit cls c addr master acc) :=
  raise_same s _

theorem noteEntry_same (c : Nat) (r : CapRec) (s : State) : SameBut recordParts s (noteEntry c r s) := by
  unfold noteEntry
  dsimp only
  split
  · exact .refl _ s
  · split
    · exact (reserve_same ‹_›).mono (by decide)
    · exact ((modCap_same s c _).andThen (capFault_same ..)).mono (by decide)

theorem missTrigger_same (c : Nat) (ev : Event) (cause : Nat) (s : State) : SameBut recordParts s (missTrigger c ev cause s) :=
  (((modCap_same s c _).andThen (capFault_same ..)).andThen (noteEntry_same ..)).mono (by decide)

theorem ringFull_same (c : Nat) (s : State) : SameBut [.caps, .faults] s (ringFull c s) :=
  (modCap_same s c _).andThen (capFault_same ..)

theorem stackRecord_same (c : Nat) (part : Bool) (s : State) : SameBut recordParts s (stackRecord c part s) := by
  unfold stackRecord
  dsimp only
  split
  · exact .refl _ s
  · split
    · exact (raise_same ..).mono (by decide)
    · split
      · exact ((reserve_same ‹_›).andThen (modCap_same ..)).mono (by decide)
      · exact ((ringFull_same c s).andThen (missTrigger_same ..)).mono (by decide)

/-- Parts that a mode in which cells may not play changes by stopping them and disarming the capture channels. -/
def stopParts : List Part := recordParts ++ cellParts

theorem capDrain_same (c : Nat) (s : State) : SameBut [.caps, .active, .hives] s (capDrain c s) := by
  unfold capDrain
  dsimp only
  split
  · exact (putCap_same s c _).andThen (deactivate_same ..)
  · exact .refl _ s

theorem disarm_same (c dec : Nat) (s : State) : SameBut (recordParts ++ [.active, .hives]) s (disarm c dec s) := by
  unfold disarm
  dsimp only
  split
  · have hcut (f g : Cap → Cap) := (modCap_same s c f).andThen (modCap_same (modCap s c f) c g)
    exact (((hcut _ _).andThen (stackRecord_same ..)).andThen (capDrain_same ..)).mono (by decide)
  · exact (capIgnored_same c s).mono (by decide)

theorem stopUnits_same (t : Nat) (s : State) : SameBut stopParts s (stopUnits t s) := by
  have hcells (u : State) (p : Nat × Cell) : SameBut cellParts u
      (if p.2.st = .armed ∨ p.2.st = .running ∨ p.2.st = .paused then toBound p.1 .bound u else u) :=
    .ite (fun _ => toBound_same ..) (fun _ => .refl _ u)
  have hcaps (u : State) (p : Nat × Cap) : SameBut (recordParts ++ [.active, .hives]) u
      (if p.2.st = .armed ∨ p.2.st = .window ∨ p.2.st = .rearm then disarm p.1 t u else u) :=
    .ite (fun _ => disarm_same ..) (fun _ => .refl _ u)
  exact ((SameBut.foldl hcells s.cells s).andThen (.foldl hcaps _ _)).mono (by decide)

/-! ### Pins, auxiliary outputs, links, pace and journal -/

theorem modPin_same (s : State) (p : Nat) (f : Pin → Pin) : SameBut [.pins] s (modPin s p f) := set_pins_same s _

theorem pinsToIdle_same (s : State) : SameBut [.pins, .col, .wagEpoch] s (pinsToIdle s) := by
  unfold pinsToIdle
  extract_lets ch s1 col s2
  have h1 : SameBut [.pins] s s1 :=
    .forUp (fun p u => .ite (fun _ => modPin_same u p _) (fun _ => .refl _ u)) 32 0 s
  have h2 : SameBut [.col] s1 s2 := set_col_same s1 _
  exact .ite (fun _ => ((h1.andThen h2).andThen (bumpWag_same s2)).mono (by decide)) (fun _ => (h1.andThen h2).mono (by decide))

theorem auxClearAll_same (s : State) : SameBut [.auxs] s (auxClearAll s) := .forUp (fun _ u => set_auxs_same u _) 64 0 s

theorem linkTrain_same (i : Nat) (s : State) : SameBut [.links, .jnl] s (linkTrain i s) := by
  unfold linkTrain
  extract_lets s1
  have h1 : SameBut [.links, .jnl] s s1 := modLink_same s i _
  split
  · exact h1.trans (modLink_same s1 i _)
  · split
    · exact h1.trans (modLink_same s1 i _)
    · exact h1

theorem lanesSleep_same (s : State) : SameBut [.rxLanes] s (lanesSleep s) :=
  .ite (fun _ => set_rxLanes_same s _) (fun _ => .refl _ s)

/-- The links follow the guards and the mode; the RX lanes lose their lock in STANDBY alone. -/
theorem linksFollow_same (s : State) :
    SameBut (if s.md.mode = .standby then [.links, .jnl, .rxLanes] else [.links, .jnl]) s (linksFollow s) := by
  unfold linksFollow
  generalize hu : forUp _ 32 0 s = u
  have hlinks : SameBut [.links, .jnl] s u := by
    rw [← hu]
    refine .forUp (fun i v => .ite (fun _ => ?_) (fun _ => ?_)) 32 0 s
    · exact .ite (fun _ => .ite (fun _ => linkTrain_same i v) (fun _ => modLink_same v i _)) (fun _ => .refl _ v)
    · exact .ite (fun _ => modLink_same v i _) (fun _ => .refl _ v)
  have hmode : u.md.mode = s.md.mode := by
    have hmd : u.md = { s.md with epoch := u.md.epoch } := hlinks.same .md (by decide)
    rw [hmd]
  split
  · exact (hlinks.andThen (lanesSleep_same u)).mono (by decide)
  · rwa [lanesSleep, if_neg (by rwa [hmode])]

theorem paceWrite_same (mv : Nat) (s : State) : SameBut [.pace] s (paceWrite mv s) := set_pace_same s _

/-- The keeper holds VDD_CORE at its ceiling in the modes of R51 that are not a loop's. -/
def holdsPace (m : Mode) : Bool := m = .bringUp || m = .replay || m = .factory || m = .calibrate

theorem holdsPace_of_pacing {s : State} (h : pacing s = true) : holdsPace s.md.mode = true := by
  simp only [pacing, Bool.and_eq_true, decide_eq_true_eq] at h
  simp [holdsPace, h.1]

theorem paceHold_same (s : State) : SameBut (if holdsPace s.md.mode then [.pace] else []) s (paceHold s) := by
  cases hm : holdsPace s.md.mode with
  | true => exact .ite (fun _ => paceWrite_same _ s) (fun _ => .refl _ s)
  | false =>
    have hp : pacing s = false := Bool.eq_false_iff.mpr fun h => by simp [holdsPace_of_pacing h] at hm
    simp only [holdsPace, Bool.or_eq_false_iff] at hm
    have he : paceHold s = s := if_neg (by simp [hm, hp])
    rw [he]
    exact .refl _ s

theorem journalFollow_same (s : State) : SameBut [.jnl] s (journalFollow s) := by
  unfold journalFollow takeCkpt
  dsimp only
  split
  · exact set_jnl_same s _
  · split
    · exact .ite (fun _ => (set_jnl_same s _).trans (set_jnl_same _ _)) (fun _ => set_jnl_same s _)
    · exact .refl _ s

end Sys2Proof.Arch

/-! What a mode that takes effect leaves unchanged (R18). -/

namespace Sys2Proof.Safety

open Sys2Proof Sys2Proof.Machine

/-- A frame that excepts other parts than the mode unit keeps all of it but its epoch. -/
theorem SameBut.md {l : List Part} {s t : State} (h : SameBut l s t) (hl : Part.md ∉ l) :
    t.md = { s.md with epoch := t.md.epoch } := h.same .md hl

theorem SameBut.md_eq {l : List Part} {s t : State} (h : SameBut l s t) (hl : Part.md ∉ l) : ∃ n, t.md = { s.md with epoch := n } :=
  ⟨_, h.md hl⟩

theorem SameBut.mode {l : List Part} {s t : State} (h : SameBut l s t) (hl : Part.md ∉ l) : t.md.mode = s.md.mode := by
  rw [h.md hl]

theorem SameBut.keeperReady {l : List Part} {s t : State} (h : SameBut l s t) (hl : Part.kpr ∉ l) : t.kpr.ready = s.kpr.ready := by
  have hk : t.kpr = { s.kpr with readyEpoch := t.kpr.readyEpoch, epoch := t.kpr.epoch } := h.same .kpr hl
  rw [hk]

/-- An effect under a condition, and what it can change under it. -/
theorem SameBut.iteParts {l m : List Part} {s t u : State} {p : Prop} [Decidable p] (h : p → SameBut l s t)
    (h' : ¬ p → SameBut m s u) : SameBut (if p then l else m) s (if p then t else u) := by
  split
  · exact h ‹_›
  · exact h' ‹_›

end Sys2Proof.Safety

namespace Sys2Proof.Arch

open Sys2Proof Sys2Proof.Machine Sys2Proof.Safety Sys2Proof.Laws Sys2Proof.Scope

/-- The state whose mode has changed and that nothing has followed yet. -/
def modeTaken (m : Mode) (t : Nat) (s : State) : State :=
  { s with md := { s.md with mode := m, prev := s.md.mode, power := powerOf m, since := 16 * t, leave := none } }

theorem modeTaken_same (m : Mode) (t : Nat) (s : State) : SameBut [.md] s (modeTaken m t s) := set_md_same s _

/-! ### The stages of entering a mode -/

/-- Units stop where the mode lets no cell play (R20, R60). -/
def modeStops (m : Mode) (t : Nat) (s : State) : State :=
  if playsIn s.md.mode && !playsIn m then stopUnits t (modeTaken m t s) else modeTaken m t s

/-- Pins and swarm drive are released (R216). -/
def modePins (m : Mode) (s : State) : State :=
  if m = .bringUp ∨ m = .standby ∨ m = .safe then pinsToIdle s
  else if m = .idle then { s with col := { s.col with drives := [], asserted := [] } } else s

/-- Auxiliary outputs are cleared (R356). -/
def modeAux (m : Mode) (s : State) : State := if m = .standby ∨ m = .safe ∨ m = .factory then auxClearAll s else s

/-- Parts that the units of a mode change when it stops them. -/
def modeStopsParts (old m : Mode) : List Part := if playsIn old && !playsIn m then stopParts else []

/-- Parts that the pins change with a mode. -/
def modePinsParts (m : Mode) : List Part :=
  if m = .bringUp ∨ m = .standby ∨ m = .safe then [.pins, .col, .wagEpoch] else if m = .idle then [.col] else []

/-- Parts that the auxiliary outputs change with a mode. -/
def modeAuxParts (m : Mode) : List Part := if m = .standby ∨ m = .safe ∨ m = .factory then [.auxs] else []

/-- Parts that the links change with a mode. -/
def modeLinksParts (m : Mode) : List Part := if m = .standby then [.links, .jnl, .rxLanes] else [.links, .jnl]

theorem modeStops_same (m : Mode) (t : Nat) (s : State) :
    SameBut (modeStopsParts s.md.mode m) (modeTaken m t s) (modeStops m t s) :=
  .iteParts (fun _ => stopUnits_same t _) (fun _ => .refl _ _)

theorem modePins_same (m : Mode) (s : State) : SameBut (modePinsParts m) s (modePins m s) :=
  .iteParts (fun _ => pinsToIdle_same s) (fun _ => .iteParts (fun _ => set_col_same s _) (fun _ => .refl _ s))

theorem modeAux_same (m : Mode) (s : State) : SameBut (modeAuxParts m) s (modeAux m s) :=
  .iteParts (fun _ => auxClearAll_same s) (fun _ => .refl _ s)

theorem modeStops_mode (m : Mode) (t : Nat) (s : State) : (modeStops m t s).md.mode = m :=
  (modeStops_same m t s).mode (by cases s.md.mode <;> cases m <;> decide)

/-- Pins, auxiliary outputs and links have followed the mode. -/
def modeUnits (m : Mode) (s : State) : State := linksFollow (modeAux m (modePins m s))

theorem enterMode_eq (m : Mode) (t : Nat) (s : State) :
    enterMode m t s = journalFollow (paceHold (modeUnits m (modeStops m t s))) := rfl

/-- Parts that pins, auxiliary outputs and links change with a mode. -/
def modeUnitsParts (m : Mode) : List Part := modePinsParts m ++ modeAuxParts m ++ modeLinksParts m

variable {m : Mode} {s : State}

theorem modeUnits_same (hm : s.md.mode = m) : SameBut (modeUnitsParts m) s (modeUnits m s) := by
  have hu := (modePins_same m s).andThen (modeAux_same m _)
  unfold modeUnits
  generalize modeAux m (modePins m s) = u at hu ⊢
  have hum : u.md.mode = m := (hu.mode (by cases m <;> decide)).trans hm
  have hlinks := linksFollow_same u
  rw [hum] at hlinks
  exact hu.andThen hlinks

/-- Parts that a mode changes once its units have stopped; the keeper holds VDD_CORE (R51) and the journal follows (R431). -/
def modeRestParts (m : Mode) : List Part := modeUnitsParts m ++ (if holdsPace m then [.pace] else []) ++ [.jnl]

theorem modeRest_same (hm : s.md.mode = m) : SameBut (modeRestParts m) s (journalFollow (paceHold (modeUnits m s))) := by
  have hu := modeUnits_same hm
  generalize modeUnits m s = u at hu ⊢
  have hum : u.md.mode = m := (hu.mode (by cases m <;> decide)).trans hm
  have hpace := paceHold_same u
  rw [hum] at hpace
  exact (hu.andThen hpace).andThen (journalFollow_same _)

/-- Parts that a change of the mode from `old` to `m` changes beside the mode unit. -/
def modeParts (old m : Mode) : List Part := modeStopsParts old m ++ modeRestParts m

/-- A mode takes effect: beside the mode unit, what that mode ties to it changes. -/
theorem enterMode_same (m : Mode) (t : Nat) (s : State) :
    SameBut (modeParts s.md.mode m) (modeTaken m t s) (enterMode m t s) :=
  (modeStops_same m t s).andThen (modeRest_same (modeStops_mode m t s))

theorem md_not_mem_modeParts (old m : Mode) : Part.md ∉ modeParts old m := by
  cases old <;> cases m <;> decide

/-! ### What the keeper holds (R51) -/

/-- VDD_CORE is at its ceiling in a mode in which the keeper holds it there, and during pace calibration. -/
theorem paceHold_vset {s : State} (hk : s.kpr.ready = true)
    (h : s.md.mode = .bringUp ∨ s.md.mode = .replay ∨ s.md.mode = .factory ∨ pacing s = true) :
    (paceHold s).pace.vset = s.pace.ceiling := by
  by_cases hv : s.pace.vset = s.pace.ceiling
  · rw [paceHold, if_neg (by simp [hv]), hv]
  · rw [paceHold, if_pos (by simpa [hk, hv, or_assoc] using h)]
    rfl

/-- A mode in which the keeper holds VDD_CORE takes it to its ceiling. -/
theorem enterMode_vset (t : Nat) (hk : s.kpr.ready = true)
    (h : m = .bringUp ∨ m = .replay ∨ m = .factory ∨ (m = .calibrate ∧ 0 < s.md.calPace)) :
    (enterMode m t s).pace.vset = s.pace.ceiling := by
  have hu := (modeStops_same m t s).andThen (modeUnits_same (modeStops_mode m t s))
  rw [enterMode_eq]
  generalize modeUnits m (modeStops m t s) = u at hu ⊢
  obtain ⟨n, hmd⟩ := hu.md_eq (by cases s.md.mode <;> cases m <;> decide)
  have hpace : u.pace = s.pace := hu.same .pace (by cases s.md.mode <;> cases m <;> decide)
  have hready : u.kpr.ready = s.kpr.ready := hu.keeperReady (by cases s.md.mode <;> cases m <;> decide)
  have hvset : (paceHold u).pace.vset = u.pace.ceiling :=
    paceHold_vset (hready.trans hk) (by simpa [pacing, hmd, modeTaken] using h)
  have hj : (journalFollow (paceHold u)).pace = (paceHold u).pace := (journalFollow_same _).same .pace (by decide)
  rw [hj, hvset, hpace]

end Sys2Proof.Arch

/-! Decisions (R38, R57): a command acts in the state in which it reaches its cells, and replies. -/

namespace Sys2Proof.Arch

open Sys2Proof Sys2Proof.Machine Sys2Proof.Safety Sys2Proof.Laws Sys2Proof.Scope

variable {s u : State} {x : Held} {c : Instr}

/-- A decided command completes with what it does where it reaches its cells, settled. -/
theorem completes_of_decides {P : State → Prop} (hd : Decides s x c) (hn : ∀ g k, c ≠ .capTrigger g k)
    (hp : P (settle s (decideCmd x (reached s x)))) : Completes .commandDecision s P :=
  ⟨_, decide_step hd hn, hp⟩

/-- The same for a command that acts on no cell. -/
theorem completes_of_decides_plain {P : State → Prop} (hd : Decides s x c) (hn : ∀ g k, c ≠ .capTrigger g k)
    (hc : ∀ s k, actsOnCell s k c = false) (hp : P (settle s (decideCmd x (released s x)))) : Completes .commandDecision s P :=
  ⟨_, decide_plain hd hn hc, hp⟩

/-- A reply to a command whose effect leaves the mailboxes and device time. -/
theorem replied_of_same {l : List Part} (hl : Live s) (h : SameBut l s u) (hm : Part.mailboxes ∉ l) (ht : Part.time ∉ l) (op : Nat)
    (un : Option (Nat × Nat)) (st : Err) (r : List Byte) : Replied s (settle s (finish u x op un st r)) x op st r := by
  have hmb : u.mailboxes = s.mailboxes := h.same .mailboxes hm
  have htime : u.time = s.time := h.same .time ht
  have hr : Replied s (finish u x op un st r) x op st r :=
    finish_replied (hmb ▸ hl.canon.mailboxes) (by rw [mbAt, mbAt, hmb]) (congrArg TimeUnit.tick htime)
  exact Replied.settled hr s

/-- A command answered where it reaches its cells, with no other effect. -/
theorem completes_answer (hd : Decides s x c) (hn : ∀ g k, c ≠ .capTrigger g k) {op : Nat} {un : Option (Nat × Nat)} {st : Err}
    {r : List Byte} (h : SameBut [] (reached s x) u) (he : decideCmd x (reached s x) = finish u x op un st r) :
    Completes .commandDecision s fun t => Replied s t x op st r ∧ SameBut [.mailboxes, .col] (reached s x) t := by
  refine completes_of_decides hd hn ?_
  rw [he]
  have hu : SameBut (.held :: skipParts) s u := ((reached_same s x).andThen h).mono (by decide)
  exact ⟨replied_of_same hd.toLive hu (by decide) (by decide) op un st r,
    ((h.mono (by simp)).trans (finish_same u hd.slot ..)).settled s⟩

/-- The same for a command that acts on no cell. -/
theorem completes_answer_plain (hd : Decides s x c) (hn : ∀ g k, c ≠ .capTrigger g k) (hc : ∀ s k, actsOnCell s k c = false)
    {op : Nat} {un : Option (Nat × Nat)} {st : Err} {r : List Byte}
    (he : decideCmd x (released s x) = finish (released s x) x op un st r) :
    Completes .commandDecision s fun t => Replied s t x op st r ∧ SameBut [.mailboxes, .col] (released s x) t := by
  refine completes_of_decides_plain hd hn hc ?_
  rw [he]
  exact ⟨replied_of_same hd.toLive (released_same s x) (by decide) (by decide) op un st r,
    (finish_same _ hd.slot ..).settled s⟩

/-- What a command finds unchanged where it reaches its cells. -/
structure ReachedKeeps (s u : State) : Prop where
  md : ∃ n, u.md = { s.md with epoch := n }
  svc : u.svc = s.svc
  works : u.works = s.works
  pace : u.pace = s.pace
  time : u.time = s.time
  dev : u.dev = s.dev
  ready : u.kpr.ready = s.kpr.ready
  role : u.col.role = s.col.role

theorem reached_keeps (s : State) (x : Held) : ReachedKeeps s (reached s x) := by
  have h := reached_same s x
  have hcol : (reached s x).col = { s.col with epoch := (reached s x).col.epoch } := h.same .col (by decide)
  exact ⟨h.md_eq (by decide), h.same .svc (by decide), h.same .works (by decide), h.same .pace (by decide),
    h.same .time (by decide), h.same .dev (by decide), h.keeperReady (by decide), by rw [hcol]⟩

theorem reached_mode (s : State) (x : Held) : (reached s x).md.mode = s.md.mode := (reached_same s x).mode (by decide)

end Sys2Proof.Arch

/-! Calibration and service commands at their decisions (R20, R368, R371, R373, R375, R379). -/

namespace Sys2Proof.Arch

open Sys2Proof Sys2Proof.Machine Sys2Proof.Safety Sys2Proof.Laws Sys2Proof.Scope

/-! ### A skew measurement in service (R248, R372) -/

theorem colFault_same {cls : Nat} (hc : cls ≠ 3) (bit obj : Nat) (s : State) : SameBut [.faults] s (colFault bit cls obj s) := by
  rw [colFault, detect, if_neg hc]
  exact raise_same s _

theorem sendCorrect_same (s : State) (k : Nat) (theta : Int) : SameBut [.col] s (sendCorrect s k theta) := modPort_same s k _

theorem skewFails_same (r : SkewRun) (s : State) : SameBut [.col, .faults] s (skewFails r s) := by
  have hcol (x : Colony) := set_col_same s x
  exact .ite (fun _ => (hcol _).andThen (colFault_same (by decide) ..)) (fun _ => (hcol _).mono (by decide))

theorem delaysNow_same (s : State) : SameBut [.col, .faults] s (delaysNow s) := by
  have hcol (x : Colony) := set_col_same s x
  exact .ite (fun _ => (hcol _).andThen (colFault_same (by decide) ..)) (fun _ => (hcol _).mono (by decide))

theorem skewCorrect_same (r : SkewRun) (s : State) : SameBut [.col, .faults] s (skewCorrect r s) := by
  unfold skewCorrect
  dsimp only
  split
  · exact skewFails_same r s
  · have hports : SameBut [.col] s (r.ports.foldl (fun s k =>
        modPort (sendCorrect s k (meanOf (portAt s k).sumTheta r.exch)) k fun p =>
          askDelay r.exch { p with mean := toField 22 (meanOf p.sumDelay r.exch) }) s) :=
      .foldl (fun u k => (sendCorrect_same u k _).trans (modPort_same ..)) r.ports s
    exact (hports.trans (set_col_same _ _)).mono (by decide)

theorem sendPulses_same (r : SkewRun) (s : State) : SameBut [.col] s (sendPulses r s) := by
  refine .foldl (fun u l => ?_) r.lines s
  have hports (f : DueFrame) : SameBut [.col] u (r.ports.foldl (fun s k => if (portAt s k).st = 3 then colDue s k f else s) u) :=
    .foldl (fun v k => .ite (fun _ => colDue_same v k f) (fun _ => .refl _ v)) r.ports u
  exact (hports _).trans (set_col_same _ _)

theorem skewResidual_same (r : SkewRun) (s : State) : SameBut [.col, .faults] s (skewResidual r s) := by
  unfold skewResidual
  dsimp only
  split
  · exact skewFails_same r s
  · have hports : SameBut [.col] s (r.ports.foldl (fun s k => modPort s k fun p => { p with delay := p.mean }) s) :=
      .foldl (fun u k => modPort_same u k _) r.ports s
    have hdelays (x : Colony) := ((hports.trans (set_col_same _ x)).andThen (delaysNow_same _))
    split
    · exact (hdelays _).mono (by decide)
    · exact ((hdelays _).andThen (sendPulses_same ..)).mono (by decide)

theorem skewAdvance_same (s : State) : SameBut [.col, .faults] s (skewAdvance s) := by
  unfold skewAdvance
  split
  · exact .refl _ s
  · exact .ite (fun _ => .refl _ s) fun _ => .ite (fun _ => skewCorrect_same _ s) fun _ =>
      .ite (fun _ => skewResidual_same _ s) fun _ => .refl _ s

theorem skewBegin_same (exch : Nat) (lines : List Nat) (service : Bool) (s : State) :
    SameBut [.col, .faults] s (skewBegin exch lines service s) := by
  have hports : SameBut [.col] s
      ((joinedPorts s).foldl (fun s k => modPort s k fun p => { askDelay exch p with acquiring := false }) s) :=
    .foldl (fun u k => modPort_same u k _) _ s
  exact (((hports.trans (set_col_same _ _)).andThen (skewAdvance_same _)).andThen (skewAdvance_same _)).mono (by decide)

theorem skewUnanswered_same (s : State) : SameBut [.col, .faults] s (skewUnanswered s) := by
  unfold skewUnanswered
  split
  · exact .ite (fun _ => skewFails_same _ s) fun _ => .refl _ s
  · exact .refl _ s

theorem skewService_same (exch : Nat) (s : State) : SameBut [.col, .faults] s (skewService exch s) :=
  .ite (fun _ => .refl _ s) fun _ => (skewUnanswered_same s).trans (skewBegin_same ..)

/-! ### Telemetry (R375) -/

/-- A word of two halves of 16 bits, byte by byte. -/
theorem le_pack_halves {a b : Nat} (ha : a < 65536) (hb : b < 65536) : le 4 (pack [(16, a), (16, b)]) = le 2 a ++ le 2 b := by
  have h0 : a % 65536 = a := Nat.mod_eq_of_lt ha
  have h1 : b % 65536 = b := Nat.mod_eq_of_lt hb
  simp only [le, pack, List.cons_append, List.nil_append, List.cons.injEq, and_true, Nat.reducePow, h0, h1]
  refine ⟨?_, ?_, ?_, ?_⟩ <;> apply BitVec.eq_of_toNat_eq <;> simp only [BitVec.toNat_ofNat] <;> omega

theorem telemAge_lt (s : State) (i : Nat) : telemAge s i < 65536 := by
  unfold telemAge
  dsimp only
  split <;> omega

theorem telemWord_bytes (s : State) (i : Nat) :
    le 4 (telemWord s i) = le 2 (tget (0 : BitVec 16) s.svc.telem i).toNat ++ le 2 (telemAge s i) :=
  le_pack_halves (BitVec.isLt _) (telemAge_lt s i)

/-! ### CAL_START (R20, R371) -/

variable {s : State} {x : Held} {i : Nat} {c : List Nat} {l : Word} {a : DWord}

/-- The caller owns the cells and the auxiliary outputs of a calibration set. -/
def ownsCalSet (s : State) (x : Held) (c : List Nat) (a : DWord) : Bool :=
  c.all (ownsCell s x.ctx) && (maskAux a).all fun k => owns s x.ctx (auxAt s k).own

/-- The state in which a calibration run has its set. -/
def calTaken (i : Nat) (c : List Nat) (l : Word) (a : DWord) (s : State) : State :=
  { s with md := { s.md with origin := s.md.mode, calCells := c, calLanes := l, calAux := a, calItems := i,
                             calPace := if bitOf i 0 then 64 else 0 },
           svc := { s.svc with running := true } }

/-- The state in which a calibration run has its set, the skew measurement of its second item begun. -/
def calBegun (i : Nat) (c : List Nat) (l : Word) (a : DWord) (s : State) : State :=
  if bitOf i 1 && s.col.role = 1 then skewService 256 (calTaken i c l a s) else calTaken i c l a s

theorem decCalStart_badMode (hi : s.md.mode ≠ .idle) (hr : s.md.mode ≠ .run) :
    decCalStart x i c l a s = finish s x 0x0D10 none .badMode := if_pos ⟨hi, hr⟩

theorem decCalStart_denied (hm : s.md.mode = .idle ∨ s.md.mode = .run) (ho : ownsCalSet s x c a = false) :
    decCalStart x i c l a s = finish s x 0x0D10 none .denied := by
  rw [decCalStart, if_neg (by tauto)]
  exact if_pos (by rw [← ownsCalSet, ho]; rfl)

theorem decCalStart_busy (hm : s.md.mode = .idle ∨ s.md.mode = .run) (ho : ownsCalSet s x c a = true)
    (hb : calBusy s c = true) : decCalStart x i c l a s = finish s x 0x0D10 none .badState := by
  rw [decCalStart, if_neg (by tauto), if_neg (by rw [← ownsCalSet, ho]; simp)]
  exact if_pos hb

theorem decCalStart_starts (hm : s.md.mode = .idle ∨ s.md.mode = .run) (ho : ownsCalSet s x c a = true)
    (hb : calBusy s c = false) :
    decCalStart x i c l a s = beginWork (enterMode .calibrate x.dec (calBegun i c l a s)) x := by
  rw [decCalStart, if_neg (by tauto), if_neg (by rw [← ownsCalSet, ho]; simp), if_neg (by simp [hb])]
  rfl

theorem calTaken_same (s : State) : SameBut [.md, .svc] s (calTaken i c l a s) :=
  ⟨fun p hp => by cases p <;> simp_all [Part.Same, ctxAt, calTaken]⟩

theorem calBegun_same (s : State) :
    SameBut (if bitOf i 1 && s.col.role = 1 then [.col, .faults] else []) (calTaken i c l a s) (calBegun i c l a s) :=
  .iteParts (fun _ => skewService_same ..) (fun _ => .refl _ _)

/-- The calibration unit and the mode unit before CALIBRATE takes effect. -/
theorem calBegun_keeps (s : State) : (∃ n, (calBegun i c l a s).md = { (calTaken i c l a s).md with epoch := n }) ∧
    (calBegun i c l a s).svc = { s.svc with running := true } ∧ (calBegun i c l a s).works = s.works ∧
    (calBegun i c l a s).pace = s.pace ∧ (calBegun i c l a s).kpr.ready = s.kpr.ready := by
  have h : SameBut [.col, .faults] (calTaken i c l a s) (calBegun i c l a s) := (calBegun_same s).mono (by
    split <;> simp)
  exact ⟨h.md_eq (by decide), h.same .svc (by decide), h.same .works (by decide), h.same .pace (by decide), h.keeperReady (by decide)⟩

/-- CALIBRATE entered from IDLE or RUN stops nothing. -/
theorem enterMode_calibrate_same (hm : s.md.mode = .idle ∨ s.md.mode = .run) (t : Nat) :
    SameBut [.pace, .links, .jnl] (modeTaken .calibrate t s) (enterMode .calibrate t s) := by
  have h := enterMode_same .calibrate t s
  rcases hm with hm | hm <;> rw [hm] at h <;> exact h.mono (by decide)

/-- CALIBRATE begins: the mode unit and the calibration unit take the set, and the keeper works on the command. -/
theorem calStart_effect (hm : s.md.mode = .idle ∨ s.md.mode = .run) {t : State}
    (ht : SameBut [] (beginWork (enterMode .calibrate x.dec (calBegun i c l a s)) x) t) :
    (∃ n, t.md = { (modeTaken .calibrate x.dec (calTaken i c l a s)).md with epoch := n }) ∧
      t.svc = { s.svc with running := true } ∧ t.works = s.works ++ [x] ∧
      (s.kpr.ready = true → bitOf i 0 = true → t.pace.vset = s.pace.ceiling) ∧
      SameBut (if bitOf i 1 && s.col.role = 1 then [.col, .faults, .md, .svc, .works, .pace, .links, .jnl]
        else [.md, .svc, .works, .pace, .links, .jnl]) s t := by
  have hset := calTaken_same (i := i) (c := c) (l := l) (a := a) s
  have hbegun := calBegun_same (i := i) (c := c) (l := l) (a := a) s
  obtain ⟨⟨n, hmd⟩, hsvc, hworks, hpace, hready⟩ := calBegun_keeps (i := i) (c := c) (l := l) (a := a) s
  generalize hb : calBegun i c l a s = b at *
  have hbm : b.md.mode = .idle ∨ b.md.mode = .run := by rwa [hmd]
  have htaken := modeTaken_same .calibrate x.dec b
  have henter := enterMode_calibrate_same hbm x.dec
  have hvset : s.kpr.ready = true → bitOf i 0 = true → (enterMode .calibrate x.dec b).pace.vset = s.pace.ceiling := by
    intro hk hi
    rw [enterMode_vset x.dec (hready.trans hk) (.inr (.inr (.inr ⟨rfl, by simp [hmd, calTaken, hi]⟩))), hpace]
  generalize enterMode .calibrate x.dec b = e at henter hvset ht
  have hbegins : SameBut [.works] e t := (set_works_same e (e.works ++ [x])).andThen ht
  obtain ⟨n', hmd'⟩ := (henter.andThen hbegins).md_eq (by decide)
  refine ⟨⟨n', ?_⟩, ?_, ?_, ?_, ?_⟩
  · rw [hmd']
    simp only [modeTaken, hmd]
  · have h : t.svc = b.svc := ((htaken.andThen henter).andThen hbegins).same .svc (by decide)
    rw [h, hsvc]
  · have h : e.works = b.works := (htaken.andThen henter).same .works (by decide)
    have h' : t.works = e.works ++ [x] := ht.same .works (by decide)
    rw [h', h, hworks]
  · intro hk hi
    have h : t.pace = e.pace := hbegins.same .pace (by decide)
    rw [h, hvset hk hi]
  · have h := (((hset.andThen hbegun).andThen htaken).andThen henter).andThen hbegins
    refine h.mono ?_
    split <;> decide

/-! ### BGS_SET and the records of CAL_WRITE and CAL_ERASE (R368, R373, R378) -/

theorem noteWear_due (hd : 4 * s.svc.endurance ≤ 5 * s.svc.maxErase) (hw : s.svc.wearWarn = false) :
    SameBut [.faults] { s with svc := { s.svc with wearWarn := true } } (noteWear s) := by
  rw [noteWear, if_pos (by simp [hd, hw])]
  exact raise_same _ _

theorem noteWear_quiet (h : 5 * s.svc.maxErase < 4 * s.svc.endurance ∨ s.svc.wearWarn = true) : noteWear s = s := by
  rw [noteWear, if_neg]
  rcases h with h | h
  · omega
  · simp [h]

/-- Settles O27: each command in the state where it reaches its cells; CALIBRATE by what entering a mode changes. -/
theorem serviceDecisions : Obligations.ServiceDecisions := by
  unfold Obligations.ServiceDecisions
  refine ⟨?_, ?_, ?_, ?_, ?_, ?_, ?_, ?_, ?_, ?_, ?_⟩
  · intro s x h k i a p hd hf
    refine completes_of_decides_plain hd nofun (fun _ _ => rfl) ?_
    rw [decideCmd, hd.cmd, decCalWrite, if_neg (by simp [Safety.released, hf])]
    exact (SameBut.refl _ _).settled s
  · intro s x h k i a p hd hf
    refine completes_answer_plain hd nofun (fun _ _ => rfl) (un := none) (r := []) ?_
    rw [decideCmd, hd.cmd]
    exact if_pos hf
  · intro s x h k i a hd hf
    refine completes_of_decides_plain hd nofun (fun _ _ => rfl) ?_
    rw [decideCmd, hd.cmd, decCalErase, if_neg (by simp [Safety.released, hf])]
    exact (SameBut.refl _ _).settled s
  · intro s x h k i a hd hf
    refine completes_answer_plain hd nofun (fun _ _ => rfl) (un := none) (r := []) ?_
    rw [decideCmd, hd.cmd]
    exact if_pos hf
  · intro s x h g e k n hd hwear hw
    refine completes_of_decides_plain hd nofun (fun _ _ => rfl) ?_
    rw [decideCmd, hd.cmd]
    have hn := noteWear_due (s := { released s x with
      svc := { s.svc with groomRate := g, eyePeriod := e, skewPeriod := k, endurance := dflt 100000 n } }) hwear hw
    exact hn.settled s
  · intro s x h g e k n hd hwear
    refine completes_of_decides_plain hd nofun (fun _ _ => rfl) ?_
    rw [decideCmd, hd.cmd]
    dsimp only [decBgsSet]
    rw [noteWear_quiet hwear]
    exact (SameBut.refl _ _).settled s
  · intro s x h f n hd
    refine completes_answer_plain hd nofun (fun _ _ => rfl) (un := none) ?_
    rw [decideCmd, hd.cmd]
    simp only [decTelemRead, telemWord_bytes]
    rfl
  · intro s x h i c l a hd hm ho hb
    refine completes_of_decides hd nofun ?_
    obtain ⟨⟨n, hmd⟩, hsvc, hworks, hpace, -, -, hready, hrole⟩ := reached_keeps s x
    have hm' : (reached s x).md.mode = .idle ∨ (reached s x).md.mode = .run := by rwa [hmd]
    rw [decideCmd, hd.cmd]
    dsimp only
    rw [decCalStart_starts hm' ho hb]
    obtain ⟨⟨n', hmd'⟩, hsvc', hworks', hvset, hsame⟩ :=
      calStart_effect (i := i) (c := c) (l := l) (a := a) (x := x) hm' (settle_same s _)
    rw [hsvc, hworks, hpace, hready, hrole] at *
    refine ⟨?_, ?_, ?_, ?_, ?_, ?_, ?_, ?_, ?_, hsvc', hworks', hvset, ?_, hsame⟩ <;> rw [hmd'] <;> simp only [modeTaken, calTaken, hmd]
    rfl
  · intro s x h i c l a hd hm ho
    refine completes_answer hd nofun (SameBut.refl _ _) (un := none) ?_
    rw [decideCmd, hd.cmd]
    exact decCalStart_denied (by rwa [reached_mode]) ho
  · intro s x h i c l a hd hi hr
    refine completes_answer hd nofun (SameBut.refl _ _) (un := none) ?_
    rw [decideCmd, hd.cmd]
    exact decCalStart_badMode (by rwa [reached_mode]) (by rwa [reached_mode])
  · intro s x h i c l a hd hm ho hb
    refine completes_answer hd nofun (SameBut.refl _ _) (un := none) ?_
    rw [decideCmd, hd.cmd]
    exact decCalStart_busy (by rwa [reached_mode]) ho hb

end Sys2Proof.Arch

/-! Entering STANDBY leaves a guard open whose domain is off (R390). -/

namespace Sys2Proof.Arch

open Sys2Proof Sys2Proof.Machine Sys2Proof.Safety Sys2Proof.Laws Sys2Proof.Scope

/-- A `MODE_SET`(STANDBY) for Doze, held for device time 0. -/
def standbyHeld : Held := ⟨0, 0, 0, 0, 1, 0, false, .modeSet { ctx := 0, mb := 0, seq := 1 } 5 2 0 0 0 0⟩

/-- A live block in IDLE that has a wake source and a domain that is off with its guard open. -/
def strayGuard : State :=
  { md := { mode := .idle }, sec := { wakeEvp := 1 }, domains := [(0, { guardOpen := true })], held := [standbyHeld] }

theorem strayGuard_decides : Decides strayGuard standbyHeld (.modeSet { ctx := 0, mb := 0, seq := 1 } 5 2 0 0 0 0) where
  alive := rfl
  canon := by constructor <;> rfl
  cmd := rfl
  slot := by decide
  first := by decide
  due := by decide
  ready := by decide

/-- The guard of domain 0 after a step. -/
def guardAfter : Host.Outcome State Fault Refusal → Bool
  | .next t => (domAt t 0).guardOpen
  | _ => false

/-- The decision leaves the guard open: STANDBY closes the guards of the domains that are on. -/
theorem strayGuard_stays_open : guardAfter (exec .commandDecision strayGuard) = true := by decide +kernel

/-- Refutes O11: its clause on STANDBY says that every guard is closed then, and `Live` allows a domain that is off with its guard
open, which entering STANDBY passes over. -/
theorem not_modeEntries : ¬ Obligations.ModeEntries := by
  unfold Obligations.ModeEntries
  rintro ⟨-, hstandby, -⟩
  obtain ⟨t, ht, -, -, -, -, -, hguards, -⟩ :=
    hstandby strayGuard standbyHeld _ _ _ _ _ _ strayGuard_decides (by decide) rfl (by decide +kernel)
  have hopen := strayGuard_stays_open
  rw [ht] at hopen
  exact Bool.false_ne_true ((hguards 0 (by decide)).symm.trans hopen)

end Sys2Proof.Arch

/-! A mode in which cells may not play leaves none playing and no capture channel armed (R20, R60, R176). -/

namespace Sys2Proof.Arch

open Sys2Proof Sys2Proof.Machine Sys2Proof.Safety Sys2Proof.Laws Sys2Proof.Scope

/-! ### Tables -/

/-- An entry that is read and is not the power-on record is listed. -/
theorem mem_of_tget_ne {α : Type} [DecidableEq α] {d : α} {t : Tab α} {i : Nat} (h : tget d t i ≠ d) : (i, tget d t i) ∈ t := by
  induction t with
  | nil => exact absurd rfl h
  | cons p t ih =>
    obtain ⟨k, v⟩ := p
    by_cases hk : k = i
    · simp [tget, hk]
    · simp only [tget, hk, if_false] at h ⊢
      exact List.mem_cons_of_mem _ (ih h)

/-- A fold that stops the listed units `hit` names leaves only what it did not list: stopping one leaves it at rest and starts none. -/
theorem foldl_stops {α : Type} {live : State → Nat → Prop} {hit : α → Prop} [DecidablePred hit] {stop : Nat → State → State}
    (hstop : ∀ c u j, live (stop c u) j → j ≠ c ∧ live u j) (l : Tab α) {u : State} {j : Nat}
    (h : live (l.foldl (fun u p => if hit p.2 then stop p.1 u else u) u) j) : live u j ∧ ∀ v, (j, v) ∈ l → ¬ hit v := by
  induction l generalizing u with
  | nil => exact ⟨h, nofun⟩
  | cons p l ih =>
    obtain ⟨hu, hl⟩ := ih h
    dsimp only at hu
    by_cases hp : hit p.2
    · rw [if_pos hp] at hu
      obtain ⟨hj, hu'⟩ := hstop _ _ _ hu
      refine ⟨hu', fun v hv => ?_⟩
      rcases List.mem_cons.mp hv with rfl | hv
      · exact absurd rfl hj
      · exact hl v hv
    · rw [if_neg hp] at hu
      refine ⟨hu, fun v hv => ?_⟩
      rcases List.mem_cons.mp hv with rfl | hv
      · exact hp
      · exact hl v hv

/-! ### Cells -/

variable {s t u : State} {c j : Nat}

theorem cellAt_of_same {l : List Part} (h : SameBut l s t) (hl : Part.cells ∉ l) (j : Nat) : cellAt t j = cellAt s j := by
  have hc : t.cells = s.cells := h.same .cells hl
  rw [cellAt, cellAt, hc]

theorem endGap_other (hj : j ≠ c) (s : State) : cellAt (endGap c s) j = cellAt s j := by
  unfold endGap
  dsimp only
  split <;> simp [cellAt, tget_tset_other _ _ hj]

theorem endLate_other (hj : j ≠ c) (s : State) : cellAt (endLate c s) j = cellAt s j := by
  unfold endLate
  dsimp only
  split <;> simp [cellAt, tget_tset_other _ _ hj]

theorem sigClose_other (hj : j ≠ c) (s : State) : cellAt (sigClose c s) j = cellAt s j := by
  unfold sigClose
  dsimp only
  (repeat' split) <;> simp [cellAt, tget_tset_other _ _ hj, replayMismatch]

theorem releaseArm_other (hj : j ≠ c) (s : State) : cellAt (releaseArm c s) j = cellAt s j := by
  unfold releaseArm
  dsimp only
  split
  · rfl
  · rw [cellAt_of_same (releaseAreas_same ..) (by decide)]
    simp [cellAt, tget_tset_other _ _ hj]

theorem modCell_other (hj : j ≠ c) (f : Cell → Cell) (s : State) : cellAt (modCell s c f) j = cellAt s j := by
  simp only [modCell, putCell, cellAt, tget_tset_other _ _ hj]

/-- A cell that stops leaves every other as it was. -/
theorem toBound_other (hj : j ≠ c) (st : CellSt) (s : State) : cellAt (toBound c st s) j = cellAt s j := by
  unfold toBound
  dsimp only
  rw [cellAt_of_same (releaseTable_same ..) (by decide), modCell_other hj, releaseArm_other hj, sigClose_other hj,
    endLate_other hj, endGap_other hj]

theorem putCell_cells (s : State) (c : Nat) (x : Cell) :
    ∃ y : Cell, y.st = x.st ∧ (putCell s c x).cells = tset {} s.cells c y := by
  refine ⟨if cellKey x = cellKey (cellAt s c) then x else { x with epoch := (cellAt s c).epoch + 1 }, ?_, rfl⟩
  split <;> rfl

/-- A cell that is written and is not OFF reads with the state written. -/
theorem putCell_st (s : State) {c : Nat} {x : Cell} (hx : x.st ≠ .off) : (cellAt (putCell s c x) c).st = x.st := by
  obtain ⟨y, hy, hput⟩ := putCell_cells s c x
  rw [cellAt, hput, tget_tset_ne _ _ fun he => hx (by rw [← hy, he]), hy]

theorem toBound_st (c : Nat) (s : State) : (cellAt (toBound c .bound s) c).st = .bound := by
  unfold toBound
  dsimp only
  rw [cellAt_of_same (releaseTable_same ..) (by decide)]
  exact putCell_st _ (by simp)

/-- A cell is ARMED, RUNNING or PAUSED. -/
def cellPlays (s : State) (j : Nat) : Prop := (cellAt s j).st = .armed ∨ (cellAt s j).st = .running ∨ (cellAt s j).st = .paused

theorem toBound_stops (c : Nat) (u : State) (j : Nat) (h : cellPlays (toBound c .bound u) j) : j ≠ c ∧ cellPlays u j := by
  by_cases hj : j = c
  · subst hj
    simp [cellPlays, toBound_st] at h
  · exact ⟨hj, by rwa [cellPlays, toBound_other hj] at h⟩

/-- Nothing plays once the units of a mode have stopped. -/
theorem foldl_toBound_stops (s : State) (j : Nat) : ¬ cellPlays (s.cells.foldl (fun s p =>
    if p.2.st = .armed ∨ p.2.st = .running ∨ p.2.st = .paused then toBound p.1 .bound s else s) s) j := by
  intro h
  obtain ⟨hs, hl⟩ := foldl_stops (live := cellPlays) (hit := fun x => x.st = .armed ∨ x.st = .running ∨ x.st = .paused)
    toBound_stops s.cells h
  refine hl (cellAt s j) (mem_of_tget_ne (d := ({} : Cell)) fun he => ?_) hs
  rw [cellPlays, cellAt, he] at hs
  simp at hs

/-! ### Capture channels -/

theorem capAt_of_same {l : List Part} (h : SameBut l s t) (hl : Part.caps ∉ l) (j : Nat) : capAt t j = capAt s j := by
  have hc : t.caps = s.caps := h.same .caps hl
  rw [capAt, capAt, hc]

/-- The states of the capture channels are the same. -/
def CapStSame (s t : State) : Prop := ∀ j, (capAt t j).st = (capAt s j).st

theorem CapStSame.trans (h : CapStSame s t) (h' : CapStSame t u) : CapStSame s u := fun j => (h' j).trans (h j)

theorem capStSame_of_same {l : List Part} (h : SameBut l s t) (hl : Part.caps ∉ l) : CapStSame s t := fun j => by
  rw [capAt_of_same h hl]

/-- A capture channel written that is not OFF reads as written. -/
theorem capAt_tset (s : State) {x : Cap} (hx : x.st ≠ .off) (j : Nat) :
    tget {} (tset {} s.caps c x) j = if j = c then x else capAt s j := by
  split
  · subst j
    exact tget_tset_ne _ _ fun he => hx (by rw [he])
  · exact tget_tset_other _ _ ‹_› x

/-- A capture channel written with the state it had. -/
theorem capStSame_set {x : Cap} (hx : x.st = (capAt s c).st) (ho : (capAt s c).st ≠ .off) :
    CapStSame s { s with caps := tset {} s.caps c x } := by
  intro j
  rw [capAt, capAt_tset s (hx ▸ ho)]
  split
  · subst j
    exact hx
  · rfl

/-- A capture channel is written but for its epoch. -/
theorem putCap_caps (s : State) (c : Nat) (x : Cap) : ∃ n, (putCap s c x).caps = tset {} s.caps c { x with epoch := n } := by
  refine ⟨if capCode x.st = capCode (capAt s c).st ∧ x.mode = (capAt s c).mode ∧ x.rearm = (capAt s c).rearm then x.epoch
    else (capAt s c).epoch + 1, ?_⟩
  unfold putCap
  dsimp only
  split <;> rfl

theorem putCap_st {x : Cap} (hx : x.st ≠ .off) (j : Nat) : (capAt (putCap s c x) j).st = if j = c then x.st else (capAt s j).st := by
  obtain ⟨n, hput⟩ := putCap_caps s c x
  rw [capAt, hput, capAt_tset s (by exact hx)]
  split <;> rfl

/-- CMD_IGNORED leaves the state of every capture channel, also of one that is OFF. -/
theorem capIgnored_st (c : Nat) (s : State) : CapStSame s (capIgnored c s) := by
  intro j
  obtain ⟨n, hput⟩ := putCap_caps s c { capAt s c with flags := (capAt s c).flags ||| 0x1000 }
  have hcaps : (capIgnored c s).caps = _ := hput
  rw [capAt, hcaps]
  by_cases hj : j = c
  · subst hj
    rw [tget_tset_ne]
    intro he
    have hbit : ((capAt s j).flags ||| 0x1000#32).getLsbD 12 = false := by
      rw [show (capAt s j).flags ||| 0x1000#32 = 0 from congrArg Cap.flags he]
      rfl
    simp at hbit
  · rw [tget_tset_other _ _ hj]
    rfl

theorem modCap_st {f : Cap → Cap} (hf : ∀ x, (f x).st = x.st) (ho : (capAt s c).st ≠ .off) : CapStSame s (modCap s c f) := by
  intro j
  rw [modCap, putCap_st (by rwa [hf])]
  split
  · subst j
    exact hf _
  · rfl

theorem capFlag_st (f : Word) (ho : (capAt s c).st ≠ .off) : CapStSame s (capFlag f c s) :=
  modCap_st (f := fun x => { x with flags := x.flags ||| f }) (fun _ => rfl) ho

theorem reserve_st {bytes : Nat} {r : CapRec} (h : reserve c bytes r s = some t) (ho : (capAt s c).st ≠ .off) : CapStSame s t := by
  unfold reserve at h
  extract_lets x size room pad p e s1 s2 at h
  have h1 : CapStSame s s1 := capStSame_set rfl ho
  have hw (u : State) (k : CapRec) (b : Prop) [Decidable b] : CapStSame u (if b then writeHeader c k 0 u else u) := by
    split
    · exact capStSame_of_same (dramStore_same ..) (by decide)
    · exact fun _ => rfl
  have h2 : CapStSame s1 s2 := by
    unfold s2
    split
    · exact fun _ => rfl
    · exact capStSame_of_same (dramStore_same ..) (by decide)
  have h3 := (h1.trans h2).trans (hw s2 e (e.committed = true))
  split at h
  · cases h
  · cases h
    exact h3.trans (capStSame_set rfl (by rwa [h3 c]))

theorem noteEntry_st (r : CapRec) (ho : (capAt s c).st ≠ .off) : CapStSame s (noteEntry c r s) := by
  unfold noteEntry
  dsimp only
  split
  · exact fun _ => rfl
  · split
    · exact reserve_st ‹_› ho
    · exact (capFlag_st 0x20 ho).trans (capStSame_of_same (capFault_same ..) (by decide))

theorem missTrigger_st (ev : Event) (cause : Nat) (ho : (capAt s c).st ≠ .off) : CapStSame s (missTrigger c ev cause s) := by
  unfold missTrigger
  extract_lets s1
  have h1 : CapStSame s s1 := by
    refine CapStSame.trans (t := modCap s c _) ?_ (capStSame_of_same (capFault_same ..) (by decide))
    exact modCap_st (fun _ => rfl) ho
  exact h1.trans (noteEntry_st _ (by rwa [h1 c]))

theorem ringFull_st (ho : (capAt s c).st ≠ .off) : CapStSame s (ringFull c s) :=
  (capFlag_st 0x10 ho).trans (capStSame_of_same (capFault_same ..) (by decide))

theorem stackRecord_st (part : Bool) (ho : (capAt s c).st ≠ .off) : CapStSame s (stackRecord c part s) := by
  unfold stackRecord
  dsimp only
  split
  · exact fun _ => rfl
  · split
    · exact capStSame_of_same (raise_same ..) (by decide)
    · split
      · have hr := reserve_st ‹_› ho
        exact hr.trans (modCap_st (fun _ => rfl) (by rwa [hr c]))
      · have hf := ringFull_st ho
        exact hf.trans (missTrigger_st _ _ (by rwa [hf c]))

/-- A capture channel is armed, in its window or waiting to re-arm. -/
def capLive (s : State) (j : Nat) : Prop := (capAt s j).st = .armed ∨ (capAt s j).st = .window ∨ (capAt s j).st = .rearm

/-- A channel that drains ends BOUND or goes on draining, and every other is as it was. -/
theorem capDrain_live (h : (capAt s c).st = .draining) (j : Nat) : capLive (capDrain c s) j → j ≠ c ∧ capLive s j := by
  unfold capDrain
  dsimp only
  split
  · rw [capLive, capAt_of_same (deactivate_same ..) (by decide), putCap_st (by simp)]
    split
    · simp
    · exact fun hl => ⟨‹_›, hl⟩
  · intro hl
    refine ⟨?_, hl⟩
    rintro rfl
    simp [capLive, h] at hl

/-- A disarmed channel is not armed, and every other is as it was. -/
theorem disarm_stops (t : Nat) (c : Nat) (u : State) (j : Nat) : capLive (disarm c t u) j → j ≠ c ∧ capLive u j := by
  unfold disarm
  extract_lets x nD cut tr rs s1
  split
  next hlive =>
    have ho : (capAt u c).st ≠ .off := by
      rintro he
      simp [x, he] at hlive
    have h1 : CapStSame u s1 := modCap_st (fun _ => rfl) ho
    have h2 (k : Nat) : (capAt (capEnter c .draining nD s1) k).st = if k = c then .draining else (capAt u k).st := by
      rw [← h1 k]
      exact putCap_st (by simp) k
    have h3 : CapStSame (capEnter c .draining nD s1) (stackRecord c true (capEnter c .draining nD s1)) :=
      stackRecord_st true (by simp [h2 c])
    intro hl
    obtain ⟨hj, hl'⟩ := capDrain_live (by rw [h3 c, h2 c, if_pos rfl]) j hl
    exact ⟨hj, by rwa [capLive, h3 j, h2 j, if_neg hj] at hl'⟩
  next hrest =>
    intro hl
    rw [capLive, capIgnored_st c u j] at hl
    exact ⟨fun he => hrest (by subst he; exact hl), hl⟩

/-- No capture channel is armed once the units of a mode have been disarmed. -/
theorem foldl_disarm_stops (t : Nat) (s : State) (j : Nat) : ¬ capLive (s.caps.foldl (fun s p =>
    if p.2.st = .armed ∨ p.2.st = .window ∨ p.2.st = .rearm then disarm p.1 t s else s) s) j := by
  intro h
  obtain ⟨hs, hl⟩ := foldl_stops (live := capLive) (hit := fun x => x.st = .armed ∨ x.st = .window ∨ x.st = .rearm)
    (disarm_stops t) s.caps h
  refine hl (capAt s j) (mem_of_tget_ne (d := ({} : Cap)) fun he => ?_) hs
  rw [capLive, capAt, he] at hs
  simp at hs

/-- No cell plays and no capture channel is armed once the units of a mode have stopped. -/
theorem stopUnits_stops (t : Nat) (s : State) (j : Nat) : ¬ cellPlays (stopUnits t s) j ∧ ¬ capLive (stopUnits t s) j := by
  refine ⟨fun h => foldl_toBound_stops s j ?_, foldl_disarm_stops t _ j⟩
  have hcaps (u : State) (p : Nat × Cap) : SameBut (recordParts ++ [.active, .hives]) u
      (if p.2.st = .armed ∨ p.2.st = .window ∨ p.2.st = .rearm then disarm p.1 t u else u) :=
    .ite (fun _ => disarm_same ..) (fun _ => .refl _ u)
  have hsame := SameBut.foldl hcaps (s.cells.foldl (fun s p =>
    if p.2.st = .armed ∨ p.2.st = .running ∨ p.2.st = .paused then toBound p.1 .bound s else s) s).caps
    (s.cells.foldl (fun s p => if p.2.st = .armed ∨ p.2.st = .running ∨ p.2.st = .paused then toBound p.1 .bound s else s) s)
  rwa [cellPlays, ← cellAt_of_same hsame (by decide)]

end Sys2Proof.Arch

/-! MODE_SET among BRING-UP, IDLE, RUN, SAFE and FACTORY (R20, R21, R24, R470). -/

namespace Sys2Proof.Arch

open Sys2Proof Sys2Proof.Machine Sys2Proof.Safety Sys2Proof.Laws Sys2Proof.Scope

variable {s u : State} {x : Held} {h : Hdr} {m p st k e : Nat} {tx : DWord}

/-! ### The decision -/

theorem modeSettle_same (s0 s : State) : SameBut [] s (modeSettle s0 s) :=
  .ite (fun _ => .refl _ s) fun _ => ⟨fun p hp => by cases p <;> simp_all [Part.Same, ctxAt]⟩

theorem modeSeen_same (x : Held) (s0 s : State) : SameBut [] s (modeSeen x s0 s) := modeSettle_same _ s

theorem decideCmd_modeSet (hc : x.cmd = .modeSet h m p st k e tx) (s : State) :
    decideCmd x s = decModeSet x m p st k e tx s := by rw [decideCmd, hc]

theorem not_replayed (hx : x.mb < 4) : replayed x = false := by
  simp only [replayed, decide_eq_false_iff_not]
  omega

theorem decModeSet_badMode (hx : x.mb < 4) (ht : transition s.md.mode m = false) :
    decModeSet x m p st k e tx s = finish (modeSeen x s s) x 0x0020 (some (0, 0)) .badMode := by
  simp [decModeSet, not_replayed hx, ht]

theorem decModeSet_condition (hx : x.mb < 4) (ht : transition s.md.mode m = true) {r : Err} (hr : modeCondition s m k e = some r) :
    decModeSet x m p st k e tx s = finish (modeSeen x s s) x 0x0020 (some (0, 0)) r := by
  simp [decModeSet, not_replayed hx, ht, hr]

theorem decModeSet_changes (hx : x.mb < 4) (ht : transition s.md.mode m = true) (hr : modeCondition s m k e = none) :
    decModeSet x m p st k e tx s = changeMode x m p st k e tx s := by
  simp [decModeSet, not_replayed hx, ht, hr]

/-- A mode change whose effect leaves the mailboxes and device time replies E_OK and leaves that effect. -/
theorem completes_changed {l : List Part} (hd : Decides s x (.modeSet h m p st k e tx)) (hx : x.mb < 4)
    (ht : transition (reached s x).md.mode m = true) (hr : modeCondition (reached s x) m k e = none)
    (hc : changeMode x m p st k e tx (reached s x) = finish (modeSeen x (reached s x) u) x 0x0020 (some (0, 0)) .ok)
    (hu : SameBut l (reached s x) u) (hm : Part.mailboxes ∉ l) (htime : Part.time ∉ l) {P : State → Prop}
    (hP : ∀ t, Replied s t x 0x0020 .ok [] → SameBut [.mailboxes, .col] u t → P t) : Completes .commandDecision s P := by
  refine completes_of_decides hd nofun ?_
  rw [decideCmd_modeSet hd.cmd, decModeSet_changes hx ht hr, hc]
  have hseen := modeSeen_same x (reached s x) u
  have hall : SameBut (.held :: skipParts ++ l) s (modeSeen x (reached s x) u) :=
    ((reached_same s x).andThen (hu.andThen hseen)).mono (by simp)
  have hrep : Replied s (settle s (finish (modeSeen x (reached s x) u) x 0x0020 (some (0, 0)) .ok)) x 0x0020 .ok [] :=
    replied_of_same hd.toLive hall (by simpa [skipParts, cellParts] using hm) (by simpa [skipParts, cellParts] using htime) _ _ _ _
  have hfin : SameBut [.mailboxes, .col] u (finish (modeSeen x (reached s x) u) x 0x0020 (some (0, 0)) .ok) :=
    (hseen.mono (by simp)).trans (finish_same _ hd.slot ..)
  exact hP _ hrep (hfin.settled s)

theorem mailboxes_not_mem_modeParts (old m : Mode) : Part.mailboxes ∉ modeParts old m := by
  cases old <;> cases m <;> decide

theorem time_not_mem_modeParts (old m : Mode) : Part.time ∉ modeParts old m := by
  cases old <;> cases m <;> decide

/-- What a reply of `MODE_SET` leaves of a mode that has taken effect. -/
structure Entered (s : State) (x : Held) (n : Mode) (t : State) : Prop where
  reply : Replied s t x 0x0020 .ok []
  md : ∃ ep, t.md = { s.md with
    mode := n, prev := s.md.mode, power := powerOf n, since := 16 * x.dec, leave := none, epoch := ep }
  same : SameBut (.md :: .mailboxes :: .col :: modeParts s.md.mode n) (reached s x) t
  after : SameBut [.mailboxes, .col] (enterMode n x.dec (reached s x)) t

/-- A mode change that enters a mode from where the command reaches its cells. -/
theorem completes_entered {n : Mode} (hd : Decides s x (.modeSet h m p st k e tx)) (hx : x.mb < 4)
    (ht : transition s.md.mode m = true) (hr : modeCondition (reached s x) m k e = none)
    (hc : changeMode x m p st k e tx (reached s x) =
      finish (modeSeen x (reached s x) (enterMode n x.dec (reached s x))) x 0x0020 (some (0, 0)) .ok) {P : State → Prop}
    (hP : ∀ t, Entered s x n t → P t) : Completes .commandDecision s P := by
  have henter := enterMode_same n x.dec (reached s x)
  rw [reached_mode] at henter
  have hu := (modeTaken_same n x.dec (reached s x)).andThen henter
  refine completes_changed hd hx (by rwa [reached_mode]) hr hc hu ?_ ?_ fun t hrep hafter => hP t ⟨hrep, ?_, ?_, hafter⟩
  · simpa using mailboxes_not_mem_modeParts s.md.mode n
  · simpa using time_not_mem_modeParts s.md.mode n
  · obtain ⟨⟨a, ha⟩, -⟩ := reached_keeps s x
    obtain ⟨b, hb⟩ := henter.md_eq (md_not_mem_modeParts _ _)
    obtain ⟨c, hc⟩ := hafter.md_eq (by decide)
    exact ⟨c, by rw [hc, hb]; simp only [modeTaken, ha]⟩
  · exact (hu.andThen hafter).mono (by simp; tauto)

/-! ### What a change of the mode does -/

theorem changeMode_bringUp_idle (hm : s.md.mode = .bringUp) (hs : s.md.safeHeld = false) :
    changeMode x 1 p st k e tx s = finish (modeSeen x s (enterMode .idle x.dec s)) x 0x0020 (some (0, 0)) .ok := by
  simp [changeMode, modeOf, hm, hs]

theorem changeMode_bringUp_factory (hm : s.md.mode = .bringUp) (hs : s.md.safeHeld = false) :
    changeMode x 7 p st k e tx s = finish (modeSeen x s (enterMode .factory x.dec s)) x 0x0020 (some (0, 0)) .ok := by
  simp [changeMode, modeOf, hm, hs]

theorem changeMode_bringUp_safe (hm : s.md.mode = .bringUp) :
    changeMode x 6 p st k e tx s =
      finish (modeSeen x s { s with md := { s.md with safeHeld := true } }) x 0x0020 (some (0, 0)) .ok := by
  simp [changeMode, modeOf, hm]

theorem changeMode_idle_run (hm : s.md.mode = .idle) :
    changeMode x 2 p st k e tx s = finish (modeSeen x s (enterMode .run x.dec s)) x 0x0020 (some (0, 0)) .ok := by
  simp [changeMode, modeOf, hm]

theorem changeMode_run_idle (hm : s.md.mode = .run) :
    changeMode x 1 p st k e tx s = finish (modeSeen x s (enterMode .idle x.dec s)) x 0x0020 (some (0, 0)) .ok := by
  simp [changeMode, modeOf, hm]

theorem changeMode_safe_idle (hm : s.md.mode = .safe) :
    changeMode x 1 p st k e tx s = finish (modeSeen x s (enterMode .idle x.dec s)) x 0x0020 (some (0, 0)) .ok := by
  simp [changeMode, modeOf, hm]

theorem changeMode_safe_safe (hm : s.md.mode = .safe) :
    changeMode x 6 p st k e tx s = finish (modeSeen x s s) x 0x0020 (some (0, 0)) .ok := by
  simp [changeMode, modeOf, hm]

/-- Leaving RUN for IDLE, no cell plays and no capture channel is armed. -/
theorem enterMode_idle_stops (hm : s.md.mode = .run) (t j : Nat) :
    ¬ cellPlays (enterMode .idle t s) j ∧ ¬ capLive (enterMode .idle t s) j := by
  have hstops : modeStops .idle t s = stopUnits t (modeTaken .idle t s) := by
    rw [modeStops, hm]
    rfl
  have hafter : SameBut (modeRestParts .idle) (modeStops .idle t s) (enterMode .idle t s) := modeRest_same (modeStops_mode _ t s)
  rw [cellPlays, capLive, cellAt_of_same hafter (by decide), capAt_of_same hafter (by decide), hstops]
  exact stopUnits_stops t _ j

/-- Settles O10: what entering each mode changes, and the answers of a MODE_SET that changes none. -/
theorem modeChanges : Obligations.ModeChanges := by
  unfold Obligations.ModeChanges
  refine ⟨?_, ?_, ?_, ?_, ?_, ?_, ?_, ?_, ?_⟩
  · intro s x h m p st k e tx hd hx ht
    refine completes_answer hd nofun (modeSeen_same x (reached s x) (reached s x)) (un := some (0, 0)) ?_
    rw [decideCmd_modeSet hd.cmd, decModeSet_badMode hx (by rwa [reached_mode])]
  · intro s x h m p st k e tx r hd hx ht hr
    refine completes_answer hd nofun (modeSeen_same x (reached s x) (reached s x)) (un := some (0, 0)) ?_
    rw [decideCmd_modeSet hd.cmd, decModeSet_condition hx (by rwa [reached_mode]) hr]
  · intro s x h p st k e tx hd hx hm hk htime hs
    obtain ⟨⟨n, hmd⟩, -, -, -, ht, -, hr, -⟩ := reached_keeps s x
    refine completes_entered hd hx (by rw [hm]; rfl) (by simp [modeCondition, hmd, hm, hr, hk, ht, htime, colTime])
      (changeMode_bringUp_idle (by simp [hmd, hm]) (by simp [hmd, hs])) ?_
    rintro t ⟨hrep, ⟨ep, he⟩, hsame, -⟩
    rw [hm] at he hsame
    exact ⟨by rw [he], by rw [he], by rw [he]; rfl, by rw [he], hrep, hsame.mono (by decide)⟩
  · intro s x h p st k e tx hd hx hm hl hs
    obtain ⟨n, hmd⟩ := (reached_keeps s x).md
    have hopen : lcOpen (reached s x) = true := by rw [← hl, lcOpen, lcOpen, lcOf, lcOf, (reached_keeps s x).dev]
    refine completes_entered hd hx (by rw [hm]; rfl) (by simp [modeCondition, hmd, hm, hopen])
      (changeMode_bringUp_factory (by simp [hmd, hm]) (by simp [hmd, hs])) ?_
    rintro t ⟨hrep, ⟨ep, he⟩, hsame, -⟩
    rw [hm] at he hsame
    exact ⟨by rw [he], by rw [he], hrep, hsame.mono (by decide)⟩
  · intro s x h p st k e tx hd hx hm
    have hmr : (reached s x).md.mode = .bringUp := by rwa [reached_mode]
    have hheld := set_md_same (reached s x) { (reached s x).md with safeHeld := true }
    refine completes_changed hd hx (by rw [hmr]; rfl) rfl (changeMode_bringUp_safe hmr) hheld (by decide) (by decide) ?_
    intro t hrep hsame
    obtain ⟨ep, he⟩ := hsame.md_eq (by decide)
    exact ⟨by rw [he, ← hmr], by rw [he], hrep, (hheld.andThen hsame).mono (by decide)⟩
  · intro s x h p st k e tx hd hx hm
    have hmr : (reached s x).md.mode = .idle := by rwa [reached_mode]
    refine completes_entered hd hx (by rw [hm]; rfl) (by simp [modeCondition, hmr]) (changeMode_idle_run hmr) ?_
    rintro t ⟨hrep, ⟨ep, he⟩, hsame, -⟩
    rw [hm] at he hsame
    exact ⟨by rw [he], by rw [he], by rw [he]; rfl, by rw [he], hrep, hsame.mono (by decide)⟩
  · intro s x h p st k e tx hd hx hm
    have hmr : (reached s x).md.mode = .run := by rwa [reached_mode]
    refine completes_entered hd hx (by rw [hm]; rfl) (by simp [modeCondition, hmr]) (changeMode_run_idle hmr) ?_
    rintro t ⟨hrep, ⟨ep, he⟩, hsame, hafter⟩
    rw [hm] at he hsame
    have hstops (j : Nat) : ¬ cellPlays t j ∧ ¬ capLive t j := by
      rw [cellPlays, capLive, cellAt_of_same hafter (by decide), capAt_of_same hafter (by decide)]
      exact enterMode_idle_stops hmr x.dec j
    refine ⟨by rw [he], by rw [he], by rw [he]; rfl, by rw [he], fun c => ?_, fun c => ?_, hrep, hsame.mono (by decide)⟩
    · simpa [cellPlays, not_or] using (hstops c).1
    · simpa [capLive, not_or] using (hstops c).2
  · intro s x h p st k e tx hd hx hm hc hro
    obtain ⟨n, hmd⟩ := (reached_keeps s x).md
    have hmr : (reached s x).md.mode = .safe := by rwa [reached_mode]
    have hro' : (reached s x).md.resetOnly = false := by rw [hmd, hro]
    refine completes_entered hd hx (by rw [hm]; rfl) (by simp [modeCondition, hmr, hc, hro']) (changeMode_safe_idle hmr) ?_
    rintro t ⟨hrep, ⟨ep, he⟩, hsame, -⟩
    rw [hm] at he hsame
    exact ⟨by rw [he], by rw [he], hrep, hsame.mono (by decide)⟩
  · intro s x h p st k e tx hd hx hm
    have hmr : (reached s x).md.mode = .safe := by rwa [reached_mode]
    exact completes_changed (l := []) hd hx (by rw [hmr]; rfl) rfl (changeMode_safe_safe hmr) (.refl _ _) (by decide) (by decide)
      fun t hrep hsame => ⟨hrep, hsame⟩

end Sys2Proof.Arch

/-! Device time (R30, R31): what each function of the model leaves of it, in the order of the model's files. All but a few leave the whole
unit; those that set the horizon, the PPS or the PLL's lock leave the tick and the readiness. -/

namespace Sys2Proof.Arch

open Sys2Proof Sys2Proof.Machine Sys2Proof.Safety Sys2Proof.Laws Sys2Proof.Scope

/-! ### Device time under choices and repetition -/

@[simp] theorem ite_time (p : Prop) [Decidable p] (s t : State) : (if p then s else t).time = if p then s.time else t.time :=
  apply_ite State.time p s t

@[simp] theorem foldl_time {β : Type} {f : State → β → State} (h : ∀ s b, (f s b).time = s.time) (l : List β) (s : State) :
    (l.foldl f s).time = s.time :=
  foldl_view State.time h l s

@[simp] theorem forUp_time {f : Nat → State → State} (h : ∀ i s, (f i s).time = s.time) (n i : Nat) (s : State) :
    (forUp f n i s).time = s.time :=
  forUp_keeps (P := fun u => u.time = s.time) (fun i u hu => (h i u).trans hu) n i rfl

/-! ### Ops -/

theorem tickOver_time {s : State} (h : alive s = true) : (tickOver s).time = { s.time with tick := s.time.tick + 1 } := by
  unfold alive at h
  simp [tickOver, h]

/-! ### Keeper -/

@[simp] theorem tunnelOut_time (port dir dest src rank frees frame s) :
    (tunnelOut port dir dest src rank frees frame s).time = s.time := by
  simp [tunnelOut]

@[simp] theorem tunnelSent_time (n s) : (tunnelSent n s).time = s.time := by
  unfold tunnelSent
  split <;> simp

@[simp] theorem writeReply_time (s ctx mb r0) : (writeReply s ctx mb r0).time = s.time := by
  unfold writeReply
  split <;> simp

@[simp] theorem answer_time (s ctx mb op seq st unit dec res) : (answer s ctx mb op seq st unit dec res).time = s.time := by
  simp [answer]

@[simp] theorem reject_time (s ctx mb op seq e unit res) : (reject s ctx mb op seq e unit res).time = s.time := by simp [reject]
@[simp] theorem refusePost_time (s ctx mb) : (refusePost s ctx mb).time = s.time := by simp [refusePost]
@[simp] theorem dropAsm_time (s ctx mb) : (dropAsm s ctx mb).time = s.time := by simp [dropAsm]
@[simp] theorem holdCmd_time (s x) : (holdCmd s x).time = s.time := by simp [holdCmd]
@[simp] theorem firmwareRaise_time (w s) : (firmwareRaise w s).time = s.time := by simp [firmwareRaise]
@[simp] theorem diverge_time (u s) : (diverge u s).time = s.time := by simp [diverge]
theorem accept_time {p : CSpec} (ha : ∀ u, (p.onAccept u).time = u.time) (s : State) (h : Hdr) (c : Instr) :
    (accept s h c p).time = s.time := by
  rw [accept_eq]
  split <;> simp [ha, stored_time]

/-- A judged command leaves device time where its own effects at acceptance and at rejection do. -/
theorem judge_time {p : CSpec} (hr : ∀ u, (p.onReject u).time = u.time) (ha : ∀ u, (p.onAccept u).time = u.time) (s : State) (h : Hdr)
    (c : Instr) : (judge s h c p).time = s.time := by
  unfold judge
  split
  · simp
  · dsimp only
    split
    · simp [hr, findStale_time]
    · rw [accept_time ha, findStale_time]

theorem submit_time {p : CSpec} (hr : ∀ u, (p.onReject u).time = u.time) (ha : ∀ u, (p.onAccept u).time = u.time) (h : Hdr) (c : Instr)
    (s : State) : (submit h c p s).time = s.time := by
  simp [submit, judge_time hr ha]

@[simp] theorem finish_time (s x op unit st res) : (finish s x op unit st res).time = s.time := by simp [finish]
@[simp] theorem beginWork_time (s x) : (beginWork s x).time = s.time := by simp [beginWork]
@[simp] theorem endWork_time (s x) : (endWork s x).time = s.time := by simp [endWork]

/-! ### AuxOut -/

@[simp] theorem auxSet_time (a code t s) : (auxSet a code t s).time = s.time := by simp [auxSet]
@[simp] theorem auxClearAll_time (s) : (auxClearAll s).time = s.time := by simp [auxClearAll]
@[simp] theorem decAuxConfig_time (a shape step rate clr s) : (decAuxConfig a shape step rate clr s).time = s.time := by
  simp [decAuxConfig]

@[simp] theorem decAuxWrite_time (x a code raw s) : (decAuxWrite x a code raw s).time = s.time := by simp [decAuxWrite]
@[simp] theorem decAuxReadback_time (x a s) : (decAuxReadback x a s).time = s.time := by simp [decAuxReadback]
@[simp] theorem auxReadbackDone_time (a meas s) : (auxReadbackDone a meas s).time = s.time := by
  unfold auxReadbackDone
  split <;> simp

@[simp] theorem decAuxClear_time (a mask s) : (decAuxClear a mask s).time = s.time := by simp [decAuxClear]
@[simp] theorem auxClrAssert_time (s) : (auxClrAssert s).time = s.time := by simp [auxClrAssert]
@[simp] theorem auxClrRelease_time (s) : (auxClrRelease s).time = s.time := by simp [auxClrRelease]
@[simp] theorem auxSlewStep_time (a s) : (auxSlewStep a s).time = s.time := by
  unfold auxSlewStep
  split <;> simp

@[simp] theorem deglitchHoldEnd_time (a s) : (deglitchHoldEnd a s).time = s.time := by
  unfold deglitchHoldEnd
  split <;> simp

@[simp] theorem auxShort_time (a active s) : (auxShort a active s).time = s.time := by simp [auxShort]

/-! ### Comb -/

@[simp] theorem touchWord_time (master acc w s) : (touchWord master acc w s).time = s.time := by simp [touchWord]
@[simp] theorem touchSpan_time (master acc ca len s) : (touchSpan master acc ca len s).time = s.time := by simp [touchSpan]
@[simp] theorem combFault_time (s bit cls ca master acc) : (combFault s bit cls ca master acc).time = s.time := by simp [combFault]
@[simp] theorem ueData_time (s ca len master acc) : (ueData s ca len master acc).time = s.time := by
  unfold ueData
  split <;> simp

@[simp] theorem markWord_time (w s) : (markWord w s).time = s.time := by
  unfold markWord
  split <;> simp

@[simp] theorem combStore_time (s ca data) : (combStore s ca data).time = s.time := by simp [combStore]
@[simp] theorem rmwStore_time (s ca data master) : (rmwStore s ca data master).time = s.time := by simp [rmwStore]
@[simp] theorem addBusy_time (h n s) : (addBusy h n s).time = s.time := by simp [addBusy]
@[simp] theorem busyWord_time (w : Nat) (s : State) : (busyWord w s).1.time = s.time := by
  unfold busyWord
  split <;> simp

@[simp] theorem busyWords_time (ws : List Nat) (s : State) : (busyWords ws s).1.time = s.time := by
  induction ws generalizing s with
  | nil => rfl
  | cons w ws ih =>
    unfold busyWords
    dsimp only
    split <;> simp [ih]

@[simp] theorem keeperRead_time (ca len master : Nat) (s : State) : (keeperRead ca len master s).1.time = s.time := by
  have hb := busyWords_time (wordsOf ca len) s
  unfold keeperRead
  split
  next h => simpa [h] using hb
  next h =>
    rw [h] at hb
    dsimp only
    split <;> simpa using hb

@[simp] theorem modInner_time (scr f s) : (modInner scr f s).time = s.time := by simp [modInner]
@[simp] theorem touchInner_time (scr master w s) : (touchInner scr master w s).time = s.time := by simp [touchInner]
@[simp] theorem markInner_time (scr ws s) : (markInner scr ws s).time = s.time := by simp [markInner]
@[simp] theorem bumpComb_time (s hs) : (bumpComb s hs).time = s.time := by simp [bumpComb]
@[simp] theorem activate_time (s areas) : (activate s areas).time = s.time := by simp [activate]
@[simp] theorem deactivate_time (s areas) : (deactivate s areas).time = s.time := by simp [deactivate]
@[simp] theorem hostWrite_time (s : State) (ctx ca : Nat) (data : List Byte) : (hostWrite s ctx ca data).1.time = s.time := by
  unfold hostWrite
  split
  · rfl
  · split
    · rfl
    · split
      · rfl
      · split <;> simp

@[simp] theorem decWrite_time (x : Held) (op ca : Nat) (data : List Byte) (s : State) : (decWrite x op ca data s).time = s.time := by
  simp [decWrite]

@[simp] theorem decCombRead_time (x : Held) (ca count : Nat) (s : State) : (decCombRead x ca count s).time = s.time := by
  have hr := keeperRead_time ca (8 * count) 8 s
  unfold decCombRead
  dsimp only
  split
  · simp
  · split
    · simp
    · split <;> simp_all

@[simp] theorem decCombAtomic_time (x ca op operand s) : (decCombAtomic x ca op operand s).time = s.time := by simp [decCombAtomic]
@[simp] theorem decCombRegionSet_time (hive bank region owner secure s) :
    (decCombRegionSet hive bank region owner secure s).time = s.time := by
  simp [decCombRegionSet]

@[simp] theorem decCombActiveRead_time (x hive bank first count s) : (decCombActiveRead x hive bank first count s).time = s.time := by
  simp [decCombActiveRead]

@[simp] theorem decSrcTableSet_time (x hive n s) : (decSrcTableSet x hive n s).time = s.time := by simp [decSrcTableSet]
@[simp] theorem decSrcDescSet_time (x : Held) (hive index : Nat) (desc : BitVec 256) (s : State) :
    (decSrcDescSet x hive index desc s).time = s.time := by
  simp [decSrcDescSet]

@[simp] theorem combWriteDone_time (s) : (combWriteDone s).time = s.time := by
  unfold combWriteDone
  (repeat' split) <;> simp

/-! ### Dram -/

@[simp] theorem dmcFault_time (s bit cls a master acc) : (dmcFault s bit cls a master acc).time = s.time := by simp [dmcFault]
@[simp] theorem dmcChanFault_time (s bit cls c) : (dmcChanFault s bit cls c).time = s.time := by simp [dmcChanFault]
@[simp] theorem freezeLine_time (master acc line s) : (freezeLine master acc line s).time = s.time := by simp [freezeLine]
@[simp] theorem touchLine_time (master acc line s) : (touchLine master acc line s).time = s.time := by simp [touchLine]
@[simp] theorem touchLines_time (master acc a len s) : (touchLines master acc a len s).time = s.time := by simp [touchLines]
@[simp] theorem markLine_time (line s) : (markLine line s).time = s.time := by
  unfold markLine
  split <;> simp

@[simp] theorem dramStore_time (s a data) : (dramStore s a data).time = s.time := by simp [dramStore]
@[simp] theorem dramHostWrite_time (master a : Nat) (data : List Byte) (s : State) : (dramHostWrite master a data s).1.time = s.time := by
  unfold dramHostWrite
  dsimp only
  split <;> simp

@[simp] theorem queueEntry_time (c e s) : (queueEntry c e s).time = s.time := by simp [queueEntry]
@[simp] theorem queuePieces_time (e a data ps s) : (queuePieces e a data ps s).time = s.time := by simp [queuePieces]
@[simp] theorem journalWrite_time (c s) : (journalWrite c s).time = s.time := by simp [journalWrite]
@[simp] theorem journalWritten_time (n s) : (journalWritten n s).time = s.time := by simp [journalWritten]
@[simp] theorem journalLose_time (c s) : (journalLose c s).time = s.time := by simp [journalLose]
@[simp] theorem flushed_time (i s) : (flushed i s).time = s.time := by simp [flushed]
@[simp] theorem closed_time (i s) : (closed i s).time = s.time := by simp [closed]
@[simp] theorem queueWork_time (i s) : (queueWork i s).time = s.time := by
  unfold queueWork
  (repeat' split) <;> simp

@[simp] theorem failQueue_time (i err s) : (failQueue i err s).time = s.time := by simp [failQueue]
@[simp] theorem dropBlock_time (i b s) : (dropBlock i b s).time = s.time := by simp [dropBlock]
@[simp] theorem offlineQueue_time (i s) : (offlineQueue i s).time = s.time := by simp [offlineQueue]
@[simp] theorem endDramCmd_time (x e img s) : (endDramCmd x e img s).time = s.time := by
  unfold endDramCmd
  split <;> simp

@[simp] theorem endBulk_time (id e img s) : (endBulk id e img s).time = s.time := by
  unfold endBulk
  split <;> simp

@[simp] theorem endHost_time (e err img s) : (endHost e err img s).time = s.time := by
  unfold endHost
  (repeat' split) <;> simp

@[simp] theorem hostPiece_time (e err img s) : (hostPiece e err img s).time = s.time := by simp [hostPiece]
@[simp] theorem hostServed_time (e : DEntry) (s : State) : (hostServed e s).time = s.time := by
  simp [hostServed]

@[simp] theorem placeHost_time (master id a len rd data s) : (placeHost master id a len rd data s).time = s.time := by simp [placeHost]
@[simp] theorem placeHosts_time (s : State) : (placeHosts s).time = s.time := by
  unfold placeHosts
  dsimp only
  rw [foldl_time fun u o => placeHost_time .., foldl_time]
  intro u x
  split <;> simp

@[simp] theorem capDrain_time (c s) : (capDrain c s).time = s.time := by simp [capDrain]
@[simp] theorem journalRun_time (c r s) : (journalRun c r s).time = s.time := by simp [journalRun]
@[simp] theorem abandon_time (c s) : (abandon c s).time = s.time := by simp [abandon]
@[simp] theorem recOffline_time (c a s) : (recOffline c a s).time = s.time := by simp [recOffline]
@[simp] theorem failEntry_time (e s) : (failEntry e s).time = s.time := by
  unfold failEntry
  split <;> simp

@[simp] theorem failWaiting_time (s) : (failWaiting s).time = s.time := by simp [failWaiting]
@[simp] theorem goOffline_time (c s) : (goOffline c s).time = s.time := by simp [goOffline]
@[simp] theorem blockEnds_time (c s) : (blockEnds c s).time = s.time := by simp [blockEnds]
@[simp] theorem trained_time (c margin kind s) : (trained c margin kind s).time = s.time := by simp [trained]
@[simp] theorem startTraining_time (c kind s) : (startTraining c kind s).time = s.time := by simp [startTraining]
@[simp] theorem inService_time (c s) : (inService c s).time = s.time := by simp [inService]
@[simp] theorem trackTrigger_time (c s) : (trackTrigger c s).time = s.time := by simp [trackTrigger]
@[simp] theorem retrainReply_time (c e s) : (retrainReply c e s).time = s.time := by
  unfold retrainReply
  split <;> simp

@[simp] theorem configReply_time (s) : (configReply s).time = s.time := by
  unfold configReply
  split <;> simp

@[simp] theorem trainingEnds_time (c found margin s) : (trainingEnds c found margin s).time = s.time := by simp [trainingEnds]
@[simp] theorem dramTrainingDone_time (c pass margin s) : (dramTrainingDone c pass margin s).time = s.time := by
  simp [dramTrainingDone]

@[simp] theorem dramClearDone_time (c s) : (dramClearDone c s).time = s.time := by simp [dramClearDone]
@[simp] theorem trackDone_time (c pass margin s) : (trackDone c pass margin s).time = s.time := by
  unfold trackDone
  dsimp only
  (repeat' split) <;> simp

@[simp] theorem tjMove_time (c s) : (tjMove c s).time = s.time := by simp [tjMove]
@[simp] theorem ceLimitReached_time (c s) : (ceLimitReached c s).time = s.time := by simp [ceLimitReached]
@[simp] theorem trackTimer_time (c s) : (trackTimer c s).time = s.time := by simp [trackTimer]
@[simp] theorem caParity_time (c s) : (caParity c s).time = s.time := by simp [caParity]
@[simp] theorem serveBurst_time (s c e) : (serveBurst s c e).time = s.time := by simp [serveBurst]
@[simp] theorem refreshRank_time (c rank forced s) : (refreshRank c rank forced s).time = s.time := by simp [refreshRank]
@[simp] theorem scrubBurst_time (c s) : (scrubBurst c s).time = s.time := by simp [scrubBurst]
@[simp] theorem commandSlot_time (c s) : (commandSlot c s).time = s.time := by
  unfold commandSlot
  dsimp only
  (repeat' split) <;> simp

@[simp] theorem dramCommandSlot_time (c s) : (dramCommandSlot c s).time = s.time := by simp [dramCommandSlot]
@[simp] theorem entryData_time (e s) : (entryData e s).time = s.time := by
  unfold entryData
  split <;> simp

@[simp] theorem placeBlock_time (i b s) : (placeBlock i b s).time = s.time := by simp [placeBlock]
@[simp] theorem placeOne_time (i b s) : (placeOne i b s).time = s.time := by simp [placeOne]
@[simp] theorem placeWaiting_time (s) : (placeWaiting s).time = s.time := by simp [placeWaiting]
@[simp] theorem entryComplete_time (c i s) : (entryComplete c i s).time = s.time := by
  unfold entryComplete
  split <;> simp

@[simp] theorem dramEntryDone_time (c i s) : (dramEntryDone c i s).time = s.time := by
  unfold dramEntryDone
  split <;> simp

@[simp] theorem refreshDue_time (c rank s) : (refreshDue c rank s).time = s.time := by simp [refreshDue]
@[simp] theorem pageIdleClose_time (c rank bank s) : (pageIdleClose c rank bank s).time = s.time := by simp [pageIdleClose]
@[simp] theorem powerDownEntry_time (c rank s) : (powerDownEntry c rank s).time = s.time := by simp [powerDownEntry]
@[simp] theorem drainQueue_time (c s) : (drainQueue c s).time = s.time := by simp [drainQueue]
@[simp] theorem dmcSleep_time (s) : (dmcSleep s).time = s.time := by simp [dmcSleep]
@[simp] theorem dmcWake_time (s) : (dmcWake s).time = s.time := by simp [dmcWake]
@[simp] theorem dmcApply_time (chans interleave ctxBase age margin trackH ce s) :
    (dmcApply chans interleave ctxBase age margin trackH ce s).time = s.time := by
  simp [dmcApply]

@[simp] theorem decDmcConfig_time (x chans interleave ctxBase age margin trackH ce s) :
    (decDmcConfig x chans interleave ctxBase age margin trackH ce s).time = s.time := by
  simp [decDmcConfig]

@[simp] theorem decDramRegionSet_time (first count owner secure s) : (decDramRegionSet first count owner secure s).time = s.time := by
  simp [decDramRegionSet]

@[simp] theorem decDramRegionRead_time (x first count s) : (decDramRegionRead x first count s).time = s.time := by
  simp [decDramRegionRead]

@[simp] theorem decDmcRetrain_time (x c kind s) : (decDmcRetrain x c kind s).time = s.time := by simp [decDmcRetrain]
@[simp] theorem decDmcScrubSet_time (enable periodH s) : (decDmcScrubSet enable periodH s).time = s.time := by simp [decDmcScrubSet]
@[simp] theorem decDramWrite_time (x a data s) : (decDramWrite x a data s).time = s.time := by
  unfold decDramWrite
  split <;> simp

@[simp] theorem decDramRead_time (x a count s) : (decDramRead x a count s).time = s.time := by
  unfold decDramRead
  split <;> simp

@[simp] theorem decDmcClear_time (c mask unfreeze s) : (decDmcClear c mask unfreeze s).time = s.time := by simp [decDmcClear]

/-! ### Access -/

@[simp] theorem combHostFault_time (s bit ca master acc) : (combHostFault s bit ca master acc).time = s.time := by simp [combHostFault]
@[simp] theorem dramHostFault_time (s bit a master acc) : (dramHostFault s bit a master acc).time = s.time := by simp [dramHostFault]
@[simp] theorem ctxCombWrite_time (k master ca data s) : (ctxCombWrite k master ca data s).time = s.time := by
  unfold ctxCombWrite
  dsimp only
  (repeat' split) <;> simp

@[simp] theorem busReply_time (bytes s) : (busReply bytes s).time = s.time := by simp [busReply]
@[simp] theorem busZero_time (n s) : (busZero n s).time = s.time := by simp [busZero]
@[simp] theorem ctxCombRead_time (k master ca n : Nat) (s : State) : (ctxCombRead k master ca n s).time = s.time := by
  have hr := keeperRead_time ca n master s
  unfold ctxCombRead
  split
  · simp
  · split
    · simp
    · split
      · simp
      · split <;> simp_all

@[simp] theorem bulkOp_time (rd master a n data s) : (bulkOp rd master a n data s).time = s.time := by simp [bulkOp]
@[simp] theorem ctxDramWrite_time (k master a : Nat) (data : List Byte) (s : State) : (ctxDramWrite k master a data s).time = s.time := by
  simp [ctxDramWrite]

@[simp] theorem ctxDramRead_time (k master a n s) : (ctxDramRead k master a n s).time = s.time := by simp [ctxDramRead]
@[simp] theorem ctxWrite_time (k master addr data s) : (ctxWrite k master addr data s).time = s.time := by simp [ctxWrite]
@[simp] theorem ctxRead_time (k master addr n s) : (ctxRead k master addr n s).time = s.time := by simp [ctxRead]

/-! ### CalStore -/

@[simp] theorem setSpares_time (index l s) : (setSpares index l s).time = s.time := by simp [setSpares]
@[simp] theorem groomFail_time (index granule s) : (groomFail index granule s).time = s.time := by simp [groomFail]
@[simp] theorem fieldMap_time (index s) : (fieldMap index s).time = s.time := by simp [fieldMap]

/-! ### CtxCache -/

@[simp] theorem modLine_time (k f s) : (modLine k f s).time = s.time := by simp [modLine]
@[simp] theorem ctxFill_time (i s) : (ctxFill i s).time = s.time := by
  unfold ctxFill
  dsimp only
  (repeat' split) <;> simp

@[simp] theorem ctxTouch_time (i s) : (ctxTouch i s).time = s.time := by
  unfold ctxTouch
  (repeat' split) <;> simp

@[simp] theorem ctxLock_time (i s) : (ctxLock i s).time = s.time := by
  unfold ctxLock
  dsimp only
  split <;> simp

@[simp] theorem ctxUnlock_time (i s) : (ctxUnlock i s).time = s.time := by
  unfold ctxUnlock
  split <;> simp

/-! ### Waggle -/

@[simp] theorem produce_time (s src origin level gen taint) : (produce s src origin level gen taint).time = s.time := by simp [produce]
@[simp] theorem wagFault_time (s bit cls obj owner) : (wagFault s bit cls obj owner).time = s.time := by simp [wagFault]
@[simp] theorem taskReceive_time (now t ev s) : (taskReceive now t ev s).time = s.time := by simp [taskReceive]
@[simp] theorem colDue_time (s port f) : (colDue s port f).time = s.time := by simp [colDue]
@[simp] theorem colonySend_time (s ev dev) : (colonySend s ev dev).time = s.time := by simp [colonySend]
@[simp] theorem chanReceive_time (now w ev0 inj s) : (chanReceive now w ev0 inj s).time = s.time := by simp [chanReceive]
@[simp] theorem hopDone_time (s h) : (hopDone s h).time = s.time := by
  unfold hopDone
  split <;> simp

@[simp] theorem eventHop_time (s) : (eventHop s).time = s.time := by
  unfold eventHop
  split <;> simp

@[simp] theorem routeSet_time (i s) : (routeSet i s).time = s.time := by
  unfold routeSet
  split <;> simp

@[simp] theorem bumpWag_time (s) : (bumpWag s).time = s.time := by simp [bumpWag]
@[simp] theorem drivePin_time (p f s) : (drivePin p f s).time = s.time := by simp [drivePin]
@[simp] theorem pinIdle_time (p s) : (pinIdle p s).time = s.time := by simp [pinIdle]
@[simp] theorem pinsToIdle_time (s) : (pinsToIdle s).time = s.time := by simp [pinsToIdle]
@[simp] theorem evpEdge_time (pin level s) : (evpEdge pin level s).time = s.time := by simp [evpEdge]
@[simp] theorem pinPulseEnd_time (p s) : (pinPulseEnd p s).time = s.time := by
  unfold pinPulseEnd
  split <;> simp

@[simp] theorem tickTimerExpiry_time (i s) : (tickTimerExpiry i s).time = s.time := by simp [tickTimerExpiry]

/-! ### Walk -/

@[simp] theorem replayMismatch_time (c g pieces other s) : (replayMismatch c g pieces other s).time = s.time := by
  simp [replayMismatch]

@[simp] theorem sigClose_time (c s) : (sigClose c s).time = s.time := by
  unfold sigClose
  dsimp only
  (repeat' split) <;> simp

@[simp] theorem sigAdd_time (c tick word missing late s) : (sigAdd c tick word missing late s).time = s.time := by simp [sigAdd]
@[simp] theorem markerEdges_time (c origin old new s) : (markerEdges c origin old new s).time = s.time := by simp [markerEdges]
@[simp] theorem deliver_time (c tick b marks low missing late s) : (deliver c tick b marks low missing late s).time = s.time := by
  simp [deliver]

@[simp] theorem bridgeSample_time (c tick late s) : (bridgeSample c tick late s).time = s.time := by simp [bridgeSample]
@[simp] theorem queueRelease_time (q s) : (queueRelease q s).time = s.time := by simp [queueRelease]
@[simp] theorem releaseAreas_time (a s) : (releaseAreas a s).time = s.time := by simp [releaseAreas]
@[simp] theorem releaseArm_time (c s) : (releaseArm c s).time = s.time := by
  unfold releaseArm
  dsimp only
  split <;> simp

@[simp] theorem releaseTable_time (hive s) : (releaseTable hive s).time = s.time := by simp [releaseTable]
@[simp] theorem endGap_time (c s) : (endGap c s).time = s.time := by simp [endGap]
@[simp] theorem endLate_time (c s) : (endLate c s).time = s.time := by simp [endLate]
@[simp] theorem toBound_time (c st s) : (toBound c st s).time = s.time := by simp [toBound]
@[simp] theorem countMissing_time (c tick q dry s) : (countMissing c tick q dry s).time = s.time := by simp [countMissing]
@[simp] theorem countLate_time (c s) : (countLate c s).time = s.time := by simp [countLate]
@[simp] theorem takeNext_time (c s) : (takeNext c s).time = s.time := by
  unfold takeNext
  dsimp only
  split <;> simp

@[simp] theorem applyAdv_time (c tick v s) : (applyAdv c tick v s).time = s.time := by simp [applyAdv]
@[simp] theorem stepQueue_time (q s) : (stepQueue q s).time = s.time := by
  unfold stepQueue
  split <;> simp

@[simp] theorem segStart_time (c tick st s) : (segStart c tick st s).time = s.time := by simp [segStart]
@[simp] theorem ueStop_time (c tick ca s) : (ueStop c tick ca s).time = s.time := by simp [ueStop]
@[simp] theorem runSample_time (c tick : Nat) (late : Bool) (s : State) : (runSample c tick late s).time = s.time := by
  unfold runSample
  extract_lets x st p v ah pdCa s2 a pdSpan spans
  split
  · simp
  · rename_i sT imposed missing q sM sS sD sG sG' sL sL' sD' a' pd b sE sP m sD'' _ _
    have hT : sT.time = s.time := foldl_time (fun _ _ => touchSpan_time ..) spans s
    simp only [sD'', sP, sE, sD', sL', sL, sG', sG, sD, sS, sM, ite_time, applyAdv_time, stepQueue_time, modCell_time, deliver_time,
      segStart_time, countMissing_time, endLate_time, endGap_time, countLate_time, bridgeSample_time, hT, ite_self]

@[simp] theorem emitSample_time (c tick late s) : (emitSample c tick late s).time = s.time := by
  unfold emitSample
  dsimp only
  split <;> simp

@[simp] theorem noteActed_time (c dec s) : (noteActed c dec s).time = s.time := by simp [noteActed]
@[simp] theorem sampleEmission_time (c late s) : (sampleEmission c late s).time = s.time := by simp [sampleEmission]

/-! ### Cells -/

@[simp] theorem setFlags_time (f c s) : (setFlags f c s).time = s.time := by simp [setFlags]
@[simp] theorem ignored_time (c s) : (ignored c s).time = s.time := by simp [ignored]
@[simp] theorem auxRelease_time (x s) : (auxRelease x s).time = s.time := by simp [auxRelease]
@[simp] theorem decCellBind_time (c dom ratio t bridge park slip dec s) :
    (decCellBind c dom ratio t bridge park slip dec s).time = s.time := by
  simp [decCellBind]

@[simp] theorem decCellUnbind_time (c s) : (decCellUnbind c s).time = s.time := by simp [decCellUnbind]
@[simp] theorem armUe_time (c a s) : (armUe c a s).time = s.time := by
  unfold armUe
  split <;> simp

@[simp] theorem queueLive_time (q fmt s) : (queueLive q fmt s).time = s.time := by simp [queueLive]
@[simp] theorem armAccept_time (c a s) : (armAccept c a s).time = s.time := by simp [armAccept]
@[simp] theorem decCellArm_time (c serial s) : (decCellArm c serial s).time = s.time := by
  unfold decCellArm
  dsimp only
  split <;> simp

@[simp] theorem noteTaint_time (c taint s) : (noteTaint c taint s).time = s.time := by simp [noteTaint]
@[simp] theorem startCell_time (c dec gen taint s) : (startCell c dec gen taint s).time = s.time := by
  unfold startCell
  dsimp only
  split <;> simp

@[simp] theorem stopCell_time (c gen taint s) : (stopCell c gen taint s).time = s.time := by simp [stopCell]
@[simp] theorem pauseCell_time (c gen taint s) : (pauseCell c gen taint s).time = s.time := by simp [pauseCell]
@[simp] theorem resumeCell_time (c s) : (resumeCell c s).time = s.time := by simp [resumeCell]
@[simp] theorem rateCell_time (c ratio dec s) : (rateCell c ratio dec s).time = s.time := by simp [rateCell]
@[simp] theorem forSel_time {f : Nat → State → State} (hf : ∀ c s, (f c s).time = s.time) (u : Sel) (s : State) :
    (forSel u f s).time = s.time :=
  foldl_time (fun s c => hf c s) (selCells s u) s

@[simp] theorem decGroupSet_time (g : Nat) (cells : List Nat) (s : State) : (decGroupSet g cells s).time = s.time := by
  unfold decGroupSet
  dsimp only
  rw [ite_time, foldl_time fun _ _ => ignored_time .., foldl_time fun _ _ => modCell_time .., ite_self]

@[simp] theorem decCellClear_time (c mask s) : (decCellClear c mask s).time = s.time := by simp [decCellClear]
@[simp] theorem decCellReset_time (c s) : (decCellReset c s).time = s.time := by simp [decCellReset]

/-! ### SynCmds -/

@[simp] theorem decSynConfig_time (c format pdEn pdAddr gU oU s) : (decSynConfig c format pdEn pdAddr gU oU s).time = s.time := by
  simp [decSynConfig]

@[simp] theorem decSynGainSet_time (c gU oU s) : (decSynGainSet c gU oU s).time = s.time := by simp [decSynGainSet]
@[simp] theorem decFormatSet_time (link entry word s) : (decFormatSet link entry word s).time = s.time := by simp [decFormatSet]
@[simp] theorem decSynClear_time (c mask s) : (decSynClear c mask s).time = s.time := by simp [decSynClear]
@[simp] theorem decSynCalApply_time (c gC oC s) : (decSynCalApply c gC oC s).time = s.time := by simp [decSynCalApply]
@[simp] theorem decCurveAreaSet_time (hive base envCount s) : (decCurveAreaSet hive base envCount s).time = s.time := by
  simp [decCurveAreaSet]

/-! ### Capture -/

@[simp] theorem capFlag_time (f c s) : (capFlag f c s).time = s.time := by simp [capFlag]
@[simp] theorem capIgnored_time (c s) : (capIgnored c s).time = s.time := by simp [capIgnored]
@[simp] theorem capFault_time (s bit cls c addr master acc) : (capFault s bit cls c addr master acc).time = s.time := by
  simp [capFault]

@[simp] theorem writeHeader_time (c r crc s) : (writeHeader c r crc s).time = s.time := by simp [writeHeader]
@[simp] theorem putRec_time (c r s) : (putRec c r s).time = s.time := by simp [putRec]
@[simp] theorem advanceWr_time (c s) : (advanceWr c s).time = s.time := by simp [advanceWr]
theorem reserve_time {c bytes : Nat} {r : CapRec} {s t : State} (h : reserve c bytes r s = some t) : t.time = s.time :=
  (reserve_same h).same .time (by decide)

@[simp] theorem noteEntry_time (c : Nat) (r : CapRec) (s : State) : (noteEntry c r s).time = s.time :=
  (noteEntry_same c r s).same .time (by decide)

@[simp] theorem missTrigger_time (c ev cause s) : (missTrigger c ev cause s).time = s.time := by simp [missTrigger]
@[simp] theorem capEnter_time (c st n s) : (capEnter c st n s).time = s.time := by simp [capEnter]
@[simp] theorem ringFull_time (c s) : (ringFull c s).time = s.time := by simp [ringFull]
@[simp] theorem stackRecord_time (c : Nat) (part : Bool) (s : State) : (stackRecord c part s).time = s.time :=
  (stackRecord_same c part s).same .time (by decide)

@[simp] theorem windowEnd_time (c s) : (windowEnd c s).time = s.time := by simp [windowEnd]
@[simp] theorem reserveData_time (c : Nat) (ev : Event) (nT : Nat) (stop : Option Nat) (s : State) :
    (reserveData c ev nT stop s).time = s.time := by
  unfold reserveData
  dsimp only
  split
  · simp
  · split
    next h => simp [reserve_time h]
    · simp

@[simp] theorem acceptTrigger_time (c ev nT s) : (acceptTrigger c ev nT s).time = s.time := by simp [acceptTrigger]
@[simp] theorem acceptCut_time (c ev nT nD s) : (acceptCut c ev nT nD s).time = s.time := by simp [acceptCut]
@[simp] theorem decideTrigger_time (c ev s) : (decideTrigger c ev s).time = s.time := by
  unfold decideTrigger
  dsimp only
  (repeat' split) <;> simp

@[simp] theorem rearmAt_time (c t s) : (rearmAt c t s).time = s.time := by
  unfold rearmAt
  dsimp only
  split <;> simp

@[simp] theorem rearmTick_time (c s) : (rearmTick c s).time = s.time := by
  unfold rearmTick
  dsimp only
  split <;> simp

@[simp] theorem armInput_time (c dec s) : (armInput c dec s).time = s.time := by
  unfold armInput
  dsimp only
  (repeat' split) <;> simp

@[simp] theorem closeRun_time (c r s) : (closeRun c r s).time = s.time := by simp [closeRun]
@[simp] theorem disarm_time (c dec s) : (disarm c dec s).time = s.time := by simp [disarm]
@[simp] theorem runLevel_time (c tick v s) : (runLevel c tick v s).time = s.time := by simp [runLevel]
@[simp] theorem loseSample_time (c n tick r s) : (loseSample c n tick r s).time = s.time := by simp [loseSample]
@[simp] theorem overwrite_time (c n tick s) : (overwrite c n tick s).time = s.time := by simp [overwrite]
@[simp] theorem stackAdd_time (c i v s) : (stackAdd c i v s).time = s.time := by simp [stackAdd]
@[simp] theorem rxCount_time (l ovr inv s) : (rxCount l ovr inv s).time = s.time := by simp [rxCount]
@[simp] theorem takeSample_time (c e tick word s) : (takeSample c e tick word s).time = s.time := by simp [takeSample]
@[simp] theorem captureSample_time (c word s) : (captureSample c word s).time = s.time := by simp [captureSample]
@[simp] theorem streamBusy_time (c s) : (streamBusy c s).time = s.time := by simp [streamBusy]
@[simp] theorem streamRecord_time (c r0 samples s) : (streamRecord c r0 samples s).time = s.time := by
  unfold streamRecord
  dsimp only
  (repeat' split) <;> simp

@[simp] theorem streamChunk_time (hive samples s) : (streamChunk hive samples s).time = s.time := by
  unfold streamChunk
  split <;> simp

@[simp] theorem recordCommit_time (c s) : (recordCommit c s).time = s.time := by
  unfold recordCommit
  dsimp only
  split <;> simp

@[simp] theorem decCapBind_time (c dom k slot recBase recLog2 mode s) :
    (decCapBind c dom k slot recBase recLog2 mode s).time = s.time := by
  simp [decCapBind]

@[simp] theorem capAccept_time (c a s) : (capAccept c a s).time = s.time := by simp [capAccept]
@[simp] theorem fillDone_time (x c a s) : (fillDone x c a s).time = s.time := by simp [fillDone]
@[simp] theorem capArmFillDone_time (c s) : (capArmFillDone c s).time = s.time := by
  unfold capArmFillDone
  (repeat' split) <;> simp

@[simp] theorem decCapArm_time (h c a s0) : (decCapArm h c a s0).time = s0.time := by simp [decCapArm]
@[simp] theorem decCapRelease_time (c rd s) : (decCapRelease c rd s).time = s.time := by simp [decCapRelease]
@[simp] theorem decCapTrigSet_time (c enable thr hyst edge s) : (decCapTrigSet c enable thr hyst edge s).time = s.time := by
  simp [decCapTrigSet]

@[simp] theorem decCapUnbind_time (c s) : (decCapUnbind c s).time = s.time := by simp [decCapUnbind]
@[simp] theorem decCapClear_time (c mask s) : (decCapClear c mask s).time = s.time := by simp [decCapClear]

/-! ### Tasks -/

@[simp] theorem dropEvents_time (t dec s) : (dropEvents t dec s).time = s.time := by simp [dropEvents]
@[simp] theorem noteRun_time (t es s) : (noteRun t es s).time = s.time := by
  unfold noteRun
  split <;> simp

@[simp] theorem takeJump_time (c j gen taint s) : (takeJump c j gen taint s).time = s.time := by simp [takeJump]
@[simp] theorem decideJumps_time (c dec s) : (decideJumps c dec s).time = s.time := by
  unfold decideJumps
  dsimp only
  (repeat' split) <;> simp

@[simp] theorem trigDecide_time (c dec s) : (trigDecide c dec s).time = s.time := by
  unfold trigDecide
  dsimp only
  split <;> simp

@[simp] theorem retrigger_time (t s) : (retrigger t s).time = s.time := by simp [retrigger]
@[simp] theorem pinTask_time (p t dec s) : (pinTask p t dec s).time = s.time := by
  unfold pinTask
  dsimp only
  split <;> simp

@[simp] theorem swarmTask_time (l t dec s) : (swarmTask l t dec s).time = s.time := by simp [swarmTask]
@[simp] theorem swarmDriveLaunch_time (l s) : (swarmDriveLaunch l s).time = s.time := by simp [swarmDriveLaunch]
@[simp] theorem swarmDriveRelease_time (l s) : (swarmDriveRelease l s).time = s.time := by simp [swarmDriveRelease]
@[simp] theorem countTask_time (i dec gen taint s) : (countTask i dec gen taint s).time = s.time := by simp [countTask]
@[simp] theorem counterTasks_time (i dec s) : (counterTasks i dec s).time = s.time := by simp [counterTasks]
@[simp] theorem timerTasks_time (i dec s) : (timerTasks i dec s).time = s.time := by simp [timerTasks]
@[simp] theorem cellTaskRun_time (t c k dec s) : (cellTaskRun t c k dec s).time = s.time := by simp [cellTaskRun]
@[simp] theorem taskRun_time (t dec s) : (taskRun t dec s).time = s.time := by
  unfold taskRun
  split <;> simp

@[simp] theorem taskDecision_time (t s) : (taskDecision t s).time = s.time := by
  unfold taskDecision
  split <;> simp

@[simp] theorem decWagChanSet_time (w e s) : (decWagChanSet w e s).time = s.time := by simp [decWagChanSet]
@[simp] theorem decWagTaskSet_time (t slots scope s) : (decWagTaskSet t slots scope s).time = s.time := by simp [decWagTaskSet]
@[simp] theorem decWagRaise_time (w level dec s) : (decWagRaise w level dec s).time = s.time := by simp [decWagRaise]
@[simp] theorem decWagTimerSet_time (i first period count delay s) : (decWagTimerSet i first period count delay s).time = s.time := by
  simp [decWagTimerSet]

@[simp] theorem decWagCounterSet_time (i value terminal reload s) : (decWagCounterSet i value terminal reload s).time = s.time := by
  simp [decWagCounterSet]

@[simp] theorem decWagPinSet_time (p dir idle action width s) : (decWagPinSet p dir idle action width s).time = s.time := by
  simp [decWagPinSet]

@[simp] theorem decWagWatchRead_time (x : Held) (s : State) : (decWagWatchRead x s).time = s.time := by
  unfold decWagWatchRead
  dsimp only
  rw [finish_time, bumpWag_time, foldl_time fun _ _ => modChan_time ..]

@[simp] theorem decWagClear_time (u mask level dec s) : (decWagClear u mask level dec s).time = s.time := by simp [decWagClear]
@[simp] theorem wagOwn_time (kind i o s) : (wagOwn kind i o s).time = s.time := by
  unfold wagOwn
  split <;> simp

@[simp] theorem decWagOwnerSet_time (kind i owner secure s) : (decWagOwnerSet kind i owner secure s).time = s.time := by
  simp [decWagOwnerSet]

/-! ### Links -/

@[simp] theorem laneFault_time (s bit cls i lane) : (laneFault s bit cls i lane).time = s.time := by simp [laneFault]
@[simp] theorem lnkFault_time (s bit cls i) : (lnkFault s bit cls i).time = s.time := by simp [lnkFault]
@[simp] theorem linkAlign_time (i s) : (linkAlign i s).time = s.time := by simp [linkAlign]
@[simp] theorem linkData_time (i s) : (linkData i s).time = s.time := by simp [linkData]
@[simp] theorem linkTrain_time (i s) : (linkTrain i s).time = s.time := by simp [linkTrain]
@[simp] theorem linkDown_time (i cause s) : (linkDown i cause s).time = s.time := by simp [linkDown]
@[simp] theorem linkRetrigger_time (i s) : (linkRetrigger i s).time = s.time := by simp [linkRetrigger]
@[simp] theorem lanesSleep_time (s) : (lanesSleep s).time = s.time := by simp [lanesSleep]
@[simp] theorem linksFollow_time (s) : (linksFollow s).time = s.time := by simp [linksFollow]
@[simp] theorem decLinkSet_time (i a s) : (decLinkSet i a s).time = s.time := by simp [decLinkSet]
@[simp] theorem decLinkEnable_time (i s) : (decLinkEnable i s).time = s.time := by simp [decLinkEnable]
@[simp] theorem decLinkDisable_time (i s) : (decLinkDisable i s).time = s.time := by simp [decLinkDisable]
@[simp] theorem decLinkRetrain_time (i s) : (decLinkRetrain i s).time = s.time := by simp [decLinkRetrain]
@[simp] theorem decLinkSlotSet_time (i slot format s) : (decLinkSlotSet i slot format s).time = s.time := by simp [decLinkSlotSet]
@[simp] theorem decLinkEyeRead_time (x lane s) : (decLinkEyeRead x lane s).time = s.time := by
  unfold decLinkEyeRead
  split <;> simp

@[simp] theorem decLinkClear_time (i mask s) : (decLinkClear i mask s).time = s.time := by simp [decLinkClear]
@[simp] theorem noteEyes_time (ms s) : (noteEyes ms s).time = s.time := by simp [noteEyes]
@[simp] theorem trainingComplete_time (i eyes s) : (trainingComplete i eyes s).time = s.time := by
  unfold trainingComplete
  dsimp only
  (repeat' split) <;> simp

@[simp] theorem presetDwellEnd_time (i preset s) : (presetDwellEnd i preset s).time = s.time := by simp [presetDwellEnd]
@[simp] theorem noSysref_time (i s) : (noSysref i s).time = s.time := by simp [noSysref]
@[simp] theorem retryTimer_time (i s) : (retryTimer i s).time = s.time := by simp [retryTimer]
@[simp] theorem multiblockLock_time (i arrivals s) : (multiblockLock i arrivals s).time = s.time := by simp [multiblockLock]
@[simp] theorem laneLock_time (lane s) : (laneLock lane s).time = s.time := by
  unfold laneLock
  split <;> simp

@[simp] theorem crcLimit_time (lane errors s) : (crcLimit lane errors s).time = s.time := by
  unfold crcLimit
  split <;> simp

@[simp] theorem rxLate_time (i s) : (rxLate i s).time = s.time := by simp [rxLate]
@[simp] theorem statusPin_time (i s) : (statusPin i s).time = s.time := by simp [statusPin]
@[simp] theorem statusPinFell_time (pin s) : (statusPinFell pin s).time = s.time := by simp [statusPinFell]

/-! ### Clocks -/

@[simp] theorem timFault_time (s bit cls obj scope) : (timFault s bit cls obj scope).time = s.time := by simp [timFault]
/-- Lock makes device time ready and never the contrary. -/
theorem timePllLock_clock {s : State} (h : s.time.ready = true) :
    (timePllLock s).time.tick = s.time.tick ∧ (timePllLock s).time.ready = true := by
  unfold timePllLock
  dsimp only
  split
  · exact ⟨rfl, h⟩
  · exact ⟨rfl, rfl⟩

@[simp] theorem syncOutPulse_time (s) : (syncOutPulse s).time = s.time := by simp [syncOutPulse]
/-- Colony time is acquired only where device time is not ready: a SYNC edge moves no device time that is. -/
theorem syncInEdge_clock {s : State} (h : s.time.ready = true) :
    (syncInEdge s).time.tick = s.time.tick ∧ (syncInEdge s).time.ready = true := by
  simp only [syncInEdge, h, if_true]
  split
  · exact ⟨rfl, h⟩
  · split <;> simp [h]

@[simp] theorem syncMiss_time (s) : (syncMiss s).time = s.time := by simp [syncMiss]
@[simp] theorem decSyncConfig_time (log2 lat drive check s) : (decSyncConfig log2 lat drive check s).time = s.time := by
  simp [decSyncConfig]

@[simp] theorem ppsAccept_clock (t sec interval : Nat) (s : State) :
    (ppsAccept t sec interval s).time.tick = s.time.tick ∧ (ppsAccept t sec interval s).time.ready = s.time.ready := ⟨rfl, rfl⟩

@[simp] theorem ppsEdge_clock (sub : Nat) (s : State) :
    (ppsEdge sub s).time.tick = s.time.tick ∧ (ppsEdge sub s).time.ready = s.time.ready := by
  unfold ppsEdge
  dsimp only
  split
  · simp
  · split
    · simp
    · split <;> simp

@[simp] theorem ppsMissing_clock (s : State) :
    (ppsMissing s).time.tick = s.time.tick ∧ (ppsMissing s).time.ready = s.time.ready := by
  unfold ppsMissing
  split <;> simp

@[simp] theorem decTimePpsSet_clock (sec : Nat) (s : State) :
    (decTimePpsSet sec s).time.tick = s.time.tick ∧ (decTimePpsSet sec s).time.ready = s.time.ready := ⟨rfl, rfl⟩

/-- A new horizon leaves the tick. -/
@[simp] theorem setHorizon_clock (hor dec : Nat) (s : State) :
    (setHorizon hor dec s).time.tick = s.time.tick ∧ (setHorizon hor dec s).time.ready = s.time.ready := ⟨rfl, rfl⟩

@[simp] theorem decTimeHorizonSet_clock (hor dec : Nat) (s : State) :
    (decTimeHorizonSet hor dec s).time.tick = s.time.tick ∧ (decTimeHorizonSet hor dec s).time.ready = s.time.ready := by
  unfold decTimeHorizonSet
  split <;> simp

@[simp] theorem paceWrite_time (mv s) : (paceWrite mv s).time = s.time := by simp [paceWrite]
@[simp] theorem paceLink_time (s) : (paceLink s).time = s.time := by simp [paceLink]
@[simp] theorem noteWorst_time (s) : (noteWorst s).time = s.time := by
  unfold noteWorst
  split <;> simp

@[simp] theorem paceDecide_time (s) : (paceDecide s).time = s.time := by simp [paceDecide]
@[simp] theorem windowMeasures_time (hs s) : (windowMeasures hs s).time = s.time := by simp [windowMeasures]
@[simp] theorem paceWindowClose_time (vout statusFault hs s) : (paceWindowClose vout statusFault hs s).time = s.time := by
  simp [paceWindowClose]

@[simp] theorem fillAlarm_time (hive s) : (fillAlarm hive s).time = s.time := by simp [fillAlarm]
@[simp] theorem regulatorConfirm_time (vout s) : (regulatorConfirm vout s).time = s.time := by simp [regulatorConfirm]
@[simp] theorem paceHold_time (s) : (paceHold s).time = s.time := by simp [paceHold]
@[simp] theorem decPaceConfig_time (window margin fillG fillA floor ceiling up down s) :
    (decPaceConfig window margin fillG fillA floor ceiling up down s).time = s.time := by
  simp [decPaceConfig]

@[simp] theorem reflock_time (c s) : (reflock c s).time = s.time := by simp [reflock]
@[simp] theorem guardClose_time (d s) : (guardClose d s).time = s.time := by simp [guardClose]
@[simp] theorem guardOpenAt_time (d t s) : (guardOpenAt d t s).time = s.time := by simp [guardOpenAt]
@[simp] theorem domainLock_time (d s) : (domainLock d s).time = s.time := by simp [domainLock]
@[simp] theorem domUnlock_time (d s) : (domUnlock d s).time = s.time := by simp [domUnlock]
@[simp] theorem guardTrip_time (d s) : (guardTrip d s).time = s.time := by simp [guardTrip]
@[simp] theorem domRebase_time (d t s) : (domRebase d t s).time = s.time := by simp [domRebase]
@[simp] theorem linkLevels_time (d s) : (linkLevels d s).time = s.time := by simp [linkLevels]
@[simp] theorem decDomainSet_time (x d num den div ldiv lockN guard s) :
    (decDomainSet x d num den div ldiv lockN guard s).time = s.time := by
  simp [decDomainSet]

@[simp] theorem decDomainOff_time (d s) : (decDomainOff d s).time = s.time := by simp [decDomainOff]
@[simp] theorem decSysrefSet_time (d mode period count width delay dec s) :
    (decSysrefSet d mode period count width delay dec s).time = s.time := by
  simp [decSysrefSet]

@[simp] theorem sysrefPulse_time (d s) : (sysrefPulse d s).time = s.time := by simp [sysrefPulse]

/-! ### Journal -/

@[simp] theorem takeCkpt_time (s) : (takeCkpt s).time = s.time := by simp [takeCkpt]
@[simp] theorem journalFollow_time (s) : (journalFollow s).time = s.time := by simp [journalFollow]
@[simp] theorem checkpoint_time (s) : (checkpoint s).time = s.time := by simp [checkpoint]
@[simp] theorem decJnlConfig_time (base size mode period rxMask sigEn s) :
    (decJnlConfig base size mode period rxMask sigEn s).time = s.time := by
  simp [decJnlConfig]

@[simp] theorem decJnlStop_time (s) : (decJnlStop s).time = s.time := by simp [decJnlStop]
@[simp] theorem decJnlCkpt_time (x s) : (decJnlCkpt x s).time = s.time := by simp [decJnlCkpt]
@[simp] theorem decJnlExport_time (x first last dest s) : (decJnlExport x first last dest s).time = s.time := by
  unfold decJnlExport
  split <;> simp

@[simp] theorem jnlExportDone_time (ok s) : (jnlExportDone ok s).time = s.time := by
  unfold jnlExportDone
  (repeat' split) <;> simp

@[simp] theorem decJnlImport_time (x s) : (decJnlImport x s).time = s.time := by simp [decJnlImport]
@[simp] theorem jnlImportDone_time (ok s) : (jnlImportDone ok s).time = s.time := by
  unfold jnlImportDone
  (repeat' split) <;> simp

/-! ### Replay -/

@[simp] theorem resetUnits_time (s : State) : (resetUnits s).time = s.time := by
  unfold resetUnits
  dsimp only
  rw [bumpComb_time, forUp_time fun _ _ => modDmc_time .., foldl_time fun _ _ => putCap_time .., foldl_time fun _ _ => putQueue_time ..,
    foldl_time fun _ _ => putCell_time ..]

@[simp] theorem resetWaggle_time (s) : (resetWaggle s).time = s.time := by simp [resetWaggle]
@[simp] theorem resetAux_time (s : State) : (resetAux s).time = s.time :=
  forUp_time (fun _ _ => modAux_time ..) 64 0 s

@[simp] theorem loadSnap_time (p n s) : (loadSnap p n s).time = s.time := by simp [loadSnap]
@[simp] theorem checkDigest_time (s p) : (checkDigest s p).time = s.time := by
  unfold checkDigest
  split <;> simp

@[simp] theorem loadReplay_time (j k e txMask stopOn t s) : (loadReplay j k e txMask stopOn t s).time = s.time := by
  unfold loadReplay
  split <;> simp

@[simp] theorem leaveReplay_time (st s) : (leaveReplay st s).time = s.time := by simp [leaveReplay]

/-! ### Modes -/

@[simp] theorem resumeKeeper_time (s) : (resumeKeeper s).time = s.time := by simp [resumeKeeper]
@[simp] theorem endSession_time (s) : (endSession s).time = s.time := by simp [endSession]
@[simp] theorem stopUnits_time (t s) : (stopUnits t s).time = s.time := by simp [stopUnits]
@[simp] theorem enterMode_time (m t s) : (enterMode m t s).time = s.time := by simp [enterMode]
@[simp] theorem dropInjections_time (s) : (dropInjections s).time = s.time := by simp [dropInjections]
@[simp] theorem modeSeen_time (x s0 s) : (modeSeen x s0 s).time = s.time := by simp [modeSeen]
@[simp] theorem cancelPending_time (s0 s) : (cancelPending s0 s).time = s.time := by
  unfold cancelPending
  split <;> simp

@[simp] theorem noCalSet_time (s) : (noCalSet s).time = s.time := by simp [noCalSet]
@[simp] theorem endCalRun_time (s) : (endCalRun s).time = s.time := by
  unfold endCalRun
  split <;> simp

@[simp] theorem enterSafe_time (resetOnly cause t s) : (enterSafe resetOnly cause t s).time = s.time := by simp [enterSafe]
@[simp] theorem wakeBegin_time (t cause index s) : (wakeBegin t cause index s).time = s.time := by simp [wakeBegin]
@[simp] theorem wakeWait_time (t cause index s) : (wakeWait t cause index s).time = s.time := by simp [wakeWait]
@[simp] theorem wakeRename_time (t cause index s) : (wakeRename t cause index s).time = s.time := by simp [wakeRename]
@[simp] theorem wakeRequest_time (t cause index s) : (wakeRequest t cause index s).time = s.time := by simp [wakeRequest]
@[simp] theorem wakeLater_time (t cause index s) : (wakeLater t cause index s).time = s.time := by simp [wakeLater]
@[simp] theorem safeInStandby_time (resetOnly t cause s) : (safeInStandby resetOnly t cause s).time = s.time := by simp [safeInStandby]
@[simp] theorem safeNow_time (grave cause t s) : (safeNow grave cause t s).time = s.time := by
  unfold safeNow
  split <;> simp

@[simp] theorem safeEntry_time (grave cause t s) : (safeEntry grave cause t s).time = s.time := by simp [safeEntry]
@[simp] theorem safeComes_time (s) : (safeComes s).time = s.time := by simp [safeComes]
@[simp] theorem modeReturns_time (s) : (modeReturns s).time = s.time := by
  unfold modeReturns
  split <;> simp

@[simp] theorem dramDrain_time (s) : (dramDrain s).time = s.time := by simp [dramDrain]
@[simp] theorem enterStandby_time (target t s) : (enterStandby target t s).time = s.time := by simp [enterStandby]
@[simp] theorem changeMode_time (x target power stop k e tx s) : (changeMode x target power stop k e tx s).time = s.time := by
  unfold changeMode
  split <;> simp

@[simp] theorem simModeSet_time (target t s) : (simModeSet target t s).time = s.time := by
  unfold simModeSet
  split <;> simp

@[simp] theorem decModeSet_time (x target power stop k e tx s) : (decModeSet x target power stop k e tx s).time = s.time := by
  unfold decModeSet
  (repeat' split) <;> simp

@[simp] theorem mailboxesDown_time (warm s) : (mailboxesDown warm s).time = s.time := by simp [mailboxesDown]
@[simp] theorem abandonMem_time (s) : (abandonMem s).time = s.time := by simp [abandonMem]
@[simp] theorem keeperDown_time (img s) : (keeperDown img s).time = s.time := by simp [keeperDown]
@[simp] theorem keeperRestart_time (img s) : (keeperRestart img s).time = s.time := by simp [keeperRestart]
@[simp] theorem standbyEnd_time (s) : (standbyEnd s).time = s.time := by simp [standbyEnd]
@[simp] theorem warmReset_time (t s) : (warmReset t s).time = s.time := by simp [warmReset]
@[simp] theorem decWarmReset_time (x s) : (decWarmReset x s).time = s.time := by simp [decWarmReset]

/-! ### Faults -/

@[simp] theorem graveFault_time (o parity s) : (graveFault o parity s).time = s.time := by simp [graveFault]
@[simp] theorem detect_time (o s) : (detect o s).time = s.time := by simp [detect]
/-- The loss of the PLL's lock takes no readiness. -/
@[simp] theorem timeUnlock_clock (s : State) :
    (timeUnlock s).time.tick = s.time.tick ∧ (timeUnlock s).time.ready = s.time.ready := by
  unfold timeUnlock
  dsimp only
  split <;> simp

@[simp] theorem regParityCheck_time (b s) : (regParityCheck b s).time = s.time := by
  unfold regParityCheck
  split <;> simp

@[simp] theorem decFaultClear_time (x block mask rearm s) : (decFaultClear x block mask rearm s).time = s.time := by
  unfold decFaultClear
  split <;> simp

@[simp] theorem decFaultMaskSet_time (block mask s) : (decFaultMaskSet block mask s).time = s.time := by
  unfold decFaultMaskSet
  split <;> simp

@[simp] theorem decFaultEscSet_time (block window reaction s) : (decFaultEscSet block window reaction s).time = s.time := by
  unfold decFaultEscSet
  split <;> simp

@[simp] theorem decRestoreClear_time (mask s) : (decRestoreClear mask s).time = s.time := by simp [decRestoreClear]
@[simp] theorem reactionStop_time (c s) : (reactionStop c s).time = s.time := by simp [reactionStop]
@[simp] theorem localReaction_time (b f s) : (localReaction b f s).time = s.time := by simp [localReaction]
@[simp] theorem escalationDeadline_time (b s) : (escalationDeadline b s).time = s.time := by
  unfold escalationDeadline
  split <;> simp

@[simp] theorem routeParity_time (object s) : (routeParity object s).time = s.time := by simp [routeParity]
@[simp] theorem decFaultInject_time (kind block bit cls object count s) :
    (decFaultInject kind block bit cls object count s).time = s.time := by
  unfold decFaultInject
  (repeat' split) <;> simp

/-! ### Colony -/

@[simp] theorem colFault_time (bit cls obj s) : (colFault bit cls obj s).time = s.time := by simp [colFault]
@[simp] theorem frameErr_time (k event s) : (frameErr k event s).time = s.time := by simp [frameErr]
@[simp] theorem joinedNow_time (s) : (joinedNow s).time = s.time := by simp [joinedNow]
@[simp] theorem setPort_time (k st s) : (setPort k st s).time = s.time := by simp [setPort]
@[simp] theorem portUp_time (k s) : (portUp k s).time = s.time := by simp [portUp]
@[simp] theorem portDown_time (k s) : (portDown k s).time = s.time := by simp [portDown]
@[simp] theorem heardFrame_time (k crcOk s) : (heardFrame k crcOk s).time = s.time := by simp [heardFrame]
@[simp] theorem recvFrame_time {g : State → State} (hg : ∀ s, (g s).time = s.time) (k : Nat) (f : ColFrame) (ok event : Bool) (s : State) :
    (recvFrame k f ok event g s).time = s.time := by
  simp [recvFrame, hg]

/-- A frame received does no more to the clock than what it carries. -/
theorem recvFrame_clock {g : State → State} (hg : ∀ s, (g s).time.tick = s.time.tick ∧ (g s).time.ready = s.time.ready) (k : Nat)
    (f : ColFrame) (ok event : Bool) (s : State) :
    (recvFrame k f ok event g s).time.tick = s.time.tick ∧ (recvFrame k f ok event g s).time.ready = s.time.ready := by
  unfold recvFrame
  dsimp only
  (repeat' split) <;> simp [hg]

@[simp] theorem timeSettings_time (f s) : (timeSettings f s).time = s.time := by simp [timeSettings]
@[simp] theorem timeFrame_clock (f : ColFrame) (s : State) :
    (timeFrame f s).time.tick = s.time.tick ∧ (timeFrame f s).time.ready = s.time.ready := by
  unfold timeFrame
  dsimp only
  split
  · simp
  · split
    · simp
    · split <;> simp

@[simp] theorem joinFrame_time (f s) : (joinFrame f s).time = s.time := by simp [joinFrame]
@[simp] theorem horizonFrame_time (f s) : (horizonFrame f s).time = s.time := by simp [horizonFrame]
@[simp] theorem correctFrame_time (f s) : (correctFrame f s).time = s.time := by simp [correctFrame]
@[simp] theorem correctionSlewStep_time (s) : (correctionSlewStep s).time = s.time := by simp [correctionSlewStep]
@[simp] theorem delayRequest_time (f t2 s) : (delayRequest f t2 s).time = s.time := by simp [delayRequest]
@[simp] theorem delaysNow_time (s) : (delaysNow s).time = s.time := by simp [delaysNow]
@[simp] theorem sendCorrect_time (s k theta) : (sendCorrect s k theta).time = s.time := by simp [sendCorrect]
@[simp] theorem skewFails_time (r s) : (skewFails r s).time = s.time := by simp [skewFails]
@[simp] theorem skewCorrect_time (r s) : (skewCorrect r s).time = s.time := by simp [skewCorrect]
@[simp] theorem sendPulses_time (r s) : (sendPulses r s).time = s.time := by simp [sendPulses]
@[simp] theorem skewResidual_time (r : SkewRun) (s : State) : (skewResidual r s).time = s.time := by
  unfold skewResidual
  dsimp only
  rw [ite_time, ite_time, skewFails_time, sendPulses_time, delaysNow_time, foldl_time fun _ _ => modPort_time .., ite_self, ite_self]

@[simp] theorem skewAdvance_time (s) : (skewAdvance s).time = s.time := by
  unfold skewAdvance
  split <;> simp

@[simp] theorem skewBegin_time (exch : Nat) (lines : List Nat) (service : Bool) (s : State) :
    (skewBegin exch lines service s).time = s.time := by
  unfold skewBegin
  dsimp only
  rw [skewAdvance_time, skewAdvance_time, foldl_time fun _ _ => modPort_time ..]

@[simp] theorem acquired_time (k s) : (acquired k s).time = s.time := by simp [acquired]
@[simp] theorem delayResponse_time (k f t4 s) : (delayResponse k f t4 s).time = s.time := by simp [delayResponse]
@[simp] theorem statusFrame_time (k f s) : (statusFrame k f s).time = s.time := by simp [statusFrame]
@[simp] theorem swarmCal_time (f told s) : (swarmCal f told s).time = s.time := by simp [swarmCal]
@[simp] theorem stampPulse_time (l raw s) : (stampPulse l raw s).time = s.time := by simp [stampPulse]
@[simp] theorem decColSkewCal_time (x exchanges swlMask s) : (decColSkewCal x exchanges swlMask s).time = s.time := by
  simp [decColSkewCal]

@[simp] theorem skewEnd_time (ok s) : (skewEnd ok s).time = s.time := by simp [skewEnd]
@[simp] theorem colSkewCalDone_time (silent s) : (colSkewCalDone silent s).time = s.time := by
  unfold colSkewCalDone
  split <;> simp

@[simp] theorem swlUse_time (e mgr s) : (swlUse e mgr s).time = s.time := by simp [swlUse]
@[simp] theorem noteEdge_time (e s) : (noteEdge e s).time = s.time := by simp [noteEdge]
@[simp] theorem swlEdge_time (l level sub s0) : (swlEdge l level sub s0).time = s0.time := by simp [swlEdge]
@[simp] theorem swlAdjust_time (l bit cls s) : (swlAdjust l bit cls s).time = s.time := by simp [swlAdjust]
@[simp] theorem swarmLine_time (l level origin s) : (swarmLine l level origin s).time = s.time := by
  unfold swarmLine
  split <;> simp

@[simp] theorem dropEdge_time (s e) : (dropEdge s e).time = s.time := by simp [dropEdge]
@[simp] theorem swarmFrame_time (f s) : (swarmFrame f s).time = s.time := by simp [swarmFrame]
@[simp] theorem swarmReportTimeout_time (l s) : (swarmReportTimeout l s).time = s.time := by
  unfold swarmReportTimeout
  split <;> simp

@[simp] theorem swarmReports_time (s) : (swarmReports s).time = s.time := by simp [swarmReports]
@[simp] theorem eventFrame_time (f s) : (eventFrame f s).time = s.time := by simp [eventFrame]
@[simp] theorem fwdDrop_time (k f s) : (fwdDrop k f s).time = s.time := by simp [fwdDrop]
@[simp] theorem sendFrame_time (k o s) : (sendFrame k o s).time = s.time := by simp [sendFrame]
@[simp] theorem frameSlot_time (k s) : (frameSlot k s).time = s.time := by simp [frameSlot]
@[simp] theorem wakeFrame_time (f s) : (wakeFrame f s).time = s.time := by simp [wakeFrame]
@[simp] theorem decColConfig_time (starMask swlLead s) : (decColConfig starMask swlLead s).time = s.time := by simp [decColConfig]
@[simp] theorem decColClear_time (mask : DWord) (s : State) : (decColClear mask s).time = s.time := by
  unfold decColClear
  dsimp only
  exact forUp_time (fun _ _ => modPort_time ..) 64 0 _

@[simp] theorem decColWake_time (mask wakeTick s) : (decColWake mask wakeTick s).time = s.time := by simp [decColWake]

/-! ### Power -/

@[simp] theorem spdFault_time (bit cls obj s) : (spdFault bit cls obj s).time = s.time := by simp [spdFault]
@[simp] theorem pwrEntry_time (s) : (pwrEntry s).time = s.time := by simp [pwrEntry]
@[simp] theorem wakeTickDue_time (s) : (wakeTickDue s).time = s.time := by
  unfold wakeTickDue
  dsimp only
  (repeat' split) <;> simp

@[simp] theorem banksBack_time (s) : (banksBack s).time = s.time := by simp [banksBack]
@[simp] theorem wakeReply_time (safe x s) : (wakeReply safe x s).time = s.time := by simp [wakeReply]
@[simp] theorem wakeComplete_time (s) : (wakeComplete s).time = s.time := by
  unfold wakeComplete
  (repeat' split) <;> simp

@[simp] theorem combLost_time (s) : (combLost s).time = s.time := by simp [combLost]
@[simp] theorem retainLoss_time (s) : (retainLoss s).time = s.time := by simp [retainLoss]
@[simp] theorem evpWake_time (pin level s) : (evpWake pin level s).time = s.time := by simp [evpWake]
@[simp] theorem decWakeSet_time (evp swl colony wakeTick s) : (decWakeSet evp swl colony wakeTick s).time = s.time := by
  simp [decWakeSet]

@[simp] theorem decCtxSet_time (k enable secure s) : (decCtxSet k enable secure s).time = s.time := by simp [decCtxSet]
@[simp] theorem ownOne_time (kind o i s) : (ownOne kind o i s).time = s.time := by simp [ownOne]
@[simp] theorem decOwnSet_time (kind first count owner secure s) : (decOwnSet kind first count owner secure s).time = s.time := by
  simp [decOwnSet]

@[simp] theorem decOwnRead_time (x kind first count s) : (decOwnRead x kind first count s).time = s.time := by simp [decOwnRead]
@[simp] theorem decLcAdvance_time (x target confirm s) : (decLcAdvance x target confirm s).time = s.time := by
  unfold decLcAdvance
  (repeat' split) <;> simp

@[simp] theorem returnedErase_time (s) : (returnedErase s).time = s.time := by simp [returnedErase]
@[simp] theorem lcAdvanceDone_time (s) : (lcAdvanceDone s).time = s.time := by
  unfold lcAdvanceDone
  split <;> simp

@[simp] theorem openSession_time (level until_ s) : (openSession level until_ s).time = s.time := by simp [openSession]
@[simp] theorem decDbgOpen_time (level s) : (decDbgOpen level s).time = s.time := by simp [decDbgOpen]
@[simp] theorem authFail_time (ctx s) : (authFail ctx s).time = s.time := by simp [authFail]
@[simp] theorem decDbgResponse_time (x resp sessionMin s) : (decDbgResponse x resp sessionMin s).time = s.time := by
  unfold decDbgResponse
  split <;> simp

@[simp] theorem decDbgClose_time (s) : (decDbgClose s).time = s.time := by simp [decDbgClose]
@[simp] theorem decDbgTraceRead_time (x count s) : (decDbgTraceRead x count s).time = s.time := by simp [decDbgTraceRead]
@[simp] theorem sessionExpiry_time (s) : (sessionExpiry s).time = s.time := by
  unfold sessionExpiry
  split <;> simp

@[simp] theorem nonceExpiry_time (s) : (nonceExpiry s).time = s.time := by
  unfold nonceExpiry
  split <;> simp

@[simp] theorem authLockExpiry_time (s) : (authLockExpiry s).time = s.time := by
  unfold authLockExpiry
  split <;> simp

@[simp] theorem debugHalt_time (s) : (debugHalt s).time = s.time := by simp [debugHalt]
@[simp] theorem debugResume_time (s) : (debugResume s).time = s.time := by simp [debugResume]
@[simp] theorem scratchWrite_time {done : State → State} (hd : ∀ s, (done s).time = s.time) (addr : Nat) (data : List Byte) (s : State) :
    (scratchWrite addr data done s).time = s.time := by
  simp [scratchWrite, hd]

@[simp] theorem dbgWrite_time (space addr data s) : (dbgWrite space addr data s).time = s.time := by
  unfold dbgWrite
  (repeat' split) <;> simp

@[simp] theorem jtagLoad_time (i s) : (jtagLoad i s).time = s.time := by
  unfold jtagLoad
  split <;> simp

@[simp] theorem tapReset_time (s) : (tapReset s).time = s.time := by simp [tapReset]

/-! ### Calibration -/

@[simp] theorem bgsFault_time (bit cls obj s) : (bgsFault bit cls obj s).time = s.time := by simp [bgsFault]
@[simp] theorem loadAux_time (a s) : (loadAux a s).time = s.time := by simp [loadAux]
@[simp] theorem loadClearCodes_time (s) : (loadClearCodes s).time = s.time := by simp [loadClearCodes]
@[simp] theorem calLoadDone_time (s) : (calLoadDone s).time = s.time := by simp [calLoadDone]
@[simp] theorem beginPut_time (s x) : (beginPut s x).time = s.time := by simp [beginPut]
@[simp] theorem decCalWrite_time (x s) : (decCalWrite x s).time = s.time := by simp [decCalWrite]
@[simp] theorem decCalErase_time (x s) : (decCalErase x s).time = s.time := by simp [decCalErase]
@[simp] theorem appendRecord_time (kind index payload s) : (appendRecord kind index payload s).time = s.time := by simp [appendRecord]
@[simp] theorem applySlot_time (c num s) : (applySlot c num s).time = s.time := by simp [applySlot]
@[simp] theorem calApply_time (kind index apply : Nat) (s : State) : (calApply kind index apply s).1.time = s.time := by
  unfold calApply
  dsimp only
  split
  · split
    · split <;> simp
    · rfl
  · simp
  · rfl

@[simp] theorem noteWear_time (s) : (noteWear s).time = s.time := by simp [noteWear]
@[simp] theorem calRecordProgrammed_time (ok : Bool) (s : State) : (calRecordProgrammed ok s).time = s.time := by
  unfold calRecordProgrammed
  split
  · rfl
  · split
    · rfl
    · simp

@[simp] theorem skewUnanswered_time (s) : (skewUnanswered s).time = s.time := by
  unfold skewUnanswered
  split <;> simp

@[simp] theorem skewService_time (exch s) : (skewService exch s).time = s.time := by simp [skewService]
@[simp] theorem decCalStart_time (x items cells lanes auxs s) : (decCalStart x items cells lanes auxs s).time = s.time := by
  simp [decCalStart]

@[simp] theorem eyeService_time (m s) : (eyeService m s).time = s.time := by
  unfold eyeService
  split <;> simp

@[simp] theorem calFigures_time (r s) : (calFigures r s).time = s.time := by simp [calFigures]
@[simp] theorem calRunComplete_time (r s) : (calRunComplete r s).time = s.time := by
  unfold calRunComplete
  split <;> simp

/-! ### Queues -/

@[simp] theorem decQueueOpen_time (c q ringBase sizeLog2 mode tail bufBase bufCount s) :
    (decQueueOpen c q ringBase sizeLog2 mode tail bufBase bufCount s).time = s.time := by
  simp [decQueueOpen]

@[simp] theorem decQueueStatus_time (x c q s) : (decQueueStatus x c q s).time = s.time := by simp [decQueueStatus]
@[simp] theorem discardBlocks_time (i s) : (discardBlocks i s).time = s.time := by simp [discardBlocks]
@[simp] theorem decQueueClose_time (x c q s) : (decQueueClose x c q s).time = s.time := by simp [decQueueClose]
@[simp] theorem decQueueFlush_time (x c q s) : (decQueueFlush x c q s).time = s.time := by simp [decQueueFlush]
@[simp] theorem pqmFault_time (s bit cls i acc master) : (pqmFault s bit cls i acc master).time = s.time := by simp [pqmFault]
@[simp] theorem doorbellWrite_time (ctx offset width value s) : (doorbellWrite ctx offset width value s).time = s.time := by
  simp [doorbellWrite]

@[simp] theorem doorbellApply_time (s) : (doorbellApply s).time = s.time := by
  unfold doorbellApply
  split <;> simp

@[simp] theorem refillFail_time (i err s) : (refillFail i err s).time = s.time := by simp [refillFail]
@[simp] theorem crcFetched_time (i s) : (crcFetched i s).time = s.time := by simp [crcFetched]
@[simp] theorem requestBlock_time (i n : Nat) (s : State) : (requestBlock i n s).time = s.time := by
  induction n generalizing s with
  | zero => rfl
  | succ n ih =>
    unfold requestBlock
    dsimp only
    split
    · rfl
    · split
      · simp
      · split <;> simp [ih]

@[simp] theorem refillIssue_time (hive s) : (refillIssue hive s).time = s.time := by
  unfold refillIssue
  dsimp only
  (repeat' split) <;> simp

@[simp] theorem refillTook_time (i addr lat s) : (refillTook i addr lat s).time = s.time := by simp [refillTook]
@[simp] theorem blockResident_time (c q buf s) : (blockResident c q buf s).time = s.time := by
  unfold blockResident
  dsimp only
  split <;> simp

/-! ### Services -/

@[simp] theorem decBgsSet_time (groom eye skew endurance s) : (decBgsSet groom eye skew endurance s).time = s.time := by
  simp [decBgsSet]

@[simp] theorem decTelemRead_time (x first count s) : (decTelemRead x first count s).time = s.time := by simp [decTelemRead]
@[simp] theorem noteTelem_time (i v s) : (noteTelem i v s).time = s.time := by simp [noteTelem]
@[simp] theorem noteHottest_time (s) : (noteHottest s).time = s.time := by simp [noteHottest]
@[simp] theorem noteSupply_time (i v lo hi s) : (noteSupply i v lo hi s).time = s.time := by simp [noteSupply]
@[simp] theorem telemetrySample_time (i v s) : (telemetrySample i v s).time = s.time := by
  unfold telemetrySample
  (repeat' split) <;> simp

@[simp] theorem keepRemaps_time (index s) : (keepRemaps index s).time = s.time := by simp [keepRemaps]
@[simp] theorem groomLost_time (g s) : (groomLost g s).time = s.time := by simp [groomLost]
@[simp] theorem groomInner_time (scr granule fails restorable s) : (groomInner scr granule fails restorable s).time = s.time := by
  simp [groomInner]

@[simp] theorem groomBank_time (hive bank granule fails restorable s0) :
    (groomBank hive bank granule fails restorable s0).time = s0.time := by
  simp [groomBank]

@[simp] theorem groomGranule_time (hive bank granule fails restorable s) :
    (groomGranule hive bank granule fails restorable s).time = s.time := by
  simp [groomGranule]

@[simp] theorem eyeCheck_time (m s) : (eyeCheck m s).time = s.time := by simp [eyeCheck]
@[simp] theorem skewCheck_time (exchanges s) : (skewCheck exchanges s).time = s.time := by simp [skewCheck]
@[simp] theorem flashCompaction_time (store fits maxErase s) : (flashCompaction store fits maxErase s).time = s.time := by
  simp [flashCompaction]

@[simp] theorem scratchHalt_time (s) : (scratchHalt s).time = s.time := by simp [scratchHalt]
@[simp] theorem shadowAudit_time (l s) : (shadowAudit l s).time = s.time := by simp [shadowAudit]

/-! ### Start -/

@[simp] theorem combBankCleared_time (hive catchBank s) : (combBankCleared hive catchBank s).time = s.time := by simp [combBankCleared]
@[simp] theorem flashReady_time (s) : (flashReady s).time = s.time := by simp [flashReady]
@[simp] theorem kprFault_time (bit cls obj s) : (kprFault bit cls obj s).time = s.time := by simp [kprFault]
@[simp] theorem fieldMaps_time (s) : (fieldMaps s).time = s.time := by simp [fieldMaps]
@[simp] theorem scratchLoaded_time (s) : (scratchLoaded s).time = s.time := by simp [scratchLoaded]
@[simp] theorem keeperUp_time (s) : (keeperUp s).time = s.time := by
  unfold keeperUp
  dsimp only
  split <;> simp

@[simp] theorem keeperStart_time (s) : (keeperStart s).time = s.time := by simp [keeperStart]
@[simp] theorem owedReplies_time (s : State) : (owedReplies s).time = s.time := by
  refine foldl_time (fun u p => ?_) s.mailboxes s
  split <;> simp

@[simp] theorem keeperRestartDone_time (s) : (keeperRestartDone s).time = s.time := by simp [keeperRestartDone]
@[simp] theorem wdog_time (s) : (wdog s).time = s.time := by simp [wdog]
@[simp] theorem firmwareError_time (s) : (firmwareError s).time = s.time := by simp [firmwareError]
@[simp] theorem pciePerst_time (s) : (pciePerst s).time = s.time := by simp [pciePerst]
@[simp] theorem pcieDown_time (s) : (pcieDown s).time = s.time := by simp [pcieDown]
/-- A tick of a live block is one tick of device time, whatever falls due at it. -/
theorem tick_time {s : State} (h : alive s = true) : (tick s).time = { s.time with tick := s.time.tick + 1 } := by
  unfold tick
  dsimp only
  rw [if_neg (by simp [h]), settle_time]
  split <;> split <;> simp [tickOver_time h]

/-! ### KeeperCmds -/

@[simp] theorem retainBanks_time (s) : (retainBanks s).time = s.time := by simp [retainBanks]
@[simp] theorem freezeWindow_time (s) : (freezeWindow s).time = s.time := by simp [freezeWindow]
@[simp] theorem standbyEntryDone_time (s) : (standbyEntryDone s).time = s.time := by
  unfold standbyEntryDone
  dsimp only
  (repeat' split) <;> simp

@[simp] theorem decReadyRead_time (x s) : (decReadyRead x s).time = s.time := by simp [decReadyRead]
@[simp] theorem decWindowRead_time (x offset count s) : (decWindowRead x offset count s).time = s.time := by simp [decWindowRead]
@[simp] theorem decKeeperRestart_time (x image s) : (decKeeperRestart x image s).time = s.time := by simp [decKeeperRestart]
@[simp] theorem decHostSet_time (spiMask noticeCh restartCh s) : (decHostSet spiMask noticeCh restartCh s).time = s.time := by
  simp [decHostSet]

@[simp] theorem decBulkWindowSet_time (x base s) : (decBulkWindowSet x base s).time = s.time := by simp [decBulkWindowSet]
@[simp] theorem modImg_time (s i f) : (modImg s i f).time = s.time := by simp [modImg]
@[simp] theorem decFwStage_time (x image size s) : (decFwStage x image size s).time = s.time := by simp [decFwStage]
@[simp] theorem flashFailed_time (x op s) : (flashFailed x op s).time = s.time := by simp [flashFailed]
@[simp] theorem flashEraseDone_time (ok s) : (flashEraseDone ok s).time = s.time := by
  unfold flashEraseDone
  (repeat' split) <;> simp

@[simp] theorem decFwData_time (x image offset count s) : (decFwData x image offset count s).time = s.time := by
  unfold decFwData
  split <;> simp

@[simp] theorem fwProgramDone_time (ok s) : (fwProgramDone ok s).time = s.time := by
  unfold fwProgramDone
  (repeat' split) <;> simp

@[simp] theorem decFwVerify_time (x image s) : (decFwVerify x image s).time = s.time := by simp [decFwVerify]
@[simp] theorem fwVerifyDone_time (verdict s) : (fwVerifyDone verdict s).time = s.time := by
  unfold fwVerifyDone
  (repeat' split) <;> simp

@[simp] theorem decFwSelect_time (image s) : (decFwSelect image s).time = s.time := by simp [decFwSelect]
@[simp] theorem decFwCommit_time (x s) : (decFwCommit x s).time = s.time := by simp [decFwCommit]
@[simp] theorem fwCommitDone_time (ok s) : (fwCommitDone ok s).time = s.time := by
  unfold fwCommitDone
  split <;> simp

/-! ### Tunnel -/

@[simp] theorem decColTunnel_time (x device path frame s) : (decColTunnel x device path frame s).time = s.time := by
  simp [decColTunnel]

@[simp] theorem tunnelReply_time (reply s) : (tunnelReply reply s).time = s.time := by
  unfold tunnelReply
  split <;> simp

@[simp] theorem tunnelTimeout_time (s) : (tunnelTimeout s).time = s.time := by
  unfold tunnelTimeout
  split <;> simp

/-! ### Host -/

/-- What a command does at its acceptance leaves device time, whatever the command. -/
theorem specOf_onAccept_time {s : State} {c : Instr} {h : Hdr} {p : CSpec} (hs : specOf c s = some (h, p)) (u : State) :
    (p.onAccept u).time = u.time := by
  cases c
  case modeSet =>
    cases hs
    unfold specModeSet
    dsimp only
    split
    · split <;> simp
    · rfl
  case cellArm => cases hs; exact armAccept_time ..
  case capArm => cases hs; exact capAccept_time ..
  case timeHorizonSet =>
    cases hs
    unfold specTimeHorizonSet
    simp
  case wagClear => cases hs; unfold specWagClear; dsimp only; split <;> rfl
  all_goals
    cases hs
  all_goals rfl

@[simp] theorem takeCommand_time (f : Frame) (data : List Byte) (s : State) : (takeCommand f data s).time = s.time := by
  unfold takeCommand
  split
  · simp
  · dsimp only
    split
    · simp
    next hs =>
      have hr := (specOf_onReject hs).time
      have ha := specOf_onAccept_time hs
      rw [judge_time]
      · split <;> exact hr
      · split <;> exact ha

@[simp] theorem firstFrame_time (ctx mb fr s) : (firstFrame ctx mb fr s).time = s.time := by
  unfold firstFrame
  dsimp only
  (repeat' split) <;> simp

@[simp] theorem nextFrame_time (ctx mb a fr s) : (nextFrame ctx mb a fr s).time = s.time := by simp [nextFrame]
@[simp] theorem takeFrame_time (ctx mb fr s) : (takeFrame ctx mb fr s).time = s.time := by
  unfold takeFrame
  (repeat' split) <;> simp

@[simp] theorem post_time (ctx mb s) : (post ctx mb s).time = s.time := by simp [post]
@[simp] theorem ack_time (ctx mb : Nat) (s : State) : (Machine.ack ctx mb s).time = s.time := by
  unfold Machine.ack
  dsimp only
  split
  · rfl
  · simp

@[simp] theorem mbReset_time (ctx mb s) : (mbReset ctx mb s).time = s.time := by simp [mbReset]
@[simp] theorem frameTimeout_time (ctx mb s) : (frameTimeout ctx mb s).time = s.time := by
  unfold frameTimeout
  split <;> simp

@[simp] theorem clearIrq_time (k s) : (clearIrq k s).time = s.time := by simp [clearIrq]
@[simp] theorem ctxIrqStatusRead_time (k s) : (ctxIrqStatusRead k s).time = s.time := by simp [ctxIrqStatusRead]
@[simp] theorem hostFault_time (bit cls obj master acc s) : (hostFault bit cls obj master acc s).time = s.time := by simp [hostFault]
@[simp] theorem illegalConfig_time (master s) : (illegalConfig master s).time = s.time := by simp [illegalConfig]
@[simp] theorem mbCtrl_time (k m v master s) : (mbCtrl k m v master s).time = s.time := by simp [mbCtrl]
@[simp] theorem pageByteWrite_time (k master r b s) : (pageByteWrite k master r b s).time = s.time := by simp [pageByteWrite]
@[simp] theorem pageWrite_time (k master off : Nat) (data : List Byte) (whole : Bool) (s : State) :
    (pageWrite k master off data whole s).time = s.time := by
  unfold pageWrite
  dsimp only
  rw [foldl_time, foldl_time fun _ _ => pageByteWrite_time ..]
  intro u m
  split <;> simp

@[simp] theorem unmask_time (v s) : (unmask v s).time = s.time := by simp [unmask]
@[simp] theorem msixByte_time (o b s) : (msixByte o b s).time = s.time := by simp [msixByte]
theorem msixBytes_time (n : Nat) (data : List Byte) (l : List Nat) (s : State) :
    (l.foldl (fun s i => msixByte (n + i) (data.getD i 0) s) s).time = s.time :=
  foldl_time (fun _ _ => msixByte_time ..) l s

@[simp] theorem registerWrite_time (off : Nat) (data : List Byte) (s : State) : (registerWrite off data s).time = s.time := by
  rw [registerWrite, ite_time, ite_time, pageWrite_time, msixBytes_time, ite_self, ite_self]

/-- A read of device time latches its upper half. -/
@[simp] theorem windowReadHost_clock (o : Nat) (s : State) :
    (windowReadHost o s).time.tick = s.time.tick ∧ (windowReadHost o s).time.ready = s.time.ready := ⟨rfl, rfl⟩

@[simp] theorem devtimeLatchRead_clock (s : State) :
    (devtimeLatchRead s).time.tick = s.time.tick ∧ (devtimeLatchRead s).time.ready = s.time.ready := ⟨rfl, rfl⟩

@[simp] theorem bulkWrite_time (off data s) : (bulkWrite off data s).time = s.time := by
  unfold bulkWrite
  split <;> simp

@[simp] theorem bulkRead_time (off n s) : (bulkRead off n s).time = s.time := by
  unfold bulkRead
  split <;> simp

@[simp] theorem spiSeen_time (s) : (spiSeen s).time = s.time := by simp [spiSeen]
@[simp] theorem spiWrite_time (instr addr data s) : (spiWrite instr addr data s).time = s.time := by simp [spiWrite]
@[simp] theorem spiRead_time (addr n s) : (spiRead addr n s).time = s.time := by simp [spiRead]
@[simp] theorem spiIrqRead_time (s) : (spiIrqRead s).time = s.time := by simp [spiIrqRead]
@[simp] theorem spiId_time (s) : (spiId s).time = s.time := by simp [spiId]

/-! ### TunnelFrames -/

@[simp] theorem takeTunnelled_time (path fr s) : (takeTunnelled path fr s).time = s.time := by simp [takeTunnelled]
@[simp] theorem frameArrived_time (path reply fr s) : (frameArrived path reply fr s).time = s.time := by simp [frameArrived]
@[simp] theorem collect_time (k path size i total reply data s) : (collect k path size i total reply data s).time = s.time := by
  simp [collect]

@[simp] theorem tunnelFrame_time (k f s) : (tunnelFrame k f s).time = s.time := by simp [tunnelFrame]
@[simp] theorem enumerate_time (hops s) : (enumerate hops s).time = s.time := by simp [enumerate]
@[simp] theorem chainOn_time (k f s) : (chainOn k f s).time = s.time := by simp [chainOn]
@[simp] theorem chainFrame_time (k f s) : (chainFrame k f s).time = s.time := by simp [chainFrame]

/-! ### Decide -/

@[simp] theorem skipCells_time (x s) : (skipCells x s).time = s.time := by simp [skipCells]
@[simp] theorem decideCmd_clock (x : Held) (s : State) :
    (decideCmd x s).time.tick = s.time.tick ∧ (decideCmd x s).time.ready = s.time.ready := by
  unfold decideCmd
  split <;> simp

@[simp] theorem decideHeld_clock (x : Held) (s : State) :
    (decideHeld x s).time.tick = s.time.tick ∧ (decideHeld x s).time.ready = s.time.ready := by
  unfold decideHeld
  split <;> simp

@[simp] theorem commandDecision_clock (s : State) :
    (commandDecision s).time.tick = s.time.tick ∧ (commandDecision s).time.ready = s.time.ready := by
  unfold commandDecision
  split
  · simp
  · split <;> simp

/-! ### ReplayRows -/

@[simp] theorem replayStart_time (s) : (replayStart s).time = s.time := by simp [replayStart]
@[simp] theorem replayCmd_time (dec ctx : Nat) (i : Instr) (s : State) : (replayCmd dec ctx i s).time = s.time := by
  unfold replayCmd
  split
  · rfl
  next hs => simp [specOf_onAccept_time hs]

@[simp] theorem notReproFrom_time (c s) : (notReproFrom c s).time = s.time := by simp [notReproFrom]
@[simp] theorem replayDoorbell_time (queue tail ps s) : (replayDoorbell queue tail ps s).time = s.time := by simp [replayDoorbell]
@[simp] theorem replayEdge_time (p ev s) : (replayEdge p ev s).time = s.time := by simp [replayEdge]
@[simp] theorem replayInject_time (ev s) : (replayInject ev s).time = s.time := by simp [replayInject]
@[simp] theorem domEach_time {f : Nat → State → State} (hf : ∀ c s, (f c s).time = s.time) (d : Nat) (p : CellSt → Bool) (s : State) :
    (domEach d p f s).time = s.time := by
  simp [domEach, hf]

@[simp] theorem unlockCell_time (c s) : (unlockCell c s).time = s.time := by simp [unlockCell]
@[simp] theorem replayDomain_time (d new s) : (replayDomain d new s).time = s.time := by simp [replayDomain]
@[simp] theorem replayState_time (kind index new cause s) : (replayState kind index new cause s).time = s.time := by
  unfold replayState
  split <;> simp

@[simp] theorem replayApply_replayEdgeless_time (ev s) : (replayApply.replayEdgeless ev s).time = s.time := by
  simp [replayApply.replayEdgeless]

@[simp] theorem replayApply_time (e s) : (replayApply e s).time = s.time := by
  unfold replayApply
  split <;> simp

@[simp] theorem replayEntry_time (s) : (replayEntry s).time = s.time := by
  unfold replayEntry
  (repeat' split) <;> simp

@[simp] theorem replayOver_time (st t s) : (replayOver st t s).time = s.time := by simp [replayOver]
@[simp] theorem replayEnd_time (s) : (replayEnd s).time = s.time := by
  unfold replayEnd
  (repeat' split) <;> simp

/-! ### Commands -/

/-- An effect that leaves the tick and the readiness of device time leaves them, whether its unit is there or not. -/
theorem actOn_keeps_clock {s t : State} {b : Bool} {f : State → State} (hf : (f s).time.tick = s.time.tick ∧ (f s).time.ready = true)
    (hr : s.time.ready = true) (h : actOn b s f = .next t) : t.time.tick = s.time.tick ∧ t.time.ready = true := by
  unfold actOn act at h
  (repeat' split at h) <;> cases h
  · rwa [settle_time]
  · exact ⟨rfl, hr⟩

theorem exec_keeps_clock {s t : State} {c : Instr} {f : State → State} (hc : exec c s = actOn (unitHere s c) s f)
    (hf : (f s).time.tick = s.time.tick ∧ (f s).time.ready = true) (hr : s.time.ready = true) (h : exec c s = .next t) :
    t.time.tick = s.time.tick ∧ t.time.ready = true :=
  actOn_keeps_clock hf hr (hc.symm.trans h)

/-- A Berza command leaves device time: what it sets takes effect at its decision. -/
theorem exec_berza_keeps_clock {s t : State} {c : Instr} {h : Hdr} {p : CSpec} (hs : specOf c s = some (h, p))
    (hr : s.time.ready = true) (hx : exec c s = .next t) : t.time.tick = s.time.tick ∧ t.time.ready = true := by
  have htime := submit_time (specOf_onReject hs).time (specOf_onAccept_time hs) h c s
  rw [exec_berza c hs] at hx
  exact actOn_keeps_clock (f := submit h c p) (by simp [htime, hr]) hr hx

/-- No command but those of the supplies and RESET_N moves device time that is ready, or takes its readiness (R31). -/
theorem exec_clock {s t : State} {c : Instr} (hr : s.time.ready = true) (hp : powerRow c = false) (h : exec c s = .next t) :
    t.time.tick = s.time.tick ∧ t.time.ready = true := by
  cases hs : specOf c s with
  | some hq => exact exec_berza_keeps_clock hs hr h
  | none =>
    cases c
    case powerOn | powerOff | resetNAssert | resetNRelease => cases hp
    case timePllLock => exact exec_keeps_clock rfl (timePllLock_clock hr) hr h
    case syncInEdge => exact exec_keeps_clock rfl (syncInEdge_clock hr) hr h
    case timeFrame => exact exec_keeps_clock rfl (by simp [recvFrame_clock (timeFrame_clock _), hr]) hr h
    all_goals cases hs
    all_goals exact exec_keeps_clock rfl (by simp [hr]) hr h

/-- Settles O54: no effect of a command writes the tick or takes the readiness, and a step on an empty queue of a live block is one
tick. -/
theorem deviceTimeNeverSteps : Obligations.DeviceTimeNeverSteps := by
  unfold Obligations.DeviceTimeNeverSteps
  refine ⟨fun s c t => exec_clock, fun s t hr ha hq h => ?_⟩
  rw [step, hq] at h
  cases h
  rw [tick_time ha]
  exact ⟨rfl, hr⟩

end Sys2Proof.Arch

/-! Which accepted command is decided first (R38, R60, R62). -/

namespace Sys2Proof.Arch

open Sys2Proof Sys2Proof.Machine Sys2Proof.Safety Sys2Proof.Laws Sys2Proof.Scope

variable {s : State} {x : Held}

/-! ### The order of the commands held -/

theorem heldBefore_iff (a b : Held) : heldBefore a b = true ↔
    a.dec < b.dec ∨ a.dec = b.dec ∧ (rank a.cmd < rank b.cmd ∨ rank a.cmd = rank b.cmd ∧ a.serial < b.serial) := by
  simp [heldBefore]

theorem not_heldBefore_self (a : Held) : heldBefore a a = false := by
  rw [← Bool.not_eq_true, heldBefore_iff]
  omega

theorem heldBefore_asymm {a b : Held} (h : heldBefore a b = true) : heldBefore b a = false := by
  rw [← Bool.not_eq_true, heldBefore_iff]
  rw [heldBefore_iff] at h
  omega

/-- What nothing precedes is not preceded where what it precedes was not. -/
theorem not_heldBefore_trans {a b c : Held} (h : heldBefore a b = false) (h' : heldBefore b c = false) : heldBefore a c = false := by
  rw [← Bool.not_eq_true, heldBefore_iff] at *
  omega

theorem firstHeld_isSome {l : List Held} (h : x ∈ l) : (firstHeld l).isSome = true := by
  cases l with
  | nil => cases h
  | cons z l =>
    unfold firstHeld
    split
    · rfl
    · split <;> rfl

/-- The command found first is held, and none held comes before it. -/
theorem firstHeld_first {l : List Held} (h : firstHeld l = some x) : x ∈ l ∧ ∀ y ∈ l, heldBefore y x = false := by
  induction l generalizing x with
  | nil => cases h
  | cons z l ih =>
    unfold firstHeld at h
    split at h
    next hl =>
      cases h
      have hnil : l = [] := List.eq_nil_iff_forall_not_mem.mpr fun y hy => by simpa [hl] using firstHeld_isSome hy
      simp [hnil, not_heldBefore_self]
    next w hl =>
      obtain ⟨hw, hmin⟩ := ih hl
      split at h
      next hwz =>
        cases h
        refine ⟨.tail _ hw, fun y hy => ?_⟩
        rcases List.mem_cons.mp hy with rfl | hy
        · exact heldBefore_asymm hwz
        · exact hmin y hy
      next hwz =>
        cases h
        refine ⟨.head _, fun y hy => ?_⟩
        rcases List.mem_cons.mp hy with rfl | hy
        · exact not_heldBefore_self _
        · exact not_heldBefore_trans (hmin y hy) (by simpa using hwz)

/-! ### Decisions that do not come yet -/

theorem completes_of_no_decision (hl : Live s) (h : commandDecision s = s) : Completes .commandDecision s (SameBut [] s) := by
  refine Completes.of_act (f := commandDecision) hl.alive rfl ?_
  rw [h]
  exact settle_same s s

/-- Settles O58: the first command held is the least in the order of tick, rank and acceptance, and it is decided only when its tick has
come and nothing is left to happen before it. -/
theorem decisionOrder : Obligations.DecisionOrder := by
  unfold Obligations.DecisionOrder
  refine ⟨fun _ _ => firstHeld_first, fun _ _ => firstHeld_isSome, fun s hl hf => ?_, fun s x hl hf hd => ?_, fun s x hl hf hw => ?_,
    fun a b h => ?_, ?_⟩
  · exact completes_of_no_decision hl (by simp [commandDecision, hf])
  · exact completes_of_no_decision hl (by simp [commandDecision, hf, hd])
  · exact completes_of_no_decision hl (by simp [commandDecision, hf, hw])
  · have hab : heldBefore a b = true := (heldBefore_iff a b).mpr (.inl h)
    exact ⟨hab, heldBefore_asymm hab⟩
  · rintro a b h c hdec ha ⟨g, k, hb⟩
    rw [heldBefore_iff, ha, hb]
    exact .inr ⟨hdec, .inl (by simp [rank])⟩

end Sys2Proof.Arch

/-! What a restart of the keeper and a warm reset leave of the keeper, and the stages of a tick (R20, R30, R317, R425). -/

namespace Sys2Proof.Arch

open Sys2Proof Sys2Proof.Machine Sys2Proof.Safety Sys2Proof.Laws Sys2Proof.Scope

/-! ### The keeper under the stages of a reset -/

@[simp] theorem ite_kpr (p : Prop) [Decidable p] (s t : State) : (if p then s else t).kpr = if p then s.kpr else t.kpr :=
  apply_ite State.kpr p s t

@[simp] theorem foldl_kpr {β : Type} {f : State → β → State} (h : ∀ s b, (f s b).kpr = s.kpr) (l : List β) (s : State) :
    (l.foldl f s).kpr = s.kpr :=
  foldl_view State.kpr h l s

@[simp] theorem forUp_kpr {f : Nat → State → State} (h : ∀ i s, (f i s).kpr = s.kpr) (n i : Nat) (s : State) :
    (forUp f n i s).kpr = s.kpr :=
  forUp_keeps (P := fun u => u.kpr = s.kpr) (fun i u hu => (h i u).trans hu) n i rfl

@[simp] theorem tunnelOut_kpr (port dir dest src rank frees frame s) :
    (tunnelOut port dir dest src rank frees frame s).kpr = s.kpr := by
  simp [tunnelOut]

@[simp] theorem writeReply_kpr (s ctx mb r0) : (writeReply s ctx mb r0).kpr = s.kpr := by
  unfold writeReply
  split <;> simp

@[simp] theorem answer_kpr (s ctx mb op seq st unit dec res) : (answer s ctx mb op seq st unit dec res).kpr = s.kpr := by
  simp [answer]

@[simp] theorem finish_kpr (s x op unit st res) : (finish s x op unit st res).kpr = s.kpr := by simp [finish]
@[simp] theorem endWork_kpr (s x) : (endWork s x).kpr = s.kpr := by simp [endWork]
@[simp] theorem bumpComb_kpr (s hs) : (bumpComb s hs).kpr = s.kpr := by simp [bumpComb]
@[simp] theorem deactivate_kpr (s areas) : (deactivate s areas).kpr = s.kpr := by simp [deactivate]
@[simp] theorem dmcChanFault_kpr (s bit cls c) : (dmcChanFault s bit cls c).kpr = s.kpr := by simp [dmcChanFault]
@[simp] theorem queueEntry_kpr (c e s) : (queueEntry c e s).kpr = s.kpr := by simp [queueEntry]
@[simp] theorem queuePieces_kpr (e a data ps s) : (queuePieces e a data ps s).kpr = s.kpr := by simp [queuePieces]
@[simp] theorem flushed_kpr (i s) : (flushed i s).kpr = s.kpr := by simp [flushed]
@[simp] theorem closed_kpr (i s) : (closed i s).kpr = s.kpr := by simp [closed]
@[simp] theorem queueWork_kpr (i s) : (queueWork i s).kpr = s.kpr := by
  unfold queueWork
  (repeat' split) <;> simp

@[simp] theorem failQueue_kpr (i err s) : (failQueue i err s).kpr = s.kpr := by simp [failQueue]
@[simp] theorem dropBlock_kpr (i b s) : (dropBlock i b s).kpr = s.kpr := by simp [dropBlock]
@[simp] theorem offlineQueue_kpr (i s) : (offlineQueue i s).kpr = s.kpr := by simp [offlineQueue]
@[simp] theorem endDramCmd_kpr (x e img s) : (endDramCmd x e img s).kpr = s.kpr := by
  unfold endDramCmd
  split <;> simp

@[simp] theorem endBulk_kpr (id e img s) : (endBulk id e img s).kpr = s.kpr := by
  unfold endBulk
  split <;> simp

@[simp] theorem endHost_kpr (e err img s) : (endHost e err img s).kpr = s.kpr := by
  unfold endHost
  (repeat' split) <;> simp

@[simp] theorem placeHost_kpr (master id a len rd data s) : (placeHost master id a len rd data s).kpr = s.kpr := by simp [placeHost]
@[simp] theorem placeHosts_kpr (s) : (placeHosts s).kpr = s.kpr := by
  unfold placeHosts
  dsimp only
  rw [foldl_kpr fun u o => placeHost_kpr .., foldl_kpr]
  intro u x
  split <;> simp

@[simp] theorem startTraining_kpr (c kind s) : (startTraining c kind s).kpr = s.kpr := by simp [startTraining]
@[simp] theorem inService_kpr (c s) : (inService c s).kpr = s.kpr := by simp [inService]
@[simp] theorem placeBlock_kpr (i b s) : (placeBlock i b s).kpr = s.kpr := by simp [placeBlock]
@[simp] theorem placeOne_kpr (i b s) : (placeOne i b s).kpr = s.kpr := by simp [placeOne]
@[simp] theorem placeWaiting_kpr (s) : (placeWaiting s).kpr = s.kpr := by simp [placeWaiting]
@[simp] theorem dmcWake_kpr (s) : (dmcWake s).kpr = s.kpr := by simp [dmcWake]
@[simp] theorem bumpWag_kpr (s) : (bumpWag s).kpr = s.kpr := by simp [bumpWag]
@[simp] theorem paceWrite_kpr (mv s) : (paceWrite mv s).kpr = s.kpr := by simp [paceWrite]
@[simp] theorem resetUnits_kpr (s) : (resetUnits s).kpr = s.kpr := by
  unfold resetUnits
  dsimp only
  rw [bumpComb_kpr, forUp_kpr fun _ _ => modDmc_kpr .., foldl_kpr fun _ _ => putCap_kpr .., foldl_kpr fun _ _ => putQueue_kpr ..,
    foldl_kpr fun _ _ => putCell_kpr ..]

@[simp] theorem resetWaggle_kpr (s) : (resetWaggle s).kpr = s.kpr := by simp [resetWaggle]
@[simp] theorem resetAux_kpr (s) : (resetAux s).kpr = s.kpr :=
  forUp_kpr (fun _ _ => modAux_kpr ..) 64 0 s

@[simp] theorem leaveReplay_kpr (st s) : (leaveReplay st s).kpr = s.kpr := by simp [leaveReplay]
@[simp] theorem noCalSet_kpr (s) : (noCalSet s).kpr = s.kpr := by simp [noCalSet]
@[simp] theorem endCalRun_kpr (s) : (endCalRun s).kpr = s.kpr := by
  unfold endCalRun
  split <;> simp

@[simp] theorem wakeBegin_kpr (t cause index s) : (wakeBegin t cause index s).kpr = s.kpr := by simp [wakeBegin]
@[simp] theorem mailboxesDown_kpr (warm s) : (mailboxesDown warm s).kpr = s.kpr := by simp [mailboxesDown]
@[simp] theorem abandonMem_kpr (s) : (abandonMem s).kpr = s.kpr := by simp [abandonMem]
@[simp] theorem standbyEnd_kpr (s) : (standbyEnd s).kpr = s.kpr := by simp [standbyEnd]

/-! ### Stages of a reset -/

theorem resetUnits_same (s : State) :
    SameBut [.cells, .queues, .hives, .caps, .dmcs, .jnl, .active, .doorbells, .inner] s (resetUnits s) := by
  unfold resetUnits
  extract_lets hs s1 s2 s3 s4 hv i
  have h1 : SameBut [.cells] s s1 :=
    .foldl (fun (u : State) (p : Nat × Cell) => modCell_same u p.1 fun _ => { epoch := (cellAt u p.1).epoch }) _ _
  have h2 : SameBut [.queues, .hives] s1 s2 :=
    .foldl (fun (u : State) (p : Nat × Queue) => modQueue_same u p.1 fun _ => { epoch := p.2.epoch }) _ _
  have h3 : SameBut [.caps] s2 s3 := .foldl (fun (u : State) (p : Nat × Cap) => putCap_same u p.1 { epoch := p.2.epoch }) _ _
  have h4 : SameBut [.dmcs, .jnl] s3 s4 := .forUp (fun c u => modDmc_same u c _) 4 0 _
  have h5 (u : State) (a : Tab Nat) (d : List Doorbell) (h : Tab Hive) (i : Inner) :
      SameBut [.active, .doorbells, .hives, .inner] u { u with active := a, doorbells := d, hives := h, inner := i } :=
    ⟨fun p hp => by cases p <;> simp_all [Part.Same, ctxAt]⟩
  exact (((((h1.andThen h2).andThen h3).andThen h4).andThen (h5 ..)).andThen (bumpComb_same ..)).mono (by decide)

theorem resetWaggle_same (s : State) :
    SameBut [.chans, .tasks, .counters, .timers, .pins, .hops, .col, .wagEpoch] s (resetWaggle s) :=
  ⟨fun p hp => by cases p <;> simp_all [Part.Same, ctxAt, resetWaggle, bumpWag]⟩

theorem resetAux_same (s : State) : SameBut [.auxs] s (resetAux s) := .forUp (fun _ u => set_auxs_same u _) 64 0 s

theorem resumeKeeper_same (s : State) : SameBut [.kpr, .sec, .jnl] s (resumeKeeper s) := by
  unfold resumeKeeper
  split
  · exact .refl _ s
  · have hset (u : State) (k : Keeper) (x : Security) : SameBut [.kpr, .sec] u { u with kpr := k, sec := x } :=
      ⟨fun p hp => by cases p <;> simp_all [Part.Same, ctxAt]⟩
    exact ((jput_same ..).andThen (hset ..)).mono (by decide)

theorem endSession_same (s : State) : SameBut [.kpr, .sec, .jnl] s (endSession s) :=
  (resumeKeeper_same s).trans ((SameBut.mono (l := [.sec])
    ⟨fun p hp => by cases p <;> simp_all [Part.Same, ctxAt, endSession]⟩ (by decide)))

/-- The end of a debug session gives back a halted keeper, and is nothing else to it. -/
theorem endSession_kpr (s : State) : (endSession s).kpr = { s.kpr with ready := (endSession s).kpr.ready } := by
  simp only [endSession, resumeKeeper]
  split <;> simp

theorem kpr_not_mem_modeParts (old m : Mode) : Part.kpr ∉ modeParts old m := by
  cases old <;> cases m <;> decide

theorem held_not_mem_modeParts (old m : Mode) : Part.held ∉ modeParts old m := by
  cases old <;> cases m <;> decide

theorem works_not_mem_modeParts (old m : Mode) : Part.works ∉ modeParts old m := by
  cases old <;> cases m <;> decide

theorem enterMode_kpr (m : Mode) (t : Nat) (s : State) : Part.kpr.Same s (enterMode m t s) :=
  (enterMode_same m t s).same .kpr (kpr_not_mem_modeParts _ _)

/-! ### Restarts (R317, R425) -/

/-- What a restart of the keeper writes of it. -/
theorem keeperRestart_kpr (img : Nat) (s : State) : (keeperRestart img s).kpr = { s.kpr with
    ready := false, pmbus := false, st := 3, restarts := sat 0xFF s.kpr.restarts, restartAt := none, restartImg := img } := by
  have hdown : (endSession (abandonMem (mailboxesDown false (dropInjections s)))).kpr =
      { s.kpr with ready := (endSession (abandonMem (mailboxesDown false (dropInjections s)))).kpr.ready } := by
    rw [endSession_kpr]
    simp [dropInjections]
  simp only [keeperRestart, keeperDown, restoreMark]
  rw [hdown]

/-- A run of replay or of calibration ends at a warm reset, and units that play stop (R20, R425). -/
def resetStops (t : Nat) (s : State) : State :=
  let s1 := if s.md.mode = .replay then leaveReplay 5 s else if s.md.mode = .calibrate then endCalRun s else s
  if playsIn s1.md.mode then stopUnits t s1 else s1

/-- Mailboxes, injections and STANDBY end. -/
def resetDown (t : Nat) (s : State) : State := standbyEnd (mailboxesDown true (dropInjections (resetStops t s)))

/-- Nothing waits any more, and every unit and the debug session have been reset. -/
def resetCleared (s : State) : State :=
  endSession (resetAux (resetWaggle (resetUnits { s with held := [], works := [], col := { s.col with run := none, calLines := [] } })))

/-- RESET_ONLY ends with a warm reset (R20). -/
def endResetOnly (s : State) : State := { s with md := { s.md with resetOnly := false } }

theorem warmReset_eq (t : Nat) (s : State) : warmReset t s =
    restoreMark 3 [4, 11, 12, 13, 17, 18, 19, 26] (keeperDown 0 (endResetOnly (enterMode .bringUp t (resetCleared (resetDown t s))))) := by
  unfold warmReset endResetOnly resetCleared resetDown resetStops
  dsimp only

/-- A part of the keeper's that a frame keeps, but for its epochs. -/
theorem kpr_eq_of_same {s t : State} (h : Part.kpr.Same s t) : ∃ a b, t.kpr = { s.kpr with readyEpoch := a, epoch := b } := ⟨_, _, h⟩

theorem resetDown_resetAt (t : Nat) (s : State) : (resetDown t s).kpr.resetAt = s.kpr.resetAt := by
  have hstop (u : State) : (stopUnits t u).kpr.resetAt = u.kpr.resetAt := by
    obtain ⟨_, _, hk⟩ := kpr_eq_of_same ((stopUnits_same t u).same .kpr (by decide))
    rw [hk]
  have hruns : (resetStops t s).kpr.resetAt = s.kpr.resetAt := by
    unfold resetStops
    dsimp only
    (repeat' split) <;> simp [hstop]
  simpa [resetDown, dropInjections] using hruns

/-- What the units' reset leaves of the commands that wait and of the keeper. -/
theorem resetCleared_keeps (s : State) :
    (resetCleared s).held = [] ∧ (resetCleared s).works = [] ∧ (resetCleared s).kpr.resetAt = s.kpr.resetAt := by
  unfold resetCleared
  generalize hu : ({ s with held := [], works := [], col := { s.col with run := none, calLines := [] } } : State) = u
  have hall := (((resetUnits_same u).andThen (resetWaggle_same _)).andThen (resetAux_same _)).andThen (endSession_same _)
  refine ⟨(hall.same .held (by decide)).trans (by rw [← hu]), (hall.same .works (by decide)).trans (by rw [← hu]), ?_⟩
  rw [endSession_kpr]
  simp [← hu]

/-- What a warm reset leaves: the device in BRING-UP, its keeper restarting, and nothing that waits. -/
theorem warmReset_leaves (t : Nat) (s : State) :
    (warmReset t s).md.mode = .bringUp ∧ (warmReset t s).kpr.st = 3 ∧ (warmReset t s).kpr.ready = false ∧
      (warmReset t s).kpr.resetAt = s.kpr.resetAt ∧ (warmReset t s).held = [] ∧ (warmReset t s).works = [] := by
  rw [warmReset_eq, ← resetDown_resetAt t s]
  generalize resetDown t s = u
  obtain ⟨hheld, hworks, hreset⟩ := resetCleared_keeps u
  generalize resetCleared u = v at hheld hworks hreset ⊢
  have hmode := enterMode_same .bringUp t v
  obtain ⟨_, _, hk⟩ := kpr_eq_of_same (enterMode_kpr .bringUp t v)
  have hm := hmode.mode (md_not_mem_modeParts _ _)
  have hh := hmode.same .held (held_not_mem_modeParts _ _)
  have hw := hmode.same .works (works_not_mem_modeParts _ _)
  simp only [Part.Same] at hh hw
  generalize enterMode .bringUp t v = w at hm hh hw hk ⊢
  simp only [restoreMark, keeperDown, endResetOnly, true_and]
  exact ⟨hm, by rw [hk, hreset], hh.trans hheld, hw.trans hworks⟩

/-! ### A tick (R20, R30, R317, R425) -/

/-- One tick of device time later. -/
def ticked (s : State) : State := { s with time := { s.time with tick := s.time.tick + 1 } }

/-- A restart of the keeper that has fallen due begins. -/
def restartComes (s : State) : State :=
  match s.kpr.restartAt with
  | some t => if t ≤ s.time.tick then keeperRestart s.kpr.restartImg s else s
  | none => s

/-- A warm reset that has fallen due begins. -/
def resetComes (s : State) : State :=
  match s.kpr.resetAt with
  | some t => if t ≤ s.time.tick then warmReset s.time.tick { s with kpr := { s.kpr with resetAt := none } } else s
  | none => s

variable {s : State}

theorem tickOver_eq (h : alive s = true) : tickOver s = ticked s := if_pos h

theorem tick_stages (h : alive s = true) :
    tick s = settle s (resetComes (modeReturns (restartComes (safeComes (ticked s))))) := by
  rw [← tickOver_eq h]
  exact if_neg (by simp [h])

theorem safeComes_of_none_due (h : ∀ d ∈ s.grave.due, s.time.tick < d.1) : safeComes s = s := by
  have hdue (d : Nat × Bool × Nat) (hd : d ∈ s.grave.due) : safeDue d.1 s = false := by
    simp [safeDue, Nat.not_le.mpr (h d hd)]
  have hnow : s.grave.due.filter (fun d => safeDue d.1 s) = [] := List.filter_eq_nil_iff.mpr fun d hd => by simp [hdue d hd]
  have hlater : s.grave.due.filter (fun d => !safeDue d.1 s) = s.grave.due := List.filter_eq_self.mpr fun d hd => by simp [hdue d hd]
  simp only [safeComes, hnow, hlater]
  rfl

theorem restartComes_of_not_due (h : ∀ r, s.kpr.restartAt = some r → s.time.tick < r) : restartComes s = s := by
  unfold restartComes
  split
  next hr => exact if_neg (Nat.not_le.mpr (h _ hr))
  · rfl

theorem restartComes_due {r : Nat} (hr : s.kpr.restartAt = some r) (h : r ≤ s.time.tick) :
    restartComes s = keeperRestart s.kpr.restartImg s := by
  simp [restartComes, hr, h]

theorem resetComes_of_not_due (h : ∀ r, s.kpr.resetAt = some r → s.time.tick < r) : resetComes s = s := by
  unfold resetComes
  split
  next hr => exact if_neg (Nat.not_le.mpr (h _ hr))
  · rfl

theorem resetComes_due {r : Nat} (hr : s.kpr.resetAt = some r) (h : r ≤ s.time.tick) :
    resetComes s = warmReset s.time.tick { s with kpr := { s.kpr with resetAt := none } } := by
  simp [resetComes, hr, h]

theorem modeReturns_of_not_due (h : ∀ n, s.md.leave = some n → s.time.tick < n) : modeReturns s = s := by
  unfold modeReturns
  split
  · rfl
  next hn => exact if_pos (h _ hn)

/-- The origin mode follows a calibration run that has ended. -/
theorem modeReturns_calibrate {n : Nat} (hm : s.md.mode = .calibrate) (hn : s.md.leave = some n) (h : n ≤ s.time.tick) :
    modeReturns s = enterMode s.md.origin n (noCalSet s) := by
  simp [modeReturns, hn, hm, Nat.not_lt.mpr h]

/-- The mode that follows a run is nothing to the keeper. -/
theorem modeReturns_kpr (s : State) : Part.kpr.Same s (modeReturns s) := by
  unfold modeReturns
  split
  · exact Part.same_refl ..
  · split
    · exact Part.same_refl ..
    · split
      · exact enterMode_kpr _ _ (noCalSet s)
      · split
        · exact enterMode_kpr ..
        · exact (set_md_same s _).same .kpr (by decide)

theorem settle_keeper (s0 u : State) : Part.kpr.Same u (settle s0 u) := (settle_same s0 u).same .kpr (by simp)

theorem step_of_empty_queue (h : s.pending = []) : step s = .next (tick s) := by
  rw [step, h]

theorem tick_off (h : alive s = false) : tick s = s := by
  simp only [alive] at h
  simp [tick, alive, tickOver, h]

/-- A tick at which no entry to SAFE falls due. -/
theorem tick_no_safe (ha : alive s = true) (hsafe : ∀ d ∈ s.grave.due, s.time.tick + 1 < d.1) :
    tick s = settle s (resetComes (modeReturns (restartComes (ticked s)))) := by
  rw [tick_stages ha, safeComes_of_none_due hsafe]

/-- Settles O48: the stages of a tick in turn, each of them idle where nothing falls due. -/
theorem idleStepTicks : Obligations.IdleStepTicks := by
  unfold Obligations.IdleStepTicks
  refine ⟨fun s hq ha => ?_, fun s hq ha hsafe hrestart hreset hleave => ?_, fun s r hq ha hsafe hrestart hr hreset => ?_,
    fun s r hq ha hsafe hrestart hreset hr => ?_, fun s n hq ha hsafe hrestart hreset hm hleave hn => ?_⟩
  · rw [step_of_empty_queue hq, tick_off ha]
  · refine ⟨_, step_of_empty_queue hq, ?_⟩
    rw [tick_no_safe ha hsafe, restartComes_of_not_due (s := ticked s) hrestart, modeReturns_of_not_due (s := ticked s) hleave,
      resetComes_of_not_due (s := ticked s) hreset]
    exact settle_same ..
  · refine ⟨_, step_of_empty_queue hq, tick_time ha, ?_⟩
    rw [tick_no_safe ha hsafe, restartComes_due (s := ticked s) hrestart hr]
    have hdown := keeperRestart_kpr s.kpr.restartImg (ticked s)
    obtain ⟨_, _, hkept⟩ := kpr_eq_of_same (modeReturns_kpr (keeperRestart s.kpr.restartImg (ticked s)))
    rw [hdown] at hkept
    rw [show (ticked s).kpr.restartImg = s.kpr.restartImg from rfl]
    generalize modeReturns (keeperRestart s.kpr.restartImg (ticked s)) = u at hkept ⊢
    rw [resetComes_of_not_due (by simp [hkept, ticked, hreset])]
    obtain ⟨_, _, hset⟩ := kpr_eq_of_same (settle_keeper s u)
    rw [hset, hkept]
    exact ⟨rfl, rfl, rfl, rfl, rfl⟩
  · refine ⟨_, step_of_empty_queue hq, congrArg TimeUnit.tick (tick_time ha), ?_⟩
    rw [tick_no_safe ha hsafe, restartComes_of_not_due (s := ticked s) (by simp [ticked, hrestart])]
    obtain ⟨_, _, hkept⟩ := kpr_eq_of_same (modeReturns_kpr (ticked s))
    have htime := modeReturns_time (ticked s)
    generalize modeReturns (ticked s) = u at hkept htime ⊢
    rw [resetComes_due (r := r) (by rw [hkept]; exact hreset) (by rw [htime]; exact hr)]
    obtain ⟨hmode, hst, hready, hat, hheld, hworks⟩ :=
      warmReset_leaves u.time.tick { u with kpr := { u.kpr with resetAt := none } }
    generalize warmReset u.time.tick { u with kpr := { u.kpr with resetAt := none } } = v at hmode hst hready hat hheld hworks ⊢
    have hsame := settle_same s v
    obtain ⟨_, _, hset⟩ := kpr_eq_of_same (settle_keeper s v)
    exact ⟨(hsame.mode (by simp)).trans hmode, by rw [hset]; exact hst, by rw [hset]; exact hready, by rw [hset]; exact hat,
      (hsame.same .held (by simp)).trans hheld, (hsame.same .works (by simp)).trans hworks⟩
  · refine ⟨_, step_of_empty_queue hq, congrArg TimeUnit.tick (tick_time ha), ?_⟩
    rw [tick_no_safe ha hsafe, restartComes_of_not_due (s := ticked s) (by simp [ticked, hrestart]),
      modeReturns_calibrate (s := ticked s) hm hleave hn]
    have hmode := enterMode_same s.md.origin n (noCalSet (ticked s))
    obtain ⟨_, _, hkept⟩ := kpr_eq_of_same (enterMode_kpr s.md.origin n (noCalSet (ticked s)))
    have hmd := hmode.md (md_not_mem_modeParts _ _)
    rw [show (ticked s).md.origin = s.md.origin from rfl]
    generalize enterMode s.md.origin n (noCalSet (ticked s)) = u at hmd hkept ⊢
    rw [resetComes_of_not_due (by rw [hkept]; simp [noCalSet, ticked, hreset])]
    have hset := (settle_same s u).md (by simp)
    rw [hset, hmd]
    exact ⟨rfl, hm, rfl, rfl⟩

end Sys2Proof.Arch

/-! Rate domains: what is read after one is written, and what closing or opening a guard can change (R232 to R235). -/

namespace Sys2Proof.Arch

open Sys2Proof Sys2Proof.Machine Sys2Proof.Safety Sys2Proof.Laws Sys2Proof.Scope

variable {s t : State} {d e : Nat}

/-! ### Domains read and written -/

theorem set_domains_same (s : State) (x : Tab Domain) : SameBut [.domains] s { s with domains := x } :=
  ⟨fun p hp => by cases p <;> simp_all [Part.Same, ctxAt]⟩

theorem modDom_same (s : State) (d : Nat) (f : Domain → Domain) : SameBut [.domains] s (modDom s d f) := set_domains_same s _

theorem domAt_of_same {l : List Part} (h : SameBut l s t) (hl : Part.domains ∉ l) (d : Nat) : domAt t d = domAt s d := by
  have hd : t.domains = s.domains := h.same .domains hl
  rw [domAt, domAt, hd]

theorem domAt_modDom_other (h : e ≠ d) (f : Domain → Domain) (s : State) : domAt (modDom s d f) e = domAt s e :=
  tget_tset_other _ _ h _

/-- A domain is written but for its epoch. -/
theorem putDom_domains (s : State) (d : Nat) (x : Domain) : ∃ n, (putDom s d x).domains = tset {} s.domains d { x with epoch := n } := by
  unfold putDom
  dsimp only
  split
  · exact ⟨x.epoch, rfl⟩
  · exact ⟨_, rfl⟩

/-- A domain changed reads as changed, but for its epoch. -/
theorem domAt_modDom (hw : twf {} s.domains = true) (d : Nat) (f : Domain → Domain) :
    ∃ n, domAt (modDom s d f) d = { f (domAt s d) with epoch := n } := by
  obtain ⟨n, hput⟩ := putDom_domains s d (f (domAt s d))
  exact ⟨n, by rw [modDom, domAt, hput]; exact tget_tset_same hw d _⟩

theorem modDom_twf (hw : twf {} s.domains = true) (d : Nat) (f : Domain → Domain) : twf {} (modDom s d f).domains = true :=
  twf_tset hw d _

/-! ### Cells that a closing guard stops -/

/-- Closing a signature changes its cell, the journal and the signatures that replay compares. -/
theorem sigClose_cell_same (c : Nat) (s : State) : SameBut [.cells, .jnl, .rpl] s (sigClose c s) := by
  unfold sigClose
  extract_lets x g pieces crc s1
  have h1 : SameBut [.cells] s s1 := set_cells_same s _
  split
  · exact .refl _ s
  · split
    · split
      · exact h1.mono (by decide)
      · extract_lets s2
        have h2 : SameBut [.cells, .jnl, .rpl] s s2 := (h1.andThen (set_rpl_same s1 _)).mono (by decide)
        split
        · split
          · exact h2
          · exact h2.trans ((replayMismatch_same ..).mono (by decide))
        · exact h2
    · exact (h1.andThen (jput_same ..)).mono (by decide)

theorem reflock_same (c : Nat) (s : State) : SameBut [.cells, .jnl, .rpl, .hives, .active] s (reflock c s) := by
  have hends := ((endGap_same c s).andThen (endLate_same c _)).andThen (sigClose_cell_same c _)
  exact ((hends.andThen (modCell_same _ c _)).andThen (releaseTable_same ..)).mono (by decide)

theorem reflock_other {c j : Nat} (hj : j ≠ c) (s : State) : cellAt (reflock c s) j = cellAt s j := by
  unfold reflock
  dsimp only
  rw [cellAt_of_same (releaseTable_same ..) (by decide), modCell_other hj, sigClose_other hj, endLate_other hj, endGap_other hj]

theorem reflock_st (c : Nat) (s : State) : (cellAt (reflock c s) c).st = .reflock := by
  unfold reflock
  dsimp only
  rw [cellAt_of_same (releaseTable_same ..) (by decide)]
  exact putCell_st _ (by simp)

/-! ### A guard closes -/

/-- Parts that a closing guard changes: its domain, the cells that played by it with their hives' source tables, and the links, which
follow it. -/
def guardParts : List Part := [.active, .cells, .domains, .hives, .jnl, .links, .rpl, .rxLanes]

theorem linksFollow_links (s : State) : SameBut [.links, .jnl, .rxLanes] s (linksFollow s) := by
  have h := linksFollow_same s
  split at h
  · exact h
  · exact h.mono (by decide)

/-- The cells that played by a guard stop. -/
def guardStops (d : Nat) (s : State) : State :=
  s.cells.foldl (fun s c => if c.2.domain = d && playing c.2.st then reflock c.1 s else s) s

theorem guardStops_same (d : Nat) (s : State) : SameBut [.cells, .jnl, .rpl, .hives, .active] s (guardStops d s) :=
  .foldl (fun _ _ => .ite (fun _ => reflock_same ..) (fun _ => .refl _ _)) s.cells s

/-- What a guard has closed for: its cells and links follow. -/
def guardFollows (d : Nat) (s : State) : State := linksFollow (guardStops d s)

theorem guardClose_eq (d : Nat) (s : State) :
    guardClose d s = guardFollows d (modDom s d fun x => { x with guardOpen := false, srRise := none }) := rfl

theorem guardFollows_same (d : Nat) (s : State) :
    SameBut [.active, .cells, .hives, .jnl, .links, .rpl, .rxLanes] s (guardFollows d s) :=
  ((guardStops_same d s).andThen (linksFollow_links _)).mono (by decide)

theorem guardClose_same (d : Nat) (s : State) : SameBut guardParts s (guardClose d s) :=
  ((modDom_same s d _).andThen (guardFollows_same d _)).mono (by decide)

/-- A closed guard reads closed, with its domain's settings as they were. -/
theorem domAt_guardClose (hw : twf {} s.domains = true) (d : Nat) :
    ∃ n, domAt (guardClose d s) d = { domAt s d with guardOpen := false, srRise := none, epoch := n } := by
  rw [guardClose_eq, domAt_of_same (guardFollows_same d _) (by decide)]
  exact domAt_modDom hw d _

theorem domAt_guardClose_other (h : e ≠ d) (s : State) : domAt (guardClose d s) e = domAt s e := by
  rw [guardClose_eq, domAt_of_same (guardFollows_same d _) (by decide), domAt_modDom_other h]

/-- A cell plays. -/
def cellPlaying (s : State) (j : Nat) : Prop := playing (cellAt s j).st = true

theorem guardFollows_stops {j : Nat} (h : cellPlaying (guardFollows d s) j) : cellPlaying s j ∧ (cellAt s j).domain ≠ d := by
  have hstop (c : Nat) (u : State) (j : Nat) (hp : cellPlaying (reflock c u) j) : j ≠ c ∧ cellPlaying u j := by
    by_cases hj : j = c
    · subst hj
      simp [cellPlaying, reflock_st, playing] at hp
    · exact ⟨hj, by rwa [cellPlaying, reflock_other hj] at hp⟩
  rw [cellPlaying, guardFollows, cellAt_of_same (linksFollow_links _) (by decide)] at h
  obtain ⟨hs, hl⟩ := foldl_stops (live := cellPlaying) (hit := fun x : Cell => (x.domain = d && playing x.st) = true) hstop _ h
  have hplay : playing (cellAt s j).st = true := hs
  refine ⟨hs, fun hd => hl (cellAt s j) (mem_of_tget_ne (d := ({} : Cell)) fun he => ?_) (by simpa [hd] using hplay)⟩
  rw [cellAt, he] at hplay
  simp [playing] at hplay

/-- No cell of the domain plays once its guard has closed. -/
theorem guardClose_stops {j : Nat} (h : cellPlaying (guardClose d s) j) : cellPlaying s j ∧ (cellAt s j).domain ≠ d := by
  rw [guardClose_eq] at h
  have hstops := guardFollows_stops h
  rwa [cellPlaying, cellAt_of_same (modDom_same s d _) (by decide)] at hstops

/-! ### A guard opens -/

/-- A cell leaves its domain's lock: it is BOUND where it waited, at its first edge. -/
theorem releaseArm_cell_same (c : Nat) (s : State) : SameBut [.cells, .active, .hives, .queues, .inner] s (releaseArm c s) := by
  unfold releaseArm
  dsimp only
  split
  · exact .refl _ s
  · exact ((set_cells_same s _).andThen (releaseAreas_same ..)).mono (by decide)

/-- What an open guard lets run: its cells and links follow. -/
def guardRuns (d t : Nat) (s : State) : State :=
  linksFollow (s.cells.foldl (fun s c =>
    if c.2.domain = d && c.2.st ≠ .off then
      let s3 := if c.2.st = .reflock then modCell (releaseArm c.1 s) c.1 fun x => { x with st := .bound } else s
      modCell s3 c.1 (skipTo s3 t)
    else s) s)

theorem guardOpenAt_eq (d t : Nat) (s : State) :
    guardOpenAt d t s = guardRuns d t (modDom s d fun x => { x with guardOpen := true, trip := false }) := rfl

/-- What an open guard does with a cell of its domain. -/
theorem guardRuns_cell_same (d t : Nat) (u : State) (c : Nat × Cell) : SameBut [.cells, .active, .hives, .queues, .inner] u
    (if c.2.domain = d && c.2.st ≠ .off then
      let s3 := if c.2.st = .reflock then modCell (releaseArm c.1 u) c.1 fun x => { x with st := .bound } else u
      modCell s3 c.1 (skipTo s3 t)
    else u) := by
  have hbound : SameBut [.cells, .active, .hives, .queues, .inner] u
      (if c.2.st = .reflock then modCell (releaseArm c.1 u) c.1 fun x => { x with st := .bound } else u) :=
    .ite (fun _ => ((releaseArm_cell_same ..).andThen (modCell_same ..)).mono (by decide)) (fun _ => .refl _ u)
  split
  · exact (hbound.andThen (modCell_same ..)).mono (by decide)
  · exact .refl _ u

theorem guardRuns_same (d t : Nat) (s : State) :
    SameBut [.active, .cells, .hives, .inner, .jnl, .links, .queues, .rxLanes] s (guardRuns d t s) :=
  ((SameBut.foldl (guardRuns_cell_same d t) s.cells s).andThen (linksFollow_links _)).mono (by decide)

end Sys2Proof.Arch

/-! Units changed one after another by their numbers, and links read after they are written (R274, R276). -/

namespace Sys2Proof.Arch

open Sys2Proof Sys2Proof.Machine Sys2Proof.Safety Sys2Proof.Laws Sys2Proof.Scope

section

variable {β : Type} {get : State → Nat → β} {f : Nat → State → State} {P : State → Prop} {k : Nat}

/-- A unit that a run over other numbers does not come to is as it was. -/
theorem forUp_other (hother : ∀ i s k, k ≠ i → get (f i s) k = get s k) (n i : Nat) (s : State) (hk : k < i ∨ i + n ≤ k) :
    get (forUp f n i s) k = get s k := by
  induction n generalizing i s with
  | zero => rfl
  | succ n ih => rw [forUp, ih (i + 1) (f i s) (by omega), hother i s k (by omega)]

/-- A run over units that changes each in its turn leaves a unit as its own turn does, and finds it as it was. -/
theorem forUp_at (hf : ∀ i s, P s → P (f i s)) (hother : ∀ i s k, k ≠ i → get (f i s) k = get s k) (n i : Nat) (s : State)
    (hs : P s) (hk : i ≤ k) (hn : k < i + n) : ∃ u, P u ∧ get u k = get s k ∧ get (forUp f n i s) k = get (f k u) k := by
  induction n generalizing i s with
  | zero => omega
  | succ n ih =>
    by_cases hi : i = k
    · subst hi
      exact ⟨s, hs, rfl, forUp_other hother n (i + 1) (f i s) (.inl (Nat.lt_succ_self i))⟩
    · obtain ⟨u, hu, hget, hlast⟩ := ih (i + 1) (f i s) (hf i s hs) (by omega) (by omega)
      exact ⟨u, hu, hget.trans (hother i s k (Ne.symm hi)), hlast⟩

end

variable {s t u : State} {i j d : Nat}

/-! ### Links read and written -/

theorem linkAt_of_same {l : List Part} (h : SameBut l s t) (hl : Part.links ∉ l) (i : Nat) : linkAt t i = linkAt s i := by
  have hx : t.links = s.links := h.same .links hl
  rw [linkAt, linkAt, hx]

/-- A link is written but for its epoch. -/
theorem putLink_links (s : State) (i : Nat) (x : Link) : ∃ n, (putLink s i x).links = tset {} s.links i { x with epoch := n } := by
  unfold putLink
  extract_lets o y s1
  have hlinks : (if y.st = o.st then s1 else jstate s1 7 i (linkCode y.st) y.cause).links = tset {} s.links i y := by
    split
    · rfl
    · simp [s1]
  rw [hlinks]
  unfold y
  split
  · exact ⟨x.epoch, rfl⟩
  · exact ⟨_, rfl⟩

theorem linkAt_modLink_other (h : j ≠ i) (f : Link → Link) (s : State) : linkAt (modLink s i f) j = linkAt s j := by
  obtain ⟨n, hput⟩ := putLink_links s i (f (linkAt s i))
  rw [modLink, linkAt, hput, tget_tset_other _ _ h]
  rfl

/-- A link changed that is not OFF reads as changed, but for its epoch. -/
theorem linkAt_modLink {f : Link → Link} (hx : (f (linkAt s i)).st ≠ .off) :
    ∃ n, linkAt (modLink s i f) i = { f (linkAt s i) with epoch := n } := by
  obtain ⟨n, hput⟩ := putLink_links s i (f (linkAt s i))
  exact ⟨n, by rw [modLink, linkAt, hput, tget_tset_ne _ _ fun he => hx (congrArg Link.st he)]⟩

/-! ### What following its guard leaves of a link -/

/-- A link is OFF as it was, or on as it was, with its domain and its framing. -/
structure LinkKept (x y : Link) : Prop where
  off : y.st = .off ↔ x.st = .off
  domain : y.domain = x.domain
  l : y.l = x.l
  m : y.m = x.m
  j : y.j = x.j

theorem LinkKept.refl (x : Link) : LinkKept x x := ⟨.rfl, rfl, rfl, rfl, rfl⟩

theorem LinkKept.trans {x y z : Link} (h : LinkKept x y) (h' : LinkKept y z) : LinkKept x z :=
  ⟨h'.off.trans h.off, h'.domain.trans h.domain, h'.l.trans h.l, h'.m.trans h.m, h'.j.trans h.j⟩

/-- Every link is kept. -/
def LinksKept (s t : State) : Prop := ∀ j, LinkKept (linkAt s j) (linkAt t j)

theorem LinksKept.refl (s : State) : LinksKept s s := fun _ => .refl _

theorem LinksKept.trans (h : LinksKept s t) (h' : LinksKept t u) : LinksKept s u := fun j => (h j).trans (h' j)

theorem linksKept_of_same {l : List Part} (h : SameBut l s t) (hl : Part.links ∉ l) : LinksKept s t := fun j => by
  rw [linkAt_of_same h hl]
  exact .refl _

theorem modLink_kept {f : Link → Link} (hon : (linkAt s i).st ≠ .off) (hf : LinkKept (linkAt s i) (f (linkAt s i))) :
    LinksKept s (modLink s i f) := by
  intro j
  by_cases hj : j = i
  · subst hj
    obtain ⟨n, hread⟩ := linkAt_modLink (s := s) (f := f) fun h => hon (hf.off.mp h)
    rw [hread]
    exact ⟨hf.off, hf.domain, hf.l, hf.m, hf.j⟩
  · rw [linkAt_modLink_other hj]
    exact .refl _

theorem linkAlign_kept (hon : (linkAt s i).st ≠ .off) : LinksKept s (linkAlign i s) :=
  modLink_kept hon ⟨by simp [hon], rfl, rfl, rfl, rfl⟩

theorem linkTrain_kept (hon : (linkAt s i).st ≠ .off) : LinksKept s (linkTrain i s) := by
  unfold linkTrain
  extract_lets s1
  have h1 : LinksKept s s1 := modLink_kept hon ⟨by simp [hon], rfl, rfl, rfl, rfl⟩
  have hon1 : (linkAt s1 i).st ≠ .off := fun h => hon ((h1 i).off.mp h)
  split
  · exact h1.trans (modLink_kept hon1 ⟨by simp [hon1], rfl, rfl, rfl, rfl⟩)
  · split
    · exact h1.trans (linkAlign_kept hon1)
    · exact h1

/-- A guard and a mode take links through their states, and leave their settings. -/
theorem linksFollow_kept (s : State) : LinksKept s (linksFollow s) := by
  unfold linksFollow
  refine LinksKept.trans (forUp_keeps (P := LinksKept s) (fun i u hu => hu.trans ?_) 32 0 (.refl s))
    (linksKept_of_same (lanesSleep_same _) (by decide))
  dsimp only
  split
  · split
    next h =>
      have hon : (linkAt u i).st ≠ .off := by simp [h]
      split
      · exact linkTrain_kept hon
      · exact linkAlign_kept hon
    · exact .refl u
  · split
    next h =>
      have hon : (linkAt u i).st ≠ .off := by rcases h with h | h | h <;> simp [h]
      exact modLink_kept hon ⟨by simp [hon], rfl, rfl, rfl, rfl⟩
    · exact .refl u

theorem guardClose_links (d : Nat) (s : State) : LinksKept s (guardClose d s) := by
  rw [guardClose_eq, guardFollows]
  exact (linksKept_of_same ((modDom_same s d _).andThen (guardStops_same d _)) (by decide)).trans (linksFollow_kept _)

end Sys2Proof.Arch

/-! Clock commands at their decisions (R34, R37, R51, R227, R232, R235, R236, R257). -/

namespace Sys2Proof.Arch

open Sys2Proof Sys2Proof.Machine Sys2Proof.Safety Sys2Proof.Laws Sys2Proof.Scope

variable {s t u : State} {d i : Nat}

/-! ### PACE_CONFIG (R51) -/

/-- Holding VDD_CORE leaves the settings of the loop, and takes it to the ceiling where it takes it anywhere. -/
theorem paceHold_pace (s : State) : (paceHold s).pace = s.pace ∨
    (paceHold s).pace = { s.pace with vset := s.pace.ceiling, stepPending := true, stepTick := s.time.tick } := by
  unfold paceHold
  dsimp only
  split
  · exact .inr rfl
  · exact .inl rfl

/-- VDD_CORE's setting within its bounds: where it was if that is between them. -/
theorem decPaceConfig_pace (w m fg fa lo hi up dn : Nat) (s : State) :
    let p := (decPaceConfig w m fg fa lo hi up dn s).pace
    p.window = dflt 10000 w ∧ p.marginGuard = dflt 12 m ∧ p.fillGuard = dflt 16 fg ∧ p.fillAlarm = dflt 8 fa ∧ p.floor = dflt 650 lo ∧
      p.ceiling = dflt 850 hi ∧ p.stepUp = dflt 10 up ∧ p.stepDown = dflt 5 dn ∧
      (dflt 650 lo ≤ dflt 850 hi → dflt 650 lo ≤ p.vset ∧ p.vset ≤ dflt 850 hi) := by
  unfold decPaceConfig
  dsimp only
  split <;> [skip; split] <;> (rcases paceHold_pace _ with h | h <;> rw [h] <;> simp [paceWrite] <;> omega)

theorem decPaceConfig_same (w m fg fa lo hi up dn : Nat) (s : State) : SameBut [.pace] s (decPaceConfig w m fg fa lo hi up dn s) := by
  unfold decPaceConfig
  extract_lets c f p s1
  have h1 : SameBut [.pace] s s1 := set_pace_same s _
  have hhold (u : State) : SameBut [.pace] u (paceHold u) := (paceHold_same u).mono (by split <;> simp)
  refine SameBut.trans ?_ (hhold _)
  exact .ite (fun _ => h1.trans (paceWrite_same ..)) fun _ => .ite (fun _ => h1.trans (paceWrite_same ..)) fun _ => h1

/-! ### DOMAIN_SET and DOMAIN_OFF (R232, R235) -/

theorem guardClose_twf (hw : twf {} s.domains = true) (d : Nat) : twf {} (guardClose d s).domains = true := by
  have h := (guardFollows_same d (modDom s d fun x => { x with guardOpen := false, srRise := none })).same .domains (by decide)
  rw [guardClose_eq, h]
  exact modDom_twf hw d _

theorem domRebase_same (d n : Nat) (s : State) : SameBut [.cells, .caps] s (domRebase d n s) := by
  unfold domRebase
  extract_lets x s1
  have h1 : SameBut [.cells] s s1 := .foldl (fun u _ => .ite (fun _ => modCell_same u ..) (fun _ => .refl _ u)) s.cells s
  exact (h1.andThen (.foldl (fun u _ => .ite (fun _ => modCap_same u ..) (fun _ => .refl _ u)) s1.caps s1)).mono (by decide)

/-- The slot level of a link of the domain follows the domain's dividers. -/
def linkLevel (d i : Nat) (s : State) : State :=
  let x := linkAt s i
  if x.st ≠ .off && x.domain = d then modLink s i fun x => { x with j := (slotLevel (domAt s d) x.l x.m).getD x.j } else s

theorem linkLevel_same (d i : Nat) (s : State) : SameBut [.links, .jnl] s (linkLevel d i s) :=
  .ite (fun _ => modLink_same s i _) (fun _ => .refl _ s)

theorem linkLevel_other {k : Nat} (hk : k ≠ i) (d : Nat) (s : State) : linkAt (linkLevel d i s) k = linkAt s k := by
  unfold linkLevel
  dsimp only
  split
  · exact linkAt_modLink_other hk ..
  · rfl

theorem linkLevels_eq (d : Nat) (s : State) : linkLevels d s = forUp (linkLevel d) 32 0 s := rfl

theorem linkLevels_same (d : Nat) (s : State) : SameBut [.links, .jnl] s (linkLevels d s) :=
  .forUp (linkLevel_same d) 32 0 s

theorem linkLevels_level (hi : i < 32) (hon : (linkAt s i).st ≠ .off) (hd : (linkAt s i).domain = d) :
    (linkAt (linkLevels d s) i).j = (slotLevel (domAt s d) (linkAt s i).l (linkAt s i).m).getD (linkAt s i).j := by
  obtain ⟨u, hsame, hget, hlast⟩ := forUp_at (get := linkAt) (P := SameBut [.links, .jnl] s)
    (fun i u hu => hu.trans (linkLevel_same d i u)) (fun i u k hk => linkLevel_other hk d u) 32 0 s (.refl _ s) (Nat.zero_le i) (by omega)
  have hturn : linkLevel d i u = modLink u i fun x => { x with j := (slotLevel (domAt u d) x.l x.m).getD x.j } :=
    if_pos (by simp [hget, hon, hd])
  obtain ⟨n, hread⟩ := linkAt_modLink (s := u) (i := i) (f := fun x => { x with j := (slotLevel (domAt u d) x.l x.m).getD x.j })
    (by rwa [hget])
  rw [linkLevels_eq, hlast, hturn, hread, hget, domAt_of_same hsame (by decide)]

section

variable {x : Held} {den div ldiv : Nat}

/-- What DOMAIN_SET makes of its domain. -/
def domainTaken (num den div ldiv ln g : Nat) (y : Domain) : Domain :=
  { y with on := true, locked := false, trip := false, num := num, den := den, div := div, ldiv := ldiv, lockN := dflt 1024 ln,
           guard := dflt 1075 g }

/-- What follows a change of a domain's ratio: its cells and captures rebased, its links' slot levels, and the journal. -/
def domainFollows (d n : Nat) (s : State) : State := jstate (linkLevels d (domRebase d n s)) 6 d 0 0

/-- The effect of DOMAIN_SET before it answers. -/
def domainSetEffect (x : Held) (d num den div ldiv ln g : Nat) (s : State) : State :=
  domainFollows d x.dec (modDom (guardClose d s) d (domainTaken num den div ldiv ln g))

theorem decDomainSet_free {num ln g : Nat} (h : domFree s d = true) : decDomainSet x d num den div ldiv ln g s =
    finish (domainSetEffect x d num den div ldiv ln g s) x 0x0200 (some (6, d)) .ok [] := by
  rw [decDomainSet, if_neg (by simp [h])]
  rfl

theorem jstate_same (kind index new cause : Nat) (s : State) : SameBut [.jnl] s (jstate s kind index new cause) := jput_same s _ _

theorem domainFollows_same (d n : Nat) (s : State) : SameBut [.cells, .caps, .links, .jnl] s (domainFollows d n s) := by
  have hlevels := (domRebase_same d n s).andThen (linkLevels_same d (domRebase d n s))
  exact (hlevels.andThen (jstate_same 6 d 0 0 _)).mono (by decide)

/-- A link of the domain has the slot level of its dividers. -/
theorem domainFollows_level {n : Nat} (hi : i < 32) (hon : (linkAt s i).st ≠ .off) (hd : (linkAt s i).domain = d) :
    (linkAt (domainFollows d n s) i).j = (slotLevel (domAt s d) (linkAt s i).l (linkAt s i).m).getD (linkAt s i).j := by
  have hlinks (k : Nat) : linkAt (domRebase d n s) k = linkAt s k := linkAt_of_same (domRebase_same d n s) (by decide) k
  have hdoms : domAt (domRebase d n s) d = domAt s d := domAt_of_same (domRebase_same d n s) (by decide) d
  have hlevel := linkLevels_level (s := domRebase d n s) (d := d) hi (by rwa [hlinks]) (by rwa [hlinks])
  rwa [hlinks, hdoms, ← linkAt_of_same (jstate_same 6 d 0 0 _) (by decide)] at hlevel

variable {num ln g : Nat}

theorem domainSetEffect_same : SameBut [.active, .caps, .cells, .domains, .hives, .jnl, .links, .rpl, .rxLanes] s
    (domainSetEffect x d num den div ldiv ln g s) :=
  (((guardClose_same d s).andThen (modDom_same ..)).andThen (domainFollows_same ..)).mono (by decide)

theorem domAt_domainSetEffect (hw : twf {} s.domains = true) : ∃ n, domAt (domainSetEffect x d num den div ldiv ln g s) d =
    { domainTaken num den div ldiv ln g { domAt s d with guardOpen := false, srRise := none } with epoch := n } := by
  obtain ⟨m, hclose⟩ := domAt_guardClose hw d
  obtain ⟨n, htake⟩ := domAt_modDom (guardClose_twf hw d) d (domainTaken num den div ldiv ln g)
  exact ⟨n, by rw [domainSetEffect, domAt_of_same (domainFollows_same ..) (by decide), htake, hclose]; rfl⟩

theorem domAt_domainSetEffect_other {e : Nat} (h : e ≠ d) : domAt (domainSetEffect x d num den div ldiv ln g s) e = domAt s e := by
  rw [domainSetEffect, domAt_of_same (domainFollows_same ..) (by decide), domAt_modDom_other h, domAt_guardClose_other h]

/-- A link of the domain keeps its framing, and has the slot level of the dividers set. -/
theorem domainSetEffect_level (hi : i < 32) (hon : (linkAt s i).st ≠ .off) (hd : (linkAt s i).domain = d) :
    (linkAt (domainSetEffect x d num den div ldiv ln g s) i).j =
      (slotLevel (domAt (domainSetEffect x d num den div ldiv ln g s) d) (linkAt s i).l (linkAt s i).m).getD (linkAt s i).j := by
  obtain ⟨hoff, hdom, hl, hm, hj⟩ := ((guardClose_links d s).trans
    (linksKept_of_same (modDom_same (guardClose d s) d (domainTaken num den div ldiv ln g)) (by decide))) i
  rw [domainSetEffect]
  generalize modDom (guardClose d s) d (domainTaken num den div ldiv ln g) = u at *
  rw [domainFollows_level hi (fun h => hon (hoff.mp h)) (hdom.trans hd), domAt_of_same (domainFollows_same ..) (by decide), hl, hm, hj]

end

/-- DOMAIN_OFF of a domain that nothing uses. -/
theorem decDomainOff_unused (hw : twf {} s.domains = true) (hu : domUsed s d = false) :
    (∃ n, domAt (decDomainOff d s) d =
      { domAt s d with on := false, locked := false, guardOpen := false, srRise := none, epoch := n }) ∧
    (∀ e, e ≠ d → domAt (decDomainOff d s) e = domAt s e) ∧ SameBut guardParts s (decDomainOff d s) := by
  rw [decDomainOff, if_neg (by simp [hu])]
  obtain ⟨m, hoff⟩ := domAt_modDom hw d fun x => { x with on := false, locked := false }
  obtain ⟨n, hclose⟩ := domAt_guardClose (modDom_twf hw d fun x => { x with on := false, locked := false }) d
  refine ⟨⟨n, by rw [hclose, hoff]⟩, fun e he => ?_, ((modDom_same ..).andThen (guardClose_same ..)).mono (by decide)⟩
  rw [domAt_guardClose_other he, domAt_modDom_other he]

/-- DOMAIN_SET of a domain that is free to change switches it on, and answers. -/
theorem domainSet_completes {x : Held} {h : Hdr} {num den div ldiv ln g : Nat} (hd : Decides s x (.domainSet h d num den div ldiv ln g))
    (hfree : domFree (reached s x) d = true) : Completes .commandDecision s fun t =>
      (domAt t d).on = true ∧ (domAt t d).locked = false ∧ (domAt t d).guardOpen = false ∧ (domAt t d).num = num ∧
      (domAt t d).den = den ∧ (domAt t d).div = div ∧ (domAt t d).ldiv = ldiv ∧ (domAt t d).lockN = dflt 1024 ln ∧
      (domAt t d).guard = dflt 1075 g ∧ (∀ e, e ≠ d → domAt t e = domAt s e) ∧ Replied s t x 0x0200 .ok [] ∧
      (∀ i, i < 32 → (linkAt (reached s x) i).st ≠ .off → (linkAt (reached s x) i).domain = d → (linkAt t i).j =
        (slotLevel (domAt t d) (linkAt (reached s x) i).l (linkAt (reached s x) i).m).getD (linkAt (reached s x) i).j) ∧
      SameBut [.active, .caps, .cells, .col, .domains, .hives, .inner, .jnl, .links, .mailboxes, .queues, .rpl, .rxLanes] (reached s x) t := by
  refine completes_of_decides hd nofun ?_
  rw [decideCmd, hd.cmd]
  dsimp only
  rw [decDomainSet_free hfree]
  have hreach := reached_same s x
  have hdoms : (reached s x).domains = s.domains := hreach.same .domains (by decide)
  have hw : twf {} (reached s x).domains = true := hdoms ▸ hd.canon.domains
  have heffect := domainSetEffect_same (x := x) (d := d) (num := num) (den := den) (div := div) (ldiv := ldiv) (ln := ln) (g := g)
    (s := reached s x)
  have hafter := (finish_same (domainSetEffect x d num den div ldiv ln g (reached s x)) hd.slot 0x0200 (some (6, d)) .ok []).settled s
  obtain ⟨n, hdom⟩ := domAt_domainSetEffect (x := x) (d := d) (num := num) (den := den) (div := div) (ldiv := ldiv) (ln := ln) (g := g) hw
  rw [domAt_of_same hafter (by decide), hdom]
  refine ⟨rfl, rfl, rfl, rfl, rfl, rfl, rfl, rfl, rfl, fun e he => ?_, ?_, fun i hi hon hdi => ?_,
    (heffect.andThen hafter).mono (by decide)⟩
  · rw [domAt_of_same hafter (by decide), domAt_domainSetEffect_other he, domAt_of_same hreach (by decide)]
  · exact replied_of_same (x := x) hd.toLive (hreach.andThen heffect) (by decide) (by decide) 0x0200 (some (6, d)) .ok []
  · rw [linkAt_of_same hafter (by decide), ← hdom]
    exact domainSetEffect_level hi hon hdi

theorem decSysrefSet_free {m p n w dl dec : Nat} (h : domLinkData s d = false) : decSysrefSet d m p n w dl dec s =
    { s with domains := tmod {} s.domains d fun y => { y with
        srMode := m, srPeriod := p, srCount := n, srWidth := w, srDelay := dl, srNext := sysrefFirst y m p dl dec,
        srLeft := if m = 2 then n else 0, srRise := none } } :=
  if_neg (by simp [h])

/-- Settles O5: each command where its effect is written, DOMAIN_SET and DOMAIN_OFF by what a closing guard changes. -/
theorem clockDecisions : Obligations.ClockDecisions := by
  unfold Obligations.ClockDecisions
  refine ⟨?_, ?_, ?_, ?_, ?_, ?_, ?_, ?_⟩
  · intro s x h g l d c hd
    refine completes_of_decides_plain hd nofun (fun _ _ => rfl) ?_
    rw [decideCmd, hd.cmd]
    exact settle_same s _
  · intro s x h hor hd hmode
    refine completes_of_decides_plain hd nofun (fun _ _ => rfl) ?_
    have hunit : unitMode (released s x) = s.md.mode := if_neg (by rcases hmode with h | h <;> simp [Safety.released, h])
    rw [decideCmd, hd.cmd]
    dsimp only [decTimeHorizonSet]
    rw [if_pos (by rwa [hunit])]
    exact settle_same s _
  · intro s x h sec hd
    refine completes_of_decides_plain hd nofun (fun _ _ => rfl) ?_
    rw [decideCmd, hd.cmd]
    exact settle_same s _
  · intro s x h w m fg fa lo hi up dn hd
    refine completes_of_decides_plain hd nofun (fun _ _ => rfl) ?_
    rw [decideCmd, hd.cmd]
    dsimp only
    obtain ⟨hw, hm, hfg, hfa, hlo, hhi, hup, hdn, hvset⟩ := decPaceConfig_pace w m fg fa lo hi up dn (released s x)
    rw [settle_pace]
    exact ⟨hw, hm, hfg, hfa, hlo, hhi, hup, hdn, hvset, (decPaceConfig_same ..).settled s⟩
  · intro s x h d m p n w dl hd hdata
    refine completes_of_decides_plain hd nofun (fun _ _ => rfl) ?_
    rw [decideCmd, hd.cmd]
    dsimp only
    rw [decSysrefSet_free (s := Safety.released s x) hdata]
    exact settle_same s _
  · exact fun s x h d num den div ldiv ln g hd hfree => domainSet_completes hd hfree
  · intro s x h d num den div ldiv ln g hd hfree
    refine completes_answer hd nofun (SameBut.refl _ _) (un := some (6, d)) ?_
    rw [decideCmd, hd.cmd]
    exact if_pos (by simp [hfree])
  · intro s x h d hd hused
    refine completes_of_decides_plain hd nofun (fun _ _ => rfl) ?_
    rw [decideCmd, hd.cmd]
    dsimp only
    obtain ⟨⟨n, hdom⟩, hother, hsame⟩ := decDomainOff_unused (s := released s x) (d := d) hd.canon.domains hused
    have hset := settle_same s (decDomainOff d (released s x))
    rw [domAt_of_same hset (by decide), hdom]
    refine ⟨rfl, rfl, rfl, fun e he => ?_, hsame.settled s⟩
    rw [domAt_of_same hset (by decide), hother e he]
    rfl

end Sys2Proof.Arch

/-! Events of the pace loop and of rate domains (R49, R51, R52, R232 to R236, R450). -/

namespace Sys2Proof.Arch

open Sys2Proof Sys2Proof.Machine Sys2Proof.Safety Sys2Proof.Laws Sys2Proof.Scope

variable {s t : State} {hs : List HiveMeas} {d e h n : Nat}

theorem timFault_same (s : State) (bit cls obj : Nat) (scope : List Nat) : SameBut [.faults] s (timFault s bit cls obj scope) :=
  raise_same s _

theorem timFault_pace (s : State) (bit cls obj : Nat) (scope : List Nat) : (timFault s bit cls obj scope).pace = s.pace :=
  raise_pace ..

theorem fltAt_of_same {l : List Part} (h : SameBut l s t) (hl : Part.faults ∉ l) (b : Block) : fltAt t b = fltAt s b := by
  have hf : t.faults = s.faults := h.same .faults hl
  rw [fltAt, fltAt, hf]

/-- The fault's bit stands where it is not masked. -/
theorem timFault_status {bit : Nat} (cls obj : Nat) (scope : List Nat) (hw : twf {} s.faults = true) (hb : bit < 32)
    (hm : (fltAt s .tim).mask.getLsbD bit = false) : (fltAt (timFault s bit cls obj scope) .tim).status.getLsbD bit = true := by
  unfold timFault
  generalize ho : ({ block := .tim, bit := bit, cls := cls, obj := obj, scope := if 7 ≤ bit then [0, 1, 2, 3] else scope } : Occ) = o
  have hblock : o.block = .tim := ho ▸ rfl
  have hbit : o.bit = bit := ho ▸ rfl
  rw [← hblock, ← hbit]
  exact raise_status hw (hbit ▸ hb) (by rw [hblock, hbit, hm])

/-! ### The hives' windows (R49) -/

/-- A hive's window is measured where its turn comes. -/
def measureHive (hs : List HiveMeas) (s : State) (h : Nat) (t : State) : State :=
  { t with hives := tmod {} t.hives h (hiveWindow hs (hiveRuns s h) h) }

/-- The hives once every window is measured. -/
def measuredHives (hs : List HiveMeas) (s : State) : Tab Hive := (forUp (measureHive hs s) (nHives s) 0 s).hives

theorem measureHives_eq (hs : List HiveMeas) (s : State) :
    forUp (measureHive hs s) (nHives s) 0 s = { s with hives := measuredHives hs s } := by
  have hkeep : ∃ x, forUp (measureHive hs s) (nHives s) 0 s = { s with hives := x } :=
    forUp_keeps (P := fun u => ∃ x, u = { s with hives := x }) (fun i u hu => by
      obtain ⟨x, rfl⟩ := hu
      exact ⟨_, rfl⟩) (nHives s) 0 ⟨s.hives, rfl⟩
  obtain ⟨x, hx⟩ := hkeep
  rw [measuredHives, hx]

/-- The windows measured are written, and the run of the calibration counted, before the worst hive is noted. -/
def windowsCounted (hs : List HiveMeas) (s : State) : State :=
  { s with hives := measuredHives hs s, md := { s.md with calPace := s.md.calPace - 1 } }

theorem windowMeasures_eq (hs : List HiveMeas) (s : State) : windowMeasures hs s = noteWorst (windowsCounted hs s) := by
  have hm := measureHives_eq hs s
  unfold windowMeasures
  change noteWorst { forUp (measureHive hs s) (nHives s) 0 s with
    md := { (forUp (measureHive hs s) (nHives s) 0 s).md with calPace := (forUp (measureHive hs s) (nHives s) 0 s).md.calPace - 1 } } = _
  rw [hm]
  rfl

theorem hiveWindow_counts (hs : List HiveMeas) (run : Bool) (h : Nat) (x : Hive) :
    (hiveWindow hs run h x).window = (x.window + 1) % 256 ∧ (hiveWindow hs run h x).lateWin = false ∧
      (run = false → (hiveWindow hs run h x).slack = 0x400 ∧ (hiveWindow hs run h x).fillMin = 0x40) := by
  unfold hiveWindow
  dsimp only
  cases hs.find? fun m => m.hive = h <;> cases run <;> simp

theorem measureHive_other {k i : Nat} (hk : k ≠ i) (s u : State) : hiveAt (measureHive hs s i u) k = hiveAt u k :=
  tget_tmod_other _ _ hk _

theorem measuredHives_at (hw : twf {} s.hives = true) (hh : h < nHives s) :
    tget {} (measuredHives hs s) h = hiveWindow hs (hiveRuns s h) h (hiveAt s h) := by
  obtain ⟨u, hu, hget, hlast⟩ := forUp_at (get := hiveAt) (P := fun u => twf {} u.hives = true) (f := measureHive hs s)
    (fun i u hu => twf_tmod hu i _) (fun i u k hk => measureHive_other hk s u) (nHives s) 0 s hw (Nat.zero_le h) (by omega)
  rw [measuredHives]
  refine hlast.trans ?_
  rw [← hget]
  exact tget_tmod_same hu h _

theorem measuredHives_other (hh : nHives s ≤ h) : tget {} (measuredHives hs s) h = hiveAt s h :=
  forUp_other (get := hiveAt) (fun _ u _ hk => measureHive_other hk s u) (nHives s) 0 s (.inr (by omega))

theorem noteWorst_pace (s : State) : (noteWorst s).pace = { s.pace with worst := (noteWorst s).pace.worst } := by
  unfold noteWorst
  split <;> rfl

theorem noteWorst_same (s : State) : SameBut [.pace] s (noteWorst s) := by
  unfold noteWorst
  split
  · exact set_pace_same s _
  · exact .refl _ s

/-! ### What the pace loop decides at a window's close (R49, R51, R52) -/

/-- The regulator's link fails: the fault is latched, and raised. -/
theorem paceLink_raises (s : State) : SameBut [.faults] { s with pace := { s.pace with fault := true } } (paceLink s) :=
  timFault_same _ 9 2 0 _

theorem paceLink_same (s : State) : SameBut [.pace, .faults] s (paceLink s) :=
  (set_pace_same s _).andThen (paceLink_raises s)

theorem paceLink_fault (s : State) : (paceLink s).pace.fault = true := by
  rw [paceLink, timFault_pace]

theorem paceDecide_same (s : State) : SameBut [.pace, .faults] s (paceDecide s) := by
  have hset (p : Pace) : SameBut [.pace, .faults] s { s with pace := p } := (set_pace_same s p).mono (by decide)
  have hwrite (p : Pace) (mv : Nat) : SameBut [.pace, .faults] s (paceWrite mv { s with pace := p }) :=
    (hset p).trans ((paceWrite_same mv _).mono (by decide))
  unfold paceDecide
  dsimp only
  split
  · split
    · exact hwrite _ _
    · exact (hset _).trans ((timFault_same ..).mono (by decide))
  · split
    · split
      · exact hwrite _ _
      · exact hset _
    · exact hset _

theorem paceDecide_fault (s : State) : (paceDecide s).pace.fault = s.pace.fault := by
  unfold paceDecide
  dsimp only
  split
  · split
    · rfl
    · rw [timFault_pace]
  · split
    · split <;> rfl
    · rfl

/-- What the loop does at a window's close, once the windows are measured. -/
def paceCloses (v : Nat) (f : Bool) (s : State) : State :=
  let s0 := { s with pace := { s.pace with vread := v % 1024 } }
  let s2 := if f then paceLink s0 else s0
  if s2.pace.stepPending then
    if within5 v s2.pace.vset then paceDecide { s2 with pace := { s2.pace with stepPending := false } }
    else if s2.pace.stepTick + 100000 ≤ s2.time.tick then paceLink s2
    else s2
  else paceDecide s2

theorem paceWindowClose_eq (v : Nat) (f : Bool) (hs : List HiveMeas) (s : State) :
    paceWindowClose v f hs s = if paceOn s then paceCloses v f (windowMeasures hs s) else windowMeasures hs s := by
  unfold paceWindowClose paceCloses
  cases paceOn s <;> rfl

theorem paceCloses_same (v : Nat) (f : Bool) (s : State) : SameBut [.pace, .faults] s (paceCloses v f s) := by
  unfold paceCloses
  extract_lets p s0 s2
  have h0 : SameBut [.pace, .faults] s s0 := (set_pace_same s _).mono (by decide)
  have h2 : SameBut [.pace, .faults] s s2 := .ite (fun _ => h0.trans (paceLink_same _)) fun _ => h0
  have hset (p : Pace) : SameBut [.pace, .faults] s2 { s2 with pace := p } := (set_pace_same s2 p).mono (by decide)
  split
  · split
    · exact (h2.trans (hset _)).trans (paceDecide_same _)
    · exact .ite (fun _ => h2.trans (paceLink_same _)) fun _ => h2
  · exact h2.trans (paceDecide_same _)

/-- A fault that the regulator reports at the close is latched. -/
theorem paceCloses_fault (v : Nat) (s : State) : (paceCloses v true s).pace.fault = true := by
  unfold paceCloses
  extract_lets p s0 s2
  have h2 : s2.pace.fault = true := paceLink_fault s0
  split
  · split
    · rw [paceDecide_fault]
      exact h2
    · split
      · exact paceLink_fault s2
      · exact h2
  · rw [paceDecide_fault]
    exact h2

/-! ### Domains that lock and lose their lock (R232 to R234) -/

/-- A domain's lock declared. -/
def domainLocked (d : Nat) (s : State) : State :=
  if (domAt s d).locked then s else jstate (modDom s d fun x => { x with locked := true }) 6 d 1 0

theorem domainLocked_same (d : Nat) (s : State) : SameBut [.domains, .jnl] s (domainLocked d s) :=
  .ite (fun _ => .refl _ s) fun _ => (modDom_same s d _).andThen (jstate_same 6 d 1 0 _)

theorem domAt_domainLocked (hw : twf {} s.domains = true) (d : Nat) :
    ∃ n, domAt (domainLocked d s) d = { domAt s d with locked := true, epoch := n } := by
  unfold domainLocked
  split
  next h => exact ⟨(domAt s d).epoch, by rw [← h]⟩
  · rw [domAt_of_same (jstate_same 6 d 1 0 _) (by decide)]
    exact domAt_modDom hw d _

theorem domAt_domainLocked_other (h : e ≠ d) (s : State) : domAt (domainLocked d s) e = domAt s e := by
  unfold domainLocked
  split
  · rfl
  · rw [domAt_of_same (jstate_same 6 d 1 0 _) (by decide), domAt_modDom_other h]

theorem domainLocked_twf (hw : twf {} s.domains = true) (d : Nat) : twf {} (domainLocked d s).domains = true := by
  unfold domainLocked
  split
  · exact hw
  · have hj : SameBut [.jnl] (modDom s d fun x => { x with locked := true })
        (jstate (modDom s d fun x => { x with locked := true }) 6 d 1 0) := jstate_same 6 d 1 0 _
    rw [hj.same .domains (by decide)]
    exact modDom_twf hw d _

/-- The parts that an opening guard changes. -/
def guardRunParts : List Part := [.active, .cells, .domains, .hives, .inner, .jnl, .links, .queues, .rxLanes]

theorem guardOpenAt_same (d n : Nat) (s : State) : SameBut guardRunParts s (guardOpenAt d n s) :=
  ((modDom_same s d _).andThen (guardRuns_same d n _)).mono (by decide)

theorem domAt_guardOpenAt (hw : twf {} s.domains = true) (d n : Nat) :
    ∃ k, domAt (guardOpenAt d n s) d = { domAt s d with guardOpen := true, trip := false, epoch := k } := by
  rw [guardOpenAt_eq, domAt_of_same (guardRuns_same d n _) (by decide)]
  exact domAt_modDom hw d _

theorem domAt_guardOpenAt_other (h : e ≠ d) (n : Nat) (s : State) : domAt (guardOpenAt d n s) e = domAt s e := by
  rw [guardOpenAt_eq, domAt_of_same (guardRuns_same d n _) (by decide), domAt_modDom_other h]

/-- The tick is one of a domain's alignment, at which its guard can open (R232). -/
def onAlignment (s : State) (d : Nat) : Bool :=
  s.time.ready && alignPeriod (domAt s d) ≠ 0 && s.time.tick % alignPeriod (domAt s d) = 0

theorem domainLock_eq (hon : (domAt s d).on = true) (hclosed : (domAt s d).guardOpen = false) :
    domainLock d s = if onAlignment s d then guardOpenAt d s.time.tick (domainLocked d s) else domainLocked d s :=
  if_neg (by simp [hon, hclosed])

/-- A domain that locks, with its guard open where the tick is one of its alignment. -/
theorem domainLock_effect (hw : twf {} s.domains = true) (hon : (domAt s d).on = true) (hclosed : (domAt s d).guardOpen = false) :
    (∃ n g, domAt (domainLock d s) d = { domAt s d with locked := true, guardOpen := onAlignment s d, trip := g, epoch := n }) ∧
      (∀ e, e ≠ d → domAt (domainLock d s) e = domAt s e) ∧ SameBut guardRunParts s (domainLock d s) := by
  rw [domainLock_eq hon hclosed]
  obtain ⟨n, hlock⟩ := domAt_domainLocked hw d
  have hlocked := domainLocked_same d s
  split
  next ho =>
    obtain ⟨k, hopen⟩ := domAt_guardOpenAt (domainLocked_twf hw d) d s.time.tick
    refine ⟨⟨k, false, by rw [hopen, hlock, ho]⟩, fun e he => ?_, (hlocked.andThen (guardOpenAt_same ..)).mono (by decide)⟩
    rw [domAt_guardOpenAt_other he, domAt_domainLocked_other he]
  next ho =>
    refine ⟨⟨n, (domAt s d).trip, ?_⟩, fun e he => domAt_domainLocked_other he s, hlocked.mono (by decide)⟩
    rw [hlock, Bool.eq_false_iff.mpr ho, ← hclosed]

/-- The parts that a fault of a domain changes with its guard closed. -/
def domainFaultParts : List Part := [.active, .cells, .domains, .faults, .hives, .jnl, .links, .rpl, .rxLanes]

/-- A fault of a domain: its record changed and journalled, the fault raised, and its guard closed. -/
def domainFault (d : Nat) (f : Domain → Domain) (code bit cls : Nat) (s : State) : State :=
  guardClose d (timFault (jstate (modDom s d f) 6 d code 1) bit cls d [d])

section

variable {f : Domain → Domain} {code bit cls : Nat}

/-- What a fault of a domain changes before its guard closes. -/
theorem domainFault_before (d : Nat) (f : Domain → Domain) (code bit cls : Nat) (s : State) :
    SameBut [.jnl, .faults] (modDom s d f) (timFault (jstate (modDom s d f) 6 d code 1) bit cls d [d]) :=
  (jstate_same 6 d code 1 _).andThen (timFault_same ..)

theorem domainFault_same (d : Nat) (f : Domain → Domain) (code bit cls : Nat) (s : State) :
    SameBut domainFaultParts s (domainFault d f code bit cls s) :=
  (((modDom_same s d f).andThen (domainFault_before ..)).andThen (guardClose_same ..)).mono (by decide)

theorem domAt_domainFault (hw : twf {} s.domains = true) : ∃ n, domAt (domainFault d f code bit cls s) d =
    { f (domAt s d) with guardOpen := false, srRise := none, epoch := n } := by
  have hbefore := domainFault_before d f code bit cls s
  have hdoms := hbefore.same .domains (by decide)
  obtain ⟨m, hwrite⟩ := domAt_modDom hw d f
  rw [domainFault]
  obtain ⟨n, hclose⟩ := domAt_guardClose (s := timFault (jstate (modDom s d f) 6 d code 1) bit cls d [d]) (by
    rw [hdoms]
    exact modDom_twf hw d f) d
  exact ⟨n, by rw [hclose, domAt_of_same hbefore (by decide), hwrite]⟩

theorem domAt_domainFault_other (h : e ≠ d) : domAt (domainFault d f code bit cls s) e = domAt s e := by
  rw [domainFault, domAt_guardClose_other h, domAt_of_same (domainFault_before ..) (by decide), domAt_modDom_other h]

/-- No cell of the domain plays after its fault. -/
theorem domainFault_stops {j : Nat} (h : playing (cellAt (domainFault d f code bit cls s) j).st = true) : (cellAt s j).domain ≠ d := by
  have hcells : cellAt (timFault (jstate (modDom s d f) 6 d code 1) bit cls d [d]) j = cellAt s j := by
    rw [cellAt_of_same (domainFault_before ..) (by decide), cellAt_of_same (modDom_same s d f) (by decide)]
  rw [← hcells]
  exact (guardClose_stops h).2

/-- The fault's bit stands where it is not masked. -/
theorem domainFault_status (hw : twf {} s.faults = true) (hb : bit < 32) (hm : (fltAt s .tim).mask.getLsbD bit = false) :
    (fltAt (domainFault d f code bit cls s) .tim).status.getLsbD bit = true := by
  have hj : SameBut [.domains, .jnl] s (jstate (modDom s d f) 6 d code 1) := (modDom_same s d f).andThen (jstate_same 6 d code 1 _)
  rw [domainFault, fltAt_of_same (guardClose_same d _) (by decide)]
  refine timFault_status cls d [d] ?_ hb (by rw [fltAt_of_same hj (by decide), hm])
  rwa [hj.same .faults (by decide)]

end

/-- A loss of lock that nothing has to wait for. -/
theorem domUnlock_eq (hl : (domAt s d).locked = true) (hw : lossWaits s d = false) :
    domUnlock d s = domainFault d (fun x => { x with locked := false, unlocks := sat 0xFFFF x.unlocks }) 0 (1 + d)
      (if domCell s d (· = .running) then 2 else 1) s :=
  if_neg (by simp [hl, hw])

/-- A trip that nothing has to wait for. -/
theorem guardTrip_eq (ho : (domAt s d).guardOpen = true) (hw : lossWaits s d = false) :
    guardTrip d s = domainFault d (fun x => { x with trip := true }) 2 5 1 s :=
  if_neg (by simp [ho, hw])

/-! ### SYSREF (R236) -/

/-- The pulse taken by a domain whose guard is open or closed. -/
def sysrefTaken (d : Nat) (s : State) : State :=
  { s with domains := tset {} s.domains d { domAt s d with
      srNext := (domAt s d).srNext + 1, srLeft := (domAt s d).srLeft - 1,
      srRise := if (domAt s d).guardOpen then some (domAt s d).srNext else none } }

/-- A link of the domain that aligns is aligned by the pulse: a transmitting link is in DATA. -/
def sysrefLink (d i : Nat) (s : State) : State :=
  let l := linkAt s i
  if l.st = .aligning ∧ l.domain = d then
    if isRx i then { s with links := tset {} s.links i { l with aligned := true } } else linkData i s
  else s

theorem sysrefPulse_due (hr : s.time.ready = true) (hm : (domAt s d).srMode = 1)
    (ht : sysrefTick (domAt s d) (domAt s d).srNext ≤ s.time.tick) : sysrefPulse d s =
    if !(domAt s d).guardOpen then { sysrefTaken d s with col := { s.col with sysrefSkip := sat 0xFF s.col.sysrefSkip } }
    else forUp (sysrefLink d) 32 0 (sysrefTaken d s) :=
  if_neg (by simp [hr, hm, ht])

theorem set_links_same (s : State) (x : Tab Link) : SameBut [.links] s { s with links := x } :=
  ⟨fun p hp => by cases p <;> simp_all [Part.Same, ctxAt]⟩

theorem sysrefLink_same (d i : Nat) (s : State) : SameBut [.links, .jnl] s (sysrefLink d i s) :=
  .ite (fun _ => .ite (fun _ => (set_links_same s _).mono (by decide)) fun _ => modLink_same s i _) (fun _ => .refl _ s)

theorem sysrefLink_other {k i : Nat} (hk : k ≠ i) (s : State) : linkAt (sysrefLink d i s) k = linkAt s k := by
  unfold sysrefLink
  dsimp only
  split
  · split
    · exact tget_tset_other _ _ hk _
    · exact linkAt_modLink_other hk ..
  · rfl

theorem sysrefLink_data {i : Nat} (hi : i < 16) (hs : (linkAt s i).st = .aligning) (hd : (linkAt s i).domain = d) :
    (linkAt (sysrefLink d i s) i).st = .data := by
  have hturn : sysrefLink d i s = linkData i s := by
    unfold sysrefLink
    dsimp only
    rw [if_pos ⟨hs, hd⟩, if_neg (by simp [isRx]; omega)]
  obtain ⟨n, hread⟩ := linkAt_modLink (s := s) (i := i)
    (f := fun x => { x with st := .data, cause := 0, since := s.time.tick, dataSince := s.time.tick }) nofun
  rw [hturn, linkData, hread]

/-- A pulse with the guard open takes the next number, and the transmitting links that align into DATA. -/
theorem sysrefPulse_open (hw : twf {} s.domains = true) :
    (domAt (forUp (sysrefLink d) 32 0 (sysrefTaken d s)) d).srNext = (domAt s d).srNext + 1 ∧
    ((domAt s d).guardOpen = true → (domAt (forUp (sysrefLink d) 32 0 (sysrefTaken d s)) d).srRise = some (domAt s d).srNext) ∧
    (∀ i, i < 16 → (linkAt s i).st = .aligning → (linkAt s i).domain = d →
      (linkAt (forUp (sysrefLink d) 32 0 (sysrefTaken d s)) i).st = .data) ∧
    SameBut [.domains, .links, .jnl] s (forUp (sysrefLink d) 32 0 (sysrefTaken d s)) := by
  have hlinks : SameBut [.links, .jnl] (sysrefTaken d s) (forUp (sysrefLink d) 32 0 (sysrefTaken d s)) := .forUp (sysrefLink_same d) 32 0 _
  have hdom : domAt (sysrefTaken d s) d = _ := tget_tset_same hw d _
  rw [domAt_of_same hlinks (by decide), hdom]
  refine ⟨rfl, fun ho => if_pos ho, fun i hi ha hd => ?_, ((set_domains_same s _).andThen hlinks).mono (by decide)⟩
  obtain ⟨u, -, hget, hlast⟩ := forUp_at (get := linkAt) (P := fun _ => True) (f := sysrefLink d) (fun _ _ h => h)
    (fun i u k hk => sysrefLink_other hk u) 32 0 (sysrefTaken d s) trivial (Nat.zero_le i) (by omega)
  have hlink : linkAt u i = linkAt s i := hget
  rw [hlast]
  exact sysrefLink_data hi (by rw [hlink, ha]) (by rw [hlink, hd])

/-- VDD_CORE is written from the state that a fault leaves as from the one it finds. -/
theorem paceWrite_of_faults (h : SameBut [.faults] s t) (mv : Nat) : SameBut [.faults] (paceWrite mv s) (paceWrite mv t) := by
  have htime : t.time = s.time := h.same .time (by decide)
  have hpace : t.pace = s.pace := h.same .pace (by decide)
  refine ⟨fun p hp => ?_⟩
  have hs := h.same p hp
  cases p with
  | pace => simp [Part.Same, paceWrite, htime, hpace]
  | _ => exact hs

/-! ### The events -/

/-- A pace window's close. -/
theorem paceWindowClose_completes (v : Nat) (f : Bool) (hs : List HiveMeas) (hl : Live s) : Completes (.paceWindowClose v f hs) s fun t =>
    (∀ h, h < nHives s → (hiveAt t h).window = ((hiveAt s h).window + 1) % 256 ∧ (hiveAt t h).lateWin = false ∧
      (hiveRuns s h = false → (hiveAt t h).slack = 0x400 ∧ (hiveAt t h).fillMin = 0x40)) ∧
    (∀ h, nHives s ≤ h → hiveAt t h = hiveAt s h) ∧ (paceOn s = true → f = true → t.pace.fault = true) ∧
    (paceOn s = false → t.pace = { s.pace with worst := t.pace.worst }) ∧ t.md.calPace = s.md.calPace - 1 ∧
    SameBut [.hives, .pace, .faults] { s with md := { s.md with calPace := s.md.calPace - 1 } } t := by
  refine .of_act (f := paceWindowClose v f hs) hl.alive rfl ?_
  rw [paceWindowClose_eq]
  have hcounted : SameBut [.hives] { s with md := { s.md with calPace := s.md.calPace - 1 } } (windowsCounted hs s) := set_hives_same _ _
  have hmeasured : SameBut [.pace] (windowsCounted hs s) (windowMeasures hs s) := windowMeasures_eq hs s ▸ noteWorst_same _
  have hfollows : SameBut [.pace, .faults] (windowMeasures hs s)
      (settle s (if paceOn s then paceCloses v f (windowMeasures hs s) else windowMeasures hs s)) :=
    (SameBut.ite (fun _ => paceCloses_same ..) fun _ => .refl _ _).settled s
  have hsame := (hcounted.andThen hmeasured).andThen hfollows
  have hhive (h : Nat) : hiveAt (settle s (if paceOn s then paceCloses v f (windowMeasures hs s) else windowMeasures hs s)) h =
      tget {} (measuredHives hs s) h := by
    have hx := (hmeasured.andThen hfollows).same .hives (by decide)
    rw [hiveAt, hx]
    rfl
  obtain ⟨n, hmd⟩ := hsame.md_eq (by decide)
  refine ⟨fun h hh => ?_, fun h hh => ?_, fun ho hf => ?_, fun ho => ?_, by rw [hmd], hsame.mono (by decide)⟩
  · rw [hhive, measuredHives_at hl.canon.hives hh]
    exact hiveWindow_counts ..
  · rw [hhive, measuredHives_other hh]
  · rw [settle_pace, if_pos ho, hf]
    exact paceCloses_fault ..
  · rw [settle_pace, if_neg (by simp [ho]), windowMeasures_eq]
    exact noteWorst_pace _

/-- Settles O7: a hive by its turn in the window's close, a domain by its lock, its fault or its pulse. -/
theorem paceAndDomainEvents : Obligations.PaceAndDomainEvents := by
  unfold Obligations.PaceAndDomainEvents
  refine ⟨fun s v f hs hl => paceWindowClose_completes v f hs hl, ?_, ?_, ?_, ?_, ?_, ?_, ?_, ?_, ?_⟩
  · intro s h hl hh ho
    refine .of_act (f := fillAlarm h) hl.alive (if_pos (decide_eq_true hh)) ?_
    rw [fillAlarm, if_pos ho]
    exact (paceWrite_of_faults (SameBut.ite (fun _ => timFault_same s 8 2 h _) fun _ => .refl _ s) _).settled s
  · intro s h hl hh ho
    refine .of_act (f := fillAlarm h) hl.alive (if_pos (decide_eq_true hh)) ?_
    rw [fillAlarm, if_neg (by simp [ho])]
    exact settle_same s s
  · intro s v hl hr hv
    refine .of_act (f := regulatorConfirm v) hl.alive rfl ?_
    rw [regulatorConfirm, if_neg (by simp [hr]), if_pos hv]
    exact settle_same s _
  · intro s v hl hr hv
    refine .of_act (f := regulatorConfirm v) hl.alive rfl ?_
    rw [regulatorConfirm, if_neg (by simp [hr]), if_neg (by simp [hv])]
    exact (paceLink_raises { s with pace := { s.pace with vread := v % 1024 } }).settled s
  · intro s d hl hd hon hclosed
    refine .of_act (f := domainLock d) hl.alive (if_pos (decide_eq_true hd)) ?_
    obtain ⟨⟨n, g, hdom⟩, hother, hsame⟩ := domainLock_effect hl.canon.domains hon hclosed
    have hset := settle_same s (domainLock d s)
    rw [domAt_of_same hset (by decide), hdom]
    refine ⟨rfl, by simp [onAlignment, and_assoc], fun e he => ?_, hsame.settled s⟩
    rw [domAt_of_same hset (by decide), hother e he]
  · intro s d hl hd hlock hw hm
    refine .of_act (f := domUnlock d) hl.alive (if_pos (decide_eq_true hd)) ?_
    rw [domUnlock_eq hlock hw]
    generalize (if domCell s d (· = .running) then 2 else 1) = cls
    have hset := settle_same s (domainFault d (fun x => { x with locked := false, unlocks := sat 0xFFFF x.unlocks }) 0 (1 + d) cls s)
    obtain ⟨n, hdom⟩ := domAt_domainFault (f := fun x => { x with locked := false, unlocks := sat 0xFFFF x.unlocks }) (code := 0)
      (bit := 1 + d) (cls := cls) hl.canon.domains
    rw [domAt_of_same hset (by decide), hdom]
    refine ⟨rfl, rfl, rfl, fun e he => ?_, ?_, (domainFault_same ..).settled s⟩
    · rw [domAt_of_same hset (by decide), domAt_domainFault_other he]
    · rw [fltAt_of_same hset (by decide)]
      exact domainFault_status (d := d) (code := 0) (bit := 1 + d) hl.canon.faults (by omega) hm
  · intro s d hl hd ho hw
    refine .of_act (f := guardTrip d) hl.alive (if_pos (decide_eq_true hd)) ?_
    rw [guardTrip_eq ho hw]
    have hset := settle_same s (domainFault d (fun x => { x with trip := true }) 2 5 1 s)
    obtain ⟨n, hdom⟩ := domAt_domainFault (f := fun x => { x with trip := true }) (code := 2) (bit := 5) (cls := 1) hl.canon.domains
    rw [domAt_of_same hset (by decide), hdom]
    refine ⟨rfl, fun c hp => ?_, rfl, fun e he => ?_, (domainFault_same ..).settled s⟩
    · rw [cellAt_of_same hset (by decide)] at hp
      exact .inr (domainFault_stops hp)
    · rw [domAt_of_same hset (by decide), domAt_domainFault_other he]
  · intro s d hl hd hr hm ho ht
    refine .of_act (f := sysrefPulse d) hl.alive (if_pos (decide_eq_true hd)) ?_
    rw [sysrefPulse_due hr hm ht, if_neg (by simp [ho])]
    obtain ⟨hnext, hrise, hlinks, hsame⟩ := sysrefPulse_open (d := d) hl.canon.domains
    have hset := settle_same s (forUp (sysrefLink d) 32 0 (sysrefTaken d s))
    rw [domAt_of_same hset (by decide)]
    refine ⟨hnext, hrise ho, fun i hi ha hdi => ?_, hsame.settled s⟩
    rw [linkAt_of_same hset (by decide)]
    exact hlinks i hi ha hdi
  · intro s d hl hd hr hm ho ht
    refine .of_act (f := sysrefPulse d) hl.alive (if_pos (decide_eq_true hd)) ?_
    rw [sysrefPulse_due hr hm ht, if_pos (by simp [ho]), sysrefTaken, if_neg (by simp [ho])]
    exact settle_same s _

end Sys2Proof.Arch

/-! Events of device time, PPS and SYNC (R30, R33, R34, R226 to R228). -/

namespace Sys2Proof.Arch

open Sys2Proof Sys2Proof.Machine Sys2Proof.Safety Sys2Proof.Laws Sys2Proof.Scope

variable {s : State}

/-! ### DEVTIME read at 0x0100 (R33) -/

/-- Bytes of a value see no more of it than they hold. -/
theorem le_mod (n v : Nat) : le n (v % 256 ^ n) = le n v := by
  induction n generalizing v with
  | zero => rfl
  | succ n ih =>
    have hbyte : BitVec.ofNat 8 (v % 256 ^ (n + 1)) = BitVec.ofNat 8 v := by
      apply BitVec.eq_of_toNat_eq
      rw [BitVec.toNat_ofNat, BitVec.toNat_ofNat]
      exact Nat.mod_mod_of_dvd v (Dvd.intro_left (256 ^ n) rfl)
    have hrest : v % 256 ^ (n + 1) / 256 = v / 256 % 256 ^ n := by
      rw [Nat.pow_succ, Nat.mul_comm, Nat.mod_mul_right_div_self]
    rw [le, le, hbyte, hrest, ih]

theorem windowWord_devtime (s : State) : windowWord s 0x100 = devtimeReg s % 2 ^ 32 := by
  simp [windowWord, winHead, wordAt, bits]

/-- The lower half of device time is read, and its upper half latched. -/
theorem devtimeLatchRead_eq (h : inRetain s = false) : devtimeLatchRead s = { s with
    bus := le 4 (devtimeReg s), time := { s.time with latch := some (BitVec.ofNat 32 (devtimeReg s / 2 ^ 32)) } } := by
  have hnow : windowRead32 s 0x100 = devtimeReg s % 256 ^ 4 := by
    have hword : windowNow s 0x100 = devtimeReg s % 256 ^ 4 := by
      rw [windowNow, if_neg (by simp [h]), windowWord_devtime]
      rfl
    unfold windowRead32
    split
    · rw [if_neg (by decide), hword]
    · exact hword
  rw [devtimeLatchRead, windowReadHost, hnow, le_mod, if_pos rfl]

/-! ### PPS (R34) -/

theorem ppsEdge_armed {sub sec : Nat} (hr : s.time.ready = true) (ha : s.time.ppsArmed = some sec) : ppsEdge sub s =
    ppsAccept (devtime s + sub % 16) sec (ppsFirst (devtime s + sub % 16) s) s := by
  unfold ppsEdge
  simp [hr, ha]

theorem ppsEdge_counted {sub l n : Nat} (hr : s.time.ready = true) (ha : s.time.ppsArmed = none) (hl : s.time.ppsLast = some l)
    (hn : ppsCount l (devtime s + sub % 16) = some n) : ppsEdge sub s =
    ppsAccept (devtime s + sub % 16) (s.time.ppsSec + n) ((devtime s + sub % 16 - l) / n) s := by
  have hfound : (s.time.ppsLast.bind fun l => (ppsCount l (devtime s + sub % 16)).map fun n => (l, n)) = some (l, n) := by
    rw [hl, Option.bind_some, hn, Option.map_some]
  rw [ppsEdge, if_neg (by simp [hr])]
  simp only [ha, hfound]

theorem ppsEdge_rejected {sub l : Nat} (hr : s.time.ready = true) (ha : s.time.ppsArmed = none) (hl : s.time.ppsLast = some l)
    (hn : ppsCount l (devtime s + sub % 16) = none) : ppsEdge sub s =
    { s with time := { s.time with ppsRejected := sat 0xFF s.time.ppsRejected } } := by
  have hfound : (s.time.ppsLast.bind fun l => (ppsCount l (devtime s + sub % 16)).map fun n => (l, n)) = none := by
    rw [hl, Option.bind_some, hn, Option.map_none]
  rw [ppsEdge, if_neg (by simp [hr])]
  simp only [ha, hfound]

theorem set_time_same (s : State) (x : TimeUnit) : SameBut [.time] s { s with time := x } :=
  ⟨fun p hp => by cases p <;> simp_all [Part.Same, ctxAt]⟩

/-! ### SYNC (R227, R228) -/

theorem syncInEdge_expected (hi : syncIgnored s = false) (hr : s.time.ready = true)
    (ht : s.time.tick % 2 ^ s.col.syncLog2 = s.col.syncLat) :
    syncInEdge s = { s with col := { s.col with syncOk := true, lastSync := s.time.tick } } := by
  rw [syncInEdge, if_neg (by simp [hi]), if_pos hr]
  exact if_pos ht

theorem syncInEdge_shifted (hi : syncIgnored s = false) (hr : s.time.ready = true)
    (ht : s.time.tick % 2 ^ s.col.syncLog2 ≠ s.col.syncLat) : SameBut [.faults] { s with col := { s.col with
      syncOk := false, shiftCount := min 0xFF (s.col.shiftCount + 1),
      lastSync := nextSync (2 ^ s.col.syncLog2) s.col.syncLat s.time.tick } } (syncInEdge s) := by
  have hturn : syncInEdge s = timFault { s with col := { s.col with
      syncOk := false, shiftCount := sat 0xFF s.col.shiftCount,
      lastSync := nextSync (syncPeriod s) s.col.syncLat s.time.tick } } 7 2 0 := by
    rw [syncInEdge, if_neg (by simp [hi]), if_pos hr]
    exact if_neg ht
  rw [hturn]
  exact timFault_same ..

theorem syncMiss_due (hi : syncIgnored s = false) (hr : s.time.ready = true)
    (ht : s.col.lastSync + 2 ^ s.col.syncLog2 + 4 ≤ s.time.tick) : SameBut [.faults] { s with col := { s.col with
      syncOk := false, miss := min 0xFF (s.col.miss + 1), lastSync := s.col.lastSync + 2 ^ s.col.syncLog2 } } (syncMiss s) := by
  rw [syncMiss, if_neg (by simp [hi, hr, syncPeriod, Nat.not_lt.mpr ht])]
  exact timFault_same ..

/-- Settles O6: each event by the branch its premises choose. -/
theorem timeEvents : Obligations.TimeEvents := by
  unfold Obligations.TimeEvents
  refine ⟨?_, ?_, ?_, ?_, ?_, ?_, ?_, ?_, ?_, ?_, ?_⟩
  · intro s hl hrole
    refine .of_act (f := timePllLock) hl.alive rfl ?_
    rw [timePllLock, if_neg hrole]
    exact settle_same s _
  · intro s hl hrole
    refine .of_act (f := timePllLock) hl.alive rfl ?_
    rw [timePllLock, if_pos hrole]
    exact settle_same s _
  · intro s hl hret
    refine .of_act (f := devtimeLatchRead) hl.alive rfl ?_
    rw [devtimeLatchRead_eq hret]
    exact settle_same s _
  · intro s sub sec hl hr ha
    refine .of_act (f := ppsEdge sub) hl.alive rfl ?_
    rw [ppsEdge_armed hr ha]
    exact settle_same s _
  · intro s sub l n hl hr ha hlast hn
    refine .of_act (f := ppsEdge sub) hl.alive rfl ?_
    rw [ppsEdge_counted hr ha hlast hn]
    exact settle_same s _
  · intro s sub l hl hr ha hlast hn
    refine .of_act (f := ppsEdge sub) hl.alive rfl ?_
    rw [ppsEdge_rejected hr ha hlast hn]
    exact settle_same s _
  · intro s l hl hlast
    refine .of_act (f := ppsMissing) hl.alive rfl ?_
    rw [ppsMissing, hlast]
    dsimp only
    rw [settle_time]
    refine ⟨fun h => by simp [devtime, h], fun h => by simp [devtime, h], (set_time_same s _).settled s⟩
  · intro s hl hd hr ht
    refine .of_act (f := syncOutPulse) hl.alive rfl ?_
    rw [syncOutPulse, if_pos (by simp [hd, hr, syncPeriod, ht])]
    exact settle_same s _
  · intro s hl hi hr ht
    refine .of_act (f := syncInEdge) hl.alive rfl ?_
    rw [syncInEdge_expected hi hr ht]
    exact settle_same s _
  · exact fun s hl hi hr ht => .of_act (f := syncInEdge) hl.alive rfl ((syncInEdge_shifted hi hr ht).settled s)
  · exact fun s hl hi hr ht => .of_act (f := syncMiss) hl.alive rfl ((syncMiss_due hi hr ht).settled s)

end Sys2Proof.Arch

/-! Edges of pins and swarm lines (R36, R46, R204, R207, R216, R250 to R252, R283, R392). -/

namespace Sys2Proof.Arch

open Sys2Proof Sys2Proof.Machine Sys2Proof.Safety Sys2Proof.Laws Sys2Proof.Scope

variable {s t u : State} {p i : Nat} {l : Bool}

/-! ### Faults raised only add to their blocks -/

/-- Every bit that stands still stands, under the same masks. -/
structure FaultsGrow (s t : State) : Prop where
  canon : twf {} t.faults = true
  mask : ∀ b, (fltAt t b).mask = (fltAt s b).mask
  status : ∀ b i, (fltAt s b).status.getLsbD i = true → (fltAt t b).status.getLsbD i = true

theorem FaultsGrow.trans (h : FaultsGrow s t) (h' : FaultsGrow t u) : FaultsGrow s u :=
  ⟨h'.canon, fun b => (h'.mask b).trans (h.mask b), fun b i hi => h'.status b i (h.status b i hi)⟩

theorem faultsGrow_of_same {m : List Part} (hw : twf {} s.faults = true) (h : SameBut m s t) (hm : Part.faults ∉ m) : FaultsGrow s t := by
  refine ⟨?_, fun b => by rw [fltAt_of_same h hm], fun b i hi => by rwa [fltAt_of_same h hm]⟩
  have hf : t.faults = s.faults := h.same .faults hm
  rwa [hf]

theorem recordIn_mask (s : State) (o : Occ) : (recordIn s o).mask = (fltAt s o.block).mask := by
  simp only [recordIn, standIn]
  (repeat' split) <;> rfl

theorem recordIn_status {o : Occ} (h : (fltAt s o.block).status.getLsbD i = true) : (recordIn s o).status.getLsbD i = true := by
  simp only [recordIn, standIn_status, BitVec.getLsbD_or, h, Bool.true_or]

/-- An occurrence leaves every block or is recorded in its own. -/
theorem raise_faults (s : State) (o : Occ) :
    (raise s o).faults = s.faults ∨ (raise s o).faults = tmod {} s.faults (blockNum o.block) fun _ => recordIn s o := by
  unfold raise
  split
  · exact .inl rfl
  · right
    dsimp only
    split <;> simp [modFlt]

theorem raise_grows (hw : twf {} s.faults = true) (o : Occ) : FaultsGrow s (raise s o) := by
  rcases raise_faults s o with h | h
  · exact ⟨h ▸ hw, fun b => by rw [fltAt, h]; rfl, fun b i hi => by rw [fltAt, h]; exact hi⟩
  · have hread (b : Block) : fltAt (raise s o) b = fltAt s b ∨ fltAt s b = fltAt s o.block ∧ fltAt (raise s o) b = recordIn s o := by
      rw [fltAt, fltAt, h]
      by_cases hb : blockNum b = blockNum o.block
      · rw [hb]
        exact .inr ⟨rfl, tget_tmod_same hw ..⟩
      · exact .inl (tget_tmod_other _ _ hb _)
    refine ⟨h ▸ twf_tmod hw _ _, fun b => ?_, fun b i hi => ?_⟩
    · rcases hread b with hb | ⟨hs, hb⟩ <;> rw [hb]
      rw [hs, recordIn_mask]
    · rcases hread b with hb | ⟨hs, hb⟩ <;> rw [hb]
      · exact hi
      · exact recordIn_status (hs ▸ hi)

theorem lnkFault_same (s : State) (bit cls i : Nat) : SameBut [.faults] s (lnkFault s bit cls i) := raise_same s _

/-! ### The alarm of a link's status pin (R283) -/

/-- A link in DATA with the pin as its status pin raises its alarm. -/
def statusPinLink (p i : Nat) (s : State) : State :=
  let x := linkAt s i
  if x.statusPin = p && x.st = .data then lnkFault s 6 1 i else s

theorem statusPinLink_same (p i : Nat) (s : State) : SameBut [.faults] s (statusPinLink p i s) :=
  .ite (fun _ => lnkFault_same s 6 1 i) fun _ => .refl _ s

theorem statusPinLink_grows (hw : twf {} s.faults = true) (p i : Nat) : FaultsGrow s (statusPinLink p i s) := by
  unfold statusPinLink
  dsimp only
  split
  · exact raise_grows hw _
  · exact ⟨hw, fun _ => rfl, fun _ _ h => h⟩

theorem statusPinFell_same (p : Nat) (s : State) : SameBut [.faults] s (statusPinFell p s) :=
  .forUp (statusPinLink_same p) 16 0 s

/-- A property that the turn of one unit brings holds after a run over units that keeps it. -/
theorem forUp_reaches {σ : Type} {I Q : σ → Prop} {f : Nat → σ → σ} {k : Nat} (hI : ∀ i s, I s → I (f i s))
    (hQ : ∀ i s, I s → Q s → Q (f i s)) (hk : ∀ s, I s → Q (f k s)) (n i : Nat) {s : σ} (hs : I s) (hi : i ≤ k) (hn : k < i + n) :
    Q (forUp f n i s) := by
  induction n generalizing i s with
  | zero => omega
  | succ n ih =>
    by_cases he : i = k
    · subst he
      exact (forUp_keeps (P := fun s => I s ∧ Q s) (fun j s h => ⟨hI j s h.1, hQ j s h.1 h.2⟩) n (i + 1) ⟨hI i s hs, hk s hs⟩).2
    · exact ih (i + 1) (hI i s hs) (by omega) (by omega)

/-- The alarm stands where a link in DATA has the pin for its status pin. -/
theorem statusPinFell_status (hw : twf {} s.faults = true) (hm : (fltAt s .lnk).mask.getLsbD 6 = false) (hi : i < 16)
    (hp : (linkAt s i).statusPin = p) (hd : (linkAt s i).st = .data) : (fltAt (statusPinFell p s) .lnk).status.getLsbD 6 = true := by
  refine forUp_reaches (f := statusPinLink p) (I := fun u => FaultsGrow s u ∧ linkAt u i = linkAt s i)
    (Q := fun u => (fltAt u .lnk).status.getLsbD 6 = true) (fun j u hu => ?_) (fun j u hu hq => ?_) (fun u hu => ?_) 16 0
    ⟨⟨hw, fun _ => rfl, fun _ _ h => h⟩, rfl⟩ (Nat.zero_le i) (by omega)
  · exact ⟨hu.1.trans (statusPinLink_grows hu.1.canon p j), by rw [linkAt_of_same (statusPinLink_same p j u) (by decide), hu.2]⟩
  · exact (statusPinLink_grows hu.1.canon p j).status .lnk 6 hq
  · have hturn : statusPinLink p i u = lnkFault u 6 1 i := if_pos (by simp [hu.2, hp, hd])
    rw [hturn]
    exact raise_status (o := { block := .lnk, bit := 6, cls := 1, obj := lnkObj i (linkAt u i).firstLane, scope := [i] }) hu.1.canon
      (show 6 < 32 by omega) (by rw [hu.1.mask, hm])

/-! ### An edge of an input pin (R204, R207, R216) -/

theorem pinAt_of_same {m : List Part} (h : SameBut m s t) (hm : Part.pins ∉ m) (p : Nat) : pinAt t p = pinAt s p := by
  have hp : t.pins = s.pins := h.same .pins hm
  rw [pinAt, pinAt, hp]

theorem pinAt_modPin (hw : twf {} s.pins = true) (p : Nat) (f : Pin → Pin) : pinAt (modPin s p f) p = f (pinAt s p) :=
  tget_tmod_same hw p f

theorem pinAt_modPin_other {q : Nat} (h : q ≠ p) (f : Pin → Pin) (s : State) : pinAt (modPin s p f) q = pinAt s q :=
  tget_tmod_other _ _ h f

theorem hops_of_same {m : List Part} (h : SameBut m s t) (hm : Part.hops ∉ m) : t.hops = s.hops := h.same .hops hm

theorem set_hops_same (s : State) (x : List Hop) : SameBut [.hops] s { s with hops := x } :=
  ⟨fun p hp => by cases p <;> simp_all [Part.Same, ctxAt]⟩

theorem produce_same (s : State) (src origin : Nat) (level : Bool) (gen : Nat) (taint : Bool) :
    SameBut [.hops] s (produce s src origin level gen taint) := set_hops_same s _

/-- The level that a pin's newest edge gives it. -/
theorem pinLevelAt_newest {n m : Nat} {b : Bool} {h : List (Nat × Bool)} (hh : (pinAt s p).hist = (n, b) :: h) (hn : n ≤ m) :
    pinLevelAt s p m = b := by
  rw [pinLevelAt, hh, List.find?_cons_of_pos (by simpa using hn)]

/-- An edge that an input pin takes: device time runs, the level is new, and no edge of this tick or a later one stands. -/
structure PinEdge (s : State) (p : Nat) (l : Bool) : Prop where
  ready : s.time.ready = true
  changes : pinLevelAt s p s.time.tick ≠ l
  input : (pinAt s p).output = false
  newest : ((pinAt s p).hist.head?.any fun q => decide (s.time.tick ≤ q.1)) = false

/-- The edge stamped with its tick. -/
def pinStamped (p : Nat) (l : Bool) (s : State) : State := modPin s p fun x => { x with hist := histAdd s.time.tick l x.hist }

theorem pinAt_pinStamped (hw : twf {} s.pins = true) (p : Nat) (l : Bool) :
    pinAt (pinStamped p l s) p = { pinAt s p with hist := histAdd s.time.tick l (pinAt s p).hist } := pinAt_modPin hw p _

theorem pinLevelAt_pinStamped {m : List Part} (hw : twf {} s.pins = true) (ht : SameBut m (pinStamped p l s) t) (hm : Part.pins ∉ m) :
    pinLevelAt t p s.time.tick = l := by
  refine pinLevelAt_newest (h := (histAdd s.time.tick l (pinAt s p).hist).tail) ?_ (Nat.le_refl _)
  rw [pinAt_of_same ht hm, pinAt_pinStamped hw]
  rfl

theorem evpEdge_taken (h : PinEdge s p l) (hr : s.md.mode ≠ .replay) : evpEdge p l s =
    if s.md.mode = .standby then pinStamped p l s
    else
      let s1 := jput (pinStamped p l s) s.time.tick (.event ⟨s.time.tick, 0, l, 0, srcIdOf 2 0 p, false⟩ false)
      if wagCarries s then produce s1 (srcIdOf 2 0 p) s.time.tick l 0 else s1 :=
  if_neg (by simp only [h.ready, h.changes, hr, h.input, h.newest]; decide)

theorem srcIdOf_pin (hp : p < 32) : srcIdOf 2 0 p = 0x4000 + p := by
  simp [srcIdOf, pack]
  omega

theorem srcIdOf_swl (hp : p < 16) : srcIdOf 2 1 p = 0x4400 + p := by
  simp [srcIdOf, pack]
  omega

/-- What an edge taken in service does beside its stamp: it is journalled, and goes on its way where the waggle carries. -/
theorem evpEdge_service (h : PinEdge s p l) (hp : p < 32) (hr : s.md.mode ≠ .replay) (hb : s.md.mode ≠ .standby) :
    SameBut [.jnl, .hops] (pinStamped p l s) (evpEdge p l s) ∧
    (wagCarries s = true → (evpEdge p l s).hops =
      s.hops ++ [⟨s.time.tick + 2, ⟨s.time.tick, 0, l, 0, 0x4000 + p, false⟩, .producer, false⟩]) ∧
    (wagCarries s = false → (evpEdge p l s).hops = s.hops) := by
  rw [evpEdge_taken h hr, if_neg hb, srcIdOf_pin hp]
  dsimp only
  have hj := jput_same (pinStamped p l s) s.time.tick (.event ⟨s.time.tick, 0, l, 0, 0x4000 + p, false⟩ false)
  generalize jput (pinStamped p l s) s.time.tick (.event ⟨s.time.tick, 0, l, 0, 0x4000 + p, false⟩ false) = u at hj
  have hhops : u.hops = s.hops := hops_of_same (s := pinStamped p l s) hj (by decide)
  cases wagCarries s with
  | true => exact ⟨(hj.andThen (produce_same ..)).mono (by decide), fun _ => by rw [← hhops]; rfl, nofun⟩
  | false => exact ⟨hj.mono (by decide), nofun, fun _ => hhops⟩

theorem evpWake_service (h : PinEdge s p l) (hr : s.md.mode ≠ .replay) (hb : s.md.mode ≠ .standby) :
    evpWake p l s = if l then evpEdge p l s else statusPinFell p (evpEdge p l s) := by
  unfold evpWake
  dsimp only
  rw [if_neg (by simp [hb])]
  cases l <;> simp [h.ready, h.changes, h.input, hr]

/-- A status pin's fall raises its links' alarm, and nothing else follows an edge in service. -/
theorem evpWake_follows (h : PinEdge s p l) (hr : s.md.mode ≠ .replay) (hb : s.md.mode ≠ .standby) :
    SameBut [.faults] (evpEdge p l s) (evpWake p l s) := by
  rw [evpWake_service h hr hb]
  exact .ite (fun _ => .refl _ _) fun _ => statusPinFell_same ..

theorem evpWake_standby (h : PinEdge s p l) (hb : s.md.mode = .standby) : evpWake p l s =
    if s.sec.wakeEvp.getLsbD p then wakeLater (s.time.tick + horizonAt s s.time.tick) 3 p (pinStamped p l s)
    else if l then pinStamped p l s else statusPinFell p (pinStamped p l s) := by
  have hr : s.md.mode ≠ .replay := by simp [hb]
  unfold evpWake
  dsimp only
  rw [evpEdge_taken h hr, if_pos hb]
  cases s.sec.wakeEvp.getLsbD p <;> cases l <;> simp [hb, h.ready, h.changes, h.input]

theorem set_sec_same (s : State) (x : Security) : SameBut [.sec] s { s with sec := x } :=
  ⟨fun p hp => by cases p <;> simp_all [Part.Same, ctxAt]⟩

theorem wakeAt_of_same {m : List Part} (h : SameBut m s t) (hm : Part.sec ∉ m) : t.sec.wakeAt = s.sec.wakeAt := by
  have hsec : t.sec = { s.sec with epoch := t.sec.epoch, pwrEpoch := t.sec.pwrEpoch } := h.same .sec hm
  rw [hsec]

/-- A wake asked for in STANDBY while none is under way stands among those to come. -/
theorem wakeLater_waits {n c i : Nat} (hb : s.md.mode = .standby) (hw : s.sec.waking = false) :
    SameBut [.sec] s (wakeLater n c i s) ∧ (wakeLater n c i s).sec.wakeAt =
      if (n, c, i) ∉ s.sec.wakeAt then s.sec.wakeAt ++ [(n, c, i)] else s.sec.wakeAt := by
  rw [wakeLater, if_neg (by simp [hb]), if_neg (by simp [hw]), wakeWait]
  by_cases hmem : (n, c, i) ∈ s.sec.wakeAt
  · rw [if_pos (by simpa using hmem), if_neg (by simpa using hmem)]
    exact ⟨.refl _ s, rfl⟩
  · rw [if_neg (by simpa using hmem), if_pos hmem]
    exact ⟨set_sec_same s _, rfl⟩

/-- An edge in STANDBY: the pin's stamp, and the wake it asks for. -/
theorem evpWake_wakes (h : PinEdge s p l) (hb : s.md.mode = .standby) (hw : s.sec.waking = false) :
    SameBut [.sec, .faults] (pinStamped p l s) (evpWake p l s) ∧ (evpWake p l s).sec.wakeAt =
      if s.sec.wakeEvp.getLsbD p = true ∧ (s.time.tick + horizonAt s s.time.tick, 3, p) ∉ s.sec.wakeAt
      then s.sec.wakeAt ++ [(s.time.tick + horizonAt s s.time.tick, 3, p)] else s.sec.wakeAt := by
  rw [evpWake_standby h hb]
  generalize s.time.tick + horizonAt s s.time.tick = n
  by_cases he : s.sec.wakeEvp.getLsbD p = true
  · obtain ⟨hsame, hwake⟩ := wakeLater_waits (s := pinStamped p l s) (n := n) (c := 3) (i := p) hb hw
    rw [if_pos he, hwake]
    refine ⟨hsame.mono (by decide), ?_⟩
    simp only [he, true_and]
    rfl
  · rw [if_neg he, if_neg (c := _ ∧ _) (fun hc => he hc.1)]
    have hfell : SameBut [.faults] (pinStamped p l s) (if l then pinStamped p l s else statusPinFell p (pinStamped p l s)) :=
      .ite (fun _ => .refl _ _) fun _ => statusPinFell_same ..
    refine ⟨hfell.mono (by decide), ?_⟩
    rw [wakeAt_of_same hfell (by decide)]
    rfl

/-- An edge that an input pin takes in service. -/
theorem evpEdge_completes (hl : Live s) (hp : p < 32) (h : PinEdge s p l) (hr : s.md.mode ≠ .replay) (hb : s.md.mode ≠ .standby) :
    Completes (.evpEdge p l) s fun t =>
      pinLevelAt t p s.time.tick = l ∧ pinAt t p = { pinAt s p with hist := (pinAt t p).hist } ∧
      (∀ q, q ≠ p → pinAt t q = pinAt s q) ∧
      (wagCarries s = true → t.hops = s.hops ++
        [⟨s.time.tick + 2, ⟨s.time.tick, 0, l, 0, 0x4000 + p, false⟩, .producer, false⟩]) ∧
      (wagCarries s = false → t.hops = s.hops) ∧
      (l = false → (fltAt s .lnk).mask.getLsbD 6 = false → ∀ i, i < 16 → (linkAt s i).statusPin = p → (linkAt s i).st = .data →
        (fltAt t .lnk).status.getLsbD 6 = true) ∧
      SameBut [.pins, .hops, .jnl, .faults] s t := by
  refine .of_act (f := evpWake p l) hl.alive (if_pos (decide_eq_true hp)) ?_
  obtain ⟨hedge, hcarried, hdropped⟩ := evpEdge_service h hp hr hb
  have hstamp : SameBut [.pins] s (pinStamped p l s) := modPin_same s p _
  have hwake := (evpWake_follows h hr hb).settled s
  have hafter := hedge.andThen hwake
  have hhops : (settle s (evpWake p l s)).hops = (evpEdge p l s).hops := hops_of_same hwake (by decide)
  refine ⟨pinLevelAt_pinStamped hl.canon.pins hafter (by decide), ?_, fun q hq => ?_, fun hc => by rw [hhops, hcarried hc],
    fun hc => by rw [hhops, hdropped hc], fun hlow hm i hi hpin hdata => ?_, (hstamp.andThen hafter).mono (by decide)⟩
  · rw [pinAt_of_same hafter (by decide), pinAt_pinStamped hl.canon.pins]
  · rw [pinAt_of_same hafter (by decide)]
    exact pinAt_modPin_other hq _ s
  · have hbefore : SameBut [.pins, .jnl, .hops] s (evpEdge p l s) := hstamp.andThen hedge
    have hfaults : (evpEdge p l s).faults = s.faults := hbefore.same .faults (by decide)
    rw [fltAt_of_same (settle_same s _) (by decide), evpWake_service h hr hb, hlow, if_neg (by decide)]
    rw [hlow] at hbefore hfaults
    exact statusPinFell_status (by rw [hfaults]; exact hl.canon.faults) (by rwa [fltAt_of_same hbefore (by decide)]) hi
      (by rwa [linkAt_of_same hbefore (by decide)]) (by rwa [linkAt_of_same hbefore (by decide)])

/-- An edge that an input pin takes in STANDBY, while no wake is under way. -/
theorem evpEdge_wakes (hl : Live s) (hp : p < 32) (h : PinEdge s p l) (hb : s.md.mode = .standby) (hw : s.sec.waking = false) :
    Completes (.evpEdge p l) s fun t =>
      pinLevelAt t p s.time.tick = l ∧ t.sec.wakeAt =
        (if s.sec.wakeEvp.getLsbD p = true ∧ (s.time.tick + horizonAt s s.time.tick, 3, p) ∉ s.sec.wakeAt
          then s.sec.wakeAt ++ [(s.time.tick + horizonAt s s.time.tick, 3, p)] else s.sec.wakeAt) ∧
      t.hops = s.hops ∧ SameBut [.pins, .sec, .faults] s t := by
  refine .of_act (f := evpWake p l) hl.alive (if_pos (decide_eq_true hp)) ?_
  obtain ⟨hsame, hwake⟩ := evpWake_wakes h hb hw
  have hstamp : SameBut [.pins] s (pinStamped p l s) := modPin_same s p _
  have hafter := hsame.settled s
  refine ⟨pinLevelAt_pinStamped hl.canon.pins hafter (by decide), ?_, ?_, (hstamp.andThen hafter).mono (by decide)⟩
  · rw [wakeAt_of_same (settle_same s _) (by decide), hwake]
  · rw [hops_of_same hafter (by decide)]
    rfl

end Sys2Proof.Arch

/-! Edges and drives of swarm lines, and the end of a pin's pulse (R216, R250 to R252). -/

namespace Sys2Proof.Arch

open Sys2Proof Sys2Proof.Machine Sys2Proof.Safety Sys2Proof.Laws Sys2Proof.Scope

variable {s t u : State} {l k : Nat} {v : Bool} {e : HeldEdge}

/-! ### The level register -/

/-- The swarm level register with one line's level taken. -/
def lineLevel (x : BitVec 16) (l : Nat) (v : Bool) : BitVec 16 :=
  if v then x ||| BitVec.ofNat 16 (2 ^ l) else x &&& ~~~BitVec.ofNat 16 (2 ^ l)

theorem lineBit_getLsbD (hl : l < 16) (j : Nat) : (BitVec.ofNat 16 (2 ^ l)).getLsbD j = decide (l = j) := by
  rw [BitVec.getLsbD_ofNat, Nat.testBit_two_pow]
  by_cases h : l = j
  · subst h
    simp [hl]
  · simp [h]

theorem lineLevel_getLsbD (hl : l < 16) (x : BitVec 16) (v : Bool) (j : Nat) :
    (lineLevel x l v).getLsbD j = if j = l then v else x.getLsbD j := by
  have hx : 16 ≤ j → x.getLsbD j = false := BitVec.getLsbD_of_ge x j
  cases v with
  | true =>
    rw [lineLevel, if_pos rfl, BitVec.getLsbD_or, lineBit_getLsbD hl]
    by_cases hj : j = l
    · simp [hj]
    · simp [hj, Ne.symm hj]
  | false =>
    rw [lineLevel, if_neg (by decide), BitVec.getLsbD_and, BitVec.getLsbD_not, lineBit_getLsbD hl]
    by_cases hj : j = l
    · simp [hj]
    · by_cases hj16 : j < 16
      · simp [hj, hj16, Ne.symm hj]
      · simp [hj, hx (by omega)]

/-! ### Two edges of a line in one window (R251) -/

/-- An edge stands against another of its line in the same window. -/
def edgeClash (e o : HeldEdge) : Bool := o.line = e.line && edgeWindow o = edgeWindow e

theorem addEdge_eq (es : List HeldEdge) (e : HeldEdge) :
    addEdge es e = if es.any (edgeClash e) then (es.filter fun o => !edgeClash e o, true) else (es ++ [e], false) := rfl

theorem addEdge_clashes (es : List HeldEdge) (e : HeldEdge) : (addEdge es e).2 = es.any (edgeClash e) := by
  rw [addEdge_eq]
  cases es.any (edgeClash e) <;> rfl

theorem addEdge_new {es : List HeldEdge} (h : es.any (edgeClash e) = false) : addEdge es e = (es ++ [e], false) := by
  rw [addEdge_eq, h]
  rfl

/-! ### What an edge that is used does -/

theorem swlUse_eq (e : HeldEdge) (m : Bool) (s : State) : swlUse e m s =
    let s1 := modPin s (32 + e.line) fun x => { x with hist := histAdd e.origin e.level x.hist }
    let s2 := jput { s1 with col := { s1.col with swlLevel := lineLevel s.col.swlLevel e.line e.level } } e.origin
      (.swarm ⟨e.origin, 0, e.level, 0, srcIdOf 2 1 e.line, false⟩ e.comp m)
    if wagCarries s then produce s2 (srcIdOf 2 1 e.line) e.origin e.level 0 else s2 := rfl

/-- An edge used is stamped on its pin, shows in the level register, is journalled, and goes on its way where the waggle carries. -/
theorem swlUse_effect (he : e.line < 16) (m : Bool) (s : State) :
    (swlUse e m s).col = { s.col with swlLevel := lineLevel s.col.swlLevel e.line e.level } ∧
    (wagCarries s = true → (swlUse e m s).hops =
      s.hops ++ [⟨e.origin + 2, ⟨e.origin, 0, e.level, 0, 0x4400 + e.line, false⟩, .producer, false⟩]) ∧
    (∀ q, q ≠ 32 + e.line → pinAt (swlUse e m s) q = pinAt s q) ∧ SameBut [.pins, .hops, .jnl, .col] s (swlUse e m s) := by
  rw [swlUse_eq, srcIdOf_swl he]
  extract_lets s1 c s2
  have h1 : SameBut [.pins] s s1 := modPin_same s _ _
  have hcol : SameBut [.col] s1 { s1 with col := { s1.col with swlLevel := lineLevel s.col.swlLevel e.line e.level } } := set_col_same s1 _
  have hj : SameBut [.jnl] _ s2 := jput_same _ _ _
  have h2 : SameBut [.pins, .jnl, .col] s s2 := ((h1.andThen hcol).andThen hj).mono (by decide)
  have hs2 : s2.col = { s.col with swlLevel := lineLevel s.col.swlLevel e.line e.level } := jput_col ..
  have hpins (q : Nat) (hq : q ≠ 32 + e.line) : pinAt s2 q = pinAt s q := by
    rw [pinAt_of_same (hcol.andThen hj) (by decide)]
    exact pinAt_modPin_other hq _ s
  have hhops : s2.hops = s.hops := hops_of_same h2 (by decide)
  cases wagCarries s with
  | true =>
    have hp : SameBut [.hops] s2 (produce s2 (0x4400 + e.line) e.origin e.level 0) := produce_same ..
    exact ⟨hs2, fun _ => by rw [← hhops]; rfl, fun q hq => hpins q hq, (h2.andThen hp).mono (by decide)⟩
  | false => exact ⟨hs2, nofun, hpins, h2.mono (by decide)⟩

/-- The edges that a new one is held against: all of them on a manager, those of its window elsewhere. -/
def windowRivals (s : State) (e : HeldEdge) : List HeldEdge :=
  s.col.windowEdges.filter fun o => s.col.role = 1 || edgeWindow o = edgeWindow e

theorem windowRivals_clash (s : State) (e : HeldEdge) : (windowRivals s e).any (edgeClash e) = s.col.windowEdges.any (edgeClash e) := by
  rw [windowRivals, List.any_filter]
  congr 1
  funext o
  by_cases h : edgeClash e o = true
  · have hw : edgeWindow o = edgeWindow e := by
      simp only [edgeClash, Bool.and_eq_true, decide_eq_true_eq] at h
      exact h.2
    simp [h, hw]
  · simp [h]

theorem noteEdge_eq (e : HeldEdge) (s : State) : noteEdge e s =
    let r := addEdge (windowRivals s e) e
    let s1 := { s with col := { s.col with windowEdges := r.1 } }
    if r.2 then colFault 7 0 e.line s1 else s1 := rfl

theorem noteEdge_new (h : s.col.windowEdges.any (edgeClash e) = false) :
    noteEdge e s = { s with col := { s.col with windowEdges := windowRivals s e ++ [e] } } := by
  have hadd : addEdge (windowRivals s e) e = (windowRivals s e ++ [e], false) := addEdge_new (by rw [windowRivals_clash, h])
  rw [noteEdge_eq, hadd]
  rfl

theorem noteEdge_clash (h : s.col.windowEdges.any (edgeClash e) = true) :
    noteEdge e s = colFault 7 0 e.line { s with col := { s.col with windowEdges := (addEdge (windowRivals s e) e).1 } } := by
  have hadd : (addEdge (windowRivals s e) e).2 = true := by rw [addEdge_clashes, windowRivals_clash, h]
  exact if_pos hadd

/-! ### An edge of a line (R250, R251) -/

/-- The compensated time of an edge that comes at a sub-tick. -/
def swlComp (s : State) (l k : Nat) : Nat := (1024 * s.time.tick + k % 1024 - tget 0 s.col.swlComp l) / 64

/-- The edge as a worker holds it and a manager uses it. -/
def lineEdge (s : State) (l k : Nat) (v : Bool) : HeldEdge := ⟨l, v, swlComp s l k / 16 + 1, swlComp s l k, false⟩

/-- An edge that a line takes in service: device time runs, the level is new, and the edge ends no calibration pulse. -/
structure LineEdge (s : State) (l : Nat) (v : Bool) : Prop where
  ready : s.time.ready = true
  changes : swlLast s l ≠ v
  replay : s.md.mode ≠ .replay
  standby : s.md.mode ≠ .standby
  plain : v = true ∨ tget 0 s.col.calLines l = 0

theorem swlEdge_service (h : LineEdge s l v) : swlEdge l v k s =
    if s.col.role = 2 then
      let r := addEdge s.col.heldEdges (lineEdge s l k v)
      let s1 := { s with col := { s.col with heldEdges := r.1 } }
      if r.2 then colFault 7 0 l s1 else s1
    else noteEdge (lineEdge s l k v) (swlUse (lineEdge s l k v) true s) := by
  have hstamp : (if v then s else stampPulse l (1024 * s.time.tick + k % 1024) s) = s := by
    rcases h.plain with hv | hc
    · exact if_pos hv
    · cases v with
      | true => rfl
      | false => exact (if_neg (by decide)).trans (if_pos (.inl hc))
  unfold swlEdge
  rw [if_neg (by simp [h.ready, h.changes, h.replay])]
  dsimp only
  rw [hstamp, if_neg h.standby]
  rfl

/-- A worker holds an edge until its window's frame. -/
theorem swlEdge_held (h : LineEdge s l v) (hrole : s.col.role = 2) (hnew : (addEdge s.col.heldEdges (lineEdge s l k v)).2 = false) :
    swlEdge l v k s = { s with col := { s.col with heldEdges := s.col.heldEdges ++ [lineEdge s l k v] } } := by
  rw [swlEdge_service h, if_pos hrole, addEdge_new (by rw [← addEdge_clashes, hnew])]
  rfl

/-- Elsewhere an edge is used at once; alone in its window, it is noted. -/
theorem swlEdge_used (hl : l < 16) (h : LineEdge s l v) (hrole : s.col.role ≠ 2)
    (hnew : s.col.windowEdges.any (edgeClash (lineEdge s l k v)) = false) :
    (swlEdge l v k s).col = { s.col with
      swlLevel := lineLevel s.col.swlLevel l v, windowEdges := windowRivals s (lineEdge s l k v) ++ [lineEdge s l k v] } ∧
    (wagCarries s = true → (swlEdge l v k s).hops = s.hops ++
      [⟨swlComp s l k / 16 + 3, ⟨swlComp s l k / 16 + 1, 0, v, 0, 0x4400 + l, false⟩, .producer, false⟩]) ∧
    (∀ q, q ≠ 32 + l → pinAt (swlEdge l v k s) q = pinAt s q) ∧ SameBut [.pins, .hops, .jnl, .col] s (swlEdge l v k s) := by
  obtain ⟨hcol, hhops, hpins, hsame⟩ := swlUse_effect (e := lineEdge s l k v) hl true s
  have hrivals : windowRivals (swlUse (lineEdge s l k v) true s) (lineEdge s l k v) = windowRivals s (lineEdge s l k v) := by
    rw [windowRivals, hcol, windowRivals]
  rw [swlEdge_service h, if_neg hrole, noteEdge_new (by rw [hcol]; exact hnew), hrivals, hcol]
  exact ⟨rfl, hhops, hpins, (hsame.andThen (set_col_same _ _)).mono (by decide)⟩

/-- A fault of the colony that is not grave is raised. -/
theorem colFault_raise {cls : Nat} (hc : cls ≠ 3) (bit obj : Nat) (s : State) :
    colFault bit cls obj s = raise s { block := .col, bit := bit, cls := cls, obj := obj, master := 0xB, scope := [obj] } :=
  if_neg hc

/-- A second edge of its line in its window is a fault. -/
theorem swlEdge_clash (hl : l < 16) (h : LineEdge s l v) (hrole : s.col.role ≠ 2) (hw : twf {} s.faults = true)
    (hm : (fltAt s .col).mask.getLsbD 7 = false) (hold : s.col.windowEdges.any (edgeClash (lineEdge s l k v)) = true) :
    (fltAt (swlEdge l v k s) .col).status.getLsbD 7 = true ∧ (swlEdge l v k s).col.swlLevel = lineLevel s.col.swlLevel l v ∧
    SameBut [.pins, .hops, .jnl, .col, .faults] s (swlEdge l v k s) := by
  obtain ⟨hcol, -, -, hsame⟩ := swlUse_effect (e := lineEdge s l k v) hl true s
  rw [swlEdge_service h, if_neg hrole, noteEdge_clash (by rw [hcol]; exact hold)]
  generalize (addEdge (windowRivals (swlUse (lineEdge s l k v) true s) (lineEdge s l k v)) (lineEdge s l k v)).1 = es
  have hset := set_col_same (swlUse (lineEdge s l k v) true s) { (swlUse (lineEdge s l k v) true s).col with windowEdges := es }
  have hnoted := hsame.andThen hset
  generalize hu : { swlUse (lineEdge s l k v) true s with
    col := { (swlUse (lineEdge s l k v) true s).col with windowEdges := es } } = u at *
  have hfault := colFault_same (cls := 0) (by decide) 7 l u
  refine ⟨?_, ?_, (hnoted.andThen hfault).mono (by decide)⟩
  · rw [colFault_raise (by decide)]
    refine raise_status (o := { block := .col, bit := 7, cls := 0, obj := l, master := 0xB, scope := [l] }) ?_ (show 7 < 32 by omega) ?_
    · rw [hnoted.same .faults (by decide)]
      exact hw
    · rw [fltAt_of_same hnoted (by decide)]
      exact hm
  · rw [colFault_raise (by decide), raise_col, ← hu, hcol]
    rfl

/-! ### The end of a pulse, and drives of a line (R216, R252) -/

theorem pinIdle_effect (hw : twf {} s.pins = true) (p : Nat) :
    (∃ x, pinAt (pinIdle p s) p = { pinAt s p with drive := (pinAt s p).idle, pulseEnd := none, hist := x }) ∧
    (∀ q, q ≠ p → pinAt (pinIdle p s) q = pinAt s q) ∧ SameBut [.pins] s (pinIdle p s) := by
  refine ⟨?_, fun q hq => pinAt_modPin_other hq _ s, modPin_same s p _⟩
  rw [pinIdle, drivePin, pinAt_modPin hw]
  dsimp only
  split
  · exact ⟨_, rfl⟩
  · exact ⟨(pinAt s p).hist, rfl⟩

/-- The instant falls in this tick: it has come, and it is set. -/
theorem instant_due {n m : Nat} (h0 : n ≠ 0) (hm : n < m) : ¬ (n = 0 ∨ m ≤ n) := by omega

/-- Settles O35: an input pin's edge by its stamp, a line's edge by the role that takes it. -/
theorem pinEvents : Obligations.PinEvents := by
  unfold Obligations.PinEvents
  refine ⟨?_, ?_, ?_, ?_, ?_, ?_, ?_, ?_, ?_⟩
  · exact fun s p l hl hp hr hc hin hn hrep hst => evpEdge_completes hl hp ⟨hr, hc, hin, hn⟩ hrep hst
  · exact fun s p l hl hp hr hc hin hn hst hw => evpEdge_wakes hl hp ⟨hr, hc, hin, hn⟩ hst hw
  · intro s l v k hl hi hr hc hrep hst hplain hrole c hnew
    refine .of_act (f := swlEdge l v k) hl.alive (if_pos (decide_eq_true hi)) ?_
    rw [swlEdge_held ⟨hr, hc, hrep, hst, hplain⟩ hrole hnew]
    exact settle_same s _
  · intro s l v k hl hi hr hc hrep hst hplain hrole c hnew
    refine .of_act (f := swlEdge l v k) hl.alive (if_pos (decide_eq_true hi)) ?_
    obtain ⟨hcol, hhops, hpins, hsame⟩ := swlEdge_used (k := k) hi ⟨hr, hc, hrep, hst, hplain⟩ (by rw [hrole]; decide) hnew
    have hset := settle_same s (swlEdge l v k s)
    have hlevel : (settle s (swlEdge l v k s)).col.swlLevel = lineLevel s.col.swlLevel l v := by
      rw [settle_col, hcol]
    rw [hlevel, hops_of_same hset (by decide)]
    refine ⟨?_, fun j hj => ?_, hhops, fun q hq => ?_, hsame.settled s⟩
    · rw [lineLevel_getLsbD hi, if_pos rfl]
    · rw [lineLevel_getLsbD hi, if_neg hj]
    · rw [pinAt_of_same hset (by decide), hpins q hq]
  · intro s l v k hl hi hr hc hrep hst hplain hrole c hnew
    refine .of_act (f := swlEdge l v k) hl.alive (if_pos (decide_eq_true hi)) ?_
    have hclash : s.col.windowEdges.any (edgeClash (lineEdge s l k v)) = false := by rw [← addEdge_clashes]; exact hnew
    obtain ⟨hcol, -, -, hsame⟩ := swlEdge_used (k := k) hi ⟨hr, hc, hrep, hst, hplain⟩ (by rw [hrole]; decide) hclash
    have hrivals : windowRivals s (lineEdge s l k v) = s.col.windowEdges := by simp [windowRivals, hrole]
    rw [settle_col, hcol, hrivals]
    exact ⟨rfl, by rw [lineLevel_getLsbD hi, if_pos rfl], hsame.settled s⟩
  · intro s l v k hl hi hr hc hrep hst hplain hrole hm c hold
    refine .of_act (f := swlEdge l v k) hl.alive (if_pos (decide_eq_true hi)) ?_
    obtain ⟨hstatus, hlevel, hsame⟩ := swlEdge_clash (k := k) hi ⟨hr, hc, hrep, hst, hplain⟩ hrole hl.canon.faults hm hold
    rw [fltAt_of_same (settle_same s _) (by decide), settle_col]
    exact ⟨hstatus, by rw [hlevel, lineLevel_getLsbD hi, if_pos rfl], hsame.settled s⟩
  · intro s p e hl hp hend hdue
    refine .of_act (f := pinPulseEnd p) hl.alive (if_pos (decide_eq_true hp)) ?_
    have hturn : pinPulseEnd p s = pinIdle p s := by
      unfold pinPulseEnd
      rw [hend]
      exact if_pos hdue
    obtain ⟨⟨x, hpin⟩, hother, hsame⟩ := pinIdle_effect hl.canon.pins p
    have hset := settle_same s (pinIdle p s)
    rw [hturn, pinAt_of_same hset (by decide), hpin]
    refine ⟨rfl, rfl, rfl, fun q hq => ?_, hsame.settled s⟩
    rw [pinAt_of_same hset (by decide), hother q hq]
  · intro s l hl hi h0 hdue
    refine .of_act (f := swarmDriveLaunch l) hl.alive (if_pos (decide_eq_true hi)) ?_
    rw [swarmDriveLaunch, if_neg (instant_due h0 hdue)]
    exact settle_same s _
  · intro s l hl hi h0 hdue
    refine .of_act (f := swarmDriveRelease l) hl.alive (if_pos (decide_eq_true hi)) ?_
    rw [swarmDriveRelease, if_neg (instant_due h0 hdue)]
    exact settle_same s _

end Sys2Proof.Arch

/-! Telemetry samples (R52, R375, R376). -/

namespace Sys2Proof.Arch

open Sys2Proof Sys2Proof.Machine Sys2Proof.Safety Sys2Proof.Laws Sys2Proof.Scope

variable {s : State} {i lo hi : Nat} {v : BitVec 16}

/-- An occurrence of class 2 or more stands in its block's status, masked or not (R409). -/
theorem raise_status_unmaskable {o : Occ} (hw : twf {} s.faults = true) (hb : o.bit < 32) (hc : 2 ≤ o.cls) :
    (fltAt (raise s o) o.block).status.getLsbD o.bit = true := by
  have hf : (raise s o).faults = tmod {} s.faults (blockNum o.block) fun _ => recordIn s o := by
    simp only [raise, Nat.not_lt.mpr hc, decide_false, Bool.and_false, Bool.false_eq_true, if_false]
    split <;> simp [modFlt]
  have hr : fltAt (raise s o) o.block = recordIn s o := by
    rw [fltAt, hf, tget_tmod_same hw]
  rw [hr]
  simp only [recordIn, standIn_status, BitVec.getLsbD_or, getLsbD_ofNat_two_pow hb, Bool.or_true]

theorem paceLink_status (hw : twf {} s.faults = true) : (fltAt (paceLink s) .tim).status.getLsbD 9 = true := by
  unfold paceLink timFault
  generalize ho : ({ block := .tim, bit := 9, cls := 2, obj := 0, scope := if 7 ≤ 9 then [0, 1, 2, 3] else [] } : Occ) = o
  have hblock : o.block = .tim := ho ▸ rfl
  have hbit : o.bit = 9 := ho ▸ rfl
  have hcls : o.cls = 2 := ho ▸ rfl
  rw [← hblock, ← hbit]
  exact raise_status_unmaskable hw (by omega) (by omega)

theorem set_svc_same (s : State) (x : Service) : SameBut [.svc] s { s with svc := x } :=
  ⟨fun p hp => by cases p <;> simp_all [Part.Same, ctxAt]⟩

theorem supplyRange_channels (h : supplyRange i = some (lo, hi)) : i = 16 ∨ 20 ≤ i ∧ i ≤ 26 := by
  unfold supplyRange at h
  split at h <;> simp_all

/-! ### A supply's range (R376) -/

theorem noteSupply_within {n : Nat} (hlo : lo ≤ n) (hhi : n ≤ hi) :
    noteSupply i n lo hi s = { s with svc := { s.svc with outOfRange := tset 0 s.svc.outOfRange i 0 } } := by
  unfold noteSupply
  rw [if_neg (c := n < lo ∨ hi < n) (by omega)]
  rfl

/-- A sample out of range, counted: the tenth in a row raises SUPPLY. -/
theorem noteSupply_out {n : Nat} (h : n < lo ∨ hi < n) : noteSupply i n lo hi s =
    let s1 := { s with svc := { s.svc with outOfRange := tset 0 s.svc.outOfRange i (min 10 (tget 0 s.svc.outOfRange i + 1)) } }
    if min 10 (tget 0 s.svc.outOfRange i + 1) = 10 then raise s1 { block := .bgs, bit := 5, cls := 1, obj := i, master := 7 } else s1 := by
  unfold noteSupply
  rw [if_pos (c := n < lo ∨ hi < n) h]
  rfl

theorem noteSupply_effect {n : Nat} (h : n < lo ∨ hi < n) (hw : twf {} s.faults = true) (hm : (fltAt s .bgs).mask.getLsbD 5 = false) :
    (noteSupply i n lo hi s).svc.outOfRange = tset 0 s.svc.outOfRange i (min 10 (tget 0 s.svc.outOfRange i + 1)) ∧
    (9 ≤ tget 0 s.svc.outOfRange i → (fltAt (noteSupply i n lo hi s) .bgs).status.getLsbD 5 = true) ∧
    (tget 0 s.svc.outOfRange i < 9 → (noteSupply i n lo hi s).faults = s.faults) ∧ SameBut [.svc, .faults] s (noteSupply i n lo hi s) := by
  rw [noteSupply_out h]
  generalize tget 0 s.svc.outOfRange i = old
  dsimp only
  have hset := set_svc_same s { s.svc with outOfRange := tset 0 s.svc.outOfRange i (min 10 (old + 1)) }
  by_cases ho : 9 ≤ old
  · rw [if_pos (by omega)]
    refine ⟨by rw [raise_svc], fun _ => ?_, fun hlt => by omega, hset.andThen (raise_same ..)⟩
    exact raise_status (o := { block := .bgs, bit := 5, cls := 1, obj := i, master := 7 }) hw (show 5 < 32 by omega) hm
  · rw [if_neg (by omega)]
    exact ⟨rfl, fun h => absurd h ho, fun _ => rfl, hset.mono (by decide)⟩

/-! ### The samples (R375) -/

theorem noteHottest_effect (s : State) : (noteHottest s).svc = (noteTelem 27 (hottest s) s).svc ∧ SameBut [.svc, .faults] s (noteHottest s) := by
  have hnote : SameBut [.svc] s (noteTelem 27 (hottest s) s) := set_svc_same s _
  unfold noteHottest
  dsimp only
  split
  · exact ⟨raise_svc .., hnote.andThen (raise_same ..)⟩
  · exact ⟨rfl, hnote.mono (by decide)⟩

theorem telemetrySample_sensor (hr : serviceRuns s = true) (hi : i < 16) : telemetrySample i v s = noteHottest (noteTelem i v s) := by
  rw [telemetrySample, if_neg (by simp [hr]), if_pos (.inl hi), if_neg (by omega)]

/-- A channel of no supply that is no sensor's. -/
theorem telemetrySample_other (hr : serviceRuns s = true) (h16 : 16 < i) (h27 : i ≠ 27) (hn : supplyRange i = none) :
    telemetrySample i v s = if i = 19 ∧ v &&& 0xFF7F ≠ 0 then paceLink (noteTelem i v s) else noteTelem i v s := by
  rw [telemetrySample, if_neg (by simp [hr]), if_neg (by omega), hn]
  dsimp only
  rw [if_neg (by omega)]

/-- A supply's channel but for VDD_CORE's. -/
theorem telemetrySample_supply (hr : serviceRuns s = true) (h16 : i ≠ 16) (hs : supplyRange i = some (lo, hi)) :
    telemetrySample i v s = noteSupply i v.toNat lo hi (noteTelem i v s) := by
  have hchan := supplyRange_channels hs
  rw [telemetrySample, if_neg (by simp [hr]), if_neg (by omega), hs]
  dsimp only
  rw [if_neg h16, if_neg (by omega)]

theorem telemetrySample_core (hr : serviceRuns s = true) : telemetrySample 16 v s =
    { noteSupply 16 v.toNat 650 850 (noteTelem 16 v s) with
      pace := { (noteSupply 16 v.toNat 650 850 (noteTelem 16 v s)).pace with vread := v.toNat % 1024 } } := by
  rw [telemetrySample, if_neg (by simp [hr]), if_neg (by omega)]
  exact if_pos rfl

/-- A sensor's sample. -/
theorem telemetry_sensor (hl : Live s) (hi : i < 16) (hr : serviceRuns s = true) : Completes (.telemetrySample i v) s fun t =>
    t.svc = { s.svc with
      telem := tset 0 (tset 0 s.svc.telem i v) 27 (hottest (noteTelem i v s)),
      telemTick := tset 0 (tset 0 s.svc.telemTick i s.time.tick) 27 s.time.tick } ∧ SameBut [.svc, .faults] s t := by
  refine .of_act (f := telemetrySample i v) hl.alive (if_pos (decide_eq_true (by omega))) ?_
  rw [telemetrySample_sensor hr hi, settle_svc]
  obtain ⟨hsvc, hsame⟩ := noteHottest_effect (noteTelem i v s)
  have hnote : SameBut [.svc] s (noteTelem i v s) := set_svc_same s _
  exact ⟨hsvc, ((hnote.andThen hsame).mono (by decide)).settled s⟩

/-- A supply's sample out of its range. -/
theorem telemetry_out (hl : Live s) (hchan : i < 28) (h16 : i ≠ 16) (hr : serviceRuns s = true)
    (hs : supplyRange i = some (lo, hi)) (ho : v.toNat < lo ∨ hi < v.toNat) (hm : (fltAt s .bgs).mask.getLsbD 5 = false) :
    Completes (.telemetrySample i v) s fun t =>
      t.svc.outOfRange = tset 0 s.svc.outOfRange i (min 10 (tget 0 s.svc.outOfRange i + 1)) ∧
      (9 ≤ tget 0 s.svc.outOfRange i → (fltAt t .bgs).status.getLsbD 5 = true) ∧
      (tget 0 s.svc.outOfRange i < 9 → t.faults = s.faults) ∧ SameBut [.svc, .faults] s t := by
  refine .of_act (f := telemetrySample i v) hl.alive (if_pos (decide_eq_true hchan)) ?_
  rw [telemetrySample_supply hr h16 hs]
  have hnote : SameBut [.svc] s (noteTelem i v s) := set_svc_same s _
  obtain ⟨hcount, hstatus, hfaults, hsame⟩ := noteSupply_effect (i := i) (s := noteTelem i v s) ho hl.canon.faults hm
  rw [settle_svc, settle_faults, fltAt_of_same (settle_same s _) (by decide)]
  exact ⟨hcount, hstatus, hfaults, ((hnote.andThen hsame).mono (by decide)).settled s⟩

/-- VDD_CORE's sample within its range. -/
theorem telemetry_core (hl : Live s) (hr : serviceRuns s = true) (hlo : 650 ≤ v.toNat) (hhi : v.toNat ≤ 850) :
    Completes (.telemetrySample 16 v) s (SameBut [] { s with
      pace := { s.pace with vread := v.toNat }, svc := { s.svc with
        telem := tset 0 s.svc.telem 16 v, telemTick := tset 0 s.svc.telemTick 16 s.time.tick,
        outOfRange := tset 0 s.svc.outOfRange 16 0 } }) := by
  refine .of_act (f := telemetrySample 16 v) hl.alive rfl ?_
  rw [telemetrySample_core hr, noteSupply_within hlo hhi, Nat.mod_eq_of_lt (by omega)]
  exact settle_same s _

/-- The regulator's status with a fault bit. -/
theorem telemetry_regulator (hl : Live s) (hr : serviceRuns s = true) (hv : v &&& 0xFF7F ≠ 0) : Completes (.telemetrySample 19 v) s fun t =>
    t.pace = { s.pace with fault := true } ∧ (fltAt t .tim).status.getLsbD 9 = true ∧ SameBut [.svc, .pace, .faults] s t := by
  refine .of_act (f := telemetrySample 19 v) hl.alive rfl ?_
  rw [telemetrySample_other hr (by decide) (by decide) rfl, if_pos ⟨rfl, hv⟩]
  have hnote : SameBut [.svc] s (noteTelem 19 v s) := set_svc_same s _
  have hpace : (paceLink (noteTelem 19 v s)).pace = { s.pace with fault := true } := (paceLink_raises (noteTelem 19 v s)).same .pace (by decide)
  rw [settle_pace, hpace, fltAt_of_same (settle_same s _) (by decide)]
  exact ⟨rfl, paceLink_status (s := noteTelem 19 v s) hl.canon.faults, (hnote.andThen (paceLink_same _)).settled s⟩

end Sys2Proof.Arch

/-! Grooming of banks (R138, R139, R141, R142). -/

namespace Sys2Proof.Arch

open Sys2Proof Sys2Proof.Machine Sys2Proof.Safety Sys2Proof.Laws Sys2Proof.Scope

variable {s t u : State} {h b g k w : Nat} {ws : List Nat} {m acc : Nat}

theorem set_combMarks_same (s : State) (x y : List Nat) : SameBut [.combMarks] s { s with combUe := x, combCe := y } :=
  ⟨fun p hp => by cases p <;> simp_all [Part.Same, ctxAt]⟩

theorem FaultsGrow.refl (hw : twf {} s.faults = true) : FaultsGrow s s := ⟨hw, fun _ => rfl, fun _ _ h => h⟩

/-! ### Hives read and written -/

theorem hiveAt_of_same {l : List Part} (hsame : SameBut l s t) (hl : Part.hives ∉ l) (k : Nat) : hiveAt t k = hiveAt s k := by
  have hh : t.hives = s.hives := hsame.same .hives hl
  rw [hiveAt, hiveAt, hh]

/-- A hive is as it was but for its error counters. -/
def HiveCounted (x y : Hive) : Prop := ∃ ue play catchs, y = { x with ueCount := ue, cePlay := play, ceCatch := catchs }

theorem HiveCounted.refl (x : Hive) : HiveCounted x x := ⟨x.ueCount, x.cePlay, x.ceCatch, rfl⟩

theorem HiveCounted.trans {x y z : Hive} (hx : HiveCounted x y) (hy : HiveCounted y z) : HiveCounted x z := by
  obtain ⟨_, _, _, rfl⟩ := hx
  obtain ⟨a, b, c, rfl⟩ := hy
  exact ⟨a, b, c, rfl⟩

/-- A hive's counters written leave its readiness epoch. -/
theorem modHive_counted {f : Hive → Hive} (hf : ∀ x, HiveCounted x (f x)) (s : State) (h : Nat) :
    modHive s h f = { s with hives := tmod {} s.hives h f } := by
  have hx := hf (hiveAt s h)
  unfold modHive putHive
  generalize hy : f (hiveAt s h) = y at hx
  obtain ⟨ue, play, catchs, rfl⟩ := hx
  dsimp only
  rw [if_pos ⟨rfl, rfl, rfl⟩, ← hy]
  rfl

/-! ### Words that the service port reads (R138) -/

/-- What reading words of a hive leaves: its error counters and the marks of correctable errors of those words change. -/
structure WordsTouched (h : Nat) (ws : List Nat) (s t : State) : Prop where
  canon : twf {} t.hives = true
  grows : FaultsGrow s t
  here : HiveCounted (hiveAt s h) (hiveAt t h)
  other : ∀ k, k ≠ h → hiveAt t k = hiveAt s k
  ue : t.combUe = s.combUe
  ce : ∀ w, w ∈ s.combCe → w ∉ ws → w ∈ t.combCe
  same : SameBut [.hives, .faults, .combMarks] s t

theorem WordsTouched.refl (hh : twf {} s.hives = true) (hf : twf {} s.faults = true) : WordsTouched h ws s s :=
  ⟨hh, .refl hf, .refl _, fun _ _ => rfl, rfl, fun _ hw _ => hw, .refl _ s⟩

theorem WordsTouched.trans (ht : WordsTouched h ws s t) (hu : WordsTouched h ws t u) : WordsTouched h ws s u :=
  ⟨hu.canon, ht.grows.trans hu.grows, ht.here.trans hu.here, fun k hk => (hu.other k hk).trans (ht.other k hk), hu.ue.trans ht.ue,
    fun w hw hn => hu.ce w (ht.ce w hw hn) hn, ht.same.trans hu.same⟩

theorem modHive_touched {f : Hive → Hive} (hf : ∀ x, HiveCounted x (f x)) (hh : twf {} s.hives = true) (hw : twf {} s.faults = true) :
    WordsTouched h ws s (modHive s h f) := by
  have hsame : SameBut [.hives] s (modHive s h f) := modHive_same s h f
  have hgrows := faultsGrow_of_same hw hsame (by decide)
  rw [modHive_counted hf] at hsame hgrows ⊢
  refine ⟨twf_tmod hh h f, hgrows, ?_, fun k hk => tget_tmod_other _ _ hk f, rfl, fun _ hw _ => hw, hsame.mono (by decide)⟩
  have hread : hiveAt { s with hives := tmod {} s.hives h f } h = f (hiveAt s h) := tget_tmod_same hh h f
  rw [hread]
  exact hf _

theorem raise_touched (o : Occ) (hh : twf {} s.hives = true) (hw : twf {} s.faults = true) : WordsTouched h ws s (raise s o) :=
  ⟨by rwa [raise_hives], raise_grows hw o, by rw [hiveAt_of_same (raise_same s o) (by decide)]; exact .refl _,
    fun k _ => hiveAt_of_same (raise_same s o) (by decide) k, raise_combUe .., fun w hw _ => by rwa [raise_combCe],
    (raise_same s o).mono (by decide)⟩

theorem touchWord_touched (hwh : w / 0x40000 = h) (hws : w ∈ ws) (hh : twf {} s.hives = true) (hf : twf {} s.faults = true) :
    WordsTouched h ws s (touchWord m acc w s) := by
  unfold touchWord
  rw [hwh]
  dsimp only
  split
  · exact modHive_touched (fun x => ⟨_, _, _, rfl⟩) hh hf
  · split
    · have hmarks : WordsTouched h ws s { s with combCe := s.combCe.erase w } :=
        ⟨hh, ⟨hf, fun _ => rfl, fun _ _ h => h⟩, .refl _, fun _ _ => rfl, rfl,
          fun v hv hn => (List.mem_erase_of_ne (fun he : v = w => hn (he ▸ hws))).mpr hv, (set_combMarks_same s s.combUe _).mono (by decide)⟩
      have hcount := hmarks.trans (modHive_touched (h := h) (ws := ws) (s := { s with combCe := s.combCe.erase w })
        (f := fun x => if isCatch (8 * w) then { x with ceCatch := sat 0xFFFF x.ceCatch } else { x with cePlay := sat 0xFFFF x.cePlay })
        (fun x => by split <;> exact ⟨_, _, _, rfl⟩) hh hf)
      exact hcount.trans (raise_touched _ hcount.canon hcount.grows.canon)
    · exact .refl hh hf

theorem touchWords_touched (hwh : ∀ w ∈ ws, w / 0x40000 = h) (hh : twf {} s.hives = true) (hf : twf {} s.faults = true) :
    WordsTouched h ws s (ws.foldl (fun s w => touchWord m acc w s) s) := by
  suffices hall : ∀ vs : List Nat, vs ⊆ ws → ∀ u, WordsTouched h ws s u →
      WordsTouched h ws s (vs.foldl (fun s w => touchWord m acc w s) u) from hall ws (fun _ hv => hv) s (.refl hh hf)
  intro vs
  induction vs with
  | nil => exact fun _ u hu => hu
  | cons v vs ih =>
    intro hsub u hu
    have hv : v ∈ ws := hsub (List.mem_cons_self ..)
    exact ih (fun x hx => hsub (List.mem_cons_of_mem _ hx)) _ (hu.trans (touchWord_touched (hwh v hv) hv hu.canon hu.grows.canon))

/-- Reading words without an error changes nothing. -/
theorem touchWords_clean (h : ∀ w ∈ ws, (wordUe s w || s.combCe.contains w) = false) :
    ws.foldl (fun s w => touchWord m acc w s) s = s := by
  induction ws with
  | nil => rfl
  | cons w ws ih =>
    have hw := h w (List.mem_cons_self ..)
    rw [Bool.or_eq_false_iff] at hw
    have hturn : touchWord m acc w s = s := by
      unfold touchWord
      simp only [hw, Bool.false_eq_true, if_false]
    rw [List.foldl_cons, hturn]
    exact ih fun x hx => h x (List.mem_cons_of_mem _ hx)

theorem granule_words (h b g : Nat) : wordsOf (combAddr h b (256 * g)) 256 = upFrom 32 (combAddr h b (256 * g) / 8) := by
  have hspan : (combAddr h b (256 * g) + 256 - 1) / 8 - combAddr h b (256 * g) / 8 + 1 = 32 := by
    unfold combAddr
    split <;> omega
  rw [wordsOf, if_neg (by decide), hspan]

theorem bankGranules_lt (hb : b < 2) (hg : g < bankGranules b) : b = 0 ∧ g < 6144 ∨ b = 1 ∧ g < 2048 := by
  unfold bankGranules at hg
  split at hg <;> omega

/-- The words of a granule are words of its hive. -/
theorem granuleWords_hive (hb : b < 2) (hg : g < bankGranules b) (hw : w ∈ wordsOf (combAddr h b (256 * g)) 256) : w / 0x40000 = h := by
  rw [granule_words, mem_upFrom] at hw
  obtain ⟨hlo, hhi⟩ := hw
  unfold combAddr at hlo hhi
  rcases bankGranules_lt hb hg with ⟨rfl, hg⟩ | ⟨rfl, hg⟩
  · rw [if_neg (by decide)] at hlo hhi
    omega
  · rw [if_pos rfl] at hlo hhi
    omega

/-! ### A granule tested (R139, R142) -/

/-- What grooming notes of a granule tested. -/
def groomNoted (b g : Nat) (pass : Bool) (y : Hive) : Hive :=
  { y with groomGranule := g, groomBank := b, groomPasses := if pass then sat 0x3FFFF y.groomPasses else y.groomPasses }

/-- The bank read and the granule noted, before what its failure brings. -/
def groomTested (h b g : Nat) (pass : Bool) (s : State) : State :=
  { touchSpan 4 5 (combAddr h b (256 * g)) 256 s with
    hives := tmod {} (touchSpan 4 5 (combAddr h b (256 * g)) 256 s).hives h (groomNoted b g pass) }

/-- The bank is ready, so that its granules are tested. -/
def bankReady (s : State) (h b : Nat) : Bool := if b = 0 then (hiveAt s h).playReady else (hiveAt s h).catchReady

/-- The granule tested is the last of a pass. -/
def passEnds (b g : Nat) (fails restorable : Bool) : Bool := decide (b = 1) && decide (g = 2047) && (fails || restorable)

theorem groomBank_ready {f r : Bool} (hr : bankReady s h b = true) : groomBank h b g f r s =
    if !f ∨ (hiveAt s h).bad.contains (b, g) then groomTested h b g (passEnds b g f r) s
    else
      let s2 := groomFail (2 * h + b) g (groomTested h b g (passEnds b g f r) s)
      if (sparesOf (groomTested h b g (passEnds b g f r) s) (2 * h + b)).length < 16 then keepRemaps (2 * h + b) s2
      else if r then s2 else groomLost (h * 8192 + 6144 * b + g) s2 := by
  unfold groomBank
  dsimp only
  rw [if_neg (by simpa [bankReady] using hr)]
  rfl

/-- What testing a granule leaves: the words of the granule read, and the granule noted. -/
structure GranuleTested (h b g : Nat) (pass : Bool) (s t : State) : Prop where
  canon : twf {} t.hives = true
  grows : FaultsGrow s t
  here : ∃ x, HiveCounted (hiveAt s h) x ∧ hiveAt t h = groomNoted b g pass x
  other : ∀ k, k ≠ h → hiveAt t k = hiveAt s k
  ue : t.combUe = s.combUe
  ce : ∀ w, w ∈ s.combCe → w ∉ wordsOf (combAddr h b (256 * g)) 256 → w ∈ t.combCe
  same : SameBut [.hives, .faults, .combMarks] s t

theorem WordsTouched.noted (pass : Bool) (ht : WordsTouched h (wordsOf (combAddr h b (256 * g)) 256) s u) :
    GranuleTested h b g pass s { u with hives := tmod {} u.hives h (groomNoted b g pass) } := by
  have hset : SameBut [.hives] u { u with hives := tmod {} u.hives h (groomNoted b g pass) } := set_hives_same u _
  exact ⟨twf_tmod ht.canon h _, ht.grows.trans (faultsGrow_of_same ht.grows.canon hset (by decide)),
    ⟨hiveAt u h, ht.here, tget_tmod_same ht.canon h _⟩, fun k hk => (tget_tmod_other _ _ hk _).trans (ht.other k hk), ht.ue, ht.ce,
    (ht.same.andThen hset).mono (by decide)⟩

theorem granule_touched (hb : b < 2) (hg : g < bankGranules b) (hh : twf {} s.hives = true) (hf : twf {} s.faults = true) :
    WordsTouched h (wordsOf (combAddr h b (256 * g)) 256) s (touchSpan 4 5 (combAddr h b (256 * g)) 256 s) := by
  have hwords : ∀ w ∈ wordsOf (combAddr h b (256 * g)) 256, w / 0x40000 = h := fun w hw => granuleWords_hive hb hg hw
  rw [touchSpan]
  generalize wordsOf (combAddr h b (256 * g)) 256 = ws at hwords
  exact touchWords_touched hwords hh hf

theorem groomTested_tested (pass : Bool) (hb : b < 2) (hg : g < bankGranules b) (hh : twf {} s.hives = true) (hf : twf {} s.faults = true) :
    GranuleTested h b g pass s (groomTested h b g pass s) := (granule_touched hb hg hh hf).noted pass

theorem groomTested_clean (pass : Bool)
    (hclean : ((wordsOf (combAddr h b (256 * g)) 256).any fun w => wordUe s w || s.combCe.contains w) = false) :
    groomTested h b g pass s = { s with hives := tmod {} s.hives h (groomNoted b g pass) } := by
  have hspan : touchSpan 4 5 (combAddr h b (256 * g)) 256 s = s :=
    touchWords_clean fun w hw => Bool.eq_false_iff.mpr (List.any_eq_false.mp hclean w hw)
  rw [groomTested, hspan]

/-- The spare granules of a bank. -/
def bankSpares (x : Hive) (b : Nat) : List Nat := if b = 0 then x.sparesPlay else x.sparesCatch

theorem sparesOf_bank (s : State) (h : Nat) (hb : b < 2) : sparesOf s (2 * h + b) = bankSpares (hiveAt s h) b := by
  rw [sparesOf, show (2 * h + b) / 2 = h by omega, show (2 * h + b) % 2 = b by omega, bankSpares]

section

variable {pass : Bool} (ht : GranuleTested h b g pass s t)

include ht

theorem GranuleTested.bad : (hiveAt t h).bad = (hiveAt s h).bad := by
  obtain ⟨x, ⟨_, _, _, rfl⟩, hx⟩ := ht.here
  rw [hx]
  rfl

theorem GranuleTested.spares (hb : b < 2) : sparesOf t (2 * h + b) = sparesOf s (2 * h + b) := by
  obtain ⟨x, ⟨_, _, _, rfl⟩, hx⟩ := ht.here
  rw [sparesOf_bank t h hb, sparesOf_bank s h hb, hx]
  rfl

theorem GranuleTested.noted : (hiveAt t h).groomGranule = g ∧ (hiveAt t h).groomBank = b := by
  obtain ⟨x, -, hx⟩ := ht.here
  rw [hx]
  exact ⟨rfl, rfl⟩

end

/-! ### A granule that fails (R141, R142) -/

theorem set_devSvc_same (s : State) (x : Device) (y : Service) : SameBut [.dev, .svc] s { s with dev := x, svc := y } :=
  ⟨fun p hp => by cases p <;> simp_all [Part.Same, ctxAt]⟩

theorem keepRemaps_same (i : Nat) (s : State) : SameBut [.dev, .svc] s (keepRemaps i s) :=
  .ite (fun _ => .refl _ s) fun _ => set_devSvc_same s _ _

/-- A spare granule taken. -/
def spareTaken (b g : Nat) (x : Hive) : Hive :=
  if b = 0 then { x with sparesPlay := x.sparesPlay ++ [g] } else { x with sparesCatch := x.sparesCatch ++ [g] }

theorem bankSpares_spareTaken (b g : Nat) (x : Hive) : bankSpares (spareTaken b g x) b = bankSpares x b ++ [g] := by
  unfold bankSpares spareTaken
  split <;> rfl

theorem spareTaken_bad (b g : Nat) (x : Hive) : (spareTaken b g x).bad = x.bad := by
  unfold spareTaken
  split <;> rfl

theorem setSpares_bank (s : State) (h g : Nat) (hb : b < 2) : setSpares (2 * h + b) (sparesOf s (2 * h + b) ++ [g]) s =
    { s with hives := tset {} s.hives h (spareTaken b g (hiveAt s h)) } := by
  rw [setSpares, sparesOf_bank s h hb, show (2 * h + b) / 2 = h by omega, show (2 * h + b) % 2 = b by omega, tmod]
  unfold spareTaken bankSpares
  split <;> rfl

/-- A failing granule for which a spare is left is remapped. -/
theorem groomFail_spare (hb : b < 2) (hh : twf {} s.hives = true) (hf : twf {} s.faults = true)
    (hroom : (sparesOf s (2 * h + b)).length < 16) (hm : (fltAt s .cmb).mask.getLsbD 8 = false) :
    sparesOf (groomFail (2 * h + b) g s) (2 * h + b) = sparesOf s (2 * h + b) ++ [g] ∧
    (hiveAt (groomFail (2 * h + b) g s) h).bad = (hiveAt s h).bad ∧
    (fltAt (groomFail (2 * h + b) g s) .cmb).status.getLsbD 8 = true ∧
    (∀ k, k ≠ h → hiveAt (groomFail (2 * h + b) g s) k = hiveAt s k) ∧ SameBut [.hives, .faults] s (groomFail (2 * h + b) g s) := by
  unfold groomFail
  dsimp only
  rw [if_pos hroom, setSpares_bank s h g hb]
  generalize hu : { s with hives := tset {} s.hives h (spareTaken b g (hiveAt s h)) } = u
  have hset : SameBut [.hives] s u := hu ▸ set_hives_same s _
  have hhere : hiveAt u h = spareTaken b g (hiveAt s h) := by
    rw [← hu]
    exact tget_tset_same hh h _
  have hother (k : Nat) (hk : k ≠ h) : hiveAt u k = hiveAt s k := by
    rw [← hu]
    exact tget_tset_other _ _ hk _
  generalize ho : ({ block := .cmb, bit := 8, cls := 0, obj := _, master := 4, acc := 5, scope := _, owner := _ } : Occ) = o
  have hblock : o.block = .cmb := ho ▸ rfl
  have hbit : o.bit = 8 := ho ▸ rfl
  have hraise := raise_same u o
  refine ⟨?_, ?_, ?_, fun k hk => ?_, hset.andThen hraise⟩
  · rw [sparesOf_bank _ h hb, hiveAt_of_same hraise (by decide), hhere, bankSpares_spareTaken, sparesOf_bank s h hb]
  · rw [hiveAt_of_same hraise (by decide), hhere, spareTaken_bad]
  · rw [← hblock, ← hbit]
    refine raise_status ?_ (by omega) ?_
    · rw [hset.same .faults (by decide)]
      exact hf
    · rw [fltAt_of_same hset (by decide), hblock, hbit, hm]
  · rw [hiveAt_of_same hraise (by decide), hother k hk]

/-- A granule marked bad. -/
def granuleMarked (b g : Nat) (x : Hive) : Hive := { x with bad := x.bad ++ [(b, g)] }

theorem groomFail_full (hb : b < 2) (hfull : 16 ≤ (sparesOf s (2 * h + b)).length) :
    ∃ o, groomFail (2 * h + b) g s = raise { s with hives := tmod {} s.hives h (granuleMarked b g) } o := by
  unfold groomFail
  dsimp only
  rw [if_neg (by omega), show (2 * h + b) / 2 = h by omega, show (2 * h + b) % 2 = b by omega]
  exact ⟨_, rfl⟩

/-- A failing granule for which no spare is left is bad. -/
theorem groomFail_bad (hb : b < 2) (hh : twf {} s.hives = true) (hfull : 16 ≤ (sparesOf s (2 * h + b)).length) :
    (b, g) ∈ (hiveAt (groomFail (2 * h + b) g s) h).bad ∧ (groomFail (2 * h + b) g s).combUe = s.combUe ∧
    (∀ k, k ≠ h → hiveAt (groomFail (2 * h + b) g s) k = hiveAt s k) ∧ SameBut [.hives, .faults] s (groomFail (2 * h + b) g s) := by
  obtain ⟨o, ho⟩ := groomFail_full (g := g) hb hfull
  rw [ho]
  have hset : SameBut [.hives] s { s with hives := tmod {} s.hives h (granuleMarked b g) } := set_hives_same s _
  have hraise := raise_same { s with hives := tmod {} s.hives h (granuleMarked b g) } o
  have hhere : hiveAt { s with hives := tmod {} s.hives h (granuleMarked b g) } h = granuleMarked b g (hiveAt s h) := tget_tmod_same hh h _
  refine ⟨?_, raise_combUe .., fun k hk => ?_, hset.andThen hraise⟩
  · rw [hiveAt_of_same hraise (by decide), hhere]
    simp [granuleMarked]
  · rw [hiveAt_of_same hraise (by decide)]
    exact tget_tmod_other _ _ hk _

/-! ### The events of a bank (R139) -/

theorem groomSize_bank (hb : b < 2) : groomSize b = bankGranules b := by
  rw [groomSize, if_neg (by omega), if_neg (by omega)]

/-- A bank whose granules are groomed: it is the device's, ready, and grooming runs. -/
structure Grooms (s : State) (h b g : Nat) : Prop extends Live s where
  hive : h < nHives s
  bank : b < 2
  granule : g < bankGranules b
  runs : groomRuns s = true
  ready : bankReady s h b = true

theorem Grooms.completes {f r : Bool} {P : State → Prop} (hg : Grooms s h b g) (hp : P (settle s (groomBank h b g f r s))) :
    Completes (.groomGranule h b g f r) s P := by
  refine .of_act (f := groomGranule h b g f r) hg.alive (if_pos ?_) ?_
  · have hb := hg.bank
    simp [hb, hg.hive, groomSize_bank hb, hg.granule]
    omega
  · rwa [groomGranule, if_neg (by simp [hg.runs]), if_pos hg.bank]

theorem Grooms.tested (hg : Grooms s h b g) (pass : Bool) : GranuleTested h b g pass s (groomTested h b g pass s) :=
  groomTested_tested pass hg.bank hg.granule hg.canon.hives hg.canon.faults

/-- A granule without an error that passes its test. -/
theorem groom_clean {r : Bool} (hg : Grooms s h b g)
    (hclean : ((wordsOf (combAddr h b (256 * g)) 256).any fun w => wordUe s w || s.combCe.contains w) = false) :
    Completes (.groomGranule h b g false r) s (SameBut [] { s with hives := tmod {} s.hives h fun y => { y with
      groomGranule := g, groomBank := b,
      groomPasses := if b = 1 ∧ g = 2047 ∧ r = true then min 0x3FFFF (y.groomPasses + 1) else y.groomPasses } }) := by
  have hnote : groomNoted b g (passEnds b g false r) = fun y => { y with
      groomGranule := g, groomBank := b,
      groomPasses := if b = 1 ∧ g = 2047 ∧ r = true then min 0x3FFFF (y.groomPasses + 1) else y.groomPasses } := by
    funext y
    simp [groomNoted, passEnds, sat, and_assoc]
  refine hg.completes ?_
  rw [groomBank_ready hg.ready, if_pos (.inl rfl), groomTested_clean _ hclean, hnote]
  exact settle_same s _

/-- A granule that passes its test. -/
theorem groom_passes {r : Bool} (hg : Grooms s h b g) : Completes (.groomGranule h b g false r) s fun t =>
    (hiveAt t h).groomGranule = g ∧ (hiveAt t h).groomBank = b ∧ (hiveAt t h).bad = (hiveAt s h).bad ∧ t.combUe = s.combUe ∧
    (∀ w, w ∈ s.combCe → w ∉ wordsOf (combAddr h b (256 * g)) 256 → w ∈ t.combCe) ∧ (∀ k, k ≠ h → hiveAt t k = hiveAt s k) ∧
    SameBut [.hives, .faults, .combMarks] s t := by
  refine hg.completes ?_
  rw [groomBank_ready hg.ready, if_pos (.inl rfl)]
  have ht := hg.tested (passEnds b g false r)
  generalize groomTested h b g (passEnds b g false r) s = u at ht
  have hset := settle_same s u
  rw [hiveAt_of_same hset (by decide), settle_combUe, settle_combCe]
  refine ⟨ht.noted.1, ht.noted.2, ht.bad, ht.ue, ht.ce, fun k hk => ?_, ht.same.settled s⟩
  rw [hiveAt_of_same hset (by decide), ht.other k hk]

/-- A granule that fails while a spare is left. -/
theorem groom_remaps {r : Bool} (hg : Grooms s h b g) (hnew : (b, g) ∉ (hiveAt s h).bad) (hroom : (sparesOf s (2 * h + b)).length < 16)
    (hm : (fltAt s .cmb).mask.getLsbD 8 = false) : Completes (.groomGranule h b g true r) s fun t =>
      sparesOf t (2 * h + b) = sparesOf s (2 * h + b) ++ [g] ∧ (hiveAt t h).bad = (hiveAt s h).bad ∧
      (fltAt t .cmb).status.getLsbD 8 = true ∧ (∀ k, k ≠ h → hiveAt t k = hiveAt s k) ∧
      SameBut [.hives, .combMarks, .faults, .svc, .dev] s t := by
  refine hg.completes ?_
  have ht := hg.tested (passEnds b g true r)
  rw [groomBank_ready hg.ready, if_neg (by simpa using hnew)]
  dsimp only
  generalize groomTested h b g (passEnds b g true r) s = u at ht
  rw [if_pos (by rwa [ht.spares hg.bank])]
  obtain ⟨hspare, hbad, hstatus, hother, hsame⟩ := groomFail_spare (g := g) hg.bank ht.canon ht.grows.canon
    (by rwa [ht.spares hg.bank]) (by rw [ht.grows.mask, hm])
  have hafter := (keepRemaps_same (2 * h + b) (groomFail (2 * h + b) g u)).settled s
  rw [sparesOf_bank _ h hg.bank, hiveAt_of_same hafter (by decide), ← sparesOf_bank _ h hg.bank, hspare, ht.spares hg.bank, hbad, ht.bad,
    fltAt_of_same hafter (by decide)]
  refine ⟨rfl, rfl, hstatus, fun k hk => ?_, ((ht.same.andThen hsame).andThen hafter).mono (by decide)⟩
  rw [hiveAt_of_same hafter (by decide), hother k hk, ht.other k hk]

theorem groomLost_ue (g : Nat) (s : State) :
    (∀ w, w < 32 → 32 * g + w ∈ (groomLost g s).combUe) ∧ ∀ w, w ∈ s.combUe → w ∈ (groomLost g s).combUe := by
  refine ⟨fun w hw => ?_, fun w hw => List.mem_append_right _ hw⟩
  by_cases hmem : 32 * g + w ∈ s.combUe
  · exact List.mem_append_right _ hmem
  · refine List.mem_append_left _ (List.mem_filter.mpr ⟨mem_upFrom.mpr (by omega), ?_⟩)
    simpa using hmem

/-- A granule that fails with no spare left and nothing restored. -/
theorem groom_loses (hg : Grooms s h b g) (hnew : (b, g) ∉ (hiveAt s h).bad) (hfull : 16 ≤ (sparesOf s (2 * h + b)).length) :
    Completes (.groomGranule h b g true false) s fun t =>
      (b, g) ∈ (hiveAt t h).bad ∧ (∀ w, w < 32 → 32 * (h * 8192 + 6144 * b + g) + w ∈ t.combUe) ∧
      (∀ w, w ∈ s.combUe → w ∈ t.combUe) ∧ (∀ k, k ≠ h → hiveAt t k = hiveAt s k) ∧ SameBut [.hives, .faults, .combMarks] s t := by
  refine hg.completes ?_
  have ht := hg.tested (passEnds b g true false)
  rw [groomBank_ready hg.ready, if_neg (by simpa using hnew)]
  dsimp only
  generalize groomTested h b g (passEnds b g true false) s = u at ht
  rw [if_neg (by rw [ht.spares hg.bank]; omega), if_neg (by decide)]
  obtain ⟨hbad, hue, hother, hsame⟩ := groomFail_bad (g := g) hg.bank ht.canon (by rwa [ht.spares hg.bank])
  generalize groomFail (2 * h + b) g u = v at hbad hue hother hsame
  have hlost : SameBut [.combMarks] v (groomLost (h * 8192 + 6144 * b + g) v) := set_combMarks_same v _ v.combCe
  have hafter := hlost.settled s
  obtain ⟨hgone, hkept⟩ := groomLost_ue (h * 8192 + 6144 * b + g) v
  rw [hiveAt_of_same hafter (by decide), settle_combUe]
  refine ⟨hbad, hgone, fun w hw => hkept w (by rwa [hue, ht.ue]), fun k hk => ?_, ((ht.same.andThen hsame).andThen hafter).mono (by decide)⟩
  rw [hiveAt_of_same hafter (by decide), hother k hk, ht.other k hk]

end Sys2Proof.Arch

/-! Grooming of the scratchpad and the context cache (R138, R141, log 76). -/

namespace Sys2Proof.Arch

open Sys2Proof Sys2Proof.Machine Sys2Proof.Safety Sys2Proof.Laws Sys2Proof.Scope

variable {s t u : State} {b g m : Nat} {scr f r : Bool}

/-! ### A memory read and written -/

theorem inner_of_same {l : List Part} (h : SameBut l s t) (hl : Part.inner ∉ l) : t.inner = s.inner := h.same .inner hl

theorem innerMem_of_same {l : List Part} (h : SameBut l s t) (hl : Part.inner ∉ l) (scr : Bool) : innerMem t scr = innerMem s scr := by
  rw [innerMem, innerMem, inner_of_same h hl]

theorem innerMem_modInner (scr : Bool) (f : InnerMem → InnerMem) (s : State) : innerMem (modInner scr f s) scr = f (innerMem s scr) := by
  cases scr <;> rfl

theorem modInner_lines (scr : Bool) (f : InnerMem → InnerMem) (s : State) : (modInner scr f s).inner.lines = s.inner.lines := by
  cases scr <;> rfl

theorem modInner_same (scr : Bool) (f : InnerMem → InnerMem) (s : State) : SameBut [.inner] s (modInner scr f s) := set_inner_same s _

/-- What reading words of the memory leaves: its marks of correctable errors change. -/
structure InnerTouched (scr : Bool) (s t : State) : Prop where
  mem : ∃ ce, innerMem t scr = { innerMem s scr with ce := ce }
  lines : t.inner.lines = s.inner.lines
  grows : FaultsGrow s t
  same : SameBut [.inner, .faults] s t

theorem InnerTouched.refl (hf : twf {} s.faults = true) : InnerTouched scr s s :=
  ⟨⟨(innerMem s scr).ce, rfl⟩, rfl, .refl hf, .refl _ s⟩

theorem InnerTouched.trans (ht : InnerTouched scr s t) (hu : InnerTouched scr t u) : InnerTouched scr s u := by
  obtain ⟨ce, hmem⟩ := hu.mem
  obtain ⟨_, hbefore⟩ := ht.mem
  exact ⟨⟨ce, by rw [hmem, hbefore]⟩, hu.lines.trans ht.lines, ht.grows.trans hu.grows, ht.same.trans hu.same⟩

theorem touchInner_touched (w : Nat) (hf : twf {} s.faults = true) : InnerTouched scr s (touchInner scr m w s) := by
  unfold touchInner
  split
  · generalize hu : modInner scr (fun m => { m with ce := m.ce.erase w }) s = u
    generalize ({ block := .cmb, bit := 0, cls := 0, obj := innerCode scr (8 * w), master := m } : Occ) = o
    have hset : SameBut [.inner] s u := hu ▸ modInner_same scr _ s
    have hgrows := faultsGrow_of_same hf hset (by decide)
    have hraise := raise_same u o
    refine ⟨⟨(innerMem s scr).ce.erase w, ?_⟩, ?_, hgrows.trans (raise_grows hgrows.canon o), hset.andThen hraise⟩
    · rw [innerMem_of_same hraise (by decide), ← hu, innerMem_modInner]
    · rw [inner_of_same hraise (by decide), ← hu, modInner_lines]
  · exact .refl hf

/-- The granule's words read. -/
def innerRead (scr : Bool) (g : Nat) (s : State) : State := (upFrom 32 (32 * g)).foldl (fun s w => touchInner scr 4 w s) s

theorem innerRead_touched (g : Nat) (hf : twf {} s.faults = true) : InnerTouched scr s (innerRead scr g s) :=
  foldl_keeps (P := InnerTouched scr s) (fun _ w hu => hu.trans (touchInner_touched w hu.grows.canon)) _ (.refl hf)

/-! ### A granule tested -/

theorem groomInner_eq (scr : Bool) (g : Nat) (f r : Bool) (s : State) : groomInner scr g f r s =
    let s1 := innerRead scr g s
    let m := innerMem s1 scr
    let o : Occ := { block := .cmb, bit := 8, cls := 0, obj := innerCode scr (256 * g), master := 4, acc := 5 }
    if !f ∨ m.bad.contains g then s1
    else if m.spares.length < 16 then raise (modInner scr (fun m => { m with spares := m.spares ++ [g] }) s1) o
    else
      let lost := if r then [] else (upFrom 32 (32 * g)).filter fun w => !m.ue.contains w
      raise (modInner scr (fun m => { m with bad := m.bad ++ [g], ue := lost ++ m.ue }) s1) { o with bit := 9, cls := 1 } := rfl

theorem groomInner_passes (hf : twf {} s.faults = true) : InnerTouched scr s (groomInner scr g false r s) := by
  rw [groomInner_eq]
  dsimp only
  rw [if_pos (.inl rfl)]
  exact innerRead_touched g hf

/-- A granule that fails while a spare is left is remapped. -/
theorem groomInner_remaps (hf : twf {} s.faults = true) (hnew : g ∉ (innerMem s scr).bad) (hroom : (innerMem s scr).spares.length < 16)
    (hm : (fltAt s .cmb).mask.getLsbD 8 = false) :
    (innerMem (groomInner scr g true r s) scr).spares = (innerMem s scr).spares ++ [g] ∧
    (fltAt (groomInner scr g true r s) .cmb).status.getLsbD 8 = true ∧ SameBut [.inner, .faults] s (groomInner scr g true r s) := by
  rw [groomInner_eq]
  dsimp only
  obtain ⟨⟨ce, hmem⟩, -, hgrows, hsame⟩ := innerRead_touched (scr := scr) g hf
  generalize innerRead scr g s = u at hmem hgrows hsame
  rw [if_neg (by simpa [hmem] using hnew), if_pos (by rwa [hmem])]
  generalize hv : modInner scr (fun m => { m with spares := m.spares ++ [g] }) u = v
  have hset : SameBut [.inner] u v := hv ▸ modInner_same scr _ u
  have hset' := faultsGrow_of_same hgrows.canon hset (by decide)
  refine ⟨?_, ?_, (hsame.andThen (hset.andThen (raise_same v _))).mono (by decide)⟩
  · rw [innerMem_of_same (raise_same v _) (by decide), ← hv, innerMem_modInner, hmem]
  · exact raise_status (o := { block := .cmb, bit := 8, cls := 0, obj := innerCode scr (256 * g), master := 4, acc := 5 }) hset'.canon
      (show 8 < 32 by omega) (by rw [hset'.mask, hgrows.mask, hm])

/-! ### The events -/

theorem groomSize_inner (hb : b = 2 ∨ b = 3) (hg : g < groomSize b) :
    (decide (0 < if b < 2 then nHives s else 1) && decide (b < 4) && decide (g < groomSize b)) = true := by
  rcases hb with rfl | rfl <;> simp [hg]

theorem groomGranule_inner {h : Nat} (hb : b = 2 ∨ b = 3) (hr : groomRuns s = true) :
    groomGranule h b g f r s = groomInner (decide (b = 2)) g f r s := by
  rw [groomGranule, if_neg (by simp [hr]), if_neg (by omega)]

theorem groomInner_completes {P : State → Prop} (hl : Live s) (hb : b = 2 ∨ b = 3) (hg : g < groomSize b) (hr : groomRuns s = true)
    (hp : P (settle s (groomInner (decide (b = 2)) g f r s))) : Completes (.groomGranule 0 b g f r) s P :=
  .of_act (f := groomGranule 0 b g f r) hl.alive (if_pos (groomSize_inner hb hg)) (by rwa [groomGranule_inner hb hr])

theorem groom_inner_passes (hl : Live s) (hb : b = 2 ∨ b = 3) (hg : g < groomSize b) (hr : groomRuns s = true) :
    Completes (.groomGranule 0 b g false r) s fun t =>
      (innerMem t (decide (b = 2))).bad = (innerMem s (decide (b = 2))).bad ∧
      (innerMem t (decide (b = 2))).ue = (innerMem s (decide (b = 2))).ue ∧ t.inner.lines = s.inner.lines ∧
      SameBut [.inner, .faults] s t := by
  refine groomInner_completes hl hb hg hr ?_
  obtain ⟨⟨ce, hmem⟩, hlines, -, hsame⟩ := groomInner_passes (scr := decide (b = 2)) (g := g) (r := r) hl.canon.faults
  rw [innerMem_of_same (settle_same s _) (by decide), settle_inner, hmem]
  exact ⟨rfl, rfl, hlines, hsame.settled s⟩

theorem groom_inner_remaps (hl : Live s) (hb : b = 2 ∨ b = 3) (hg : g < groomSize b) (hr : groomRuns s = true)
    (hnew : g ∉ (innerMem s (decide (b = 2))).bad) (hroom : (innerMem s (decide (b = 2))).spares.length < 16)
    (hm : (fltAt s .cmb).mask.getLsbD 8 = false) : Completes (.groomGranule 0 b g true r) s fun t =>
      (innerMem t (decide (b = 2))).spares = (innerMem s (decide (b = 2))).spares ++ [g] ∧ (fltAt t .cmb).status.getLsbD 8 = true ∧
      SameBut [.inner, .faults] s t := by
  refine groomInner_completes hl hb hg hr ?_
  obtain ⟨hspares, hstatus, hsame⟩ := groomInner_remaps (r := r) hl.canon.faults hnew hroom hm
  rw [innerMem_of_same (settle_same s _) (by decide), fltAt_of_same (settle_same s _) (by decide)]
  exact ⟨hspares, hstatus, hsame.settled s⟩

end Sys2Proof.Arch

/-! Eye and skew checks, compaction of the flash stores, and the background services (R248, R277, R372, R373, R378). -/

namespace Sys2Proof.Arch

open Sys2Proof Sys2Proof.Machine Sys2Proof.Safety Sys2Proof.Laws Sys2Proof.Scope

variable {s t u : State} {i j k n : Nat} {m : EyeMeas} {r : SkewRun}

/-! ### A link trained again (R277) -/

/-- A link that was on is on out of DATA, with its retrains as they were, and the other links are as they were. -/
structure LinkStopped (i : Nat) (s t : State) : Prop where
  on : (linkAt t i).st ≠ .off
  data : (linkAt t i).st ≠ .data
  retrains : (linkAt t i).retrains = (linkAt s i).retrains
  other : ∀ k, k ≠ i → linkAt t k = linkAt s k

theorem LinkStopped.trans (h : LinkStopped i s t) (h' : LinkStopped i t u) : LinkStopped i s u :=
  ⟨h'.on, h'.data, h'.retrains.trans h.retrains, fun k hk => (h'.other k hk).trans (h.other k hk)⟩

theorem modLink_stopped {f : Link → Link} (hon : (f (linkAt s i)).st ≠ .off) (hdata : (f (linkAt s i)).st ≠ .data)
    (hr : (f (linkAt s i)).retrains = (linkAt s i).retrains) : LinkStopped i s (modLink s i f) := by
  obtain ⟨n, hread⟩ := linkAt_modLink (s := s) (f := f) hon
  refine ⟨?_, ?_, ?_, fun k hk => linkAt_modLink_other hk f s⟩ <;> rw [hread]
  · exact hon
  · exact hdata
  · exact hr

theorem linkTrain_stopped (i : Nat) (s : State) : LinkStopped i s (linkTrain i s) := by
  unfold linkTrain
  extract_lets s1
  have h1 : LinkStopped i s s1 := modLink_stopped nofun nofun rfl
  split
  · exact h1.trans (modLink_stopped nofun nofun rfl)
  · split
    · exact h1.trans (modLink_stopped nofun nofun rfl)
    · exact h1

theorem linkRetrigger_data (hd : (linkAt s i).st = .data) : linkRetrigger i s =
    linkTrain i (lnkFault (modLink s i fun x => { x with retrains := sat 0xFF x.retrains }) 1 0 i) := if_pos hd

/-- A link in DATA that is trained again counts it. -/
theorem linkRetrigger_effect (hd : (linkAt s i).st = .data) :
    (linkAt (linkRetrigger i s) i).st ≠ .data ∧ (linkAt (linkRetrigger i s) i).retrains = min 0xFF ((linkAt s i).retrains + 1) ∧
    (∀ k, k ≠ i → linkAt (linkRetrigger i s) k = linkAt s k) ∧ SameBut [.links, .jnl, .faults] s (linkRetrigger i s) := by
  obtain ⟨n, hread⟩ := linkAt_modLink (s := s) (i := i) (f := fun x => { x with retrains := sat 0xFF x.retrains }) (by simp [hd])
  rw [linkRetrigger_data hd]
  have hcount := modLink_same s i fun x => { x with retrains := sat 0xFF x.retrains }
  have hother (k : Nat) (hk : k ≠ i) : linkAt (modLink s i fun x => { x with retrains := sat 0xFF x.retrains }) k = linkAt s k :=
    linkAt_modLink_other hk _ s
  generalize modLink s i (fun x => { x with retrains := sat 0xFF x.retrains }) = v at *
  have hfault := lnkFault_same v 1 0 i
  have hstop := linkTrain_stopped i (lnkFault v 1 0 i)
  refine ⟨hstop.data, ?_, fun k hk => ?_, ((hcount.andThen hfault).andThen (linkTrain_same i _)).mono (by decide)⟩
  · rw [hstop.retrains, linkAt_of_same hfault (by decide), hread]
    rfl
  · rw [hstop.other k hk, linkAt_of_same hfault (by decide), hother k hk]

/-! ### An eye check (R373) -/

/-- An eye check that runs: the service is on, in a mode of its own, and the lane's link is in DATA. -/
structure EyeChecked (s : State) (m : EyeMeas) : Prop extends Live s where
  lane : m.lane < nLanes s
  runs : serviceRuns s = true
  on : s.svc.eyePeriod ≠ 0
  mode : s.md.mode = .idle ∨ s.md.mode = .run ∨ s.md.mode = .safe
  data : laneInData s m.lane = true

theorem EyeChecked.completes {P : State → Prop} (h : EyeChecked s m) (hp : P (settle s (eyeService m s))) : Completes (.eyeCheck m) s P := by
  refine .of_act (f := eyeCheck m) h.alive (if_pos (decide_eq_true h.lane)) ?_
  rwa [eyeCheck, if_pos]
  simp only [h.runs, h.on, h.data, Bool.and_true, Bool.true_and, ne_eq, not_false_eq_true, decide_true, Bool.or_eq_true, decide_eq_true_eq]
  exact or_assoc.mpr h.mode

theorem laneLink_data {l : Nat} (h : laneInData s i = true) (hl : laneLink s true i = some l) : (linkAt s l).st = .data := by
  rw [laneInData, hl] at h
  simpa [linkReady] using h

theorem noteEyes_one (m : EyeMeas) (s : State) : noteEyes [m] s = { s with rxLanes := tmod {} s.rxLanes m.lane fun (r : RxLane) =>
    { r with w := min 255 m.w, h := min 1023 m.h, ctle := m.ctle % 16 } } := rfl

/-- An eye as open as its link asks is noted. -/
theorem eyeService_open (h : ∀ l, laneLink s true m.lane = some l → eyeOk (linkAt s l) m = true) : eyeService m s = noteEyes [m] s := by
  unfold eyeService
  dsimp only
  split
  next l hl => exact if_neg (by simp [h l hl])
  · rfl

/-- An eye less open trains its link again. -/
theorem eyeService_closed {l : Nat} (hl : laneLink s true m.lane = some l) (hd : (linkAt s l).st = .data)
    (he : eyeOk (linkAt s l) m = false) : eyeService m s = linkRetrigger l (laneFault (noteEyes [m] s) 3 0 l m.lane) := by
  unfold eyeService
  dsimp only
  rw [hl]
  exact if_pos (by simp [hd, he])

theorem eye_closed {l : Nat} (h : EyeChecked s m) (hl : laneLink s true m.lane = some l) (he : eyeOk (linkAt s l) m = false) :
    Completes (.eyeCheck m) s fun t =>
      (linkAt t l).st ≠ .data ∧ (linkAt t l).retrains = min 0xFF ((linkAt s l).retrains + 1) ∧
      (∀ k, k ≠ l → linkAt t k = linkAt s k) ∧ SameBut [.links, .rxLanes, .jnl, .faults] s t := by
  refine h.completes ?_
  have hd := laneLink_data h.data hl
  rw [eyeService_closed hl hd he]
  have hnote : SameBut [.rxLanes, .faults] s (laneFault (noteEyes [m] s) 3 0 l m.lane) := (set_rxLanes_same s _).andThen (raise_same _ _)
  generalize laneFault (noteEyes [m] s) 3 0 l m.lane = v at hnote
  have hlinks (k : Nat) : linkAt v k = linkAt s k := linkAt_of_same hnote (by decide) k
  obtain ⟨hstop, hcount, hother, hsame⟩ := linkRetrigger_effect (s := v) (i := l) (by rw [hlinks, hd])
  have hset := settle_same s (linkRetrigger l v)
  rw [linkAt_of_same hset (by decide), hcount, hlinks]
  refine ⟨hstop, rfl, fun k hk => ?_, ((hnote.andThen hsame).mono (by decide)).settled s⟩
  rw [linkAt_of_same hset (by decide), hother k hk, hlinks]

/-! ### A skew check (R248, R372) -/

/-- A port asked for its exchanges anew. -/
def portAsked (n : Nat) (p : Port) : Port := { askDelay n p with acquiring := false }

theorem portAt_modPort (hw : twf {} s.col.ports = true) (k : Nat) (f : Port → Port) : portAt (modPort s k f) k = f (portAt s k) :=
  tget_tmod_same hw k f

theorem portAt_modPort_other (h : j ≠ k) (f : Port → Port) (s : State) : portAt (modPort s k f) j = portAt s j :=
  tget_tmod_other _ _ h f

/-- Ports asked one after another: each is asked once, the others are as they were. -/
theorem portAt_asked (hw : twf {} s.col.ports = true) (ps : List Nat) (j : Nat) :
    portAt (ps.foldl (fun s k => modPort s k (portAsked n)) s) j = if j ∈ ps then portAsked n (portAt s j) else portAt s j := by
  induction ps generalizing s with
  | nil => rfl
  | cons k ps ih =>
    rw [List.foldl_cons, ih (twf_tmod hw k _)]
    by_cases hj : j = k
    · subst hj
      rw [portAt_modPort hw, if_pos (List.mem_cons_self ..)]
      split <;> rfl
    · rw [portAt_modPort_other hj]
      simp [hj]

/-- The exchanges of a skew check asked for, and its run begun. -/
def skewAsked (n : Nat) (s : State) : State :=
  let s1 := (joinedPorts s).foldl (fun s k => modPort s k (portAsked n)) s
  { s1 with col := { s1.col with run := some ⟨1, n, joinedPorts s, [], [], true⟩ } }

theorem portAt_skewAsked (hw : twf {} s.col.ports = true) (j : Nat) :
    portAt (skewAsked n s) j = if j ∈ joinedPorts s then portAsked n (portAt s j) else portAt s j := portAt_asked hw (joinedPorts s) j

theorem skewAsked_same (n : Nat) (s : State) : SameBut [.col] s (skewAsked n s) := by
  have hports : SameBut [.col] s ((joinedPorts s).foldl (fun s k => modPort s k (portAsked n)) s) :=
    .foldl (fun u k => modPort_same u k _) _ s
  exact hports.trans (set_col_same _ _)

/-- Exchanges that have not come back keep a run where it is. -/
theorem skewAdvance_waits (hw : twf {} s.col.ports = true) (hk : k ∈ joinedPorts s) (hn : 0 < n) :
    skewAdvance (skewAsked n s) = skewAsked n s := by
  have hwaits : ((joinedPorts s).any fun k => decide ((portAt (skewAsked n s) k).answers < n)) = true :=
    List.any_eq_true.mpr ⟨k, hk, by rw [portAt_skewAsked hw, if_pos hk]; exact decide_eq_true hn⟩
  unfold skewAdvance
  exact if_pos hwaits

theorem skewBegin_asks (hw : twf {} s.col.ports = true) (hk : k ∈ joinedPorts s) (hn : 0 < n) :
    skewBegin n [] true s = skewAsked n s := by
  have hbegin : skewBegin n [] true s = skewAdvance (skewAdvance (skewAsked n s)) := rfl
  rw [hbegin, skewAdvance_waits hw hk hn, skewAdvance_waits hw hk hn]

/-- A skew check that runs: the service is on, on a manager in IDLE or RUN. -/
structure SkewChecked (s : State) : Prop extends Live s where
  runs : serviceRuns s = true
  on : s.svc.skewPeriod ≠ 0
  manager : s.col.role = 1
  mode : s.md.mode = .idle ∨ s.md.mode = .run

theorem SkewChecked.completes {P : State → Prop} (h : SkewChecked s) (hp : P (settle s (skewService n s))) : Completes (.skewCheck n) s P := by
  refine .of_act (f := skewCheck n) h.alive rfl ?_
  rwa [skewCheck, if_pos]
  simp only [h.runs, h.on, h.manager, Bool.true_and, ne_eq, not_false_eq_true, decide_true, Bool.or_eq_true, decide_eq_true_eq]
  exact h.mode

theorem skew_begins (h : SkewChecked s) (hrun : s.col.run = none) (hk : k ∈ joinedPorts s) (hn : 0 < n) :
    Completes (.skewCheck n) s fun t =>
      t.col.run = some ⟨1, n, joinedPorts s, [], [], true⟩ ∧ (portAt t k).exchanges = n ∧ (portAt t k).answers = 0 ∧
      (∀ j, (portAt t j).st = (portAt s j).st) ∧ SameBut [.col] s t := by
  have hw := h.canon.ports
  have hturn : skewService n s = skewAsked n s := by
    rw [skewService, if_neg (by simp [hrun]), skewUnanswered, hrun]
    exact skewBegin_asks hw hk hn
  have hports (j : Nat) : portAt (settle s (skewAsked n s)) j = portAt (skewAsked n s) j := by rw [portAt, settle_col]; rfl
  refine h.completes ?_
  rw [hturn, hports, portAt_skewAsked hw, if_pos hk, settle_col]
  refine ⟨rfl, rfl, rfl, fun j => ?_, (skewAsked_same n s).settled s⟩
  rw [hports, portAt_skewAsked hw]
  split <;> rfl

/-- A run of the service that has not been answered fails. -/
theorem skewUnanswered_fails (hrun : s.col.run = some r) (hr : r.service = true) (hp : r.phase ≤ 2) :
    skewUnanswered s = colFault 8 1 0 { s with col := { s.col with run := some { r with phase := 5 } } } := by
  rw [skewUnanswered, hrun]
  dsimp only
  rw [if_pos (by simp [hr, hp])]
  exact if_pos hr

theorem skew_fails (h : SkewChecked s) (hrun : s.col.run = some r) (hr : r.service = true) (hp : r.phase ≤ 2) (hk : k ∈ joinedPorts s)
    (hn : 0 < n) (hm : (fltAt s .col).mask.getLsbD 8 = false) : Completes (.skewCheck n) s fun t =>
      (fltAt t .col).status.getLsbD 8 = true ∧ t.col.run = some ⟨1, n, joinedPorts s, [], [], true⟩ ∧ SameBut [.col, .faults] s t := by
  have hu := skewUnanswered_fails hrun hr hp
  rw [colFault_raise (by decide)] at hu
  generalize hv : skewUnanswered s = v at hu
  have hports : v.col.ports = s.col.ports := by rw [hu, raise_col]
  have hjoined : joinedPorts v = joinedPorts s := by
    unfold joinedPorts portAt
    rw [hports]
  have hsame : SameBut [.col, .faults] s v := hv ▸ skewUnanswered_same s
  have hstatus : (fltAt v .col).status.getLsbD 8 = true := by
    rw [hu]
    exact raise_status (o := { block := .col, bit := 8, cls := 1, obj := 0, master := 0xB, scope := [0] }) h.canon.faults
      (show 8 < 32 by omega) hm
  have hturn : skewService n s = skewAsked n v := by
    rw [skewService, if_neg (by simp [hrun, hr]), hv]
    exact skewBegin_asks (by rw [hports]; exact h.canon.ports) (by rwa [hjoined]) hn
  have hasked := (skewAsked_same n v).settled s
  refine h.completes ?_
  rw [hturn, fltAt_of_same hasked (by decide), settle_col, ← hjoined]
  exact ⟨hstatus, rfl, (hsame.andThen hasked).mono (by decide)⟩

/-! ### Compaction (R378) -/

theorem noteWear_effect (hw : twf {} s.faults = true) :
    FaultsGrow s (noteWear s) ∧ (noteWear s).dev = s.dev ∧ (noteWear s).svc.storeFull = s.svc.storeFull ∧
    (noteWear s).svc.maxErase = s.svc.maxErase ∧ SameBut [.svc, .faults] s (noteWear s) := by
  unfold noteWear
  split
  · have hset := set_svc_same s { s.svc with wearWarn := true }
    have hgrows := faultsGrow_of_same hw hset (by decide)
    exact ⟨hgrows.trans (raise_grows hgrows.canon _), raise_dev .., by rw [raise_svc], by rw [raise_svc], hset.andThen (raise_same ..)⟩
  · exact ⟨.refl hw, rfl, rfl, rfl, .refl _ s⟩

/-- The wear table after a compaction. -/
def wearNoted (n : Nat) (s u : State) : State :=
  noteWear { u with svc := { u.svc with maxErase := max s.svc.maxErase (min 0xFFFFF n) } }

theorem wearNoted_effect (hw : twf {} u.faults = true) :
    FaultsGrow u (wearNoted n s u) ∧ (wearNoted n s u).dev = u.dev ∧ (wearNoted n s u).svc.storeFull = u.svc.storeFull ∧
    (wearNoted n s u).svc.maxErase = max s.svc.maxErase (min 0xFFFFF n) ∧ SameBut [.svc, .faults] u (wearNoted n s u) := by
  have hset := set_svc_same u { u.svc with maxErase := max s.svc.maxErase (min 0xFFFFF n) }
  obtain ⟨hgrows, hdev, hfull, hmax, hsame⟩ :=
    noteWear_effect (s := { u with svc := { u.svc with maxErase := max s.svc.maxErase (min 0xFFFFF n) } }) hw
  exact ⟨(faultsGrow_of_same hw hset (by decide)).trans hgrows, hdev, hfull, hmax, (hset.andThen hsame).mono (by decide)⟩

/-- A compaction that runs. -/
theorem flashCompaction_runs {c : Nat} {fits : Bool} (hr : serviceRuns s = true) (hf : s.kpr.flash = true) (hd : c = 0 → storeDue s = true) :
    flashCompaction c fits n s = wearNoted n s (if fits then
      (if c = 0 then { s with dev := { s.dev with store := compacted s.dev.store, storeUsed := storeBytes (compacted s.dev.store) },
                              svc := { s.svc with storeFull := false } } else s)
      else raise { s with svc := { s.svc with storeFull := s.svc.storeFull || c = 0 } }
        { block := .bgs, bit := 7, cls := 1, obj := c, master := 7 }) := by
  refine if_neg ?_
  rintro (h | h | ⟨hc, h⟩)
  · simp [hr] at h
  · simp [hf] at h
  · simp [hd hc] at h

theorem compaction_fits (hl : Live s) (hr : serviceRuns s = true) (hf : s.kpr.flash = true) (hd : storeDue s = true) :
    Completes (.flashCompaction 0 true n) s fun t =>
      t.dev = { s.dev with store := compacted s.dev.store, storeUsed := storeBytes (compacted s.dev.store) } ∧ t.svc.storeFull = false ∧
      t.svc.maxErase = max s.svc.maxErase (min 0xFFFFF n) ∧ SameBut [.dev, .svc, .faults] s t := by
  refine .of_act (f := flashCompaction 0 true n) hl.alive rfl ?_
  rw [flashCompaction_runs hr hf fun _ => hd, if_pos rfl, if_pos rfl]
  have hset := set_devSvc_same s { s.dev with store := compacted s.dev.store, storeUsed := storeBytes (compacted s.dev.store) }
    { s.svc with storeFull := false }
  generalize hu : { s with
    dev := { s.dev with store := compacted s.dev.store, storeUsed := storeBytes (compacted s.dev.store) },
    svc := { s.svc with storeFull := false } } = u at *
  obtain ⟨-, hdev, hfull, hmax, hsame⟩ := wearNoted_effect (n := n) (s := s) (u := u) (by rw [← hu]; exact hl.canon.faults)
  rw [settle_dev, settle_svc, hdev, hfull, hmax, ← hu]
  exact ⟨rfl, rfl, rfl, by rw [hu]; exact ((hset.andThen hsame).mono (by decide)).settled s⟩

theorem compaction_full (hl : Live s) (hr : serviceRuns s = true) (hf : s.kpr.flash = true) (hd : storeDue s = true)
    (hm : (fltAt s .bgs).mask.getLsbD 7 = false) : Completes (.flashCompaction 0 false n) s fun t =>
      t.svc.storeFull = true ∧ (fltAt t .bgs).status.getLsbD 7 = true ∧ SameBut [.svc, .faults] s t := by
  refine .of_act (f := flashCompaction 0 false n) hl.alive rfl ?_
  rw [flashCompaction_runs hr hf fun _ => hd, if_neg (by decide)]
  have hset := set_svc_same s { s.svc with storeFull := s.svc.storeFull || decide (0 = 0) }
  have hraise := raise_same { s with svc := { s.svc with storeFull := s.svc.storeFull || decide (0 = 0) } }
    { block := .bgs, bit := 7, cls := 1, obj := 0, master := 7 }
  have hgrows := raise_grows (s := { s with svc := { s.svc with storeFull := s.svc.storeFull || decide (0 = 0) } }) hl.canon.faults
    { block := .bgs, bit := 7, cls := 1, obj := 0, master := 7 }
  have hstatus := raise_status (s := { s with svc := { s.svc with storeFull := s.svc.storeFull || decide (0 = 0) } })
    (o := { block := .bgs, bit := 7, cls := 1, obj := 0, master := 7 }) hl.canon.faults (show 7 < 32 by omega) hm
  obtain ⟨hwear, -, hfull, -, hsame⟩ := wearNoted_effect (n := n) (s := s) hgrows.canon
  rw [settle_svc, hfull, fltAt_of_same (settle_same s _) (by decide)]
  refine ⟨?_, hwear.status .bgs 7 hstatus, (((hset.andThen hraise).andThen hsame).mono (by decide)).settled s⟩
  rw [raise_svc]
  simp

theorem compaction_config (hl : Live s) (hr : serviceRuns s = true) (hf : s.kpr.flash = true) : Completes (.flashCompaction 1 true n) s fun t =>
    t.svc.maxErase = max s.svc.maxErase (min 0xFFFFF n) ∧ t.svc.storeFull = s.svc.storeFull ∧ SameBut [.svc, .faults] s t := by
  refine .of_act (f := flashCompaction 1 true n) hl.alive rfl ?_
  rw [flashCompaction_runs (c := 1) hr hf (fun h => absurd h (by decide)), if_pos rfl, if_neg (by decide)]
  obtain ⟨-, -, hfull, hmax, hsame⟩ := wearNoted_effect (n := n) (s := s) (u := s) hl.canon.faults
  rw [settle_svc]
  exact ⟨hmax, hfull, hsame.settled s⟩

/-- Settles O42: a sample by its channel, a granule by its memory, a check and a compaction by what they find. -/
theorem serviceEvents : Obligations.ServiceEvents := by
  unfold Obligations.ServiceEvents
  refine ⟨?_, ?_, ?_, ?_, ?_, ?_, ?_, ?_, ?_, ?_, ?_, ?_, ?_, ?_, ?_, ?_, ?_, ?_, ?_, ?_, ?_, ?_⟩
  · intro s i v hl hi hr
    refine .of_act (f := telemetrySample i v) hl.alive (if_pos (decide_eq_true hi)) ?_
    rw [telemetrySample, if_pos (by simp [hr])]
    exact settle_same s s
  · exact fun s i v hl hi hr => telemetry_sensor hl hi hr
  · intro s i v hl hi hr
    have hchan : i = 17 ∨ i = 18 := by simpa using hi
    have hrange : supplyRange i = none := by rcases hchan with rfl | rfl <;> rfl
    refine .of_act (f := telemetrySample i v) hl.alive (if_pos (decide_eq_true (by omega))) ?_
    rw [telemetrySample_other hr (by omega) (by omega) hrange, if_neg (by omega)]
    exact settle_same s _
  · intro s i v lo hi hl hchan h16 hr hs hlo hhi
    refine .of_act (f := telemetrySample i v) hl.alive (if_pos (decide_eq_true hchan)) ?_
    rw [telemetrySample_supply hr h16 hs, noteSupply_within hlo hhi]
    exact settle_same s _
  · exact fun s i v lo hi hl hchan h16 hr hs ho hm => telemetry_out hl hchan h16 hr hs ho hm
  · exact fun s v hl hr hlo hhi => telemetry_core hl hr hlo hhi
  · intro s v hl hr hv
    refine .of_act (f := telemetrySample 19 v) hl.alive rfl ?_
    rw [telemetrySample_other hr (by decide) (by decide) rfl, if_neg (fun h => h.2 hv)]
    exact settle_same s _
  · exact fun s v hl hr hv => telemetry_regulator hl hr hv
  · exact fun s h b g r hl hh hb hg hr hready hclean => groom_clean ⟨hl, hh, hb, hg, hr, hready⟩ hclean
  · exact fun s h b g r hl hh hb hg hr hready => groom_passes ⟨hl, hh, hb, hg, hr, hready⟩
  · exact fun s h b g r hl hh hb hg hr hready hnew hroom hm => groom_remaps ⟨hl, hh, hb, hg, hr, hready⟩ hnew hroom hm
  · exact fun s h b g hl hh hb hg hr hready hnew hfull => groom_loses ⟨hl, hh, hb, hg, hr, hready⟩ hnew hfull
  · exact fun s b g r hl hb hg hr => groom_inner_passes hl hb hg hr
  · exact fun s b g r hl hb hg hr hnew hroom hm => groom_inner_remaps hl hb hg hr hnew hroom hm
  · intro s m hl hlane hr hon hmode hdata hopen
    refine EyeChecked.completes ⟨hl, hlane, hr, hon, hmode, hdata⟩ ?_
    rw [eyeService_open hopen, noteEyes_one]
    exact settle_same s _
  · exact fun s m l hl hlane hr hon hmode hdata hlink he => eye_closed ⟨hl, hlane, hr, hon, hmode, hdata⟩ hlink he
  · exact fun s k n hl hr hon hrole hmode hrun hk hn => skew_begins ⟨hl, hr, hon, hrole, hmode⟩ hrun hk hn
  · intro s r n hl hr hon hrole hmode hrun hs
    refine SkewChecked.completes ⟨hl, hr, hon, hrole, hmode⟩ ?_
    rw [skewService, if_pos (by simp [hrun, hs])]
    exact settle_same s s
  · exact fun s r k n hl hr hon hrole hmode hrun hs hp hk hn hm => skew_fails ⟨hl, hr, hon, hrole, hmode⟩ hrun hs hp hk hn hm
  · exact fun s n hl hr hf hd => compaction_fits hl hr hf hd
  · exact fun s n hl hr hf hd hm => compaction_full hl hr hf hd hm
  · exact fun s n hl hr hf => compaction_config hl hr hf

end Sys2Proof.Arch

/-! What a step does to one cell and what it leaves: the operations of a sample (R59, R60, R73, R86, R163, R436). -/

namespace Sys2Proof.Arch

open Sys2Proof Sys2Proof.Machine Sys2Proof.Safety Sys2Proof.Laws Sys2Proof.Scope

variable {s t u : State} {c k tick q : Nat} {l l' : List Part} {X : Cell} {F : Cell → Cell}

/-! ### A cell but for its bookkeeping -/

/-- A cell without what its runs, its signature block and its clipping count, and without its epoch. -/
def cellCore (x : Cell) : Cell :=
  { x with epoch := 0, sig := {}, gapRun := 0, gapFirst := 0, gapQ := 0, gapEmpty := false, gapCount := 0, lastGap := 0, lateRun := 0,
           lateFirst := 0, clipPre := false, clipOut := false, clipPreCount := 0, clipOutCount := 0 }

/-- A change of a cell that the bookkeeping has no part in. -/
def Plain (F : Cell → Cell) : Prop := ∀ x, cellCore (F x) = cellCore (F (cellCore x))

theorem Plain.congr {x y : Cell} (hF : Plain F) (h : cellCore x = cellCore y) : cellCore (F x) = cellCore (F y) := by
  rw [hF x, h, ← hF y]

/-- From `s` to `t` cell `c` becomes `X` but for its bookkeeping, no other cell changes, and nothing but the parts named. -/
structure CellStep (c : Nat) (l : List Part) (X : Cell) (s t : State) : Prop where
  canon : twf {} t.cells = true
  here : cellCore (cellAt t c) = cellCore X
  other : ∀ k, k ≠ c → cellAt t k = cellAt s k
  same : SameBut l s t

theorem CellStep.refl (hw : twf {} s.cells = true) : CellStep c l (cellAt s c) s s := ⟨hw, rfl, fun _ _ => rfl, .refl l s⟩

/-- A step after another: the cell it finds is the one that the other left. -/
theorem CellStep.trans (h : CellStep c l X s u) (h' : CellStep c l (F (cellAt u c)) u t) (hF : Plain F) : CellStep c l (F X) s t :=
  ⟨h'.canon, h'.here.trans (hF.congr h.here), fun k hk => (h'.other k hk).trans (h.other k hk), h.same.trans h'.same⟩

theorem CellStep.mono (h : CellStep c l X s t) (hl : ∀ p ∈ l, p ∈ l') : CellStep c l' X s t := ⟨h.canon, h.here, h.other, h.same.mono hl⟩

/-- A step that leaves the cells. -/
theorem CellStep.keep (h : CellStep c l X s u) (h' : SameBut l' u t) (hc : Part.cells ∉ l') (hl : ∀ p ∈ l', p ∈ l) : CellStep c l X s t := by
  have hcells : t.cells = u.cells := h'.same .cells hc
  exact ⟨hcells ▸ h.canon, by rw [cellAt_of_same h' hc, h.here], fun k hk => by rw [cellAt_of_same h' hc, h.other k hk],
    h.same.trans (h'.mono hl)⟩

/-- A step that changes the cell's bookkeeping alone. -/
theorem CellStep.note (h : CellStep c l X s u) (h' : CellStep c l (cellAt u c) u t) : CellStep c l X s t :=
  h.trans (F := id) h' fun _ => rfl

/-- The cell written, as `X` but for its bookkeeping. -/
theorem CellStep.write {Y : Cell} (hw : twf {} s.cells = true) (hl : Part.cells ∈ l) (hY : cellCore Y = cellCore X) :
    CellStep c l X s { s with cells := tset {} s.cells c Y } :=
  ⟨twf_tset hw c Y, (congrArg cellCore (tget_tset_same hw c Y)).trans hY, fun k hk => tget_tset_other _ _ hk _,
    (set_cells_same s _).mono fun p hp => by simp_all⟩

theorem modCell_step (hw : twf {} s.cells = true) (hl : Part.cells ∈ l) (f : Cell → Cell) :
    CellStep c l (f (cellAt s c)) s (modCell s c f) := by
  have hput : ∃ n, modCell s c f = { s with cells := tset {} s.cells c { f (cellAt s c) with epoch := n } } := by
    unfold modCell putCell
    dsimp only
    split
    · exact ⟨(f (cellAt s c)).epoch, rfl⟩
    · exact ⟨_, rfl⟩
  obtain ⟨n, hn⟩ := hput
  rw [hn]
  exact .write hw hl rfl

/-! ### Runs and signature blocks that end (R54, R163, R436) -/

theorem endGap_step (hw : twf {} s.cells = true) (c : Nat) : CellStep c [.cells, .jnl] (cellAt s c) s (endGap c s) := by
  unfold endGap
  dsimp only
  split
  · exact .refl hw
  · refine .keep ?_ (jput_same ..) (by decide) (by decide)
    exact .write hw (by decide) rfl

theorem endLate_step (hw : twf {} s.cells = true) (c : Nat) : CellStep c [.cells, .jnl] (cellAt s c) s (endLate c s) := by
  unfold endLate
  dsimp only
  split
  · exact .refl hw
  · refine .keep ?_ (jput_same ..) (by decide) (by decide)
    exact .write hw (by decide) rfl

theorem sigClose_step (hw : twf {} s.cells = true) (c : Nat) : CellStep c [.cells, .jnl, .rpl] (cellAt s c) s (sigClose c s) := by
  unfold sigClose
  extract_lets x g pieces crc s1
  have h1 : CellStep c [.cells, .jnl, .rpl] (cellAt s c) s s1 := .write hw (by decide) rfl
  split
  · exact .refl hw
  · split
    · split
      · exact h1
      · extract_lets s2
        have h2 : CellStep c [.cells, .jnl, .rpl] (cellAt s c) s s2 := h1.keep (set_rpl_same s1 _) (by decide) (by decide)
        split
        · split
          · exact h2
          · exact h2.keep (replayMismatch_same ..) (by decide) (by decide)
        · exact h2
    · exact h1.keep (jput_same ..) (by decide) (by decide)

theorem sigAdd_step (hw : twf {} s.cells = true) (c tick word : Nat) (missing late : Bool) :
    CellStep c [.cells, .jnl, .rpl] (cellAt s c) s (sigAdd c tick word missing late s) := by
  unfold sigAdd
  extract_lets x g b start p n g1 s1
  have h1 : CellStep c [.cells, .jnl, .rpl] (cellAt s c) s s1 := .write hw (by decide) rfl
  split
  · exact .refl hw
  · split
    · exact h1.note (sigClose_step h1.canon c)
    · exact h1

/-! ### A cell that becomes BOUND (R60) -/

/-- The walk of a cell that becomes BOUND ends. -/
def cellIdle (x : Cell) : Cell :=
  { x with st := .bound, step := 0, pos := 0, passes := 0, dead := 0, next := none, loops := [], hist := [], entering := false }

/-- What becoming BOUND makes of a cell. -/
def cellBound (x : Cell) : Cell := cellIdle { x with arm := none }

theorem releaseArm_step (hw : twf {} s.cells = true) (c : Nat) :
    CellStep c cellParts { cellAt s c with arm := none } s (releaseArm c s) := by
  unfold releaseArm
  dsimp only
  split
  next h => exact ⟨hw, by rw [← h], fun _ _ => rfl, .refl _ s⟩
  · refine .keep ?_ (releaseAreas_same ..) (by decide) (by decide)
    exact .write hw (by decide) rfl

theorem toBound_step (hw : twf {} s.cells = true) (c : Nat) : CellStep c cellParts (cellBound (cellAt s c)) s (toBound c .bound s) := by
  unfold toBound
  dsimp only
  refine .keep ?_ (releaseTable_same ..) (by decide) (by decide)
  have hgap := (endGap_step hw c).mono (l' := cellParts) (by decide)
  have hlate := hgap.note ((endLate_step hgap.canon c).mono (by decide))
  have hsig := hlate.note ((sigClose_step hlate.canon c).mono (by decide))
  have harm := hsig.trans (F := fun x => { x with arm := none }) (releaseArm_step hsig.canon c) fun _ => rfl
  exact harm.trans (F := cellIdle) (modCell_step (l := cellParts) harm.canon (by decide) cellIdle) fun _ => rfl

/-! ### A sample that leaves (R43, R72, R73) -/

/-- The word that leaves for a value at the last stage. -/
def sampleWord (s : State) (b : Int) (marks low : Nat) (x : Cell) : Nat :=
  if x.target.kind = 1 then auxCode b else fmtOut (cellFormat s x) b + 16 * marks + low

/-- What a sample that leaves makes of its cell. -/
def cellDelivered (s : State) (b : Int) (marks low : Nat) (x : Cell) : Cell :=
  { x with out := BitVec.ofNat 32 (sampleWord s b marks low x), outValid := true, n := x.n + 1, markers := marks,
           emitCount := BitVec.ofNat 32 x.n }

/-- The parts that a sample which leaves can change. -/
def deliverParts : List Part := [.cells, .auxs, .hops, .jnl, .rpl]

theorem markerEdges_same (c origin old new : Nat) (s : State) : SameBut [.hops] s (markerEdges c origin old new s) :=
  .forUp (fun _ u => .ite (fun _ => .refl _ u) fun _ => produce_same ..) 4 0 s

theorem modAux_same (s : State) (i : Nat) (f : Aux → Aux) : SameBut [.auxs] s (modAux s i f) := set_auxs_same s _

theorem auxSet_same (a code n : Nat) (s : State) : SameBut [.auxs] s (auxSet a code n s) :=
  .ite (fun _ => modAux_same ..) fun _ => modAux_same ..

/-- Parts that a sample changes of a cell that drives no auxiliary output. -/
def quietParts : List Part := [.cells, .hops, .jnl, .rpl]

theorem deliver_step_within (hw : twf {} s.cells = true) (hl : ∀ p ∈ quietParts, p ∈ l)
    (ha : (cellAt s c).target.kind = 1 → Part.auxs ∈ l) (tick : Nat) (b : Int) (marks low : Nat) (missing late : Bool) :
    CellStep c l (cellDelivered s b marks low (cellAt s c)) s (deliver c tick b marks low missing late s) := by
  unfold deliver
  extract_lets x isAux w clip word x1 s1 s2
  have h1 : CellStep c l (cellDelivered s b marks low (cellAt s c)) s s1 := .write hw (hl .cells (by decide)) rfl
  have h2 : CellStep c l (cellDelivered s b marks low (cellAt s c)) s s2 := by
    unfold s2
    split
    next hk =>
      refine h1.keep (l' := [.auxs]) ?_ (by decide) fun p hp => by rw [List.mem_singleton.mp hp]; exact ha hk
      exact .ite (fun _ => auxSet_same ..) fun _ => .refl _ _
    · exact h1
  have h3 := h2.keep (markerEdges_same c tick x.markers marks s2) (by decide) fun p hp => by
    rw [List.mem_singleton.mp hp]
    exact hl .hops (by decide)
  refine h3.note ((sigAdd_step h3.canon ..).mono fun p hp => hl p ?_)
  revert p
  decide

theorem deliver_step (hw : twf {} s.cells = true) (c tick : Nat) (b : Int) (marks low : Nat) (missing late : Bool) :
    CellStep c deliverParts (cellDelivered s b marks low (cellAt s c)) s (deliver c tick b marks low missing late s) :=
  deliver_step_within hw (by decide) (fun _ => by decide) ..

/-- What a bridge sample makes of its cell (R73). -/
def cellBridged (s : State) (x : Cell) : Cell := cellDelivered s (bridgeValue x) 0 (4 + x.bridge) x

theorem bridgeSample_step_within (hw : twf {} s.cells = true) (hl : ∀ p ∈ quietParts, p ∈ l)
    (ha : (cellAt s c).target.kind = 1 → Part.auxs ∈ l) (tick : Nat) (late : Bool) :
    CellStep c l (cellBridged s (cellAt s c)) s (bridgeSample c tick late s) := deliver_step_within hw hl ha ..

theorem bridgeSample_step (hw : twf {} s.cells = true) (c tick : Nat) (late : Bool) :
    CellStep c deliverParts (cellBridged s (cellAt s c)) s (bridgeSample c tick late s) := deliver_step hw ..

theorem sampleWord_of_same (h : SameBut l s u) (hl : Part.links ∉ l) (b : Int) (marks low : Nat) (x : Cell) :
    sampleWord u b marks low x = sampleWord s b marks low x := by
  unfold sampleWord cellFormat
  rw [linkAt_of_same h hl]

theorem cellDelivered_of_same (h : SameBut l s u) (hl : Part.links ∉ l) (b : Int) (marks low : Nat) :
    cellDelivered u b marks low = cellDelivered s b marks low := by
  funext x
  rw [cellDelivered, cellDelivered, sampleWord_of_same h hl]

theorem cellBridged_of_same (h : SameBut l s u) (hl : Part.links ∉ l) : cellBridged u = cellBridged s := by
  funext x
  rw [cellBridged, cellBridged, cellDelivered_of_same h hl]

theorem cellDelivered_plain (s : State) (b : Int) (marks low : Nat) : Plain (cellDelivered s b marks low) := fun _ => rfl

theorem cellBridged_plain (s : State) : Plain (cellBridged s) := fun _ => rfl

end Sys2Proof.Arch

/-! A cell emits a sample (R43, R54, R59, R60, R69, R72, R73, R90, R112, R138, R163). -/

namespace Sys2Proof.Arch

open Sys2Proof Sys2Proof.Machine Sys2Proof.Safety Sys2Proof.Laws Sys2Proof.Scope

variable {s t u : State} {c tick : Nat} {l : List Part} {X : Cell} {late : Bool}

/-! ### What is read of a cell after a step -/

/-- What the bookkeeping has no part in is as the step makes it. -/
theorem CellStep.field {β : Type} (h : CellStep c l X s t) (g : Cell → β) (hg : ∀ x, g (cellCore x) = g x) : g (cellAt t c) = g X := by
  rw [← hg, h.here, hg]

theorem CellStep.settled (h : CellStep c l X s t) (s0 : State) : CellStep c l X s (settle s0 t) :=
  h.keep (settle_same s0 t) (by decide) (by simp)

/-! ### A sample whose instant has come (R43) -/

/-- The instant of a cell's next sample has come, with its guard open and no decision before it. -/
structure SampleDue (s : State) (c : Nat) : Prop extends Live s where
  cell : c < nCells s
  opened : (domAt s (cellAt s c).domain).guardOpen = true
  due : nextEdge (cellAt s c) * (domAt s (cellAt s c).domain).den * (domAt s (cellAt s c).domain).div ≤
    s.time.tick * (domAt s (cellAt s c).domain).num
  free : decisionBefore s c (nextEdge (cellAt s c)) = false

/-- The tick of a cell's next sample. -/
def sampleTick (s : State) (c : Nat) : Nat := edgeTick (domAt s (cellAt s c).domain) (nextEdge (cellAt s c))

theorem SampleDue.completes {P : State → Prop} (h : SampleDue s c) (hoff : (cellAt s c).st ≠ .off) (hlock : (cellAt s c).st ≠ .reflock)
    (hp : P (settle s (emitSample c (sampleTick s c) late s))) : Completes (.sampleEmission c late) s P := by
  refine .of_act (f := sampleEmission c late) h.alive (if_pos (decide_eq_true h.cell)) ?_
  have hturn : sampleEmission c late s = emitSample c (sampleTick s c) late s :=
    if_neg (by simp [h.opened, hoff, hlock, h.free, h.due])
  rwa [hturn]

theorem takeNext_none (h : (cellAt s c).next = none) : takeNext c s = s := by
  unfold takeNext
  dsimp only
  rw [h]

/-! ### Bridge samples (R72, R73) -/

/-- A cell out of a gap. -/
def cellUngapped (x : Cell) : Cell := { x with inGap := false }

theorem restSample_step (hw : twf {} s.cells = true) (hl : ∀ p ∈ quietParts, p ∈ l) (ha : (cellAt s c).target.kind = 1 → Part.auxs ∈ l)
    (tick : Nat) : CellStep c l (cellBridged s (cellUngapped (cellAt s c))) s (bridgeSample c tick false (modCell s c cellUngapped)) := by
  have hgap : CellStep c l (cellUngapped (cellAt s c)) s (modCell s c cellUngapped) := modCell_step hw (hl .cells (by decide)) _
  have htarget : (cellAt (modCell s c cellUngapped) c).target = (cellAt s c).target := hgap.field Cell.target fun _ => rfl
  have hsame : SameBut [.cells] s (modCell s c cellUngapped) := modCell_same ..
  have hbridge := bridgeSample_step_within (l := l) hgap.canon hl (by rwa [htarget]) tick false
  rw [cellBridged_of_same hsame (by decide)] at hbridge
  exact hgap.trans hbridge (cellBridged_plain s)

theorem emitSample_rest (hn : (cellAt s c).next = none)
    (hst : (cellAt s c).st = .bound ∨ (cellAt s c).st = .armed ∨ (cellAt s c).st = .paused) :
    emitSample c tick late s = bridgeSample c tick false (modCell s c cellUngapped) := by
  unfold emitSample
  rw [takeNext_none hn]
  dsimp only
  rcases hst with h | h | h <;> rw [h] <;> rfl

/-- The place of a running cell after a sample of its dead time. -/
def deadNext (x : Cell) : NextPos := { step := x.step, pos := x.pos, passes := x.passes, dead := x.dead - 1, loops := x.loops }

/-- A cell in its dead time moves on. -/
def cellDead (x : Cell) : Cell := { x with next := some (deadNext x), inGap := false }

theorem emitSample_dead (hn : (cellAt s c).next = none) (hst : (cellAt s c).st = .running) (hd : 0 < (cellAt s c).dead) :
    emitSample c tick late s = bridgeSample c tick false (endLate c (endGap c (modCell s c fun y =>
      { y with next := some (deadNext (cellAt s c)), inGap := false }))) := by
  unfold emitSample
  rw [takeNext_none hn]
  dsimp only
  rw [hst]
  exact if_pos hd

theorem deadSample_step (hw : twf {} s.cells = true) (c tick : Nat) : CellStep c deliverParts (cellBridged s (cellDead (cellAt s c))) s
    (bridgeSample c tick false (endLate c (endGap c (modCell s c fun y => { y with next := some (deadNext (cellAt s c)), inGap := false })))) := by
  have hmove : CellStep c deliverParts (cellDead (cellAt s c)) s
      (modCell s c fun y => { y with next := some (deadNext (cellAt s c)), inGap := false }) := modCell_step hw (by decide) _
  have hgap := hmove.note ((endGap_step hmove.canon c).mono (by decide))
  have hlate := hgap.note ((endLate_step hgap.canon c).mono (by decide))
  have hbridge := bridgeSample_step hlate.canon c tick false
  rw [cellBridged_of_same hlate.same (by decide)] at hbridge
  exact hlate.trans hbridge (cellBridged_plain s)

/-! ### A cell that becomes BOUND at its sample (R60, R77, R138) -/

/-- The parts that a cell which ends at its sample can change. -/
def endParts : List Part := [.cells, .active, .auxs, .hops, .inner, .jnl, .rpl, .queues, .hives]

/-- A cell at the place that its last sample left it. -/
def cellMoved (q : NextPos) (x : Cell) : Cell :=
  { x with step := q.step, pos := q.pos, passes := q.passes, loops := q.loops, dead := q.dead, next := none,
           hist := if 0 < q.dead then [] else x.hist }

/-- A cell with the flag of the walk's end. -/
def cellEndFlag (x : Cell) : Cell := { x with flags := x.flags ||| 1 }

theorem takeNext_ends {q : NextPos} (hn : (cellAt s c).next = some q) (hq : q.stop = 1) : takeNext c s =
    toBound c .bound (modCell { s with cells := tset {} s.cells c (enterTarget s c (cellMoved q (cellAt s c))) } c cellEndFlag) := by
  unfold takeNext
  dsimp only
  rw [hn]
  exact if_pos hq

theorem enterTarget_n (s : State) (c : Nat) (x : Cell) : (enterTarget s c x).n = x.n := by
  unfold enterTarget enterStep
  dsimp only
  (repeat' split) <;> rfl

theorem takeNext_step {q : NextPos} (hw : twf {} s.cells = true) (hn : (cellAt s c).next = some q) (hq : q.stop = 1) :
    CellStep c endParts (cellBound (cellEndFlag (enterTarget s c (cellMoved q (cellAt s c))))) s (takeNext c s) := by
  rw [takeNext_ends hn hq]
  have hmove : CellStep c endParts (enterTarget s c (cellMoved q (cellAt s c))) s
      { s with cells := tset {} s.cells c (enterTarget s c (cellMoved q (cellAt s c))) } := .write hw (by decide) rfl
  have hflag := hmove.trans (modCell_step (l := endParts) hmove.canon (by decide) cellEndFlag) fun _ => rfl
  exact hflag.trans ((toBound_step hflag.canon c).mono (by decide)) fun _ => rfl

theorem emitSample_bound (h : (cellAt (takeNext c s) c).st = .bound) :
    emitSample c tick late s = bridgeSample c tick false (modCell (takeNext c s) c cellUngapped) := by
  unfold emitSample
  dsimp only
  rw [h]
  rfl

/-- A bridge sample of a cell that a step has left BOUND. -/
theorem CellStep.rest (h : CellStep c l X s u) (hl : ∀ p ∈ deliverParts, p ∈ l) (hlinks : Part.links ∉ l) (tick : Nat) :
    CellStep c l (cellBridged s (cellUngapped X)) s (bridgeSample c tick false (modCell u c cellUngapped)) := by
  have hrest := restSample_step h.canon (c := c) (l := l) (fun p hp => hl p (by revert p; decide)) (fun _ => hl .auxs (by decide)) tick
  rw [cellBridged_of_same h.same hlinks] at hrest
  exact h.trans (F := fun x => cellBridged s (cellUngapped x)) hrest fun _ => rfl

/-- The parts that an uncorrectable word which stops a cell can change. -/
def ueParts : List Part := [.cells, .active, .auxs, .hops, .inner, .jnl, .rpl, .queues, .hives, .combMarks, .faults]

theorem touchWord_cells (hh : twf {} s.hives = true) (hf : twf {} s.faults = true) (master acc w : Nat) :
    FaultsGrow s (touchWord master acc w s) ∧ twf {} (touchWord master acc w s).hives = true ∧
      SameBut [.hives, .faults, .combMarks] s (touchWord master acc w s) := by
  have ht := touchWord_touched (m := master) (acc := acc) (w := w) (ws := [w]) rfl (List.mem_singleton.mpr rfl) hh hf
  exact ⟨ht.grows, ht.canon, ht.same⟩

theorem combFault_status {bit cls : Nat} (hf : twf {} s.faults = true) (hb : bit < 32) (hc : 2 ≤ cls) (ca master acc : Nat) :
    (fltAt (combFault s bit cls ca master acc) .cmb).status.getLsbD bit = true := by
  unfold combFault
  generalize ho : (Occ.mk _ _ _ _ _ _ _ _) = o
  have hblock : o.block = .cmb := ho ▸ rfl
  have hbit : o.bit = bit := ho ▸ rfl
  have hcls : o.cls = cls := ho ▸ rfl
  rw [← hblock, ← hbit]
  exact raise_status_unmaskable hf (hbit ▸ hb) (hcls ▸ hc)

/-- An uncorrectable word on a cell's fetch stops the cell, and is a fault of its comb. -/
theorem ueStop_step (hl : Live s) (c tick ca : Nat) :
    CellStep c ueParts (cellBridged s (cellUngapped (cellBound (cellAt s c)))) s (ueStop c tick ca s) ∧
    (fltAt (ueStop c tick ca s) .cmb).status.getLsbD 1 = true := by
  unfold ueStop
  extract_lets s1 s2
  obtain ⟨hgrows, -, htouch⟩ := touchWord_cells hl.canon.hives hl.canon.faults 0 3 (ca / 8)
  have hfault : SameBut [.faults] (touchWord 0 3 (ca / 8) s) s1 := raise_same _ _
  have h1 : CellStep c ueParts (cellAt s c) s s1 :=
    CellStep.keep (.refl hl.canon.cells) (htouch.andThen hfault) (by decide) (by decide)
  have hbound := h1.trans ((toBound_step h1.canon c).mono (by decide)) fun _ => rfl
  have h2 : CellStep c ueParts (cellBound (cellAt s c)) s s2 := hbound.keep (jstate_same ..) (by decide) (by decide)
  refine ⟨h2.rest (by decide) (by decide) tick, ?_⟩
  have hstatus : (fltAt s1 .cmb).status.getLsbD 1 = true := combFault_status hgrows.canon (by omega) (by omega) ..
  have hafter : SameBut endParts s1 (bridgeSample c tick false (modCell s2 c cellUngapped)) := by
    have hb : CellStep c endParts (cellBound (cellAt s1 c)) s1 s2 :=
      ((toBound_step h1.canon c).mono (by decide)).keep (jstate_same ..) (by decide) (by decide)
    exact (hb.rest (by decide) (by decide) tick).same
  change (fltAt (bridgeSample c tick false (modCell s2 c cellUngapped)) .cmb).status.getLsbD 1 = true
  rwa [fltAt_of_same hafter (by decide)]

end Sys2Proof.Arch

/-! Samples of a cell that plays: on time, late, and with data missing (R54, R59, R69, R90, R112, R138, R163). -/

namespace Sys2Proof.Arch

open Sys2Proof Sys2Proof.Machine Sys2Proof.Safety Sys2Proof.Laws Sys2Proof.Scope

variable {s t u : State} {c tick : Nat} {l : List Part} {X : Cell} {late : Bool}

/-! ### The steps of a sample -/

/-- The parts that a sample of a playing cell can change. -/
def playParts : List Part := [.cells, .auxs, .hops, .jnl, .rpl, .queues, .hives, .combMarks, .faults]

/-- Words that a fetch reads leave the tables in order, the faults that stood, and the cells. -/
structure SpansTouched (s t : State) : Prop where
  hives : twf {} t.hives = true
  grows : FaultsGrow s t
  same : SameBut [.hives, .faults, .combMarks] s t

theorem touchSpans_touched (hh : twf {} s.hives = true) (hf : twf {} s.faults = true) (rs : List (Nat × Nat)) :
    SpansTouched s (rs.foldl (fun s r => touchSpan 0 3 r.1 r.2 s) s) := by
  refine foldl_keeps (P := SpansTouched s) (fun u r hu => ?_) rs ⟨hh, .refl hf, .refl _ s⟩
  refine foldl_keeps (P := SpansTouched s) (fun v w hv => ?_) (wordsOf r.1 r.2) hu
  obtain ⟨hgrows, hhives, hsame⟩ := touchWord_cells hv.hives hv.grows.canon 0 3 w
  exact ⟨hhives, hv.grows.trans hgrows, hv.same.trans hsame⟩

theorem segStart_same (c tick : Nat) (st : StepRow) (s : State) : SameBut [.hops] s (segStart c tick st s) :=
  .ite (fun _ => produce_same ..) fun _ => .refl _ s

theorem set_queues_same (s : State) (x : Tab Queue) : SameBut [.queues] s { s with queues := x } :=
  ⟨fun p hp => by cases p <;> simp_all [Part.Same, ctxAt]⟩

theorem stepQueue_same (q : Option Nat) (s : State) : SameBut [.queues] s (stepQueue q s) := by
  cases q with
  | none => exact .refl _ s
  | some i =>
    unfold stepQueue modQueue putQueue
    dsimp only
    rw [if_pos (by split <;> rfl)]
    exact set_queues_same s _

/-- Where a walk's step leaves its cell. -/
def advNext (v : Adv) : NextPos :=
  { step := v.x.step, pos := v.x.pos, passes := v.x.passes, dead := v.x.dead, loops := v.x.loops, stop := v.stop }

/-- A cell with its next place. -/
def cellAdvanced (v : Adv) (x : Cell) : Cell := { x with next := some (advNext v) }

theorem applyAdv_step (hw : twf {} s.cells = true) (c tick : Nat) (v : Adv) :
    CellStep c [.cells, .hops] (cellAdvanced v (cellAt s c)) s (applyAdv c tick v s) := by
  unfold applyAdv
  extract_lets x y p s1
  have h1 : CellStep c [.cells, .hops] (cellAdvanced v (cellAt s c)) s s1 := .write hw (by decide) rfl
  split
  · exact h1.keep (produce_same ..) (by decide) (by decide)
  · exact h1

/-- The walk moves on after a sample that has left. -/
theorem CellStep.advance (h : CellStep c l X s u) (hl : ∀ p ∈ [Part.cells, .hops, .queues], p ∈ l) (q : Option Nat) (tick : Nat) (v : Adv) :
    CellStep c l (cellAdvanced v X) s (applyAdv c tick v (stepQueue q u)) := by
  have hq := h.keep (stepQueue_same q u) (by decide) fun p hp => hl p (by revert p; decide)
  exact hq.trans ((applyAdv_step hq.canon c tick v).mono fun p hp => hl p (by revert p; decide)) fun _ => rfl

/-- What missing data makes of a cell (R163). -/
def cellStarved (x : Cell) : Cell :=
  { x with flags := x.flags ||| 0x40 ||| (if x.slip then 0x200 else 0), underrunCount := sat 0xFFFFFFFF x.underrunCount,
           slipTotal := if x.slip then sat 0xFFFFFFFF x.slipTotal else x.slipTotal, inGap := true, hist := [] }

theorem countMissing_step (hw : twf {} s.cells = true) (c tick q : Nat) (dry : Bool) :
    CellStep c [.cells, .hops, .faults] (cellStarved (cellAt s c)) s (countMissing c tick q dry s) := by
  unfold countMissing
  extract_lets x first x1 s1
  have h1 : CellStep c [.cells, .hops, .faults] (cellStarved (cellAt s c)) s s1 := .write hw (by decide) rfl
  split
  · exact (h1.keep (produce_same ..) (by decide) (by decide)).keep (raise_same _ _) (by decide) (by decide)
  · exact h1

/-- What a late sample makes of a cell (R54). -/
def cellLated (x : Cell) : Cell :=
  { x with lateCount := sat 0xFFFFFFFF x.lateCount, flags := x.flags ||| 0x80, hist := [], lateInject := x.lateInject - 1 }

/-- A late sample is counted: the cell's flag, a fault of class 2, and the hive's window. -/
theorem countLate_step (hw : twf {} s.cells = true) (hh : twf {} s.hives = true) (hf : twf {} s.faults = true) (c : Nat) :
    CellStep c [.cells, .hives, .faults] (cellLated (cellAt s c)) s (countLate c s) ∧
    (fltAt (countLate c s) .cel).status.getLsbD 0 = true ∧ (hiveAt (countLate c s) (hiveOf c)).lateWin = true := by
  unfold countLate
  extract_lets x x1 s1 s2
  have h1 : CellStep c [.cells, .hives, .faults] (cellLated (cellAt s c)) s s1 := .write hw (by decide) rfl
  have h12 : SameBut [.hives] s1 s2 := set_hives_same s1 _
  have h2 := h1.keep h12 (by decide) (by decide)
  have hlate : (hiveAt s2 (hiveOf c)).lateWin = true :=
    congrArg Hive.lateWin (tget_tmod_same hh (hiveOf c) fun h : Hive => { h with lateWin := true })
  generalize ho : (Occ.mk _ _ _ _ _ _ _ _) = o
  have hraise := raise_same s2 o
  have hblock : o.block = .cel := ho ▸ rfl
  have hbit : o.bit = 0 := ho ▸ rfl
  have hcls : o.cls = 2 := ho ▸ rfl
  refine ⟨h2.keep hraise (by decide) (by decide), ?_, by rw [hiveAt_of_same hraise (by decide), hlate]⟩
  rw [← hblock, ← hbit]
  exact raise_status_unmaskable hf (by omega) (by omega)

/-! ### What a playing cell reads at its sample -/

/-- What the walk gives a cell's sample. -/
def samplePlay (s : State) (c tick : Nat) : Play := playAt s c (cellAt s c) [] (tick - 32)

/-- Where the walk goes after it. -/
def sampleAdv (s : State) (c tick : Nat) : Adv :=
  Machine.advance s c (samplePlay s c tick).len { cellAt s c with ddsA := (samplePlay s c tick).aNext }

/-- A playing cell without resampling or predistortion, outside replay, none of whose words is uncorrectable. -/
structure PlaysPlain (s : State) (c tick : Nat) : Prop where
  rate : rsActive (cellAt s c).ratio = false
  pd : (cellAt s c).pdEn = false
  mode : s.md.mode ≠ .replay
  words : ((samplePlay s c tick).spans.all fun r => !spanUe s r.1 r.2) = true

/-- A cell that has read the phase of its next entry. -/
def cellPhased (a : Nat) (x : Cell) : Cell := { x with ddsA := a }

/-- The queue a walk plays from, or 0. -/
def playQueue (p : Play) : Nat :=
  match p.queue with
  | some q => q
  | none => 0

/-- A sample whose data is missing: counted, with the bridge value. -/
def starvedSample (c tick : Nat) (s sT : State) : State :=
  let p := samplePlay s c tick
  let sM := countMissing c tick (playQueue p) p.empty (endLate c sT)
  let sS := if (cellAt s c).slip then sM else segStart c tick (stepAt s c (cellAt s c) (cellAt s c).step) sM
  let sD := deliver c tick (bridgeValue (cellAt s c)) 0 7 false false sS
  if (cellAt s c).slip then sD
  else applyAdv c tick (sampleAdv s c tick) (stepQueue p.queue (modCell sD c (cellPhased p.aNext)))

/-- A sample whose data came late: counted, with the bridge value. -/
def lateSample (c tick : Nat) (s sT : State) : State :=
  let p := samplePlay s c tick
  let sL := segStart c tick (stepAt s c (cellAt s c) (cellAt s c).step) (countLate c (modCell (endGap c sT) c cellUngapped))
  let sD := bridgeSample c tick false (modCell sL c (cellPhased p.aNext))
  applyAdv c tick (sampleAdv s c tick) (stepQueue p.queue sD)

/-- The value of a sample before predistortion, as the cell's gain and offset make it. -/
def sampleGained (s : State) (c tick : Nat) : Int := gainOut (cellAt s c).gU (cellAt s c).oU (samplePlay s c tick).v

/-- The value of a sample at the last stage. -/
def sampleValue (s : State) (c tick : Nat) : Int := gainOut (cellAt s c).gC (cellAt s c).oC (clip1 (sampleGained s c tick))

/-- The markers of a sample. -/
def sampleMarks (s : State) (c tick : Nat) : Nat :=
  let p := samplePlay s c tick
  markersAt (stepAt s c (cellAt s c) (cellAt s c).step) (cellAt s c).pos p.len p.mark p.dds

/-- The low bits of a sample's word: its step's segment bit. -/
def sampleLow (s : State) (c : Nat) : Nat :=
  8 * b2n ((stepAt s c (cellAt s c) (cellAt s c).step).segBit && decide ((cellAt s c).pos = 0))

/-- What a sample on time leaves in its cell before it leaves. -/
def cellPlayed (p : Play) (a b : Int) (y : Cell) : Cell :=
  { y with ddsA := p.aNext, ddsHi := if p.dds then BitVec.ofNat 32 (p.a / 65536) else y.ddsHi,
           hist := p.v :: y.hist.take 10, hold := b, clipPre := y.clipPre || decide (clip1 a ≠ a),
           clipPreCount := if clip1 a ≠ a then sat 0xFFFFFFFF y.clipPreCount else y.clipPreCount }

/-- A sample on time. -/
def timelySample (c tick : Nat) (s sT : State) : State :=
  let p := samplePlay s c tick
  let sE := segStart c tick (stepAt s c (cellAt s c) (cellAt s c).step) (endLate c (modCell (endGap c sT) c cellUngapped))
  let sP := modCell sE c (cellPlayed p (sampleGained s c tick) (sampleValue s c tick))
  let sD := deliver c tick (sampleValue s c tick) (sampleMarks s c tick) (sampleLow s c) false false sP
  applyAdv c tick (sampleAdv s c tick) (stepQueue p.queue sD)

/-- The words of a sample read. -/
def sampleRead (s : State) (c tick : Nat) : State := (samplePlay s c tick).spans.foldl (fun s r => touchSpan 0 3 r.1 r.2 s) s

theorem imposedAt_live (h : s.md.mode ≠ .replay) (c n : Nat) (b : Bool) : imposedAt s c n b = false := by
  simp [imposedAt, h]

theorem rsOut_plain {ratio : Nat} (h : rsActive ratio = false) (j : Nat) (hist : List Int) (v : Int) (ahead : List Int) :
    rsOut j ratio hist v ahead = v := by
  simp [rsOut, h]

theorem runSample_plain (hp : PlaysPlain s c tick) : runSample c tick late s =
    if (samplePlay s c tick).missing then starvedSample c tick s (sampleRead s c tick)
    else if late || decide (0 < (cellAt s c).lateInject) then lateSample c tick s (sampleRead s c tick)
    else timelySample c tick s (sampleRead s c tick) := by
  obtain ⟨hrate, hpd, hmode, hwords⟩ := hp
  have hfind : ((playAt s c (cellAt s c) [] (tick - 32)).spans.find? fun r => spanUe s r.1 r.2) = none := by
    rw [List.find?_eq_none]
    simpa [samplePlay] using hwords
  have hpd' : ((cellAt s c).pdEn = true) = False := by simp [hpd]
  unfold runSample
  simp only [hrate, hpd', imposedAt_live hmode, rsOut_plain hrate, Bool.false_eq_true, if_false, List.append_nil, Bool.or_false, hfind]
  cases hm : (playAt s c (cellAt s c) [] (tick - 32)).missing with
  | true =>
    rw [if_pos (show (samplePlay s c tick).missing = true from hm)]
    simp only [if_true, hmode, decide_false, Bool.false_and]
    rfl
  | false =>
    rw [if_neg (show ¬ (samplePlay s c tick).missing = true from by rw [samplePlay, hm]; decide)]
    simp only [hmode, decide_false, Bool.false_and, Bool.false_eq_true, if_false]
    rfl

/-! ### The three samples of a playing cell -/

/-- A cell at the phase and the place named. -/
def cellPlaced (a : Nat) (n : Option NextPos) (x : Cell) : Cell := { x with ddsA := a, next := n }

/-- A cell whose sample's data is missing, at the phase and the place named. -/
def starvedCell (s : State) (a : Nat) (n : Option NextPos) (x : Cell) : Cell :=
  cellPlaced a n (cellDelivered s (bridgeValue x) 0 7 (cellStarved x))

/-- A cell whose sample was late, at the phase and the place named. -/
def lateCell (s : State) (a : Nat) (v : Adv) (x : Cell) : Cell :=
  cellAdvanced v (cellBridged s (cellPhased a (cellLated (cellUngapped x))))

/-- A cell whose sample left on time. -/
def timelyCell (s : State) (p : Play) (v : Adv) (a b : Int) (marks low : Nat) (x : Cell) : Cell :=
  cellAdvanced v (cellDelivered s b marks low (cellPlayed p a b (cellUngapped x)))

theorem sampleWord_congr {x y : Cell} (ht : y.target = x.target) (hf : y.format = x.format) (s : State) (b : Int) (marks low : Nat) :
    sampleWord s b marks low y = sampleWord s b marks low x := by
  unfold sampleWord cellFormat
  rw [ht, hf]

theorem starvedCell_reads (s : State) (a : Nat) (n : Option NextPos) (x : Cell) :
    (starvedCell s a n x).st = x.st ∧ (starvedCell s a n x).n = x.n + 1 ∧
    (starvedCell s a n x).underrunCount = min 0xFFFFFFFF (x.underrunCount + 1) ∧ (starvedCell s a n x).flags.getLsbD 6 = true ∧
    (starvedCell s a n x).inGap = true ∧ (starvedCell s a n x).hold = x.hold ∧
    (starvedCell s a n x).out = BitVec.ofNat 32 (sampleWord s (bridgeValue x) 0 7 x) := by
  refine ⟨?_, ?_, ?_, ?_, ?_, ?_, congrArg (BitVec.ofNat 32) (sampleWord_congr ?_ ?_ ..)⟩ <;>
    simp [starvedCell, cellPlaced, cellDelivered, cellStarved, sat]

theorem lateCell_reads (s : State) (a : Nat) (v : Adv) (x : Cell) :
    (lateCell s a v x).st = x.st ∧ (lateCell s a v x).n = x.n + 1 ∧
    (lateCell s a v x).lateCount = min 0xFFFFFFFF (x.lateCount + 1) ∧ (lateCell s a v x).flags.getLsbD 7 = true ∧
    (lateCell s a v x).hold = x.hold ∧
    (lateCell s a v x).out = BitVec.ofNat 32 (sampleWord s (bridgeValue x) 0 (4 + x.bridge) x) := by
  refine ⟨?_, ?_, ?_, ?_, ?_, congrArg (BitVec.ofNat 32) (sampleWord_congr ?_ ?_ ..)⟩ <;>
    simp [lateCell, cellAdvanced, cellBridged, cellDelivered, cellPhased, cellLated, cellUngapped, sat]

theorem timelyCell_reads (s : State) (p : Play) (v : Adv) (a b : Int) (marks low : Nat) (x : Cell) :
    (timelyCell s p v a b marks low x).st = x.st ∧ (timelyCell s p v a b marks low x).n = x.n + 1 ∧
    (timelyCell s p v a b marks low x).hold = b ∧ (timelyCell s p v a b marks low x).markers = marks ∧
    (timelyCell s p v a b marks low x).out = BitVec.ofNat 32 (sampleWord s b marks low x) ∧
    (timelyCell s p v a b marks low x).next = some (advNext v) ∧ (timelyCell s p v a b marks low x).flags = x.flags := by
  refine ⟨?_, ?_, ?_, ?_, congrArg (BitVec.ofNat 32) (sampleWord_congr ?_ ?_ ..), ?_, ?_⟩ <;>
    simp [timelyCell, cellAdvanced, cellDelivered, cellPlayed, cellUngapped]

theorem SpansTouched.cell (h : SpansTouched s u) (hw : twf {} s.cells = true) (c : Nat) : CellStep c playParts (cellAt s c) s u :=
  CellStep.keep (.refl hw) h.same (by decide) (by decide)

/-- The first sample of a step's segment may be told. -/
theorem CellStep.segStart (h : CellStep c l X s u) (hl : Part.hops ∈ l) (tick : Nat) (st : StepRow) :
    CellStep c l X s (Machine.segStart c tick st u) :=
  h.keep (segStart_same ..) (by decide) fun p hp => by rwa [List.mem_singleton.mp hp]

theorem CellStep.deliver (h : CellStep c l X s u) (hl : ∀ p ∈ deliverParts, p ∈ l) (hlinks : Part.links ∉ l) (tick : Nat) (b : Int)
    (marks low : Nat) (missing late : Bool) :
    CellStep c l (cellDelivered s b marks low X) s (Machine.deliver c tick b marks low missing late u) := by
  have hd := (deliver_step h.canon c tick b marks low missing late).mono hl
  rw [cellDelivered_of_same h.same hlinks] at hd
  exact h.trans hd (cellDelivered_plain s b marks low)

/-- The phase of the next entry is read. -/
theorem CellStep.phase (h : CellStep c l X s u) (hl : Part.cells ∈ l) (a : Nat) :
    CellStep c l (cellPhased a X) s (modCell u c (cellPhased a)) :=
  h.trans (modCell_step h.canon hl _) fun _ => rfl

theorem starvedSample_step (hw : twf {} s.cells = true) (hu : SpansTouched s u) (c tick : Nat) : ∃ a n,
    CellStep c playParts (starvedCell s a n (cellAt s c)) s
      (starvedSample c tick s u) := by
  unfold starvedSample
  extract_lets p sM sS sD
  have hL := (hu.cell hw c).note ((endLate_step (hu.cell hw c).canon c).mono (by decide))
  have hM : CellStep c playParts (cellStarved (cellAt s c)) s sM :=
    hL.trans ((countMissing_step hL.canon c tick _ _).mono (by decide)) fun _ => rfl
  have hS : CellStep c playParts (cellStarved (cellAt s c)) s sS := by
    unfold sS
    split
    · exact hM
    · exact hM.segStart (by decide) ..
  have hD := hS.deliver (by decide) (by decide) tick (bridgeValue (cellAt s c)) 0 7 false false
  split
  · exact ⟨_, _, hD⟩
  · exact ⟨_, _, (hD.phase (by decide) p.aNext).advance (by decide) ..⟩

/-- The parts that a late sample changes once it is counted. -/
def lateParts : List Part := [.cells, .auxs, .hops, .jnl, .rpl, .queues]

/-- What a late sample does once it is counted. -/
theorem CellStep.lateRest (h : CellStep c l X s u) (hl : ∀ p ∈ lateParts, p ∈ l) (hlinks : Part.links ∉ l) (tick : Nat) (st : StepRow)
    (a : Nat) (q : Option Nat) (v : Adv) : CellStep c l (cellAdvanced v (cellBridged s (cellPhased a X))) s
      (applyAdv c tick v (stepQueue q (bridgeSample c tick false (modCell (Machine.segStart c tick st u) c (cellPhased a))))) := by
  have hphase := (h.segStart (hl .hops (by decide)) tick st).phase (hl .cells (by decide)) a
  have hbridge := (bridgeSample_step hphase.canon c tick false).mono (l' := l) fun p hp => hl p (by revert p; decide)
  rw [cellBridged_of_same hphase.same hlinks] at hbridge
  exact (hphase.trans hbridge (cellBridged_plain s)).advance (fun p hp => hl p (by revert p; decide)) q tick v

theorem lateSample_step (hw : twf {} s.cells = true) (hu : SpansTouched s u) (c tick : Nat) :
    CellStep c playParts (lateCell s (samplePlay s c tick).aNext (sampleAdv s c tick) (cellAt s c)) s (lateSample c tick s u) ∧
    (fltAt (lateSample c tick s u) .cel).status.getLsbD 0 = true ∧ (hiveAt (lateSample c tick s u) (hiveOf c)).lateWin = true := by
  unfold lateSample
  extract_lets p sL sD
  have h0 := hu.cell hw c
  have hG := h0.note ((endGap_step h0.canon c).mono (by decide))
  have hU := hG.trans (modCell_step (l := playParts) hG.canon (by decide) cellUngapped) fun _ => rfl
  have hkept : SameBut [.cells, .jnl] u (modCell (endGap c u) c cellUngapped) :=
    (endGap_step h0.canon c).same.trans ((modCell_same ..).mono (by decide))
  obtain ⟨hcount, hstatus, hlate⟩ := countLate_step (c := c) hU.canon ((hkept.same .hives (by decide)).symm ▸ hu.hives)
    ((hkept.same .faults (by decide)).symm ▸ hu.grows.canon)
  have hC := hU.trans (hcount.mono (by decide)) fun _ => rfl
  have hrest := (CellStep.refl (c := c) (l := lateParts) hcount.canon).lateRest (by decide) (by decide) tick
    (stepAt s c (cellAt s c) (cellAt s c).step) p.aNext p.queue (sampleAdv s c tick)
  refine ⟨hC.lateRest (by decide) (by decide) .., ?_, ?_⟩
  · exact (congrArg (fun f : FaultBlk => f.status.getLsbD 0) (fltAt_of_same hrest.same (by decide) .cel)).trans hstatus
  · exact (congrArg Hive.lateWin (hiveAt_of_same hrest.same (by decide) (hiveOf c))).trans hlate

theorem timelySample_step (hw : twf {} s.cells = true) (hu : SpansTouched s u) (c tick : Nat) :
    CellStep c playParts (timelyCell s (samplePlay s c tick) (sampleAdv s c tick) (sampleGained s c tick) (sampleValue s c tick)
      (sampleMarks s c tick) (sampleLow s c) (cellAt s c)) s (timelySample c tick s u) := by
  unfold timelySample
  extract_lets p sE sP sD
  have h0 := hu.cell hw c
  have hG := h0.note ((endGap_step h0.canon c).mono (by decide))
  have hU := hG.trans (modCell_step (l := playParts) hG.canon (by decide) cellUngapped) fun _ => rfl
  have hL := hU.note ((endLate_step hU.canon c).mono (by decide))
  have hE : CellStep c playParts (cellUngapped (cellAt s c)) s sE := hL.segStart (by decide) ..
  have hP := hE.trans (modCell_step (l := playParts) hE.canon (by decide)
    (cellPlayed p (sampleGained s c tick) (sampleValue s c tick))) fun _ => rfl
  exact (hP.deliver (by decide) (by decide) ..).advance (by decide) ..

end Sys2Proof.Arch

/-! O38: the samples of a cell (R43, R54, R59, R60, R69, R72, R73, R90, R112, R138, R163). -/

namespace Sys2Proof.Arch

open Sys2Proof Sys2Proof.Machine Sys2Proof.Safety Sys2Proof.Laws Sys2Proof.Scope

variable {s t u : State} {c tick : Nat} {l : List Part} {X : Cell} {late : Bool}

theorem emitSample_runs (hn : (cellAt s c).next = none) (hst : (cellAt s c).st = .running) (hd : (cellAt s c).dead = 0) :
    emitSample c tick late s = runSample c tick late s := by
  unfold emitSample
  rw [takeNext_none hn]
  dsimp only
  rw [hst]
  exact if_neg (by omega)

/-- A cell whose walk reads an uncorrectable word stops. -/
theorem runSample_ue {r : Nat × Nat} (hr : r ∈ (samplePlay s c tick).spans) (hue : spanUe s r.1 r.2 = true) :
    ∃ ca, runSample c tick late s = ueStop c tick ca s := by
  unfold runSample
  dsimp only
  split
  · exact ⟨_, rfl⟩
  next hnone =>
    refine absurd hue (List.find?_eq_none.mp hnone r ?_)
    exact List.mem_append_left _ (List.mem_append_left _ hr)

/-- A running cell whose sample is due, at a place of its walk. -/
structure WalkDue (s : State) (c : Nat) : Prop extends SampleDue s c where
  running : (cellAt s c).st = .running
  inStep : (cellAt s c).dead = 0
  settled : (cellAt s c).next = none

theorem WalkDue.completes {P : State → Prop} (h : WalkDue s c) (hp : P (settle s (runSample c (sampleTick s c) late s))) :
    Completes (.sampleEmission c late) s P :=
  h.toSampleDue.completes (by simp [h.running]) (by simp [h.running])
    (by rwa [emitSample_runs h.settled h.running h.inStep])

theorem WalkDue.read (h : WalkDue s c) (tick : Nat) : SpansTouched s (sampleRead s c tick) :=
  touchSpans_touched h.canon.hives h.canon.faults _

/-! ### The clauses -/

theorem sampleSkipped (h : Live s) (hc : c < nCells s) (hg : (domAt s (cellAt s c).domain).guardOpen = false) :
    Completes (.sampleEmission c late) s (SameBut [] s) := by
  refine .of_act (f := sampleEmission c late) h.alive (if_pos (decide_eq_true hc)) ?_
  have hturn : sampleEmission c late s = s := if_pos (by simp [hg])
  rw [hturn]
  exact settle_same s s

theorem restSample (h : SampleDue s c) (hst : (cellAt s c).st = .bound ∨ (cellAt s c).st = .armed ∨ (cellAt s c).st = .paused)
    (hn : (cellAt s c).next = none) : Completes (.sampleEmission c late) s fun t =>
      (cellAt t c).st = (cellAt s c).st ∧ (cellAt t c).n = (cellAt s c).n + 1 ∧ (cellAt t c).emitCount = BitVec.ofNat 32 (cellAt s c).n ∧
      (cellAt t c).outValid = true ∧
      (cellAt t c).out = BitVec.ofNat 32 (if (cellAt s c).target.kind = 1 then auxCode (bridgeValue (cellAt s c))
        else fmtOut (cellFormat s (cellAt s c)) (bridgeValue (cellAt s c)) + (4 + (cellAt s c).bridge)) ∧
      (cellAt t c).markers = 0 ∧ (cellAt t c).hold = (cellAt s c).hold ∧ (∀ k, k ≠ c → cellAt t k = cellAt s k) ∧
      ((cellAt s c).target.kind ≠ 1 → t.auxs = s.auxs) ∧ SameBut [.cells, .auxs, .hops, .jnl, .rpl] s t := by
  refine h.completes (by rcases hst with h | h | h <;> simp [h]) (by rcases hst with h | h | h <;> simp [h]) ?_
  rw [emitSample_rest hn hst]
  have hstep := (restSample_step (c := c) (l := deliverParts) h.canon.cells (by decide) (fun _ => by decide) (sampleTick s c)).settled s
  refine ⟨hstep.field Cell.st fun _ => rfl, hstep.field Cell.n fun _ => rfl, hstep.field Cell.emitCount fun _ => rfl,
    hstep.field Cell.outValid fun _ => rfl, hstep.field Cell.out fun _ => rfl, hstep.field Cell.markers fun _ => rfl,
    hstep.field Cell.hold fun _ => rfl, hstep.other, fun haux => ?_, hstep.same⟩
  exact ((restSample_step (c := c) (l := quietParts) h.canon.cells (by decide) (fun hk => absurd hk haux) (sampleTick s c)).settled s).same.same
    .auxs (by decide)

theorem deadSample (h : SampleDue s c) (hst : (cellAt s c).st = .running) (hd : 0 < (cellAt s c).dead) (hn : (cellAt s c).next = none) :
    Completes (.sampleEmission c late) s fun t =>
      (cellAt t c).st = .running ∧ (cellAt t c).n = (cellAt s c).n + 1 ∧ (cellAt t c).next = some (deadNext (cellAt s c)) ∧
      (cellAt t c).out = BitVec.ofNat 32 (if (cellAt s c).target.kind = 1 then auxCode (bridgeValue (cellAt s c))
        else fmtOut (cellFormat s (cellAt s c)) (bridgeValue (cellAt s c)) + (4 + (cellAt s c).bridge)) ∧
      (∀ k, k ≠ c → cellAt t k = cellAt s k) ∧ SameBut [.cells, .auxs, .hops, .jnl, .rpl] s t := by
  refine h.completes (by simp [hst]) (by simp [hst]) ?_
  rw [emitSample_dead hn hst hd]
  have hstep := (deadSample_step h.canon.cells c (sampleTick s c)).settled s
  exact ⟨(hstep.field Cell.st fun _ => rfl).trans hst, hstep.field Cell.n fun _ => rfl, hstep.field Cell.next fun _ => rfl,
    hstep.field Cell.out fun _ => rfl, hstep.other, hstep.same⟩

theorem timelySampleLeaves (h : WalkDue s c) (hp : PlaysPlain s c (sampleTick s c)) (hi : (cellAt s c).lateInject = 0)
    (hm : (samplePlay s c (sampleTick s c)).missing = false) : Completes (.sampleEmission c false) s fun t =>
      (cellAt t c).st = .running ∧ (cellAt t c).n = (cellAt s c).n + 1 ∧ (cellAt t c).hold = sampleValue s c (sampleTick s c) ∧
      (cellAt t c).markers = sampleMarks s c (sampleTick s c) ∧
      (cellAt t c).out = BitVec.ofNat 32 (sampleWord s (sampleValue s c (sampleTick s c)) (sampleMarks s c (sampleTick s c))
        (sampleLow s c) (cellAt s c)) ∧
      (cellAt t c).next = some (advNext (sampleAdv s c (sampleTick s c))) ∧ (cellAt t c).flags = (cellAt s c).flags ∧
      (∀ k, k ≠ c → cellAt t k = cellAt s k) ∧ SameBut playParts s t := by
  refine h.completes ?_
  rw [runSample_plain hp, if_neg (by simp [hm]), if_neg (by simp [hi])]
  have hstep := (timelySample_step h.canon.cells (h.read (sampleTick s c)) c (sampleTick s c)).settled s
  obtain ⟨hst, hn, hhold, hmarks, hout, hnext, hflags⟩ := timelyCell_reads s (samplePlay s c (sampleTick s c))
    (sampleAdv s c (sampleTick s c)) (sampleGained s c (sampleTick s c)) (sampleValue s c (sampleTick s c))
    (sampleMarks s c (sampleTick s c)) (sampleLow s c) (cellAt s c)
  exact ⟨(hstep.field Cell.st fun _ => rfl).trans (hst.trans h.running), (hstep.field Cell.n fun _ => rfl).trans hn,
    (hstep.field Cell.hold fun _ => rfl).trans hhold, (hstep.field Cell.markers fun _ => rfl).trans hmarks,
    (hstep.field Cell.out fun _ => rfl).trans hout, (hstep.field Cell.next fun _ => rfl).trans hnext,
    (hstep.field Cell.flags fun _ => rfl).trans hflags, hstep.other, hstep.same⟩

theorem starvedSampleLeaves (h : WalkDue s c) (hp : PlaysPlain s c (sampleTick s c))
    (hm : (samplePlay s c (sampleTick s c)).missing = true) : Completes (.sampleEmission c late) s fun t =>
      (cellAt t c).st = .running ∧ (cellAt t c).n = (cellAt s c).n + 1 ∧
      (cellAt t c).underrunCount = min 0xFFFFFFFF ((cellAt s c).underrunCount + 1) ∧
      (cellAt t c).flags.getLsbD 6 = true ∧ (cellAt t c).inGap = true ∧ (cellAt t c).hold = (cellAt s c).hold ∧
      (cellAt t c).out = BitVec.ofNat 32 (sampleWord s (bridgeValue (cellAt s c)) 0 7 (cellAt s c)) ∧
      (∀ k, k ≠ c → cellAt t k = cellAt s k) ∧ SameBut playParts s t := by
  refine h.completes ?_
  rw [runSample_plain hp, if_pos hm]
  obtain ⟨a, n, hstarved⟩ := starvedSample_step h.canon.cells (h.read (sampleTick s c)) c (sampleTick s c)
  have hstep := hstarved.settled s
  obtain ⟨hst, hn, hcount, hflag, hgap, hhold, hout⟩ := starvedCell_reads s a n (cellAt s c)
  exact ⟨(hstep.field Cell.st fun _ => rfl).trans (hst.trans h.running), (hstep.field Cell.n fun _ => rfl).trans hn,
    (hstep.field Cell.underrunCount fun _ => rfl).trans hcount, (hstep.field (fun x => x.flags.getLsbD 6) fun _ => rfl).trans hflag,
    (hstep.field Cell.inGap fun _ => rfl).trans hgap, (hstep.field Cell.hold fun _ => rfl).trans hhold,
    (hstep.field Cell.out fun _ => rfl).trans hout, hstep.other, hstep.same⟩

theorem lateSampleLeaves (h : WalkDue s c) (hp : PlaysPlain s c (sampleTick s c))
    (hm : (samplePlay s c (sampleTick s c)).missing = false) : Completes (.sampleEmission c true) s fun t =>
      (cellAt t c).st = .running ∧ (cellAt t c).n = (cellAt s c).n + 1 ∧
      (cellAt t c).lateCount = min 0xFFFFFFFF ((cellAt s c).lateCount + 1) ∧
      (cellAt t c).flags.getLsbD 7 = true ∧ (cellAt t c).hold = (cellAt s c).hold ∧ (fltAt t .cel).status.getLsbD 0 = true ∧
      (hiveAt t (hiveOf c)).lateWin = true ∧
      (cellAt t c).out = BitVec.ofNat 32 (sampleWord s (bridgeValue (cellAt s c)) 0 (4 + (cellAt s c).bridge) (cellAt s c)) ∧
      (∀ k, k ≠ c → cellAt t k = cellAt s k) ∧ SameBut playParts s t := by
  refine h.completes ?_
  rw [runSample_plain hp, if_neg (by simp [hm]), if_pos (by simp)]
  obtain ⟨hlate, hstatus, hwin⟩ := lateSample_step h.canon.cells (h.read (sampleTick s c)) c (sampleTick s c)
  have hstep := hlate.settled s
  obtain ⟨hst, hn, hcount, hflag, hhold, hout⟩ :=
    lateCell_reads s (samplePlay s c (sampleTick s c)).aNext (sampleAdv s c (sampleTick s c)) (cellAt s c)
  refine ⟨(hstep.field Cell.st fun _ => rfl).trans (hst.trans h.running), (hstep.field Cell.n fun _ => rfl).trans hn,
    (hstep.field Cell.lateCount fun _ => rfl).trans hcount, (hstep.field (fun x => x.flags.getLsbD 7) fun _ => rfl).trans hflag,
    (hstep.field Cell.hold fun _ => rfl).trans hhold, ?_, ?_, (hstep.field Cell.out fun _ => rfl).trans hout, hstep.other, hstep.same⟩
  · rwa [fltAt_of_same (settle_same s _) (by decide)]
  · rwa [hiveAt_of_same (settle_same s _) (by decide)]

theorem ueSampleStops {r : Nat × Nat} (h : WalkDue s c) (hr : r ∈ (samplePlay s c (sampleTick s c)).spans)
    (hue : spanUe s r.1 r.2 = true) : Completes (.sampleEmission c late) s fun t =>
      (cellAt t c).st = .bound ∧ (cellAt t c).n = (cellAt s c).n + 1 ∧ (fltAt t .cmb).status.getLsbD 1 = true ∧
      (∀ k, k ≠ c → cellAt t k = cellAt s k) ∧ SameBut ueParts s t := by
  refine h.completes ?_
  obtain ⟨ca, hca⟩ := runSample_ue (late := late) hr hue
  rw [hca]
  obtain ⟨hue, hstatus⟩ := ueStop_step h.toLive c (sampleTick s c) ca
  have hstep := hue.settled s
  refine ⟨hstep.field Cell.st fun _ => rfl, hstep.field Cell.n fun _ => rfl, ?_, hstep.other, hstep.same⟩
  rwa [fltAt_of_same (settle_same s _) (by decide)]

theorem endSampleBinds {q : NextPos} (h : SampleDue s c) (hst : (cellAt s c).st = .running) (hn : (cellAt s c).next = some q)
    (hq : q.stop = 1) : Completes (.sampleEmission c late) s fun t =>
      (cellAt t c).st = .bound ∧ (cellAt t c).arm = none ∧ (cellAt t c).n = (cellAt s c).n + 1 ∧ (cellAt t c).flags.getLsbD 0 = true ∧
      (∀ k, k ≠ c → cellAt t k = cellAt s k) ∧ SameBut endParts s t := by
  refine h.completes (by simp [hst]) (by simp [hst]) ?_
  have htake := takeNext_step h.canon.cells hn hq
  rw [emitSample_bound (htake.field Cell.st fun _ => rfl)]
  have hstep := (htake.rest (by decide) (by decide) (sampleTick s c)).settled s
  have hflag (y : Cell) : (cellEndFlag y).flags.getLsbD 0 = true := by simp [cellEndFlag]
  exact ⟨hstep.field Cell.st fun _ => rfl, hstep.field Cell.arm fun _ => rfl,
    (hstep.field Cell.n fun _ => rfl).trans (congrArg (· + 1) (enterTarget_n s c _)),
    (hstep.field (fun x => x.flags.getLsbD 0) fun _ => rfl).trans (hflag _), hstep.other, hstep.same⟩

/-- Settles O38: each clause is a sample's path through `emitSample`, and the cell it leaves is read off the path's `CellStep`. -/
theorem sampleEmissions : Obligations.SampleEmissions := by
  unfold Obligations.SampleEmissions
  refine ⟨fun s c l hl hc hg => sampleSkipped hl hc hg, ?_, ?_, ?_, ?_, ?_, ?_, ?_⟩
  · rintro s c l _ _ hl hc rfl rfl hg hst hn hdue hfree
    exact restSample ⟨hl, hc, hg, hdue, hfree⟩ hst hn
  · rintro s c l _ _ hl hc rfl rfl hg hst hd hn hdue hfree
    exact deadSample ⟨hl, hc, hg, hdue, hfree⟩ hst hd hn
  · rintro s c _ _ _ _ _ _ hl hc rfl rfl hg hst hd hn hi hmode hdue hfree rfl hrate hpd hm hwords rfl rfl rfl
    obtain ⟨t, hexec, hst, hn, hhold, hmarks, hout, hnext, hrest⟩ :=
      timelySampleLeaves ⟨⟨hl, hc, hg, hdue, hfree⟩, hst, hd, hn⟩ ⟨hrate, hpd, hmode, hwords⟩ hi hm
    exact ⟨t, hexec, hst, hn, hhold, hmarks, hout, ⟨_, rfl, hnext⟩, hrest⟩
  · rintro s c l _ _ _ hl hc rfl rfl hg hst hd hn hmode hdue hfree rfl hrate hpd hm hwords
    exact starvedSampleLeaves ⟨⟨hl, hc, hg, hdue, hfree⟩, hst, hd, hn⟩ ⟨hrate, hpd, hmode, hwords⟩ hm
  · rintro s c _ _ _ hl hc rfl rfl hg hst hd hn hmode hdue hfree rfl hrate hpd hm hwords
    exact lateSampleLeaves ⟨⟨hl, hc, hg, hdue, hfree⟩, hst, hd, hn⟩ ⟨hrate, hpd, hmode, hwords⟩ hm
  · rintro s c l _ _ _ r hl hc rfl rfl hg hst hd hn hdue hfree rfl hr hue
    exact ueSampleStops ⟨⟨hl, hc, hg, hdue, hfree⟩, hst, hd, hn⟩ hr hue
  · rintro s c l _ _ q hl hc rfl rfl hg hst hn hq hdue hfree
    exact endSampleBinds ⟨hl, hc, hg, hdue, hfree⟩ hst hn hq

end Sys2Proof.Arch

/-! A trigger decided after its window has ended finds its channel BOUND and is missed, not ignored (R179, R180). -/

namespace Sys2Proof.Arch

open Sys2Proof Sys2Proof.Machine Sys2Proof.Safety Sys2Proof.Laws Sys2Proof.Scope

/-- A trigger with origin 100, whose decision tick is 132. -/
def windowEvent : Event := ⟨100, 0, true, 0, 0x4000, false⟩

/-- A capture channel that is BOUND: it was ARMED from sample 0 and in WINDOW from sample 90, and has drained from sample 110. -/
def drainedCap : Cap := { st := .bound, n := 132, states := [(110, .draining), (90, .window), (0, .armed)] }

/-- A live block in RUN whose domain 0 has an edge at every tick, at the tick at which the trigger is decided. -/
def drainedCapture : State :=
  { md := { mode := .run }, time := { tick := 132, horizon := 32 },
    domains := [(0, { on := true, locked := true, guardOpen := true, num := 1, den := 1, div := 1 })],
    caps := [(0, drainedCap)], tasks := [(0x2000, { held := [(132, ⟨windowEvent, [(0, 0)], 0x7F⟩)] })] }

theorem drainedCapture_live : Live drainedCapture where
  alive := rfl
  canon := by constructor <;> rfl

/-- The triggers that channel 0 has missed after a step. -/
def missedAfter : Host.Outcome State Fault Refusal → Nat
  | .next t => (capAt t 0).missed
  | _ => 0

/-- The state at the trigger's reference sample is WINDOW: the trigger is missed (R180). -/
theorem drainedCapture_misses : missedAfter (exec (.taskDecision 0x2000) drainedCapture) = 1 := by decide +kernel

/-- Refutes O37: its clause on triggers says that a channel which is BOUND at the decision only sets TRIG_IGNORED, and R180 decides
by the state at the reference sample, which can lie in a window that has ended since. -/
theorem not_taskDecisions : ¬ Obligations.TaskDecisions := by
  unfold Obligations.TaskDecisions
  rintro ⟨-, -, -, -, -, -, -, -, -, -, htrigger, -⟩
  obtain ⟨t, ht, hcap, -⟩ := htrigger drainedCapture 0 132 drainedCapture_live (by decide) (by decide +kernel) (by decide)
    (by decide +kernel) (by decide +kernel) (by decide +kernel) (by decide) rfl
  have hmiss : (capAt t 0).missed = 1 := by
    have h := drainedCapture_misses
    rwa [ht] at h
  rw [hcap] at hmiss
  exact absurd hmiss (by decide)

end Sys2Proof.Arch


/-! What a cell command finds at its cells, and cells changed one after another (R41, R44, R62, R87). -/

namespace Sys2Proof.Arch

open Sys2Proof Sys2Proof.Machine Sys2Proof.Safety Sys2Proof.Laws Sys2Proof.Scope

/-! ### The entries of a table -/

section

variable {α : Type} [DecidableEq α] {d : α} {t : Tab α} {lo i : Nat} {v : α}

theorem le_of_mem_twfFrom (h : twfFrom d lo t = true) (hm : (i, v) ∈ t) : lo ≤ i := by
  induction t generalizing lo with
  | nil => exact absurd hm (by simp)
  | cons p t ih =>
    obtain ⟨k, w⟩ := p
    simp only [twfFrom, Bool.and_eq_true, decide_eq_true_eq] at h
    obtain ⟨⟨hk, -⟩, ht⟩ := h
    rcases List.mem_cons.mp hm with he | hm
    · cases he
      exact hk
    · exact le_trans (by omega) (ih ht hm)

/-- An entry listed is the one that is read. -/
theorem tget_of_mem (h : twfFrom d lo t = true) (hm : (i, v) ∈ t) : tget d t i = v := by
  induction t generalizing lo with
  | nil => exact absurd hm (by simp)
  | cons p t ih =>
    obtain ⟨k, w⟩ := p
    simp only [twfFrom, Bool.and_eq_true] at h
    rcases List.mem_cons.mp hm with he | hm
    · cases he
      exact if_pos rfl
    · have hk := le_of_mem_twfFrom h.2 hm
      rw [tget, if_neg (by omega), ih h.2 hm]

theorem keys_nodup (h : twfFrom d lo t = true) : (t.map (·.1)).Nodup := by
  induction t generalizing lo with
  | nil => exact List.nodup_nil
  | cons p t ih =>
    obtain ⟨k, w⟩ := p
    simp only [twfFrom, Bool.and_eq_true] at h
    refine List.nodup_cons.mpr ⟨fun hk => ?_, ih h.2⟩
    obtain ⟨q, hq, rfl⟩ := List.mem_map.mp hk
    exact absurd (le_of_mem_twfFrom h.2 hq) (by simp)

/-- What is not listed reads as the power-on record. -/
theorem tget_of_not_mem (h : i ∉ t.map (·.1)) : tget d t i = d := by
  by_contra he
  exact h (List.mem_map_of_mem (mem_of_tget_ne he))

end

variable {s t u : State} {x : Held} {c j k : Nat} {l : List Part} {X : Cell} {w : Sel}

/-! ### Whether a cell may act (R18, R216) -/

/-- The mode that a replay replays, with its calibration run. -/
def simModes (s : State) : Mode × Mode × List Nat := (s.rpl.simMode, s.rpl.simOrigin, s.rpl.simCal)

theorem wagActs_of_modes (hm : ∃ n, t.md = { s.md with epoch := n }) (hr : simModes t = simModes s) : wagActs t c = wagActs s c := by
  obtain ⟨n, hm⟩ := hm
  simp only [simModes, Prod.mk.injEq] at hr
  obtain ⟨hmode, horigin, hcal⟩ := hr
  have hunit : unitMode t = unitMode s := by rw [unitMode, unitMode, hm, hmode]
  have hset : unitCal t = unitCal s := by rw [unitCal, unitCal, hm, horigin, hcal]
  rw [wagActs, wagActs, hunit, hset]

theorem wagActs_of_same (h : SameBut l s t) (hm : Part.md ∉ l) (hr : Part.rpl ∉ l) : wagActs t c = wagActs s c := by
  have hrpl : t.rpl = s.rpl := h.same .rpl hr
  exact wagActs_of_modes (h.md_eq hm) (by rw [simModes, simModes, hrpl])

theorem replayMismatch_simModes (c : Nat) (g : SigAcc) (pieces other : List Nat) (s : State) :
    simModes (replayMismatch c g pieces other s) = simModes s := by
  unfold replayMismatch simModes
  dsimp only
  split <;> rfl

/-- A signature block that closes leaves the mode that is replayed. -/
theorem sigClose_simModes (c : Nat) (s : State) : simModes (sigClose c s) = simModes s := by
  unfold sigClose
  extract_lets x g pieces crc s1
  split
  · rfl
  · split
    · split
      · rfl
      · extract_lets s2
        split
        · split
          · rfl
          · exact replayMismatch_simModes c g pieces _ s2
        · rfl
    · simp [simModes, s1]

theorem wagActs_sigClose (c k : Nat) (s : State) : wagActs (sigClose c s) k = wagActs s k :=
  wagActs_of_modes ((sigClose_same c s).md_eq (by decide)) (sigClose_simModes c s)

theorem wagActs_toBound (c k : Nat) (st : CellSt) (s : State) : wagActs (toBound c st s) k = wagActs s k := by
  unfold toBound
  dsimp only
  rw [wagActs_of_same (releaseTable_same ..) (by decide) (by decide), wagActs_of_same (modCell_same ..) (by decide) (by decide),
    wagActs_of_same (releaseArm_cell_same ..) (by decide) (by decide), wagActs_sigClose,
    wagActs_of_same (endLate_same ..) (by decide) (by decide), wagActs_of_same (endGap_same ..) (by decide) (by decide)]

theorem wagActs_takeNext (c k : Nat) (s : State) : wagActs (takeNext c s) k = wagActs s k := by
  have hset (y : Tab Cell) (f : Cell → Cell) : wagActs (modCell { s with cells := y } c f) k = wagActs s k := by
    rw [wagActs_of_same (modCell_same ..) (by decide) (by decide), wagActs_of_same (set_cells_same s y) (by decide) (by decide)]
  unfold takeNext
  dsimp only
  split
  · rfl
  · split
    · rw [wagActs_toBound, hset]
    · split
      · rw [wagActs_of_same (raise_same ..) (by decide) (by decide), wagActs_toBound, hset]
      · exact wagActs_of_same (set_cells_same s _) (by decide) (by decide)

/-! ### A cell reached (R41, R44) -/

/-- What a command does to one cell that it reaches. -/
def skipCell (x : Held) (c : Nat) (s : State) : State :=
  if actsOnCell s c x.cmd then
    noteActed c x.dec { takeNext c s with cells := tmod {} (takeNext c s).cells c (skipTo (takeNext c s) x.dec) }
  else s

theorem skipCells_eq (x : Held) (s : State) : skipCells x s = s.cells.foldl (fun u p => skipCell x p.1 u) s := rfl

/-- A cell with flags set. -/
def cellFlagged (f : Word) (x : Cell) : Cell := { x with flags := x.flags ||| f }

/-- Parts that a cell which goes where its last sample left it can change. -/
def moveParts : List Part := .faults :: endParts

/-- A cell goes where its last sample left it, whether its walk goes on or ends; nothing of a next place stands then. -/
theorem takeNext_moves (hw : twf {} s.cells = true) (c : Nat) :
    ∃ X, CellStep c moveParts X s (takeNext c s) ∧ X.next = none ∧ X.group = (cellAt s c).group := by
  have henter (y : Cell) : (enterTarget s c y).next = y.next ∧ (enterTarget s c y).group = y.group := by
    unfold enterTarget enterStep
    dsimp only
    (repeat' split) <;> exact ⟨rfl, rfl⟩
  unfold takeNext
  extract_lets x
  split
  next hn => exact ⟨cellAt s c, .refl hw, hn, rfl⟩
  next q _ =>
    extract_lets x1 s1
    have h1 : CellStep c moveParts (enterTarget s c x1) s s1 := .write hw (by decide) rfl
    have hend (f : Word) : CellStep c moveParts (cellBound (cellFlagged f (enterTarget s c x1))) s
        (toBound c .bound (modCell s1 c (cellFlagged f))) := by
      have hflag := h1.trans (modCell_step (l := moveParts) h1.canon (by decide) (cellFlagged f)) fun _ => rfl
      exact hflag.trans ((toBound_step hflag.canon c).mono (by decide)) fun _ => rfl
    split
    · exact ⟨_, hend 1, rfl, (henter x1).2⟩
    · split
      · exact ⟨_, (hend 0x20).keep (raise_same ..) (by decide) (by decide), rfl, (henter x1).2⟩
      · exact ⟨_, h1, (henter x1).1, (henter x1).2⟩

/-- What reaching its cells keeps: the groups, a cell without a next place, and which cells may act. -/
structure Reaches (s t : State) : Prop where
  canon : twf {} t.cells = true
  group : ∀ c, (cellAt t c).group = (cellAt s c).group
  rest : ∀ c, (cellAt s c).next = none → (cellAt t c).next = none
  acts : ∀ c, wagActs t c = wagActs s c

theorem Reaches.refl (hw : twf {} s.cells = true) : Reaches s s := ⟨hw, fun _ => rfl, fun _ h => h, fun _ => rfl⟩

theorem Reaches.trans (h : Reaches s t) (h' : Reaches t u) : Reaches s u :=
  ⟨h'.canon, fun c => (h'.group c).trans (h.group c), fun c hc => h'.rest c (h.rest c hc), fun c => (h'.acts c).trans (h.acts c)⟩

/-- The cell skips to the decision, and the decision is noted. -/
theorem skipCell_moves (hw : twf {} s.cells = true) (x : Held) (hc : actsOnCell s c x.cmd = true) :
    Reaches s (skipCell x c s) ∧ (cellAt (skipCell x c s) c).next = none := by
  obtain ⟨X, hmove, hnext, hgroup⟩ := takeNext_moves hw c
  have hskip (y : Cell) : (skipTo (takeNext c s) x.dec y).next = y.next ∧ (skipTo (takeNext c s) x.dec y).group = y.group := by
    unfold skipTo
    split <;> exact ⟨rfl, rfl⟩
  rw [skipCell, if_pos hc]
  generalize hv : ({ takeNext c s with cells := _ } : State) = v
  have hvw : twf {} v.cells = true := hv ▸ twf_tmod hmove.canon c _
  have hvc : cellAt v c = skipTo (takeNext c s) x.dec (cellAt (takeNext c s) c) := hv ▸ tget_tmod_same hmove.canon c _
  have hvo (k : Nat) (hk : k ≠ c) : cellAt v k = cellAt (takeNext c s) k := hv ▸ tget_tmod_other _ _ hk _
  have hvs : SameBut [.cells] (takeNext c s) v := hv ▸ set_cells_same _ _
  have hnote : CellStep c [.cells] { cellAt v c with acted := (cellAt (noteActed c x.dec v) c).acted } v (noteActed c x.dec v) := by
    unfold noteActed
    split
    · exact .refl hvw
    · refine .write hvw (by decide) ?_
      rw [tmod, cellAt, cellAt, tget_tset_same hvw]
  have hat : (cellAt (noteActed c x.dec v) c).next = none ∧ (cellAt (noteActed c x.dec v) c).group = (cellAt s c).group := by
    rw [hnote.field Cell.next fun _ => rfl, hnote.field Cell.group fun _ => rfl]
    dsimp only
    rw [hvc, (hskip _).1, (hskip _).2, hmove.field Cell.next fun _ => rfl, hmove.field Cell.group fun _ => rfl]
    exact ⟨hnext, hgroup⟩
  have hothers (k : Nat) (hk : k ≠ c) : cellAt (noteActed c x.dec v) k = cellAt s k := by
    rw [hnote.other k hk, hvo k hk, hmove.other k hk]
  refine ⟨⟨hnote.canon, fun k => ?_, fun k hk => ?_, fun k => ?_⟩, hat.1⟩
  · by_cases hkc : k = c
    · rw [hkc, hat.2]
    · rw [hothers k hkc]
  · by_cases hkc : k = c
    · rw [hkc, hat.1]
    · rw [hothers k hkc, hk]
  · rw [wagActs_of_same hnote.same (by decide) (by decide), wagActs_of_same hvs (by decide) (by decide), wagActs_takeNext]

theorem skipCell_reaches (hw : twf {} s.cells = true) (x : Held) (c : Nat) : Reaches s (skipCell x c s) := by
  by_cases hc : actsOnCell s c x.cmd = true
  · exact (skipCell_moves hw x hc).1
  · rw [skipCell, if_neg hc]
    exact .refl hw

theorem foldl_reaches (hw : twf {} s.cells = true) (ps : Tab Cell) : Reaches s (ps.foldl (fun u p => skipCell x p.1 u) s) :=
  foldl_keeps (P := Reaches s) (fun _ p h => h.trans (skipCell_reaches h.canon x p.1)) ps (.refl hw)

/-- A cell that is reached has no next place left. -/
theorem foldl_reaches_next (ps : Tab Cell) (hw : twf {} s.cells = true) (hc : c ∈ ps.map (·.1))
    (hacts : ∀ v, (cellAt v c).group = (cellAt s c).group → actsOnCell v c x.cmd = true) :
    (cellAt (ps.foldl (fun u p => skipCell x p.1 u) s) c).next = none := by
  induction ps generalizing s with
  | nil => exact absurd hc (by simp)
  | cons p ps ih =>
    have hp := skipCell_reaches hw x p.1
    rcases List.mem_cons.mp hc with rfl | hc
    · exact (foldl_reaches hp.canon ps).rest _ (skipCell_moves hw x (hacts s rfl)).2
    · exact ih hp.canon hc fun v hv => hacts v (hv.trans (hp.group c))

theorem reached_reaches (hl : Live s) (x : Held) : Reaches (released s x) (reached s x) :=
  foldl_reaches (s := released s x) hl.canon.cells s.cells

theorem wagActs_reached (hl : Live s) (x : Held) (c : Nat) : wagActs (reached s x) c = wagActs s c :=
  (reached_reaches hl x).acts c

theorem domAt_reached (s : State) (x : Held) (d : Nat) : domAt (reached s x) d = domAt s d :=
  domAt_of_same (reached_same s x) (by decide) d

/-! ### The cells that a command names -/

/-- A command names a cell by itself or by its group. -/
def namesCells (x : Held) (w : Sel) : Prop := ∀ v c, actsOnCell v c x.cmd = actsOnCell.cellOf v c w

theorem cellOf_of_mem (hw : twf {} s.cells = true) (hc : c ∈ selCells s w) : actsOnCell.cellOf s c w = true := by
  unfold selCells at hc
  unfold actsOnCell.cellOf
  split at hc
  next hk => simp_all
  next hk =>
    obtain ⟨⟨i, y⟩, hp, rfl⟩ := List.mem_map.mp hc
    obtain ⟨hm, hg⟩ := List.mem_filter.mp hp
    have hy : cellAt s i = y := tget_of_mem hw hm
    rw [if_neg hk, hy, decide_eq_true_eq]
    exact (of_decide_eq_true hg).symm

/-- Every cell that a decided command names has been taken to where its last sample left it. -/
theorem reached_next (hl : Live s) (hx : namesCells x w) (hc : c ∈ selCells (reached s x) w) :
    (cellAt (reached s x) c).next = none := by
  have hr := reached_reaches hl x
  have hof := cellOf_of_mem hr.canon hc
  by_cases hm : c ∈ s.cells.map (·.1)
  · refine foldl_reaches_next s.cells hl.canon.cells hm fun v hv => ?_
    rw [hx]
    unfold actsOnCell.cellOf at hof ⊢
    rwa [hv, ← hr.group c]
  · refine hr.rest c ?_
    have hoff : cellAt (released s x) c = {} := tget_of_not_mem hm
    rw [hoff]

theorem selCells_nodup (hw : twf {} s.cells = true) (w : Sel) : (selCells s w).Nodup := by
  unfold selCells
  split
  · exact List.nodup_singleton _
  · exact (keys_nodup hw).sublist (List.filter_sublist.map _)

/-! ### Cells changed one after another -/

/-- From `s` to `t` cell `c` comes to satisfy `Q`, no other cell changes, and nothing but the parts named. -/
structure CellTurn (c : Nat) (l : List Part) (Q : Cell → Prop) (s t : State) : Prop where
  canon : twf {} t.cells = true
  here : Q (cellAt t c)
  other : ∀ k, k ≠ c → cellAt t k = cellAt s k
  same : SameBut l s t

theorem CellStep.turn {Q : Cell → Prop} (h : CellStep c l X s t) (hq : Q (cellAt t c)) : CellTurn c l Q s t :=
  ⟨h.canon, hq, h.other, h.same⟩

theorem CellTurn.settled {Q : Cell → Prop} (h : CellTurn c l Q s t) (s0 : State) : CellTurn c l Q s (settle s0 t) := by
  have hcells (k : Nat) : cellAt (settle s0 t) k = cellAt t k := cellAt_of_same (settle_same s0 t) (by decide) k
  exact ⟨by simpa using h.canon, by rw [hcells]; exact h.here, fun k hk => (hcells k).trans (h.other k hk), h.same.settled s0⟩

/-- Cells that take their turns, none twice: each comes to satisfy what its own turn makes of it, found as it was. -/
theorem foldl_turns {f : Nat → State → State} {Q : Nat → Cell → Prop} {cs : List Nat} (hcs : cs.Nodup) (hw : twf {} s.cells = true)
    (hf : ∀ c ∈ cs, ∀ u, twf {} u.cells = true → SameBut l s u → cellAt u c = cellAt s c → CellTurn c l (Q c) u (f c u)) :
    (∀ c ∈ cs, Q c (cellAt (cs.foldl (fun u c => f c u) s) c)) ∧ (∀ c, c ∉ cs → cellAt (cs.foldl (fun u c => f c u) s) c = cellAt s c) ∧
      SameBut l s (cs.foldl (fun u c => f c u) s) := by
  induction cs generalizing s with
  | nil => exact ⟨by simp, fun _ _ => rfl, .refl l s⟩
  | cons c cs ih =>
    obtain ⟨hc, hcs⟩ := List.nodup_cons.mp hcs
    have hturn := hf c (by simp) s hw (.refl l s) rfl
    have hne {k : Nat} (hk : k ∈ cs) : k ≠ c := fun he => hc (he ▸ hk)
    obtain ⟨hin, hout, hsame⟩ := ih hcs hturn.canon fun k hk u hu hs he =>
      hf k (List.mem_cons_of_mem c hk) u hu (hturn.same.trans hs) (he.trans (hturn.other k (hne hk)))
    rw [List.foldl_cons]
    refine ⟨fun k hk => ?_, fun k hk => ?_, hturn.same.trans hsame⟩
    · rcases List.mem_cons.mp hk with rfl | hk
      · rw [hout k hc]
        exact hturn.here
      · exact hin k hk
    · obtain ⟨hkc, hk⟩ := not_or.mp fun h => hk (List.mem_cons.mpr h)
      exact (hout k hk).trans (hturn.other k hkc)

/-! ### Cell commands -/

/-- The parts that a decided cell command can change. -/
def cellCmdParts : List Part := [.active, .cells, .faults, .hives, .inner, .jnl, .queues, .rpl]

theorem reached_cells_same (s : State) (x : Held) : SameBut cellCmdParts (released s x) (reached s x) :=
  (skipCells_same x _).mono (by decide)

/-- A decided command whose effect on the cells that it reaches is known. -/
theorem completes_cells {i : Instr} {Q : Nat → Cell → Prop} {cs : List Nat} (hd : Decides s x i) (hn : ∀ g k, i ≠ .capTrigger g k)
    (he : decideCmd x (reached s x) = t) (hl : ∀ p ∈ l, p ∈ cellCmdParts)
    (ht : (∀ c ∈ cs, Q c (cellAt t c)) ∧ (∀ c, c ∉ cs → cellAt t c = cellAt (reached s x) c) ∧ SameBut l (reached s x) t) :
    Completes .commandDecision s fun t => (∀ c ∈ cs, Q c (cellAt t c)) ∧
      (∀ c, c ∉ cs → cellAt t c = cellAt (reached s x) c) ∧ SameBut cellCmdParts (released s x) t := by
  obtain ⟨hin, hout, hsame⟩ := ht
  refine completes_of_decides hd hn ?_
  rw [he]
  have hcells (k : Nat) : cellAt (settle s t) k = cellAt t k := cellAt_of_same (settle_same s t) (by decide) k
  exact ⟨fun c hc => by rw [hcells]; exact hin c hc, fun c hc => (hcells c).trans (hout c hc),
    ((reached_cells_same s x).trans (hsame.mono hl)).settled s⟩

/-- A decided command on the cells that it names: each comes to satisfy what its turn makes of it. -/
theorem completes_named {i : Instr} {f : Nat → State → State} {Q : Nat → Cell → Prop} (hd : Decides s x i)
    (hn : ∀ g k, i ≠ .capTrigger g k) (he : decideCmd x (reached s x) = forSel w f (reached s x)) (hl : ∀ p ∈ l, p ∈ cellCmdParts)
    (hf : ∀ c ∈ selCells (reached s x) w, ∀ u, twf {} u.cells = true → SameBut l (reached s x) u →
      cellAt u c = cellAt (reached s x) c → CellTurn c l (Q c) u (f c u)) :
    Completes .commandDecision s fun t => (∀ c ∈ selCells (reached s x) w, Q c (cellAt t c)) ∧
      (∀ c, c ∉ selCells (reached s x) w → cellAt t c = cellAt (reached s x) c) ∧ SameBut cellCmdParts (released s x) t := by
  have hw := (reached_reaches hd.toLive x).canon
  exact completes_cells hd hn he hl (foldl_turns (selCells_nodup hw w) hw hf)

/-- A decided command on one cell. -/
theorem completes_cell {i : Instr} {Q : Cell → Prop} (hd : Decides s x i) (hn : ∀ g k, i ≠ .capTrigger g k)
    (hl : ∀ p ∈ l, p ∈ cellCmdParts) (hf : CellTurn c l Q (reached s x) (decideCmd x (reached s x))) :
    Completes .commandDecision s fun t => Q (cellAt t c) ∧ (∀ k, k ≠ c → cellAt t k = cellAt (reached s x) k) ∧
      SameBut cellCmdParts (released s x) t := by
  have h := hf.settled s
  exact completes_of_decides hd hn ⟨h.here, h.other, (reached_cells_same s x).trans (h.same.mono hl)⟩

end Sys2Proof.Arch


/-! O8: the transitions that cell commands make (R58, R60, R82, R83). -/

namespace Sys2Proof.Arch

open Sys2Proof Sys2Proof.Machine Sys2Proof.Safety Sys2Proof.Laws Sys2Proof.Scope

variable {s u : State} {x : Held} {h : Hdr} {c : Nat} {l : List Part} {w : Sel}

/-! ### Operations on one cell -/

theorem putCell_step (hw : twf {} s.cells = true) (hl : Part.cells ∈ l) (c : Nat) (y : Cell) : CellStep c l y s (putCell s c y) :=
  modCell_step hw hl fun _ => y

theorem setFlags_step (hw : twf {} s.cells = true) (hl : Part.cells ∈ l) (f : Word) (c : Nat) :
    CellStep c l (cellFlagged f (cellAt s c)) s (setFlags f c s) := modCell_step hw hl (cellFlagged f)

/-- A command that a cell's state gives no effect. -/
theorem ignored_step (hw : twf {} s.cells = true) (hl : Part.cells ∈ l) (c : Nat) :
    CellStep c l (cellFlagged 0x400 (cellAt s c)) s (ignored c s) := setFlags_step hw hl 0x400 c

theorem noteTaint_false (c : Nat) (s : State) : noteTaint c false s = s := by simp [noteTaint]

theorem enterStep_fields (s : State) (c i : Nat) (back : Bool) (x : Cell) : (enterStep s c i back x).st = x.st ∧
    (enterStep s c i back x).step = i ∧ (enterStep s c i back x).pos = 0 ∧ (enterStep s c i back x).n = x.n ∧
    (enterStep s c i back x).mRef = x.mRef := by
  unfold enterStep
  dsimp only
  split <;> exact ⟨rfl, rfl, rfl, rfl, rfl⟩

/-! ### CELL_START (R60, R84) -/

/-- What a start at tick `dec` makes of a cell `x` whose domain is `d`: it starts, or START_IGNORED is set. -/
structure StartOutcome (d : Domain) (acts : Bool) (dec : Nat) (x y : Cell) : Prop where
  starts : ∀ a, x.arm = some a → x.st = .armed → d.guardOpen = true → acts = true →
    y.st = .running ∧ y.step = a.firstStep ∧ y.pos = 0 ∧ y.n = 0 ∧ y.mRef = edgeAt d dec
  ignores : x.st ≠ .armed ∨ d.guardOpen = false ∨ acts = false → y.st = x.st ∧ y.flags = x.flags ||| 0x10

theorem startCell_turn (hw : twf {} s.cells = true) (hn : (cellAt s c).next = none) (dec : Nat) :
    CellTurn c [.cells] (StartOutcome (domAt s (cellAt s c).domain) (wagActs s c) dec (cellAt s c)) s (startCell c dec 0 false s) := by
  have hignored := setFlags_step (l := [.cells]) hw (by decide) 0x10 c
  unfold startCell
  dsimp only
  rw [takeNext_none hn, noteTaint_false]
  split
  next a ha =>
    split
    next hgo =>
      have hput := putCell_step (l := [.cells]) hw (by decide) c (enterStep s c a.firstStep false
        { cellAt s c with
          st := .running, mRef := edgeAt (domAt s (cellAt s c).domain) dec, nRef := 0, n := 0, ddsA := 0, loops := [], hist := [],
          dead := 0, gen := 0, tainted := false, sig := {},
          shift := slotShift s (cellAt s c).target (cellAt s c).domain (edgeAt (domAt s (cellAt s c).domain) dec), entering := false,
          haltAt := if (cellAt s c).haltAt = some (skipTo s dec (cellAt s c)).n then some 0 else none })
      refine hput.turn ⟨fun b hb _ _ _ => ?_, fun hno => ?_⟩
      · cases ha.symm.trans hb
        obtain ⟨hst, hstep, hpos, hcount, href⟩ := enterStep_fields s c a.firstStep false _
        exact ⟨(hput.field Cell.st fun _ => rfl).trans hst, (hput.field Cell.step fun _ => rfl).trans hstep,
          (hput.field Cell.pos fun _ => rfl).trans hpos, (hput.field Cell.n fun _ => rfl).trans hcount,
          (hput.field Cell.mRef fun _ => rfl).trans href⟩
      · simp [hgo] at hno
    next hno =>
      exact hignored.turn ⟨fun _ _ hst hopen hacts => absurd ⟨hst, hopen, hacts⟩ hno,
        fun _ => ⟨hignored.field Cell.st fun _ => rfl, hignored.field Cell.flags fun _ => rfl⟩⟩
  next ha =>
    exact hignored.turn ⟨fun b hb => absurd (ha.symm.trans hb) (by simp),
      fun _ => ⟨hignored.field Cell.st fun _ => rfl, hignored.field Cell.flags fun _ => rfl⟩⟩

/-! ### CELL_STOP (R60, R83) -/

/-- What a stop makes of a cell. -/
structure StopOutcome (x y : Cell) : Prop where
  stops : x.st = .armed ∨ x.st = .running ∨ x.st = .paused → y.st = .bound ∧ y.arm = none
  ignores : x.st ≠ .armed → x.st ≠ .running → x.st ≠ .paused → y.st = x.st ∧ y.flags = x.flags ||| 0x400

/-- A cell that a stop of generation 0 reaches. -/
def cellHalted (x : Cell) : Cell := { x with gen := 0, tainted := false, haltAt := some x.n }

theorem stopCell_turn (hw : twf {} s.cells = true) (hn : (cellAt s c).next = none) :
    CellTurn c cellParts (StopOutcome (cellAt s c)) s (stopCell c 0 false s) := by
  have hignored := ignored_step (l := cellParts) hw (by decide) c
  have hmark := modCell_step (l := cellParts) (c := c) hw (by decide) cellHalted
  have hbound := hmark.trans (toBound_step hmark.canon c) fun _ => rfl
  unfold stopCell
  dsimp only
  rw [takeNext_none hn, noteTaint_false]
  split
  next hplays =>
    exact hbound.turn ⟨fun _ => ⟨hbound.field Cell.st fun _ => rfl, hbound.field Cell.arm fun _ => rfl⟩,
      fun h1 h2 h3 => absurd hplays (by simp [h1, h2, h3])⟩
  next hrests =>
    exact hignored.turn ⟨fun hplays => absurd hplays hrests,
      fun _ _ _ => ⟨hignored.field Cell.st fun _ => rfl, hignored.field Cell.flags fun _ => rfl⟩⟩

/-! ### CELL_PAUSE and CELL_RESUME (R60, R83) -/

/-- What a pause makes of a cell. -/
structure PauseOutcome (x y : Cell) : Prop where
  pauses : x.st = .running → x.entering = false ∨ x.pos = 0 → y.st = .paused ∧ y.step = x.step ∧ y.pos = x.pos
  ignores : x.st ≠ .running → y.st = x.st ∧ y.flags = x.flags ||| 0x400

/-- A cell that a pause of generation 0 reaches: a jump's target is entered at once. -/
def cellPaused (s : State) (c : Nat) (x : Cell) : Cell :=
  { enterTarget s c { x with dead := 0 } with st := .paused, hist := [], gen := 0, tainted := false, haltAt := some x.n }

theorem enterStep_core (s : State) (c i : Nat) (back : Bool) (x : Cell) :
    cellCore (enterStep s c i back x) = enterStep s c i back (cellCore x) := by
  have hstep : stepAt s c (cellCore x) i = stepAt s c x i := rfl
  unfold enterStep
  dsimp only
  rw [hstep]
  split <;> rfl

theorem enterTarget_core (s : State) (c : Nat) (x : Cell) : cellCore (enterTarget s c x) = enterTarget s c (cellCore x) := by
  have henter := enterStep_core s c x.step false x
  unfold enterTarget
  by_cases hx : x.entering = true ∧ x.dead = 0
  · rw [if_pos hx, if_pos (show (cellCore x).entering = true ∧ (cellCore x).dead = 0 from hx)]
    exact congrArg (fun y : Cell => { y with entering := false }) henter
  · rw [if_neg hx, if_neg (show ¬((cellCore x).entering = true ∧ (cellCore x).dead = 0) from hx)]

theorem cellPaused_plain (s : State) (c : Nat) : Plain (cellPaused s c) := by
  intro x
  have hcore : cellCore (enterTarget s c { x with dead := 0 }) = cellCore (enterTarget s c { cellCore x with dead := 0 }) := by
    rw [enterTarget_core, enterTarget_core]
    rfl
  exact congrArg (fun y : Cell => { y with st := .paused, hist := [], gen := 0, tainted := false, haltAt := some x.n }) hcore

theorem cellPaused_place {x : Cell} (hx : x.entering = false ∨ x.pos = 0) :
    (cellPaused s c x).step = x.step ∧ (cellPaused s c x).pos = x.pos := by
  unfold cellPaused enterTarget
  dsimp only
  split
  next hin =>
    obtain ⟨-, hstep, hpos, -, -⟩ := enterStep_fields s c x.step false { x with dead := 0 }
    exact ⟨hstep, hpos.trans (hx.resolve_left (by simp [hin.1])).symm⟩
  · exact ⟨rfl, rfl⟩

theorem pauseCell_turn (hw : twf {} s.cells = true) (hn : (cellAt s c).next = none) :
    CellTurn c [.cells, .jnl] (PauseOutcome (cellAt s c)) s (pauseCell c 0 false s) := by
  have hignored := ignored_step (l := [.cells, .jnl]) hw (by decide) c
  have hgap := endGap_step hw c
  have hlate := hgap.note (endLate_step hgap.canon c)
  have hpause := hlate.trans (modCell_step hlate.canon (by decide) (cellPaused s c)) (cellPaused_plain s c)
  unfold pauseCell
  dsimp only
  rw [takeNext_none hn, noteTaint_false]
  split
  next hrun =>
    refine hpause.turn ⟨fun _ hx => ⟨hpause.field Cell.st fun _ => rfl, ?_, ?_⟩, fun hne => absurd hrun hne⟩
    · exact (hpause.field Cell.step fun _ => rfl).trans (cellPaused_place hx).1
    · exact (hpause.field Cell.pos fun _ => rfl).trans (cellPaused_place hx).2
  next hne =>
    exact hignored.turn ⟨fun hrun => absurd hrun hne,
      fun _ => ⟨hignored.field Cell.st fun _ => rfl, hignored.field Cell.flags fun _ => rfl⟩⟩

/-- What a resume makes of a cell. -/
structure ResumeOutcome (x y : Cell) : Prop where
  resumes : x.st = .paused → y.st = .running ∧ y.step = x.step ∧ y.pos = x.pos
  ignores : x.st ≠ .paused → y.st = x.st ∧ y.flags = x.flags ||| 0x400

/-- A cell that goes on after a pause. -/
def cellResumed (x : Cell) : Cell := { x with st := .running, hist := [], gen := 0, tainted := false }

theorem resumeCell_turn (hw : twf {} s.cells = true) : CellTurn c [.cells] (ResumeOutcome (cellAt s c)) s (resumeCell c s) := by
  have hignored := ignored_step (l := [.cells]) hw (by decide) c
  have hresume := modCell_step (l := [.cells]) (c := c) hw (by decide) cellResumed
  unfold resumeCell
  split
  next hpaused =>
    exact hresume.turn ⟨fun _ => ⟨hresume.field Cell.st fun _ => rfl, hresume.field Cell.step fun _ => rfl,
      hresume.field Cell.pos fun _ => rfl⟩, fun hne => absurd hpaused hne⟩
  next hne =>
    exact hignored.turn ⟨fun hpaused => absurd hpaused hne,
      fun _ => ⟨hignored.field Cell.st fun _ => rfl, hignored.field Cell.flags fun _ => rfl⟩⟩

/-! ### CELL_RATE_SET and CELL_ARM (R65, R82) -/

/-- What a rate change of tick `dec` makes of a running cell. -/
structure RateOutcome (d : Domain) (ratio dec : Nat) (x y : Cell) : Prop where
  ratio : y.ratio = ratio
  runs : y.st = .running
  count : y.nRef = x.n
  edge : y.mRef = edgeAt d dec

theorem rateCell_turn (hw : twf {} s.cells = true) (hst : (cellAt s c).st = .running) (ratio dec : Nat) :
    CellTurn c [.cells] (RateOutcome (domAt s (cellAt s c).domain) ratio dec (cellAt s c)) s (rateCell c ratio dec s) := by
  unfold rateCell
  dsimp only
  rw [if_pos hst]
  generalize hy : ({ cellAt s c with mRef := _, nRef := _, ratio := _, shift := _ } : Cell) = y
  have hput := putCell_step (l := [.cells]) hw (by decide) c y
  subst hy
  exact hput.turn ⟨hput.field Cell.ratio fun _ => rfl, (hput.field Cell.st fun _ => rfl).trans hst, hput.field Cell.nRef fun _ => rfl,
    hput.field Cell.mRef fun _ => rfl⟩

theorem decCellArm_turn {serial k : Nat} {i : ArmInfo} (hw : twf {} s.cells = true) (hst : (cellAt s c).st = .bound)
    (hi : (cellAt s c).arms.find? (fun p => p.1 = serial) = some (k, i)) :
    CellTurn c [.cells] (fun y => y.st = .armed ∧ y.arm = some i) s (decCellArm c serial s) := by
  unfold decCellArm
  dsimp only
  rw [hi]
  dsimp only
  rw [if_pos hst]
  generalize hy : ({ cellAt s c with st := _, arm := _, arms := _ } : Cell) = y
  have hput := putCell_step (l := [.cells]) hw (by decide) c y
  subst hy
  exact hput.turn ⟨hput.field Cell.st fun _ => rfl, hput.field Cell.arm fun _ => rfl⟩

/-! ### The decisions -/

theorem cellStart_completes (hd : Decides s x (.cellStart h w)) : Completes .commandDecision s fun t =>
    (∀ c ∈ selCells (reached s x) w, StartOutcome (domAt s (cellAt (reached s x) c).domain) (wagActs s c) x.dec (cellAt (reached s x) c)
      (cellAt t c)) ∧
    (∀ c, c ∉ selCells (reached s x) w → cellAt t c = cellAt (reached s x) c) ∧ SameBut cellCmdParts (released s x) t := by
  refine completes_named (l := [.cells]) (f := fun c => startCell c x.dec 0 false) hd (by simp)
    (by rw [decideCmd, hd.cmd]) (by decide) fun c hc u hu hs he => ?_
  have hnext := reached_next hd.toLive (fun _ _ => by rw [hd.cmd]; rfl) hc
  have hturn := startCell_turn hu (he ▸ hnext) x.dec
  rwa [he, domAt_of_same hs (by decide), domAt_reached, wagActs_of_same hs (by decide) (by decide), wagActs_reached hd.toLive] at hturn

theorem cellStop_completes (hd : Decides s x (.cellStop h w)) : Completes .commandDecision s fun t =>
    (∀ c ∈ selCells (reached s x) w, StopOutcome (cellAt (reached s x) c) (cellAt t c)) ∧
    (∀ c, c ∉ selCells (reached s x) w → cellAt t c = cellAt (reached s x) c) ∧ SameBut cellCmdParts (released s x) t := by
  refine completes_named (l := cellParts) (f := fun c => stopCell c 0 false) hd (by simp) (by rw [decideCmd, hd.cmd]) (by decide)
    fun c hc u hu _ he => ?_
  have hnext := reached_next hd.toLive (fun _ _ => by rw [hd.cmd]; rfl) hc
  exact he ▸ stopCell_turn hu (he ▸ hnext)

theorem cellPause_completes (hd : Decides s x (.cellPause h w)) : Completes .commandDecision s fun t =>
    (∀ c ∈ selCells (reached s x) w, PauseOutcome (cellAt (reached s x) c) (cellAt t c)) ∧
    (∀ c, c ∉ selCells (reached s x) w → cellAt t c = cellAt (reached s x) c) ∧ SameBut cellCmdParts (released s x) t := by
  refine completes_named (l := [.cells, .jnl]) (f := fun c => pauseCell c 0 false) hd (by simp) (by rw [decideCmd, hd.cmd]) (by decide)
    fun c hc u hu _ he => ?_
  have hnext := reached_next hd.toLive (fun _ _ => by rw [hd.cmd]; rfl) hc
  exact he ▸ pauseCell_turn hu (he ▸ hnext)

theorem cellResume_completes (hd : Decides s x (.cellResume h w)) : Completes .commandDecision s fun t =>
    (∀ c ∈ selCells (reached s x) w, ResumeOutcome (cellAt (reached s x) c) (cellAt t c)) ∧
    (∀ c, c ∉ selCells (reached s x) w → cellAt t c = cellAt (reached s x) c) ∧ SameBut cellCmdParts (released s x) t := by
  refine completes_named (l := [.cells]) (f := resumeCell) hd (by simp) (by rw [decideCmd, hd.cmd]) (by decide)
    fun c _ u hu _ he => ?_
  exact he ▸ resumeCell_turn hu

/-- Settles O8: a cell is found without a next place left (`reached_next`), and each member of a group takes its own turn. -/
theorem cellTransitions : Obligations.CellTransitions := by
  unfold Obligations.CellTransitions
  refine ⟨fun s x h w hd => ?_, fun s x h w hd => ?_, fun s x h w hd => ?_, fun s x h w hd => ?_, fun s x h c r hd hst => ?_,
    fun s x h c b n jb jn f hd hst k i hi => ?_⟩
  · obtain ⟨t, ht, hin, hout, hsame⟩ := cellStart_completes hd
    exact ⟨t, ht, fun c hc => (hin c hc).starts, fun c hc => (hin c hc).ignores, hout, hsame⟩
  · obtain ⟨t, ht, hin, hout, hsame⟩ := cellStop_completes hd
    exact ⟨t, ht, fun c hc => (hin c hc).stops, fun c hc => (hin c hc).ignores, hout, hsame⟩
  · obtain ⟨t, ht, hin, hout, hsame⟩ := cellPause_completes hd
    exact ⟨t, ht, fun c hc => (hin c hc).pauses, fun c hc => (hin c hc).ignores, hout, hsame⟩
  · obtain ⟨t, ht, hin, hout, hsame⟩ := cellResume_completes hd
    exact ⟨t, ht, fun c hc => (hin c hc).resumes, fun c hc => (hin c hc).ignores, hout, hsame⟩
  · have hturn := rateCell_turn (reached_reaches hd.toLive x).canon hst r x.dec
    rw [domAt_reached] at hturn
    obtain ⟨t, ht, hrate, hrest⟩ := completes_cell (l := [.cells]) hd (by simp) (by decide)
      (by rw [decideCmd, hd.cmd]; exact hturn)
    exact ⟨t, ht, hrate.ratio, hrate.runs, hrate.count, hrate.edge, hrest⟩
  · have hturn := decCellArm_turn (reached_reaches hd.toLive x).canon hst hi
    obtain ⟨t, ht, ⟨harmed, harm⟩, hrest⟩ := completes_cell (l := [.cells]) hd (by simp) (by decide)
      (by rw [decideCmd, hd.cmd]; exact hturn)
    exact ⟨t, ht, harmed, harm, hrest⟩

end Sys2Proof.Arch


/-! O9: settings of cells and of the synthesis path (R55, R60, R87, R106, R110, R111, R116, R117, R474). -/

namespace Sys2Proof.Arch

open Sys2Proof Sys2Proof.Machine Sys2Proof.Safety Sys2Proof.Laws Sys2Proof.Scope

variable {s t u : State} {x : Held} {h : Hdr} {c k : Nat} {l m : List Part}

/-! ### A cell read back as it was written -/

/-- A cell that is written reads as written, but for its epoch. -/
theorem cellAt_putCell (hw : twf {} s.cells = true) (c : Nat) (y : Cell) : ∃ n, cellAt (putCell s c y) c = { y with epoch := n } := by
  unfold putCell
  dsimp only
  rw [cellAt, tget_tset_same hw]
  split
  · exact ⟨y.epoch, rfl⟩
  · exact ⟨_, rfl⟩

/-- A change that `CELL_EPOCH` does not count is read back whole. -/
theorem cellAt_modCell {f : Cell → Cell} (hw : twf {} s.cells = true) (hf : ∀ y, cellKey (f y) = cellKey y) (c : Nat) :
    cellAt (modCell s c f) c = f (cellAt s c) := by
  rw [modCell, putCell, if_pos (hf _)]
  exact tget_tset_same hw c _

/-- The setting of one cell. -/
theorem modCell_turn {f : Cell → Cell} {Q : Cell → Prop} (hw : twf {} s.cells = true) (hf : ∀ y, cellKey (f y) = cellKey y)
    (hq : Q (f (cellAt s c))) : CellTurn c [.cells] Q s (modCell s c f) :=
  (modCell_step hw (by decide) f).turn (by rwa [cellAt_modCell hw hf])

/-- What a command that a cell gives no effect leaves of it. -/
def Ignored (y z : Cell) : Prop := z.st = y.st ∧ z.flags = y.flags ||| 0x400 ∧ z.group = y.group

theorem ignored_turn (hw : twf {} s.cells = true) (c : Nat) : CellTurn c [.cells] (Ignored (cellAt s c)) s (ignored c s) := by
  have hstep := ignored_step (l := [.cells]) hw (by decide) c
  exact hstep.turn ⟨hstep.field Cell.st fun _ => rfl, hstep.field Cell.flags fun _ => rfl, hstep.field Cell.group fun _ => rfl⟩

/-- What a decided command changes of one cell and of parts beyond those of a cell command. -/
theorem CellTurn.frame {Q : Cell → Prop} (h : CellTurn c l Q (reached s x) t) (hl : ∀ p ∈ l, p ∈ m) (hm : ∀ p ∈ cellCmdParts, p ∈ m) :
    SameBut m (released s x) t :=
  ((reached_cells_same s x).mono hm).trans (h.same.mono hl)

theorem reached_canon (hl : Live s) (x : Held) : twf {} (reached s x).cells = true := (reached_reaches hl x).canon

/-! ### CELL_BIND and CELL_UNBIND (R55, R60) -/

theorem auxRelease_same (y : Cell) (s : State) : SameBut [.auxs] s (auxRelease y s) :=
  .ite (fun _ => modAux_same ..) fun _ => .refl _ s

theorem auxRelease_canon (ha : twf {} s.auxs = true) (y : Cell) : twf {} (auxRelease y s).auxs = true := by
  unfold auxRelease
  split
  · exact twf_tset ha _ _
  · exact ha

/-- A channel that is written reads with the binding written. -/
theorem auxAt_modAux_bound (ha : twf {} s.auxs = true) (i : Nat) (f : Aux → Aux) :
    (auxAt (modAux s i f) i).bound = (f (auxAt s i)).bound := by
  unfold modAux
  dsimp only
  rw [auxAt, tget_tset_same ha]
  split <;> rfl

/-- A cell written as its auxiliary channel is released. -/
theorem putCell_released_step (hw : twf {} s.cells = true) (c : Nat) (y z : Cell) :
    CellStep c [.auxs, .cells] z s (putCell (auxRelease y s) c z) := by
  have hrel : CellStep c [.auxs, .cells] (cellAt s c) s (auxRelease y s) :=
    (CellStep.refl hw).keep (auxRelease_same y s) (by decide) (by decide)
  exact hrel.trans (F := fun _ => z) (putCell_step hrel.canon (by decide) c z) fun _ => rfl

/-- A cell as `CELL_BIND` leaves it: bound to domain `d` at ratio `r` and to target `g`, its grid started at edge `m`. -/
structure BindOutcome (d r : Nat) (g : Sel) (b : Nat) (p : Int) (sl m : Nat) (y : Cell) : Prop where
  st : y.st = .bound
  domain : y.domain = d
  ratio : y.ratio = r
  target : y.target = g
  bridge : y.bridge = b
  park : y.park = p
  slip : y.slip = decide (sl = 1)
  edge : y.mRef = m
  count : y.n = 0
  hold : y.hold = 0

theorem decCellBind_turn {d r b sl : Nat} {g : Sel} {p : Int} (hw : twf {} s.cells = true) (hrest : atRest s c = true) (dec : Nat) :
    CellTurn c [.auxs, .cells] (BindOutcome d r g b p sl (edgeAt (domAt s d) dec)) s (decCellBind c d r g b p sl dec s) := by
  unfold decCellBind
  dsimp only
  rw [if_neg (by simp [hrest])]
  generalize hy : ({ cellAt s c with
    st := _, domain := _, ratio := _, target := _, bridge := _, park := _, slip := _, hold := _, mRef := _, nRef := _, n := _,
    ddsA := _, gC := _, oC := _, shift := _, hist := _ } : Cell) = y
  have hput := putCell_released_step hw c (cellAt s c) y
  have hbound : CellStep c [.auxs, .cells] y s (if g.kind = 1 then
      modAux (putCell (auxRelease (cellAt s c) s) c y) g.num fun a => { a with bound := some c }
    else putCell (auxRelease (cellAt s c) s) c y) := by
    split
    · exact hput.keep (modAux_same ..) (by decide) (by decide)
    · exact hput
  subst hy
  exact hbound.turn ⟨hbound.field Cell.st fun _ => rfl, hbound.field Cell.domain fun _ => rfl, hbound.field Cell.ratio fun _ => rfl,
    hbound.field Cell.target fun _ => rfl, hbound.field Cell.bridge fun _ => rfl, hbound.field Cell.park fun _ => rfl,
    hbound.field Cell.slip fun _ => rfl, hbound.field Cell.mRef fun _ => rfl, hbound.field Cell.n fun _ => rfl,
    hbound.field Cell.hold fun _ => rfl⟩

theorem decCellBind_aux {d r a b sl : Nat} {p : Int} (ha : twf {} s.auxs = true) (hrest : atRest s c = true) (dec : Nat) :
    (auxAt (decCellBind c d r ⟨1, a⟩ b p sl dec s) a).bound = some c := by
  unfold decCellBind
  dsimp only
  rw [if_neg (by simp [hrest]), if_pos rfl]
  refine (auxAt_modAux_bound ?_ a _).trans rfl
  exact auxRelease_canon ha (cellAt s c)

/-- A cell at rest is bound as the command says, and an auxiliary channel to it. -/
theorem cellBind_completes {d r b sl : Nat} {g : Sel} {p : Int} (hd : Decides s x (.cellBind h c d r g b p sl))
    (hrest : atRest (reached s x) c = true) : Completes .commandDecision s fun t =>
      BindOutcome d r g b p sl (edgeAt (domAt s d) x.dec) (cellAt t c) ∧ (∀ a, g = ⟨1, a⟩ → (auxAt t a).bound = some c) ∧
      (∀ k, k ≠ c → cellAt t k = cellAt (reached s x) k) ∧
      SameBut [.active, .auxs, .cells, .faults, .hives, .inner, .jnl, .queues, .rpl] (released s x) t := by
  refine completes_of_decides hd (by simp) ?_
  rw [decideCmd, hd.cmd]
  dsimp only
  have hturn :=
    (decCellBind_turn (d := d) (r := r) (g := g) (b := b) (p := p) (sl := sl) (reached_canon hd.toLive x) hrest x.dec).settled s
  rw [domAt_reached] at hturn
  refine ⟨hturn.here, ?_, hturn.other, hturn.frame (by decide) (by decide)⟩
  rintro a rfl
  have hauxs : (reached s x).auxs = s.auxs := (reached_same s x).same .auxs (by decide)
  rw [auxAt, settle_auxs]
  exact decCellBind_aux (hauxs ▸ hd.canon.auxs) hrest x.dec

theorem cellUnbind_completes (hd : Decides s x (.cellUnbind h c)) (hst : (cellAt (reached s x) c).st = .bound) :
    Completes .commandDecision s fun t =>
      (cellAt t c).st = .off ∧ (cellAt t c).target = ⟨2, 0⟩ ∧ (∀ k, k ≠ c → cellAt t k = cellAt (reached s x) k) ∧
      SameBut [.active, .auxs, .cells, .faults, .hives, .inner, .jnl, .queues, .rpl] (released s x) t := by
  refine completes_of_decides hd (by simp) ?_
  rw [decideCmd, hd.cmd]
  dsimp only
  rw [decCellUnbind, if_pos hst]
  have hstep :=
    (putCell_released_step (reached_canon hd.toLive x) c (cellAt (reached s x) c) (unbound (cellAt (reached s x) c))).settled s
  have hturn := hstep.turn (Q := fun y => y.st = .off ∧ y.target = ⟨2, 0⟩)
    ⟨hstep.field Cell.st fun _ => rfl, hstep.field Cell.target fun _ => rfl⟩
  exact ⟨hturn.here.1, hturn.here.2, hturn.other, hturn.frame (by decide) (by decide)⟩

/-! ### CELL_RESET (R60, R65, R426) -/

/-- A cell whose arms a reset has released, with what it owed to the journal. -/
def disarmed (c : Nat) (s : State) : State :=
  let s0 := releaseArm c (sigClose c (endLate c (endGap c s)))
  (cellAt s0 c).arms.foldl (fun s a => releaseAreas a.2 s) s0

theorem disarmed_step (hw : twf {} s.cells = true) (c : Nat) :
    CellStep c cellParts { cellAt s c with arm := none } s (disarmed c s) := by
  have hgap := (endGap_step hw c).mono (l' := cellParts) (by decide)
  have hlate := hgap.note ((endLate_step hgap.canon c).mono (by decide))
  have hsig := hlate.note ((sigClose_step hlate.canon c).mono (by decide))
  have harm := hsig.trans (F := fun y => { y with arm := none }) (releaseArm_step hsig.canon c) fun _ => rfl
  exact harm.keep (l' := [.active, .hives, .queues, .inner])
    (.foldl (fun u (a : Nat × ArmInfo) => releaseAreas_same a.2 u) _ _) (by decide) (by decide)

/-- Parts that a reset of a cell can change. -/
def resetParts : List Part := .auxs :: .grave :: .held :: cellParts

/-- A cell as a reset leaves it. -/
def CellFresh (y : Cell) : Prop := ∃ e n, y = { epoch := e, lateInject := n }

/-- What a reset makes of the state besides the cell: no command waits at it, and its classes are named in `RESTORE_STATUS`. -/
structure ResetMarks (c : Nat) (s t : State) : Prop where
  held : t.held = s.held.filter fun y => !waitsAt c y
  restore : t.grave.restore = s.grave.restore ||| 0x3000
  cause : t.grave.restoreCause = 5

/-- The commands that wait at a cell discarded. -/
def discarded (c : Nat) (s : State) : State := { s with held := s.held.filter fun y => !waitsAt c y }

/-- The cell cleared where its arms have been released. -/
def cellCleared (c : Nat) (s : State) : State :=
  putCell (auxRelease (cellAt s c) (discarded c s)) c { epoch := (cellAt s c).epoch, lateInject := (cellAt s c).lateInject }

theorem decCellReset_eq (c : Nat) (s : State) :
    decCellReset c s = restoreMark 5 [12, 13] (releaseTable (hiveOf c) (cellCleared c (disarmed c s))) := rfl

theorem cellCleared_step (hw : twf {} s.cells = true) (c : Nat) :
    CellStep c [.auxs, .cells, .held] { lateInject := (cellAt s c).lateInject } s (cellCleared c s) := by
  have hdrop : CellStep c [.auxs, .cells, .held] (cellAt s c) s (discarded c s) :=
    (CellStep.refl hw).keep (set_held_same s _) (by decide) (by decide)
  have hput := (putCell_released_step hdrop.canon c (cellAt s c)
    { epoch := (cellAt s c).epoch, lateInject := (cellAt s c).lateInject }).mono (l' := [.auxs, .cells, .held]) (by decide)
  exact hdrop.trans (F := fun _ => { lateInject := (cellAt s c).lateInject })
    ⟨hput.canon, hput.here, hput.other, hput.same⟩ fun _ => rfl

theorem cellCleared_fresh (hw : twf {} s.cells = true) (c : Nat) : CellFresh (cellAt (cellCleared c s) c) := by
  have hcells : (auxRelease (cellAt s c) (discarded c s)).cells = s.cells := (auxRelease_same ..).same .cells (by decide)
  obtain ⟨n, hn⟩ := cellAt_putCell (s := auxRelease (cellAt s c) (discarded c s)) (by rwa [hcells]) c
    { epoch := (cellAt s c).epoch, lateInject := (cellAt s c).lateInject }
  exact ⟨n, _, hn⟩

theorem decCellReset_turn (hw : twf {} s.cells = true) (c : Nat) : CellTurn c resetParts CellFresh s (decCellReset c s) := by
  have harms := disarmed_step hw c
  have hclear := cellCleared_step harms.canon c
  have hmark : SameBut [.hives, .active, .grave] (cellCleared c (disarmed c s)) (decCellReset c s) :=
    (releaseTable_same ..).andThen (set_grave_same ..)
  have hstep := ((harms.mono (l' := resetParts) (by decide)).trans (F := fun y => { lateInject := y.lateInject })
    ⟨hclear.canon, hclear.here, hclear.other, hclear.same.mono (by decide)⟩ fun _ => rfl).keep hmark (by decide) (by decide)
  refine hstep.turn ?_
  rw [cellAt_of_same hmark (by decide)]
  exact cellCleared_fresh harms.canon c

theorem decCellReset_marks (hw : twf {} s.cells = true) (c : Nat) : ResetMarks c s (decCellReset c s) := by
  have harms := (disarmed_step hw c).same
  have hheld : (disarmed c s).held = s.held := harms.same .held (by decide)
  have hgrave : (disarmed c s).grave = s.grave := harms.same .grave (by decide)
  have hrest : SameBut [.auxs, .cells, .hives, .active] (discarded c (disarmed c s))
      (releaseTable (hiveOf c) (cellCleared c (disarmed c s))) :=
    ((auxRelease_same ..).andThen (set_cells_same _ _)).andThen (releaseTable_same ..)
  rw [decCellReset_eq]
  generalize releaseTable (hiveOf c) (cellCleared c (disarmed c s)) = u at hrest ⊢
  have hheld' : u.held = (discarded c (disarmed c s)).held := hrest.same .held (by decide)
  have hgrave' : u.grave = (discarded c (disarmed c s)).grave := hrest.same .grave (by decide)
  refine ⟨hheld'.trans ?_, ?_, rfl⟩
  · rw [discarded, hheld]
  · rw [discarded, hgrave] at hgrave'
    exact congrArg (fun g : Grave => g.restore ||| 0x3000) hgrave'

theorem cellReset_completes (hd : Decides s x (.cellReset h c)) : Completes .commandDecision s fun t =>
    CellFresh (cellAt t c) ∧ (∀ k, k ≠ c → cellAt t k = cellAt (reached s x) k) ∧ ResetMarks c (released s x) t ∧
    SameBut [.active, .auxs, .cells, .faults, .grave, .held, .hives, .inner, .jnl, .queues, .rpl] (released s x) t := by
  refine completes_of_decides hd (by simp) ?_
  rw [decideCmd, hd.cmd]
  dsimp only
  have hw := reached_canon hd.toLive x
  have hturn := (decCellReset_turn hw c).settled s
  obtain ⟨hheld, hrestore, hcause⟩ := decCellReset_marks hw c
  have hreach := reached_cells_same s x
  have hheld' : (reached s x).held = (released s x).held := hreach.same .held (by decide)
  have hgrave' : (reached s x).grave = (released s x).grave := hreach.same .grave (by decide)
  refine ⟨hturn.here, hturn.other, ⟨?_, ?_, ?_⟩, hturn.frame (by decide) (by decide)⟩
  · rw [settle_held, hheld, hheld']
  · rw [settle_grave, hrestore, hgrave']
  · rw [settle_grave, hcause]

/-! ### GROUP_SET (R87) -/

/-- Cells that take their turns, some perhaps again: each turn makes of a cell, found as it was or as a turn left it, the same. -/
theorem foldl_turns_again {f : Nat → State → State} {X : Nat → Cell} {Q : Nat → Cell → Prop}
    (hf : ∀ c u, twf {} u.cells = true → cellAt u c = X c ∨ Q c (cellAt u c) → CellTurn c l (Q c) u (f c u)) (cs : List Nat)
    (hw : twf {} s.cells = true) (hs : ∀ c, cellAt s c = X c ∨ Q c (cellAt s c)) :
    (∀ c ∈ cs, Q c (cellAt (cs.foldl (fun u c => f c u) s) c)) ∧ (∀ c, c ∉ cs → cellAt (cs.foldl (fun u c => f c u) s) c = cellAt s c) ∧
      SameBut l s (cs.foldl (fun u c => f c u) s) := by
  induction cs generalizing s with
  | nil => exact ⟨by simp, fun _ _ => rfl, .refl l s⟩
  | cons c cs ih =>
    have hturn := hf c s hw (hs c)
    have hagain (k : Nat) : cellAt (f c s) k = X k ∨ Q k (cellAt (f c s) k) := by
      by_cases hk : k = c
      · exact .inr (hk ▸ hturn.here)
      · rw [hturn.other k hk]
        exact hs k
    obtain ⟨hin, hout, hsame⟩ := ih hturn.canon hagain
    rw [List.foldl_cons]
    refine ⟨fun k hk => ?_, fun k hk => ?_, hturn.same.trans hsame⟩
    · by_cases hcs : k ∈ cs
      · exact hin k hcs
      · rw [hout k hcs, (List.mem_cons.mp hk).resolve_right hcs]
        exact hturn.here
    · obtain ⟨hkc, hk⟩ := not_or.mp fun h => hk (List.mem_cons.mpr h)
      exact (hout k hk).trans (hturn.other k hkc)

/-- Whether `GROUP_SET` finds its cells and the group's members at rest, and none of its cells bound with SLIP. -/
def groupFree (s : State) (g : Nat) (cs : List Nat) : Prop :=
  ((cs ++ if g = 63 then [] else selCells s ⟨1, g⟩).all (atRest s)) = true ∧ (cs.any fun c => (cellAt s c).slip) = false

theorem decGroupSet_of_free {g : Nat} {cs : List Nat} (hg : groupFree s g cs) :
    decGroupSet g cs s = cs.foldl (fun u c => modCell u c fun y => { y with group := g }) s := by
  obtain ⟨hrest, hslip⟩ := hg
  unfold decGroupSet
  dsimp only
  rw [hrest, hslip]
  rfl

theorem decGroupSet_of_busy {g : Nat} {cs : List Nat} (hg : ¬ groupFree s g cs) :
    decGroupSet g cs s = cs.foldl (fun u c => ignored c u) s := by
  unfold decGroupSet
  dsimp only
  rw [if_pos]
  unfold groupFree at hg
  grind

theorem groupSet_turn {X : Cell} (g : Nat) (hw : twf {} s.cells = true)
    (hc : cellAt s c = X ∨ ((cellAt s c).group = g ∧ (cellAt s c).st = X.st)) :
    CellTurn c [.cells] (fun y => y.group = g ∧ y.st = X.st) s (modCell s c fun y => { y with group := g }) := by
  have hstep := modCell_step (l := [.cells]) (c := c) hw (by decide) fun y => { y with group := g }
  have hst : (cellAt s c).st = X.st := hc.elim (congrArg Cell.st) And.right
  exact hstep.turn ⟨hstep.field Cell.group fun _ => rfl, (hstep.field Cell.st fun _ => rfl).trans hst⟩

theorem groupIgnored_turn {X : Cell} (hw : twf {} s.cells = true)
    (hc : cellAt s c = X ∨ ((cellAt s c).group = X.group ∧ (cellAt s c).flags = X.flags ||| 0x400)) :
    CellTurn c [.cells] (fun y => y.group = X.group ∧ y.flags = X.flags ||| 0x400) s (ignored c s) := by
  obtain ⟨hcanon, ⟨-, hflags, hgroup⟩, hother, hsame⟩ := ignored_turn hw c
  refine ⟨hcanon, ⟨hgroup.trans (hc.elim (congrArg Cell.group) And.left), hflags.trans ?_⟩, hother, hsame⟩
  · rcases hc with hc | hc
    · rw [hc]
    · rw [hc.2, BitVec.or_assoc, BitVec.or_self]

theorem groupSet_completes {g : Nat} {cs : List Nat} (hd : Decides s x (.groupSet h g cs)) (hg : groupFree (reached s x) g cs) :
    Completes .commandDecision s fun t =>
      (∀ c ∈ cs, (cellAt t c).group = g ∧ (cellAt t c).st = (cellAt (reached s x) c).st) ∧
      (∀ c, c ∉ cs → cellAt t c = cellAt (reached s x) c) ∧ SameBut cellCmdParts (released s x) t := by
  refine completes_cells (l := [.cells]) (Q := fun c y => y.group = g ∧ y.st = (cellAt (reached s x) c).st) hd (by simp) ?_ (by decide)
    (foldl_turns_again (X := cellAt (reached s x)) (fun _ _ hw hc => groupSet_turn g hw hc) cs (reached_canon hd.toLive x)
      fun _ => .inl rfl)
  rw [decideCmd, hd.cmd]
  exact decGroupSet_of_free hg

theorem groupSet_ignored_completes {g : Nat} {cs : List Nat} (hd : Decides s x (.groupSet h g cs))
    (hg : ¬ groupFree (reached s x) g cs) :
    Completes .commandDecision s fun t =>
      (∀ c ∈ cs, (cellAt t c).group = (cellAt (reached s x) c).group ∧ (cellAt t c).flags = (cellAt (reached s x) c).flags ||| 0x400) ∧
      (∀ c, c ∉ cs → cellAt t c = cellAt (reached s x) c) ∧ SameBut cellCmdParts (released s x) t := by
  refine completes_cells (l := [.cells])
    (Q := fun c y => y.group = (cellAt (reached s x) c).group ∧ y.flags = (cellAt (reached s x) c).flags ||| 0x400) hd (by simp) ?_
    (by decide) (foldl_turns_again (X := cellAt (reached s x)) (fun _ _ hw hc => groupIgnored_turn hw hc) cs (reached_canon hd.toLive x)
      fun _ => .inl rfl)
  rw [decideCmd, hd.cmd]
  exact decGroupSet_of_busy hg

/-! ### The clears and the synthesis settings of a cell (R110, R111, R117, R474) -/

/-- What `CELL_CLEAR` makes of a cell. -/
structure ClearOutcome (m : DWord) (y z : Cell) : Prop where
  flags : z.flags = y.flags &&& ~~~(m.truncate 32)
  zeroed : m.getLsbD 32 = true → z.lateCount = 0
  kept : m.getLsbD 32 = false → z.lateCount = y.lateCount
  st : z.st = y.st

theorem decCellClear_turn (hw : twf {} s.cells = true) (m : DWord) :
    CellTurn c [.cells] (ClearOutcome m (cellAt s c)) s (decCellClear c m s) :=
  modCell_turn hw (fun _ => rfl) ⟨rfl, fun hm => if_pos hm, fun hm => if_neg (Bool.eq_false_iff.mp hm), rfl⟩

/-- What `SYN_CLEAR` makes of a cell. -/
structure SynClearOutcome (m : DWord) (y z : Cell) : Prop where
  pre : z.clipPre = (y.clipPre && !m.getLsbD 0)
  out : z.clipOut = (y.clipOut && !m.getLsbD 1)
  st : z.st = y.st

theorem decSynClear_turn (hw : twf {} s.cells = true) (m : DWord) :
    CellTurn c [.cells] (SynClearOutcome m (cellAt s c)) s (decSynClear c m s) := modCell_turn hw (fun _ => rfl) ⟨rfl, rfl, rfl⟩

theorem decSynConfig_turn {f e a : Nat} {g o : Int} (hw : twf {} s.cells = true) (hrest : atRest s c = true) :
    CellTurn c [.cells] (· = { cellAt s c with format := f, pdEn := decide (e = 1), pdAddr := a, gU := g, oU := o }) s
      (decSynConfig c f e a g o s) := by
  rw [decSynConfig, if_neg (by simp [hrest])]
  exact modCell_turn hw (fun _ => rfl) rfl

theorem decSynCalApply_turn {g o : Int} (hw : twf {} s.cells = true) (hst : (cellAt s c).st ≠ .off) :
    CellTurn c [.cells] (· = { cellAt s c with gC := g, oC := o }) s (decSynCalApply c g o s) := by
  rw [decSynCalApply, if_neg hst]
  exact modCell_turn hw (fun _ => rfl) rfl

theorem decSynGainSet_turn {g o : Int} (hw : twf {} s.cells = true) (c : Nat) :
    CellTurn c [.cells] (fun y => (cellAt s c).st ≠ .off → y = { cellAt s c with gU := g, oU := o }) s (decSynGainSet c g o s) := by
  unfold decSynGainSet
  split
  next hoff =>
    obtain ⟨hcanon, -, hother, hsame⟩ := ignored_turn hw c
    exact ⟨hcanon, fun hst => absurd hoff hst, hother, hsame⟩
  next => exact modCell_turn hw (fun _ => rfl) fun _ => rfl

/-! ### FORMAT_SET and CURVE_AREA_SET (R106, R116) -/

/-- A released command that arms no channel leaves no channel armed that was not. -/
theorem capArmed_of_released (hc : capArmed (released s x) c = true) : capArmed s c = true := by
  unfold capArmed Safety.released at hc
  unfold capArmed
  simp only [Bool.or_eq_true, List.any_eq_true] at hc ⊢
  rcases hc with (hst | ⟨y, hy, hcmd⟩) | hwork
  · exact .inl (.inl hst)
  · exact .inl (.inr ⟨y, List.mem_of_mem_erase hy, hcmd⟩)
  · exact .inr hwork

theorem formatUsed_released {i e : Nat} (hu : formatUsed s i e = false) : formatUsed (released s x) i e = false := by
  rw [← Bool.not_eq_true] at hu ⊢
  refine fun hr => hu ?_
  unfold formatUsed at hr ⊢
  by_cases hi : i < 16
  · rw [if_pos hi] at hr ⊢
    exact hr
  · rw [if_neg hi] at hr ⊢
    obtain ⟨p, hp, hq⟩ := List.any_eq_true.mp hr
    refine List.any_eq_true.mpr ⟨p, hp, ?_⟩
    simp only [Bool.and_eq_true] at hq ⊢
    exact ⟨hq.1, capArmed_of_released hq.2⟩

/-- A link that keeps its state is not journaled. -/
theorem modLink_same_of_st {i : Nat} {f : Link → Link} (hst : (f (linkAt s i)).st = (linkAt s i).st) :
    SameBut [.links] s (modLink s i f) := by
  unfold modLink putLink
  extract_lets o z s1
  have hz : z.st = o.st := by
    unfold z
    split <;> exact hst
  rw [if_pos hz]
  exact set_links_same s _

/-- A link that is changed reads as changed, but for its epoch. -/
theorem linkAt_modLink_canon (hw : twf {} s.links = true) (i : Nat) (f : Link → Link) :
    linkAt (modLink s i f) i = { f (linkAt s i) with epoch := (linkAt (modLink s i f) i).epoch } := by
  obtain ⟨n, hput⟩ := putLink_links s i (f (linkAt s i))
  have hat : linkAt (modLink s i f) i = { f (linkAt s i) with epoch := n } := by
    rw [modLink, linkAt, hput, tget_tset_same hw]
  rw [hat]

theorem formatSet_completes {i e : Nat} {w : Word} (hd : Decides s x (.formatSet h i e w)) (hu : formatUsed s i e = false) :
    Completes .commandDecision s fun t =>
      linkAt t i = { linkAt s i with formats := tset 0x180 (linkAt s i).formats e w, epoch := (linkAt t i).epoch } ∧
      (∀ k, k ≠ i → linkAt t k = linkAt s k) ∧ SameBut [.links] (released s x) t := by
  refine completes_of_decides_plain hd (by simp) (fun _ _ => rfl) ?_
  have hlinks (u : State) (k : Nat) : linkAt (settle s u) k = linkAt u k := linkAt_of_same (settle_same s u) (by simp) k
  have hsame : SameBut [.links] (released s x) (modLink (released s x) i fun y => { y with formats := tset 0x180 y.formats e w }) :=
    modLink_same_of_st rfl
  rw [decideCmd, hd.cmd]
  dsimp only
  rw [decFormatSet, if_neg (by simp [formatUsed_released hu])]
  refine ⟨?_, fun k hk => ?_, hsame.settled s⟩
  · rw [hlinks]
    exact linkAt_modLink_canon (s := Safety.released s x) hd.canon.links i _
  · rw [hlinks]
    exact linkAt_modLink_other hk _ _

theorem curveAreaSet_completes {v b n : Nat} (hd : Decides s x (.curveAreaSet h v b n)) (hb : curvesBusy s v = false) :
    Completes .commandDecision s (SameBut []
      { released s x with hives := tmod {} s.hives v fun y => { y with curveBase := b, envCount := n } }) := by
  refine completes_of_decides_plain hd (by simp) (fun _ _ => rfl) ?_
  have hbusy : curvesBusy (released s x) v = false := hb
  rw [decideCmd, hd.cmd]
  dsimp only
  rw [decCurveAreaSet, if_neg (by simp [hbusy]), modHive, putHive, if_pos ⟨rfl, rfl, rfl⟩]
  exact (SameBut.refl [] _).settled s

/-- Settles O9: each setting is read back from the one cell, link or hive that its decision writes. -/
theorem cellSettings : Obligations.CellSettings := by
  unfold Obligations.CellSettings
  refine ⟨fun s x h c d r g b p sl hd hrest _ => ?_, fun s x h c d r a b p sl hd hrest => ?_,
    fun s x h c hd hst => cellUnbind_completes hd hst,
    fun s x h c hd hst => ?_, fun s x h c hd => ?_, fun s x h g l hd hrest hslip => ?_, fun s x h g l hd hbusy => ?_,
    fun s x h c m hd => ?_, fun s x h c f e a g o hd hrest => ?_, fun s x h u g o hd => ?_, fun s x h c g o hd hst => ?_,
    fun s x h c m hd => ?_, fun s x h i e w hd hu => formatSet_completes hd hu, fun s x h p hd => ?_,
    fun s x h v b n hd hb => curveAreaSet_completes hd hb⟩
  · obtain ⟨t, ht, ho, -, hother, hsame⟩ := cellBind_completes hd hrest
    exact ⟨t, ht, ho.st, ho.domain, ho.ratio, ho.target, ho.bridge, ho.park, ho.slip, ho.edge, ho.count, ho.hold, hother, hsame⟩
  · obtain ⟨t, ht, ho, haux, hrest⟩ := cellBind_completes hd hrest
    exact ⟨t, ht, ho.st, ho.target, haux a rfl, hrest⟩
  · obtain ⟨t, ht, ⟨hst', hflags, -⟩, hrest⟩ := completes_cell (l := [.cells]) hd (by simp) (by decide)
      (by rw [decideCmd, hd.cmd]; dsimp only; rw [decCellUnbind, if_neg hst]; exact ignored_turn (reached_canon hd.toLive x) c)
    exact ⟨t, ht, hst', hflags, hrest⟩
  · obtain ⟨t, ht, hfresh, hother, ⟨hheld, hrestore, hcause⟩, hsame⟩ := cellReset_completes hd
    exact ⟨t, ht, hfresh, hother, fun y => by simp [hheld], hrestore, hcause, hsame⟩
  · exact groupSet_completes hd ⟨hrest, hslip⟩
  · exact groupSet_ignored_completes hd fun ⟨hrest, hslip⟩ => by simp_all
  · obtain ⟨t, ht, ho, hrest⟩ := completes_cell (l := [.cells]) hd (by simp) (by decide)
      (by rw [decideCmd, hd.cmd]; exact decCellClear_turn (reached_canon hd.toLive x) m)
    exact ⟨t, ht, ho.flags, ho.zeroed, ho.kept, ho.st, hrest⟩
  · exact completes_cell (l := [.cells]) hd (by simp) (by decide)
      (by rw [decideCmd, hd.cmd]; exact decSynConfig_turn (reached_canon hd.toLive x) hrest)
  · refine completes_named (l := [.cells]) (f := fun c => decSynGainSet c g o)
      (Q := fun c y => (cellAt (reached s x) c).st ≠ .off → y = { cellAt (reached s x) c with gU := g, oU := o }) hd (by simp)
      (by rw [decideCmd, hd.cmd]) (by decide) fun c _ v hv _ he => ?_
    exact he ▸ decSynGainSet_turn hv c
  · exact completes_cell (l := [.cells]) hd (by simp) (by decide)
      (by rw [decideCmd, hd.cmd]; exact decSynCalApply_turn (reached_canon hd.toLive x) hst)
  · obtain ⟨t, ht, ho, hrest⟩ := completes_cell (l := [.cells]) hd (by simp) (by decide)
      (by rw [decideCmd, hd.cmd]; exact decSynClear_turn (reached_canon hd.toLive x) m)
    exact ⟨t, ht, ho.pre, ho.out, ho.st, hrest⟩
  · refine completes_of_decides_plain hd (by simp) (fun _ _ => rfl) ?_
    rw [decideCmd, hd.cmd]
    exact (SameBut.refl [] _).settled s

end Sys2Proof.Arch

/-! Comb accesses: the words and granules of a span, and what a read and a store leave (R120, R121, R124, R125, R132, R138). -/

namespace Sys2Proof.Arch

open Sys2Proof Sys2Proof.Machine Sys2Proof.Safety Sys2Proof.Laws Sys2Proof.Scope

variable {s t u : State} {ca len master acc w : Nat} {ws : List Nat} {data : List Byte}

/-! ### Words and granules of a span -/

theorem mem_wordsOf : w ∈ wordsOf ca len ↔ 0 < len ∧ ca / 8 ≤ w ∧ w ≤ (ca + len - 1) / 8 := by
  unfold wordsOf
  split
  · simp; omega
  · rw [mem_upFrom]; omega

/-- The granules of a span hold its words. -/
theorem granule_mem_of_word (h : w ∈ wordsOf ca len) : w / 32 ∈ upFrom (granules ca len).2 (granules ca len).1 := by
  rw [mem_wordsOf] at h
  simp only [granules, mem_upFrom]
  rw [if_neg (by omega)]
  omega

theorem granuleBad_of_free (h : firstHeldGranule s ca len = none) (hw : w ∈ wordsOf ca len) : granuleBad s (w / 32) = false := by
  have hheld := List.find?_eq_none.mp h _ (granule_mem_of_word hw)
  simp only [granuleHeld, Bool.or_eq_true, not_or, Bool.not_eq_true] at hheld
  exact hheld.2

theorem wordIdle_of_span (h : spanActive s ca len = false) (hw : w ∈ wordsOf ca len) : ¬ 0 < tget 0 s.active (w / 32) := by
  simpa using List.any_eq_false.mp h _ (granule_mem_of_word hw)

theorem partialWords_subset : ∀ v ∈ partialWords ca len, v ∈ wordsOf ca len := by
  intro v hv
  rw [mem_wordsOf]
  simp only [partialWords, List.mem_append] at hv
  rcases hv with hv | hv
  all_goals
    split at hv
    · rw [List.mem_singleton] at hv
      omega
    · cases hv

theorem partialWords_aligned (hca : ca % 8 = 0) (hlen : len % 8 = 0) : partialWords ca len = [] := by
  rw [partialWords, if_neg (by omega), if_neg (by omega)]
  rfl

/-! ### Words read (R138) -/

/-- Words read for a master leave the marks of uncorrectable words, and of a hive all but its error counters. -/
structure WordsRead (s t : State) : Prop where
  hives : twf {} t.hives = true
  faults : twf {} t.faults = true
  ue : t.combUe = s.combUe
  hive : ∀ h, HiveCounted (hiveAt s h) (hiveAt t h)
  same : SameBut [.hives, .faults, .combMarks] s t

theorem WordsRead.refl (hh : twf {} s.hives = true) (hf : twf {} s.faults = true) : WordsRead s s :=
  ⟨hh, hf, rfl, fun _ => .refl _, .refl _ s⟩

theorem WordsRead.trans (h : WordsRead s t) (h' : WordsRead t u) : WordsRead s u :=
  ⟨h'.hives, h'.faults, h'.ue.trans h.ue, fun k => (h.hive k).trans (h'.hive k), h.same.trans h'.same⟩

theorem touchWord_read (hh : twf {} s.hives = true) (hf : twf {} s.faults = true) (master acc w : Nat) :
    WordsRead s (touchWord master acc w s) := by
  have ht := touchWord_touched (m := master) (acc := acc) (w := w) (ws := [w]) rfl (List.mem_singleton.mpr rfl) hh hf
  refine ⟨ht.canon, ht.grows.canon, ht.ue, fun k => ?_, ht.same⟩
  by_cases hk : k = w / 0x40000
  · exact hk ▸ ht.here
  · rw [ht.other k hk]
    exact .refl _

theorem touchWords_read (hh : twf {} s.hives = true) (hf : twf {} s.faults = true) (master acc : Nat) (ws : List Nat) :
    WordsRead s (ws.foldl (fun s w => touchWord master acc w s) s) :=
  foldl_keeps (P := WordsRead s) (fun _ w hu => hu.trans (touchWord_read hu.hives hu.faults master acc w)) ws (.refl hh hf)

theorem touchSpan_read (hh : twf {} s.hives = true) (hf : twf {} s.faults = true) (master acc ca len : Nat) :
    WordsRead s (touchSpan master acc ca len s) := touchWords_read hh hf master acc _

theorem WordsRead.granuleBad (h : WordsRead s t) (g : Nat) : granuleBad t g = granuleBad s g := by
  obtain ⟨_, _, _, hx⟩ := h.hive (g / 8192)
  rw [Machine.granuleBad, Machine.granuleBad, hx]

/-! ### Stores (R121) -/

theorem set_comb_same (s : State) (x : List Host.Cell) : SameBut [.comb] s { s with comb := x } :=
  ⟨fun p hp => by cases p <;> simp_all [Part.Same, ctxAt]⟩

/-- A word's marks after a write lie with the word and the injections armed for it. -/
theorem markWord_same (w : Nat) (s : State) : SameBut [.combMarks, .grave] s (markWord w s) := by
  have hgood : SameBut [.combMarks] s { s with combUe := s.combUe.erase w, combCe := s.combCe.erase w } := set_combMarks_same s _ _
  have harmed (g : Grave) := hgood.andThen (set_grave_same _ g)
  unfold markWord
  dsimp only
  split
  · exact hgood.mono (by decide)
  · split
    · exact ((harmed _).andThen (set_combMarks_same _ _ _)).mono (by decide)
    · exact ((harmed _).andThen (set_combMarks_same _ _ _)).mono (by decide)

/-- A span is stored: its bytes, the check bits of its words, and nothing else. -/
structure SpanStored (ca : Nat) (data : List Byte) (s t : State) : Prop where
  comb : t.comb = memWrite s.comb ca data
  same : SameBut [.comb, .combMarks, .grave] s t

theorem combStore_stored (h : ∀ w ∈ wordsOf ca data.length, granuleBad s (w / 32) = false) :
    SpanStored ca data s (combStore s ca data) := by
  have hgood : ¬ ((wordsOf ca data.length).any fun w => granuleBad s (w / 32)) = true := by simpa using h
  have hmarks := SameBut.foldl (fun v w => markWord_same w v) (wordsOf ca data.length) { s with comb := memWrite s.comb ca data }
  unfold combStore
  dsimp only
  rw [if_neg hgood]
  exact ⟨hmarks.same .comb (by decide), ((set_comb_same s _).andThen hmarks).mono (by decide)⟩

/-- A store of a host, its partial words read first. -/
structure SpanWritten (ca : Nat) (data : List Byte) (s t : State) : Prop where
  comb : t.comb = memWrite s.comb ca data
  same : SameBut [.comb, .combMarks, .faults, .grave, .hives] s t

theorem SpanStored.written (h : SpanStored ca data s t) : SpanWritten ca data s t := ⟨h.comb, h.same.mono (by decide)⟩

/-- A store after words were read. -/
theorem WordsRead.stored (h : WordsRead s t) (hfree : firstHeldGranule s ca data.length = none) :
    SpanWritten ca data s (combStore t ca data) := by
  have hstore := combStore_stored (s := t) fun w hw => (h.granuleBad _).trans (granuleBad_of_free hfree hw)
  refine ⟨?_, (h.same.andThen hstore.same).mono (by decide)⟩
  rw [hstore.comb, h.same.same .comb (by decide)]

theorem rmwStore_written (hh : twf {} s.hives = true) (hf : twf {} s.faults = true) (hfree : firstHeldGranule s ca data.length = none)
    (master : Nat) : SpanWritten ca data s (rmwStore s ca data master) :=
  (touchWords_read hh hf master 0 _).stored hfree

/-- A store of whole words reads none first. -/
theorem rmwStore_stored (hca : ca % 8 = 0) (hlen : data.length % 8 = 0) (hfree : firstHeldGranule s ca data.length = none)
    (master : Nat) : SpanStored ca data s (rmwStore s ca data master) := by
  have hno : rmwStore s ca data master = combStore s ca data := by
    rw [rmwStore, partialWords_aligned hca hlen]
    rfl
  rw [hno]
  exact combStore_stored fun w hw => granuleBad_of_free hfree hw

theorem rmwUe_aligned (hca : ca % 8 = 0) (hlen : len % 8 = 0) : rmwUe s ca len = none := by
  rw [rmwUe, partialWords_aligned hca hlen]
  rfl

/-! ### Collisions (R125) -/

/-- COMB_BUSY_COUNT has risen to `n`, or reached its limit. -/
def BusyRises (b n : Nat) : Prop := n = b ∨ n = 0xFFFFFFFF ∨ b ≤ n ∧ n ≤ 0xFFFFFFFF

theorem BusyRises.trans {b n m : Nat} (h : BusyRises b n) (h' : BusyRises n m) : BusyRises b m := by
  unfold BusyRises at *
  omega

theorem BusyRises.not_lower {b n : Nat} (h : BusyRises b n) : b ≤ n ∨ n = 0xFFFFFFFF := by
  unfold BusyRises at h
  omega

/-- Collisions counted: COMB_BUSY_COUNT rises, and nothing else of a hive changes. -/
structure BusyCounted (s t : State) : Prop where
  hives : twf {} t.hives = true
  hive : ∀ h, ∃ n, hiveAt t h = { hiveAt s h with busy := n } ∧ BusyRises (hiveAt s h).busy n
  same : SameBut [.hives, .free] s t

theorem BusyCounted.refl (hh : twf {} s.hives = true) : BusyCounted s s := ⟨hh, fun _ => ⟨_, rfl, .inl rfl⟩, .refl _ s⟩

theorem BusyCounted.trans (h : BusyCounted s t) (h' : BusyCounted t u) : BusyCounted s u := by
  refine ⟨h'.hives, fun k => ?_, h.same.trans h'.same⟩
  obtain ⟨n, hn, hrise⟩ := h.hive k
  obtain ⟨m, hm, hrise'⟩ := h'.hive k
  rw [hn] at hm hrise'
  exact ⟨m, hm, hrise.trans hrise'⟩

/-- A hive's count after `n` collisions. -/
def busyAdded (n : Nat) (x : Hive) : Hive := { x with busy := min 0xFFFFFFFF (x.busy + n) }

theorem addBusy_hives (h n : Nat) (s : State) : (addBusy h n s).hives = tmod {} s.hives h (busyAdded n) := rfl

theorem busyRises_add (b n : Nat) : BusyRises b (min 0xFFFFFFFF (b + n)) := by
  unfold BusyRises
  omega

theorem addBusy_counted (hh : twf {} s.hives = true) (h n : Nat) : BusyCounted s (addBusy h n s) := by
  have hsame : SameBut [.free, .hives] s (addBusy h n s) :=
    (set_free_same s _).andThen (set_hives_same { s with free := s.free + 1 } _)
  refine ⟨addBusy_hives h n s ▸ twf_tmod hh .., fun k => ?_, hsame.mono (by decide)⟩
  rw [hiveAt, addBusy_hives]
  by_cases hk : k = h
  · subst hk
    rw [tget_tmod_same hh]
    exact ⟨_, rfl, busyRises_add ..⟩
  · rw [tget_tmod_other _ _ hk]
    exact ⟨_, rfl, .inl rfl⟩

theorem busyWord_counted (hh : twf {} s.hives = true) (w : Nat) : BusyCounted s (busyWord w s).1 := by
  unfold busyWord
  split
  · exact addBusy_counted hh _ _
  · exact .refl hh

theorem busyWords_counted (hh : twf {} s.hives = true) (ws : List Nat) : BusyCounted s (busyWords ws s).1 := by
  induction ws generalizing s with
  | nil => exact .refl hh
  | cons w ws ih =>
    have hw := busyWord_counted hh w
    unfold busyWords
    dsimp only
    split
    · exact hw
    · exact hw.trans (ih hw.hives)

/-- Whether the keeper gives a word up lies with the granules active and the free values. -/
theorem busyWords_of_active {v : State} (ha : v.active = s.active) (hfree : v.free = s.free) (ws : List Nat) :
    (busyWords ws v).2 = (busyWords ws s).2 := by
  induction ws generalizing s v with
  | nil => rfl
  | cons w ws ih =>
    unfold busyWords busyWord
    rw [ha, hfree]
    dsimp only
    split
    · split
      · rfl
      · exact ih ha (congrArg (· + 1) hfree)
    · exact ih ha hfree

/-- Words of granules that no capture channel has active meet no collision. -/
theorem busyWords_idle (h : ∀ w ∈ ws, ¬ 0 < tget 0 s.active (w / 32)) : busyWords ws s = (s, none) := by
  induction ws with
  | nil => rfl
  | cons w ws ih =>
    have hw : busyWord w s = (s, false) := by
      rw [busyWord, if_neg (by simp [h w List.mem_cons_self])]
    simp only [busyWords, hw, Bool.false_eq_true, if_false]
    exact ih fun v hv => h v (List.mem_cons_of_mem _ hv)

theorem BusyCounted.spanUe (h : BusyCounted s t) (ca len : Nat) : spanUe t ca len = spanUe s ca len := by
  have hue : t.combUe = s.combUe := (h.same.same .combMarks (by decide)).1
  have hword (w : Nat) : wordUe t w = wordUe s w := by
    obtain ⟨n, hn, -⟩ := h.hive (w / 32 / 8192)
    rw [wordUe, wordUe, granuleBad, granuleBad, hue, hn]
  rw [Machine.spanUe, Machine.spanUe, funext hword]

/-! ### The keeper's reads (R125, R134, R138) -/

/-- The keeper gives a span up: a word of it is uncorrectable, or collides in every round. -/
def readFails (s : State) (ca len : Nat) : Bool := spanUe s ca len || (busyWords (wordsOf ca len) s).2.isSome

theorem readFails_released (s : State) (x : Held) (ca len : Nat) : readFails (released s x) ca len = readFails s ca len := by
  rw [readFails, busyWords_of_active (s := s) (v := released s x) rfl rfl]
  rfl

theorem readFails_idle (ha : spanActive s ca len = false) : readFails s ca len = spanUe s ca len := by
  rw [readFails, busyWords_idle fun _ hw => wordIdle_of_span ha hw]
  simp

/-- What the keeper's read of a span leaves: error counters and collision counts, marks of corrected words, faults. -/
structure SpanRead (s t : State) : Prop where
  busy : ∀ v, (hiveAt s v).busy ≤ (hiveAt t v).busy ∨ (hiveAt t v).busy = 0xFFFFFFFF
  same : SameBut [.combMarks, .free, .hives, .faults] s t

theorem SpanRead.of_same (h : SpanRead s t) (h' : SameBut [.faults] t u) : SpanRead s u :=
  ⟨fun v => by rw [hiveAt_of_same h' (by decide)]; exact h.busy v, (h.same.andThen h').mono (by decide)⟩

theorem BusyCounted.read (h : BusyCounted s t) : SpanRead s t := by
  refine ⟨fun v => ?_, h.same.mono (by decide)⟩
  obtain ⟨n, hn, hrise⟩ := h.hive v
  rw [hn]
  exact hrise.not_lower

theorem SpanRead.words (h : SpanRead s t) (h' : WordsRead t u) : SpanRead s u := by
  refine ⟨fun v => ?_, (h.same.andThen h'.same).mono (by decide)⟩
  obtain ⟨_, _, _, hx⟩ := h'.hive v
  rw [hx]
  exact h.busy v

theorem combFault_same (s : State) (bit cls ca master acc : Nat) : SameBut [.faults] s (combFault s bit cls ca master acc) := raise_same ..

theorem ueData_same (s : State) (ca len master acc : Nat) : SameBut [.faults] s (ueData s ca len master acc) := by
  unfold ueData
  split
  · exact combFault_same ..
  · exact .refl _ s

/-- The keeper's read of a span: the bytes, or nothing where it gives the span up. -/
theorem keeperRead_effect (hh : twf {} s.hives = true) (hf : twf {} s.faults = true) (ca len master : Nat) :
    SpanRead s (keeperRead ca len master s).1 ∧
    (keeperRead ca len master s).2 = if readFails s ca len then none else some (memRead s.comb ca len) := by
  have hcount := busyWords_counted hh (wordsOf ca len)
  unfold keeperRead readFails
  generalize busyWords (wordsOf ca len) s = r at hcount ⊢
  obtain ⟨u, r⟩ := r
  have hfu : twf {} u.faults = true := (hcount.same.same .faults (by decide)) ▸ hf
  have hread := hcount.read.words (touchSpan_read hcount.hives hfu master 0 ca len)
  cases r with
  | some w => exact ⟨hcount.read.of_same (combFault_same ..), by simp⟩
  | none =>
    dsimp only
    rw [hcount.spanUe]
    cases spanUe s ca len with
    | true => exact ⟨hread.of_same (ueData_same ..), by simp⟩
    | false => exact ⟨hread, by simp⟩

/-- Where no granule of the span is active, nothing collides. -/
theorem keeperRead_idle (hh : twf {} s.hives = true) (hf : twf {} s.faults = true) (ha : spanActive s ca len = false) (master : Nat) :
    SameBut [.combMarks, .hives, .faults] s (keeperRead ca len master s).1 := by
  have hread := (touchSpan_read hh hf master 0 ca len).same
  unfold keeperRead
  rw [busyWords_idle fun _ hw => wordIdle_of_span ha hw]
  dsimp only
  split
  · exact (hread.andThen (ueData_same ..)).mono (by decide)
  · exact hread.mono (by decide)

end Sys2Proof.Arch

/-! The comb's reading commands, the region command and the end of a write (R125, R129, R134, R335, R387). -/

namespace Sys2Proof.Arch

open Sys2Proof Sys2Proof.Machine Sys2Proof.Safety Sys2Proof.Laws Sys2Proof.Scope

variable {s t u : State} {x : Held} {h : Hdr} {ca n : Nat}

/-! ### COMB_READ (R125, R134, R138) -/

/-- A read of ready banks and own regions answers the words, or an error where the keeper gives the span up. -/
theorem decCombRead_answers (hh : twf {} s.hives = true) (hf : twf {} s.faults = true) (hr : combReadyAt s ca (8 * n) = true)
    (ho : combOwned s x.ctx ca (8 * n) = true) :
    decCombRead x ca n s = finish (keeperRead ca (8 * n) 8 s).1 x 0x0111 (some (4, ca / 0x200000))
      (if readFails s ca (8 * n) = true then .memError else .ok)
      (if readFails s ca (8 * n) = true then [] else memRead s.comb ca (8 * n)) := by
  have hres := (keeperRead_effect hh hf ca (8 * n) 8).2
  unfold decCombRead
  dsimp only
  rw [if_neg (by simp [hr]), if_neg (by simp [ho])]
  generalize keeperRead ca (8 * n) 8 s = r at hres ⊢
  obtain ⟨v, r⟩ := r
  cases hfail : readFails s ca (8 * n) <;> simp only [hfail, if_true, if_false, Bool.false_eq_true] at hres <;> subst hres <;> rfl

/-- What a decided COMB_READ leaves. -/
structure CombReadDone (s : State) (x : Held) (ca n : Nat) (t : State) : Prop where
  replied : Replied s t x 0x0111 (if readFails s ca (8 * n) = true then .memError else .ok)
    (if readFails s ca (8 * n) = true then [] else memRead s.comb ca (8 * n))
  busy : ∀ v, (hiveAt s v).busy ≤ (hiveAt t v).busy ∨ (hiveAt t v).busy = 0xFFFFFFFF
  same : SameBut [.combMarks, .free, .hives, .faults, .mailboxes, .col] (released s x) t
  idle : spanActive s ca (8 * n) = false → SameBut [.combMarks, .hives, .faults, .mailboxes, .col] (released s x) t

theorem combRead_completes (hd : Decides s x (.combRead h ca n)) (hr : combReadyAt s ca (8 * n) = true)
    (ho : combOwned s x.ctx ca (8 * n) = true) : Completes .commandDecision s (CombReadDone s x ca n) := by
  refine completes_of_decides_plain hd (by simp) (fun _ _ => rfl) ?_
  rw [decideCmd, hd.cmd]
  dsimp only
  have hh : twf {} (released s x).hives = true := hd.canon.hives
  have hf : twf {} (released s x).faults = true := hd.canon.faults
  obtain ⟨hread, -⟩ := keeperRead_effect hh hf ca (8 * n) 8
  have hidle := fun ha => keeperRead_idle (ca := ca) (len := 8 * n) hh hf ha 8
  rw [decCombRead_answers hh hf hr ho, readFails_released]
  generalize (keeperRead ca (8 * n) 8 (released s x)).1 = v at hread hidle ⊢
  have hafter (st : Err) (r : List Byte) := (finish_same v hd.slot 0x0111 (some (4, ca / 0x200000)) st r).settled s
  refine ⟨?_, fun k => ?_, (hread.same.andThen (hafter ..)).mono (by decide),
    fun ha => ((hidle ha).andThen (hafter ..)).mono (by decide)⟩
  · exact replied_of_same hd.toLive ((released_same s x).andThen hread.same) (by decide) (by decide) _ _ _ _
  · rw [hiveAt_of_same (hafter ..) (by decide)]
    exact hread.busy k

/-! ### COMB_ACTIVE_READ (R134) -/

theorem combActiveRead_completes {hive bank first : Nat} (hd : Decides s x (.combActiveRead h hive bank first n))
    (hr : combReadyAt s (combAddr hive bank 0) 1 = true) : Completes .commandDecision s fun t =>
      Replied s t x 0x0115 .ok (activeBits s (combAddr hive bank 0 / 256 + first) n) ∧ SameBut [.mailboxes, .col] (released s x) t := by
  have hready : combReadyAt (released s x) (combAddr hive bank 0) 1 = true := hr
  refine completes_answer_plain (un := some (4, hive)) hd (by simp) (fun _ _ => rfl) ?_
  rw [decideCmd, hd.cmd]
  dsimp only
  rw [decCombActiveRead, if_neg (by simp [hready])]
  rfl

/-! ### COMB_REGION_SET (R129, R387) -/

theorem set_combOwn_same (s : State) (x : Tab Own) : SameBut [.combOwn] s { s with combOwn := x } :=
  ⟨fun p hp => by cases p <;> simp_all [Part.Same, ctxAt]⟩

/-- `SEC_EPOCH` counts and nothing else changes. -/
theorem bumpSec_same (s : State) : SameBut [] s (bumpSec s) :=
  ⟨fun p _ => by
    cases p with
    | sec => rfl
    | _ => simp [Part.Same, ctxAt]⟩

/-- Where a region of a bank begins. -/
def regionAddr (hive bank r : Nat) : Nat := combAddr hive bank (r * 0x10000)

/-- The owner of a region written, its changes counted. -/
def regionTaken (hive ca k : Nat) (o : Own) (s : State) : State :=
  let s1 := { s with combOwn := tset {} s.combOwn (ca / 0x10000) o }
  bumpSec (if (combRegion s ca).owner = k then s1 else bumpComb s1 [hive])

theorem regionTaken_same (hive ca k : Nat) (o : Own) (s : State) :
    SameBut [.hives] { s with combOwn := tset {} s.combOwn (ca / 0x10000) o } (regionTaken hive ca k o s) := by
  unfold regionTaken
  extract_lets s1
  have hcount : SameBut [.hives] s1 (if (combRegion s ca).owner = k then s1 else bumpComb s1 [hive]) :=
    .ite (fun _ => .refl _ s1) fun _ => bumpComb_same s1 _
  exact (hcount.andThen (bumpSec_same _)).mono (by decide)

/-- Where no granule of a region is active and its bank is ready, it takes its owner, unless it has it. -/
theorem decCombRegionSet_ready {hive bank r k secure : Nat} (ha : spanActive s (regionAddr hive bank r) 0x10000 = false)
    (hr : combReadyAt s (regionAddr hive bank r) 1 = true) : decCombRegionSet hive bank r k secure s =
      if combRegion s (regionAddr hive bank r) = ⟨k, secure = 1⟩ then s
      else regionTaken hive (regionAddr hive bank r) k ⟨k, secure = 1⟩ s := by
  unfold decCombRegionSet
  dsimp only
  rw [← regionAddr, ha, hr]
  simp only [Bool.not_true, Bool.false_eq_true, false_or]
  rfl

theorem combRegionSet_completes {hive bank r k secure : Nat} (hd : Decides s x (.combRegionSet h hive bank r k secure))
    (hca : regionAddr hive bank r = ca) (ha : spanActive s ca 0x10000 = false) (hr : combReadyAt s ca 1 = true) :
    Completes .commandDecision s fun t =>
      combRegion t ca = ⟨k, secure = 1⟩ ∧ (∀ a, a / 0x10000 ≠ ca / 0x10000 → combRegion t a = combRegion s a) ∧
      SameBut [.combOwn, .hives] (released s x) t := by
  subst hca
  refine completes_of_decides_plain hd (by simp) (fun _ _ => rfl) ?_
  rw [decideCmd, hd.cmd]
  dsimp only
  rw [decCombRegionSet_ready (s := released s x) ha hr]
  split
  next hown =>
    simp only [combRegion, settle_combOwn]
    exact ⟨hown, fun _ _ => rfl, (SameBut.refl _ _).settled s⟩
  next =>
    have htaken := regionTaken_same hive (regionAddr hive bank r) k ⟨k, secure = 1⟩ (released s x)
    have hown := htaken.same .combOwn (by decide)
    simp only [combRegion, settle_combOwn]
    rw [hown]
    exact ⟨tget_tset_same hd.canon.combOwn _ _, fun a hne => tget_tset_other _ _ hne _,
      (((set_combOwn_same _ _).andThen htaken).settled s).mono (by decide)⟩

/-! ### COMB_WRITE_DONE (R335) -/

/-- The writes of the keeper that COMB_WRITE_DONE answers. -/
def CombWriteCmd (c : Instr) : Prop := (∃ h ca n d, c = .segLoad h ca n d) ∨ ∃ h ca n p, c = .combFill h ca n p

/-- The oldest write of the keeper leaves its list and is answered. -/
theorem combWriteDone_answers {w : List Held} {op : Nat} {un : Option (Nat × Nat)} {r : List Byte} (hl : Live s)
    (ho : Oldest s CombWriteCmd x w) (he : combWriteDone s = finish { s with works := w } x op un .ok r) :
    Completes .combWriteDone s fun t => Replied s t x op .ok r ∧ SameBut [.mailboxes, .col] { s with works := w } t := by
  refine .of_act (f := combWriteDone) hl.alive rfl ?_
  rw [he]
  exact ⟨replied_of_same hl (set_works_same s w) (by decide) (by decide) _ _ _ _, (finish_same _ ho.1 ..).settled s⟩

/-- The test by which COMB_WRITE_DONE finds them. -/
def isCombWrite : Instr → Bool
  | .segLoad .. => true
  | .combFill .. => true
  | _ => false

theorem isCombWrite_iff (c : Instr) : isCombWrite c = true ↔ CombWriteCmd c := by cases c <;> simp [isCombWrite, CombWriteCmd]

theorem combWriteDone_segLoad {w : List Held} {d : List Byte} (ho : Oldest s CombWriteCmd x w) (hx : x.cmd = .segLoad h ca n d) :
    combWriteDone s = finish { s with works := w } x 0x0110 (some (4, ca / 0x200000)) .ok (le 4 n) := by
  obtain ⟨hfind, hend⟩ := findWork_oldest ho isCombWrite_iff
  unfold combWriteDone
  split
  next hnone => cases hfind.symm.trans hnone
  next y hy =>
    cases hfind.symm.trans hy
    rw [hx, hend]

theorem combWriteDone_combFill {w : List Held} {p : DWord} (ho : Oldest s CombWriteCmd x w) (hx : x.cmd = .combFill h ca n p) :
    combWriteDone s = finish { s with works := w } x 0x0112 (some (4, ca / 0x200000)) .ok [] := by
  obtain ⟨hfind, hend⟩ := findWork_oldest ho isCombWrite_iff
  unfold combWriteDone
  split
  next hnone => cases hfind.symm.trans hnone
  next y hy =>
    cases hfind.symm.trans hy
    rw [hx, hend]

/-- Settles O4: each reading command by what the keeper's read leaves, the region command by its region, the end of a write by the
oldest write. -/
theorem combReads : Obligations.CombReads := by
  unfold Obligations.CombReads
  refine ⟨fun s x h ca n hd hr ho hue ha => ?_, fun s x h ca n hd hr ho hue => ?_, fun s x h ca n hd hr ho hue => ?_,
    fun s x h hive bank first n hd hr => combActiveRead_completes hd hr,
    fun s x h hive bank r k secure hd => ?_,
    fun s x h ca n d w hl ho hx => combWriteDone_answers hl ho (combWriteDone_segLoad ho hx),
    fun s x h ca n p w hl ho hx => combWriteDone_answers hl ho (combWriteDone_combFill ho hx)⟩
  · obtain ⟨t, ht, hdone⟩ := combRead_completes hd hr ho
    have hreply := hdone.replied
    rw [readFails_idle ha, hue] at hreply
    exact ⟨t, ht, hreply, hdone.idle ha⟩
  · obtain ⟨t, ht, hdone⟩ := combRead_completes hd hr ho
    have hreply := hdone.replied
    rw [readFails, hue, Bool.false_or] at hreply
    exact ⟨t, ht, hreply, hdone.busy, hdone.same⟩
  · obtain ⟨t, ht, hdone⟩ := combRead_completes hd hr ho
    have hreply := hdone.replied
    rw [readFails, hue, Bool.true_or] at hreply
    exact ⟨t, ht, hreply, hdone.same⟩
  · intro ca ha hr
    exact combRegionSet_completes hd rfl ha hr

end Sys2Proof.Arch

/-! The comb's writing commands (R120, R121, R127, R134, R138, R473). -/

namespace Sys2Proof.Arch

open Sys2Proof Sys2Proof.Machine Sys2Proof.Safety Sys2Proof.Laws Sys2Proof.Scope

variable {s t u : State} {x : Held} {h : Hdr} {ca n op hive : Nat} {data : List Byte} {l : List Part}

/-! ### What a frame says of a work begun and of a hive's table size -/

theorem beginWork_same_of (hs : SameBut l s t) (hl : Part.works ∉ l) (x : Held) :
    SameBut l { s with works := s.works ++ [x] } (beginWork t x) := by
  refine ⟨fun p hp => ?_⟩
  cases p with
  | works => exact congrArg (· ++ [x]) (hs.same .works hl)
  | _ => exact hs.same _ hp

theorem setHives_same_of (hs : SameBut l s t) (hl : Part.hives ∉ l) (f : Tab Hive → Tab Hive) :
    SameBut l { s with hives := f s.hives } { t with hives := f t.hives } := by
  refine ⟨fun p hp => ?_⟩
  cases p with
  | hives => exact congrArg f (hs.same .hives hl)
  | _ => exact hs.same _ hp

/-! ### Bytes written -/

theorem length_le (n v : Nat) : (le n v).length = n := by
  induction n generalizing v with
  | zero => rfl
  | succ n ih => simp [le, ih]

theorem length_fillBytes (p : DWord) (n : Nat) : (fillBytes p n).length = 8 * n := by
  induction n with
  | zero => rfl
  | succ n ih => simp only [fillBytes, List.length_append, length_le, ih]; omega

/-- A fill repeats its pattern's bytes. -/
theorem fillBytes_getD (p : DWord) {n i : Nat} (hi : i < 8 * n) : (fillBytes p n).getD i 0 = (le 8 p.toNat).getD (i % 8) 0 := by
  induction n generalizing i with
  | zero => omega
  | succ n ih =>
    rw [fillBytes]
    by_cases hfirst : i < 8
    · rw [List.getD_append _ _ _ _ (by rwa [length_le]), Nat.mod_eq_of_lt hfirst]
    · rw [List.getD_append_right _ _ _ _ (by rw [length_le]; omega), length_le, ih (by omega), show (i - 8) % 8 = i % 8 by omega]

/-- What a memory holds after a span was written. -/
theorem memWrite_bytes {m : List Host.Cell} (hw : Memory.wf m = true) (ca : Nat) (data : List Byte) :
    (∀ i (hi : i < data.length), memByte (memWrite m ca data) (ca + i) = data[i]) ∧
    ∀ a, a < ca ∨ ca + data.length ≤ a → memByte (memWrite m ca data) a = memByte m a :=
  ⟨fun i hi => memByte_memWrite_in hw ca data i hi, fun _ ha => memByte_memWrite_out m ca data ha⟩

/-! ### SEG_LOAD and COMB_FILL (R121, R134) -/

/-- A host's write of ready banks, own regions and free granules is performed. -/
theorem hostWrite_performed {k : Nat} (hr : combReadyAt s ca data.length = true) (ho : combOwned s k ca data.length = true)
    (hfree : firstHeldGranule s ca data.length = none) (hue : rmwUe s ca data.length = none) :
    hostWrite s k ca data = (rmwStore s ca data 8, .ok, []) := by
  simp [hostWrite, hr, ho, hfree, hue]

theorem decWrite_performed (hr : combReadyAt s ca data.length = true) (ho : combOwned s x.ctx ca data.length = true)
    (hfree : firstHeldGranule s ca data.length = none) (hue : rmwUe s ca data.length = none) :
    decWrite x op ca data s = beginWork (rmwStore s ca data 8) x := by
  simp [decWrite, hostWrite_performed hr ho hfree hue]

/-- A decided write that is performed: its bytes are stored, and the keeper works on it until it is answered. -/
theorem hostWrite_completes {c : Instr} (hd : Decides s x c) (hn : ∀ g k, c ≠ .capTrigger g k) (hc : ∀ s k, actsOnCell s k c = false)
    (he : decideCmd x (released s x) = decWrite x op ca data (released s x)) (hr : combReadyAt s ca data.length = true)
    (ho : combOwned s x.ctx ca data.length = true) (hfree : firstHeldGranule s ca data.length = none)
    (hue : rmwUe s ca data.length = none) : Completes .commandDecision s fun t =>
      t.comb = memWrite s.comb ca data ∧
      SameBut [.comb, .combMarks, .faults, .grave, .hives] { released s x with works := s.works ++ [x] } t ∧
      (ca % 8 = 0 → data.length % 8 = 0 →
        SameBut [.comb, .combMarks, .grave] { released s x with works := s.works ++ [x] } t) := by
  refine completes_of_decides_plain hd hn hc ?_
  have hw := rmwStore_written (s := released s x) hd.canon.hives hd.canon.faults hfree 8
  have hwords := fun hca hlen => (rmwStore_stored (s := released s x) hca hlen hfree 8).same
  rw [he, decWrite_performed (s := released s x) hr ho hfree hue]
  generalize rmwStore (released s x) ca data 8 = v at hw hwords
  refine ⟨?_, (beginWork_same_of hw.same (by decide) x).settled s,
    fun hca hlen => (beginWork_same_of (hwords hca hlen) (by decide) x).settled s⟩
  rw [settle_comb]
  exact hw.comb

theorem segLoad_completes (hd : Decides s x (.segLoad h ca n data)) (hr : combReadyAt s ca data.length = true)
    (ho : combOwned s x.ctx ca data.length = true) (hfree : firstHeldGranule s ca data.length = none)
    (hue : rmwUe s ca data.length = none) : Completes .commandDecision s fun t =>
      (∀ i (hi : i < data.length), memByte t.comb (ca + i) = data[i]) ∧
      (∀ a, a < ca ∨ ca + data.length ≤ a → memByte t.comb a = memByte s.comb a) ∧
      SameBut [.comb, .combMarks, .faults, .grave, .hives] { released s x with works := s.works ++ [x] } t := by
  obtain ⟨t, ht, hcomb, hsame, -⟩ := hostWrite_completes (op := 0x0110) hd (by simp) (fun _ _ => rfl) (by rw [decideCmd, hd.cmd])
    hr ho hfree hue
  obtain ⟨hin, hout⟩ := memWrite_bytes hd.canon.comb ca data
  exact ⟨t, ht, hcomb ▸ hin, hcomb ▸ hout, hsame⟩

theorem combFill_completes {p : DWord} (hd : Decides s x (.combFill h ca n p)) (hr : combReadyAt s ca (8 * (n / 8)) = true)
    (ho : combOwned s x.ctx ca (8 * (n / 8)) = true) (hfree : firstHeldGranule s ca (8 * (n / 8)) = none) (hca : ca % 8 = 0) :
    Completes .commandDecision s fun t =>
      (∀ i, i < 8 * (n / 8) → memByte t.comb (ca + i) = (le 8 p.toNat).getD (i % 8) 0) ∧
      (∀ a, a < ca ∨ ca + 8 * (n / 8) ≤ a → memByte t.comb a = memByte s.comb a) ∧
      SameBut [.comb, .combMarks, .grave] { released s x with works := s.works ++ [x] } t := by
  have hlen := length_fillBytes p (n / 8)
  have hwhole : (fillBytes p (n / 8)).length % 8 = 0 := by omega
  rw [← hlen] at hr ho hfree
  obtain ⟨t, ht, hcomb, -, hsame⟩ := hostWrite_completes (op := 0x0112) hd (by simp) (fun _ _ => rfl) (by rw [decideCmd, hd.cmd])
    hr ho hfree (rmwUe_aligned hca hwhole)
  obtain ⟨hin, hout⟩ := memWrite_bytes hd.canon.comb ca (fillBytes p (n / 8))
  refine ⟨t, ht, fun i hi => ?_, fun a ha => ?_, hsame hca hwhole⟩
  · rw [hcomb, hin i (by omega), ← fillBytes_getD p hi, List.getD_eq_getElem _ _ (by omega)]
  · rw [hcomb, hout a (by omega)]

/-! ### COMB_ATOMIC (R127) -/

theorem combAtomic_completes {v : DWord} (hd : Decides s x (.combAtomic h ca op v)) (hr : combReadyAt s ca 8 = true)
    (ho : combOwned s x.ctx ca 8 = true) (hfree : firstHeldGranule s ca 8 = none) (hue : spanUe s ca 8 = false) :
    Completes .commandDecision s fun t =>
      Replied s t x 0x0113 .ok (le 8 (ofLe (memRead s.comb ca 8))) ∧
      memRead t.comb ca 8 = le 8 (if op = 0 then (BitVec.ofNat 64 (ofLe (memRead s.comb ca 8)) + v).toNat else v.toNat) ∧
      (∀ a, a < ca ∨ ca + 8 ≤ a → memByte t.comb a = memByte s.comb a) ∧
      SameBut [.comb, .combMarks, .grave, .hives, .faults, .mailboxes, .col] (released s x) t := by
  generalize hnew : le 8 (atomicResult op (BitVec.ofNat 64 (ofLe (memRead s.comb ca 8))) v).toNat = new
  have hlen : new.length = 8 := hnew ▸ length_le ..
  have he : decideCmd x (released s x) = finish (combStore (touchSpan 8 2 ca 8 (released s x)) ca new) x 0x0113
      (some (4, ca / 0x200000)) .ok (le 8 (ofLe (memRead s.comb ca 8))) := by
    rw [decideCmd, hd.cmd, ← hnew]
    dsimp only
    have hr' : combReadyAt (released s x) ca 8 = true := hr
    have ho' : combOwned (released s x) x.ctx ca 8 = true := ho
    have hfree' : firstHeldGranule (released s x) ca 8 = none := hfree
    have hue' : spanUe (released s x) ca 8 = false := hue
    rw [decCombAtomic, if_neg (by simp [hr']), if_neg (by simp [ho']), if_neg (by simp [hfree'])]
    exact if_neg (by simp [hue'])
  refine completes_of_decides_plain hd (by simp) (fun _ _ => rfl) ?_
  have hw := (touchSpan_read (s := released s x) hd.canon.hives hd.canon.faults 8 2 ca 8).stored (data := new) (by rwa [hlen])
  rw [he]
  generalize combStore (touchSpan 8 2 ca 8 (released s x)) ca new = u at hw ⊢
  have hafter := (finish_same u hd.slot 0x0113 (some (4, ca / 0x200000)) .ok (le 8 (ofLe (memRead s.comb ca 8)))).settled s
  have hcomb : (settle s (finish u x 0x0113 (some (4, ca / 0x200000)) .ok (le 8 (ofLe (memRead s.comb ca 8))))).comb =
      memWrite s.comb ca new := (hafter.same .comb (by decide)).trans hw.comb
  refine ⟨?_, ?_, fun a ha => ?_, (hw.same.andThen hafter).mono (by decide)⟩
  · exact replied_of_same hd.toLive ((released_same s x).andThen hw.same) (by decide) (by decide) _ _ _ _
  · have hread := memRead_memWrite hd.canon.comb ca new
    rw [hlen] at hread
    rw [hcomb, hread, ← hnew, atomicResult, apply_ite BitVec.toNat]
  · rw [hcomb, memByte_memWrite_out _ _ _ (by omega)]

/-! ### Source tables (R473) -/

theorem wordsOf_shorter {len : Nat} (hlen : n ≤ len) {w : Nat} (hw : w ∈ wordsOf ca n) : w ∈ wordsOf ca len := by
  rw [mem_wordsOf] at hw ⊢
  omega

/-- The zeros that SRC_TABLE_SET writes: the entries that the old table of `old` entries has not. -/
def newEntries (old n : Nat) : List Byte := List.replicate (32 * (n - old)) 0

theorem length_newEntries (old n : Nat) : (newEntries old n).length = 32 * (n - old) := List.length_replicate

/-- The zeros of a larger table stored; a table that does not grow stores nothing. -/
theorem newEntries_stored (old : Nat) (hfree : firstHeldGranule s ca (32 * n) = none) :
    SpanStored ca (newEntries old n) s (if old < n then combStore s ca (newEntries old n) else s) := by
  split
  · refine combStore_stored fun w hw => granuleBad_of_free hfree (wordsOf_shorter ?_ hw)
    rw [length_newEntries]
    omega
  · have hnil : newEntries old n = [] := by rw [newEntries, show 32 * (n - old) = 0 by omega]; rfl
    rw [hnil]
    exact ⟨rfl, .refl _ s⟩

/-- A table size written leaves the hive's readiness epoch. -/
theorem modHive_srcCount (s : State) (hive n : Nat) :
    modHive s hive (fun y => { y with srcCount := n }) = { s with hives := tmod {} s.hives hive fun y => { y with srcCount := n } } := by
  rw [modHive, putHive, if_pos ⟨rfl, rfl, rfl⟩]
  rfl

theorem srcTableSet_completes (hd : Decides s x (.srcTableSet h hive n)) (hb : tableBusy s hive = false)
    (hfree : firstHeldGranule s (tableAt hive n) (32 * n) = none) (ho : combOwned s x.ctx (tableAt hive n) (32 * n) = true)
    (hr : combReadyAt s (combAddr hive 0 0) 1 = true) : Completes .commandDecision s fun t =>
      (hiveAt t hive).srcCount = n ∧
      (∀ a, a < tableAt hive n ∨ tableAt hive n + 32 * (n - (hiveAt s hive).srcCount) ≤ a → memByte t.comb a = memByte s.comb a) ∧
      (∀ a, tableAt hive n ≤ a → a < tableAt hive n + 32 * (n - (hiveAt s hive).srcCount) → memByte t.comb a = 0) ∧
      SameBut [.comb, .combMarks, .grave]
        { released s x with hives := tmod {} s.hives hive fun y => { y with srcCount := n } } t := by
  generalize hold : (hiveAt s hive).srcCount = old
  have he : decideCmd x (released s x) = modHive (if old < n then combStore (released s x) (tableAt hive n) (newEntries old n)
      else released s x) hive fun y => { y with srcCount := n } := by
    have hb' : tableBusy (released s x) hive = false := hb
    have hfree' : firstHeldGranule (released s x) (tableAt hive n) (32 * n) = none := hfree
    have ho' : combOwned (released s x) x.ctx (tableAt hive n) (32 * n) = true := ho
    have hr' : combReadyAt (released s x) (combAddr hive 0 0) 1 = true := hr
    rw [decideCmd, hd.cmd, ← hold]
    dsimp only
    rw [decSrcTableSet, if_neg (by simp [hb', hfree', ho', hr'])]
    rfl
  have hw := newEntries_stored (s := released s x) (n := n) old hfree
  refine completes_of_decides_plain hd (by simp) (fun _ _ => rfl) ?_
  rw [he, modHive_srcCount]
  generalize (if old < n then combStore (released s x) (tableAt hive n) (newEntries old n) else released s x) = v at hw ⊢
  have hhives : v.hives = s.hives := hw.same.same .hives (by decide)
  have hcomb : (settle s { v with hives := tmod {} v.hives hive fun y => { y with srcCount := n } }).comb =
      memWrite s.comb (tableAt hive n) (newEntries old n) := (settle_comb ..).trans hw.comb
  obtain ⟨hin, hout⟩ := memWrite_bytes hd.canon.comb (tableAt hive n) (newEntries old n)
  rw [length_newEntries] at hout
  refine ⟨?_, hcomb ▸ hout, fun a hlo hhi => ?_,
    (setHives_same_of hw.same (by decide) fun hs => tmod {} hs hive fun y => { y with srcCount := n }).settled s⟩
  · rw [hiveAt, settle_hives]
    dsimp only
    rw [hhives, tget_tmod_same hd.canon.hives]
  · have hbyte := hin (a - tableAt hive n) (by rw [length_newEntries]; omega)
    rw [show tableAt hive n + (a - tableAt hive n) = a by omega] at hbyte
    rw [hcomb, hbyte]
    simp [newEntries]

theorem srcDescSet_completes {i : Nat} {d : BitVec 256} (hd : Decides s x (.srcDescSet h hive i d)) (hb : tableBusy s hive = false)
    (hi : i < (hiveAt s hive).srcCount) (hca : combAddr hive 0 (tableOff s hive + 32 * i) = ca) (hr : combReadyAt s ca 32 = true)
    (ho : combOwned s x.ctx ca 32 = true) (hfree : firstHeldGranule s ca 32 = none) (hue : rmwUe s ca 32 = none) :
    Completes .commandDecision s fun t =>
      memRead t.comb ca 32 = le 32 d.toNat ∧ (∀ a, a < ca ∨ ca + 32 ≤ a → memByte t.comb a = memByte s.comb a) ∧
      SameBut [.comb, .combMarks, .grave] (released s x) t := by
  have haligned : ca % 8 = 0 := by
    rw [← hca]
    simp only [combAddr, tableOff]
    rw [if_neg (by decide)]
    omega
  have hlen := length_le 32 d.toNat
  rw [← hlen] at hr ho hfree hue
  have he : decideCmd x (released s x) = rmwStore (released s x) ca (le 32 d.toNat) 8 := by
    have hb' : tableBusy (released s x) hive = false := hb
    have hi' : ¬ (hiveAt (released s x) hive).srcCount ≤ i := Nat.not_le.mpr hi
    have hca' : combAddr hive 0 (tableOff (released s x) hive + 32 * i) = ca := hca
    rw [decideCmd, hd.cmd]
    dsimp only
    rw [decSrcDescSet, if_neg (by simp [hb', hi']), hca', hostWrite_performed (s := released s x) hr ho hfree hue]
  have hw := rmwStore_stored (s := released s x) (data := le 32 d.toNat) haligned (by rw [hlen]) hfree 8
  refine completes_of_decides_plain hd (by simp) (fun _ _ => rfl) ?_
  rw [he, settle_comb, hw.comb]
  refine ⟨?_, fun a ha => memByte_memWrite_out _ _ _ (by rwa [hlen]), hw.same.settled s⟩
  have hread := memRead_memWrite hd.canon.comb ca (le 32 d.toNat)
  rwa [hlen] at hread

/-- Settles O3: each writing command by the span that it stores. -/
theorem combWrites : Obligations.CombWrites := by
  unfold Obligations.CombWrites
  exact ⟨fun _ _ _ _ _ _ => segLoad_completes, fun _ _ _ _ _ _ => combFill_completes, fun _ _ _ _ _ _ => combAtomic_completes,
    fun _ _ _ _ _ => srcTableSet_completes, fun _ _ _ _ _ _ hd hb hi => srcDescSet_completes hd hb hi rfl⟩

end Sys2Proof.Arch

/-! STANDBY's loss of the retained supply marks the field remaps as due (R136, R137, R394). -/

namespace Sys2Proof.Arch

open Sys2Proof Sys2Proof.Machine Sys2Proof.Safety Sys2Proof.Laws Sys2Proof.Scope

/-- A live block in STANDBY whose hive 0 is retained; its firmware has applied the field remaps since the banks were cleared. -/
def retainedBank : State := { dev := { remapsDue := false }, md := { mode := .standby }, hives := [(0, { power := 1 })] }

theorem retainedBank_live : Live retainedBank where
  alive := rfl
  canon := by constructor <;> rfl

/-- Whether the field remaps are due after a step. -/
def remapsDueAfter : Host.Outcome State Fault Refusal → Bool
  | .next t => t.dev.remapsDue
  | _ => false

/-- The banks wake as from Off, so the field remaps have to be applied again (R137). -/
theorem retainedBank_remaps : remapsDueAfter (exec .retainLoss retainedBank) = true := by decide +kernel

/-- Refutes O39: its clause on a loss of the retained supply says that the device unit is as it was, and R137 has the field remaps
applied again before the banks are used, which the model marks there as due. -/
theorem not_standbyEvents : ¬ Obligations.StandbyEvents := by
  unfold Obligations.StandbyEvents
  rintro ⟨-, -, -, -, -, -, -, -, -, hloss⟩
  obtain ⟨t, ht, -, -, -, -, -, -, -, -, -, -, hsame⟩ := hloss retainedBank 0 retainedBank_live rfl (by decide) (by decide)
  have hdev : t.dev = retainedBank.dev := hsame.same .dev (by decide)
  have hdue := retainedBank_remaps
  rw [ht] at hdue
  have hdue' : t.dev.remapsDue = true := hdue
  rw [hdev] at hdue'
  exact Bool.false_ne_true hdue'

end Sys2Proof.Arch

/-! The bulk aperture and SPI (R132, R292, R293, R323 to R325, R385). -/

namespace Sys2Proof.Arch

open Sys2Proof Sys2Proof.Machine Sys2Proof.Safety Sys2Proof.Laws Sys2Proof.Scope

variable {s t : State} {a ca o n k master id : Nat} {d : List Byte}

/-! ### Entries of the channels' command queues (R293) -/

theorem set_bus_same (s : State) (x : List Byte) : SameBut [.bus] s { s with bus := x } :=
  ⟨fun p hp => by cases p <;> simp_all [Part.Same, ctxAt]⟩

theorem set_bulk_same (s : State) (x : BulkOps) : SameBut [.bulk] s { s with bulk := x } :=
  ⟨fun p hp => by cases p <;> simp_all [Part.Same, ctxAt]⟩

theorem set_dmcs_same (s : State) (x : Tab Dmc) : SameBut [.dmcs] s { s with dmcs := x } :=
  ⟨fun p hp => by cases p <;> simp_all [Part.Same, ctxAt]⟩

theorem dramChannel_lt (s : State) (a : Nat) : dramChannel s a < 4 := by
  simp only [dramChannel, bits]
  (repeat' split) <;> omega

theorem queueEntry_eq (c : Nat) (e : DEntry) (s : State) :
    queueEntry c e s = { s with dmcs := tset {} s.dmcs c { dmcAt s c with queue := (dmcAt s c).queue ++ [e] } } := by
  simp [queueEntry, modDmc, putDmc]

theorem queueEntry_same (c : Nat) (e : DEntry) (s : State) : SameBut [.dmcs] s (queueEntry c e s) :=
  queueEntry_eq c e s ▸ set_dmcs_same s _

/-- The entry is the last of its channel's queue. -/
theorem queue_queueEntry_same (c : Nat) (e : DEntry) (s : State) :
    (dmcAt (queueEntry c e s) c).queue = (dmcAt s c).queue ++ [e] := by
  rw [queueEntry_eq, dmcAt, tget_tset_ne]
  intro h
  simpa using congrArg Dmc.queue h

theorem dmcAt_queueEntry_other {c j : Nat} (e : DEntry) (s : State) (h : j ≠ c) : dmcAt (queueEntry c e s) j = dmcAt s j := by
  rw [queueEntry_eq]
  exact tget_tset_other _ _ h _

theorem entryQueued_iff :
    entryQueued s master id = true ↔ ∃ c < 4, ∃ e ∈ (dmcAt s c).queue, e.master = master ∧ e.id = id := by
  simp [entryQueued, mem_upFrom]

/-- An entry queued stays queued when another one is. -/
theorem entryQueued_queueEntry {c : Nat} {e : DEntry} (h : entryQueued s master id = true) :
    entryQueued (queueEntry c e s) master id = true := by
  obtain ⟨j, hj, x, hx, hof⟩ := entryQueued_iff.mp h
  refine entryQueued_iff.mpr ⟨j, hj, x, ?_, hof⟩
  by_cases hjc : j = c
  · subst hjc
    rw [queue_queueEntry_same]
    exact List.mem_append_left _ hx
  · rwa [dmcAt_queueEntry_other e s hjc]

theorem entryQueued_queueEntry_self {c : Nat} (hc : c < 4) (e : DEntry) (s : State) :
    entryQueued (queueEntry c e s) e.master e.id = true :=
  entryQueued_iff.mpr ⟨c, hc, e, by simp [queue_queueEntry_same], rfl, rfl⟩

theorem queuePieces_same (e : DEntry) (a : Nat) (d : List Byte) (ps : List (Nat × Nat)) (s : State) :
    SameBut [.dmcs] s (queuePieces e a d ps s) :=
  SameBut.foldl (fun _ _ => queueEntry_same ..) ps s

theorem queuePieces_queued {e : DEntry} {ps : List (Nat × Nat)} (hps : ps ≠ []) (a : Nat) (d : List Byte) (s : State) :
    entryQueued (queuePieces e a d ps s) e.master e.id = true := by
  obtain ⟨p, ps, rfl⟩ := List.exists_cons_of_ne_nil hps
  exact foldl_keeps (P := fun u => entryQueued u e.master e.id = true) (fun _ _ h => entryQueued_queueEntry h) ps
    (entryQueued_queueEntry_self (dramChannel_lt ..) _ s)

theorem entryPieces_ne_nil (hn : 0 < n) : entryPieces a n ≠ [] := by
  rw [entryPieces, spanPages, if_neg (by omega), upFrom]
  simp

/-- A span that is ready has no channel OFFLINE. -/
theorem spanOffline_of_ready (h : spanReady s a n = true) : spanOffline s a n = false := by
  simp only [spanReady, dmcReady, List.all_eq_true, decide_eq_true_eq] at h
  simp only [spanOffline, List.any_eq_false, decide_eq_true_eq]
  intro c hc
  simp [h c hc]

theorem placeHost_queued {rd : Bool} (hn : 0 < n) (hr : spanReady s a n = true) (hroom : roomFor s (entryPieces a n) = true) :
    SameBut [.dmcs] s (placeHost master id a n rd d s) ∧ entryQueued (placeHost master id a n rd d s) master id = true := by
  unfold placeHost
  simp only [spanOffline_of_ready hr, Bool.false_eq_true, if_false, hroom, if_true]
  exact ⟨queuePieces_same .., queuePieces_queued (entryPieces_ne_nil hn) ..⟩

/-! ### DRAM through the aperture (R292, R293) -/

/-- The aperture has one access more. -/
def bulkAdded (rd : Bool) (master a n : Nat) (d : List Byte) (s : State) : State :=
  { s with bulk := { next := s.bulk.next + 1, ops := s.bulk.ops ++ [⟨s.bulk.next, rd, master, a, n, d⟩] } }

theorem waitingBulk_bulkAdded {rd : Bool} (hb : waitingBulk s = []) :
    waitingBulk (bulkAdded rd master a n d s) =
      if entryQueued s master s.bulk.next then [] else [⟨s.bulk.next, rd, master, a, n, d⟩] := by
  have hold : (s.bulk.ops.filter fun o => !entryQueued s o.master o.id) = [] := hb
  show (s.bulk.ops ++ [_]).filter (fun o : BulkOp => !entryQueued s o.master o.id) = _
  rw [List.filter_append, hold]
  cases h : entryQueued s master s.bulk.next <;> simp [h]

/-- Where nothing waits before it and there is room, an access of the aperture takes its entries at once. -/
theorem bulkOp_queued {rd : Bool} (hn : 0 < n) (hr : spanReady s a n = true) (hroom : roomFor s (entryPieces a n) = true)
    (hc : waitingCmds s = []) (hb : waitingBulk s = []) :
    SameBut [.dmcs] (bulkAdded rd master a n d s) (bulkOp rd master a n d s) ∧
    entryQueued (bulkOp rd master a n d s) master s.bulk.next = true := by
  have hcmds : waitingCmds (bulkAdded rd master a n d s) = [] := hc
  have hplace : bulkOp rd master a n d s = (waitingBulk (bulkAdded rd master a n d s)).foldl
      (fun s o => placeHost o.master o.id o.addr o.len o.read o.data s) (bulkAdded rd master a n d s) := by
    show placeHosts (bulkAdded rd master a n d s) = _
    rw [placeHosts, hcmds]
    rfl
  rw [hplace, waitingBulk_bulkAdded hb]
  split
  · exact ⟨.refl _ _, ‹_›⟩
  · exact placeHost_queued hn hr hroom

/-! ### What an access of the aperture reaches (R323, R385) -/

theorem completes_bulkWrite {P : State → Prop} (hl : Live s) (ho : o + d.length ≤ 2 ^ 32) (hp : P (settle s (bulkWrite o d s))) :
    Completes (.bulkApertureWrite o d) s P := by
  refine .of_act (f := bulkWrite o d) hl.alive ?_ hp
  show actOn (decide (o + d.length ≤ 2 ^ 32)) s _ = _
  rw [decide_eq_true ho]
  rfl

theorem completes_bulkRead {P : State → Prop} (hl : Live s) (ho : o + n ≤ 2 ^ 32) (hp : P (settle s (bulkRead o n s))) :
    Completes (.bulkApertureRead o n) s P := by
  refine .of_act (f := bulkRead o n) hl.alive ?_ hp
  show actOn (decide (o + n ≤ 2 ^ 32)) s _ = _
  rw [decide_eq_true ho]
  rfl

theorem bulkWrite_nowhere (ht : bulkTarget s (o / 0x10000000) (o % 0x10000000) = none) : bulkWrite o d s = s := by rw [bulkWrite, ht]

theorem bulkRead_nowhere (ht : bulkTarget s (o / 0x10000000) (o % 0x10000000) = none) : bulkRead o n s = busZero n s := by
  rw [bulkRead, ht]

theorem bulkWrite_comb (ht : bulkTarget s (o / 0x10000000) (o % 0x10000000) = some (2 ^ 40 + ca)) :
    bulkWrite o d s = ctxCombWrite (o / 0x10000000) 9 ca d s := by
  rw [bulkWrite, ht]
  show ctxWrite _ _ (combSpace + ca) _ _ = _
  rw [ctxWrite, if_neg (by omega), Nat.add_sub_cancel_left]

theorem bulkRead_comb (ht : bulkTarget s (o / 0x10000000) (o % 0x10000000) = some (2 ^ 40 + ca)) :
    bulkRead o n s = ctxCombRead (o / 0x10000000) 9 ca n s := by
  rw [bulkRead, ht]
  show ctxRead _ _ (combSpace + ca) _ _ = _
  rw [ctxRead, if_neg (by omega), Nat.add_sub_cancel_left]

theorem bulkWrite_dram (ht : bulkTarget s (o / 0x10000000) (o % 0x10000000) = some a) (ha : a < 2 ^ 40) :
    bulkWrite o d s = ctxDramWrite (o / 0x10000000) 9 a d s := by
  rw [bulkWrite, ht]
  exact if_pos ha

theorem bulkRead_dram (ht : bulkTarget s (o / 0x10000000) (o % 0x10000000) = some a) (ha : a < 2 ^ 40) :
    bulkRead o n s = ctxDramRead (o / 0x10000000) 9 a n s := by
  rw [bulkRead, ht]
  exact if_pos ha

/-! ### The comb through the aperture (R132) -/

theorem ctxCombWrite_performed (hp : combPresent s ca d.length = true) (ho : combOwned s k ca d.length = true)
    (hr : combReadyAt s ca d.length = true) (hfree : firstHeldGranule s ca d.length = none) (hue : rmwUe s ca d.length = none) :
    ctxCombWrite k master ca d s = rmwStore s ca d master := by
  simp [ctxCombWrite, hp, ho, hr, hfree, hue]

theorem ctxCombWrite_denied (h : combPresent s ca d.length = false ∨ combOwned s k ca d.length = false) :
    SameBut [.faults] s (ctxCombWrite k master ca d s) := by
  unfold ctxCombWrite
  dsimp only
  cases hp : combPresent s ca d.length with
  | false => exact raise_same ..
  | true =>
    rw [h.resolve_left (by simp [hp])]
    exact raise_same ..

theorem ctxCombRead_denied (h : combPresent s ca n = false ∨ combOwned s k ca n = false) :
    (ctxCombRead k master ca n s).bus = List.replicate n 0 ∧ SameBut [.bus, .faults] s (ctxCombRead k master ca n s) := by
  have hzero (bit : Nat) : SameBut [.bus, .faults] s (busZero n (combHostFault s bit ca master 0)) :=
    ((raise_same s _).andThen (set_bus_same _ _)).mono (by decide)
  unfold ctxCombRead
  cases hp : combPresent s ca n with
  | false => exact ⟨rfl, hzero 12⟩
  | true =>
    rw [h.resolve_left (by simp [hp])]
    exact ⟨rfl, hzero 6⟩

/-- A read that is permitted is answered with the keeper's bytes, or with zeros where it gives them up. -/
theorem ctxCombRead_performed (hl : Live s) (hp : combPresent s ca n = true) (ho : combOwned s k ca n = true)
    (hr : combReadyAt s ca n = true) : ctxCombRead k master ca n s =
      busReply (if readFails s ca n then List.replicate n 0 else memRead s.comb ca n) (keeperRead ca n master s).1 := by
  have hread := (keeperRead_effect hl.canon.hives hl.canon.faults ca n master).2
  simp only [ctxCombRead, hp, ho, hr, Bool.not_true, Bool.false_eq_true, if_false]
  generalize keeperRead ca n master s = r at hread ⊢
  obtain ⟨u, b⟩ := r
  dsimp only at hread
  subst hread
  cases readFails s ca n <;> rfl

theorem apertureCombWrite_completes (hl : Live s) (ho : o + d.length ≤ 2 ^ 32)
    (ht : bulkTarget s (o / 0x10000000) (o % 0x10000000) = some (2 ^ 40 + ca)) (hp : combPresent s ca d.length = true)
    (hown : combOwned s (o / 0x10000000) ca d.length = true) (hr : combReadyAt s ca d.length = true)
    (hfree : firstHeldGranule s ca d.length = none) (hue : rmwUe s ca d.length = none) :
    Completes (.bulkApertureWrite o d) s fun t =>
      (∀ i (hi : i < d.length), memByte t.comb (ca + i) = d[i]) ∧
      (∀ a, a < ca ∨ ca + d.length ≤ a → memByte t.comb a = memByte s.comb a) ∧
      SameBut [.comb, .combMarks, .grave, .hives, .faults] s t := by
  have hw := rmwStore_written hl.canon.hives hl.canon.faults hfree 9
  refine completes_bulkWrite hl ho ?_
  rw [bulkWrite_comb ht, ctxCombWrite_performed hp hown hr hfree hue]
  simp only [settle_comb, hw.comb]
  obtain ⟨hin, hout⟩ := memWrite_bytes hl.canon.comb ca d
  exact ⟨hin, hout, (hw.same.mono (by decide)).settled s⟩

theorem apertureCombWrite_denied (hl : Live s) (ho : o + d.length ≤ 2 ^ 32)
    (ht : bulkTarget s (o / 0x10000000) (o % 0x10000000) = some (2 ^ 40 + ca))
    (h : combPresent s ca d.length = false ∨ combOwned s (o / 0x10000000) ca d.length = false) :
    Completes (.bulkApertureWrite o d) s (SameBut [.faults] s) :=
  completes_bulkWrite hl ho (bulkWrite_comb ht ▸ (ctxCombWrite_denied h).settled s)

theorem apertureCombRead_completes (hl : Live s) (ho : o + n ≤ 2 ^ 32)
    (ht : bulkTarget s (o / 0x10000000) (o % 0x10000000) = some (2 ^ 40 + ca)) (hp : combPresent s ca n = true)
    (hown : combOwned s (o / 0x10000000) ca n = true) (hr : combReadyAt s ca n = true) :
    Completes (.bulkApertureRead o n) s fun t =>
      t.bus = (if spanUe s ca n = true ∨ (busyWords (wordsOf ca n) s).2.isSome = true then List.replicate n 0
        else memRead s.comb ca n) ∧
      SameBut [.bus, .combMarks, .hives, .faults, .free] s t := by
  have hread := (keeperRead_effect hl.canon.hives hl.canon.faults ca n 9).1
  refine completes_bulkRead hl ho ?_
  rw [bulkRead_comb ht, ctxCombRead_performed hl hp hown hr, settle_bus]
  refine ⟨?_, ((hread.same.andThen (set_bus_same _ _)).mono (by decide)).settled s⟩
  simp only [busReply, readFails, Bool.or_eq_true]

theorem apertureCombRead_idle (hl : Live s) (ho : o + n ≤ 2 ^ 32)
    (ht : bulkTarget s (o / 0x10000000) (o % 0x10000000) = some (2 ^ 40 + ca)) (hp : combPresent s ca n = true)
    (hown : combOwned s (o / 0x10000000) ca n = true) (hr : combReadyAt s ca n = true) (hue : spanUe s ca n = false)
    (ha : spanActive s ca n = false) :
    Completes (.bulkApertureRead o n) s fun t =>
      t.bus = memRead s.comb ca n ∧ SameBut [.bus, .combMarks, .hives, .faults] s t := by
  have hread := keeperRead_idle hl.canon.hives hl.canon.faults ha 9
  refine completes_bulkRead hl ho ?_
  rw [bulkRead_comb ht, ctxCombRead_performed hl hp hown hr, readFails_idle ha, hue, settle_bus]
  exact ⟨rfl, ((hread.andThen (set_bus_same _ _)).mono (by decide)).settled s⟩

theorem apertureCombRead_denied (hl : Live s) (ho : o + n ≤ 2 ^ 32)
    (ht : bulkTarget s (o / 0x10000000) (o % 0x10000000) = some (2 ^ 40 + ca))
    (h : combPresent s ca n = false ∨ combOwned s (o / 0x10000000) ca n = false) :
    Completes (.bulkApertureRead o n) s fun t => t.bus = List.replicate n 0 ∧ SameBut [.bus, .faults] s t := by
  obtain ⟨hbus, hsame⟩ := ctxCombRead_denied (master := 9) h
  refine completes_bulkRead hl ho ?_
  rw [bulkRead_comb ht, settle_bus]
  exact ⟨hbus, hsame.settled s⟩

/-! ### DRAM through the aperture: the clauses -/

theorem apertureDramRead_completes (hl : Live s) (ho : o + n ≤ 2 ^ 32) (ht : bulkTarget s (o / 0x10000000) (o % 0x10000000) = some a)
    (ha : a < 2 ^ 40) (hp : spanPresent s a n = true) (hown : dramOwned s (o / 0x10000000) a n = true)
    (hr : spanReady s a n = true) (hn : 0 < n) (hm : s.md.mode ≠ .standby) (hc : waitingCmds s = []) (hb : waitingBulk s = [])
    (hroom : roomFor s (entryPieces a n) = true) : Completes (.bulkApertureRead o n) s fun t =>
      t.bus = [] ∧ t.bulk = { next := s.bulk.next + 1, ops := s.bulk.ops ++ [⟨s.bulk.next, true, 9, a, n, []⟩] } ∧
      entryQueued t 9 s.bulk.next = true ∧ SameBut [.bus, .bulk, .dmcs] s t := by
  obtain ⟨hsame, hq⟩ := bulkOp_queued (s := busReply [] s) (rd := true) (master := 9) (d := []) hn hr hroom hc hb
  have hop : bulkRead o n s = bulkOp true 9 a n [] (busReply [] s) := by
    rw [bulkRead_dram ht ha, ctxDramRead, if_neg (by simp [hm]; omega)]
    simp [hp, hown, hr]
  refine completes_bulkRead hl ho ?_
  rw [hop, settle_bus, settle_bulk, entryQueued]
  simp only [dmcAt, settle_dmcs]
  refine ⟨hsame.same .bus (by decide), hsame.same .bulk (by decide), hq, ?_⟩
  have hbefore : SameBut [.bus, .bulk] s (bulkAdded true 9 a n [] (busReply [] s)) := (set_bus_same s _).andThen (set_bulk_same _ _)
  exact (hbefore.andThen hsame).settled s

theorem apertureDramWrite_completes (hl : Live s) (ho : o + d.length ≤ 2 ^ 32)
    (ht : bulkTarget s (o / 0x10000000) (o % 0x10000000) = some a) (ha : a < 2 ^ 40) (hp : spanPresent s a d.length = true)
    (hown : dramOwned s (o / 0x10000000) a d.length = true) (hr : spanReady s a d.length = true) (hn : 0 < d.length)
    (hm : s.md.mode ≠ .standby) (hc : waitingCmds s = []) (hb : waitingBulk s = [])
    (hroom : roomFor s (entryPieces a d.length) = true) : Completes (.bulkApertureWrite o d) s fun t =>
      t.bulk = { next := s.bulk.next + 1, ops := s.bulk.ops ++ [⟨s.bulk.next, false, 9, a, d.length, d⟩] } ∧
      entryQueued t 9 s.bulk.next = true ∧ SameBut [.bulk, .dmcs] s t := by
  obtain ⟨hsame, hq⟩ := bulkOp_queued (s := s) (rd := false) (master := 9) (d := d) hn hr hroom hc hb
  have hop : bulkWrite o d s = bulkOp false 9 a d.length d s := by
    rw [bulkWrite_dram ht ha, ctxDramWrite, if_neg (by simp [hm]; exact List.ne_nil_of_length_pos hn)]
    simp [hp, hown, hr]
  refine completes_bulkWrite hl ho ?_
  rw [hop, settle_bulk, entryQueued]
  simp only [dmcAt, settle_dmcs]
  exact ⟨hsame.same .bulk (by decide), hq, ((set_bulk_same s _).andThen hsame).settled s⟩

/-! ### SPI (R325) -/

theorem spiWrite_discarded {i : Nat} (hl : Live s) (h : i ≠ 2 ∨ 0x10000 ≤ a ∨ spiFits (a % 0x1000) d.length = false)
    (hm : (fltAt s .kpr).mask.getLsbD 7 = false) : Completes (.spiWrite i a d) s fun t =>
      (fltAt t .kpr).status.getLsbD 7 = true ∧ SameBut [.faults] { s with kpr := { s.kpr with spiSeen := true } } t := by
  have hflag : spiWrite i a d s = hostFault 7 0 65 0xC 1 (spiSeen s) := if_pos (by simpa using h)
  refine .of_act (f := spiWrite i a d) hl.alive rfl ?_
  rw [hflag, fltAt, settle_faults]
  exact ⟨raise_status (s := spiSeen s) (o := { block := .kpr, bit := 7, cls := 0, obj := 65, master := 0xC, acc := 1 })
    hl.canon.faults (by decide) hm, (raise_same ..).settled s⟩

theorem spiWrite_fitting (ha : a < 0x10000) (hf : spiFits (a % 0x1000) d.length = true) : spiWrite 2 a d s =
    if spiReaches s (a / 0x1000) then pageWrite (a / 0x1000) 0xC (a % 0x1000) d true (spiSeen s) else spiSeen s :=
  if_neg (by simp [hf]; omega)

theorem spiWrite_unreached (hl : Live s) (ha : a < 0x10000) (hf : spiFits (a % 0x1000) d.length = true)
    (hr : spiReaches s (a / 0x1000) = false) :
    Completes (.spiWrite 2 a d) s (SameBut [] { s with kpr := { s.kpr with spiSeen := true } }) := by
  refine .of_act (f := spiWrite 2 a d) hl.alive rfl ?_
  rw [spiWrite_fitting ha hf, hr]
  exact settle_same s (spiSeen s)

theorem spiWrite_completes {m : Nat} (hl : Live s) (hk : k < 16) (hm : m < 4) (ho : o + d.length ≤ 64) (hd : 0 < d.length)
    (hr : spiReaches s k = true) (hb : (mbAt s k m).busy = false) :
    Completes (.spiWrite 2 (0x1000 * k + 0x100 * m + o) d) s fun t =>
      (∀ i, i < 64 → (fit 64 (mbAt t k m).cmd).getD i 0 =
        if o ≤ i ∧ i < o + d.length then d.getD (i - o) 0 else (fit 64 (mbAt s k m).cmd).getD i 0) ∧
      (∀ e n, 4 * e + n ≠ 4 * k + m → mbAt t e n = mbAt s e n) ∧
      SameBut [.mailboxes] { s with kpr := { s.kpr with spiSeen := true } } t := by
  have hpage : (0x1000 * k + 0x100 * m + o) / 0x1000 = k := by omega
  have hat : (0x1000 * k + 0x100 * m + o) % 0x1000 = 0x100 * m + o := by omega
  have hfit : spiFits (0x100 * m + o) d.length = true := by
    simp only [spiFits, Bool.and_eq_true, Bool.or_eq_true, decide_eq_true_eq]
    omega
  have hw := foldl_cmdWritten (s := spiSeen s) (j := 0) hm 0xC d ho hl.canon.mailboxes hb
  refine .of_act (f := spiWrite 2 _ d) hl.alive rfl ?_
  rw [spiWrite_fitting (by omega) (by rwa [hat]), hpage, hat, hr, if_pos rfl, pageWrite_bytes k 0xC true _ fun n hn => by omega]
  simp only [mbAt_settle]
  exact ⟨hw.bytes, hw.others, hw.same.settled s⟩

theorem clearIrq_contexts (k : Nat) (s : State) :
    (clearIrq k s).contexts = tmod {} s.contexts k fun c => { c with irqStatus := 0 } := rfl

theorem ctxAt_clearIrq_same (hw : twf {} s.contexts = true) (k : Nat) :
    ctxAt (clearIrq k s) k = { ctxAt s k with irqStatus := 0 } := by
  rw [ctxAt, clearIrq_contexts, tget_tmod_same hw]
  rfl

theorem ctxAt_clearIrq_other {j : Nat} (s : State) (h : j ≠ k) : ctxAt (clearIrq k s) j = ctxAt s j := by
  rw [ctxAt, clearIrq_contexts, tget_tmod_other _ _ h]
  rfl

/-- The causes of those of the contexts `ks` that `hit` names are cleared. -/
def clearIrqs (hit : Nat → Bool) (ks : List Nat) (s : State) : State := ks.foldl (fun t k => if hit k then clearIrq k t else t) s

theorem clearIrqs_eq (hit : Nat → Bool) (ks : List Nat) (s : State) :
    clearIrqs hit ks s = { s with contexts := (clearIrqs hit ks s).contexts } := by
  refine foldl_keeps (P := fun u : State => u = { s with contexts := u.contexts }) (fun u k hu => ?_) ks rfl
  split
  · exact congrArg (fun v : State => { v with contexts := (clearIrq k u).contexts }) hu
  · exact hu

theorem ctxAt_clearIrqs (hit : Nat → Bool) (hw : twf {} s.contexts = true) (ks : List Nat) (j : Nat) :
    ctxAt (clearIrqs hit ks s) j = if j ∈ ks ∧ hit j then { ctxAt s j with irqStatus := 0 } else ctxAt s j := by
  induction ks generalizing s with
  | nil => simp [clearIrqs]
  | cons k ks ih =>
    show ctxAt (clearIrqs hit ks (if hit k then clearIrq k s else s)) j = _
    by_cases hk : hit k = true
    · rw [if_pos hk, ih (clearIrq_contexts k s ▸ twf_tmod hw ..)]
      by_cases hj : j = k
      · subst hj
        rw [ctxAt_clearIrq_same hw]
        simp [hk]
      · rw [ctxAt_clearIrq_other s hj]
        simp [hj]
    · rw [if_neg hk, ih hw]
      by_cases hj : j = k
      · subst hj
        simp [hk]
      · simp [hj]

/-- That SPI was seen, contexts and the bytes last read are watched by nothing. -/
theorem watchedSame_spi (s : State) (contexts : Tab Context) (bus : List Byte) :
    WatchedSame s { spiSeen s with contexts := contexts, bus := bus } := ⟨rfl, rfl, rfl, rfl, rfl, ⟨rfl, rfl⟩, rfl⟩

/-- A read of SPI covers the cause register of a context whose page it reaches. -/
def spiClears (s : State) (a n k : Nat) : Bool :=
  decide (a ≤ 0x1000 * k + 0x400 ∧ 0x1000 * k + 0x400 < a + n) && spiReaches s k

/-- SPI was seen, and answers bytes. -/
def spiReply (bytes : List Byte) (s : State) : State := { spiSeen s with bus := bytes }

theorem spiRead_eq (a n : Nat) (s : State) :
    spiRead a n s = clearIrqs (spiClears s a n) (upFrom 16 0) (spiReply ((upFrom n a).map (spiByte s)) s) := by
  simp only [spiRead, clearIrqs, spiClears, spiReply, Bool.and_eq_true, decide_eq_true_eq, and_assoc]

theorem spiRead_completes (hl : Live s) : Completes (.spiRead a n) s fun t =>
    t.bus = (upFrom n a).map (spiByte s) ∧ t.kpr.spiSeen = true ∧
    (∀ k, k < 16 → a ≤ 0x1000 * k + 0x400 → 0x1000 * k + 0x400 < a + n → spiReaches s k = true → (ctxAt t k).irqStatus = 0) ∧
    SameBut [.bus] { s with kpr := { s.kpr with spiSeen := true } } t := by
  have hat := ctxAt_clearIrqs (s := spiReply ((upFrom n a).map (spiByte s)) s) (spiClears s a n) hl.canon.contexts (upFrom 16 0)
  have heq := clearIrqs_eq (spiClears s a n) (upFrom 16 0) (spiReply ((upFrom n a).map (spiByte s)) s)
  refine .of_act (f := spiRead a n) hl.alive rfl ?_
  rw [spiRead_eq]
  generalize clearIrqs (spiClears s a n) (upFrom 16 0) (spiReply ((upFrom n a).map (spiByte s)) s) = u at hat heq ⊢
  have hsettle : settle s u = u := heq ▸ (watchedSame_spi s _ _).settle_eq
  rw [hsettle]
  refine ⟨heq ▸ rfl, heq ▸ rfl, fun k hk hlo hhi hr => ?_, ⟨fun p hp => ?_⟩⟩
  · rw [hat, if_pos ⟨mem_upFrom.mpr (by omega), by simp [spiClears, hlo, hhi, hr]⟩]
  · cases p with
    | bus => simp at hp
    | contexts =>
      refine ⟨heq ▸ rfl, fun k => ?_⟩
      rw [hat]
      split <;> rfl
    | _ => rw [heq]; simp [Part.Same, spiReply, spiSeen]

theorem spiIrqRead_completes (hl : Live s) : Completes .spiIrqRead s
    (SameBut [] { s with bus := le 2 (irqPending s), kpr := { s.kpr with spiSeen := true } }) :=
  .of_act (f := spiIrqRead) hl.alive rfl (settle_same s _)

theorem spiId_completes (hl : Live s) : Completes .spiId s
    (SameBut [] { s with bus := le 4 (deviceCaps s) ++ le 4 (modeState s), kpr := { s.kpr with spiSeen := true } }) :=
  .of_act (f := spiId) hl.alive rfl (settle_same s _)

/-- Settles O34: an access of the aperture is one of its window's context to the comb or to DRAM, and SPI's touch the registers of
their page. -/
theorem apertureEvents : Obligations.ApertureEvents := by
  unfold Obligations.ApertureEvents
  exact ⟨fun s _ _ hl ho ht => completes_bulkWrite hl ho (by rw [bulkWrite_nowhere ht]; exact settle_same s s),
    fun s _ _ hl ho ht => completes_bulkRead hl ho (by rw [bulkRead_nowhere ht]; exact settle_same s _),
    fun _ _ _ _ => apertureCombWrite_completes, fun _ _ _ _ => apertureCombWrite_denied, fun _ _ _ _ => apertureCombRead_idle,
    fun _ _ _ _ => apertureCombRead_completes, fun _ _ _ _ => apertureCombRead_denied,
    fun s _ _ _ hl ho ht ha => completes_bulkWrite hl ho (bulkWrite_dram ht ha ▸ settle_same s _),
    fun _ _ _ _ => apertureDramRead_completes, fun _ _ _ _ => apertureDramWrite_completes, fun _ _ _ _ => spiWrite_discarded,
    fun _ _ _ => spiWrite_unreached, fun _ _ _ _ _ => spiWrite_completes, fun _ _ _ => spiRead_completes,
    fun _ => spiIrqRead_completes, fun _ => spiId_completes⟩

end Sys2Proof.Arch

/-! Owners (R129, R290, R385 to R387): what each function of the model that an event can reach leaves of them, in the order of the
model's files. -/

namespace Sys2Proof.Arch

open Sys2Proof Sys2Proof.Machine Sys2Proof.Safety Sys2Proof.Laws Sys2Proof.Scope

/-- Cells, DRAM regions and comb regions have the same owners. -/
@[simp] abbrev SameOwners (s t : State) : Prop := t.cellOwn = s.cellOwn ∧ t.dramOwn = s.dramOwn ∧ t.combOwn = s.combOwn

theorem SameOwners.refl (s : State) : SameOwners s s := ⟨rfl, rfl, rfl⟩

theorem SameOwners.trans {s t u : State} (h : SameOwners s t) (h' : SameOwners t u) : SameOwners s u :=
  ⟨h'.1.trans h.1, h'.2.1.trans h.2.1, h'.2.2.trans h.2.2⟩

theorem SameOwners.of_same {l : List Part} {s t : State} (h : SameBut l s t)
    (hl : Part.cellOwn ∉ l ∧ Part.dramOwn ∉ l ∧ Part.combOwn ∉ l) : SameOwners s t :=
  ⟨h.same .cellOwn hl.1, h.same .dramOwn hl.2.1, h.same .combOwn hl.2.2⟩

/-! ### Owners under choices and repetition -/

@[simp] theorem ite_owners (p : Prop) [Decidable p] (s t : State) :
    (if p then s else t).cellOwn = (if p then s.cellOwn else t.cellOwn) ∧
    (if p then s else t).dramOwn = (if p then s.dramOwn else t.dramOwn) ∧
    (if p then s else t).combOwn = (if p then s.combOwn else t.combOwn) :=
  ⟨apply_ite .., apply_ite .., apply_ite ..⟩

@[simp] theorem foldl_owners {β : Type} {f : State → β → State} (h : ∀ s b, SameOwners s (f s b)) (l : List β) (s : State) :
    SameOwners s (l.foldl f s) :=
  foldl_keeps (P := SameOwners s) (fun u b hu => hu.trans (h u b)) l (.refl s)

@[simp] theorem forUp_owners {f : Nat → State → State} (h : ∀ i s, SameOwners s (f i s)) (n i : Nat) (s : State) :
    SameOwners s (forUp f n i s) :=
  forUp_keeps (P := SameOwners s) (fun i u hu => hu.trans (h i u)) n i (.refl s)

/-- Either of two effects that leave the owners. -/
theorem SameOwners.choice {f g : State → State} (hf : ∀ s, SameOwners s (f s)) (hg : ∀ s, SameOwners s (g s)) (p : Prop) [Decidable p]
    (s : State) : SameOwners s ((if p then f else g) s) := by
  split
  · exact hf s
  · exact hg s

/-! ### Keeper -/

@[simp] theorem tunnelOut_owners (port dir dest src rank frees frame s) :
    SameOwners s (tunnelOut port dir dest src rank frees frame s) := by
  simp [tunnelOut]

@[simp] theorem tunnelSent_owners (n s) : SameOwners s (tunnelSent n s) := by
  unfold tunnelSent
  split <;> simp

@[simp] theorem writeReply_owners (s ctx mb r0) : SameOwners s (writeReply s ctx mb r0) := by
  unfold writeReply
  split <;> simp

@[simp] theorem answer_owners (s ctx mb op seq st unit dec res) : SameOwners s (answer s ctx mb op seq st unit dec res) := by
  simp [answer]

@[simp] theorem reject_owners (s ctx mb op seq e unit res) : SameOwners s (reject s ctx mb op seq e unit res) := by simp [reject]
@[simp] theorem refusePost_owners (s ctx mb) : SameOwners s (refusePost s ctx mb) := by simp [refusePost]
@[simp] theorem dropAsm_owners (s ctx mb) : SameOwners s (dropAsm s ctx mb) := by simp [dropAsm]
@[simp] theorem holdCmd_owners (s x) : SameOwners s (holdCmd s x) := by simp [holdCmd]
@[simp] theorem firmwareRaise_owners (w s) : SameOwners s (firmwareRaise w s) := by simp [firmwareRaise]
@[simp] theorem diverge_owners (u s) : SameOwners s (diverge u s) := by simp [diverge]

theorem stored_owners (s : State) (h : Hdr) (c : Instr) (p : CSpec) : SameOwners s (stored s h c p) := by
  unfold stored
  split <;> simp [journaled]

@[simp] theorem findStale_owners (h p s) : SameOwners s (findStale h p s) := by
  rcases findStale_cases h p s with e | ⟨u, e⟩ <;> simp [e]

theorem accept_owners {p : CSpec} (ha : ∀ u, SameOwners u (p.onAccept u)) (s : State) (h : Hdr) (c : Instr) :
    SameOwners s (accept s h c p) := by
  rw [accept_eq]
  split <;> simp [ha, stored_owners]

theorem judge_owners {p : CSpec} (hr : ∀ u, SameOwners u (p.onReject u)) (ha : ∀ u, SameOwners u (p.onAccept u)) (s : State) (h : Hdr)
    (c : Instr) : SameOwners s (judge s h c p) := by
  unfold judge
  split
  · simp
  · dsimp only
    split
    · simp [hr]
    · exact (findStale_owners h p s).trans (accept_owners ha ..)

theorem submit_owners {p : CSpec} (hr : ∀ u, SameOwners u (p.onReject u)) (ha : ∀ u, SameOwners u (p.onAccept u)) (h : Hdr) (c : Instr)
    (s : State) : SameOwners s (submit h c p s) := by
  simp [submit, judge_owners hr ha]

@[simp] theorem finish_owners (s x op unit st res) : SameOwners s (finish s x op unit st res) := by simp [finish]
@[simp] theorem endWork_owners (s x) : SameOwners s (endWork s x) := by simp [endWork]

/-! ### AuxOut -/

@[simp] theorem auxSet_owners (a code t s) : SameOwners s (auxSet a code t s) := by simp [auxSet]
@[simp] theorem auxClearAll_owners (s) : SameOwners s (auxClearAll s) := by simp [auxClearAll]
@[simp] theorem auxReadbackDone_owners (a meas s) : SameOwners s (auxReadbackDone a meas s) := by
  unfold auxReadbackDone
  split <;> simp

@[simp] theorem auxClrAssert_owners (s) : SameOwners s (auxClrAssert s) := by simp [auxClrAssert]
@[simp] theorem auxClrRelease_owners (s) : SameOwners s (auxClrRelease s) := by simp [auxClrRelease]
@[simp] theorem auxSlewStep_owners (a s) : SameOwners s (auxSlewStep a s) := by
  unfold auxSlewStep
  split <;> simp

@[simp] theorem deglitchHoldEnd_owners (a s) : SameOwners s (deglitchHoldEnd a s) := by
  unfold deglitchHoldEnd
  split <;> simp

@[simp] theorem auxShort_owners (a active s) : SameOwners s (auxShort a active s) := by simp [auxShort]

/-! ### Comb -/

@[simp] theorem touchWord_owners (master acc w s) : SameOwners s (touchWord master acc w s) := by simp [touchWord]
@[simp] theorem touchSpan_owners (master acc ca len s) : SameOwners s (touchSpan master acc ca len s) := by simp [touchSpan]
@[simp] theorem combFault_owners (s bit cls ca master acc) : SameOwners s (combFault s bit cls ca master acc) := by simp [combFault]
@[simp] theorem ueData_owners (s ca len master acc) : SameOwners s (ueData s ca len master acc) := by
  unfold ueData
  split <;> simp

@[simp] theorem markWord_owners (w s) : SameOwners s (markWord w s) := by
  unfold markWord
  split <;> simp

@[simp] theorem combStore_owners (s ca data) : SameOwners s (combStore s ca data) := by simp [combStore]
@[simp] theorem rmwStore_owners (s ca data master) : SameOwners s (rmwStore s ca data master) := by simp [rmwStore]
@[simp] theorem addBusy_owners (h n s) : SameOwners s (addBusy h n s) := by simp [addBusy]
@[simp] theorem busyWord_owners (w : Nat) (s : State) : SameOwners s (busyWord w s).1 := by
  unfold busyWord
  split <;> simp

@[simp] theorem busyWords_owners (ws : List Nat) (s : State) : SameOwners s (busyWords ws s).1 := by
  induction ws generalizing s with
  | nil => exact .refl s
  | cons w ws ih =>
    unfold busyWords
    dsimp only
    split <;> simp [ih]

@[simp] theorem keeperRead_owners (ca len master : Nat) (s : State) : SameOwners s (keeperRead ca len master s).1 := by
  have hb := busyWords_owners (wordsOf ca len) s
  unfold keeperRead
  split
  next h => simpa [h] using hb
  next h =>
    rw [h] at hb
    dsimp only
    split <;> simpa using hb

@[simp] theorem modInner_owners (scr f s) : SameOwners s (modInner scr f s) := by simp [modInner]
@[simp] theorem touchInner_owners (scr master w s) : SameOwners s (touchInner scr master w s) := by simp [touchInner]
@[simp] theorem markInner_owners (scr ws s) : SameOwners s (markInner scr ws s) := by simp [markInner]
@[simp] theorem bumpComb_owners (s hs) : SameOwners s (bumpComb s hs) := by simp [bumpComb]
@[simp] theorem activate_owners (s areas) : SameOwners s (activate s areas) := by simp [activate]
@[simp] theorem deactivate_owners (s areas) : SameOwners s (deactivate s areas) := by simp [deactivate]
@[simp] theorem combWriteDone_owners (s) : SameOwners s (combWriteDone s) := by
  unfold combWriteDone
  (repeat' split) <;> simp

/-! ### Dram -/

@[simp] theorem dmcFault_owners (s bit cls a master acc) : SameOwners s (dmcFault s bit cls a master acc) := by simp [dmcFault]
@[simp] theorem dmcChanFault_owners (s bit cls c) : SameOwners s (dmcChanFault s bit cls c) := by simp [dmcChanFault]
@[simp] theorem freezeLine_owners (master acc line s) : SameOwners s (freezeLine master acc line s) := by simp [freezeLine]
@[simp] theorem touchLine_owners (master acc line s) : SameOwners s (touchLine master acc line s) := by simp [touchLine]
@[simp] theorem touchLines_owners (master acc a len s) : SameOwners s (touchLines master acc a len s) := by simp [touchLines]
@[simp] theorem markLine_owners (line s) : SameOwners s (markLine line s) := by
  unfold markLine
  split <;> simp

@[simp] theorem dramStore_owners (s a data) : SameOwners s (dramStore s a data) := by simp [dramStore]
@[simp] theorem dramHostWrite_owners (master a : Nat) (data : List Byte) (s : State) : SameOwners s (dramHostWrite master a data s).1 := by
  unfold dramHostWrite
  dsimp only
  split <;> simp

@[simp] theorem queueEntry_owners (c e s) : SameOwners s (queueEntry c e s) := by simp [queueEntry]
@[simp] theorem queuePieces_owners (e a data ps s) : SameOwners s (queuePieces e a data ps s) := by simp [queuePieces]
@[simp] theorem journalWrite_owners (c s) : SameOwners s (journalWrite c s) := by simp [journalWrite]
@[simp] theorem journalWritten_owners (n s) : SameOwners s (journalWritten n s) := by simp [journalWritten]
@[simp] theorem journalLose_owners (c s) : SameOwners s (journalLose c s) := by simp [journalLose]
@[simp] theorem flushed_owners (i s) : SameOwners s (flushed i s) := by simp [flushed]
@[simp] theorem closed_owners (i s) : SameOwners s (closed i s) := by simp [closed]
@[simp] theorem queueWork_owners (i s) : SameOwners s (queueWork i s) := by
  unfold queueWork
  (repeat' split) <;> simp

@[simp] theorem failQueue_owners (i err s) : SameOwners s (failQueue i err s) := by simp [failQueue]
@[simp] theorem dropBlock_owners (i b s) : SameOwners s (dropBlock i b s) := by simp [dropBlock]
@[simp] theorem offlineQueue_owners (i s) : SameOwners s (offlineQueue i s) := by simp [offlineQueue]
@[simp] theorem endDramCmd_owners (x e img s) : SameOwners s (endDramCmd x e img s) := by
  unfold endDramCmd
  split <;> simp

@[simp] theorem endBulk_owners (id e img s) : SameOwners s (endBulk id e img s) := by
  unfold endBulk
  split <;> simp

@[simp] theorem endHost_owners (e err img s) : SameOwners s (endHost e err img s) := by
  unfold endHost
  (repeat' split) <;> simp

@[simp] theorem hostPiece_owners (e err img s) : SameOwners s (hostPiece e err img s) := by simp [hostPiece]
@[simp] theorem hostServed_owners (e : DEntry) (s : State) : SameOwners s (hostServed e s) := by
  simp [hostServed]

@[simp] theorem placeHost_owners (master id a len rd data s) : SameOwners s (placeHost master id a len rd data s) := by simp [placeHost]
@[simp] theorem placeHosts_owners (s : State) : SameOwners s (placeHosts s) := by
  unfold placeHosts
  dsimp only
  refine (foldl_owners (fun u x => ?_) _ s).trans (foldl_owners (fun u o => placeHost_owners ..) _ _)
  split <;> simp

@[simp] theorem capDrain_owners (c s) : SameOwners s (capDrain c s) := by simp [capDrain]
@[simp] theorem journalRun_owners (c r s) : SameOwners s (journalRun c r s) := by simp [journalRun]
@[simp] theorem abandon_owners (c s) : SameOwners s (abandon c s) := by simp [abandon]
@[simp] theorem recOffline_owners (c a s) : SameOwners s (recOffline c a s) := by simp [recOffline]
@[simp] theorem failEntry_owners (e s) : SameOwners s (failEntry e s) := by
  unfold failEntry
  split <;> simp

@[simp] theorem failWaiting_owners (s) : SameOwners s (failWaiting s) := by simp [failWaiting]
@[simp] theorem goOffline_owners (c s) : SameOwners s (goOffline c s) := by simp [goOffline]
@[simp] theorem blockEnds_owners (c s) : SameOwners s (blockEnds c s) := by simp [blockEnds]
@[simp] theorem trained_owners (c margin kind s) : SameOwners s (trained c margin kind s) := by simp [trained]
@[simp] theorem startTraining_owners (c kind s) : SameOwners s (startTraining c kind s) := by simp [startTraining]
@[simp] theorem inService_owners (c s) : SameOwners s (inService c s) := by simp [inService]
@[simp] theorem trackTrigger_owners (c s) : SameOwners s (trackTrigger c s) := by simp [trackTrigger]
@[simp] theorem retrainReply_owners (c e s) : SameOwners s (retrainReply c e s) := by
  unfold retrainReply
  split <;> simp

@[simp] theorem configReply_owners (s) : SameOwners s (configReply s) := by
  unfold configReply
  split <;> simp

@[simp] theorem trainingEnds_owners (c found margin s) : SameOwners s (trainingEnds c found margin s) := by simp [trainingEnds]
@[simp] theorem dramTrainingDone_owners (c pass margin s) : SameOwners s (dramTrainingDone c pass margin s) := by
  simp [dramTrainingDone]

@[simp] theorem dramClearDone_owners (c s) : SameOwners s (dramClearDone c s) := by simp [dramClearDone]
@[simp] theorem trackDone_owners (c pass margin s) : SameOwners s (trackDone c pass margin s) := by
  unfold trackDone
  dsimp only
  (repeat' split) <;> simp

@[simp] theorem tjMove_owners (c s) : SameOwners s (tjMove c s) := by simp [tjMove]
@[simp] theorem ceLimitReached_owners (c s) : SameOwners s (ceLimitReached c s) := by simp [ceLimitReached]
@[simp] theorem trackTimer_owners (c s) : SameOwners s (trackTimer c s) := by simp [trackTimer]
@[simp] theorem caParity_owners (c s) : SameOwners s (caParity c s) := by simp [caParity]
@[simp] theorem serveBurst_owners (s c e) : SameOwners s (serveBurst s c e) := by simp [serveBurst]
@[simp] theorem refreshRank_owners (c rank forced s) : SameOwners s (refreshRank c rank forced s) := by simp [refreshRank]
@[simp] theorem scrubBurst_owners (c s) : SameOwners s (scrubBurst c s) := by simp [scrubBurst]
@[simp] theorem commandSlot_owners (c s) : SameOwners s (commandSlot c s) := by
  unfold commandSlot
  dsimp only
  (repeat' split) <;> simp

@[simp] theorem dramCommandSlot_owners (c s) : SameOwners s (dramCommandSlot c s) := by simp [dramCommandSlot]
@[simp] theorem entryData_owners (e s) : SameOwners s (entryData e s) := by
  unfold entryData
  split <;> simp

@[simp] theorem placeBlock_owners (i b s) : SameOwners s (placeBlock i b s) := by simp [placeBlock]
@[simp] theorem placeOne_owners (i b s) : SameOwners s (placeOne i b s) := by simp [placeOne]
@[simp] theorem placeWaiting_owners (s) : SameOwners s (placeWaiting s) := by simp [placeWaiting]
@[simp] theorem entryComplete_owners (c i s) : SameOwners s (entryComplete c i s) := by
  unfold entryComplete
  split <;> simp

@[simp] theorem dramEntryDone_owners (c i s) : SameOwners s (dramEntryDone c i s) := by
  unfold dramEntryDone
  split <;> simp

@[simp] theorem refreshDue_owners (c rank s) : SameOwners s (refreshDue c rank s) := by simp [refreshDue]
@[simp] theorem pageIdleClose_owners (c rank bank s) : SameOwners s (pageIdleClose c rank bank s) := by simp [pageIdleClose]
@[simp] theorem powerDownEntry_owners (c rank s) : SameOwners s (powerDownEntry c rank s) := by simp [powerDownEntry]
@[simp] theorem dmcWake_owners (s) : SameOwners s (dmcWake s) := by simp [dmcWake]
@[simp] theorem dmcApply_owners (chans interleave ctxBase age margin trackH ce s) :
    SameOwners s (dmcApply chans interleave ctxBase age margin trackH ce s) := by
  simp [dmcApply]

/-! ### Access -/

@[simp] theorem combHostFault_owners (s bit ca master acc) : SameOwners s (combHostFault s bit ca master acc) := by simp [combHostFault]
@[simp] theorem dramHostFault_owners (s bit a master acc) : SameOwners s (dramHostFault s bit a master acc) := by simp [dramHostFault]
@[simp] theorem ctxCombWrite_owners (k master ca data s) : SameOwners s (ctxCombWrite k master ca data s) := by
  unfold ctxCombWrite
  dsimp only
  (repeat' split) <;> simp

@[simp] theorem busReply_owners (bytes s) : SameOwners s (busReply bytes s) := by simp [busReply]
@[simp] theorem busZero_owners (n s) : SameOwners s (busZero n s) := by simp [busZero]
@[simp] theorem ctxCombRead_owners (k master ca n : Nat) (s : State) : SameOwners s (ctxCombRead k master ca n s) := by
  have hr := keeperRead_owners ca n master s
  unfold ctxCombRead
  split
  · simp
  · split
    · simp
    · split
      · simp
      · split <;> simp_all

@[simp] theorem bulkOp_owners (rd master a n data s) : SameOwners s (bulkOp rd master a n data s) := by simp [bulkOp]
@[simp] theorem ctxDramWrite_owners (k master a : Nat) (data : List Byte) (s : State) : SameOwners s (ctxDramWrite k master a data s) := by
  simp [ctxDramWrite]

@[simp] theorem ctxDramRead_owners (k master a n s) : SameOwners s (ctxDramRead k master a n s) := by simp [ctxDramRead]
@[simp] theorem ctxWrite_owners (k master addr data s) : SameOwners s (ctxWrite k master addr data s) := by simp [ctxWrite]
@[simp] theorem ctxRead_owners (k master addr n s) : SameOwners s (ctxRead k master addr n s) := by simp [ctxRead]

/-! ### CalStore -/

@[simp] theorem setSpares_owners (index l s) : SameOwners s (setSpares index l s) := by simp [setSpares]
@[simp] theorem groomFail_owners (index granule s) : SameOwners s (groomFail index granule s) := by simp [groomFail]
@[simp] theorem fieldMap_owners (index s) : SameOwners s (fieldMap index s) := by simp [fieldMap]

/-! ### CtxCache -/

@[simp] theorem modLine_owners (k f s) : SameOwners s (modLine k f s) := by simp [modLine]
@[simp] theorem ctxFill_owners (i s) : SameOwners s (ctxFill i s) := by
  unfold ctxFill
  dsimp only
  (repeat' split) <;> simp

@[simp] theorem ctxTouch_owners (i s) : SameOwners s (ctxTouch i s) := by
  unfold ctxTouch
  (repeat' split) <;> simp

@[simp] theorem ctxLock_owners (i s) : SameOwners s (ctxLock i s) := by
  unfold ctxLock
  dsimp only
  split <;> simp

@[simp] theorem ctxUnlock_owners (i s) : SameOwners s (ctxUnlock i s) := by
  unfold ctxUnlock
  split <;> simp

/-! ### Waggle -/

@[simp] theorem produce_owners (s src origin level gen taint) : SameOwners s (produce s src origin level gen taint) := by simp [produce]
@[simp] theorem wagFault_owners (s bit cls obj owner) : SameOwners s (wagFault s bit cls obj owner) := by simp [wagFault]
@[simp] theorem taskReceive_owners (now t ev s) : SameOwners s (taskReceive now t ev s) := by simp [taskReceive]
@[simp] theorem colDue_owners (s port f) : SameOwners s (colDue s port f) := by simp [colDue]
@[simp] theorem colonySend_owners (s ev dev) : SameOwners s (colonySend s ev dev) := by simp [colonySend]
@[simp] theorem chanReceive_owners (now w ev0 inj s) : SameOwners s (chanReceive now w ev0 inj s) := by simp [chanReceive]
@[simp] theorem hopDone_owners (s h) : SameOwners s (hopDone s h) := by
  unfold hopDone
  split <;> simp

@[simp] theorem eventHop_owners (s) : SameOwners s (eventHop s) := by
  unfold eventHop
  split <;> simp

@[simp] theorem routeSet_owners (i s) : SameOwners s (routeSet i s) := by
  unfold routeSet
  split <;> simp

@[simp] theorem bumpWag_owners (s) : SameOwners s (bumpWag s) := by simp [bumpWag]
@[simp] theorem drivePin_owners (p f s) : SameOwners s (drivePin p f s) := by simp [drivePin]
@[simp] theorem pinIdle_owners (p s) : SameOwners s (pinIdle p s) := by simp [pinIdle]
@[simp] theorem pinsToIdle_owners (s) : SameOwners s (pinsToIdle s) := by simp [pinsToIdle]
@[simp] theorem evpEdge_owners (pin level s) : SameOwners s (evpEdge pin level s) := by simp [evpEdge]
@[simp] theorem pinPulseEnd_owners (p s) : SameOwners s (pinPulseEnd p s) := by
  unfold pinPulseEnd
  split <;> simp

@[simp] theorem tickTimerExpiry_owners (i s) : SameOwners s (tickTimerExpiry i s) := by simp [tickTimerExpiry]

/-! ### Walk -/

@[simp] theorem replayMismatch_owners (c g pieces other s) : SameOwners s (replayMismatch c g pieces other s) := by
  simp [replayMismatch]

@[simp] theorem sigClose_owners (c s) : SameOwners s (sigClose c s) := by
  unfold sigClose
  dsimp only
  (repeat' split) <;> simp

@[simp] theorem sigAdd_owners (c tick word missing late s) : SameOwners s (sigAdd c tick word missing late s) := by simp [sigAdd]
@[simp] theorem markerEdges_owners (c origin old new s) : SameOwners s (markerEdges c origin old new s) := by simp [markerEdges]
@[simp] theorem deliver_owners (c tick b marks low missing late s) : SameOwners s (deliver c tick b marks low missing late s) := by
  simp [deliver]

@[simp] theorem bridgeSample_owners (c tick late s) : SameOwners s (bridgeSample c tick late s) := by simp [bridgeSample]
@[simp] theorem queueRelease_owners (q s) : SameOwners s (queueRelease q s) := by simp [queueRelease]
@[simp] theorem releaseAreas_owners (a s) : SameOwners s (releaseAreas a s) := by simp [releaseAreas]
@[simp] theorem releaseArm_owners (c s) : SameOwners s (releaseArm c s) := by
  unfold releaseArm
  dsimp only
  split <;> simp

@[simp] theorem releaseTable_owners (hive s) : SameOwners s (releaseTable hive s) := by simp [releaseTable]
@[simp] theorem endGap_owners (c s) : SameOwners s (endGap c s) := by simp [endGap]
@[simp] theorem endLate_owners (c s) : SameOwners s (endLate c s) := by simp [endLate]
@[simp] theorem toBound_owners (c st s) : SameOwners s (toBound c st s) := by simp [toBound]
@[simp] theorem countMissing_owners (c tick q dry s) : SameOwners s (countMissing c tick q dry s) := by simp [countMissing]
@[simp] theorem countLate_owners (c s) : SameOwners s (countLate c s) := by simp [countLate]
@[simp] theorem takeNext_owners (c s) : SameOwners s (takeNext c s) := by
  unfold takeNext
  dsimp only
  split <;> simp

@[simp] theorem applyAdv_owners (c tick v s) : SameOwners s (applyAdv c tick v s) := by simp [applyAdv]
@[simp] theorem stepQueue_owners (q s) : SameOwners s (stepQueue q s) := by
  unfold stepQueue
  split <;> simp

@[simp] theorem segStart_owners (c tick st s) : SameOwners s (segStart c tick st s) := by simp [segStart]
@[simp] theorem ueStop_owners (c tick ca s) : SameOwners s (ueStop c tick ca s) := by simp [ueStop]
@[simp] theorem runSample_owners (c tick : Nat) (late : Bool) (s : State) : SameOwners s (runSample c tick late s) := by
  unfold runSample
  extract_lets x st p v ah pdCa s2 a pdSpan spans
  split
  · simp
  · rename_i sT imposed missing q sM sS sD sG sG' sL sL' sD' a' pd b sE sP m sD'' _ _
    have hT : SameOwners s sT := foldl_owners (fun _ _ => touchSpan_owners ..) spans s
    simp only [SameOwners, sD'', sP, sE, sD', sL', sL, sG', sG, sD, sS, sM, ite_owners, applyAdv_owners, stepQueue_owners,
      modCell_cellOwn, modCell_dramOwn, modCell_combOwn, deliver_owners, segStart_owners, countMissing_owners, endLate_owners,
      endGap_owners, countLate_owners, bridgeSample_owners, hT, ite_self, and_self]

@[simp] theorem emitSample_owners (c tick late s) : SameOwners s (emitSample c tick late s) := by
  unfold emitSample
  dsimp only
  split <;> simp

@[simp] theorem noteActed_owners (c dec s) : SameOwners s (noteActed c dec s) := by simp [noteActed]
@[simp] theorem sampleEmission_owners (c late s) : SameOwners s (sampleEmission c late s) := by simp [sampleEmission]

/-! ### Cells -/

@[simp] theorem setFlags_owners (f c s) : SameOwners s (setFlags f c s) := by simp [setFlags]
@[simp] theorem ignored_owners (c s) : SameOwners s (ignored c s) := by simp [ignored]
@[simp] theorem armUe_owners (c a s) : SameOwners s (armUe c a s) := by
  unfold armUe
  split <;> simp

@[simp] theorem queueLive_owners (q fmt s) : SameOwners s (queueLive q fmt s) := by simp [queueLive]
@[simp] theorem armAccept_owners (c a s) : SameOwners s (armAccept c a s) := by simp [armAccept]
@[simp] theorem noteTaint_owners (c taint s) : SameOwners s (noteTaint c taint s) := by simp [noteTaint]
@[simp] theorem startCell_owners (c dec gen taint s) : SameOwners s (startCell c dec gen taint s) := by
  unfold startCell
  dsimp only
  split <;> simp

@[simp] theorem stopCell_owners (c gen taint s) : SameOwners s (stopCell c gen taint s) := by simp [stopCell]
@[simp] theorem pauseCell_owners (c gen taint s) : SameOwners s (pauseCell c gen taint s) := by simp [pauseCell]
/-! ### Capture -/

@[simp] theorem capFlag_owners (f c s) : SameOwners s (capFlag f c s) := by simp [capFlag]
@[simp] theorem capIgnored_owners (c s) : SameOwners s (capIgnored c s) := by simp [capIgnored]
@[simp] theorem capFault_owners (s bit cls c addr master acc) : SameOwners s (capFault s bit cls c addr master acc) := by
  simp [capFault]

@[simp] theorem writeHeader_owners (c r crc s) : SameOwners s (writeHeader c r crc s) := by simp [writeHeader]
@[simp] theorem putRec_owners (c r s) : SameOwners s (putRec c r s) := by simp [putRec]
@[simp] theorem advanceWr_owners (c s) : SameOwners s (advanceWr c s) := by simp [advanceWr]
theorem reserve_owners {c bytes : Nat} {r : CapRec} {s t : State} (h : reserve c bytes r s = some t) : SameOwners s t :=
  .of_same (reserve_same h) (by decide)

@[simp] theorem noteEntry_owners (c : Nat) (r : CapRec) (s : State) : SameOwners s (noteEntry c r s) :=
  .of_same (noteEntry_same c r s) (by decide)

@[simp] theorem missTrigger_owners (c ev cause s) : SameOwners s (missTrigger c ev cause s) := by simp [missTrigger]
@[simp] theorem capEnter_owners (c st n s) : SameOwners s (capEnter c st n s) := by simp [capEnter]
@[simp] theorem ringFull_owners (c s) : SameOwners s (ringFull c s) := by simp [ringFull]
@[simp] theorem stackRecord_owners (c : Nat) (part : Bool) (s : State) : SameOwners s (stackRecord c part s) :=
  .of_same (stackRecord_same c part s) (by decide)

@[simp] theorem windowEnd_owners (c s) : SameOwners s (windowEnd c s) := by simp [windowEnd]
@[simp] theorem reserveData_owners (c : Nat) (ev : Event) (nT : Nat) (stop : Option Nat) (s : State) :
    SameOwners s (reserveData c ev nT stop s) := by
  unfold reserveData
  dsimp only
  split
  · simp
  · split
    next h => simp [reserve_owners h]
    · simp

@[simp] theorem acceptTrigger_owners (c ev nT s) : SameOwners s (acceptTrigger c ev nT s) := by simp [acceptTrigger]
@[simp] theorem acceptCut_owners (c ev nT nD s) : SameOwners s (acceptCut c ev nT nD s) := by simp [acceptCut]
@[simp] theorem decideTrigger_owners (c ev s) : SameOwners s (decideTrigger c ev s) := by
  unfold decideTrigger
  dsimp only
  (repeat' split) <;> simp

@[simp] theorem rearmAt_owners (c t s) : SameOwners s (rearmAt c t s) := by
  unfold rearmAt
  dsimp only
  split <;> simp

@[simp] theorem rearmTick_owners (c s) : SameOwners s (rearmTick c s) := by
  unfold rearmTick
  dsimp only
  split <;> simp

@[simp] theorem armInput_owners (c dec s) : SameOwners s (armInput c dec s) := by
  unfold armInput
  dsimp only
  (repeat' split) <;> simp

@[simp] theorem closeRun_owners (c r s) : SameOwners s (closeRun c r s) := by simp [closeRun]
@[simp] theorem disarm_owners (c dec s) : SameOwners s (disarm c dec s) := by simp [disarm]
@[simp] theorem runLevel_owners (c tick v s) : SameOwners s (runLevel c tick v s) := by simp [runLevel]
@[simp] theorem loseSample_owners (c n tick r s) : SameOwners s (loseSample c n tick r s) := by simp [loseSample]
@[simp] theorem overwrite_owners (c n tick s) : SameOwners s (overwrite c n tick s) := by simp [overwrite]
@[simp] theorem stackAdd_owners (c i v s) : SameOwners s (stackAdd c i v s) := by simp [stackAdd]
@[simp] theorem rxCount_owners (l ovr inv s) : SameOwners s (rxCount l ovr inv s) := by simp [rxCount]
@[simp] theorem takeSample_owners (c e tick word s) : SameOwners s (takeSample c e tick word s) := by simp [takeSample]
@[simp] theorem captureSample_owners (c word s) : SameOwners s (captureSample c word s) := by simp [captureSample]
@[simp] theorem streamBusy_owners (c s) : SameOwners s (streamBusy c s) := by simp [streamBusy]
@[simp] theorem streamRecord_owners (c r0 samples s) : SameOwners s (streamRecord c r0 samples s) := by
  unfold streamRecord
  dsimp only
  (repeat' split) <;> simp

@[simp] theorem streamChunk_owners (hive samples s) : SameOwners s (streamChunk hive samples s) := by
  unfold streamChunk
  split <;> simp

@[simp] theorem recordCommit_owners (c s) : SameOwners s (recordCommit c s) := by
  unfold recordCommit
  dsimp only
  split <;> simp

@[simp] theorem capAccept_owners (c a s) : SameOwners s (capAccept c a s) := by simp [capAccept]
@[simp] theorem fillDone_owners (x c a s) : SameOwners s (fillDone x c a s) := by simp [fillDone]
@[simp] theorem capArmFillDone_owners (c s) : SameOwners s (capArmFillDone c s) := by
  unfold capArmFillDone
  (repeat' split) <;> simp

/-! ### Tasks -/

@[simp] theorem dropEvents_owners (t dec s) : SameOwners s (dropEvents t dec s) := by simp [dropEvents]
@[simp] theorem noteRun_owners (t es s) : SameOwners s (noteRun t es s) := by
  unfold noteRun
  split <;> simp

@[simp] theorem takeJump_owners (c j gen taint s) : SameOwners s (takeJump c j gen taint s) := by simp [takeJump]
@[simp] theorem decideJumps_owners (c dec s) : SameOwners s (decideJumps c dec s) := by
  unfold decideJumps
  dsimp only
  (repeat' split) <;> simp

@[simp] theorem trigDecide_owners (c dec s) : SameOwners s (trigDecide c dec s) := by
  unfold trigDecide
  dsimp only
  split <;> simp

@[simp] theorem retrigger_owners (t s) : SameOwners s (retrigger t s) := by simp [retrigger]
@[simp] theorem pinTask_owners (p t dec s) : SameOwners s (pinTask p t dec s) := by
  unfold pinTask
  dsimp only
  split <;> simp

@[simp] theorem swarmTask_owners (l t dec s) : SameOwners s (swarmTask l t dec s) := by simp [swarmTask]
@[simp] theorem swarmDriveLaunch_owners (l s) : SameOwners s (swarmDriveLaunch l s) := by simp [swarmDriveLaunch]
@[simp] theorem swarmDriveRelease_owners (l s) : SameOwners s (swarmDriveRelease l s) := by simp [swarmDriveRelease]
@[simp] theorem countTask_owners (i dec gen taint s) : SameOwners s (countTask i dec gen taint s) := by simp [countTask]
@[simp] theorem counterTasks_owners (i dec s) : SameOwners s (counterTasks i dec s) := by simp [counterTasks]
@[simp] theorem timerTasks_owners (i dec s) : SameOwners s (timerTasks i dec s) := by simp [timerTasks]
@[simp] theorem cellTaskRun_owners (t c k dec s) : SameOwners s (cellTaskRun t c k dec s) := by simp [cellTaskRun]
@[simp] theorem taskRun_owners (t dec s) : SameOwners s (taskRun t dec s) := by
  unfold taskRun
  split <;> simp

@[simp] theorem taskDecision_owners (t s) : SameOwners s (taskDecision t s) := by
  unfold taskDecision
  split <;> simp

/-! ### Links -/

@[simp] theorem laneFault_owners (s bit cls i lane) : SameOwners s (laneFault s bit cls i lane) := by simp [laneFault]
@[simp] theorem lnkFault_owners (s bit cls i) : SameOwners s (lnkFault s bit cls i) := by simp [lnkFault]
@[simp] theorem linkAlign_owners (i s) : SameOwners s (linkAlign i s) := by simp [linkAlign]
@[simp] theorem linkData_owners (i s) : SameOwners s (linkData i s) := by simp [linkData]
@[simp] theorem linkTrain_owners (i s) : SameOwners s (linkTrain i s) := by simp [linkTrain]
@[simp] theorem linkDown_owners (i cause s) : SameOwners s (linkDown i cause s) := by simp [linkDown]
@[simp] theorem linkRetrigger_owners (i s) : SameOwners s (linkRetrigger i s) := by simp [linkRetrigger]
@[simp] theorem lanesSleep_owners (s) : SameOwners s (lanesSleep s) := by simp [lanesSleep]
@[simp] theorem linksFollow_owners (s) : SameOwners s (linksFollow s) := by simp [linksFollow]
@[simp] theorem noteEyes_owners (ms s) : SameOwners s (noteEyes ms s) := by simp [noteEyes]
@[simp] theorem trainingComplete_owners (i eyes s) : SameOwners s (trainingComplete i eyes s) := by
  unfold trainingComplete
  dsimp only
  (repeat' split) <;> simp

@[simp] theorem presetDwellEnd_owners (i preset s) : SameOwners s (presetDwellEnd i preset s) := by simp [presetDwellEnd]
@[simp] theorem noSysref_owners (i s) : SameOwners s (noSysref i s) := by simp [noSysref]
@[simp] theorem retryTimer_owners (i s) : SameOwners s (retryTimer i s) := by simp [retryTimer]
@[simp] theorem multiblockLock_owners (i arrivals s) : SameOwners s (multiblockLock i arrivals s) := by simp [multiblockLock]
@[simp] theorem laneLock_owners (lane s) : SameOwners s (laneLock lane s) := by
  unfold laneLock
  split <;> simp

@[simp] theorem crcLimit_owners (lane errors s) : SameOwners s (crcLimit lane errors s) := by
  unfold crcLimit
  split <;> simp

@[simp] theorem rxLate_owners (i s) : SameOwners s (rxLate i s) := by simp [rxLate]
@[simp] theorem statusPin_owners (i s) : SameOwners s (statusPin i s) := by simp [statusPin]
@[simp] theorem statusPinFell_owners (pin s) : SameOwners s (statusPinFell pin s) := by simp [statusPinFell]

/-! ### Clocks -/

@[simp] theorem timFault_owners (s bit cls obj scope) : SameOwners s (timFault s bit cls obj scope) := by simp [timFault]
@[simp] theorem timePllLock_owners (s) : SameOwners s (timePllLock s) := by simp [timePllLock]

@[simp] theorem syncOutPulse_owners (s) : SameOwners s (syncOutPulse s) := by simp [syncOutPulse]
@[simp] theorem syncInEdge_owners (s) : SameOwners s (syncInEdge s) := by simp [syncInEdge]

@[simp] theorem syncMiss_owners (s) : SameOwners s (syncMiss s) := by simp [syncMiss]
@[simp] theorem ppsAccept_owners (t sec interval : Nat) (s : State) : SameOwners s (ppsAccept t sec interval s) := .refl s

@[simp] theorem ppsEdge_owners (sub : Nat) (s : State) : SameOwners s (ppsEdge sub s) := by
  unfold ppsEdge
  dsimp only
  split
  · simp
  · split
    · simp
    · split <;> simp

@[simp] theorem ppsMissing_owners (s : State) : SameOwners s (ppsMissing s) := by
  unfold ppsMissing
  split <;> simp

@[simp] theorem setHorizon_owners (hor dec : Nat) (s : State) : SameOwners s (setHorizon hor dec s) := .refl s

@[simp] theorem paceWrite_owners (mv s) : SameOwners s (paceWrite mv s) := by simp [paceWrite]
@[simp] theorem paceLink_owners (s) : SameOwners s (paceLink s) := by simp [paceLink]
@[simp] theorem noteWorst_owners (s) : SameOwners s (noteWorst s) := by
  unfold noteWorst
  split <;> simp

@[simp] theorem paceDecide_owners (s) : SameOwners s (paceDecide s) := by simp [paceDecide]
@[simp] theorem windowMeasures_owners (hs s) : SameOwners s (windowMeasures hs s) := by simp [windowMeasures]
@[simp] theorem paceWindowClose_owners (vout statusFault hs s) : SameOwners s (paceWindowClose vout statusFault hs s) := by
  simp [paceWindowClose]

@[simp] theorem fillAlarm_owners (hive s) : SameOwners s (fillAlarm hive s) := by simp [fillAlarm]
@[simp] theorem regulatorConfirm_owners (vout s) : SameOwners s (regulatorConfirm vout s) := by simp [regulatorConfirm]
@[simp] theorem paceHold_owners (s) : SameOwners s (paceHold s) := by simp [paceHold]
@[simp] theorem reflock_owners (c s) : SameOwners s (reflock c s) := by simp [reflock]
@[simp] theorem guardClose_owners (d s) : SameOwners s (guardClose d s) := by simp [guardClose]
@[simp] theorem guardOpenAt_owners (d t s) : SameOwners s (guardOpenAt d t s) := by simp [guardOpenAt]
@[simp] theorem domainLock_owners (d s) : SameOwners s (domainLock d s) := by simp [domainLock]
@[simp] theorem domUnlock_owners (d s) : SameOwners s (domUnlock d s) := by simp [domUnlock]
@[simp] theorem guardTrip_owners (d s) : SameOwners s (guardTrip d s) := by simp [guardTrip]
@[simp] theorem sysrefPulse_owners (d s) : SameOwners s (sysrefPulse d s) := by simp [sysrefPulse]

/-! ### Journal -/

@[simp] theorem takeCkpt_owners (s) : SameOwners s (takeCkpt s) := by simp [takeCkpt]
@[simp] theorem journalFollow_owners (s) : SameOwners s (journalFollow s) := by simp [journalFollow]
@[simp] theorem checkpoint_owners (s) : SameOwners s (checkpoint s) := by simp [checkpoint]
@[simp] theorem jnlExportDone_owners (ok s) : SameOwners s (jnlExportDone ok s) := by
  unfold jnlExportDone
  (repeat' split) <;> simp

@[simp] theorem jnlImportDone_owners (ok s) : SameOwners s (jnlImportDone ok s) := by
  unfold jnlImportDone
  (repeat' split) <;> simp

/-! ### Replay -/

@[simp] theorem resetUnits_owners (s : State) : SameOwners s (resetUnits s) := by
  unfold resetUnits
  dsimp only
  simp

@[simp] theorem resetWaggle_owners (s) : SameOwners s (resetWaggle s) := by simp [resetWaggle]
@[simp] theorem resetAux_owners (s : State) : SameOwners s (resetAux s) :=
  forUp_owners (fun _ _ => by simp) 64 0 s

@[simp] theorem checkDigest_owners (s p) : SameOwners s (checkDigest s p) := by
  unfold checkDigest
  split <;> simp

@[simp] theorem leaveReplay_owners (st s) : SameOwners s (leaveReplay st s) := by simp [leaveReplay]

/-! ### Modes -/

@[simp] theorem resumeKeeper_owners (s) : SameOwners s (resumeKeeper s) := by simp [resumeKeeper]
@[simp] theorem endSession_owners (s) : SameOwners s (endSession s) := by simp [endSession]
@[simp] theorem stopUnits_owners (t s) : SameOwners s (stopUnits t s) := by simp [stopUnits]
@[simp] theorem enterMode_owners (m t s) : SameOwners s (enterMode m t s) := by simp [enterMode]
@[simp] theorem dropInjections_owners (s) : SameOwners s (dropInjections s) := by simp [dropInjections]
@[simp] theorem cancelPending_owners (s0 s) : SameOwners s (cancelPending s0 s) := by
  unfold cancelPending
  split <;> simp

@[simp] theorem noCalSet_owners (s) : SameOwners s (noCalSet s) := by simp [noCalSet]
@[simp] theorem endCalRun_owners (s) : SameOwners s (endCalRun s) := by
  unfold endCalRun
  split <;> simp

@[simp] theorem enterSafe_owners (resetOnly cause t s) : SameOwners s (enterSafe resetOnly cause t s) := by simp [enterSafe]
@[simp] theorem wakeBegin_owners (t cause index s) : SameOwners s (wakeBegin t cause index s) := by simp [wakeBegin]
@[simp] theorem wakeWait_owners (t cause index s) : SameOwners s (wakeWait t cause index s) := by simp [wakeWait]
@[simp] theorem wakeRename_owners (t cause index s) : SameOwners s (wakeRename t cause index s) := by simp [wakeRename]
@[simp] theorem wakeRequest_owners (t cause index s) : SameOwners s (wakeRequest t cause index s) := by simp [wakeRequest]
@[simp] theorem wakeLater_owners (t cause index s) : SameOwners s (wakeLater t cause index s) := by simp [wakeLater]
@[simp] theorem safeInStandby_owners (resetOnly t cause s) : SameOwners s (safeInStandby resetOnly t cause s) := by simp [safeInStandby]
@[simp] theorem safeNow_owners (grave cause t s) : SameOwners s (safeNow grave cause t s) := by
  unfold safeNow
  split <;> simp

@[simp] theorem safeEntry_owners (grave cause t s) : SameOwners s (safeEntry grave cause t s) := by simp [safeEntry]
@[simp] theorem simModeSet_owners (target t s) : SameOwners s (simModeSet target t s) := by
  unfold simModeSet
  split <;> simp

@[simp] theorem mailboxesDown_owners (warm s) : SameOwners s (mailboxesDown warm s) := by simp [mailboxesDown]
@[simp] theorem abandonMem_owners (s) : SameOwners s (abandonMem s) := by simp [abandonMem]
@[simp] theorem keeperDown_owners (img s) : SameOwners s (keeperDown img s) := by simp [keeperDown]
@[simp] theorem keeperRestart_owners (img s) : SameOwners s (keeperRestart img s) := by simp [keeperRestart]

/-! ### Faults -/

@[simp] theorem graveFault_owners (o parity s) : SameOwners s (graveFault o parity s) := by simp [graveFault]
@[simp] theorem detect_owners (o s) : SameOwners s (detect o s) := by simp [detect]
@[simp] theorem timeUnlock_owners (s : State) : SameOwners s (timeUnlock s) := by
  unfold timeUnlock
  dsimp only
  split <;> simp

@[simp] theorem regParityCheck_owners (b s) : SameOwners s (regParityCheck b s) := by
  unfold regParityCheck
  split <;> simp

@[simp] theorem reactionStop_owners (c s) : SameOwners s (reactionStop c s) := by simp [reactionStop]
@[simp] theorem localReaction_owners (b f s) : SameOwners s (localReaction b f s) := by simp [localReaction]
@[simp] theorem escalationDeadline_owners (b s) : SameOwners s (escalationDeadline b s) := by
  unfold escalationDeadline
  split <;> simp

/-! ### Colony -/

@[simp] theorem colFault_owners (bit cls obj s) : SameOwners s (colFault bit cls obj s) := by simp [colFault]
@[simp] theorem frameErr_owners (k event s) : SameOwners s (frameErr k event s) := by simp [frameErr]
@[simp] theorem joinedNow_owners (s) : SameOwners s (joinedNow s) := by simp [joinedNow]
@[simp] theorem setPort_owners (k st s) : SameOwners s (setPort k st s) := by simp [setPort]
@[simp] theorem portUp_owners (k s) : SameOwners s (portUp k s) := by simp [portUp]
@[simp] theorem portDown_owners (k s) : SameOwners s (portDown k s) := by simp [portDown]
@[simp] theorem heardFrame_owners (k crcOk s) : SameOwners s (heardFrame k crcOk s) := by simp [heardFrame]
@[simp] theorem recvFrame_owners {g : State → State} (hg : ∀ s, SameOwners s (g s)) (k : Nat) (f : ColFrame) (ok event : Bool) (s : State) :
    SameOwners s (recvFrame k f ok event g s) := by
  simp [recvFrame, hg]

@[simp] theorem timeSettings_owners (f s) : SameOwners s (timeSettings f s) := by simp [timeSettings]
@[simp] theorem timeFrame_owners (f : ColFrame) (s : State) : SameOwners s (timeFrame f s) := by
  unfold timeFrame
  dsimp only
  split
  · simp
  · split
    · simp
    · split <;> simp

@[simp] theorem joinFrame_owners (f s) : SameOwners s (joinFrame f s) := by simp [joinFrame]
@[simp] theorem horizonFrame_owners (f s) : SameOwners s (horizonFrame f s) := by simp [horizonFrame]
@[simp] theorem correctFrame_owners (f s) : SameOwners s (correctFrame f s) := by simp [correctFrame]
@[simp] theorem correctionSlewStep_owners (s) : SameOwners s (correctionSlewStep s) := by simp [correctionSlewStep]
@[simp] theorem delayRequest_owners (f t2 s) : SameOwners s (delayRequest f t2 s) := by simp [delayRequest]
@[simp] theorem delaysNow_owners (s) : SameOwners s (delaysNow s) := by simp [delaysNow]
@[simp] theorem sendCorrect_owners (s k theta) : SameOwners s (sendCorrect s k theta) := by simp [sendCorrect]
@[simp] theorem skewFails_owners (r s) : SameOwners s (skewFails r s) := by simp [skewFails]
@[simp] theorem skewCorrect_owners (r s) : SameOwners s (skewCorrect r s) := by simp [skewCorrect]
@[simp] theorem sendPulses_owners (r s) : SameOwners s (sendPulses r s) := by simp [sendPulses]
@[simp] theorem skewResidual_owners (r : SkewRun) (s : State) : SameOwners s (skewResidual r s) := by
  unfold skewResidual
  dsimp only
  simp

@[simp] theorem skewAdvance_owners (s) : SameOwners s (skewAdvance s) := by
  unfold skewAdvance
  split <;> simp

@[simp] theorem skewBegin_owners (exch : Nat) (lines : List Nat) (service : Bool) (s : State) :
    SameOwners s (skewBegin exch lines service s) := by
  unfold skewBegin
  dsimp only
  simp

@[simp] theorem acquired_owners (k s) : SameOwners s (acquired k s) := by simp [acquired]
@[simp] theorem delayResponse_owners (k f t4 s) : SameOwners s (delayResponse k f t4 s) := by simp [delayResponse]
@[simp] theorem statusFrame_owners (k f s) : SameOwners s (statusFrame k f s) := by simp [statusFrame]
@[simp] theorem swarmCal_owners (f told s) : SameOwners s (swarmCal f told s) := by simp [swarmCal]
@[simp] theorem stampPulse_owners (l raw s) : SameOwners s (stampPulse l raw s) := by simp [stampPulse]
@[simp] theorem skewEnd_owners (ok s) : SameOwners s (skewEnd ok s) := by simp [skewEnd]
@[simp] theorem colSkewCalDone_owners (silent s) : SameOwners s (colSkewCalDone silent s) := by
  unfold colSkewCalDone
  split <;> simp

@[simp] theorem swlUse_owners (e mgr s) : SameOwners s (swlUse e mgr s) := by simp [swlUse]
@[simp] theorem noteEdge_owners (e s) : SameOwners s (noteEdge e s) := by simp [noteEdge]
@[simp] theorem swlEdge_owners (l level sub s0) : SameOwners s0 (swlEdge l level sub s0) := by simp [swlEdge]
@[simp] theorem swlAdjust_owners (l bit cls s) : SameOwners s (swlAdjust l bit cls s) := by simp [swlAdjust]
@[simp] theorem swarmLine_owners (l level origin s) : SameOwners s (swarmLine l level origin s) := by
  unfold swarmLine
  split <;> simp

@[simp] theorem dropEdge_owners (s e) : SameOwners s (dropEdge s e) := by simp [dropEdge]
@[simp] theorem swarmFrame_owners (f s) : SameOwners s (swarmFrame f s) := by simp [swarmFrame]
@[simp] theorem swarmReportTimeout_owners (l s) : SameOwners s (swarmReportTimeout l s) := by
  unfold swarmReportTimeout
  split <;> simp

@[simp] theorem swarmReports_owners (s) : SameOwners s (swarmReports s) := by simp [swarmReports]
@[simp] theorem eventFrame_owners (f s) : SameOwners s (eventFrame f s) := by simp [eventFrame]
@[simp] theorem fwdDrop_owners (k f s) : SameOwners s (fwdDrop k f s) := by simp [fwdDrop]
@[simp] theorem sendFrame_owners (k o s) : SameOwners s (sendFrame k o s) := by simp [sendFrame]
@[simp] theorem frameSlot_owners (k s) : SameOwners s (frameSlot k s) := by simp [frameSlot]
@[simp] theorem wakeFrame_owners (f s) : SameOwners s (wakeFrame f s) := by simp [wakeFrame]

/-! ### Power -/

@[simp] theorem spdFault_owners (bit cls obj s) : SameOwners s (spdFault bit cls obj s) := by simp [spdFault]
@[simp] theorem pwrEntry_owners (s) : SameOwners s (pwrEntry s) := by simp [pwrEntry]
@[simp] theorem wakeTickDue_owners (s) : SameOwners s (wakeTickDue s) := by
  unfold wakeTickDue
  dsimp only
  (repeat' split) <;> simp

@[simp] theorem banksBack_owners (s) : SameOwners s (banksBack s) := by simp [banksBack]
@[simp] theorem wakeReply_owners (safe x s) : SameOwners s (wakeReply safe x s) := by simp [wakeReply]
@[simp] theorem wakeComplete_owners (s) : SameOwners s (wakeComplete s) := by
  unfold wakeComplete
  (repeat' split) <;> simp

@[simp] theorem evpWake_owners (pin level s) : SameOwners s (evpWake pin level s) := by simp [evpWake]
@[simp] theorem returnedErase_owners (s) : SameOwners s (returnedErase s) := by simp [returnedErase]
@[simp] theorem lcAdvanceDone_owners (s) : SameOwners s (lcAdvanceDone s) := by
  unfold lcAdvanceDone
  split <;> simp

@[simp] theorem authFail_owners (ctx s) : SameOwners s (authFail ctx s) := by simp [authFail]
@[simp] theorem sessionExpiry_owners (s) : SameOwners s (sessionExpiry s) := by
  unfold sessionExpiry
  split <;> simp

@[simp] theorem nonceExpiry_owners (s) : SameOwners s (nonceExpiry s) := by
  unfold nonceExpiry
  split <;> simp

@[simp] theorem authLockExpiry_owners (s) : SameOwners s (authLockExpiry s) := by
  unfold authLockExpiry
  split <;> simp

@[simp] theorem debugHalt_owners (s) : SameOwners s (debugHalt s) := by simp [debugHalt]
@[simp] theorem debugResume_owners (s) : SameOwners s (debugResume s) := by simp [debugResume]
@[simp] theorem scratchWrite_owners {done : State → State} (hd : ∀ s, SameOwners s (done s)) (addr : Nat) (data : List Byte) (s : State) :
    SameOwners s (scratchWrite addr data done s) := by
  simp [scratchWrite, hd]

@[simp] theorem dbgWrite_owners (space addr data s) : SameOwners s (dbgWrite space addr data s) := by
  unfold dbgWrite
  (repeat' split) <;> simp

@[simp] theorem jtagLoad_owners (i s) : SameOwners s (jtagLoad i s) := by
  unfold jtagLoad
  split <;> simp

@[simp] theorem tapReset_owners (s) : SameOwners s (tapReset s) := by simp [tapReset]

/-! ### Calibration -/

@[simp] theorem bgsFault_owners (bit cls obj s) : SameOwners s (bgsFault bit cls obj s) := by simp [bgsFault]
@[simp] theorem loadAux_owners (a s) : SameOwners s (loadAux a s) := by simp [loadAux]
@[simp] theorem loadClearCodes_owners (s) : SameOwners s (loadClearCodes s) := by simp [loadClearCodes]
@[simp] theorem calLoadDone_owners (s) : SameOwners s (calLoadDone s) := by simp [calLoadDone]
@[simp] theorem appendRecord_owners (kind index payload s) : SameOwners s (appendRecord kind index payload s) := by simp [appendRecord]
@[simp] theorem applySlot_owners (c num s) : SameOwners s (applySlot c num s) := by simp [applySlot]
@[simp] theorem calApply_owners (kind index apply : Nat) (s : State) : SameOwners s (calApply kind index apply s).1 := by
  unfold calApply
  dsimp only
  split
  · split
    · split <;> simp
    · exact .refl s
  · simp
  · exact .refl s

@[simp] theorem noteWear_owners (s) : SameOwners s (noteWear s) := by simp [noteWear]
@[simp] theorem calRecordProgrammed_owners (ok : Bool) (s : State) : SameOwners s (calRecordProgrammed ok s) := by
  unfold calRecordProgrammed
  split
  · exact .refl s
  · split
    · exact .refl s
    · simp

@[simp] theorem skewUnanswered_owners (s) : SameOwners s (skewUnanswered s) := by
  unfold skewUnanswered
  split <;> simp

@[simp] theorem skewService_owners (exch s) : SameOwners s (skewService exch s) := by simp [skewService]
@[simp] theorem eyeService_owners (m s) : SameOwners s (eyeService m s) := by
  unfold eyeService
  split <;> simp

@[simp] theorem calFigures_owners (r s) : SameOwners s (calFigures r s) := by simp [calFigures]
@[simp] theorem calRunComplete_owners (r s) : SameOwners s (calRunComplete r s) := by
  unfold calRunComplete
  split <;> simp

/-! ### Queues -/

@[simp] theorem pqmFault_owners (s bit cls i acc master) : SameOwners s (pqmFault s bit cls i acc master) := by simp [pqmFault]
@[simp] theorem doorbellWrite_owners (ctx offset width value s) : SameOwners s (doorbellWrite ctx offset width value s) := by
  simp [doorbellWrite]

@[simp] theorem doorbellApply_owners (s) : SameOwners s (doorbellApply s) := by
  unfold doorbellApply
  split <;> simp

@[simp] theorem refillFail_owners (i err s) : SameOwners s (refillFail i err s) := by simp [refillFail]
@[simp] theorem crcFetched_owners (i s) : SameOwners s (crcFetched i s) := by simp [crcFetched]
@[simp] theorem requestBlock_owners (i n : Nat) (s : State) : SameOwners s (requestBlock i n s) := by
  induction n generalizing s with
  | zero => exact .refl s
  | succ n ih =>
    unfold requestBlock
    dsimp only
    split
    · exact .refl s
    · split
      · simp
      · split <;> simp [ih]

@[simp] theorem refillIssue_owners (hive s) : SameOwners s (refillIssue hive s) := by
  unfold refillIssue
  dsimp only
  (repeat' split) <;> simp

@[simp] theorem refillTook_owners (i addr lat s) : SameOwners s (refillTook i addr lat s) := by simp [refillTook]
@[simp] theorem blockResident_owners (c q buf s) : SameOwners s (blockResident c q buf s) := by
  unfold blockResident
  dsimp only
  split <;> simp

/-! ### Services -/

@[simp] theorem noteTelem_owners (i v s) : SameOwners s (noteTelem i v s) := by simp [noteTelem]
@[simp] theorem noteHottest_owners (s) : SameOwners s (noteHottest s) := by simp [noteHottest]
@[simp] theorem noteSupply_owners (i v lo hi s) : SameOwners s (noteSupply i v lo hi s) := by simp [noteSupply]
@[simp] theorem telemetrySample_owners (i v s) : SameOwners s (telemetrySample i v s) := by
  unfold telemetrySample
  (repeat' split) <;> simp

@[simp] theorem keepRemaps_owners (index s) : SameOwners s (keepRemaps index s) := by simp [keepRemaps]
@[simp] theorem groomLost_owners (g s) : SameOwners s (groomLost g s) := by simp [groomLost]
@[simp] theorem groomInner_owners (scr granule fails restorable s) : SameOwners s (groomInner scr granule fails restorable s) := by
  simp [groomInner]

@[simp] theorem groomBank_owners (hive bank granule fails restorable s0) :
    SameOwners s0 (groomBank hive bank granule fails restorable s0) := by
  simp [groomBank]

@[simp] theorem groomGranule_owners (hive bank granule fails restorable s) :
    SameOwners s (groomGranule hive bank granule fails restorable s) := by
  simp [groomGranule]

@[simp] theorem eyeCheck_owners (m s) : SameOwners s (eyeCheck m s) := by simp [eyeCheck]
@[simp] theorem skewCheck_owners (exchanges s) : SameOwners s (skewCheck exchanges s) := by simp [skewCheck]
@[simp] theorem flashCompaction_owners (store fits maxErase s) : SameOwners s (flashCompaction store fits maxErase s) := by
  simp [flashCompaction]

@[simp] theorem scratchHalt_owners (s) : SameOwners s (scratchHalt s) := by simp [scratchHalt]
@[simp] theorem shadowAudit_owners (l s) : SameOwners s (shadowAudit l s) := by simp [shadowAudit]

/-! ### Start -/

@[simp] theorem combBankCleared_owners (hive catchBank s) : SameOwners s (combBankCleared hive catchBank s) := by simp [combBankCleared]
@[simp] theorem flashReady_owners (s) : SameOwners s (flashReady s) := by simp [flashReady]
@[simp] theorem kprFault_owners (bit cls obj s) : SameOwners s (kprFault bit cls obj s) := by simp [kprFault]
@[simp] theorem fieldMaps_owners (s) : SameOwners s (fieldMaps s) := by simp [fieldMaps]
@[simp] theorem scratchLoaded_owners (s) : SameOwners s (scratchLoaded s) := by simp [scratchLoaded]
@[simp] theorem keeperUp_owners (s) : SameOwners s (keeperUp s) := by
  unfold keeperUp
  dsimp only
  split <;> simp

@[simp] theorem keeperStart_owners (s) : SameOwners s (keeperStart s) := by simp [keeperStart]
@[simp] theorem owedReplies_owners (s : State) : SameOwners s (owedReplies s) := by
  refine foldl_owners (fun u p => ?_) s.mailboxes s
  split <;> simp

@[simp] theorem keeperRestartDone_owners (s) : SameOwners s (keeperRestartDone s) := by simp [keeperRestartDone]
@[simp] theorem wdog_owners (s) : SameOwners s (wdog s) := by simp [wdog]
@[simp] theorem firmwareError_owners (s) : SameOwners s (firmwareError s) := by simp [firmwareError]
@[simp] theorem pciePerst_owners (s) : SameOwners s (pciePerst s) := by simp [pciePerst]
@[simp] theorem pcieDown_owners (s) : SameOwners s (pcieDown s) := by simp [pcieDown]

/-! ### KeeperCmds -/

@[simp] theorem retainBanks_owners (s) : SameOwners s (retainBanks s) := by simp [retainBanks]
@[simp] theorem freezeWindow_owners (s) : SameOwners s (freezeWindow s) := by simp [freezeWindow]
@[simp] theorem standbyEntryDone_owners (s) : SameOwners s (standbyEntryDone s) := by
  unfold standbyEntryDone
  dsimp only
  (repeat' split) <;> simp

@[simp] theorem modImg_owners (s i f) : SameOwners s (modImg s i f) := by simp [modImg]
@[simp] theorem flashFailed_owners (x op s) : SameOwners s (flashFailed x op s) := by simp [flashFailed]
@[simp] theorem flashEraseDone_owners (ok s) : SameOwners s (flashEraseDone ok s) := by
  unfold flashEraseDone
  (repeat' split) <;> simp

@[simp] theorem fwProgramDone_owners (ok s) : SameOwners s (fwProgramDone ok s) := by
  unfold fwProgramDone
  (repeat' split) <;> simp

@[simp] theorem fwVerifyDone_owners (verdict s) : SameOwners s (fwVerifyDone verdict s) := by
  unfold fwVerifyDone
  (repeat' split) <;> simp

@[simp] theorem fwCommitDone_owners (ok s) : SameOwners s (fwCommitDone ok s) := by
  unfold fwCommitDone
  split <;> simp

/-! ### Tunnel -/

@[simp] theorem tunnelReply_owners (reply s) : SameOwners s (tunnelReply reply s) := by
  unfold tunnelReply
  split <;> simp

@[simp] theorem tunnelTimeout_owners (s) : SameOwners s (tunnelTimeout s) := by
  unfold tunnelTimeout
  split <;> simp

/-! ### Host -/

theorem specOf_onAccept_owners {s : State} {c : Instr} {h : Hdr} {p : CSpec} (hs : specOf c s = some (h, p)) (u : State) :
    SameOwners u (p.onAccept u) := by
  cases c
  case modeSet =>
    cases hs
    unfold specModeSet
    dsimp only
    split
    · split <;> simp
    · exact .refl u
  case cellArm => cases hs; exact armAccept_owners ..
  case capArm => cases hs; exact capAccept_owners ..
  case timeHorizonSet =>
    cases hs
    unfold specTimeHorizonSet
    simp
  case wagClear => cases hs; unfold specWagClear; dsimp only; split <;> exact .refl u
  all_goals
    cases hs
  all_goals exact .refl u

/-- What a rejection does beside the reply leaves the owners, whatever the command. -/
theorem specOf_onReject_owners {s : State} {c : Instr} {h : Hdr} {p : CSpec} (hs : specOf c s = some (h, p)) (u : State) :
    SameOwners u (p.onReject u) := by
  cases c
  case cellArm => cases hs; exact .choice (armUe_owners _ _) .refl _ u
  case queueOpen => cases hs; exact .choice (touchLines_owners _ _ _ _) .refl _ u
  case dbgOpen => cases hs; unfold specDbgOpen; dsimp only; split <;> simp
  case dbgResponse => cases hs; unfold specDbgResponse; dsimp only; split <;> simp
  case wagClear => cases hs; unfold specWagClear; dsimp only; split <;> exact .refl u
  all_goals
    cases hs
  all_goals exact .refl u

@[simp] theorem takeCommand_owners (f : Frame) (data : List Byte) (s : State) : SameOwners s (takeCommand f data s) := by
  unfold takeCommand
  split
  · simp
  · dsimp only
    split
    · simp
    next hs =>
      have hr := specOf_onReject_owners hs
      have ha := specOf_onAccept_owners hs
      refine (SameOwners.of_same (set_free_same s _) (by decide)).trans (judge_owners ?_ ?_ _ _ _)
      · split <;> exact hr
      · split <;> exact ha

@[simp] theorem firstFrame_owners (ctx mb fr s) : SameOwners s (firstFrame ctx mb fr s) := by
  unfold firstFrame
  dsimp only
  (repeat' split) <;> simp

@[simp] theorem nextFrame_owners (ctx mb a fr s) : SameOwners s (nextFrame ctx mb a fr s) := by simp [nextFrame]
@[simp] theorem takeFrame_owners (ctx mb fr s) : SameOwners s (takeFrame ctx mb fr s) := by
  unfold takeFrame
  (repeat' split) <;> simp

@[simp] theorem post_owners (ctx mb s) : SameOwners s (post ctx mb s) := by simp [post]
@[simp] theorem ack_owners (ctx mb : Nat) (s : State) : SameOwners s (Machine.ack ctx mb s) := by
  unfold Machine.ack
  dsimp only
  split
  · exact .refl s
  · simp

@[simp] theorem mbReset_owners (ctx mb s) : SameOwners s (mbReset ctx mb s) := by simp [mbReset]
@[simp] theorem frameTimeout_owners (ctx mb s) : SameOwners s (frameTimeout ctx mb s) := by
  unfold frameTimeout
  split <;> simp

@[simp] theorem clearIrq_owners (k s) : SameOwners s (clearIrq k s) := by simp [clearIrq]
@[simp] theorem ctxIrqStatusRead_owners (k s) : SameOwners s (ctxIrqStatusRead k s) := by simp [ctxIrqStatusRead]
@[simp] theorem hostFault_owners (bit cls obj master acc s) : SameOwners s (hostFault bit cls obj master acc s) := by simp [hostFault]
@[simp] theorem illegalConfig_owners (master s) : SameOwners s (illegalConfig master s) := by simp [illegalConfig]
@[simp] theorem mbCtrl_owners (k m v master s) : SameOwners s (mbCtrl k m v master s) := by simp [mbCtrl]
@[simp] theorem pageByteWrite_owners (k master r b s) : SameOwners s (pageByteWrite k master r b s) := by simp [pageByteWrite]
@[simp] theorem pageWrite_owners (k master off : Nat) (data : List Byte) (whole : Bool) (s : State) :
    SameOwners s (pageWrite k master off data whole s) := by
  unfold pageWrite
  dsimp only
  refine (foldl_owners (fun _ _ => pageByteWrite_owners ..) _ s).trans (foldl_owners (fun u m => ?_) _ _)
  split <;> simp

@[simp] theorem unmask_owners (v s) : SameOwners s (unmask v s) := by simp [unmask]
@[simp] theorem msixByte_owners (o b s) : SameOwners s (msixByte o b s) := by simp [msixByte]
theorem msixBytes_owners (n : Nat) (data : List Byte) (l : List Nat) (s : State) :
    SameOwners s (l.foldl (fun s i => msixByte (n + i) (data.getD i 0) s) s) :=
  foldl_owners (fun _ _ => msixByte_owners ..) l s

@[simp] theorem registerWrite_owners (off data s) : SameOwners s (registerWrite off data s) := by
  unfold registerWrite
  split
  · exact pageWrite_owners ..
  · split
    · exact msixBytes_owners ..
    · exact .refl s

@[simp] theorem windowReadHost_owners (o : Nat) (s : State) : SameOwners s (windowReadHost o s) := .refl s

@[simp] theorem devtimeLatchRead_owners (s : State) : SameOwners s (devtimeLatchRead s) := .refl s

@[simp] theorem bulkWrite_owners (off data s) : SameOwners s (bulkWrite off data s) := by
  unfold bulkWrite
  split <;> simp

@[simp] theorem bulkRead_owners (off n s) : SameOwners s (bulkRead off n s) := by
  unfold bulkRead
  split <;> simp

@[simp] theorem spiSeen_owners (s) : SameOwners s (spiSeen s) := by simp [spiSeen]
@[simp] theorem spiWrite_owners (instr addr data s) : SameOwners s (spiWrite instr addr data s) := by simp [spiWrite]
@[simp] theorem spiRead_owners (addr n s) : SameOwners s (spiRead addr n s) := by simp [spiRead]
@[simp] theorem spiIrqRead_owners (s) : SameOwners s (spiIrqRead s) := by simp [spiIrqRead]
@[simp] theorem spiId_owners (s) : SameOwners s (spiId s) := by simp [spiId]

/-! ### TunnelFrames -/

@[simp] theorem takeTunnelled_owners (path fr s) : SameOwners s (takeTunnelled path fr s) := by simp [takeTunnelled]
@[simp] theorem frameArrived_owners (path reply fr s) : SameOwners s (frameArrived path reply fr s) := by simp [frameArrived]
@[simp] theorem collect_owners (k path size i total reply data s) : SameOwners s (collect k path size i total reply data s) := by
  simp [collect]

@[simp] theorem tunnelFrame_owners (k f s) : SameOwners s (tunnelFrame k f s) := by simp [tunnelFrame]
@[simp] theorem enumerate_owners (hops s) : SameOwners s (enumerate hops s) := by simp [enumerate]
@[simp] theorem chainOn_owners (k f s) : SameOwners s (chainOn k f s) := by simp [chainOn]
@[simp] theorem chainFrame_owners (k f s) : SameOwners s (chainFrame k f s) := by simp [chainFrame]

/-! ### ReplayRows -/

@[simp] theorem replayStart_owners (s) : SameOwners s (replayStart s) := by simp [replayStart]
@[simp] theorem replayCmd_owners (dec ctx : Nat) (i : Instr) (s : State) : SameOwners s (replayCmd dec ctx i s) := by
  unfold replayCmd
  split
  · exact .refl s
  next hs => simp [specOf_onAccept_owners hs]

@[simp] theorem notReproFrom_owners (c s) : SameOwners s (notReproFrom c s) := by simp [notReproFrom]
@[simp] theorem replayDoorbell_owners (queue tail ps s) : SameOwners s (replayDoorbell queue tail ps s) := by simp [replayDoorbell]
@[simp] theorem replayEdge_owners (p ev s) : SameOwners s (replayEdge p ev s) := by simp [replayEdge]
@[simp] theorem replayInject_owners (ev s) : SameOwners s (replayInject ev s) := by simp [replayInject]
@[simp] theorem domEach_owners {f : Nat → State → State} (hf : ∀ c s, SameOwners s (f c s)) (d : Nat) (p : CellSt → Bool) (s : State) :
    SameOwners s (domEach d p f s) := by
  simp [domEach, hf]

@[simp] theorem unlockCell_owners (c s) : SameOwners s (unlockCell c s) := by simp [unlockCell]
@[simp] theorem replayDomain_owners (d new s) : SameOwners s (replayDomain d new s) := by simp [replayDomain]
@[simp] theorem replayState_owners (kind index new cause s) : SameOwners s (replayState kind index new cause s) := by
  unfold replayState
  split <;> simp

@[simp] theorem replayApply_replayEdgeless_owners (ev s) : SameOwners s (replayApply.replayEdgeless ev s) := by
  simp [replayApply.replayEdgeless]

@[simp] theorem replayApply_owners (e s) : SameOwners s (replayApply e s) := by
  unfold replayApply
  split <;> simp

@[simp] theorem replayEntry_owners (s) : SameOwners s (replayEntry s) := by
  unfold replayEntry
  (repeat' split) <;> simp

@[simp] theorem replayOver_owners (st t s) : SameOwners s (replayOver st t s) := by simp [replayOver]
@[simp] theorem replayEnd_owners (s) : SameOwners s (replayEnd s) := by
  unfold replayEnd
  (repeat' split) <;> simp

/-! ### Commands -/

/-- A loss of the retained supply takes the owners of comb regions alone. -/
theorem retainLoss_owners (s : State) : (retainLoss s).cellOwn = s.cellOwn ∧ (retainLoss s).dramOwn = s.dramOwn := by
  simp [retainLoss, combLost]

/-- Settling writes no owner. -/
theorem settle_owners (s0 s : State) : SameOwners s (settle s0 s) := by simp

/-- An event of one unit leaves what its effect leaves, or finds no unit and leaves everything. -/
theorem actOn_next {s t : State} {b : Bool} {f : State → State} (h : actOn b s f = .next t) : t = settle s (f s) ∨ t = s := by
  unfold actOn act at h
  (repeat' split at h) <;> cases h
  · exact .inl rfl
  · exact .inr rfl

theorem exec_keeps_owners {s t : State} {c : Instr} {f : State → State} (hc : exec c s = actOn (unitHere s c) s f)
    (hf : SameOwners s (f s)) (h : exec c s = .next t) : SameOwners s t := by
  rcases actOn_next (hc.symm.trans h) with rfl | rfl
  · exact hf.trans (settle_owners ..)
  · exact .refl _

/-- A Berza command changes owners at its decision, never when it is posted. -/
theorem exec_berza_keeps_owners {s t : State} {c : Instr} {h : Hdr} {p : CSpec} (hs : specOf c s = some (h, p))
    (hx : exec c s = .next t) : SameOwners s t := by
  rw [exec_berza c hs] at hx
  rcases actOn_next hx with rfl | rfl
  · exact (submit_owners (specOf_onReject_owners hs) (specOf_onAccept_owners hs) h c s).trans (settle_owners ..)
  · exact .refl _

/-- An event of the retained supply leaves the owners of cells and of DRAM regions. -/
theorem exec_retainLoss_owners {s t : State} (h : exec .retainLoss s = .next t) : t.cellOwn = s.cellOwn ∧ t.dramOwn = s.dramOwn := by
  rcases actOn_next (b := true) h with rfl | rfl
  · simpa using retainLoss_owners s
  · exact ⟨rfl, rfl⟩

/-- Of the events that are no decision and none of the supplies' or RESET_N's, only a loss of the retained supply takes an owner. -/
theorem exec_owners {s t : State} {c : Instr} (hp : powerRow c = false) (hd : c ≠ .commandDecision) (hl : c ≠ .retainLoss)
    (h : exec c s = .next t) : SameOwners s t := by
  cases hs : specOf c s with
  | some hq => exact exec_berza_keeps_owners hs h
  | none =>
    cases c
    case powerOn | powerOff | resetNAssert | resetNRelease => cases hp
    case commandDecision => exact absurd rfl hd
    case retainLoss => exact absurd rfl hl
    all_goals cases hs
    all_goals exact exec_keeps_owners rfl (by simp) h

/-- Settles O55: no function that an event other than a decision reaches writes an owner, but for the loss of the retained supply. -/
theorem ownersKept : Obligations.OwnersKept := by
  unfold Obligations.OwnersKept
  intro s c t hp hd h
  by_cases hl : c = .retainLoss
  · subst hl
    obtain ⟨hcell, hdram⟩ := exec_retainLoss_owners h
    exact ⟨hcell, hdram, absurd rfl⟩
  · obtain ⟨hcell, hdram, hcomb⟩ := exec_owners hp hd hl h
    exact ⟨hcell, hdram, fun _ => hcomb⟩

end Sys2Proof.Arch

/-! Play queues read and written, and what the cache of their contexts leaves of them (R145, R150, R151, R155, R166). -/

namespace Sys2Proof.Arch

open Sys2Proof Sys2Proof.Machine Sys2Proof.Safety Sys2Proof.Laws Sys2Proof.Scope

variable {s t u : State} {i : Nat} {q : Queue} {l : List Part}

/-! ### Queues read and written -/

theorem queueAt_of_same (h : SameBut l s t) (hl : Part.queues ∉ l) (j : Nat) : queueAt t j = queueAt s j := by
  have hq : t.queues = s.queues := h.same .queues hl
  rw [queueAt, queueAt, hq]

theorem queueAt_settle (s0 s : State) (j : Nat) : queueAt (settle s0 s) j = queueAt s j := queueAt_of_same (settle_same s0 s) (by simp) j

/-- The record that a write of a queue leaves: its epoch counts a change of STATE, MODE, HEAD, TAIL or ERR (R150). -/
def queueCounted (o x : Queue) : Queue :=
  if x.st = o.st ∧ x.mode = o.mode ∧ x.head = o.head ∧ x.tail = o.tail ∧ x.err = o.err then x else { x with epoch := o.epoch + 1 }

theorem putQueue_queues (s : State) (i : Nat) (x : Queue) :
    (putQueue s i x).queues = tset {} s.queues i (queueCounted (queueAt s i) x) := by
  unfold putQueue queueCounted
  dsimp only
  split <;> split <;> rfl

theorem queueAt_putQueue (hw : twf {} s.queues = true) (i : Nat) (x : Queue) :
    queueAt (putQueue s i x) i = queueCounted (queueAt s i) x := by
  rw [queueAt, putQueue_queues, tget_tset_same hw]

theorem queueCounted_epoch (o x : Queue) : ∃ n, queueCounted o x = { x with epoch := n } := by
  unfold queueCounted
  split
  · exact ⟨_, rfl⟩
  · exact ⟨_, rfl⟩

/-- A queue that changes its state counts it. -/
theorem queueCounted_of_st {o x : Queue} (h : x.st ≠ o.st) : queueCounted o x = { x with epoch := o.epoch + 1 } :=
  if_neg fun he => h he.1

theorem putQueue_same (s : State) (i : Nat) (x : Queue) : SameBut [.queues, .hives] s (putQueue s i x) :=
  ⟨fun p hp => by cases p <;> simp_all [Part.Same, ctxAt]⟩

/-- A queue that keeps its STATE leaves its hive alone. -/
theorem putQueue_same_of_st {x : Queue} (h : x.st = (queueAt s i).st) : SameBut [.queues] s (putQueue s i x) := by
  unfold putQueue
  dsimp only
  rw [if_pos]
  · exact set_queues_same s _
  · split <;> exact h

/-! ### One queue changed -/

/-- Of the queues only `i` has changed, and it reads `q` but for its epoch. -/
structure QueueSet (i : Nat) (q : Queue) (s t : State) : Prop where
  canon : twf {} t.queues = true
  here : ∃ n, queueAt t i = { q with epoch := n }
  other : ∀ j, j ≠ i → queueAt t j = queueAt s j

/-- A change of a queue that does not look at its epoch. -/
def EpochFree (f : Queue → Queue) : Prop := ∀ q n, ∃ m, f { q with epoch := n } = { f q with epoch := m }

theorem QueueSet.refl (hw : twf {} s.queues = true) (i : Nat) : QueueSet i (queueAt s i) s s := ⟨hw, ⟨_, rfl⟩, fun _ _ => rfl⟩

/-- An effect that leaves the queues keeps what was written. -/
theorem QueueSet.keep (h : QueueSet i q s u) (h' : SameBut l u t) (hl : Part.queues ∉ l) : QueueSet i q s t := by
  have hq : t.queues = u.queues := h'.same .queues hl
  obtain ⟨n, hn⟩ := h.here
  exact ⟨hq ▸ h.canon, ⟨n, (queueAt_of_same h' hl i).trans hn⟩, fun j hj => (queueAt_of_same h' hl j).trans (h.other j hj)⟩

/-- The queue is written again, by a table that differs in its entry. -/
theorem QueueSet.entry {x : Queue} {n : Word} (h : QueueSet i q s u) (ht : t.queues = tset {} u.queues i { x with epoch := n }) :
    QueueSet i x s t where
  canon := ht ▸ twf_tset h.canon i _
  here := ⟨n, by rw [queueAt, ht, tget_tset_same h.canon]⟩
  other j hj := by
    rw [queueAt, ht, tget_tset_other _ _ hj]
    exact h.other j hj

theorem QueueSet.set {f : Queue → Queue} (h : QueueSet i q s u) (hf : EpochFree f) :
    QueueSet i (f q) s { u with queues := tmod {} u.queues i f } := by
  obtain ⟨n, hn⟩ := h.here
  obtain ⟨m, hm⟩ := hf q n
  refine h.entry (n := m) ?_
  rw [← hm, ← hn]
  rfl

theorem QueueSet.put (h : QueueSet i q s u) (x : Queue) : QueueSet i x s (putQueue u i x) := by
  obtain ⟨n, hn⟩ := queueCounted_epoch (queueAt u i) x
  refine h.entry (n := n) ?_
  rw [putQueue_queues, hn]

theorem QueueSet.congr {q' : Queue} {n : Word} (h : QueueSet i { q with epoch := n } s t) (hq : q' = q) : QueueSet i q' s t := by
  obtain ⟨m, hm⟩ := h.here
  exact ⟨h.canon, ⟨m, by rw [hq, hm]⟩, h.other⟩

theorem QueueSet.mod {f : Queue → Queue} (h : QueueSet i q s u) (hf : EpochFree f) : QueueSet i (f q) s (modQueue u i f) := by
  obtain ⟨n, hn⟩ := h.here
  obtain ⟨m, hm⟩ := hf q n
  have hput := h.put (f (queueAt u i))
  rw [hn, hm] at hput
  have hmod : modQueue u i f = putQueue u i { f q with epoch := m } := by rw [modQueue, hn, hm]
  exact (hmod ▸ hput).congr rfl

theorem QueueSet.settled (h : QueueSet i q s t) (s0 : State) : QueueSet i q s (settle s0 t) := h.keep (settle_same s0 t) (by simp)

/-- What does not look at the epoch reads of the queue as of the record written. -/
theorem QueueSet.field {β : Type} (h : QueueSet i q s t) (g : Queue → β) (hg : ∀ q n, g { q with epoch := n } = g q) :
    g (queueAt t i) = g q := by
  obtain ⟨n, hn⟩ := h.here
  rw [hn, hg]

/-! ### The cache of queue contexts (R138, R151, R166) -/

/-- Parts that a fill of the cache changes beside the queue whose context is lost. -/
def fillParts : List Part := [.inner, .dmcs, .jnl, .faults, .dramMarks, .free]

/-- A fill takes its line, or the queue fails whose context it cannot read. -/
theorem ctxFill_cases (i : Nat) (s : State) :
    ∃ u, SameBut fillParts s u ∧ (ctxFill i s = u ∨ ctxFill i s = offlineQueue i u) := by
  have hread := touchLines_same 3 0 (s.ctxBase + 32 * i) 32 s
  unfold ctxFill
  dsimp only
  split
  · exact ⟨_, hread.mono (by decide), .inr rfl⟩
  · refine ⟨_, ?_, .inl rfl⟩
    split
    · exact (((hread.andThen (set_free_same ..)).andThen (set_inner_same ..)).andThen (set_inner_same ..)).mono (by decide)
    · exact hread.mono (by decide)

/-- The same of a context read: its line, filled where it must be, or the queue fails. -/
theorem ctxTouch_cases (i : Nat) (s : State) :
    ∃ u, SameBut fillParts s u ∧ (ctxTouch i s = u ∨ ctxTouch i s = offlineQueue i u) := by
  unfold ctxTouch
  split
  · exact ctxFill_cases i s
  next k _ =>
    split
    · have hlost := fun o => (set_inner_same s (modLine k (fun _ => {}) s).inner).andThen (raise_same _ o)
      dsimp only
      split
      · exact ⟨_, (hlost _).mono (by decide), .inr rfl⟩
      · obtain ⟨u, hu, hfill⟩ := ctxFill_cases i (raise (modLine k (fun _ => {}) s) _)
        exact ⟨u, ((hlost _).andThen hu).mono (by decide), hfill⟩
    · exact ⟨_, (SameBut.foldl (fun u w => touchInner_same false 3 w u) _ s).mono (by decide), .inl rfl⟩

/-- Of the queues a context read leaves all but the STATE and ERR of the one read, which may have failed. -/
theorem ctxTouch_set (hw : twf {} s.queues = true) (i : Nat) : ∃ st err, (st = (queueAt s i).st ∨ st = .failed) ∧
    QueueSet i { queueAt s i with st := st, err := err } s (ctxTouch i s) := by
  obtain ⟨u, hu, he | he⟩ := ctxTouch_cases i s
  all_goals
    rw [he]
    have hkept := (QueueSet.refl hw i).keep hu (by decide)
  · exact ⟨_, _, .inl rfl, hkept⟩
  · have hfailed := hkept.mod (f := fun q => { q with st := .failed, err := 2 }) fun _ n => ⟨n, rfl⟩
    exact ⟨_, _, .inr rfl, hfailed.keep (raise_same ..) (by decide)⟩

/-- The record that a read of its context leaves of a queue: as it was but for STATE and ERR. -/
def contextRecord (i : Nat) (s : State) : Queue :=
  { queueAt s i with st := (queueAt (ctxTouch i s) i).st, err := (queueAt (ctxTouch i s) i).err }

theorem ctxTouch_record (hw : twf {} s.queues = true) (i : Nat) : QueueSet i (contextRecord i s) s (ctxTouch i s) := by
  obtain ⟨_, _, _, hset⟩ := ctxTouch_set hw i
  obtain ⟨n, hn⟩ := hset.here
  exact ⟨hset.canon, ⟨n, by rw [contextRecord, hn]⟩, hset.other⟩

/-- A queue that is not open is not opened by a read of its context. -/
theorem ctxTouch_not_opened (hw : twf {} s.queues = true) (h : (queueAt s i).st ≠ .opened) :
    (queueAt (ctxTouch i s) i).st ≠ .opened := by
  obtain ⟨st, _, hst, hset⟩ := ctxTouch_set hw i
  obtain ⟨n, hn⟩ := hset.here
  rw [hn]
  rcases hst with rfl | rfl
  · exact h
  · show QSt.failed ≠ .opened
    decide

end Sys2Proof.Arch

/-! Flushes and closes of a queue, and the credits of its hive (R145, R155, R164). -/

namespace Sys2Proof.Arch

open Sys2Proof Sys2Proof.Machine Sys2Proof.Safety Sys2Proof.Laws Sys2Proof.Scope

variable {s t u : State} {x : Held} {h : Hdr} {w : List Held} {i c k : Nat} {q : Queue} {l : List Part}

/-! ### A flush and a close -/

/-- The record of a queue that has been flushed. -/
def queueFlushed (q : Queue) : Queue :=
  { q with head := if q.mode = 0 then q.tail else 0, descOff := 0, pos := 0, next := 0, err := 0, fmt := 0, blocks := [], st := .opened }

theorem QueueSet.flushed (hq : QueueSet i q s u) : QueueSet i (queueFlushed q) s (flushed i u) := hq.mod fun _ n => ⟨n, rfl⟩

theorem flushed_same (i : Nat) (s : State) : SameBut [.queues, .hives] s (flushed i s) := modQueue_same s i _

/-- The queue that a close leaves inactive, flushed. -/
def closedFlush (i : Nat) (s : State) : State := flushed i (deactivate s [bufArea (i / 1024) (queueAt s i).bufBase (queueAt s i).bufCount])

theorem closed_eq (i : Nat) (s : State) : closed i s = modQueue (closedFlush i s) i fun q => { q with st := .closed } := rfl

theorem QueueSet.closed (hq : QueueSet i q s u) : QueueSet i { queueFlushed q with st := .closed } s (closed i u) := by
  have hv : QueueSet i (queueFlushed q) s (closedFlush i u) := (hq.keep (deactivate_same u _) (by decide)).flushed
  exact closed_eq i u ▸ hv.mod (f := fun q => { q with st := .closed }) fun _ n => ⟨n, rfl⟩

theorem closed_same (i : Nat) (s : State) : SameBut [.active, .hives, .queues] s (closed i s) := by
  have hv : SameBut ([.active, .hives] ++ [.queues, .hives]) s (closedFlush i s) := (deactivate_same s _).andThen (flushed_same i _)
  exact closed_eq i s ▸ (hv.andThen (modQueue_same _ i _)).mono (by decide)

theorem bumpComb_contexts (s : State) (hs : List Nat) : (bumpComb s hs).contexts = s.contexts := by
  unfold bumpComb
  refine foldl_view State.contexts ?_ hs s
  exact fun _ _ => rfl

theorem closed_contexts (i : Nat) (s : State) : (closed i s).contexts = s.contexts := by
  simp [closed, flushed, deactivate, bumpComb_contexts]

/-! ### The flush or close that a queue works on -/

/-- The works that wait for a queue's blocks in flight. -/
def worksOn (i : Nat) : Instr → Bool
  | .queueClose _ c q => queueNum c q = i
  | .queueFlush _ c q => queueNum c q = i
  | _ => false

/-- A queue without a block in flight ends its oldest flush or close. -/
theorem queueWork_ends (hq : qInflight (queueAt s i) = 0) (ho : Oldest s (fun k => worksOn i k = true) x w) : queueWork i s =
    match x.cmd with
    | .queueClose .. => finish (closed i { s with works := w }) x 0x0501 (some (3, i)) .ok
    | .queueFlush .. => finish (flushed i { s with works := w }) x 0x0503 (some (3, i)) .ok
    | _ => s := by
  obtain ⟨hfind, hend⟩ := findWork_oldest ho fun _ => Iff.rfl
  unfold queueWork
  rw [hq, if_neg (by decide)]
  split
  next hnone => cases hfind.symm.trans hnone
  next y hy =>
    cases hfind.symm.trans hy
    rw [hend] <;> rfl

theorem queueWork_waits (hq : 0 < qInflight (queueAt s i)) : queueWork i s = s := if_pos hq

/-! ### Replies to a work of any mailbox

The contexts are in canonical form, so that a cause bit past the register writes its record back as it was. -/

theorem irq_same_canon (hw : twf {} s.contexts = true) (k b : Nat) : SameBut [] s (irq s k b) := by
  have hctx : ∀ j, ctxAt (irq s k b) j = { ctxAt s j with irqStatus := (ctxAt (irq s k b) j).irqStatus } := by
    intro j
    have e : (irq s k b).contexts = s.contexts ∨ (irq s k b).contexts =
        tset {} s.contexts k { ctxAt s k with irqStatus := (ctxAt s k).irqStatus ||| BitVec.ofNat 32 (2 ^ b) } := by
      unfold irq
      dsimp only
      (repeat' split) <;> simp
    rcases e with e | e
    · rw [ctxAt, ctxAt, e]
    · rw [ctxAt, ctxAt, e]
      by_cases hj : j = k
      · subst hj
        rw [tget_tset_same hw]
        rfl
      · rw [tget_tset_other _ _ hj]
  refine ⟨fun p _ => ?_⟩
  cases p with
  | contexts => exact ⟨irq_msixOpen .., hctx⟩
  | _ => simp [Part.Same]

theorem finish_same_canon (hw : twf {} s.contexts = true) (x : Held) (op : Nat) (un : Option (Nat × Nat)) (st : Err) (r : List Byte) :
    SameBut [.mailboxes, .col] s (finish s x op un st r) := by
  unfold finish answer writeReply
  dsimp only
  split
  · have hbox := fun f g => (modMb_same s x.ctx x.mb f).andThen (modMb_same (modMb s x.ctx x.mb f) x.ctx x.mb g)
    split
    · exact ((hbox _ _).andThen (modPort_same ..)).mono (by decide)
    · exact ((hbox _ _).andThen (irq_same_canon (by simpa using hw) ..)).mono (by decide)
  · exact .refl ..

/-- Parts that the end of a flush or close changes. -/
def queueEndParts : List Part := [.active, .col, .hives, .mailboxes, .queues, .works]

/-- A queue with its work done, the work off the list. -/
inductive WorkDone (i : Nat) (x : Held) (s : State) : State → Prop where
  | closed : WorkDone i x s (closed i (endWork s x))
  | flushed : WorkDone i x s (flushed i (endWork s x))

/-- A queue's work goes on as it was, or is done and answered. -/
theorem queueWork_cases (i : Nat) (s : State) :
    queueWork i s = s ∨ ∃ x op v, WorkDone i x s v ∧ queueWork i s = finish v x op (some (3, i)) .ok := by
  unfold queueWork
  split
  · exact .inl rfl
  · split
    · exact .inl rfl
    next x _ =>
      split
      · exact .inr ⟨x, _, _, .closed, rfl⟩
      · exact .inr ⟨x, _, _, .flushed, rfl⟩
      · exact .inl rfl

theorem endWork_same (s : State) (x : Held) : SameBut [.works] s (endWork s x) := set_works_same s _

theorem WorkDone.same {v : State} (h : WorkDone i x s v) : SameBut [.active, .hives, .queues, .works] s v := by
  cases h with
  | closed => exact ((endWork_same s x).andThen (closed_same i _)).mono (by decide)
  | flushed => exact ((endWork_same s x).andThen (flushed_same i _)).mono (by decide)

theorem WorkDone.contexts {v : State} (h : WorkDone i x s v) : v.contexts = s.contexts := by
  cases h with
  | closed => exact closed_contexts i _
  | flushed => simp [Machine.flushed, endWork]

theorem queueWork_same (hw : twf {} s.contexts = true) (i : Nat) : SameBut queueEndParts s (queueWork i s) := by
  obtain he | ⟨x, op, v, hv, he⟩ := queueWork_cases i s
  · exact he.symm ▸ .refl ..
  · have hctx : twf {} v.contexts = true := hv.contexts ▸ hw
    exact he ▸ (hv.same.andThen (finish_same_canon hctx ..)).mono (by decide)

/-! ### Credits of a hive (R156, R164) -/

/-- Every hive has the refill credits that it had. -/
structure CreditsKept (s t : State) : Prop where
  canon : twf {} t.hives = true
  credits : ∀ k, (hiveAt t k).credits = (hiveAt s k).credits

theorem CreditsKept.refl (hw : twf {} s.hives = true) : CreditsKept s s := ⟨hw, fun _ => rfl⟩

theorem CreditsKept.trans (h : CreditsKept s t) (h' : CreditsKept t u) : CreditsKept s u :=
  ⟨h'.canon, fun k => (h'.credits k).trans (h.credits k)⟩

theorem creditsKept_of_same (hw : twf {} s.hives = true) (h : SameBut l s t) (hl : Part.hives ∉ l) : CreditsKept s t := by
  have hh : t.hives = s.hives := h.same .hives hl
  exact ⟨hh ▸ hw, fun k => by rw [hiveAt_of_same h hl]⟩

/-- A hive's record written with the credits that it had. -/
theorem creditsKept_tset (hw : twf {} s.hives = true) {y : Hive} (hy : y.credits = (hiveAt s k).credits)
    (ht : t.hives = tset {} s.hives k y) : CreditsKept s t := by
  refine ⟨ht ▸ twf_tset hw k y, fun j => ?_⟩
  rw [hiveAt, ht]
  by_cases hj : j = k
  · rw [hj, tget_tset_same hw, hy]
  · rw [tget_tset_other _ _ hj, hiveAt]

theorem putHive_hives (s : State) (k : Nat) (y : Hive) : ∃ n, (putHive s k y).hives = tset {} s.hives k { y with epoch := n } := by
  unfold putHive
  dsimp only
  split
  · exact ⟨_, rfl⟩
  · exact ⟨_, rfl⟩

theorem modHive_credits (hw : twf {} s.hives = true) {f : Hive → Hive} (hf : ∀ y, (f y).credits = y.credits) (k : Nat) :
    CreditsKept s (modHive s k f) := by
  obtain ⟨n, hn⟩ := putHive_hives s k (f (hiveAt s k))
  exact creditsKept_tset hw (y := { f (hiveAt s k) with epoch := n }) (hf _) hn

theorem bumpComb_credits (hw : twf {} s.hives = true) (ks : List Nat) : CreditsKept s (bumpComb s ks) :=
  foldl_keeps (P := CreditsKept s) (fun v k hv => hv.trans
    (creditsKept_tset hv.canon (k := k) (y := { hiveAt v k with epoch := (hiveAt v k).epoch + 1 }) rfl rfl)) ks (.refl hw)

theorem deactivate_credits (hw : twf {} s.hives = true) (areas : List (Nat × Nat)) : CreditsKept s (deactivate s areas) := by
  unfold deactivate
  extract_lets a
  have hset : CreditsKept s { s with active := a } := creditsKept_of_same hw (set_active_same s a) (by decide)
  exact hset.trans (bumpComb_credits hset.canon _)

theorem putQueue_credits (hw : twf {} s.hives = true) (i : Nat) (y : Queue) : CreditsKept s (putQueue s i y) := by
  unfold putQueue
  extract_lets o z s1
  split
  · exact creditsKept_of_same hw (set_queues_same s _) (by decide)
  · exact creditsKept_tset hw (k := hiveOf (i / 1024)) (y := { hiveAt s (hiveOf (i / 1024)) with
      pqmEpoch := (hiveAt s (hiveOf (i / 1024))).pqmEpoch + 1 }) rfl rfl

theorem flushed_credits (hw : twf {} s.hives = true) (i : Nat) : CreditsKept s (flushed i s) := putQueue_credits hw i _

theorem closed_credits (hw : twf {} s.hives = true) (i : Nat) : CreditsKept s (closed i s) := by
  have hfree := deactivate_credits hw [bufArea (i / 1024) (queueAt s i).bufBase (queueAt s i).bufCount]
  have hv : CreditsKept s (closedFlush i s) := hfree.trans (flushed_credits hfree.canon i)
  exact closed_eq i s ▸ hv.trans (putQueue_credits hv.canon i _)

/-- The end of a flush or close leaves the credits. -/
theorem queueWork_credits (hw : twf {} s.hives = true) (hc : twf {} s.contexts = true) (i : Nat) : CreditsKept s (queueWork i s) := by
  obtain he | ⟨x, op, v, hv, he⟩ := queueWork_cases i s
  · exact he.symm ▸ .refl hw
  · have hctx : twf {} v.contexts = true := hv.contexts ▸ hc
    have hend : CreditsKept s (endWork s x) := creditsKept_of_same hw (endWork_same s x) (by decide)
    have hdone : CreditsKept s v := by
      cases hv with
      | closed => exact hend.trans (closed_credits hend.canon i)
      | flushed => exact hend.trans (flushed_credits hend.canon i)
    exact he ▸ hdone.trans (creditsKept_of_same hdone.canon (finish_same_canon hctx ..) (by decide))

end Sys2Proof.Arch

/-! O12: the play-queue commands at their decisions (R145, R150, R155). -/

namespace Sys2Proof.Arch

open Sys2Proof Sys2Proof.Machine Sys2Proof.Safety Sys2Proof.Laws Sys2Proof.Scope

variable {s t u : State} {x : Held} {h : Hdr} {i c q : Nat} {l : List Part}

/-! ### Commands answered at once -/

/-- The state in which a decided queue command acts: its queue's context has been read. -/
def contextRead (s : State) (x : Held) (i : Nat) : State := ctxTouch i (released s x)

theorem contextRead_same (s : State) (x : Held) (i : Nat) : SameBut (.held :: ctxParts) s (contextRead s x i) :=
  (released_same s x).andThen (ctxTouch_same i _)

/-- Its queue is as it was but for STATE and ERR. -/
theorem contextRead_record (hl : Live s) (x : Held) (i : Nat) :
    QueueSet i (contextRecord i (released s x)) s (contextRead s x i) := by
  obtain ⟨hcanon, hhere, hother⟩ := ctxTouch_record (s := released s x) hl.canon.queues i
  exact ⟨hcanon, hhere, hother⟩

theorem contextRead_live (hl : Live s) (x : Held) (i : Nat) : qLive (queueAt (contextRead s x i) i) = qLive (queueAt s i) :=
  (contextRead_record hl x i).field qLive fun _ _ => rfl

/-- A queue command answered once its queue's context has been read. -/
theorem completes_contextRead {cmd : Instr} {op : Nat} {un : Option (Nat × Nat)} {st : Err} {r : List Byte} (hd : Decides s x cmd)
    (hn : ∀ g k, cmd ≠ .capTrigger g k) (hc : ∀ s k, actsOnCell s k cmd = false)
    (he : decideCmd x (released s x) = finish (contextRead s x i) x op un st r) : Completes .commandDecision s fun t =>
      Replied s t x op st r ∧ SameBut [.mailboxes, .col] (contextRead s x i) t := by
  refine completes_of_decides_plain hd hn hc ?_
  rw [he]
  exact ⟨replied_of_same hd.toLive (contextRead_same s x i) (by decide) (by decide) op un st r, (finish_same _ hd.slot ..).settled s⟩

theorem queueStatus_completes (hd : Decides s x (.queueStatus h c q)) : Completes .commandDecision s fun t =>
    Replied s t x 0x0502 .ok (queueContext (contextRead s x (queueNum c q)) (queueNum c q)) ∧
    SameBut [.mailboxes, .col] (contextRead s x (queueNum c q)) t :=
  completes_contextRead hd (by simp) (fun _ _ => rfl) (un := some (3, queueNum c q)) (by rw [decideCmd, hd.cmd]; rfl)

theorem queueClose_live (hd : Decides s x (.queueClose h c q)) (hlive : qLive (queueAt s (queueNum c q)) = true) :
    Completes .commandDecision s fun t =>
      Replied s t x 0x0501 .badState [] ∧ SameBut [.mailboxes, .col] (contextRead s x (queueNum c q)) t := by
  refine completes_contextRead hd (by simp) (fun _ _ => rfl) (un := some (3, queueNum c q)) ?_
  rw [← contextRead_live hd.toLive x] at hlive
  rw [decideCmd, hd.cmd]
  exact if_pos hlive

theorem queueFlush_live (hd : Decides s x (.queueFlush h c q)) (hlive : qLive (queueAt s (queueNum c q)) = true) :
    Completes .commandDecision s fun t =>
      Replied s t x 0x0503 .badState [] ∧ SameBut [.mailboxes, .col] (contextRead s x (queueNum c q)) t := by
  refine completes_contextRead hd (by simp) (fun _ _ => rfl) (un := some (3, queueNum c q)) ?_
  rw [← contextRead_live hd.toLive x] at hlive
  rw [decideCmd, hd.cmd]
  exact if_pos (.inl hlive)

theorem queueClose_closed (hd : Decides s x (.queueClose h c q)) (hlive : qLive (queueAt s (queueNum c q)) = false)
    (hst : (queueAt (contextRead s x (queueNum c q)) (queueNum c q)).st = .closed) : Completes .commandDecision s fun t =>
      Replied s t x 0x0501 .ok [] ∧ SameBut [.mailboxes, .col] (contextRead s x (queueNum c q)) t := by
  refine completes_contextRead hd (by simp) (fun _ _ => rfl) (un := some (3, queueNum c q)) ?_
  rw [← contextRead_live hd.toLive x] at hlive
  rw [decideCmd, hd.cmd]
  exact (if_neg (ne_true_of_eq_false hlive)).trans (if_pos hst)

/-! ### Commands that discard the blocks -/

/-- The blocks of a queue that are still in flight, to be discarded as they land. -/
def discarding (q : Queue) : List Blk :=
  (q.blocks.filter fun b => b.resident.isNone).map fun b => { b with discard := true, flushed := true }

theorem discarding_discarded {r : Queue} {b : Blk} (hb : b ∈ discarding r) : b.discard = true ∧ b.flushed = true := by
  obtain ⟨a, -, rfl⟩ := List.mem_map.mp hb
  exact ⟨rfl, rfl⟩

theorem qInflight_discarding (r : Queue) : qInflight { r with blocks := discarding r } = qInflight r := by
  simp [qInflight, discarding, List.filter_map]

theorem QueueSet.discard {r : Queue} (hq : QueueSet i r s u) : QueueSet i { r with blocks := discarding r } s (discardBlocks i u) := by
  have hblocks : discarding (queueAt u i) = discarding r := hq.field discarding fun _ _ => rfl
  rw [← hblocks]
  exact hq.set (f := fun y => { y with blocks := discarding (queueAt u i) }) fun _ n => ⟨n, rfl⟩

theorem discardBlocks_same (i : Nat) (s : State) : SameBut [.queues] s (discardBlocks i s) := set_queues_same s _

/-- A flush or close begun: the keeper works on it, and the blocks are discarded. -/
def discardBegun (s : State) (x : Held) (i : Nat) : State := discardBlocks i (beginWork (contextRead s x i) x)

/-- The record of the queue that a flush or close has begun to empty. -/
def discardRecord (s : State) (x : Held) (i : Nat) : Queue :=
  { contextRecord i (released s x) with blocks := discarding (contextRecord i (released s x)) }

theorem discardBegun_set (hl : Live s) (x : Held) (i : Nat) : QueueSet i (discardRecord s x i) s (discardBegun s x i) :=
  ((contextRead_record hl x i).keep (set_works_same _ _) (by decide)).discard

theorem discardBegun_inflight (hl : Live s) (x : Held) (i : Nat) : qInflight (queueAt (discardBegun s x i) i) = qInflight (queueAt s i) :=
  ((discardBegun_set hl x i).field qInflight fun _ _ => rfl).trans (qInflight_discarding _)

theorem decide_queueClose (hd : Decides s x (.queueClose h c q)) (hlive : qLive (queueAt s (queueNum c q)) = false)
    (hst : (queueAt (contextRead s x (queueNum c q)) (queueNum c q)).st ≠ .closed) :
    decideCmd x (released s x) = queueWork (queueNum c q) (discardBegun s x (queueNum c q)) := by
  rw [← contextRead_live hd.toLive x] at hlive
  rw [decideCmd, hd.cmd]
  exact (if_neg (ne_true_of_eq_false hlive)).trans (if_neg hst)

theorem decide_queueFlush (hd : Decides s x (.queueFlush h c q)) (hlive : qLive (queueAt s (queueNum c q)) = false)
    (hst : (queueAt (contextRead s x (queueNum c q)) (queueNum c q)).st = .opened ∨
      (queueAt (contextRead s x (queueNum c q)) (queueNum c q)).st = .failed) :
    decideCmd x (released s x) = queueWork (queueNum c q) (discardBegun s x (queueNum c q)) := by
  rw [← contextRead_live hd.toLive x] at hlive
  rw [decideCmd, hd.cmd]
  refine if_neg ?_
  rintro (hyes | ⟨hopened, hfailed⟩)
  · exact ne_true_of_eq_false hlive hyes
  · exact hst.elim hopened hfailed

theorem queueClose_waits (hd : Decides s x (.queueClose h c q)) (hlive : qLive (queueAt s (queueNum c q)) = false)
    (hst : (queueAt (contextRead s x (queueNum c q)) (queueNum c q)).st ≠ .closed) (hin : 0 < qInflight (queueAt s (queueNum c q))) :
    Completes .commandDecision s fun t => QueueSet (queueNum c q) (discardRecord s x (queueNum c q)) s t ∧
      SameBut [.queues] (beginWork (contextRead s x (queueNum c q)) x) t := by
  refine completes_of_decides_plain hd (by simp) (fun _ _ => rfl) ?_
  rw [decide_queueClose hd hlive hst, queueWork_waits (by rwa [discardBegun_inflight hd.toLive])]
  exact ⟨(discardBegun_set hd.toLive x _).settled s, (discardBlocks_same _ _).settled s⟩

/-! ### A flush or close without a block in flight -/

/-- No flush or close of the queue waits before a command. -/
def noWork (s : State) (i : Nat) : Prop :=
  ∀ y ∈ s.works, ∀ g a b, queueNum a b = i → y.cmd ≠ .queueClose g a b ∧ y.cmd ≠ .queueFlush g a b

theorem noWork_worksOn (hno : noWork s i) {y : Held} (hy : y ∈ s.works) : ¬ worksOn i y.cmd = true := by
  intro hon
  unfold worksOn at hon
  split at hon
  next g a b hc => exact (hno y hy g a b (of_decide_eq_true hon)).1 hc
  next g a b hc => exact (hno y hy g a b (of_decide_eq_true hon)).2 hc
  next => cases hon

/-- The command is the oldest work that its queue has. -/
theorem discardBegun_oldest {cmd : Instr} (hd : Decides s x cmd) (hno : noWork s i) (hon : worksOn i x.cmd = true) :
    Oldest (discardBegun s x i) (fun k => worksOn i k = true) x (contextRead s x i).works := by
  have hworks : (contextRead s x i).works = s.works := (contextRead_same s x i).same .works (by decide)
  exact ⟨hd.slot, _, [], rfl, hon, fun y hy => noWork_worksOn hno (hworks ▸ hy), by simp⟩

/-- A queue emptied, with the flush or close answered. -/
theorem completes_emptied {cmd : Instr} {op : Nat} {un : Option (Nat × Nat)} {r : Queue} {v : State} (hd : Decides s x cmd)
    (hn : ∀ g k, cmd ≠ .capTrigger g k) (hc : ∀ s k, actsOnCell s k cmd = false) (hm : Part.mailboxes ∉ l) (ht : Part.time ∉ l)
    (he : decideCmd x (released s x) = finish v x op un .ok) (hq : QueueSet i r s v) (hv : SameBut l (contextRead s x i) v) :
    Completes .commandDecision s fun t =>
      QueueSet i r s t ∧ Replied s t x op .ok [] ∧ SameBut (l ++ [.mailboxes, .col]) (contextRead s x i) t := by
  refine completes_of_decides_plain hd hn hc ?_
  rw [he]
  have hreply := finish_same v hd.slot op un .ok []
  refine ⟨(hq.keep hreply (by decide)).settled s,
    replied_of_same hd.toLive ((contextRead_same s x i).andThen hv) ?_ ?_ op un .ok [], (hv.andThen hreply).settled s⟩
  · simp [hm, ctxParts]
  · simp [ht, ctxParts]

theorem queueClose_ends (hd : Decides s x (.queueClose h c q)) (hlive : qLive (queueAt s (queueNum c q)) = false)
    (hst : (queueAt (contextRead s x (queueNum c q)) (queueNum c q)).st ≠ .closed) (hin : qInflight (queueAt s (queueNum c q)) = 0)
    (hno : noWork s (queueNum c q)) : Completes .commandDecision s fun t =>
      QueueSet (queueNum c q) { queueFlushed (discardRecord s x (queueNum c q)) with st := .closed } s t ∧ Replied s t x 0x0501 .ok [] ∧
      SameBut [.active, .hives, .queues, .mailboxes, .col] (contextRead s x (queueNum c q)) t := by
  have hold := discardBegun_oldest hd hno (by simp [hd.cmd, worksOn])
  have hend := queueWork_ends ((discardBegun_inflight hd.toLive x _).trans hin) hold
  rw [hd.cmd] at hend
  exact completes_emptied (l := [.active, .hives, .queues]) hd (by simp) (fun _ _ => rfl) (by decide) (by decide)
    ((decide_queueClose hd hlive hst).trans hend) (contextRead_record hd.toLive x _).discard.closed
    (((discardBlocks_same _ _).andThen (closed_same _ _)).mono (by decide))

theorem queueFlush_ends (hd : Decides s x (.queueFlush h c q)) (hlive : qLive (queueAt s (queueNum c q)) = false)
    (hst : (queueAt (contextRead s x (queueNum c q)) (queueNum c q)).st = .opened ∨
      (queueAt (contextRead s x (queueNum c q)) (queueNum c q)).st = .failed) (hin : qInflight (queueAt s (queueNum c q)) = 0)
    (hno : noWork s (queueNum c q)) : Completes .commandDecision s fun t =>
      QueueSet (queueNum c q) (queueFlushed (discardRecord s x (queueNum c q))) s t ∧ Replied s t x 0x0503 .ok [] ∧
      SameBut [.hives, .queues, .mailboxes, .col] (contextRead s x (queueNum c q)) t := by
  have hold := discardBegun_oldest hd hno (by simp [hd.cmd, worksOn])
  have hend := queueWork_ends ((discardBegun_inflight hd.toLive x _).trans hin) hold
  rw [hd.cmd] at hend
  exact completes_emptied (l := [.hives, .queues]) hd (by simp) (fun _ _ => rfl) (by decide) (by decide)
    ((decide_queueFlush hd hlive hst).trans hend) (contextRead_record hd.toLive x _).discard.flushed
    (((discardBlocks_same _ _).andThen (flushed_same _ _)).mono (by decide))

/-! ### QUEUE_OPEN (R145, R150) -/

/-- The record of a queue as QUEUE_OPEN opens it. -/
def queueOpened (rb sl m tl bb bc : Nat) : Queue :=
  { ringBase := rb, sizeLog2 := sl, mode := m, st := .opened, tail := if m = 0 then tl else 0, bufBase := bb / 4096, bufCount := bc }

/-- The queue opened, its buffers active. -/
def openedState (i : Nat) (a : Nat × Nat) (r : Queue) (s : State) : State :=
  putQueue (activate s [a]) i { r with epoch := (queueAt (activate s [a]) i).epoch }

theorem openedState_same (i : Nat) (a : Nat × Nat) (r : Queue) (s : State) :
    SameBut [.active, .hives, .jnl, .queues] s (openedState i a r s) :=
  ((activate_same s [a]).andThen (putQueue_same ..)).mono (by decide)

theorem activate_active (s : State) (a : Nat × Nat) :
    (activate s [a]).active = forUp (fun g m => tmod 0 m g (· + 1)) a.2 a.1 s.active := by
  unfold activate
  extract_lets hs a'
  have hjnl : SameBut ([.hives] ++ [.jnl]) { s with active := a' } (activate s [a]) :=
    (bumpComb_same _ hs).andThen (.foldl (fun u _ => jput_same u _ _) [a] _)
  exact hjnl.same .active (by decide)

/-- Activity counted at every granule of an area. -/
theorem forUp_counts {m : Tab Nat} (hw : twf 0 m = true) {n a g : Nat} (ha : a ≤ g) (hg : g < a + n) :
    0 < tget 0 (forUp (fun g m => tmod 0 m g (· + 1)) n a m) g := by
  induction n generalizing a m with
  | zero => omega
  | succ n ih =>
    rw [forUp]
    have hw' := twf_tmod hw a (· + 1)
    by_cases hag : a = g
    · subst hag
      have hfirst : twf 0 (tmod 0 m a (· + 1)) = true ∧ 0 < tget 0 (tmod 0 m a (· + 1)) a :=
        ⟨hw', by rw [tget_tmod_same hw]; omega⟩
      refine (forUp_keeps (P := fun m => twf 0 m = true ∧ 0 < tget 0 m a) (fun k v hv => ⟨twf_tmod hv.1 .., ?_⟩) n (a + 1) hfirst).2
      by_cases hk : a = k
      · subst hk
        rw [tget_tmod_same hv.1]
        omega
      · rw [tget_tmod_other _ _ hk]
        exact hv.2
    · exact ih hw' (by omega) (by omega)

/-- The granules that begin within a span, where it begins with a granule. -/
theorem lt_granules {ca len g : Nat} (hca : ca % 256 = 0) (hg : 256 * g < ca + 4096 * len) :
    g < (granules ca (len * 4096)).1 + (granules ca (len * 4096)).2 := by
  simp only [granules]
  split <;> omega

/-- The queue reads as it was opened, its epoch counted from the one it had. -/
theorem queueAt_openedState {r : Queue} {a : Nat × Nat} (hw : twf {} s.queues = true) (hst : (queueAt s i).st ≠ r.st) :
    queueAt (openedState i a r s) i = { r with epoch := (queueAt s i).epoch + 1 } := by
  have hact := activate_same s [a]
  have hcanon : twf {} (activate s [a]).queues = true := by rwa [hact.same .queues (by decide)]
  have hread : queueAt (activate s [a]) i = queueAt s i := queueAt_of_same hact (by decide) i
  rw [openedState, queueAt_putQueue hcanon, hread]
  exact queueCounted_of_st hst.symm

theorem queueAt_openedState_other {r : Queue} {a : Nat × Nat} (hw : twf {} s.queues = true) {j : Nat} (hj : j ≠ i) :
    queueAt (openedState i a r s) j = queueAt s j :=
  (((QueueSet.refl hw i).keep (activate_same s [a]) (by decide)).put _).other j hj

/-- The area's granules are active. -/
theorem openedState_active {r : Queue} {a : Nat × Nat} (hw : twf 0 s.active = true) {g : Nat} (hlo : a.1 ≤ g) (hhi : g < a.1 + a.2) :
    0 < tget 0 (openedState i a r s).active g := by
  rw [openedState, putQueue_active, activate_active]
  exact forUp_counts hw hlo hhi

theorem decide_queueOpen {rb sl m tl bb bc : Nat} (hd : Decides s x (.queueOpen h c q rb sl m tl bb bc))
    (hst : (queueAt s (queueNum c q)).st = .closed) (hfree : firstHeldGranule s (combAddr (hiveOf c) 0 bb) (4096 * bc) = none) :
    decideCmd x (released s x) =
      openedState (queueNum c q) (bufArea c (bb / 4096) bc) (queueOpened rb sl m tl bb bc) (contextRead s x (queueNum c q)) := by
  rw [decideCmd, hd.cmd]
  refine if_neg ?_
  rintro (hopen | hheld)
  · exact hopen hst
  · exact Bool.false_ne_true ((congrArg Option.isSome hfree).symm.trans hheld)

theorem queueOpen_completes {rb sl m tl bb bc : Nat} (hd : Decides s x (.queueOpen h c q rb sl m tl bb bc))
    (hst : (queueAt s (queueNum c q)).st = .closed) (hfree : firstHeldGranule s (combAddr (hiveOf c) 0 bb) (4096 * bc) = none) :
    Completes .commandDecision s fun t =>
      queueAt t (queueNum c q) = { queueOpened rb sl m tl bb bc with
        epoch := (queueAt (contextRead s x (queueNum c q)) (queueNum c q)).epoch + 1 } ∧
      (∀ i, i ≠ queueNum c q → queueAt t i = queueAt s i) ∧
      (∀ g, combAddr (hiveOf c) 0 (bb / 4096 * 4096) / 256 ≤ g → 256 * g < combAddr (hiveOf c) 0 (bb / 4096 * 4096) + 4096 * bc →
        0 < tget 0 t.active g) ∧
      SameBut [.active, .hives, .jnl, .queues] (contextRead s x (queueNum c q)) t := by
  have hread := contextRead_record hd.toLive x (queueNum c q)
  have hactive : twf 0 (contextRead s x (queueNum c q)).active = true := by
    rw [(contextRead_same s x _).same .active (by decide)]
    exact hd.canon.active
  refine completes_of_decides_plain hd (by simp) (fun _ _ => rfl) ?_
  rw [decide_queueOpen hd hst hfree]
  refine ⟨?_, fun i hi => ?_, fun g hlo hhi => ?_, (openedState_same ..).settled s⟩
  · rw [queueAt_settle]
    exact queueAt_openedState hread.canon
      (ctxTouch_not_opened (s := released s x) hd.canon.queues fun ho => by cases hst.symm.trans ho)
  · rw [queueAt_settle, queueAt_openedState_other hread.canon hi, hread.other i hi]
  · rw [settle_active]
    exact openedState_active hactive hlo (lt_granules (by simp [combAddr]; omega) hhi)

/-- Settles O12: each command by what it does once its queue's context has been read; a flush or close empties its queue where no block is
in flight, and else waits. -/
theorem queueDecisions : Obligations.QueueDecisions := by
  unfold Obligations.QueueDecisions
  refine ⟨fun s x h c q rb sl m tl bb bc hd hst hfree => queueOpen_completes hd hst hfree,
    fun s x h c q hd => queueStatus_completes hd,
    fun s x h c q hd hlive => queueClose_live hd hlive,
    fun s x h c q hd hlive => ?_, fun s x h c q hd hlive => ?_, fun s x h c q hd hlive => ?_,
    fun s x h c q hd hlive => queueFlush_live hd hlive, fun s x h c q hd hlive => ?_⟩
  · intro u hst
    exact queueClose_closed hd hlive hst
  · intro u hst hin hno
    obtain ⟨t, ht, hset, hreply, hsame⟩ := queueClose_ends hd hlive hst hin hno
    exact ⟨t, ht, hset.field Queue.st fun _ _ => rfl, hset.field Queue.blocks fun _ _ => rfl, hset.field Queue.pos fun _ _ => rfl,
      hset.field Queue.err fun _ _ => rfl, hset.other, hreply, hsame⟩
  · intro u hst hin
    obtain ⟨t, ht, hset, hsame⟩ := queueClose_waits hd hlive hst hin
    have hblocks : (queueAt t (queueNum c q)).blocks = discarding (contextRecord (queueNum c q) (released s x)) :=
      hset.field Queue.blocks fun _ _ => rfl
    exact ⟨t, ht, fun b hb => discarding_discarded (hblocks ▸ hb), hset.field Queue.st fun _ _ => rfl,
      (hset.field qInflight fun _ _ => rfl).trans (qInflight_discarding _), hset.other, hsame⟩
  · intro u hst hin hno
    obtain ⟨t, ht, hset, hreply, hsame⟩ := queueFlush_ends hd hlive hst hin hno
    exact ⟨t, ht, hset.field Queue.st fun _ _ => rfl, hset.field Queue.blocks fun _ _ => rfl, hset.field Queue.pos fun _ _ => rfl,
      hset.field Queue.err fun _ _ => rfl, hset.field Queue.head fun _ _ => rfl, hset.field Queue.tail fun _ _ => rfl, hset.other,
      hreply, hsame⟩

end Sys2Proof.Arch

/-! Doorbells (R152, R153, R154). -/

namespace Sys2Proof.Arch

open Sys2Proof Sys2Proof.Machine Sys2Proof.Safety Sys2Proof.Laws Sys2Proof.Scope

variable {s : State} {k off : Nat} {d : Doorbell} {r : List Doorbell}

/-! ### Doorbells written -/

theorem pqmFault_same (s : State) (bit cls i acc master : Nat) : SameBut [.faults] s (pqmFault s bit cls i acc master) := raise_same s _

/-- The FIFO with a doorbell behind the aperture's writes of now. -/
def doorbellQueued (k : Nat) (v : DWord) (s : State) : State :=
  { s with doorbells := s.doorbells ++ [⟨k, 64, v, (s.bulk.ops.filter fun o => !o.read).map (·.id)⟩] }

theorem completes_doorbellWrite {w : Nat} {v : DWord} {P : State → Prop} (hl : Live s) (hk : k < 16)
    (hp : P (settle s (doorbellWrite k off w v s))) : Completes (.doorbellWrite k off w v) s P :=
  .of_act (f := doorbellWrite k off w v) hl.alive (if_pos (decide_eq_true hk)) hp

theorem doorbellWrite_queued {v : DWord} (hl : Live s) (hk : k < 16) (hroom : s.doorbells.length < 512) (ho : off % 8 = 0) :
    Completes (.doorbellWrite k off 64 v) s (SameBut [] (doorbellQueued k v s)) := by
  have hq : doorbellWrite k off 64 v s = doorbellQueued k v s := by
    rw [doorbellWrite, if_neg (by omega), if_pos ho]
    rfl
  exact completes_doorbellWrite hl hk (hq ▸ (SameBut.refl _ _).settled s)

theorem doorbellWrite_overrun {w : Nat} {v : DWord} (hl : Live s) (hk : k < 16) (hfull : 512 ≤ s.doorbells.length)
    (hm : (fltAt s .pqm).mask.getLsbD 1 = false) : Completes (.doorbellWrite k off w v) s fun t =>
      (fltAt t .pqm).status.getLsbD 1 = true ∧ SameBut [.faults] s t := by
  have hq : doorbellWrite k off w v s = pqmFault s 1 1 (bits v.toNat 0 20) := if_pos hfull
  refine completes_doorbellWrite hl hk ?_
  rw [hq, fltAt_of_same (settle_same s _) (by simp)]
  exact ⟨raise_status (hw := hl.canon.faults) (show 1 < 32 by decide) hm, (pqmFault_same s 1 1 _ 1 8).settled s⟩

/-! ### Doorbells applied -/

/-- The queue that a doorbell names. -/
def rungQueue (d : Doorbell) : Nat := bits d.value.toNat 0 20

/-- A doorbell taken from the FIFO, its queue's context read where the device has the cell. -/
def doorbellTaken (d : Doorbell) (r : List Doorbell) (s : State) : State :=
  if rungQueue d / 1024 < nCells s then ctxTouch (rungQueue d) { s with doorbells := r } else { s with doorbells := r }

/-- A write of the aperture that came before a doorbell has not completed. -/
def writesBefore (s : State) (d : Doorbell) : Bool := s.bulk.ops.any fun o => d.after.contains o.id

/-- A queue's TAIL moved by a doorbell. -/
def tailMoved (d : Doorbell) (s : State) : State := modQueue s (rungQueue d) fun q => { q with tail := bits d.value.toNat 20 16 }

theorem doorbellApply_cons (hq : s.doorbells = d :: r) : ∃ p, doorbellApply s =
    if writesBefore s d then s
    else if doorbellBad (doorbellTaken d r s) d then pqmFault (doorbellTaken d r s) 0 1 (rungQueue d)
    else jput (tailMoved d (doorbellTaken d r s)) s.time.tick p := by
  unfold doorbellApply
  rw [hq]
  exact ⟨_, rfl⟩

theorem doorbellApply_waits (hl : Live s) (hq : s.doorbells = d :: r) (hw : writesBefore s d = true) :
    Completes .doorbellApply s (SameBut [] s) := by
  obtain ⟨p, he⟩ := doorbellApply_cons hq
  refine .of_act (f := doorbellApply) hl.alive rfl ?_
  rw [he, if_pos hw]
  exact (SameBut.refl _ _).settled s

theorem doorbellApply_rejected (hl : Live s) (hq : s.doorbells = d :: r) (hw : writesBefore s d = false)
    (hbad : doorbellBad (doorbellTaken d r s) d = true) : Completes .doorbellApply s (SameBut [.faults] (doorbellTaken d r s)) := by
  obtain ⟨p, he⟩ := doorbellApply_cons hq
  refine .of_act (f := doorbellApply) hl.alive rfl ?_
  rw [he, if_neg (ne_true_of_eq_false hw), if_pos hbad]
  exact (pqmFault_same _ 0 1 _ 1 8).settled s

/-- An accepted doorbell moves its queue's TAIL. -/
theorem doorbellApply_moves (hl : Live s) (hq : s.doorbells = d :: r) (hw : writesBefore s d = false)
    (hgood : doorbellBad (doorbellTaken d r s) d = false) (hc : rungQueue d / 1024 < nCells s) : Completes .doorbellApply s fun t =>
      QueueSet (rungQueue d) { contextRecord (rungQueue d) { s with doorbells := r } with tail := bits d.value.toNat 20 16 } s t ∧
      SameBut [.jnl, .queues] (doorbellTaken d r s) t := by
  obtain ⟨p, he⟩ := doorbellApply_cons hq
  have htaken : doorbellTaken d r s = ctxTouch (rungQueue d) { s with doorbells := r } := if_pos hc
  have hread : QueueSet (rungQueue d) (contextRecord (rungQueue d) { s with doorbells := r }) s (doorbellTaken d r s) := by
    obtain ⟨hcanon, hhere, hother⟩ := ctxTouch_record (s := { s with doorbells := r }) hl.canon.queues (rungQueue d)
    exact htaken ▸ ⟨hcanon, hhere, hother⟩
  have hmoved : SameBut [.queues] (doorbellTaken d r s) (tailMoved d (doorbellTaken d r s)) := putQueue_same_of_st rfl
  refine .of_act (f := doorbellApply) hl.alive rfl ?_
  rw [he, if_neg (ne_true_of_eq_false hw), if_neg (ne_true_of_eq_false hgood)]
  have htail := hread.mod (f := fun q => { q with tail := bits d.value.toNat 20 16 }) fun _ n => ⟨n, rfl⟩
  have hput := jput_same (tailMoved d (doorbellTaken d r s)) s.time.tick p
  exact ⟨(htail.keep hput (by decide)).settled s, ((hmoved.andThen hput).mono (by decide)).settled s⟩

end Sys2Proof.Arch

/-! Refill: blocks requested (R156, R157, R164, R166). -/

namespace Sys2Proof.Arch

open Sys2Proof Sys2Proof.Machine Sys2Proof.Safety Sys2Proof.Laws Sys2Proof.Scope

variable {s t u v : State} {h i n : Nat} {q : Queue} {l : List Part}

theorem completes_refillIssue {P : State → Prop} (hl : Live s) (hh : h < nHives s) (hp : P (settle s (refillIssue h s))) :
    Completes (.refillIssue h) s P :=
  .of_act (f := refillIssue h) hl.alive (if_pos (decide_eq_true hh)) hp

/-- A hive without a credit requests nothing. -/
theorem refillIssue_dry (hl : Live s) (hh : h < nHives s) (hc : (hiveAt (placeWaiting s) h).credits = 0) :
    Completes (.refillIssue h) s (SameBut [] (placeWaiting s)) := by
  have hdry : refillIssue h s = placeWaiting s := if_pos hc
  exact completes_refillIssue hl hh (hdry ▸ (SameBut.refl _ _).settled s)

/-! ### The block requested -/

/-- The descriptor at HEAD has been read, and its payload's CRC-32 taken. -/
def descFetched (i : Nat) (s : State) : State := crcFetched i (touchLines 3 3 ((queueAt s i).ringBase + 32 * (queueAt s i).head) 32 s)

theorem crcFetched_same (i : Nat) (s : State) : SameBut [.jnl] s (crcFetched i s) :=
  .ite (fun _ => set_jnl_same s _) fun _ => .refl _ s

theorem descFetched_same (i : Nat) (s : State) : SameBut [.dmcs, .jnl, .faults, .dramMarks] s (descFetched i s) :=
  ((touchLines_same ..).andThen (crcFetched_same i _)).mono (by decide)

/-- The next block of a queue, as it is requested. -/
def blockRequested (s : State) (q : Queue) : Blk :=
  { off := (nextBlock s q).1, len := (nextBlock s q).2.1, addr := (nextBlock s q).2.2.1, buf := freeBuf q, taken := s.time.tick }

/-- The record of the queue past that block. -/
def requestRecord (s : State) (q : Queue) : Queue :=
  { (nextBlock s q).2.2.2 with blocks := (nextBlock s q).2.2.2.blocks ++ [blockRequested s q] }

/-- A block takes its buffer, and a credit of its hive. -/
def creditTaken (i : Nat) (q : Queue) (s : State) : State :=
  modHive (putQueue s i (requestRecord s q)) (hiveOf (i / 1024)) fun y => { y with credits := y.credits - 1, rr := i + 1 }

theorem requestBlock_requests (hf : refillable (queueAt s i) = true)
    (hquiet : dramQuiet s ((queueAt s i).ringBase + 32 * (queueAt s i).head) 32 = true) (hd : descFails s i = none)
    (hnew : (queueAt s i).pos * fmtBytes (queueAt s i).fmt <
      (nextBlock (descFetched i s) (queueAt s i)).1 + (nextBlock (descFetched i s) (queueAt s i)).2.1) : requestBlock i (n + 1) s =
    placeBlock i (blockRequested (descFetched i s) (queueAt s i)) (creditTaken i (queueAt s i) (descFetched i s)) := by
  rw [requestBlock]
  dsimp only
  rw [if_neg (by simp [hf, hquiet]), hd]
  exact if_neg (Nat.not_le.mpr hnew)

/-- The next block lies with the queue and what DRAM holds. -/
theorem nextBlock_of_same (hs : SameBut l s t) (hl : Part.dram ∉ l) (q : Queue) : nextBlock t q = nextBlock s q := by
  have hdram : t.dram = s.dram := hs.same .dram hl
  rw [nextBlock, nextBlock, playDesc, playDesc, hdram]

/-! ### Its reads placed -/

theorem placeBlock_same (i : Nat) (b : Blk) (s : State) : SameBut [.dmcs, .queues] s (placeBlock i b s) :=
  .ite (fun _ => (queuePieces_same ..).andThen (set_queues_same ..)) fun _ => .refl _ s

/-- A queue whose block takes its DRAM slots has the blocks that it had. -/
theorem QueueSet.placed (hq : QueueSet i q s u) (b : Blk) :
    ∃ bs, bs.length = q.blocks.length ∧ QueueSet i { q with blocks := bs } s (placeBlock i b u) := by
  unfold placeBlock
  dsimp only
  split
  · exact ⟨_, List.length_map _, (hq.keep (queuePieces_same ..) (by decide)).set
      (f := fun y => { y with blocks := y.blocks.map fun k => if k = b then { b with queued := true } else k }) fun _ m => ⟨m, rfl⟩⟩
  · exact ⟨q.blocks, rfl, hq⟩

theorem hiveAt_modHive (hw : twf {} s.hives = true) (k : Nat) (f : Hive → Hive) :
    ∃ m, hiveAt (modHive s k f) k = { f (hiveAt s k) with epoch := m } := by
  obtain ⟨m, hm⟩ := putHive_hives s k (f (hiveAt s k))
  exact ⟨m, by rw [hiveAt, modHive, hm, tget_tset_same hw]⟩

/-- What a refill leaves that requests a block. -/
structure BlockAsked (i : Nat) (s t : State) : Prop where
  queue : ∃ bs, bs.length = (queueAt s i).blocks.length + 1 ∧ QueueSet i { (nextBlock s (queueAt s i)).2.2.2 with blocks := bs } s t
  credits : (hiveAt t (hiveOf (i / 1024))).credits = (hiveAt s (hiveOf (i / 1024))).credits - 1
  rr : (hiveAt t (hiveOf (i / 1024))).rr = i + 1
  same : SameBut [.dmcs, .dramMarks, .faults, .hives, .jnl, .queues] s t

theorem requestRecord_of_same (hs : SameBut l s t) (hl : Part.dram ∉ l) (q : Queue) (bs : List Blk) :
    { requestRecord t q with blocks := bs } = { (nextBlock s q).2.2.2 with blocks := bs } := by
  rw [requestRecord, nextBlock_of_same hs hl]

theorem requestRecord_length (s : State) (q : Queue) : (requestRecord s q).blocks.length = q.blocks.length + 1 := List.length_append

/-- A queue of which a block is requested keeps its STATE, and so its hive's PQM_EPOCH. -/
theorem request_same (i : Nat) (s : State) : SameBut [.dmcs, .jnl, .faults, .dramMarks, .queues] s
    (putQueue (descFetched i s) i (requestRecord (descFetched i s) (queueAt s i))) := by
  have hfetch := descFetched_same i s
  have hst : (requestRecord (descFetched i s) (queueAt s i)).st = (queueAt (descFetched i s) i).st := by
    rw [queueAt_of_same hfetch (by decide)]
    rfl
  exact hfetch.andThen (putQueue_same_of_st hst)

theorem blockAsked (hl : Live s) (i : Nat) (b : Blk) : BlockAsked i s (placeBlock i b (creditTaken i (queueAt s i) (descFetched i s))) := by
  have hfetch := descFetched_same i s
  have hput := request_same i s
  have hplace := placeBlock_same i b (creditTaken i (queueAt s i) (descFetched i s))
  have hset : QueueSet i (requestRecord (descFetched i s) (queueAt s i)) s (creditTaken i (queueAt s i) (descFetched i s)) :=
    (((QueueSet.refl hl.canon.queues i).keep hfetch (by decide)).put _).keep (modHive_same ..) (by decide)
  have hhives : twf {} (putQueue (descFetched i s) i (requestRecord (descFetched i s) (queueAt s i))).hives = true := by
    rw [hput.same .hives (by decide)]
    exact hl.canon.hives
  obtain ⟨m, hm⟩ := hiveAt_modHive hhives (hiveOf (i / 1024)) fun y => { y with credits := y.credits - 1, rr := i + 1 }
  have hhive := (hiveAt_of_same hplace (by decide) (hiveOf (i / 1024))).trans hm
  rw [hiveAt_of_same hput (by decide)] at hhive
  refine ⟨?_, by rw [hhive], by rw [hhive], ?_⟩
  · obtain ⟨bs, hlen, hplaced⟩ := hset.placed b
    rw [requestRecord_length] at hlen
    rw [requestRecord_of_same hfetch (by decide)] at hplaced
    exact ⟨bs, hlen, hplaced⟩
  · exact ((hput.andThen (modHive_same ..)).andThen hplace).mono (by decide)

/-- A hive with a credit requests the next block of the queue that it picks. -/
theorem refillIssue_requests (hl : Live s) (hh : h < nHives s) (hp : placeWaiting s = s) (hc : (hiveAt s h).credits ≠ 0)
    (hpick : pickRefill s h = some i) (hquiet : dramQuiet s ((queueAt s i).ringBase + 32 * (queueAt s i).head) 32 = true)
    (hd : descFails s i = none)
    (hnew : (nextBlock s (queueAt s i)).1 + (nextBlock s (queueAt s i)).2.1 > (queueAt s i).pos * fmtBytes (queueAt s i).fmt)
    (hf : refillable (queueAt s i) = true) : Completes (.refillIssue h) s (BlockAsked i s) := by
  have hask : refillIssue h s = requestBlock i 4096 s := by
    rw [refillIssue, hp, if_neg hc, hpick]
  rw [← nextBlock_of_same (descFetched_same i s) (by decide)] at hnew
  refine completes_refillIssue hl hh ?_
  rw [hask, requestBlock_requests hf hquiet hd hnew]
  obtain ⟨⟨bs, hlen, hset⟩, hcredits, hrr, hsame⟩ := blockAsked hl i (blockRequested (descFetched i s) (queueAt s i))
  refine ⟨⟨bs, hlen, hset.settled s⟩, ?_, ?_, hsame.settled s⟩
  · rw [hiveAt_of_same (settle_same s _) (by simp), hcredits]
  · rw [hiveAt_of_same (settle_same s _) (by simp), hrr]

end Sys2Proof.Arch

/-! O13: doorbells and refill (R152, R153, R154, R156, R157, R164). -/

namespace Sys2Proof.Arch

open Sys2Proof Sys2Proof.Machine Sys2Proof.Safety Sys2Proof.Laws Sys2Proof.Scope

variable {s t u : State} {c i k n q : Nat} {b : Blk}

/-! ### The end of a block -/

/-- The block of a queue that a buffer holds, its reads completed and not yet resident. -/
def readBlock (s : State) (i k : Nat) : Option Blk := (queueAt s i).blocks.find? fun b => b.buf = k && b.resident.isNone && b.read

theorem completes_blockResident {P : State → Prop} (hl : Live s) (hc : c < nCells s) (hq : q < 1024)
    (hp : P (settle s (blockResident c q k s))) : Completes (.blockResident c q k) s P :=
  .of_act (f := blockResident c q k) hl.alive (if_pos (by simp [hc, hq])) hp

theorem blockResident_none (hb : readBlock s (queueNum c q) k = none) : blockResident c q k s = s := by
  unfold blockResident
  dsimp only
  rw [show (queueAt s (queueNum c q)).blocks.find? _ = none from hb]

theorem refillTook_same (i addr lat : Nat) (s : State) : SameBut [.hives, .faults] s (refillTook i addr lat s) := by
  unfold refillTook
  extract_lets s1
  have hlat : SameBut [.hives] s s1 := modHive_same s _ _
  exact .ite (fun _ => hlat.andThen (raise_same ..)) fun _ => hlat.mono (by decide)

theorem refillTook_credits (hw : twf {} s.hives = true) (i addr lat : Nat) : CreditsKept s (refillTook i addr lat s) := by
  unfold refillTook
  extract_lets s1
  have hlat : CreditsKept s s1 := by
    refine modHive_credits hw ?_ _
    exact fun _ => rfl
  split
  · exact hlat.trans (creditsKept_of_same hlat.canon (raise_same ..) (by decide))
  · exact hlat

/-- A credit that has returned to a hive. -/
structure CreditBack (k : Nat) (s t : State) : Prop where
  canon : twf {} t.hives = true
  credits : (hiveAt t k).credits = min 64 ((hiveAt s k).credits + 1)

theorem CreditBack.trans (h : CreditBack k s u) (h' : CreditsKept u t) : CreditBack k s t := ⟨h'.canon, (h'.credits k).trans h.credits⟩

theorem CreditBack.settled (h : CreditBack k s t) (s0 : State) : CreditBack k s (settle s0 t) :=
  h.trans (creditsKept_of_same h.canon (settle_same s0 t) (by simp))

theorem CreditBack.after {l : List Part} (h' : CreditBack k u t) (h : SameBut l s u) (hl : Part.hives ∉ l) : CreditBack k s t :=
  ⟨h'.canon, by rw [h'.credits, hiveAt_of_same h hl]⟩

theorem creditBack_modHive {f : Hive → Hive} (hw : twf {} s.hives = true)
    (hf : ∀ y, (f y).credits = min 64 (y.credits + 1)) (k : Nat) : CreditBack k s (modHive s k f) := by
  obtain ⟨m, hm⟩ := putHive_hives s k (f (hiveAt s k))
  refine ⟨(congrArg (twf {} ·) hm).trans (twf_tset hw ..), ?_⟩
  rw [hiveAt, modHive, hm, tget_tset_same hw, ← hf]

/-! ### A block that becomes resident -/

theorem length_memRead (m : List Host.Cell) (a n : Nat) : (memRead m a n).length = n := by
  induction n generalizing a with
  | zero => rfl
  | succ n ih => rw [memRead, List.length_cons, ih]

/-- Where a block's buffer lies in the comb. -/
def blockAddr (s : State) (c i : Nat) (b : Blk) : Nat := combAddr (hiveOf c) 0 (((queueAt s i).bufBase + b.buf) * 4096)

/-- A block resident at a tick. -/
def blockLanded (tick : Nat) (b : Blk) : Blk := { b with resident := some tick, img := [] }

/-- The block's bytes stored, and the block resident. -/
def residentState (c i : Nat) (b : Blk) (s : State) : State :=
  let v := combStore s (blockAddr s c i b) (memRead b.img b.addr b.len)
  { v with queues := tmod {} v.queues i fun y =>
      { y with blocks := (queueAt v i).blocks.map fun k => if k = b then blockLanded s.time.tick b else k } }

/-- Its credit returned. -/
def residentCredit (c i : Nat) (b : Blk) (s : State) : State :=
  modHive (residentState c i b s) (hiveOf c) fun y => { y with credits := min 64 (y.credits + 1), refillCount := y.refillCount + 1 }

theorem blockResident_lands (hb : readBlock s (queueNum c q) k = some b) (hd : b.discard = false) : blockResident c q k s =
    refillTook (queueNum c q) b.addr (s.time.tick - b.taken) (residentCredit c (queueNum c q) b s) := by
  unfold blockResident
  dsimp only
  rw [show (queueAt s (queueNum c q)).blocks.find? _ = some b from hb]
  exact if_neg (ne_true_of_eq_false hd)

/-- What a block leaves that has become resident. -/
structure BlockLanded (c i : Nat) (b : Blk) (s t : State) : Prop where
  blocks : (queueAt t i).blocks = (queueAt s i).blocks.map fun k => if k = b then blockLanded s.time.tick b else k
  credit : CreditBack (hiveOf c) s t
  comb : t.comb = memWrite s.comb (blockAddr s c i b) (memRead b.img b.addr b.len)
  same : SameBut [.comb, .combMarks, .faults, .grave, .hives, .queues] s t

/-- The bytes are stored where no granule of the buffer is bad (R142). -/
theorem blockStored (hgood : ((wordsOf (blockAddr s c i b) b.len).any fun w => granuleBad s (w / 32)) = false) :
    SpanStored (blockAddr s c i b) (memRead b.img b.addr b.len) s (combStore s (blockAddr s c i b) (memRead b.img b.addr b.len)) := by
  refine combStore_stored fun w hw => ?_
  rw [length_memRead] at hw
  simpa using List.any_eq_false.mp hgood w hw

theorem residentState_landed (hl : Live s) (i : Nat)
    (hgood : ((wordsOf (blockAddr s c i b) b.len).any fun w => granuleBad s (w / 32)) = false) :
    BlockLanded c i b s (residentCredit c i b s) := by
  have hstore := blockStored hgood
  have hsame : SameBut ([.comb, .combMarks, .grave] ++ [.queues]) s (residentState c i b s) :=
    hstore.same.andThen (set_queues_same _ (residentState c i b s).queues)
  have hback : SameBut [.hives] (residentState c i b s) (residentCredit c i b s) := modHive_same ..
  have hset : QueueSet i _ s (residentState c i b s) :=
    ((QueueSet.refl hl.canon.queues i).keep hstore.same (by decide)).set fun _ n => ⟨n, rfl⟩
  have hhives : twf {} (residentState c i b s).hives = true := by
    rw [hsame.same .hives (by decide)]
    exact hl.canon.hives
  refine ⟨?_, ?_, ?_, (hsame.andThen hback).mono (by decide)⟩
  · rw [(hset.keep hback (by decide)).field Queue.blocks fun _ _ => rfl, queueAt_of_same hstore.same (by decide)]
  · refine (creditBack_modHive hhives ?_ _).after hsame (by decide)
    exact fun _ => rfl
  · exact (hback.same .comb (by decide)).trans hstore.comb

/-- What follows without a change of queues, credits or comb keeps what the block left. -/
theorem BlockLanded.keep (h : BlockLanded c i b s u) (h' : SameBut [.hives, .faults] u t) (hk : CreditsKept u t) :
    BlockLanded c i b s t :=
  ⟨(congrArg Queue.blocks (queueAt_of_same h' (by decide) i)).trans h.blocks, h.credit.trans hk,
    (h'.same .comb (by decide)).trans h.comb, (h.same.andThen h').mono (by decide)⟩

theorem blockResident_completes (hl : Live s) (hc : c < nCells s) (hq : q < 1024) (hb : readBlock s (queueNum c q) k = some b)
    (hd : b.discard = false)
    (hgood : ((wordsOf (blockAddr s c (queueNum c q) b) b.len).any fun w => granuleBad s (w / 32)) = false) :
    Completes (.blockResident c q k) s (BlockLanded c (queueNum c q) b s) := by
  have hland := residentState_landed hl (queueNum c q) hgood
  have htook := hland.keep (refillTook_same (queueNum c q) b.addr (s.time.tick - b.taken) _) (refillTook_credits hland.credit.canon ..)
  refine completes_blockResident hl hc hq ?_
  rw [blockResident_lands hb hd]
  exact htook.keep ((settle_same s _).mono (by simp)) (creditsKept_of_same htook.credit.canon (settle_same s _) (by simp))

/-! ### A block that is discarded -/

/-- A discarded block's place counted, unless a flush discarded it. -/
def discardCounted (c i : Nat) (b : Blk) (s : State) : State :=
  modHive (dropBlock i b s) (hiveOf c) fun y => { y with skipCount := if b.flushed then y.skipCount else sat 0xFFFFFFFF y.skipCount }

theorem blockResident_drops (hb : readBlock s (queueNum c q) k = some b) (hd : b.discard = true) : blockResident c q k s =
    refillTook (queueNum c q) b.addr (s.time.tick - b.taken) (discardCounted c (queueNum c q) b s) := by
  unfold blockResident
  dsimp only
  rw [show (queueAt s (queueNum c q)).blocks.find? _ = some b from hb]
  exact if_pos hd

/-- A block gone from its queue, its credit returned. -/
def blockGone (i : Nat) (b : Blk) (s : State) : State :=
  { s with queues := tmod {} s.queues i fun q => { q with blocks := q.blocks.erase b },
           hives := tmod {} s.hives (hiveOf (i / 1024)) fun h => { h with credits := min 64 (h.credits + 1) } }

theorem dropBlock_eq (i : Nat) (b : Blk) (s : State) : dropBlock i b s = queueWork i (blockGone i b s) := rfl

theorem blockGone_same (i : Nat) (b : Blk) (s : State) : SameBut [.queues, .hives] s (blockGone i b s) :=
  (set_queues_same s (blockGone i b s).queues).andThen (set_hives_same _ (blockGone i b s).hives)

theorem blockGone_credit (hw : twf {} s.hives = true) (i : Nat) (b : Blk) : CreditBack (hiveOf (i / 1024)) s (blockGone i b s) := by
  have hset := twf_tmod hw (hiveOf (i / 1024)) fun h => { h with credits := min 64 (h.credits + 1) }
  refine ⟨hset, ?_⟩
  rw [hiveAt, blockGone, tget_tmod_same hw]
  rfl

/-- A flush or close that the queue ends with it leaves the credit returned. -/
theorem dropBlock_credit (hl : Live s) (i : Nat) (b : Blk) : CreditBack (hiveOf (i / 1024)) s (dropBlock i b s) := by
  have hgone := blockGone_credit hl.canon.hives i b
  have hctx : twf {} (blockGone i b s).contexts = true := hl.canon.contexts
  exact dropBlock_eq i b s ▸ hgone.trans (queueWork_credits hgone.canon hctx i)

theorem dropBlock_same (hl : Live s) (i : Nat) (b : Blk) : SameBut queueEndParts s (dropBlock i b s) := by
  have hctx : twf {} (blockGone i b s).contexts = true := hl.canon.contexts
  exact dropBlock_eq i b s ▸ ((blockGone_same i b s).andThen (queueWork_same hctx i)).mono (by decide)

theorem blockDiscarded_completes (hl : Live s) (hc : c < nCells s) (hq : q < 1024) (hb : readBlock s (queueNum c q) k = some b)
    (hd : b.discard = true) : Completes (.blockResident c q k) s fun t =>
      (hiveAt t (hiveOf c)).credits = min 64 ((hiveAt s (hiveOf c)).credits + 1) ∧
      SameBut [.active, .col, .faults, .hives, .mailboxes, .queues, .works] s t := by
  have hcell : queueNum c q / 1024 = c := by
    rw [queueNum]
    omega
  have hdrop := dropBlock_credit hl (queueNum c q) b
  rw [hcell] at hdrop
  have hcount : CreditBack (hiveOf c) s (discardCounted c (queueNum c q) b s) := by
    refine hdrop.trans (modHive_credits hdrop.canon ?_ _)
    exact fun _ => rfl
  have hsame : SameBut (queueEndParts ++ [.hives]) s (discardCounted c (queueNum c q) b s) :=
    (dropBlock_same hl (queueNum c q) b).andThen (modHive_same ..)
  refine completes_blockResident hl hc hq ?_
  rw [blockResident_drops hb hd]
  exact ⟨((hcount.trans (refillTook_credits hcount.canon ..)).settled s).credits,
    ((hsame.andThen (refillTook_same ..)).mono (by decide)).settled s⟩

/-! ### The clauses -/

/-- Settles O13: a doorbell by what it finds in the FIFO and of its queue, a refill by the hive's credits, a block by whether it was
discarded. -/
theorem queueEvents : Obligations.QueueEvents := by
  unfold Obligations.QueueEvents
  refine ⟨fun s k off v hl hk hroom ho => doorbellWrite_queued hl hk hroom ho,
    fun s k off w v hl hk hfull hm => doorbellWrite_overrun hl hk hfull hm,
    fun s d r hl hq hw => doorbellApply_waits hl hq hw,
    fun s d r hl hq hw => doorbellApply_rejected hl hq hw,
    fun s d r hl hq hw => ?_, fun s h hl hh hc => refillIssue_dry hl hh hc,
    fun s h i hl hh hp hc hpick hhive hquiet hd hnew hf => ?_,
    fun s c q b hl hc hq hb => ?_, fun s c q k b hl hc hq hb hd => ?_,
    fun s c q k b hl hc hq hb hd => blockDiscarded_completes hl hc hq hb hd⟩
  · intro i u hc hgood
    have htaken : doorbellTaken d r s = u := if_pos hc
    obtain ⟨t, ht, hset, hsame⟩ := doorbellApply_moves hl hq hw (htaken ▸ hgood) hc
    rw [htaken] at hsame
    exact ⟨t, ht, hset.field Queue.tail fun _ _ => rfl, hset.field Queue.head fun _ _ => rfl, hset.field Queue.st fun _ _ => rfl,
      hset.other, hsame⟩
  · obtain ⟨t, ht, ⟨bs, hlen, hset⟩, hcredits, hrr, hsame⟩ := refillIssue_requests hl hh hp hc hpick hquiet hd hnew hf
    rw [hhive] at hcredits hrr
    exact ⟨t, ht, hcredits, hrr, (congrArg List.length (hset.field Queue.blocks fun _ _ => rfl)).trans hlen,
      hset.field Queue.next fun _ _ => rfl, hset.field Queue.st fun _ _ => rfl, hset.other, hsame⟩
  · refine completes_blockResident hl hc hq ?_
    rw [blockResident_none hb]
    exact (SameBut.refl _ _).settled s
  · intro ca hgood
    obtain ⟨t, ht, hblocks, hcredit, hcomb, hsame⟩ := blockResident_completes hl hc hq hb hd hgood
    have hread := memRead_memWrite hl.canon.comb ca (memRead b.img b.addr b.len)
    have hout := fun a => memByte_memWrite_out s.comb ca (memRead b.img b.addr b.len) (c := a)
    rw [length_memRead] at hread hout
    refine ⟨t, ht, ⟨blockLanded s.time.tick b, ?_, rfl, rfl⟩, ?_, hcredit.credits, ?_, fun a ha => ?_, hsame⟩
    · rw [hblocks]
      exact List.mem_map.mpr ⟨b, List.mem_of_find?_eq_some hb, if_pos rfl⟩
    · rw [hblocks, List.length_map]
    · rw [hcomb]
      exact hread
    · rw [hcomb]
      exact hout a ha

end Sys2Proof.Arch

/-! CAP_BIND of a channel that has been armed since its last bind forgets the states it went through (R172, R180). -/

namespace Sys2Proof.Arch

open Sys2Proof Sys2Proof.Machine Sys2Proof.Safety Sys2Proof.Laws Sys2Proof.Scope

/-- CAP_BIND of channel 0 to domain 0 and slot 0 of link 16, for stacks and without a record ring. -/
def rebind : Instr := .capBind { ctx := 0, mb := 0, seq := 1 } 0 0 1 4096 0 0 1

/-- The bind, held for device time 0. -/
def rebindHeld : Held := ⟨0, 0, 0, 0, 1, 0, false, rebind⟩

/-- A live block in which the bind is due for a channel that has been armed, and has drained and come to rest. -/
def drainedRebind : State := { caps := [(0, drainedCap)], held := [rebindHeld] }

theorem drainedRebind_decides : Decides drainedRebind rebindHeld rebind where
  alive := rfl
  canon := by constructor <;> rfl
  cmd := rfl
  slot := by decide
  first := by decide
  due := by decide
  ready := by decide

/-- The states that channel 0 has gone through, as they stand after a step. -/
def statesAfter : Host.Outcome State Fault Refusal → List (Nat × CapSt)
  | .next t => (capAt t 0).states
  | _ => []

/-- No state of the samples of the last bind stands. -/
theorem drainedRebind_forgets : statesAfter (exec .commandDecision drainedRebind) = [] := by decide +kernel

/-- Refutes O14: its clause on CAP_BIND lists what the bind writes and leaves the states by which R180 judges late triggers as they
were, and the bind of a channel that has been armed before empties that list. -/
theorem not_captureDecisions : ¬ Obligations.CaptureDecisions := by
  unfold Obligations.CaptureDecisions
  rintro ⟨hbind, -⟩
  obtain ⟨t, ht, hsame⟩ := hbind drainedRebind rebindHeld _ _ _ _ _ _ _ _ drainedRebind_decides (by decide)
  have hcaps : t.caps = _ := hsame.same .caps (by decide)
  have hforgets := drainedRebind_forgets
  rw [ht] at hforgets
  have hempty : (capAt t 0).states = [] := hforgets
  rw [capAt, hcaps] at hempty
  exact absurd hempty (by decide)

end Sys2Proof.Arch

/-! Capture channels read and written, and the steps of a channel that touch no memory (R172 to R176, R180, R182, R183, R200). -/

namespace Sys2Proof.Arch

open Sys2Proof Sys2Proof.Machine Sys2Proof.Safety Sys2Proof.Laws Sys2Proof.Scope

variable {s t u : State} {c n r : Nat} {x y : Cap} {l : List Part} {f : Cap → Cap}

/-! ### One channel changed -/

/-- Of the capture channels only `c` has changed, and it reads `x` but for its epoch. -/
structure CapSet (c : Nat) (x : Cap) (s t : State) : Prop where
  canon : twf {} t.caps = true
  here : ∃ n, capAt t c = { x with epoch := n }
  other : ∀ k, k ≠ c → capAt t k = capAt s k

/-- A change of a channel that does not look at its epoch. -/
def CapEpochFree (f : Cap → Cap) : Prop := ∀ x n, ∃ m, f { x with epoch := n } = { f x with epoch := m }

theorem CapSet.refl (hw : twf {} s.caps = true) (c : Nat) : CapSet c (capAt s c) s s := ⟨hw, ⟨_, rfl⟩, fun _ _ => rfl⟩

theorem CapSet.trans (h : CapSet c x s u) (h' : CapSet c y u t) : CapSet c y s t :=
  ⟨h'.canon, h'.here, fun k hk => (h'.other k hk).trans (h.other k hk)⟩

/-- An effect that leaves the capture channels keeps what was written. -/
theorem CapSet.keep (h : CapSet c x s u) (h' : SameBut l u t) (hl : Part.caps ∉ l) : CapSet c x s t := by
  have hc : t.caps = u.caps := h'.same .caps hl
  obtain ⟨n, hn⟩ := h.here
  exact ⟨hc ▸ h.canon, ⟨n, (capAt_of_same h' hl c).trans hn⟩, fun k hk => (capAt_of_same h' hl k).trans (h.other k hk)⟩

theorem CapSet.settled (h : CapSet c x s t) (s0 : State) : CapSet c x s (settle s0 t) := h.keep (settle_same s0 t) (by simp)

/-- The channel is written again, by a table that differs in its entry. -/
theorem CapSet.entry {m : Word} (h : CapSet c x s u) (ht : t.caps = tset {} u.caps c { y with epoch := m }) : CapSet c y s t where
  canon := ht ▸ twf_tset h.canon c _
  here := ⟨m, by rw [capAt, ht, tget_tset_same h.canon]⟩
  other k hk := by
    rw [capAt, ht, tget_tset_other _ _ hk]
    exact h.other k hk

theorem CapSet.set (h : CapSet c x s u) (hf : CapEpochFree f) (ht : t.caps = tset {} u.caps c (f (capAt u c))) :
    CapSet c (f x) s t := by
  obtain ⟨n, hn⟩ := h.here
  obtain ⟨m, hm⟩ := hf x n
  exact h.entry (m := m) (by rw [ht, hn, hm])

theorem CapSet.put (h : CapSet c x s u) (y : Cap) : CapSet c y s (putCap u c y) := by
  obtain ⟨m, hm⟩ := putCap_caps u c y
  exact h.entry hm

theorem CapSet.mod (h : CapSet c x s u) (hf : CapEpochFree f) : CapSet c (f x) s (modCap u c f) := by
  obtain ⟨m, hm⟩ := putCap_caps u c (f (capAt u c))
  obtain ⟨n, hn⟩ := h.here
  obtain ⟨k, hk⟩ := hf x n
  exact h.entry (m := m) (by rw [modCap, hm, hn, hk])

/-- What does not look at the epoch reads of the channel as of the record written. -/
theorem CapSet.field {β : Type} (h : CapSet c x s t) (g : Cap → β) (hg : ∀ x n, g { x with epoch := n } = g x) :
    g (capAt t c) = g x := by
  obtain ⟨n, hn⟩ := h.here
  rw [hn, hg]

/-- A channel that keeps STATE, MODE and REARM keeps its epoch (R200). -/
theorem modCap_of_key (hst : (f (capAt s c)).st = (capAt s c).st) (hmode : (f (capAt s c)).mode = (capAt s c).mode)
    (hrearm : (f (capAt s c)).rearm = (capAt s c).rearm) :
    modCap s c f = { s with caps := tset {} s.caps c (f (capAt s c)) } := by
  unfold modCap putCap
  dsimp only
  rw [if_pos ⟨by rw [hst], hmode, hrearm⟩]

/-! ### A sample that is not written (R173, R175) -/

theorem completes_captureSample {w : Word} {P : State → Prop} (hl : Live s) (hc : c < nCells s)
    (hp : P (settle s (captureSample c w s))) : Completes (.captureSample c w) s P :=
  .of_act (f := captureSample c w) hl.alive (if_pos (decide_eq_true hc)) hp

/-- The base edge of the next sample of a channel has come, and every decision before it has been made. -/
structure CaptureDue (s : State) (c : Nat) : Prop where
  on : (capAt s c).st ≠ .off
  bound : (capAt s c).st ≠ .bound
  edge : capEdge (capAt s c) (capAt s c).n * (domAt s (capAt s c).domain).den * (domAt s (capAt s c).domain).div ≤
    s.time.tick * (domAt s (capAt s c).domain).num
  decided : capDecisionBefore s c (capEdge (capAt s c) (capAt s c).n) = false

theorem captureSample_due (h : CaptureDue s c) (w : Word) : captureSample c w s =
    if ringWritten s c then
      takeSample c (capEdge (capAt s c) (capAt s c).n)
        (edgeTick (domAt s (capAt s c).domain) (capEdge (capAt s c) (capAt s c).n)) w s
    else modCap s c fun y => { y with n := y.n + 1 } :=
  if_neg (by simp [h.on, h.bound, h.decided, Nat.not_lt.mpr h.edge])

/-- Where the ring is not written only the index goes on. -/
theorem captureSample_counts (hl : Live s) (hc : c < nCells s) (h : CaptureDue s c) (hr : ringWritten s c = false) (w : Word) :
    Completes (.captureSample c w) s
      (SameBut [] { s with caps := tset {} s.caps c { capAt s c with n := (capAt s c).n + 1 } }) := by
  refine completes_captureSample hl hc ?_
  rw [captureSample_due h, if_neg (ne_true_of_eq_false hr), modCap_of_key rfl rfl rfl]
  exact (SameBut.refl _ _).settled s

/-! ### An AUTO channel armed again (R182, R183) -/

/-- The record of a channel armed again from sample `n` at tick `r`. -/
def rearmed (n r : Nat) (x : Cap) : Cap :=
  { x with nA := n, tR := none, flags := if x.tC + 8 < r then x.flags ||| 0x800 else x.flags, st := .armed,
           states := (n, .armed) :: x.states.take 64 }

/-- The channel armed again; later than 8 ticks past its last sample, with LATE_REARM (R183). -/
def armedAgain (c n r : Nat) (s : State) : State :=
  capEnter c .armed n (modCap s c fun y =>
    { y with nA := n, tR := none, flags := if (capAt s c).tC + 8 < r then y.flags ||| 0x800 else y.flags })

/-- A channel armed again late is journaled. -/
theorem rearmAt_sampled (hn : capSampleAt (domAt s (capAt s c).domain) (capAt s c) r = some n) :
    rearmAt c r s =
      if (capAt s c).tC + 8 < r then jstate (armedAgain c n r s) 2 c (capCode .armed) 1 else armedAgain c n r s := by
  unfold rearmAt
  simp only [hn, decide_eq_true_eq]
  rfl

theorem armedAgain_set (hw : twf {} s.caps = true) (n r : Nat) : CapSet c (rearmed n r (capAt s c)) s (armedAgain c n r s) :=
  have hpoint := (CapSet.refl hw c).mod
    (f := fun y => { y with nA := n, tR := none, flags := if (capAt s c).tC + 8 < r then y.flags ||| 0x800 else y.flags })
    fun _ m => ⟨m, rfl⟩
  hpoint.mod (f := fun y => { y with st := .armed, states := (n, .armed) :: y.states.take 64 }) fun _ m => ⟨m, rfl⟩

theorem capEnter_same (c : Nat) (st : CapSt) (n : Nat) (s : State) : SameBut [.caps] s (capEnter c st n s) := modCap_same s c _

theorem armedAgain_same (c n r : Nat) (s : State) : SameBut [.caps] s (armedAgain c n r s) := by
  unfold armedAgain
  exact (modCap_same s c _).trans (capEnter_same ..)

theorem rearmAt_set (hw : twf {} s.caps = true) (hn : capSampleAt (domAt s (capAt s c).domain) (capAt s c) r = some n) :
    CapSet c (rearmed n r (capAt s c)) s (rearmAt c r s) ∧ SameBut [.caps, .jnl] s (rearmAt c r s) := by
  have hset := armedAgain_set (c := c) hw n r
  have hsame := armedAgain_same c n r s
  rw [rearmAt_sampled hn]
  split
  · exact ⟨hset.keep (jstate_same ..) (by decide), hsame.andThen (jstate_same ..)⟩
  · exact ⟨hset, hsame.mono (by decide)⟩

theorem rearmTick_due (hst : (capAt s c).st = .rearm) (ha : (capAt s c).rearm = 1) (hr : (capAt s c).tR = some r)
    (ht : r ≤ s.time.tick) : rearmTick c s = rearmAt c r s := by
  unfold rearmTick
  dsimp only
  rw [hr]
  exact if_pos ⟨hst, ha, ht⟩

theorem rearmTick_completes (hl : Live s) (hc : c < nCells s) (hst : (capAt s c).st = .rearm) (ha : (capAt s c).rearm = 1)
    (hr : (capAt s c).tR = some r) (ht : r ≤ s.time.tick)
    (hn : capSampleAt (domAt s (capAt s c).domain) (capAt s c) r = some n) :
    Completes (.rearmTick c) s fun t => CapSet c (rearmed n r (capAt s c)) s t ∧ SameBut [.caps, .jnl] s t := by
  obtain ⟨hset, hsame⟩ := rearmAt_set hl.canon.caps hn
  refine .of_act (f := rearmTick c) hl.alive (if_pos (decide_eq_true hc)) ?_
  rw [rearmTick_due hst ha hr ht]
  exact ⟨hset.settled s, hsame.settled s⟩

end Sys2Proof.Arch

/-! CAP_ARM_FILL_DONE (R196): the accumulators of an arm are filled with zeros, and the arm is answered. -/

namespace Sys2Proof.Arch

open Sys2Proof Sys2Proof.Machine Sys2Proof.Safety Sys2Proof.Laws Sys2Proof.Scope

variable {s : State} {x : Held} {h : Hdr} {c n : Nat} {a : CapArmArgs} {v w : List Held}

/-- The arm of a channel that a command has pending still has its accumulators to fill. -/
def fillPending (y : Cap) (serial : Nat) : Bool := (pendOf y serial).any (·.fill)

/-- The record of a channel whose pending arm has its accumulators filled. -/
def fillEnded (serial : Nat) (y : Cap) : Cap :=
  { y with arms := y.arms.map fun p => if p.serial = serial then { p with fill := false } else p }

theorem fillPending_fillEnded (serial : Nat) (y : Cap) : fillPending (fillEnded serial y) serial = false := by
  unfold fillPending
  rw [Option.any_eq_false_iff_get]
  intro hp
  have hfind := Option.some_get hp
  generalize (pendOf (fillEnded serial y) serial).get hp = p at hfind ⊢
  have hserial : p.serial = serial := by simpa using List.find?_some hfind.symm
  obtain ⟨q, -, rfl⟩ := List.mem_map.mp (List.mem_of_find?_eq_some hfind.symm)
  split at hserial
  · simp_all
  · contradiction

/-- The bytes of an arm's accumulators. -/
def zeros (a : CapArmArgs) : List Byte := List.replicate (8 * a.l) 0

/-- Where an arm's accumulators lie in the comb (R196). -/
def accAddr (c : Nat) (a : CapArmArgs) : Nat := combAddr (hiveOf c) 1 a.accBase

/-- The fill noted as done. -/
def fillNoted (x : Held) (c : Nat) (s : State) : State := { s with caps := tset {} s.caps c (fillEnded x.serial (capAt s c)) }

/-- The accumulators filled. -/
def accFilled (x : Held) (c : Nat) (a : CapArmArgs) (s : State) : State := combStore (fillNoted x c s) (accAddr c a) (zeros a)

theorem fillDone_fills (hp : fillPending (capAt s c) x.serial = true) : fillDone x c a s =
    finish (accFilled x c a s) x 0x0601 (some (2, c)) .ok
      (res [(4, capShift s (capAt s c) (edgeAt (domAt s (capAt s c).domain) x.dec))]) :=
  if_pos hp

/-- The commands held once the fill of `x` is answered. -/
def heldAnswered (x : Held) (s : State) : State :=
  { s with held := s.held.map fun y => if y = x then { x with reply := false } else y }

/-- The first arm of the channel that has its accumulators to fill ends its fill. -/
theorem capArmFillDone_fills (hh : s.held = v ++ x :: w) (hx : x.cmd = .capArm h c a)
    (hp : fillPending (capAt s c) x.serial = true)
    (hv : ∀ y ∈ v, ∀ g b, y.cmd = .capArm g c b → fillPending (capAt s c) y.serial = false) :
    capArmFillDone c s = fillDone x c a (heldAnswered x s) := by
  have hfind : (s.held.find? fun y => fillPending (capAt s c) y.serial && match y.cmd with
      | .capArm _ ch _ => ch = c
      | _ => false) = some x := by
    rw [hh, List.find?_append, List.find?_eq_none.mpr, List.find?_cons_of_pos]
    · rfl
    · simp [hp, hx]
    · intro y hy hfound
      rw [Bool.and_eq_true] at hfound
      obtain ⟨hfill, hcmd⟩ := hfound
      split at hcmd
      next g ch b hg =>
        rw [hv y hy g b (by rw [hg, of_decide_eq_true hcmd])] at hfill
        exact Bool.false_ne_true hfill
      next => exact Bool.false_ne_true hcmd
  unfold capArmFillDone
  split
  next hnone => cases hfind.symm.trans hnone
  next z hz =>
    cases hfind.symm.trans hz
    split
    next g k b hb =>
      cases hx.symm.trans hb
      rfl
    next hne => exact absurd hx (hne _ _ _)

/-- What the end of an arm's fill leaves. -/
structure AccFilled (x : Held) (c : Nat) (a : CapArmArgs) (s t : State) : Prop where
  comb : t.comb = memWrite s.comb (accAddr c a) (zeros a)
  cap : CapSet c (fillEnded x.serial (capAt s c)) s t
  held : t.held = (heldAnswered x s).held
  same : SameBut [.caps, .comb, .combMarks, .grave, .held] s t

theorem accFilled_filled (hw : twf {} s.caps = true)
    (hgood : ((wordsOf (accAddr c a) (8 * a.l)).any fun w => granuleBad s (w / 32)) = false) :
    AccFilled x c a s (accFilled x c a (heldAnswered x s)) := by
  have hheld : SameBut [.held] s (heldAnswered x s) := set_held_same s _
  have hcaps : SameBut [.caps] (heldAnswered x s) (fillNoted x c (heldAnswered x s)) := set_caps_same ..
  have hset : CapSet c (fillEnded x.serial (capAt s c)) s (fillNoted x c (heldAnswered x s)) :=
    (CapSet.refl hw c).set (f := fillEnded x.serial) (fun _ m => ⟨m, rfl⟩) rfl
  have hstore : SpanStored (accAddr c a) (zeros a) (fillNoted x c (heldAnswered x s)) (accFilled x c a (heldAnswered x s)) := by
    refine combStore_stored fun w hw => ?_
    rw [zeros, List.length_replicate] at hw
    exact eq_false_of_ne_true (List.any_eq_false.mp hgood w hw)
  exact ⟨hstore.comb, hset.keep hstore.same (by decide), hstore.same.same .held (by decide),
    ((hheld.andThen hcaps).andThen hstore.same).mono (by decide)⟩

/-- The fill is answered, and the command stays held without a reply to give. -/
theorem capArmFillDone_completes (hl : Live s) (hc : c < nCells s) (hh : s.held = v ++ x :: w) (hx : x.cmd = .capArm h c a)
    (hm : x.mb ≤ 4) (hp : fillPending (capAt s c) x.serial = true)
    (hv : ∀ y ∈ v, ∀ g b, y.cmd = .capArm g c b → fillPending (capAt s c) y.serial = false)
    (hgood : ((wordsOf (accAddr c a) (8 * a.l)).any fun w => granuleBad s (w / 32)) = false) :
    Completes (.capArmFillDone c) s fun t =>
      t.comb = memWrite s.comb (accAddr c a) (zeros a) ∧
      Replied s t x 0x0601 .ok (res [(4, capShift s (capAt s c) (edgeAt (domAt s (capAt s c).domain) x.dec))]) ∧
      t.held = (heldAnswered x s).held ∧ CapSet c (fillEnded x.serial (capAt s c)) s t ∧
      SameBut [.caps, .comb, .combMarks, .grave, .held, .mailboxes, .col] s t := by
  have hfill : AccFilled x c a s _ := accFilled_filled hl.canon.caps hgood
  refine .of_act (f := capArmFillDone c) hl.alive (if_pos (decide_eq_true hc)) ?_
  rw [capArmFillDone_fills hh hx hp hv, show fillDone x c a (heldAnswered x s) = _ from fillDone_fills hp]
  have hend := (finish_same (accFilled x c a (heldAnswered x s)) hm 0x0601 (some (2, c)) .ok
    (res [(4, capShift s (capAt s c) (edgeAt (domAt s (capAt s c).domain) x.dec))])).settled s
  exact ⟨(hend.same .comb (by decide)).trans hfill.comb, replied_of_same hl hfill.same (by decide) (by decide) _ _ _ _,
    (hend.same .held (by decide)).trans hfill.held, hfill.cap.keep hend (by decide), hfill.same.andThen hend⟩

end Sys2Proof.Arch

/-! A sample stored in the ring of an ARMED channel (R174, R177, R185, R192). -/

namespace Sys2Proof.Arch

open Sys2Proof Sys2Proof.Machine Sys2Proof.Safety Sys2Proof.Laws Sys2Proof.Scope

variable {s t u : State} {c n e tick : Nat} {r : CapRec} {w : Word} {l : List Part}

/-! ### Samples overwritten before they were read (R192) -/

/-- Parts that a lost sample changes: its bytes in DRAM, its record and channel, and what its loss raises. -/
def lossParts : List Part := [.caps, .dmcs, .dram, .dramMarks, .faults, .free, .grave, .hops, .jnl]

/-- What lost samples leave: of the channels only `c` has changed, in its records, its flags and its count of gap samples. -/
structure SamplesLost (c : Nat) (s t : State) : Prop where
  cap : ∃ rs f g, CapSet c { capAt s c with recs := rs, flags := f, gapSamples := g } s t
  same : SameBut lossParts s t

theorem SamplesLost.refl (hw : twf {} s.caps = true) (c : Nat) : SamplesLost c s s := ⟨⟨_, _, _, .refl hw c⟩, .refl _ s⟩

theorem SamplesLost.trans (h : SamplesLost c s u) (h' : SamplesLost c u t) : SamplesLost c s t := by
  obtain ⟨_, _, _, hu⟩ := h.cap
  obtain ⟨rs, f, g, ht⟩ := h'.cap
  obtain ⟨n, hn⟩ := hu.here
  obtain ⟨m, hm⟩ := ht.here
  rw [hn] at hm
  exact ⟨⟨rs, f, g, ht.canon, ⟨m, hm⟩, (hu.trans ht).other⟩, h.same.trans h'.same⟩

/-- An effect that leaves the channels. -/
theorem SamplesLost.keep (h : SamplesLost c s u) (h' : SameBut l u t) (hl : Part.caps ∉ l) (hp : ∀ p ∈ l, p ∈ lossParts) :
    SamplesLost c s t := by
  obtain ⟨rs, f, g, hu⟩ := h.cap
  exact ⟨⟨rs, f, g, hu.keep h' hl⟩, h.same.trans (h'.mono hp)⟩

theorem putRec_same (c : Nat) (r : CapRec) (s : State) : SameBut [.caps] s (putRec c r s) := set_caps_same s _

/-- The entry of a record ring that starts where `r` does is `r`. -/
def recPut (r : CapRec) (y : Cap) : Cap := { y with recs := y.recs.map fun k => if k.off = r.off then r else k }

theorem CapSet.putRec {x : Cap} (h : CapSet c x s u) (r : CapRec) : CapSet c (recPut r x) s (putRec c r u) :=
  h.set (f := recPut r) (fun _ m => ⟨m, rfl⟩) rfl

theorem SamplesLost.record (h : SamplesLost c s u) (r : CapRec) : SamplesLost c s (putRec c r u) := by
  obtain ⟨_, f, g, hu⟩ := h.cap
  exact ⟨⟨_, f, g, hu.putRec r⟩, h.same.trans ((putRec_same c r u).mono (by decide))⟩

/-- A lost sample counted. -/
def gapCounted (y : Cap) : Cap := { y with gapSamples := sat 0xFFFFFFFF y.gapSamples, flags := y.flags ||| 2 }

theorem SamplesLost.counted (h : SamplesLost c s u) : SamplesLost c s (modCap u c gapCounted) := by
  obtain ⟨rs, _, _, hu⟩ := h.cap
  exact ⟨⟨rs, _, _, hu.mod (f := gapCounted) fun _ m => ⟨m, rfl⟩⟩, h.same.trans ((modCap_same u c _).mono (by decide))⟩

theorem loseSample_lost (hw : twf {} s.caps = true) (n tick : Nat) (r : CapRec) : SamplesLost c s (loseSample c n tick r s) := by
  unfold loseSample
  extract_lets x bps first a s1 s2 s3
  have hbytes : SamplesLost c s s1 :=
    ((SamplesLost.refl hw c).keep (set_free_same s (s.free + 1)) (by decide) (by decide)).keep (dramStore_same ..) (by decide) (by decide)
  have hcount : SamplesLost c s s3 := (hbytes.record _).counted
  split
  · exact (hcount.keep (produce_same ..) (by decide) (by decide)).keep (capFault_same ..) (by decide) (by decide)
  · exact hcount

theorem overwrite_lost (hw : twf {} s.caps = true) (n tick : Nat) : SamplesLost c s (overwrite c n tick s) := by
  unfold overwrite
  extract_lets x m
  split
  · exact .refl hw c
  · refine foldl_keeps (P := SamplesLost c s) (fun u k hu => ?_) x.recs (.refl hw c)
    split
    · obtain ⟨_, _, _, hset⟩ := hu.cap
      exact hu.trans (loseSample_lost hset.canon m tick k)
    · exact hu

/-! ### The sample stored (R174, R177) -/

theorem granuleBad_of_same (h : SameBut l s t) (hl : Part.hives ∉ l) (g : Nat) : granuleBad t g = granuleBad s g := by
  rw [granuleBad, granuleBad, hiveAt_of_same h hl]

theorem rxCount_same (i : Nat) (ovr inv : Bool) (s : State) : SameBut [.links, .faults] s (rxCount i ovr inv s) := by
  unfold rxCount
  split
  · exact .refl _ s
  · split
    · exact (set_links_same s _).andThen (raise_same ..)
    · exact (set_links_same s _).mono (by decide)

/-- The sample's container counted, and journaled where RX_MASK says so (R271, R433). -/
def rxTaken (c e tick : Nat) (w : Word) (s : State) : State :=
  let x := capAt s c
  let v := storedSample s x e w
  let s0 := rxCount (x.slot / 256) v.2.2.1 v.2.2.2 s
  if rxJournaled s (x.slot / 256) then jput s0 tick (.rxdata (x.slot / 256) (x.slot % 256) e [v.1]) else s0

theorem rxTaken_same (c e tick : Nat) (w : Word) (s : State) : SameBut [.links, .faults, .jnl] s (rxTaken c e tick w s) := by
  unfold rxTaken
  extract_lets x v s0
  have hcount : SameBut [.links, .faults] s s0 := rxCount_same ..
  exact .ite (fun _ => hcount.andThen (jput_same ..)) fun _ => hcount.mono (by decide)

/-- The bytes stored for a sample (R174). -/
def sampleBytes (s : State) (c e : Nat) (w : Word) : List Byte :=
  le (capBps s (capAt s c)) (toField (8 * capBps s (capAt s c)) (storedSample s (capAt s c) e w).1)

/-- Where the channel's next sample goes (R177). -/
def sampleAddr (s : State) (c : Nat) : Nat := ringAddr s c (capAt s c) (capAt s c).n

/-- The sample in the ring, with what it overwrites lost. -/
def sampleStored (c e tick : Nat) (w : Word) (s : State) : State :=
  combStore (overwrite c (capAt s c).n tick (rxTaken c e tick w s)) (sampleAddr s c) (sampleBytes s c e w)

/-- The record of a channel that has taken sample `n`. -/
def sampleCounted (bad : Bool) (n : Nat) (y : Cap) : Cap := { (if bad then noteRxBad n y else y) with n := n + 1 }

/-- What storing a sample leaves. -/
structure SampleStored (c e : Nat) (w : Word) (s t : State) : Prop where
  comb : t.comb = memWrite s.comb (sampleAddr s c) (sampleBytes s c e w)
  cap : ∃ rs f g, CapSet c { capAt s c with recs := rs, flags := f, gapSamples := g } s t
  same : SameBut [.caps, .comb, .combMarks, .dmcs, .dram, .dramMarks, .faults, .free, .grave, .hops, .jnl, .links] s t

theorem sampleStored_stored (hw : twf {} s.caps = true) (e tick : Nat) (w : Word)
    (hgood : ((wordsOf (sampleAddr s c) (capBps s (capAt s c))).any fun w => granuleBad s (w / 32)) = false) :
    SampleStored c e w s (sampleStored c e tick w s) := by
  have hrx := rxTaken_same c e tick w s
  have hlost : SamplesLost c (rxTaken c e tick w s) (overwrite c (capAt s c).n tick (rxTaken c e tick w s)) :=
    overwrite_lost (by rwa [hrx.same .caps (by decide)]) _ tick
  have hu := hrx.andThen hlost.same
  have hstore : SpanStored (sampleAddr s c) (sampleBytes s c e w) (overwrite c (capAt s c).n tick (rxTaken c e tick w s))
      (sampleStored c e tick w s) := by
    refine combStore_stored fun v hv => ?_
    rw [sampleBytes, length_le] at hv
    rw [granuleBad_of_same hu (by decide)]
    exact eq_false_of_ne_true (List.any_eq_false.mp hgood v hv)
  obtain ⟨rs, f, g, hset⟩ := hlost.cap
  rw [capAt_of_same hrx (by decide)] at hset
  refine ⟨by rw [hstore.comb, hu.same .comb (by decide)], ⟨rs, f, g, ?_⟩, (hu.andThen hstore.same).mono (by decide)⟩
  exact (((CapSet.refl hw c).keep hrx (by decide)).trans hset).keep hstore.same (by decide)

theorem runLevel_off (h : (capAt s c).trigEn = false) (tick : Nat) (v : Int) : runLevel c tick v s = s := by
  unfold runLevel
  dsimp only
  rw [if_pos (by rw [h]; rfl)]

/-- Outside a window and without the level trigger a sample is stored and counted, and nothing else. -/
theorem takeSample_armed (hst : (capAt s c).st = .armed)
    (hoff : (capAt (modCap (sampleStored c e tick w s) c
      (sampleCounted (storedSample s (capAt s c) e w).2.1 (capAt s c).n)) c).trigEn = false) :
    takeSample c e tick w s =
      modCap (sampleStored c e tick w s) c (sampleCounted (storedSample s (capAt s c) e w).2.1 (capAt s c).n) := by
  unfold takeSample
  extract_lets x n v bad link s0 s1 s2 s3 s4 s5 win s6
  have h4 : s4 = modCap (sampleStored c e tick w s) c (sampleCounted bad n) := rfl
  have h5 : s5 = s4 := by
    unfold s5
    split
    · exact runLevel_off (h4 ▸ hoff) tick v.1
    · rfl
  have hwin : win = false := by simp [win, x, hst]
  have h6 : s6 = s5 := if_neg (ne_true_of_eq_false hwin)
  rw [if_neg (by simp [x, hst]), h6, h5, h4]

/-- What a sample of an ARMED channel leaves. -/
structure SampleTaken (c e : Nat) (w : Word) (s t : State) : Prop where
  comb : t.comb = memWrite s.comb (sampleAddr s c) (sampleBytes s c e w)
  cap : ∃ y : Cap, y.n = (capAt s c).n + 1 ∧ y.st = (capAt s c).st ∧ y.trigEn = (capAt s c).trigEn ∧ CapSet c y s t
  same : SameBut [.caps, .comb, .combMarks, .dmcs, .dram, .dramMarks, .faults, .free, .grave, .hops, .jnl, .links] s t

theorem SampleStored.counted (h : SampleStored c e w s u) (bad : Bool) :
    SampleTaken c e w s (modCap u c (sampleCounted bad (capAt s c).n)) := by
  have hmod := modCap_same u c (sampleCounted bad (capAt s c).n)
  obtain ⟨rs, f, g, hset⟩ := h.cap
  refine ⟨(hmod.same .comb (by decide)).trans h.comb,
    ⟨_, ?_, ?_, ?_, hset.mod (f := sampleCounted bad (capAt s c).n) ?_⟩, h.same.trans (hmod.mono (by decide))⟩
  all_goals cases bad
  case refine_4.false | refine_4.true => exact fun _ m => ⟨m, rfl⟩
  all_goals rfl

theorem SampleTaken.settled (h : SampleTaken c e w s t) (s0 : State) : SampleTaken c e w s (settle s0 t) := by
  obtain ⟨y, hn, hst, htrig, hset⟩ := h.cap
  exact ⟨(settle_comb ..).trans h.comb, ⟨y, hn, hst, htrig, hset.settled s0⟩, h.same.settled s0⟩

/-- The level trigger of the channel is as it was. -/
theorem SampleTaken.trigEn (h : SampleTaken c e w s t) : (capAt t c).trigEn = (capAt s c).trigEn := by
  obtain ⟨y, -, -, htrig, hset⟩ := h.cap
  exact (hset.field Cap.trigEn fun _ _ => rfl).trans htrig

theorem captureSample_stores (hl : Live s) (hc : c < nCells s) (h : CaptureDue s c) (hst : (capAt s c).st = .armed)
    (hoff : (capAt s c).trigEn = false) (hacts : wagActs s c = true) (w : Word)
    (hgood : ((wordsOf (sampleAddr s c) (capBps s (capAt s c))).any fun w => granuleBad s (w / 32)) = false) :
    Completes (.captureSample c w) s (SampleTaken c (capEdge (capAt s c) (capAt s c).n) w s) := by
  have hring : ringWritten s c = true := by simp [ringWritten, hacts, hst]
  have htaken := fun tick => (sampleStored_stored hl.canon.caps (capEdge (capAt s c) (capAt s c).n) tick w hgood).counted
    (storedSample s (capAt s c) (capEdge (capAt s c) (capAt s c).n) w).2.1
  refine completes_captureSample hl hc ?_
  rw [captureSample_due h, if_pos hring, takeSample_armed hst ((htaken _).trigEn.trans hoff)]
  exact (htaken _).settled s

end Sys2Proof.Arch

/-! The streamer's chunks, and records abandoned (R124, R125, R191 to R193). -/

namespace Sys2Proof.Arch

open Sys2Proof Sys2Proof.Machine Sys2Proof.Safety Sys2Proof.Laws Sys2Proof.Scope

variable {s t u : State} {c h j n a tick : Nat} {r : CapRec} {x : Cap} {e : DEntry} {d : List Byte} {p : Nat × Nat}
  {ps : List (Nat × Nat)} {l : List Part}

theorem completes_streamChunk {P : State → Prop} (hl : Live s) (hh : h < nHives s) (hp : P (settle s (streamChunk h n s))) :
    Completes (.streamChunk h n) s P :=
  .of_act (f := streamChunk h n) hl.alive (if_pos (decide_eq_true hh)) hp

/-! ### No record to serve, or its ring OFFLINE (R193) -/

theorem streamChunk_none (hs : nextStream s h = none) : streamChunk h n s = s := by
  unfold streamChunk
  rw [hs]

theorem streamChunk_some (hs : nextStream s h = some (c, r)) :
    streamChunk h n s = if ringOffline s (capAt s c) then abandon c s else streamRecord c r n s := by
  unfold streamChunk
  rw [hs]

theorem journalRun_same (c : Nat) (r : CapRec) (s : State) : SameBut [.jnl] s (journalRun c r s) :=
  .ite (fun _ => .refl _ s) fun _ => jput_same ..

/-- The record of a channel that has come to rest. -/
def capRested (y : Cap) : Cap := { y with st := .bound, areas := [], trig := none, tR := none }

/-- A channel that may come to rest keeps its records. -/
theorem CapSet.drained (hx : CapSet c x s u) : ∃ y : Cap, y.recs = x.recs ∧ CapSet c y s (capDrain c u) := by
  unfold capDrain
  dsimp only
  split
  · have hrest : CapSet c (capRested (capAt u c)) s (putCap u c (capRested (capAt u c))) := hx.put _
    exact ⟨capRested (capAt u c), hx.field Cap.recs fun _ _ => rfl, hrest.keep (deactivate_same ..) (by decide)⟩
  · exact ⟨x, rfl, hx⟩

/-- A record that is open is abandoned. -/
def recAbandoned (k : CapRec) : CapRec := if recOpen k then { k with abandoned := true, lostRun := 0 } else k

theorem recOpen_recAbandoned (k : CapRec) : recOpen (recAbandoned k) = false := by
  unfold recAbandoned
  split
  · simp [recOpen]
  · exact eq_false_of_ne_true ‹_›

/-- What is left of a channel whose records were abandoned. -/
structure RecsAbandoned (c : Nat) (s t : State) : Prop where
  cap : ∃ y : Cap, (∀ k ∈ y.recs, recOpen k = false) ∧ CapSet c y s t
  same : SameBut [.active, .caps, .hives, .jnl] s t

theorem abandon_abandoned (hw : twf {} s.caps = true) : RecsAbandoned c s (abandon c s) := by
  unfold abandon
  extract_lets x opened rs tR
  split
  next hnone =>
    have hclosed : ∀ k ∈ x.recs, recOpen k = false := by simpa [opened] using hnone
    exact ⟨⟨x, hclosed, .refl hw c⟩, .refl _ s⟩
  next =>
    have hset : CapSet c { x with recs := rs, tR := tR } s { s with caps := tset {} s.caps c { x with recs := rs, tR := tR } } :=
      (CapSet.refl hw c).entry (m := x.epoch) rfl
    have hruns := SameBut.foldl (fun u k => journalRun_same c k u) opened
      { s with caps := tset {} s.caps c { x with recs := rs, tR := tR } }
    obtain ⟨y, hy, hdrain⟩ := (hset.keep hruns (by decide)).drained
    refine ⟨⟨y, fun k hk => ?_, hdrain⟩, (((set_caps_same s _).andThen hruns).andThen (capDrain_same ..)).mono (by decide)⟩
    obtain ⟨k', -, rfl⟩ := List.mem_map.mp (hy ▸ hk)
    exact recOpen_recAbandoned k'

theorem streamChunk_abandons (hl : Live s) (hh : h < nHives s) (hs : nextStream s h = some (c, r))
    (ho : ringOffline s (capAt s c) = true) : Completes (.streamChunk h n) s (RecsAbandoned c s) := by
  obtain ⟨⟨y, hy, hset⟩, hsame⟩ := abandon_abandoned (c := c) hl.canon.caps
  refine completes_streamChunk hl hh ?_
  rw [streamChunk_some hs, if_pos ho]
  exact ⟨⟨y, hy, hset.settled s⟩, hsame.settled s⟩

/-! ### Entries of an access (R293) -/

/-- The entry of one piece of an access. -/
def pieceEntry (e : DEntry) (a : Nat) (d : List Byte) (tick : Nat) (p : Nat × Nat) : DEntry :=
  { e with addr := p.1 / 64 * 64, len := (p.1 + p.2 + 63) / 64 * 64 - p.1 / 64 * 64, queued := tick, pos := p.1,
           data := if e.write then (d.drop (p.1 - a)).take p.2 else [] }

theorem queuePieces_cons (e : DEntry) (a : Nat) (d : List Byte) (p : Nat × Nat) (ps : List (Nat × Nat)) (s : State) :
    queuePieces e a d (p :: ps) s =
      queuePieces e a d ps (queueEntry (dramChannel s p.1) (pieceEntry e a d s.time.tick p) s) := rfl

/-- Entries queued stay queued when another one is. -/
theorem mem_queueEntry {k : DEntry} (hk : k ∈ (dmcAt s j).queue) (c : Nat) (e : DEntry) :
    k ∈ (dmcAt (queueEntry c e s) j).queue := by
  by_cases hj : j = c
  · subst hj
    rw [queue_queueEntry_same]
    exact List.mem_append_left _ hk
  · rwa [dmcAt_queueEntry_other e s hj]

theorem mem_queuePieces {k : DEntry} (hk : k ∈ (dmcAt s j).queue) (e : DEntry) (a : Nat) (d : List Byte) (ps : List (Nat × Nat)) :
    k ∈ (dmcAt (queuePieces e a d ps s) j).queue :=
  foldl_keeps (P := fun u => k ∈ (dmcAt u j).queue) (fun _ _ hu => mem_queueEntry hu _ _) ps hk

theorem dramChannel_of_same (hs : SameBut l s t) (hl : Part.dramSettings ∉ l) (a : Nat) : dramChannel t a = dramChannel s a := by
  obtain ⟨-, hi, -⟩ : Part.dramSettings.Same s t := hs.same .dramSettings hl
  rw [dramChannel, dramChannel, hi]

/-- Every piece of an access has its entry on its channel. -/
theorem pieceEntry_queued (hp : p ∈ ps) (e : DEntry) (a : Nat) (d : List Byte) (s : State) :
    pieceEntry e a d s.time.tick p ∈ (dmcAt (queuePieces e a d ps s) (dramChannel s p.1)).queue := by
  induction ps generalizing s with
  | nil => cases hp
  | cons q ps ih =>
    have hq := queueEntry_same (dramChannel s q.1) (pieceEntry e a d s.time.tick q) s
    rw [queuePieces_cons]
    rcases List.mem_cons.mp hp with rfl | hp
    · exact mem_queuePieces (by rw [queue_queueEntry_same]; exact List.mem_append_right _ (List.mem_singleton.mpr rfl)) e a d ps
    · have hrest := ih hp (queueEntry (dramChannel s q.1) (pieceEntry e a d s.time.tick q) s)
      rwa [dramChannel_of_same hq (by decide), hq.same .time (by decide)] at hrest

/-! ### A chunk (R191) -/

/-- Bytes of a record's sample. -/
def chunkBps (s : State) (c : Nat) (r : CapRec) : Nat := if r.kind = 4 then 8 else capBps s (capAt s c)

/-- Samples of a record's next chunk, at most `n`. -/
def chunkCount (s : State) (c : Nat) (r : CapRec) (n : Nat) : Nat :=
  min n ((if r.kind = 4 then r.count else min r.count ((capAt s c).n - r.firstN)) - r.streamed)

/-- Where the record's next chunk goes. -/
def chunkAddr (s : State) (c : Nat) (r : CapRec) : Nat := recAddr (capAt s c) (r.off + 64 + chunkBps s c r * r.streamed)

/-- The pieces in which it goes there. -/
def chunkPieces (s : State) (c : Nat) (r : CapRec) (n : Nat) : List (Nat × Nat) :=
  entryPieces (chunkAddr s c r) (chunkBps s c r * chunkCount s c r n)

/-- What is read of the catch bank for it: its bytes and its spans. -/
def chunkData (s : State) (c : Nat) (r : CapRec) (n : Nat) : List Byte × List (Nat × Nat) :=
  chunkRead s c (capAt s c) r (chunkCount s c r n)

/-- The write of the chunk. -/
def chunkWrite (s : State) (c : Nat) (r : CapRec) (n : Nat) : DEntry :=
  { id := recId c r, master := 2, write := true, addr := chunkAddr s c r, len := chunkBps s c r * chunkCount s c r n, capture := true }

/-- The spans of a chunk read by the streamer. -/
def chunkTouched (ps : List (Nat × Nat)) (s : State) : State := ps.foldl (fun s p => touchSpan 2 0 p.1 p.2 s) s

/-- The chunk's reads made, its entries queued. -/
def chunkQueued (c : Nat) (r : CapRec) (n : Nat) (s : State) : State :=
  queuePieces (chunkWrite s c r n) (chunkAddr s c r) (chunkData s c r n).1 (chunkPieces s c r n)
    (chunkTouched (chunkData s c r n).2 s)

theorem streamBusy_counted (hh : twf {} s.hives = true) (c : Nat) : BusyCounted s (streamBusy c s) := by
  unfold streamBusy
  split
  · exact addBusy_counted hh _ _
  · exact .refl hh

theorem closeRun_none (hr : r.lostRun = 0) (c : Nat) (s : State) : closeRun c r s = s := if_pos hr

/-- The one record of a channel, read back from its place in the ring. -/
theorem find_record (hr : (capAt s c).recs = [r]) : (capAt s c).recs.find? (fun k => k.off = r.off) = some r := by
  rw [hr, List.find?_cons_of_pos (by simp)]

/-- Without write credits nothing happens. -/
theorem streamRecord_waits (hb : streamBusy c s = u) (hr : (capAt u c).recs = [r]) (hrun : r.lostRun = 0)
    (hno : creditsFor u (chunkPieces u c r n) = false) : streamRecord c r n s = s := by
  unfold streamRecord
  extract_lets s0
  have h0 : s0 = u := by simp only [s0, closeRun_none hrun, hb]
  clear_value s0
  subst h0
  split
  next hnone => cases hnone.symm.trans (find_record hr)
  next k hk =>
    cases hk.symm.trans (find_record hr)
    exact if_pos (.inr (congrArg not hno))

theorem streamRecord_moves (hb : streamBusy c s = u) (hr : (capAt u c).recs = [r]) (hrun : r.lostRun = 0)
    (hk : 0 < chunkCount u c r n) (hcredits : creditsFor u (chunkPieces u c r n) = true)
    (hue : ∀ p ∈ (chunkData u c r n).2, ¬ spanUe u p.1 p.2 = true) :
    streamRecord c r n s = putRec c { r with streamed := r.streamed + chunkCount u c r n } (chunkQueued c r n u) := by
  have hgo : ¬(chunkCount u c r n = 0 ∨ (!creditsFor u (chunkPieces u c r n)) = true) := by simp [hcredits]; omega
  have hnone : (chunkData u c r n).2.find? (fun p => spanUe u p.1 p.2) = none := List.find?_eq_none.mpr hue
  have hany : (chunkData u c r n).2.any (fun p => spanUe u p.1 p.2) = false := List.any_eq_false.mpr hue
  unfold streamRecord
  extract_lets s0
  have h0 : s0 = u := by simp only [s0, closeRun_none hrun, hb]
  clear_value s0
  subst h0
  split
  next hempty => cases hempty.symm.trans (find_record hr)
  next k hk =>
    cases hk.symm.trans (find_record hr)
    extract_lets b avail m a ps d ue s1 s2 data s3
    have hs2 : s2 = s1 := by
      unfold s2
      rw [show d.2.find? (fun p => spanUe s0 p.1 p.2) = none from hnone]
    have hclean : ue = false := hany
    have hs3 : s3 = chunkQueued c r n s0 := by
      simp only [s3, hs2, data, hclean]
      rfl
    rw [if_neg (show ¬(m = 0 ∨ (!creditsFor s0 ps) = true) from hgo), hs3, hclean]
    rfl

theorem chunkTouched_read (hh : twf {} s.hives = true) (hf : twf {} s.faults = true) (ps : List (Nat × Nat)) :
    WordsRead s (chunkTouched ps s) :=
  foldl_keeps (P := WordsRead s) (fun _ p hu => hu.trans (touchSpan_read hu.hives hu.faults 2 0 p.1 p.2)) ps (.refl hh hf)

/-! ### What a chunk does not depend on -/

theorem capBps_of_same (hs : SameBut l s t) (hl : Part.links ∉ l) (y : Cap) : capBps t y = capBps s y := by
  rw [capBps, capBps, linkAt_of_same hs hl]

theorem ringAddr_of_same (hs : SameBut l s t) (hl : Part.links ∉ l) (c : Nat) (y : Cap) (n : Nat) :
    ringAddr t c y n = ringAddr s c y n := by
  rw [ringAddr, ringAddr, capBps_of_same hs hl]

theorem chunkRead_of_same (hs : SameBut l s t) (hl : Part.links ∉ l) (hm : Part.comb ∉ l) (c : Nat) (y : Cap) (r : CapRec) (n : Nat) :
    chunkRead t c y r n = chunkRead s c y r n := by
  have hcomb : t.comb = s.comb := hs.same .comb hm
  simp only [chunkRead, hcomb, capBps_of_same hs hl, ringAddr_of_same hs hl]

theorem creditsFor_of_same (hs : SameBut l s t) (hd : Part.dmcs ∉ l) (hi : Part.dramSettings ∉ l) (ps : List (Nat × Nat)) :
    creditsFor t ps = creditsFor s ps := by
  have hdmcs : t.dmcs = s.dmcs := hs.same .dmcs hd
  have hchannel : dramChannel t = dramChannel s := funext (dramChannel_of_same hs hi)
  unfold creditsFor piecesOn dmcAt
  rw [hchannel, hdmcs]

/-- A chunk of a record is the same in two states. -/
structure SameChunk (c : Nat) (r : CapRec) (n : Nat) (s t : State) : Prop where
  count : chunkCount t c r n = chunkCount s c r n
  addr : chunkAddr t c r = chunkAddr s c r
  pieces : chunkPieces t c r n = chunkPieces s c r n
  data : chunkData t c r n = chunkData s c r n

theorem sameChunk_of_same (hs : SameBut l s t) (hc : Part.caps ∉ l) (hl : Part.links ∉ l) (hm : Part.comb ∉ l) (c : Nat)
    (r : CapRec) (n : Nat) : SameChunk c r n s t := by
  have hcap := capAt_of_same hs hc c
  have hbps : chunkBps t c r = chunkBps s c r := by simp only [chunkBps, hcap, capBps_of_same hs hl]
  have hcount : chunkCount t c r n = chunkCount s c r n := by simp only [chunkCount, hcap]
  have haddr : chunkAddr t c r = chunkAddr s c r := by simp only [chunkAddr, hcap, hbps]
  exact ⟨hcount, haddr, by simp only [chunkPieces, haddr, hbps, hcount],
    by simp only [chunkData, hcap, hcount, chunkRead_of_same hs hl hm]⟩

/-! ### The streamer's step -/

/-- Without write credits the streamer waits. -/
theorem streamChunk_waits (hl : Live s) (hh : h < nHives s) (hs : nextStream s h = some (c, r))
    (ho : ringOffline s (capAt s c) = false) (hrun : r.lostRun = 0) (hr : (capAt s c).recs = [r])
    (hno : creditsFor s (chunkPieces s c r n) = false) : Completes (.streamChunk h n) s (SameBut [] s) := by
  have hbusy := (streamBusy_counted hl.canon.hives c).same
  have hchunk := sameChunk_of_same hbusy (by decide) (by decide) (by decide) c r n
  have hwait : streamRecord c r n s = s := by
    refine streamRecord_waits rfl ?_ hrun ?_
    · rwa [capAt_of_same hbusy (by decide)]
    · rwa [hchunk.pieces, creditsFor_of_same hbusy (by decide) (by decide)]
  refine completes_streamChunk hl hh ?_
  rw [streamChunk_some hs, if_neg (ne_true_of_eq_false ho), hwait]
  exact (SameBut.refl _ _).settled s

/-- What a chunk that leaves the catch bank does. -/
structure ChunkMoved (c : Nat) (r : CapRec) (n : Nat) (s t : State) : Prop where
  cap : CapSet c (recPut { r with streamed := r.streamed + chunkCount s c r n } (capAt s c)) s t
  entries : ∀ p ∈ chunkPieces s c r n, ∃ e ∈ (dmcAt t (dramChannel s p.1)).queue, e.master = 2 ∧ e.id = recId c r ∧
    e.write = true ∧ e.capture = true ∧ e.pos = p.1 ∧ e.data = ((chunkData s c r n).1.drop (p.1 - chunkAddr s c r)).take p.2
  same : SameBut [.caps, .combMarks, .dmcs, .faults, .free, .hives] s t

theorem ChunkMoved.settled (hm : ChunkMoved c r n s t) (s0 : State) : ChunkMoved c r n s (settle s0 t) := by
  have hdmcs : (settle s0 t).dmcs = t.dmcs := settle_dmcs ..
  refine ⟨hm.cap.settled s0, fun p hp => ?_, hm.same.settled s0⟩
  rw [dmcAt, hdmcs]
  exact hm.entries p hp

theorem chunkQueued_moved (hl : Live s) (c : Nat) (r : CapRec) (n : Nat) :
    ChunkMoved c r n s (putRec c { r with streamed := r.streamed + chunkCount s c r n } (chunkQueued c r n (streamBusy c s))) := by
  have hcount := streamBusy_counted hl.canon.hives c
  generalize streamBusy c s = u at hcount ⊢
  obtain ⟨hcnt, haddr, hpieces, hdata⟩ := sameChunk_of_same hcount.same (by decide) (by decide) (by decide) c r n
  have hfaults : twf {} u.faults = true := (hcount.same.same .faults (by decide)) ▸ hl.canon.faults
  have hread := hcount.same.andThen (chunkTouched_read hcount.hives hfaults (chunkData u c r n).2).same
  have hqueue : SameBut [.dmcs] (chunkTouched (chunkData u c r n).2 u) (chunkQueued c r n u) := queuePieces_same ..
  have hput := putRec_same c { r with streamed := r.streamed + chunkCount s c r n } (chunkQueued c r n u)
  refine ⟨(((CapSet.refl hl.canon.caps c).keep hread (by decide)).keep hqueue (by decide)).putRec _, fun p hp => ?_,
    ((hread.andThen hqueue).andThen hput).mono (by decide)⟩
  have hmem := pieceEntry_queued (hpieces ▸ hp) (chunkWrite u c r n) (chunkAddr u c r) (chunkData u c r n).1
    (chunkTouched (chunkData u c r n).2 u)
  have hdmcs : (putRec c { r with streamed := r.streamed + chunkCount s c r n } (chunkQueued c r n u)).dmcs = (chunkQueued c r n u).dmcs :=
    hput.same .dmcs (by decide)
  rw [dramChannel_of_same hread (by decide)] at hmem
  refine ⟨_, by rw [dmcAt, hdmcs]; exact hmem, rfl, rfl, rfl, rfl, rfl, ?_⟩
  rw [← hdata, ← haddr]
  rfl

theorem streamChunk_moves (hl : Live s) (hh : h < nHives s) (hs : nextStream s h = some (c, r)) (hr : (capAt s c).recs = [r])
    (ho : ringOffline s (capAt s c) = false) (hrun : r.lostRun = 0) (hk : 0 < chunkCount s c r n)
    (hcredits : creditsFor s (chunkPieces s c r n) = true)
    (hue : ((chunkData s c r n).2.any fun p => spanUe s p.1 p.2) = false) :
    Completes (.streamChunk h n) s (ChunkMoved c r n s) := by
  have hcount := streamBusy_counted hl.canon.hives c
  have hbusy := hcount.same
  have hchunk := sameChunk_of_same hbusy (by decide) (by decide) (by decide) c r n
  have hmoves : streamRecord c r n s =
      putRec c { r with streamed := r.streamed + chunkCount s c r n } (chunkQueued c r n (streamBusy c s)) := by
    rw [← hchunk.count]
    refine streamRecord_moves rfl ?_ hrun ?_ ?_ fun p hp => ?_
    · rwa [capAt_of_same hbusy (by decide)]
    · rwa [hchunk.count]
    · rwa [hchunk.pieces, creditsFor_of_same hbusy (by decide) (by decide)]
    · rw [hcount.spanUe]
      exact List.any_eq_false.mp hue p (hchunk.data ▸ hp)
  refine completes_streamChunk hl hh ?_
  rw [streamChunk_some hs, if_neg (ne_true_of_eq_false ho), hmoves]
  exact (chunkQueued_moved hl c r n).settled s

end Sys2Proof.Arch

/-! RECORD_COMMIT (R182, R188), and O15. -/

namespace Sys2Proof.Arch

open Sys2Proof Sys2Proof.Machine Sys2Proof.Safety Sys2Proof.Laws Sys2Proof.Scope

variable {s t u : State} {c crc : Nat} {r : CapRec} {x y : Cap} {d : List Byte}

/-! ### A complete record committed -/

/-- The record of a channel whose WR has advanced over its longest committed run. -/
def wrAdvanced (y : Cap) : Cap :=
  let done := y.recs.takeWhile fun k => k.committed
  { y with recs := y.recs.drop done.length, wr := match done.getLast? with
      | some k => k.off + k.bytes
      | none => y.wr }

theorem CapSet.advanced (h : CapSet c x s u) : CapSet c (wrAdvanced x) s (advanceWr c u) :=
  h.set (f := wrAdvanced) (fun _ m => ⟨m, rfl⟩) rfl

theorem capDrain_of_st (h : (capAt s c).st ≠ .draining) : capDrain c s = s := if_neg (by simp [h])

/-- The last data of a record written, and its header. -/
def recWritten (c a crc : Nat) (d : List Byte) (r : CapRec) (s : State) : State := writeHeader c r crc (dramStore s a d)

theorem recWritten_same (c a crc : Nat) (d : List Byte) (r : CapRec) (s : State) :
    SameBut [.dram, .dramMarks, .dmcs, .jnl, .grave] s (recWritten c a crc d r s) :=
  (dramStore_same s a d).trans (dramStore_same ..)

/-- The record committed, and WR advanced over it. -/
def recCommitted (c a crc : Nat) (d : List Byte) (r : CapRec) (s : State) : State :=
  advanceWr c (putRec c { r with committed := true } (recWritten c a crc d r s))

/-- What the commit of a channel's only record leaves. -/
structure RecCommitted (c : Nat) (r : CapRec) (s t : State) : Prop where
  cap : ∃ y : Cap, y.recs = [] ∧ y.wr = r.off + r.bytes ∧ y.st = (capAt s c).st ∧ CapSet c y s t
  same : SameBut [.caps, .dmcs, .dram, .dramMarks, .grave, .jnl] s t

theorem recCommitted_committed (hw : twf {} s.caps = true) (hr : (capAt s c).recs = [r]) (a crc : Nat) (d : List Byte) :
    RecCommitted c r s (recCommitted c a crc d r s) := by
  have hdata := recWritten_same c a crc d r s
  have hput := putRec_same c { r with committed := true } (recWritten c a crc d r s)
  have hset := (((CapSet.refl hw c).keep hdata (by decide)).putRec { r with committed := true }).advanced
  refine ⟨⟨_, ?_, ?_, ?_, hset⟩, ((hdata.andThen hput).andThen (advanceWr_same ..)).mono (by decide)⟩
  · simp [wrAdvanced, recPut, hr]
  · simp [wrAdvanced, recPut, hr]
  · rfl

/-- In a window a commit neither ends a wait to re-arm nor brings the channel to rest. -/
theorem recordCommit_window (hw : twf {} s.caps = true) (hr : (capAt s c).recs = [r])
    (hready : commitReady s c (capAt s c) r = true) (hrun : r.lostRun = 0) (hst : (capAt s c).st = .window) :
    ∃ a crc d, recordCommit c s = recCommitted c a crc d r s := by
  have hfind : (capAt s c).recs.find? (commitReady s c (capAt s c)) = some r := by rw [hr, List.find?_cons_of_pos hready]
  have hwindow (a crc : Nat) (d : List Byte) : (capAt (recCommitted c a crc d r s) c).st = .window := by
    obtain ⟨y, -, -, hy, hset⟩ := (recCommitted_committed hw hr a crc d).cap
    rw [hset.field Cap.st fun _ _ => rfl, hy, hst]
  unfold recordCommit
  extract_lets x
  split
  next hnone => cases hnone.symm.trans hfind
  next r0 hr0 =>
    cases hr0.symm.trans hfind
    rw [closeRun_none hrun]
    dsimp only
    rw [find_record hr]
    dsimp only
    rw [if_neg, capDrain_of_st]
    · exact ⟨_, _, _, rfl⟩
    · exact fun hdrain => nomatch (hwindow _ _ _).symm.trans hdrain
    · exact fun hrearm => nomatch (hwindow _ _ _).symm.trans hrearm.1

theorem recordCommit_completes (hl : Live s) (hc : c < nCells s) (hr : (capAt s c).recs = [r])
    (hready : commitReady s c (capAt s c) r = true) (hrun : r.lostRun = 0) (hst : (capAt s c).st = .window) :
    Completes (.recordCommit c) s (RecCommitted c r s) := by
  obtain ⟨a, crc, d, hcommit⟩ := recordCommit_window hl.canon.caps hr hready hrun hst
  obtain ⟨⟨y, hrecs, hwr, hy, hset⟩, hsame⟩ := recCommitted_committed hl.canon.caps hr a crc d
  refine .of_act (f := recordCommit c) hl.alive (if_pos (decide_eq_true hc)) ?_
  rw [hcommit]
  exact ⟨⟨y, hrecs, hwr, hy, hset.settled s⟩, hsame.settled s⟩

/-! ### The clauses -/

/-- Settles O15: the fill by its store and reply, a sample by whether the ring is written, a re-arm by its record, a chunk by the ring
and the write credits, a commit by the one record it ends. -/
theorem captureEvents : Obligations.CaptureEvents := by
  unfold Obligations.CaptureEvents
  refine ⟨fun s x h c a v w hl hc hh hx hm hp hv hgood => ?_, fun s c w hl hc hst hoff _ hacts hedge hdec hgood => ?_,
    fun s c w hl hc hon hbound hring hedge hdec => captureSample_counts hl hc ⟨hon, hbound, hedge, hdec⟩ hring w,
    fun s c r n hl hc hst ha hr ht hn => ?_, fun s h n hl hh hs => ?_, fun s h n c r hl hh hs ho => ?_,
    fun s h n c r hl hh hs hr ho hkind hrun => ?_, fun s h n c r hl hh hs ho hrun hr => ?_,
    fun s c r hl hc hr hready hrun hst => ?_⟩
  · obtain ⟨t, ht, hcomb, hrep, hheld, hset, hsame⟩ := capArmFillDone_completes hl hc hh hx hm hp hv hgood
    obtain ⟨hin, hout⟩ := memWrite_bytes hl.canon.comb (accAddr c a) (zeros a)
    have hlen : (zeros a).length = 8 * a.l := List.length_replicate
    refine ⟨t, ht, fun i hi => ?_, fun i hi => ?_, hrep, ?_, ?_, ?_, hset.other, hsame⟩
    · rw [hcomb]
      exact (hin i (hlen ▸ hi)).trans (List.getElem_replicate _)
    · rw [hcomb]
      exact hout i (hlen ▸ hi)
    · rw [hheld]
      exact List.mem_map.mpr ⟨x, by rw [hh]; simp, if_pos rfl⟩
    · rw [hheld]
      exact List.length_map _
    · exact (hset.field (fillPending · x.serial) fun _ _ => rfl).trans (fillPending_fillEnded ..)
  · have hdue : CaptureDue s c := ⟨by simp [hst], by simp [hst], hedge, hdec⟩
    obtain ⟨t, ht, hcomb, ⟨y, hn, hy, -, hset⟩, hsame⟩ := captureSample_stores hl hc hdue hst hoff hacts w hgood
    have hread := memRead_memWrite hl.canon.comb (sampleAddr s c) (sampleBytes s c (capEdge (capAt s c) (capAt s c).n) w)
    have hlen : (sampleBytes s c (capEdge (capAt s c) (capAt s c).n) w).length = capBps s (capAt s c) := length_le ..
    rw [hlen] at hread
    refine ⟨t, ht, (hset.field Cap.n fun _ _ => rfl).trans hn, (hset.field Cap.st fun _ _ => rfl).trans (hy.trans hst),
      ⟨?_, fun i hi => ?_⟩, hset.other, hsame⟩
    · rw [hcomb]
      exact hread
    · rw [hcomb]
      exact memByte_memWrite_out _ _ _ (hlen ▸ hi)
  · obtain ⟨t, ht, hset, hsame⟩ := rearmTick_completes hl hc hst ha hr ht hn
    exact ⟨t, ht, hset.field Cap.st fun _ _ => rfl, hset.field Cap.nA fun _ _ => rfl, hset.field Cap.tR fun _ _ => rfl,
      hset.field Cap.flags fun _ _ => rfl, hset.other, hsame⟩
  · refine completes_streamChunk hl hh ?_
    rw [streamChunk_none hs]
    exact (SameBut.refl _ _).settled s
  · obtain ⟨t, ht, ⟨y, hclosed, hset⟩, hsame⟩ := streamChunk_abandons hl hh hs ho
    refine ⟨t, ht, ?_, hset.other, hsame.mono (by decide)⟩
    rwa [hset.field Cap.recs fun _ _ => rfl]
  · intro b k a hk hcredits hue
    have hbps : chunkBps s c r = b := if_neg (by simp [hkind])
    have hcount : chunkCount s c r n = k := by rw [chunkCount, if_neg (by simp [hkind])]
    have haddr : chunkAddr s c r = a := by rw [chunkAddr, hbps]
    have hpieces : chunkPieces s c r n = entryPieces a (b * k) := by rw [chunkPieces, haddr, hbps, hcount]
    have hdata : chunkData s c r n = chunkRead s c (capAt s c) r k := by rw [chunkData, hcount]
    obtain ⟨t, ht, hset, hentries, hsame⟩ := streamChunk_moves hl hh hs hr ho hrun (hcount ▸ hk) (hpieces ▸ hcredits) (hdata ▸ hue)
    rw [hpieces, haddr, hdata] at hentries
    refine ⟨t, ht, ?_, hentries, hset.other, hsame.mono (by decide)⟩
    rw [hset.field Cap.recs fun _ _ => rfl, ← hcount]
    simp [recPut, hr]
  · intro b k hno
    exact streamChunk_waits hl hh hs ho hrun hr hno
  · obtain ⟨t, ht, ⟨y, hrecs, hwr, hy, hset⟩, hsame⟩ := recordCommit_completes hl hc hr hready hrun hst
    exact ⟨t, ht, (hset.field Cap.recs fun _ _ => rfl).trans hrecs, (hset.field Cap.wr fun _ _ => rfl).trans hwr,
      (hset.field Cap.st fun _ _ => rfl).trans (hy.trans hst), hset.other, hsame⟩

end Sys2Proof.Arch
